-- ==== Sys2Proof/Word.lean ====
section
/-!
DEFINITION. The words of the model: bytes, byte strings and the small bounded numbers that name units.

The RMY20 is a block: it has no register file and no program counter.  What software sees as
bits (payload bytes, stored words, device memory) is a bit vector; what the manual counts, numbers or
compares is a natural number.
-/
namespace Sys2Proof

/-- One byte. -/
abbrev Byte := BitVec 8
/-- A string of bytes, lowest address first. -/
abbrev Bytes := List Byte
/-- One 64 B command ring entry, bit 0 the least significant bit of its first byte (R6). -/
abbrev Entry := BitVec 512

/-- Partition number: 0 is P0, 1 is P1. -/
abbrev PartNo := Fin 2
/-- Host port number: 0 is PA, 1 is PB. -/
abbrev PortNo := Fin 2
/-- Network port number: 0 is N0, 1 is N1. -/
abbrev NetNo := Fin 2
/-- Sub-port of a network port. -/
abbrev SubNo := Fin 4
/-- Ring number of a host port. -/
abbrev RingNo := Fin 256
/-- Stand number. -/
abbrev StandNo := Fin 20
/-- Vault number within a stand. -/
abbrev VaultNo := Fin 64
/-- Slice of a vault. -/
abbrev SliceNo := Fin 16
/-- Global core number (R6 conventions: stand × 60 + local number). -/
abbrev CoreNo := Fin 1200
/-- Update lane of a core. -/
abbrev LaneNo := Fin 8
/-- Flow number (R77). -/
abbrev FlowNo := Fin 262144
/-- Stream number of a partition. -/
abbrev StreamNo := Fin 4096
/-- Sample set number. -/
abbrev SetNo := Fin 16
/-- Epoch slot of a partition. -/
abbrev EpochNo := Fin 4
/-- Image handle. -/
abbrev HandleNo := Fin 8
/-- Key slot, zero based: 0–3 MGMT_KEY0–3, 4 MBOX_KEY_A, 5 MBOX_KEY_B (R373). -/
abbrev KeySlotNo := Fin 6

end Sys2Proof
end

