-- ==== Sys2Proof/Program.lean ====
section
/-!
DEFINITION. The parts of a pipeline image that the manual gives by content and not by byte layout
(Table 9.3: GRAPHS, LAYOUTS, PROGRAMS, LISTS, DECODERS, AUTOMATA, PLANS), and the rows that operators work on.

The header, the section table, the FLOWS, OPERATORS, SETS and SIGNATURE sections have byte layouts and are read
from the image's bytes.  The parts here come with the PIPE_LOAD command beside the bytes.
-/
namespace Sys2Proof

/-- Column types (Table 8.2). -/
inductive ColTy where
  | bool | i32 | i64 | f32 | bf16 | enum
  | fixed (n : Nat)
  | bytes
  | list (elem : Nat)
deriving DecidableEq, Repr

/-- One column of a row layout: its type and field offset. -/
structure ColSpec where
  ty : ColTy
  off : Nat
deriving DecidableEq, Repr

/-- A row layout (R203): columns and the row's maximum length. -/
structure Layout where
  cols : List ColSpec
  maxLen : Nat
deriving DecidableEq, Repr

/-- A value of a column.  `word` holds the field's bits; a list holds its elements' bits, a null element
being `none`. -/
inductive Val where
  | null
  | word (w : Nat)
  | bytes (b : Bytes)
  | list (ws : List (Option Nat))
  /-- A partial aggregate state (R227): rows, non-null values, their exact sum, value, and the provenance of a chosen value. -/
  | agg (rows count : Nat) (sum : Int) (v : Val) (prov : List Nat)
deriving DecidableEq, Repr

/-- A row with its provenance (R204), its TRUNC flag (Table 8.1) and its columns' values. -/
structure Row where
  stream : Nat
  openNo : Nat
  object : Nat
  ordinal : Nat
  trunc : Bool
  cols : List Val
deriving DecidableEq, Repr

/-- Register types of EXPR (R230). -/
inductive RegTy where
  | i64 | f32 | bool
deriving DecidableEq, Repr

/-- An EXPR program: its 32-bit instructions and its typed constants (R230). -/
structure ExprProg where
  code : List (BitVec 32)
  consts : List (RegTy × Nat)
deriving DecidableEq, Repr

/-- One output column of a projection map: a source column (probe side first, then build side) or a constant,
and the target type (R217, R224). -/
inductive MapEntry where
  | src (col : Nat) (ty : ColTy)
  | const (v : Val) (ty : ColTy)
deriving DecidableEq, Repr

/-- One aggregate: function of Table 8.15, source column, output column (R227). -/
structure Agg where
  fn : Nat
  src : Nat
  out : Nat
deriving DecidableEq, Repr

/-- An entry of the LISTS section. -/
inductive ListEntry where
  | map (m : List MapEntry)
  | bounds (ints : Bool) (vals : List Nat)
  | aggs (as : List Agg)
deriving DecidableEq, Repr

/-- A token of an Avro schema in pre-order, with the types of Table 6.8.  `record n` is followed by its `n`
fields, `array`, `map` and `union` by their element.  `union nullFirst` is a union of null and one type. -/
inductive AvroTok where
  | null | boolean | int | long | float | double | bytes
  | fixed (n : Nat)
  | enum (symbols : Nat)
  | record (fields : Nat)
  | array | map
  | union (nullFirst : Bool)
  | date | tsMillis | tsMicros
deriving DecidableEq, Repr

/-- A schema position and the column it decodes into, where it has one. -/
structure AvroField where
  tok : AvroTok
  col : Option Nat
deriving DecidableEq, Repr

/-- A JSON path and the column it maps to (R173). -/
structure JsonKey where
  path : List Bytes
  col : Nat
deriving DecidableEq, Repr

/-- A decoder table (R169, R173, R174). -/
structure DecoderTable where
  /-- 0 Avro, 1 JSON Lines, 2 fixed record (Table 6.6). -/
  format : Nat
  hashes : List Bytes
  layout : Nat
  schema : List AvroField
  json : List JsonKey
  /-- Fixed record: column of each field of the field table. -/
  fixedCols : List (Option Nat)
  /-- The declared partition key and seed by which records are placed as they leave the decode flow (R14); no column
  where none is declared. -/
  partKeys : List Nat
  partSeed : Nat
  /-- Columns bound to automata: column, automaton index, output column (R341). -/
  binds : List (Nat × Nat × Nat)
deriving DecidableEq, Repr

/-- A stage of a graph (R242): operator, END_IN code, input flow index, for a sink its sample set, and the placement
tag of its input edge: key columns and seed (R232). -/
structure GraphStage where
  op : Nat
  endIn : Nat
  inFlow : Nat
  sinkSet : Option Nat
  tagKeys : List Nat
  tagSeed : Nat
deriving DecidableEq, Repr

/-- A graph of the image. -/
structure Graph where
  index : Nat
  stages : List GraphStage
deriving DecidableEq, Repr

/-- A packed field of a batch plan (Table 7.4, R198). -/
structure PackedField where
  elemSize : Nat
  rowLen : Nat
  packRows : Nat
  col : Nat
deriving DecidableEq, Repr

/-- A bag the assembly kernel pools (R185, R229). -/
structure BagSpec where
  feature : Nat
  idCol : Nat
  weightCol : Option Nat
  table : Nat
  pool : Nat
  outFmt : Nat
deriving DecidableEq, Repr

/-- A batch plan (Table 7.4). -/
structure BatchPlan where
  batch : Nat
  set : Nat
  asmFlow : Nat
  prepDepth : Nat
  stagingFirst : Nat
  stagingLen : Nat
  asmFirst : Nat
  asmRegions : Nat
  dropCap : Nat
  denseBytes : Nat
  pooledBytes : Nat
  proj : Bool
  template : Bytes
  packed : List PackedField
  layout : Nat
  denseCols : List Nat
  bags : List BagSpec
  /-- EXPR programs the assembly flow runs on each row (R189). -/
  exprs : List Nat
deriving DecidableEq, Repr

/-- A pattern automaton: the bytes of its header and tables (R335). -/
structure Automaton where
  bytes : Bytes
deriving DecidableEq, Repr

/-- The parts of an image that come parsed. -/
structure ImageContent where
  graphs : List Graph
  layouts : List Layout
  programs : List ExprProg
  lists : List ListEntry
  decoders : List DecoderTable
  automata : List Automaton
  plans : List BatchPlan
deriving DecidableEq, Repr

end Sys2Proof
end

