-- ==== Sys2Proof/Syntax.lean ====
section
/-!
DEFINITION. The commands of the RMY20: one constructor per row of the table of operations and events, and
the types of their operands.

A command carries only what comes from outside the module (bytes a host's memory returns, a received packet,
a sensor reading, the number of a unit an event names).  Everything else is read from the state.
-/
namespace Sys2Proof

/-- The path of a BOP message: port M, or the mailbox of a host port (R368). -/
inductive BopPath where
  | m
  | mbox (port : PortNo)
deriving DecidableEq, Repr

/-- A BOP message.  On M it arrives with its source address, source UDP port and whether it was sent to
ff02::1; in a mailbox its bytes are those the request buffer holds. -/
inductive BopMsg where
  | m (src : Nat) (srcPort : Nat) (multicast : Bool) (bytes : Bytes)
  | mbox (port : PortNo)
deriving DecidableEq, Repr

/-- One access to an object of the object dictionary: a BOP message, or an OD_WRITE command on a ring with
the bytes its DMA read returned. -/
inductive Access where
  | bop (msg : BopMsg)
  | ring (id : Nat) (data : Bytes)
deriving DecidableEq, Repr

/-- What completes: an item of a flow, or the record at the front of an update lane (R92, R317). -/
inductive Completion where
  | item (flow : FlowNo) (seq : Nat)
  | lane (core : CoreNo) (lane : LaneNo)
deriving DecidableEq, Repr

/-- A PCIe configuration request: a read of a 4 B register by its offset, or a write of the power state, of MSI-X, or of Device
Control: codes of Max_Payload_Size and Max_Read_Request_Size, 128 B × 2^code, and of the tag size, 8, 10 or 14 bits. -/
inductive ConfigReq where
  | read (reg : Nat)
  | setD0 (d0 : Bool)
  | setMsix (enable mask : Bool)
  | setDevCtl (mps : Fin 3) (mrrs : Fin 6) (tags : Fin 3)
deriving DecidableEq, Repr

/-- Where an IPv6 neighbour or echo request arrives: a sub-port of a network port, or port M. -/
inductive NdPath where
  | net (net : NetNo) (sub : SubNo)
  | m
deriving DecidableEq, Repr

/-- The payload of a received UDP datagram with the addresses it carries (network order numbers). -/
structure RltPacket where
  v6 : Bool
  srcMac : Nat
  srcAddr : Nat
  srcPort : Nat
  dstAddr : Nat
  dstPort : Nat
  vlan : Bool
  bytes : Bytes
deriving DecidableEq, Repr

/-- What an optical module answers during the enable procedure of Table 6.3: whether it is present, its
management pages as (page × 256 + byte, value) pairs, and for each step of Table 6.3 whether its condition is
reached within the step's limit. -/
structure ModuleScript where
  present : Bool
  pages : List (Nat × Nat)
  reached : List Bool
deriving DecidableEq, Repr

/-- The two clock sources of the reference multiplexer. -/
inductive ClockSource where
  | xo
  | iosc
deriving DecidableEq, Repr

/-- A reset source of Table 19.5 that asserts from outside the object dictionary. -/
inductive ResetSource where
  | inputLow
  | brownout
  | tempTrip
  | watchdog
  | pllRelock
  | holdRelock
  | jtag
  | powerOn
deriving DecidableEq, Repr

/-- The commands, in the order of the table of operations and events. -/
inductive Instr where
  /-- NOP: The host port completes a NOP command with OK without queueing it, or with BAD_DESCRIPTOR if any body bit is set. (R126) -/
  | nop (id : Nat)
  /-- FENCE: A FENCE command stops fetching on its ring until every command in its scope has completed. (R127) -/
  | fence (id : Nat)
  /-- PIPE_LOAD: A PIPE_LOAD command reads, checks, verifies and loads a pipeline image, opening its flows with HOLD set. (R243) -/
  | pipeLoad (id : Nat) (image : Bytes) (parsed : ImageContent)
  /-- PIPE_RUN_GRAPH: A PIPE_RUN naming a graph is checked, discards the previous run's tables and schedules the release of HOLD on the graph's flows. (R244) -/
  | pipeRunGraph (id : Nat) (data : Bytes)
  /-- PIPE_RUN_EPOCH: A PIPE_RUN naming a batch plan is checked and starts an epoch, returning its epoch number. (R183) -/
  | pipeRunEpoch (id : Nat) (data : Bytes)
  /-- PIPE_STOP: A PIPE_STOP command is checked and takes effect at the next tick edge. (R245) -/
  | pipeStop (id : Nat)
  /-- PIPE_STOP_EDGE: At the edge after a PIPE_STOP, the image's work is aborted, its runs and epochs end, and it is unloaded if requested. (R246) -/
  | pipeStopEdge (part : PartNo)
  /-- TABLE_CREATE: A TABLE_CREATE command reserves directories and row areas on every core and creates version 1 of the table. (R274) -/
  | tableCreate (id : Nat) (data : Bytes)
  /-- TABLE_WRITE_ROWS: A TABLE_WRITE_ROWS command writes source records into the current or open version at the given grade. (R297) -/
  | tableWriteRows (id : Nat) (data : Bytes)
  /-- TABLE_VERSION_OPEN: A TABLE_VERSION_OPEN command opens an empty or cloned new version of a table. (R296) -/
  | tableVersionOpen (id : Nat)
  /-- TABLE_VERSION_SWITCH: A TABLE_VERSION_SWITCH command is checked and registered against its table. (R299) -/
  | tableVersionSwitch (id : Nat)
  /-- SWITCH_EDGE: Once earlier open-version writes have completed, at edge S the open version becomes current and the old one becomes retiring. (R299) -/
  | switchEdge (part : PartNo) (table : Nat)
  /-- TABLE_DROP: A TABLE_DROP command is checked and acts at the next tick edge. (R303) -/
  | tableDrop (id : Nat)
  /-- TABLE_DROP_EDGE: At the drop edge, the table's pending commands end with ABORTED, every version becomes retiring, and the command completes. (R303) -/
  | tableDropEdge (part : PartNo) (table : Nat)
  /-- LOOKUP: A LOOKUP command is checked and admitted to its flow, capturing the table version. (R308) -/
  | lookup (id : Nat) (data : Bytes)
  /-- UPDATE: An UPDATE command is checked, and its gradient records are routed to the update lanes of the rows' home cores. (R316) -/
  | update (id : Nat) (data : Bytes)
  /-- REGRADE_POLICY: A REGRADE_POLICY command sets a table's grading policy and may request a window close. (R286) -/
  | regradePolicy (id : Nat)
  /-- COPY: A COPY command writes padding and then the valid data of each copy descriptor in order. (R349) -/
  | copy (id : Nat) (data : Bytes)
  /-- COMPRESS: A COMPRESS command builds one Zstandard frame in staging and writes it to DST, unless the frame is not smaller than the input. (R358) -/
  | compress (id : Nat) (data : Bytes)
  /-- DECOMPRESS: A DECOMPRESS command decodes deflate or Zstandard input to DST within LIMIT. (R354) -/
  | decompress (id : Nat) (data : Bytes)
  /-- TOPK: A TOPK command selects the top k entries, or compacts entries by threshold, on cores and merge units. (R327) -/
  | topk (id : Nat) (data : Bytes)
  /-- ARGMAX: An ARGMAX command writes the best column of each row on a merge unit. (R333) -/
  | argmax (id : Nat) (data : Bytes)
  /-- MATCH: A MATCH command runs an automaton over strings on a pattern engine and writes result slots. (R339) -/
  | matchCmd (id : Nat) (data : Bytes)
  /-- MATMUL: A MATMUL command runs its matrix job descriptors in order on a matrix engine. (R260) -/
  | matmul (id : Nat) (data : Bytes)
  /-- OD_READ: An OD_READ command writes object bytes to host memory. (R395) -/
  | odRead (id : Nat)
  /-- OD_WRITE: An OD_WRITE command reads a value and writes it whole to an object that has no step of its own. (R395) -/
  | odWrite (id : Nat) (data : Bytes)
  /-- ATTEST: An ATTEST command takes, signs and writes an attestation report for the issuing partition. (R430) -/
  | attest (id : Nat)
  /-- FETCH_TURN: A host port takes a fetch turn on a fetchable ring and reads up to 8 pending command entries. (R115) -/
  | fetchTurn (port : PortNo) (ring : RingNo) (entries : List Entry)
  /-- FETCH_READ_FAILED: A failed read of command-ring entries sets ERROR on the ring and raises DMA_FAULT and RING_ERROR. (R130) -/
  | fetchReadFailed (port : PortNo) (ring : RingNo) (addr : Nat)
  /-- DMA_READ_FAILED: A command's DMA read returns an error or times out, and the command completes with LINK_RETRY_EXHAUSTED. (R130) -/
  | dmaReadFailed (id : Nat) (addr : Nat)
  /-- COMMAND_RING_TABLE_WRITE: A write to a command ring table entry enables, disables or reconfigures the ring. (R113) -/
  | commandRingTableWrite (port : PortNo) (off : Nat) (size : Nat) (value : Nat)
  /-- COMPLETION_RING_TABLE_WRITE: A write to a completion ring table entry enables or disables the ring; disabling discards its held completions. (R122) -/
  | completionRingTableWrite (port : PortNo) (off : Nat) (size : Nat) (value : Nat)
  /-- TAIL_DOORBELL: A command ring tail doorbell write announces pending entries, or sets ERROR when out of range. (R114) -/
  | tailDoorbell (port : PortNo) (ring : RingNo) (value : Nat)
  /-- HEAD_DOORBELL: A completion ring head doorbell write advances HEAD, releasing held completions and frame slots. (R122) -/
  | headDoorbell (port : PortNo) (ring : RingNo) (value : Nat)
  /-- TICK_LO_READ: A read of TICK_LO latches the tick counter and returns its low bits. (R112) -/
  | tickLoRead (port : PortNo)
  /-- BAR0_WRITE: A BAR0 write to a register, table or buffer with no behaviour of its own is taken or discarded. (R111) -/
  | bar0Write (port : PortNo) (off : Nat) (size : Nat) (value : Nat)
  /-- MOD_TICKS: At a tick edge the oldest unsignalled completion reaches MOD_TICKS, and the ring raises an MSI-X message. (R124) -/
  | modTicks (port : PortNo) (ring : RingNo)
  /-- CONFIG_REQUEST: A PCIe configuration request is answered, with Request Retry Status until the port is ready. (R135) -/
  | configRequest (port : PortNo) (req : ConfigReq)
  /-- PERST_ASSERT: Assertion of PERST# takes the link down, discards outstanding commands and resets the partition unless it is shared. (R133) -/
  | perstAssert (port : PortNo)
  /-- PERST_RELEASE: Release of PERST# applies REFCLK_MODE and starts link training. (R135) -/
  | perstRelease (port : PortNo)
  /-- HOT_RESET: A hot reset from the host acts on the port and partition as PERST# does. (R133) -/
  | hotReset (port : PortNo)
  /-- FLR: A Function Level Reset resets the port's registers and the partition, with the link kept up. (R133) -/
  | flr (port : PortNo)
  /-- LINK_DISABLE: Link disable from the host acts as PERST# does. (R133) -/
  | linkDisable (port : PortNo)
  /-- LINK_DOWN: A host link loss with no reset discards outstanding commands and closes the host's flows. (R133) -/
  | linkDown (port : PortNo)
  /-- BUS_MASTER_ENABLE: A change of Bus Master Enable stops or resumes every DMA, fetch, completion and MSI-X message of the port. (R131) -/
  | busMasterEnable (port : PortNo) (on : Bool)
  /-- PCIE_REPLAY: A PCIe link-layer replay on a host port is counted in REPLAYS. (R138) -/
  | pcieReplay (port : PortNo)
  /-- ITEM_DISPATCH: When a unit can take work, the dispatcher issues an item from a ready flow's dispatch window. (R86) -/
  | itemDispatch (flow : FlowNo) (seq : Nat) (unit : Nat)
  /-- ITEM_COMPLETION: An item completes on its unit and is released according to its flow's mode. (R92) -/
  | itemCompletion (what : Completion)
  /-- BOLT_END: A bolt ends inside a tick, the core switches to its parked or loaded slot, and the freed slot is refilled. (R89) -/
  | boltEnd (core : CoreNo)
  /-- CONTEXT_REFILL: A flow context is refilled from the yard, possibly after another context is spilled. (R99) -/
  | contextRefill (flow : FlowNo)
  /-- ITEM_REFILL: The dispatcher refills 64 items of a flow from the yard into the item pool. (R101) -/
  | itemRefill (flow : FlowNo)
  /-- ENQUEUE_RESUME: Space frees in the full item spill area, and a stalled bolt's enqueue proceeds. (R102) -/
  | enqueueResume (part : PartNo)
  /-- FLOW_OPEN: A write of FLOW_OPEN checks the context image and opens the flow. (R82) -/
  | flowOpen (acc : Access)
  /-- FLOW_CLOSE: A write of FLOW_CLOSE sets CLOSING and releases the flow's queued items with ABORTED. (R83) -/
  | flowClose (acc : Access)
  /-- SLOW_LANE: At a tick edge, an in-flight ordered-release item whose age reaches SOFT_BUDGET enters the slow lane. (R93) -/
  | slowLane (flow : FlowNo) (seq : Nat)
  /-- LATE_DROP: At a tick edge, an item is dropped with LATE when it reaches HARD_LIMIT, or when it is slow and heads a full boom. (R94) -/
  | lateDrop (flow : FlowNo) (seq : Nat)
  /-- HOLD: At a tick edge, firmware sets or clears HOLD on flows as a pending action requires. (R96) -/
  | hold (flow : FlowNo)
  /-- TICK_EDGE: At each tick edge the tick counter increments and every unit switches work and divides its capacity. (R33) -/
  | tickEdge
  /-- DEADLINE: At its deadline edge, every LAT request whose response has not left is marked late. (R51) -/
  | deadline
  /-- LAT_SHARE: A write of LAT_SHARE by M is checked and scheduled. (R40) -/
  | latShare (acc : Access)
  /-- LAT_SHARE_APPLY: At the second tick edge after the write, the new LAT_SHARE takes effect for both partitions. (R40) -/
  | latShareApply
  /-- MAINT_ANNOUNCE: Firmware announces a maintenance period for calibrating a stand that is due by interval or drift. (R45) -/
  | maintAnnounce (stand : StandNo) (lead : Nat)
  /-- MAINT_PERIOD: An announced maintenance period begins, and the stand's vault drivers and link PHYs are calibrated. (R69) -/
  | maintPeriod
  /-- REFRESH_INTERVAL: Each tREFI a vault owes one more refresh interval. (R64) -/
  | refreshInterval (stand : StandNo) (vault : VaultNo)
  /-- FORCED_REFRESH: At a tick edge with 8 intervals owed, the vault drains and runs a forced all-vault refresh. (R43) -/
  | forcedRefresh (stand : StandNo) (vault : VaultNo)
  /-- SLICE_REFRESH: A vault refreshes its next slice in a free MAINT cycle. (R65) -/
  | sliceRefresh (stand : StandNo) (vault : VaultNo)
  /-- TEMPERATURE_READING: Every 256 ticks the DRAM sensors of a stand are read. (R64) -/
  | temperatureReading (stand : StandNo) (readings : List Nat)
  /-- SENSOR_TIMEOUT: After 1,024 ticks with no successful reading, a stand enters hot mode. (R64) -/
  | sensorTimeout (stand : StandNo)
  /-- SCRUB_ACCESS: Each SCRUB_GAP_TICKS a vault owes a scrub read of the next 64 B, which corrects or logs errors. (R67) -/
  | scrubAccess (stand : StandNo) (vault : VaultNo)
  /-- WRITE_BACK: A queued corrected-word write-back is written in a free MAINT cycle. (R60) -/
  | writeBack (stand : StandNo) (vault : VaultNo)
  /-- REPAIR_PASS_START: A slice reaches REPAIR_THRESHOLD in a scrub pass, and firmware starts or queues its repair pass. (R62) -/
  | repairPassStart (stand : StandNo) (vault : VaultNo) (slice : SliceNo)
  /-- REPAIR_PASS_STEP: A repair pass rewrites the access at its cursor in the steered layout and activates the entry at the end. (R63) -/
  | repairPassStep
  /-- COUNTER_SAMPLE: At an event of the interval timer held by telemetry, counters are sampled. (R71) -/
  | counterSample
  /-- WIPE_COMPLETE: A wipe of its reach finishes, and WIPE_LAST_TICK, WIPE_LAST_SCOPE and WIPE_COUNT are written. (R73) -/
  | wipeComplete
  /-- FLIT_FAILURE: A stand-link receiver finds a bad CRC or sequence number and requests a replay. (R16) -/
  | flitFailure (stand : StandNo) (up : Bool)
  /-- LINK_RETRAIN: A flit fails 4 times in a row, the link retrains, and transfers in the replay buffer fail. (R17) -/
  | linkRetrain (stand : StandNo) (up : Bool)
  /-- RETRAIN_DONE: A stand-link retrain ends, and cross-stand transfers are admitted again. (R17) -/
  | retrainDone (stand : StandNo)
  /-- APPLY: A write of 1 to APPLY checks the pending division, resets and wipes both partitions, and activates it. (R26) -/
  | apply (acc : Access)
  /-- PART_RESET: A write to PART_RESET starts a partition-scoped CORE reset with wipe. (R136) -/
  | partReset (acc : Access)
  /-- ITEM_POOL: A write of ITEM_POOL_Px or YARD_ITEM_MIB is range-checked against the pending division. (R106) -/
  | itemPool (acc : Access)
  /-- SCRUB_PERIOD_H: A write of SCRUB_PERIOD_H recomputes SCRUB_GAP_TICKS. (R67) -/
  | scrubPeriodH (acc : Access)
  /-- PORT_ENABLE: A write of 1 to PORT_ENABLE runs the enable procedure of the network port's optical module. (R144) -/
  | portEnable (acc : Access) (module : ModuleScript)
  /-- PORT_DISABLE: A write of 0 to PORT_ENABLE stops receive, drives LPMode high and releases the pin claim. (R148) -/
  | portDisable (acc : Access)
  /-- LINK_UP: Host-side training and FEC lock finish on the sub-ports, and PORT_STATE becomes UP. (R144) -/
  | linkUp (net : NetNo) (subs : Nat)
  /-- MODULE_REMOVED: ModPrsL shows the module removed, and PORT_STATE becomes MODULE_ABSENT. (R147) -/
  | moduleRemoved (net : NetNo)
  /-- MODULE_PRESENT: A module becomes present on an enabled port, and the enable runs again from step 1. (R147) -/
  | modulePresent (net : NetNo) (module : ModuleScript)
  /-- MODULE_FAULT: The module reports a fault or leaves ModuleReady, and the sub-ports lose link. (R147) -/
  | moduleFault (net : NetNo)
  /-- RX_DISCARDS: A received Ethernet frame fails acceptance and is discarded and counted. (R141) -/
  | rxDiscards (net : NetNo) (sub : SubNo) (frame : Bytes) (fcsOk : Bool)
  /-- ARP_REQUEST: An ARP request for a sub-port's address is answered. (R139) -/
  | arpRequest (net : NetNo) (sub : SubNo) (frame : Bytes)
  /-- NEIGHBOR_SOLICITATION: An IPv6 Neighbor Solicitation for the port's own address is answered. (R139) -/
  | neighborSolicitation (path : NdPath) (frame : Bytes)
  /-- ECHO_REQUEST: An ICMP or ICMPv6 Echo Request is answered. (R139) -/
  | echoRequest (path : NdPath) (frame : Bytes)
  /-- MALFORMED: An RLT packet with a failed CRC or malformed header is discarded without reply. (R152) -/
  | malformed (net : NetNo) (sub : SubNo) (packet : RltPacket)
  /-- DATA: A received RLT DATA packet is classified as a duplicate, beyond the limit, or accepted into a slot. (R158) -/
  | data (net : NetNo) (sub : SubNo) (packet : RltPacket)
  /-- LOOKUP_REQ: A received LOOKUP_REQ is checked and admitted to its LAT flow. (R165) -/
  | lookupReq (net : NetNo) (sub : SubNo) (packet : RltPacket)
  /-- CREDIT: At a tick edge a stream sends a CREDIT after a change past CREDIT_GAP, or after KEEPALIVE ticks. (R159) -/
  | credit (part : PartNo) (stream : StreamNo)
  /-- NACK: A gap reaches NACK_DELAY ticks, and the stream sends a NACK listing the missing SEQ ranges. (R160) -/
  | nack (part : PartNo) (stream : StreamNo)
  /-- NACK_REPEAT: At an interval timer event held by RLT, streams with open gaps resend their NACK. (R161) -/
  | nackRepeat
  /-- GAP_LIMIT: A gap stays open for GAP_LIMIT ticks, and the stream fails. (R162) -/
  | gapLimit (part : PartNo) (stream : StreamNo)
  /-- NACK_PERIOD: A write of NACK_PERIOD claims or releases the interval timer for RLT. (R161) -/
  | nackPeriod (acc : Access)
  /-- STREAM_OPEN: A write of STREAM_OPEN checks the image, claims the regions and opens the stream. (R154) -/
  | streamOpen (acc : Access)
  /-- STREAM_CLOSE: A write of STREAM_CLOSE is checked and scheduled for the next tick edge. (R155) -/
  | streamClose (acc : Access)
  /-- STREAM_CLOSE_EDGE: At the edge, held packets are discarded, regions are released and the stream closes. (R155) -/
  | streamCloseEdge (part : PartNo) (stream : StreamNo)
  /-- WALK_RECORDS: A walker reads a stream's bytes in order, frames records and enqueues one item per record to DECODE_FLOW. (R167) -/
  | walkRecords (part : PartNo) (stream : StreamNo)
  /-- COMPRESSED_UNIT: A compressed ingest unit is decompressed on a lane into staging, or fails and becomes record holes. (R168) -/
  | compressedUnit (part : PartNo) (stream : StreamNo)
  /-- SET_SEAL: A write of SET_SEAL seals a sample set and starts its sort. (R179) -/
  | setSeal (acc : Access)
  /-- SET_SORT_END: The sort of a sealed set ends, and the set reads SEALED. (R179) -/
  | setSortEnd (part : PartNo) (set : SetNo)
  /-- SET_CLEAR: A write of SET_CLEAR empties a set that no epoch uses. (R179) -/
  | setClear (acc : Access)
  /-- FEED: While the prepared queue has room, the epoch feeder enqueues the next shuffle position to the assembly flow. (R185) -/
  | feed (part : PartNo) (epoch : EpochNo)
  /-- AUGMENTATION_READ: A 4 KiB read of augmentation entries completes, or fails and turns its positions into drops. (R190) -/
  | augmentationRead (part : PartNo) (epoch : EpochNo) (data : Bytes) (ok : Bool)
  /-- SHIP: A closed batch whose slot is free is projected, written as a frame, and announced by a notice. (R192) -/
  | ship (part : PartNo) (epoch : EpochNo)
  /-- END_NOTICE: After its last frame, an epoch writes an END notice and frees its epoch number. (R193) -/
  | endNotice (part : PartNo) (epoch : EpochNo)
  /-- END_MARK: A stage has received its expected end marks, and each core performs the end-mark action and passes one on. (R242) -/
  | endMark (part : PartNo) (image : HandleNo) (stage : Nat)
  /-- WINDOW_CLOSE: A table window closes after WINDOW_TICKS or on CLOSE_NOW, and every core starts a regrade pass. (R285) -/
  | windowClose (part : PartNo) (table : Nat)
  /-- MIGRATION_HOLD: At edge E firmware holds a lane, and a migration bolt writes the queued rows into new slots. (R290) -/
  | migrationHold (core : CoreNo) (lane : LaneNo)
  /-- MIGRATION_SWAP: At edge E + 1 the completed rows swap their directory entries and the lane hold clears. (R290) -/
  | migrationSwap (core : CoreNo) (lane : LaneNo) (written : Nat)
  /-- MIGRATION_ABANDON: At edge E + 2 unswapped rows are abandoned and the hold clears. (R291) -/
  | migrationAbandon (core : CoreNo) (lane : LaneNo) (written : Nat)
  /-- SLOT_FREE: A slot given up by a swap or a row write is freed once 4 ticks have passed and earlier requests have completed. (R293) -/
  | slotFree (core : CoreNo)
  /-- VERSION_RECLAIM: A retiring version is reclaimed once 4 ticks have passed and its capturing requests have completed. (R301) -/
  | versionReclaim (part : PartNo) (table : Nat)
  /-- DICT_LOAD: A write of DICT_LOAD loads a compression dictionary into the partition. (R360) -/
  | dictLoad (acc : Access)
  /-- DICT_UNLOAD: A write of DICT_UNLOAD is checked and scheduled for the next tick edge. (R361) -/
  | dictUnload (acc : Access)
  /-- DICT_UNLOAD_EDGE: At the edge after DICT_UNLOAD, the dictionary is removed. (R361) -/
  | dictUnloadEdge (part : PartNo)
  /-- HELLO: A BOP HELLO is answered with the module's identity. (R370) -/
  | hello (msg : BopMsg)
  /-- SESSION_INIT: A SESSION_INIT allocates a session ID and nonce for a key slot. (R373) -/
  | sessionInit (msg : BopMsg)
  /-- SESSION_CONFIRM: A SESSION_CONFIRM whose tag verifies opens the session. (R373) -/
  | sessionConfirm (msg : BopMsg)
  /-- SESSION_CLOSE: A SESSION_CLOSE ends the session after its OK response. (R376) -/
  | sessionClose (msg : BopMsg)
  /-- READ: A BOP READ returns bytes of an object. (R380) -/
  | read (msg : BopMsg)
  /-- WRITE: A BOP WRITE writes the whole value of an object that has no step of its own. (R381) -/
  | write (msg : BopMsg)
  /-- BLOCK_OPEN: A BLOCK_OPEN opens a block transfer to a DOMAIN object. (R382) -/
  | blockOpen (msg : BopMsg)
  /-- BLOCK_DATA: A BLOCK_DATA appends bytes to the open block. (R382) -/
  | blockData (msg : BopMsg)
  /-- BLOCK_COMMIT: A BLOCK_COMMIT checks the block and writes it as one WRITE of the object. (R382) -/
  | blockCommit (msg : BopMsg)
  /-- BLOCK_ABORT: A BLOCK_ABORT discards the open block. (R382) -/
  | blockAbort (msg : BopMsg)
  /-- STORE: A STORE writes the S objects of an area to the parameter store in flash. (R383) -/
  | store (msg : BopMsg)
  /-- RESTORE_DEFAULTS: A RESTORE_DEFAULTS writes a defaults record for an area. (R383) -/
  | restoreDefaults (msg : BopMsg)
  /-- SUBSCRIBE: A SUBSCRIBE sets the session's event mask. (R384) -/
  | subscribe (msg : BopMsg)
  /-- EVENT_ACK: An EVENT_ACK with a valid tag clears an unacknowledged event. (R385) -/
  | eventAck (msg : BopMsg)
  /-- EVENT: An occurrence of a subscribed cause sends an event, or raises the COUNT of an unacknowledged one. (R385) -/
  | event (cause : Nat) (part : Nat) (detail : Nat)
  /-- EVENT_RETRY: After 400,000 ticks an unacknowledged event is resent, or dropped after the eighth resend. (R385) -/
  | eventRetry (number : Nat)
  /-- BOP_MALFORMED: A malformed BOP message is discarded, or completed with BAD_DESCRIPTOR in a mailbox. (R369) -/
  | bopMalformed (msg : BopMsg)
  /-- CONFIRM_TIMEOUT: A session not confirmed within 4,000,000 ticks is discarded. (R373) -/
  | confirmTimeout (session : Nat)
  /-- SESSION_IDLE: A session ends after SESSION_IDLE ticks without an accepted request. (R376) -/
  | sessionIdle (session : Nat)
  /-- LOCK_EXPIRY: The 4,000,000-tick lock of a key slot ends. (R377) -/
  | lockExpiry (slot : KeySlotNo)
  /-- KEY_SLOT_WRITE: A write of a key slot stores a new key, unwrapped if needed, and appends a KIND 2 record. (R378) -/
  | keySlotWrite (acc : Access)
  /-- BEACON: A valid PLCA BEACON arrives, and the follower resumes PLCA. (R366) -/
  | beacon
  /-- BEACON_TIMEOUT: No BEACON arrives within the beacon timeout, and the port falls back to CSMA/CD. (R366) -/
  | beaconTimeout
  /-- TRANSMIT_OPPORTUNITY: The RMY20's PLCA transmit opportunity begins, and the MAC sends a complete frame or stays silent. (R365) -/
  | transmitOpportunity
  /-- TELEMETRY_PERIOD: A write of TELEMETRY_PERIOD claims, re-times or releases the interval timer for telemetry. (R401) -/
  | telemetryPeriod (acc : Access)
  /-- DEBUG_UART_ENABLE: A write of DEBUG_UART_ENABLE claims or releases the shared cage-1 pins for the debug UART. (R402) -/
  | debugUartEnable (acc : Access)
  /-- LC_REQUEST: A write of LC_REQUEST checks and carries out a life-cycle transition, ending in a SYS reset. (R424) -/
  | lcRequest (acc : Access)
  /-- SVN_COMMIT: A write of SVN_COMMIT burns security-version fuses up to the value. (R416) -/
  | svnCommit (acc : Access)
  /-- ATTEST_NONCE: A write of ATTEST_NONCE makes a report of both partitions for M. (R432) -/
  | attestNonce (acc : Access)
  /-- DEBUG_UNLOCK: A write of DEBUG_UNLOCK in DEPLOYED runs a wiping CORE reset and opens debug access. (R427) -/
  | debugUnlock (acc : Access)
  /-- DEBUG_TOKEN: A write of a valid DEBUG_TOKEN in RETURNED runs a wiping CORE reset and opens debug access. (R427) -/
  | debugToken (acc : Access)
  /-- BOOT: After a POR or SYS release the boot ROM reads fuses, checks and loads the image, or enters recovery. (R417) -/
  | boot
  /-- FRU_READ: The read of the carrier FRU EEPROM ends, and CARRIER_MAX_W and the active limit are set. (R494) -/
  | fruRead (fru : Bytes) (answered : Bool)
  /-- SAMPLE: The scaler takes a calibrated voltage and current sample and adds its energy to the accumulator. (R437) -/
  | sample (rawV : Int) (rawI : Int) (degC : Int)
  /-- INTERVAL_CLOSE: A scaler interval closes, and its record is built and signed. (R440) -/
  | intervalClose
  /-- RECORD_COMMIT: The scaler programs a signed record into its slot, commit word last. (R445) -/
  | recordCommit
  /-- CHECKPOINT: Every 10 s the scaler writes a checkpoint of its accumulator and interval. (R446) -/
  | checkpoint
  /-- FINAL_CHECKPOINT: The input falls below 27 V, and the scaler writes a final checkpoint and stops sampling. (R446) -/
  | finalCheckpoint
  /-- SCALER_POWER_UP: The scaler powers up, restores its newest checkpoint and closes the interrupted interval. (R446) -/
  | scalerPowerUp
  /-- WORK_FRAME_SEND: Every 4,000 ticks the landing sends a work frame of per-partition counts. (R441) -/
  | workFrameSend
  /-- WORK_FRAME: The scaler receives a work frame and adds its counts, or marks WORK_GAP. (R442) -/
  | workFrame (frame : Bytes)
  /-- STATUS_FRAME: The scaler sends a status frame every second, and resends records at 1 s and 10 s. (R452) -/
  | statusFrame
  /-- RECORD_LINK_FRAME: Firmware receives a record-link frame and updates the mirror objects, or discards it on a CRC failure. (R452) -/
  | recordLinkFrame (frame : Bytes)
  /-- SEAL_CHANGE: A debounced change of SEAL_OPEN# is accepted and written as an audit entry. (R447) -/
  | sealChange
  /-- SERVICE_WRITE: A service-port WRITE of SCL_INTERVAL_MIN or SCL_CAL closes the interval, increments AUDIT and applies the value. (R448) -/
  | serviceWrite (index : Nat) (sub : Nat) (value : Bytes)
  /-- SERVICE_READ: A service-port READ returns a scaler object or ring record. (R450) -/
  | serviceRead (index : Nat) (sub : Nat) (off : Nat) (len : Nat)
  /-- XO_QUALIFIED: The XO completes its qualifying cycle count. (R454) -/
  | xoQualified
  /-- IOSC_QUALIFIED: The IOSC completes its qualifying cycle count. (R454) -/
  | ioscQualified
  /-- REFERENCE_SWITCH: At the tick edge after XO qualification, the PLL reference switches from IOSC to XO. (R455) -/
  | referenceSwitch
  /-- MONITOR_TRIP: An XO or IOSC clock monitor trips, leading to fallback or the hold sequence. (R458) -/
  | monitorTrip (source : ClockSource)
  /-- PLL_UNLOCK: The PLL lock detector reports loss of lock, and all PLL domains are gated. (R458) -/
  | pllUnlock
  /-- PLL_RELOCK: The PLL relocks after a loss of lock, and a SYS reset is issued. (R458) -/
  | pllRelock
  /-- WATCHDOG: The watchdog expires, and a SYS reset is issued. (R464) -/
  | watchdog
  /-- SYS_REQUEST: M writes 1 to RESET_REQUEST, and a SYS reset is issued. (R464) -/
  | sysRequest (acc : Access)
  /-- CORE_REQUEST: M writes 2 to RESET_REQUEST, and a device-wide CORE reset is issued. (R464) -/
  | coreRequest (acc : Access)
  /-- JTAG: A JTAG system-reset instruction issues a SYS reset. (R464) -/
  | jtag
  /-- RESET_ASSERT: A reset source is asserted, the cause is written, the isolation wrappers close and the reach's domains enter reset. (R465) -/
  | resetAssert (src : ResetSource)
  /-- POR_RELEASE: The last POR or SYS source releases, and the release sequence samples the strap, locks the PLL and releases the domains. (R468) -/
  | porRelease (adc : Nat)
  /-- CORE_RELEASE: A CORE reset's wipe and calibration have ended and its sources have released, so its domains are released. (R470) -/
  | coreRelease (part : PartNo)
  /-- BLOCK_RESET: A write of BLOCK_RESET stops dispatch to a unit pending its reset. (R473) -/
  | blockReset (acc : Access)
  /-- BLOCK_RESET_CLEAN: At the first edge with the unit idle, the unit is reset, wiped, reloaded and released. (R473) -/
  | blockResetClean (unit : Nat)
  /-- QUIESCE_TICKS: After QUIESCE_TICKS the unit's isolation wrapper closes, and its items are released with ISOLATED. (R474) -/
  | quiesceTicks (unit : Nat)
  /-- RUN: A write of POWER_MODE 0 sets RUN mode. (R461) -/
  | run (acc : Access)
  /-- SLEEP: A write of POWER_MODE 1 sets SLEEP mode with the GATE_SLEEP gating. (R461) -/
  | sleep (acc : Access)
  /-- DEEP_SLEEP: A write of POWER_MODE 2 stops admission and waits for both ports and all flows to drain. (R461) -/
  | deepSleep (acc : Access)
  /-- DEEP_SLEEP_ENTRY: Once drained, the module enters DEEP_SLEEP, and the host links go down and vaults self-refresh. (R461) -/
  | deepSleepEntry
  /-- DEEP_SLEEP_REFUSED: When 4,000 ticks pass without draining, admission resumes and the write completes with RESOURCE_HELD. (R461) -/
  | deepSleepRefused
  /-- WAKE: An enabled wake source ends DEEP_SLEEP, and the exit sequence runs. (R462) -/
  | wake (source : Nat)
  /-- GATE_RUN: A write of GATE_RUN or GATE_SLEEP stops new items to cleared units or schedules ungating. (R463) -/
  | gateRun (acc : Access)
  /-- UNIT_GATED: A cleared unit is gated at the first idle edge, or isolated after QUIESCE_TICKS. (R463) -/
  | unitGated (unit : Nat)
  /-- MCLK_DIV: A write of MCLK_DIV or PCLK_DIV is checked and applied at the second tick edge. (R456) -/
  | mclkDiv (acc : Access)
  /-- STANDBY_ON: VIN reaches 20 V, and the standby domain and VIO_3V3 come up. (R477) -/
  | standbyOn
  /-- SWITCH_CLOSE: VIN and MATE have held in range for 100 ms, and the hot-swap switch ramps. (R477) -/
  | switchClose
  /-- UNDERVOLTAGE: VIN falls below 28 V, and the switch opens with POR cause INPUT_LOW. (R477) -/
  | undervoltage
  /-- OVERVOLTAGE: VIN exceeds 42 V for 10 µs, and the switch opens with POR cause BROWNOUT. (R477) -/
  | overvoltage
  /-- BREAKER: Input current exceeds the breaker limits, and the switch opens for 1 s. (R477) -/
  | breaker
  /-- MATE: MATE breaks, and the hot-swap switch opens within 10 µs. (R478) -/
  | mate
  /-- POWER_SAMPLE: Every 1 ms firmware samples input power and adjusts the cap duty. (R481) -/
  | powerSample (mw : Nat)
  /-- FAST_LIMITER: The 1 ms average exceeds the limit by 150 W, and the hardware sets BRAKE_DUTY. (R482) -/
  | fastLimiter (mw : Nat)
  /-- PWR_BRAKE: PWR_BRAKE# is asserted or released, and the brake duty changes within 2 µs. (R483) -/
  | pwrBrake (asserted : Bool)
  /-- THERMAL_THROTTLE: Every 1 ms firmware lowers or raises the thermal duty by the temperature readings. (R485) -/
  | thermalThrottle
  /-- THERM_TRIP: A reading reaches its trip threshold, THERM_TRIP# asserts, and the switch opens as a POR. (R486) -/
  | thermTrip (die : Nat) (reading : Nat)
  /-- TRIP_RELEASE: After 60,000,000 LFO cycles the trip releases, unless it is a third trip within the window. (R486) -/
  | tripRelease
  /-- MBOX_GO: A host write of 1 to GO in MBOX_CTRL clears DONE, sets BUSY and queues the mailbox message for firmware, or is discarded while BUSY is 1. (R132) -/
  | mboxGo (port : PortNo) (value : Nat)
  /-- HOST_LINK_UP: PCIe link training on a host port ends, so the link comes up and LINK_RATE and LINK_WIDTH take new values. (R135) -/
  | hostLinkUp (port : PortNo) (rate : Nat) (width : Nat)
  /-- SUBPORT_LINK_LOSS: A network sub-port loses link or FEC lock while its module stays healthy, so PORT_STATE leaves UP for LINK_DOWN. (R148) -/
  | subportLinkLoss (net : NetNo) (sub : SubNo)
  /-- STANDBY_LOSS: VIN falls below 20 V, so the standby domain stops, the thermal trip latch is cleared and THERMAL_TRIPS is reset. (R486) -/
  | standbyLoss
  /-- FAST_LIMITER_RELEASE: The hardware fast limiter releases its duty once the 1 ms average has stayed below the limit plus 150 W for at least 1 ms. (R482) -/
  | fastLimiterRelease (mw : Nat)
  /-- FIRMWARE_WRITTEN: The flash write of a firmware image ends with its commit word read back, FW_UPDATE_STATE becomes 2 or 3, and the BLOCK_COMMIT completes. (R419) -/
  | firmwareWritten (committed : Bool)
  /-- LANE_FRAME_END: A decompression lane finishes a Zstandard frame and, if another item waits and a tick edge has passed, returns the current item to its queue and takes the next. (R352) -/
  | laneFrameEnd (lane : Nat)
  /-- BEACON_TRANSMIT: As PLCA coordinator, the RMY20 starts a new PLCA cycle by sending a BEACON on M. (R364) -/
  | beaconTransmit
deriving DecidableEq, Repr

end Sys2Proof
end

