-- ==== Sys2Proof/Decode.lean ====
section
/-!
DEFINITION. The command a word of the table of operations and events spells.  No row of the table gives bits,
so no word spells a command.
-/
namespace Sys2Proof

/-- The command that a word of `nbits` bits spells: none, since the table gives its rows no bits. -/
def decodeTableWord (_nbits _w : Nat) : Option Instr := none

end Sys2Proof
end

