-- ==== Sys2Proof/Machine/Data.lean ====
section
/-!
DEFINITION. Plain helpers: byte order, bit fields, and sorted tables.

Byte order is decided here once: memory structures and PCIe payloads are little-endian, RLT and BOP headers
big-endian (R6).
-/
namespace Sys2Proof.Machine

/-- The number a little-endian byte string spells (R6). -/
def leNat : Bytes → Nat
  | [] => 0
  | b :: bs => b.toNat + 256 * leNat bs

/-- `n` bytes of `v`, little-endian (R6). -/
def leBytes : Nat → Nat → Bytes
  | 0, _ => []
  | n + 1, v => BitVec.ofNat 8 v :: leBytes n (v / 256)

/-- The number a big-endian byte string spells (R6, RLT and BOP headers). -/
def beNat (bs : Bytes) : Nat := leNat bs.reverse

/-- `n` bytes of `v`, big-endian (R6, RLT and BOP headers). -/
def beBytes (n v : Nat) : Bytes := (leBytes n v).reverse

/-- Bits [hi:lo] of a number. -/
def bitsOf (v hi lo : Nat) : Nat := v / 2 ^ lo % 2 ^ (hi + 1 - lo)

/-- Bit `i` of a number as a truth value. -/
def bitOf (v i : Nat) : Bool := v / 2 ^ i % 2 == 1

/-- A truth value as a bit. -/
def b2n (b : Bool) : Nat := if b then 1 else 0

/-- Set or clear bit `i` of a number. -/
def setBit (v i : Nat) (b : Bool) : Nat :=
  if bitOf v i = b then v else if b then v + 2 ^ i else v - 2 ^ i

/-- `n` bytes from byte `off` of a byte string; bytes past its end read zero. -/
def sliceB (bs : Bytes) (off n : Nat) : Bytes :=
  let t := (bs.drop off).take n
  t ++ List.replicate (n - t.length) 0

/-- The little-endian number at byte `off`, `n` bytes wide. -/
def leAt (bs : Bytes) (off n : Nat) : Nat := leNat (sliceB bs off n)

/-- The big-endian number at byte `off`, `n` bytes wide. -/
def beAt (bs : Bytes) (off n : Nat) : Nat := beNat (sliceB bs off n)

/-- A byte string cut or zero-padded to `n` bytes. -/
def fitB (n : Nat) (bs : Bytes) : Bytes := sliceB bs 0 n

/-- Quotient rounded up. -/
def divUp (a b : Nat) : Nat := (a + b - 1) / b

/-- The smaller number and a saturating counter step. -/
def satAdd (lim a b : Nat) : Nat := min lim (a + b)

/-! ### Sorted tables -/

/-- A table of entries by number, in rising order of the number and without repeats. -/
def look {α : Type} : List (Nat × α) → Nat → Option α
  | [], _ => none
  | (j, x) :: r, k => if j = k then some x else look r k

/-- The entry of `k`, or `d` where the table lists none. -/
def lookD {α : Type} (t : List (Nat × α)) (k : Nat) (d : α) : α := (look t k).getD d

/-- The table with the entry of `k` set. -/
def setAt {α : Type} : List (Nat × α) → Nat → α → List (Nat × α)
  | [], k, x => [(k, x)]
  | (j, y) :: r, k, x =>
    if k < j then (k, x) :: (j, y) :: r
    else if k = j then (k, x) :: r
    else (j, y) :: setAt r k x

/-- The table without an entry for `k`. -/
def dropAt {α : Type} : List (Nat × α) → Nat → List (Nat × α)
  | [], _ => []
  | (j, y) :: r, k => if j = k then r else (j, y) :: dropAt r k

/-- The entry of `k` changed by `f`, from `d` where the table lists none. -/
def modAt {α : Type} (t : List (Nat × α)) (k : Nat) (d : α) (f : α → α) : List (Nat × α) :=
  setAt t k (f (lookD t k d))

/-- The table with every entry changed by `f`. -/
def mapTab {α : Type} (f : Nat → α → α) (t : List (Nat × α)) : List (Nat × α) :=
  t.map fun e => (e.1, f e.1 e.2)

/-- A table whose unlisted entries read `d`, kept free of entries equal to `d`. -/
def putD {α : Type} [DecidableEq α] (t : List (Nat × α)) (k : Nat) (d x : α) : List (Nat × α) :=
  if x = d then dropAt t k else setAt t k x

/-- Insert an element before the first one that does not rank strictly below it. -/
def insertBy {α : Type} (lt : α → α → Bool) (x : α) : List α → List α
  | [] => [x]
  | y :: ys => if lt y x then y :: insertBy lt x ys else x :: y :: ys

/-- A list in rising order; elements that rank equal keep their order. -/
def sortBy {α : Type} (lt : α → α → Bool) (l : List α) : List α := l.foldr (insertBy lt) []

/-- Lexicographic order of numbers. -/
def ltList : List Nat → List Nat → Bool
  | a :: as, b :: bs => a < b || (a = b && ltList as bs)
  | [], _ :: _ => true
  | _, _ => false

/-- Split a byte string into pieces of `n` bytes (the last may be shorter), with fuel. -/
def chunksOf {α : Type} (n : Nat) : Nat → List α → List (List α)
  | 0, _ => []
  | fuel + 1, l =>
    match l with
    | [] => []
    | l => l.take n :: chunksOf n fuel (l.drop n)

/-- XOR of two byte strings, as long as the first. -/
def xorB : Bytes → Bytes → Bytes
  | a :: as, b :: bs => (a ^^^ b) :: xorB as bs
  | as, [] => as
  | [], _ => []

/-- Every byte is zero. -/
def allZero (bs : Bytes) : Bool := bs.all (· == 0)

end Sys2Proof.Machine
end

