-- ==== Sys2Proof/Machine/Hash.lean ====
section
/-!
DEFINITION. The digests the manual names by standard: SHA-256 (FIPS 180-4), HMAC-SHA-256 (FIPS 198-1) and CRC-32C
(R151).
-/
namespace Sys2Proof.Machine

/-! ### SHA-256 -/

/-- 32-bit wrap. -/
def w32 (x : Nat) : Nat := x % 2 ^ 32

/-- Rotate a 32-bit word right. -/
def rotr32 (x n : Nat) : Nat := w32 (x / 2 ^ n ||| x * 2 ^ (32 - n))

/-- The largest `r` of `n` more bits than `r` holds above them whose power `e` does not pass `x`: a root found bit by bit. -/
def rootUp (e x : Nat) : Nat → Nat → Nat
  | 0, r => r
  | n + 1, r => rootUp e x n (if (r + 2 ^ n) ^ e ≤ x then r + 2 ^ n else r)

/-- The first 32 bits of the fraction of the `e`-th root of `x`: FIPS 180-4 takes its constants so. -/
def rootFrac (e x : Nat) : Nat := w32 (rootUp e (x * 2 ^ (32 * e)) 37 0)

/-- The primes below 312: there are 64. -/
def primes64 : List Nat :=
  (List.range 312).filter fun n => 2 ≤ n && (List.range 18).all fun d => d < 2 || n ≤ d || n % d ≠ 0

/-- The round constants of SHA-256: cube roots of the first 64 primes. -/
def shaKeys : List Nat := primes64.map (rootFrac 3)

/-- The chaining value before the first block: square roots of the first eight primes. -/
def shaFirst : List Nat := (primes64.take 8).map (rootFrac 2)

/-- A message with its bit 1, its zeros and its length in bits, up to a whole number of 64 B blocks. -/
def shaPad (m : Bytes) : Bytes :=
  fitB ((m.length + 8) / 64 * 64 + 56) (m ++ [0x80]) ++ beBytes 8 (8 * m.length)

/-- XOR of a word rotated by two amounts and of a third word: the four sigma functions. -/
def shaMix (x i j y : Nat) : Nat := rotr32 x i ^^^ rotr32 x j ^^^ y

/-- The rounds of one block: `win` holds the next sixteen schedule words, `lo` the variables a–d, `hi` the variables e–h. -/
def shaRounds : List Nat → List Nat → List Nat → List Nat → List Nat
  | [], _, lo, hi => lo ++ hi
  | k :: ks, win, lo, hi =>
    let at' (l : List Nat) (i : Nat) : Nat := l.getD i 0
    let choose := at' hi 2 ^^^ (at' hi 0 &&& (at' hi 1 ^^^ at' hi 2))
    let most := (at' lo 0 &&& (at' lo 1 ||| at' lo 2)) ||| (at' lo 1 &&& at' lo 2)
    let t := at' hi 3 + shaMix (at' hi 0) 6 11 (rotr32 (at' hi 0) 25) + choose + k + at' win 0
    let later := at' win 0 + shaMix (at' win 1) 7 18 (at' win 1 / 2 ^ 3) + at' win 9 +
      shaMix (at' win 14) 17 19 (at' win 14 / 2 ^ 10)
    shaRounds ks (win.drop 1 ++ [w32 later])
      (w32 (t + shaMix (at' lo 0) 2 13 (rotr32 (at' lo 0) 22) + most) :: lo.take 3)
      (w32 (at' lo 3 + t) :: hi.take 3)

/-- The chaining value after one more block. -/
def shaNext (h : List Nat) (blk : Bytes) : List Nat :=
  (h.zip (shaRounds shaKeys ((chunksOf 4 16 blk).map beNat) (h.take 4) (h.drop 4))).map fun x => w32 (x.1 + x.2)

/-- SHA-256 of a byte string. -/
def sha256 (m : Bytes) : Bytes :=
  ((chunksOf 64 (m.length + 2) (shaPad m)).foldl shaNext shaFirst).flatMap (beBytes 4)

/-- HMAC-SHA-256. -/
def hmac (key msg : Bytes) : Bytes :=
  let k := fitB 64 (if 64 < key.length then sha256 key else key)
  sha256 (k.map (· ^^^ 0x5c) ++ sha256 (k.map (· ^^^ 0x36) ++ msg))

/-! ### CRC-32C -/

/-- Shift a reflected CRC-32C register by `n` bits. -/
def crcShift : Nat → Nat → Nat
  | 0, c => c
  | n + 1, c => crcShift n (if c % 2 = 1 then (c / 2) ^^^ 0x82F63B78 else c / 2)

/-- CRC-32C (Castagnoli) of a byte string: reflected, initial value and final XOR all ones (R151). -/
def crc32c (m : Bytes) : Nat :=
  (m.foldl (fun c b => crcShift 8 (c ^^^ b.toNat)) 0xFFFFFFFF) ^^^ 0xFFFFFFFF

end Sys2Proof.Machine
end

