-- ==== Sys2Proof/Config.lean ====
section
/-!
DEFINITION. What a module fixes at manufacture and the values the manual leaves open.

Every constant here is opaque: nothing can evaluate it, and no statement can rest on its value.
-/
namespace Sys2Proof

/-- A value the manual leaves open, numbered by a counter of the state that each use advances. -/
opaque Config.free : Nat → Nat

/-- A byte of host memory that the environment did not give with the command. -/
opaque Config.hostByte : Nat → Nat → Byte

/-- Fused identity values of the module: PCIe serial and first MAC addresses (R140, R367, R398). -/
opaque Config.serial : Nat
opaque Config.macBase : Nat
opaque Config.mgmtMac : Nat

/-- Which positions of a stand are disabled: four draws, each modulo the positions left (R10, R13). -/
opaque Config.fusedOff : Nat → Nat

/-- Where firmware places the areas of the yard (R98), and in which coreless vault of its stand a core's slot spill lies. -/
opaque Config.yardBase : Nat → Nat

/-- Repair entries fused at manufacture: stored bit position of a slice, or none (R62). -/
opaque Config.fuseRepair : Nat → Option (Fin 79)

/-- SLH-DSA-SHA2-128s verification of FIPS 205 (R239, R416). -/
opaque Config.slhVerify : Bytes → Bytes → Bytes → Bool

/-- The blocks of the Zstandard frame that a compression lane builds from a level, a window log, a dictionary and an
input (R358). -/
opaque Config.zstdBlocks : Nat → Nat → Bytes → Bytes → Bytes

/-- Which of the Frame_Content_Size fields wide enough for a content size a compression lane writes (R358). -/
opaque Config.fcsSize : Nat → Nat

/-- Which of the results within 2 units in the last place a logarithm (0) or exponential (1) of an operand gives
(R220, Table 8.19). -/
opaque Config.ulps : Nat → Nat → Nat

/-- What a doorbell of BAR0 reads as: by offset (Table 5.2). -/
opaque Config.doorbellRead : Nat → Nat

/-- A vector lane shifted by its width or more: operand and shift (Table 10.4). -/
opaque Config.shift : Nat → Nat → Nat

/-- The result of an integer conversion that Table 10.3 does not give: target column type code and value. -/
opaque Config.conv : Nat → Int → Nat

/-- Which of two values that compare equal an aggregate keeps (Table 8.15): the first where even. -/
opaque Config.tie : Nat → Nat → Nat

/-- The session nonce of a boot and a session counter (R373), and LC_NONCE of a boot count and a renewal count (R424),
as numbers of 16 bytes. -/
opaque Config.sessionNonce : Nat → Nat → Nat
opaque Config.lcNonce : Nat → Nat → Nat

/-- Fused hash of the vendor key (R414), 32 bytes as a number. -/
opaque Config.vendorKeyHash : Nat

/-- The kernel a kernel number names in a kernel library: 0 none, else 1 + the position of a kernel kind. -/
opaque Config.kernelCode : Bytes → Nat → Nat

/-- The manufacturer ID under which the carrier's FRU EEPROM names Gloaz (R494). -/
opaque Config.gloazFruId : Nat

/-- SHA-2-128f signature of a message under the attestation key of the main die or of the scaler, and their
32 B public keys (R428, R444). -/
opaque Config.attestSign : Bytes → Bytes
opaque Config.scalerSign : Bytes → Bytes
opaque Config.scalerKeyRecord : Bytes
opaque Config.scalerSwVersion : Nat

/-- A byte of the boot log that no entry has written (R412, R433). -/
opaque Config.erasedByte : Byte

end Sys2Proof
end

