-- ==== Sys2Proof/Machine/State.lean ====
section
/-!
DEFINITION. The state of the RMY20 as plain data, and the state after reset.
-/
namespace Sys2Proof.Machine

/-! ### Statuses, principals, output -/

/-- The closed set of status codes of Table 0.3 (R2). -/
inductive Status where
  | ok | partialOk | badDescriptor | noResource | overlap | resourceHeld | notPermitted
  | uncorrectable | isolated | linkRetryExhausted | deadline | late | corruptRecord
  | expansionLimit | notSmaller | authFail | locked | signatureBad | aborted
deriving DecidableEq, Repr

/-- The principals of the object dictionary (R390). -/
inductive Principal where
  | m | a | b | k
deriving DecidableEq, Repr

/-- What leaves the module, newest first in `State.out`: the writes and reads its host ports issue, the
messages they raise, the answers a host's read receives, the frames the network and management ports send,
and the frames of the scaler's links and service port. -/
inductive Output where
  | hostWrite (port addr : Nat) (bytes : Bytes)
  | flushRead (port addr : Nat)
  | msix (port vector : Nat)
  | readData (port value : Nat)
  | configAnswer (port : Nat) (retry : Bool)
  | aer (port : Nat)
  | ethernet (net sub : Nat) (bytes : Bytes)
  | neighbour (net sub : Nat) (bytes : Bytes)
  | mgmtFrame (dst dstPort : Nat) (bytes : Bytes)
  | mgmtNeighbour (bytes : Bytes)
  | beacon
  | burst (frames : Nat)
  | scalerFrame (bytes : Bytes)
  | serviceAnswer (status : Nat) (bytes : Bytes)
  | alert (asserted : Bool)
  | thermTrip (asserted : Bool)
  | moduleReset (net : Nat) (resetLow lpModeHigh : Bool)
  | moduleWrite (net addr value : Nat)
deriving DecidableEq, Repr

/-! ### The object dictionary -/

/-- Access attribute of an object (Table 16.2). -/
inductive OdAcc where
  | ro | rw | wo | const
deriving DecidableEq, Repr

/-- Who holds a right on an object (R390): the principals the column names; B only while SHARED; or the
rights by partition (R107), by host port (R138) and by network port (R149) of an object family. -/
inductive Right where
  | fixed (m a b k : Bool)
  | sharedB
  | part (per : Nat)
  | port
  | net
deriving DecidableEq, Repr

/-- One row of the dictionary: index, number of consecutive indices, subindex, number of consecutive
subindices, type code of Table 16.1, attribute, S, rights, default. -/
structure OdRow where
  idx : Nat
  nIdx : Nat
  sub : Nat
  nSub : Nat
  ty : Nat
  acc : OdAcc
  store : Bool
  right : Right
  dflt : Nat
deriving DecidableEq, Repr

/-! ### Time -/

/-- The tick generator and the look-up bound's per-tick counts (R31–R52). -/
structure Ticks where
  /-- 48-bit tick counter (R33). -/
  count : Nat
  /-- Written LAT_SHARE values that are not in force yet, oldest first, each after the ticks left (R40). -/
  latShare : List (Nat × Nat)
  /-- LAT_SHARE in force (R40). -/
  share : Nat
  /-- A restored TICK_PERIOD waits for the first tick edge (R31). -/
  periodPending : Bool
  /-- Commands are admitted only from that edge on (R31). -/
  admitting : Bool
  /-- Edge of the next event of the interval timer while it is held (R161, R401). -/
  timerNext : Option Nat
  /-- The maintenance period that runs: its scope and the tick in which it ends (R45). -/
  maint : Option (Nat × Nat)
  /-- A timer event has come whose counter sample or NACK repeat is still to be made (R71, R161). -/
  timerDue : Bool
  /-- Tick in which the last counter sample was taken (R44). -/
  sampledAt : Option Nat
  /-- LAT look-ups that arrived device-wide this tick (R49). -/
  latArrivals : Nat
  /-- LAT accesses each vault received this tick, by vault number stand × 64 + vault (R49, R50). -/
  latAccesses : List (Nat × Nat)
  /-- Rows already read for LAT this tick: table, version, core and ID, with the values the read gave (R50). -/
  latRows : List ((Nat × Nat × Nat × Nat) × List Nat)
  /-- Events of the last nine ticks that bear on the conditions of R49: kind, unit, tick.  Kinds: 0 too many
  arrivals, 1 a vault over its limit, 2 a stand-link replay, 3 a host-port replay, 4 a stand-link retrain, 5 a
  port that retrained or lost link, 6 a reset of a partition, 7 a maintenance tick of a stand, 8 a network sub-port that lost
  link. -/
  breaks : List (Nat × Nat × Nat)
deriving DecidableEq, Repr

/-! ### Stands, vaults and links -/

/-- One vault's controller state (R60, R63–R68). -/
structure Vault where
  /-- Refresh intervals owed (R65). -/
  owed : Int
  /-- Next slice of the refresh rotation (R65). -/
  slice : Nat
  /-- Scrub cursor: next 64 B access (R67). -/
  cursor : Nat
  /-- Scrub lag (R67). -/
  lag : Nat
  /-- Passes this vault has completed. -/
  passes : Nat
  /-- Queued write-backs: word address and corrected value, oldest first, at most 16 (R60). -/
  writeBacks : List (Nat × BitVec 64)
  /-- Corrected words of this pass: slice, stored bit, word address (R62). -/
  seen : List (Nat × Nat × Nat)
deriving DecidableEq, Repr

/-- One direction of a stand link (R16, R17): the number its sender gives the next flit, the flits of its replay buffer
that are not acknowledged (number, flow and SEQ of the item whose transfer they carry), the number of the flit that failed
last, and its failures in a row. -/
structure Link where
  next : Nat
  buffer : List (Nat × Nat × Nat)
  failing : Nat
  fails : Nat
deriving DecidableEq, Repr

/-- One stand: temperature state, calibration and its link (R16, R17, R64, R69, R70). -/
structure Stand where
  hot : Bool
  /-- Highest reading of the last successful reading of the four sensors, °C. -/
  temp : Nat
  /-- Tick of the last successful reading. -/
  lastReading : Nat
  /-- Temperature and tick of the last calibration (R69). -/
  calTemp : Nat
  calTick : Nat
  /-- Link from the landing to the stand, and back. -/
  down : Link
  up : Link
  retraining : Bool
deriving DecidableEq, Repr

/-- The running repair pass (R63). -/
structure RepairPass where
  /-- 1,024 × stand + 16 × vault + slice. -/
  unit : Nat
  pos : Nat
  /-- Next access of the slice. -/
  cursor : Nat
deriving DecidableEq, Repr

/-- A repair entry of a slice (Table 3.7): the stored bit position and whether it is a soft entry. -/
structure RepairEntry where
  pos : Nat
  soft : Bool
deriving DecidableEq, Repr

/-- One entry of the error log (Table 3.14). -/
structure ErrEntry where
  rep : Nat
  part : Nat
  unit : Nat
  pmis : Bool
  synd : Nat
  pos2 : Nat
  pos1 : Nat
  addr : Nat
  source : Nat
  kind : Nat
  tick : Nat
deriving DecidableEq, Repr

/-- The active division (Table 1.5, Table 1.6, R21): what APPLY or the boot made active. -/
structure Division where
  split : Nat
  shared : Bool
  me : Nat
  rd : Nat
  pe : Nat
  chipD : Nat
  chipC : Nat
  flows : Nat
  lat : Nat
  lbuf : Nat
  net0 : Nat
  net1 : Nat
  window : Nat
  seed0 : Nat
  seed1 : Nat
  pool0 : Nat
  pool1 : Nat
  yardMib : Nat
deriving DecidableEq, Repr

/-! ### Commands of the hosts -/

/-- How far a fetched command has come. -/
inductive Stage where
  /-- It passed R118 steps 1–6; its own checks and its admission or action are the next thing it does. -/
  | fetched
  /-- A flow command admitted to its flow: its item is queued or held back. -/
  | queued
  /-- Its item runs on a unit. -/
  | running
  /-- Its work is done with this status, RESULT and output bytes still to count. -/
  | done (status : Status) (result : Nat)
  /-- It waits for an event of its own: a FENCE, a graph PIPE_RUN, a switch, a drop, a deferred object write. -/
  | waiting
  /-- Its completion is ready and held (R122, R131). -/
  | held
deriving DecidableEq, Repr

/-- A compression dictionary of a partition (R358). -/
structure Dict where
  bytes : Bytes
  /-- Device address of the bytes in a coreless vault. -/
  da : Nat
deriving DecidableEq, Repr

/-- A command fetched and not yet completed. -/
structure Cmd where
  id : Nat
  port : Nat
  ring : Nat
  cq : Nat
  part : Nat
  opcode : Nat
  signal : Bool
  tag : Nat
  flow : Nat
  /-- The command entry, and its extension entries (R306). -/
  entry : Entry
  ext : List Entry
  /-- Position in the single admission order (R119). -/
  order : Nat
  stage : Stage
  tick : Nat
  /-- A LAT request marked late (R51), and whether every condition of R49 held. -/
  late : Bool
  inBound : Bool
  /-- Commands a FENCE still waits for, and how many it waited for in all (R127). -/
  waits : List Nat
  waited : Nat
  /-- Table version captured at admission: version number (R300). -/
  version : Nat
  /-- Output ranges admitted in windows with PEER set: base, bytes and window (R128, R129). -/
  peers : List (Nat × Nat × Nat)
  /-- Address last written in each window with PEER set, by window (R129). -/
  flush : List (Nat × Nat)
  /-- Progress of the command's own work: gradient records still pending on lanes, jobs run, and so on. -/
  left : Nat
  refused : Nat
  readN : Nat
  status : Status
  /-- A transfer of the command had a flit in a replay buffer when its link retrained (R17). -/
  cut : Bool
  /-- Landing-buffer regions claimed for staging (R357). -/
  regions : List Nat
  /-- The dictionary captured at admission, once DICT_UNLOAD has taken it from the partition (R353, R361). -/
  dict : Option Dict
deriving DecidableEq, Repr

/-- A completion waiting to be written. -/
structure Cpl where
  id : Nat
  tag : Nat
  status : Status
  opcode : Nat
  sq : Nat
  tick : Nat
  result : Nat
  signal : Bool
  flush : List Nat
deriving DecidableEq, Repr

/-- A command ring (Table 5.4) with its doorbell tail and fetch state (R113–R115). -/
structure CmdRing where
  base : Nat
  sizeLog2 : Nat
  cq : Nat
  enable : Bool
  latFetch : Bool
  error : Bool
  head : Nat
  tail : Nat
  fetched : Nat
  /-- The outstanding FENCE fetched from this ring (R127). -/
  fence : Option Nat
  /-- Stopped at a LOOKUP whose extension entries are not all pending: the tail at that moment (R306). -/
  stalled : Option Nat
deriving DecidableEq, Repr

/-- A completion ring (Table 5.5) with the completions held for it and its moderation state. -/
structure CplRing where
  base : Nat
  sizeLog2 : Nat
  enable : Bool
  error : Bool
  timerEn : Bool
  vector : Nat
  modCount : Nat
  modTicks : Nat
  tail : Nat
  phase : Bool
  head : Nat
  held : List Cpl
  since : Nat
  oldest : Option Nat
  /-- Entries written and entries the host's HEAD has passed since the enable. -/
  written : Nat
  consumed : Nat
deriving DecidableEq, Repr

/-- A DMA window (Table 5.9). -/
structure Window where
  base : Nat
  length : Nat
  read : Bool
  write : Bool
  peer : Bool
  relaxed : Bool
  noSnoop : Bool
deriving DecidableEq, Repr

/-- A host port: link and PCIe function state, registers (Table 5.3), rings, windows, MSI-X and mailbox. -/
structure HostPort where
  /-- PERST#, hot reset or link disable holds the port in reset. -/
  perst : Bool
  hotReset : Bool
  disabled : Bool
  /-- Configuration requests are answered with Request Retry Status (R135). -/
  retry : Bool
  linkUp : Bool
  bme : Bool
  d0 : Bool
  /-- Max_Payload_Size and Max_Read_Request_Size in bytes, and the bits of a requester tag, as the host sets them in Device
  Control and Device Control 2 (Table 5.1). -/
  mps : Nat
  mrrs : Nat
  tagBits : Nat
  /-- REFCLK mode applied at the last release of PERST# (R109). -/
  refclk : Nat
  enforce : Bool
  eventCause : Nat
  eventMask : Nat
  eventVector : Nat
  tickLatch : Nat
  faultAddr : Nat
  faultInfo : Nat
  mboxBusy : Bool
  mboxDone : Bool
  mboxStatus : Nat
  mboxReqLen : Nat
  mboxRspLen : Nat
  mboxReq : Bytes
  mboxRsp : Bytes
  barDiscards : Nat
  cmdRings : List (Nat × CmdRing)
  cplRings : List (Nat × CplRing)
  windows : List (Nat × Window)
  /-- MSI-X enable and function mask of configuration space. -/
  msixEnable : Bool
  msixMask : Bool
  msixTable : List (Nat × Nat)
  msixPending : List Nat
  /-- Completions that wait for Bus Master Enable (R131), oldest first, with their completion ring. -/
  waiting : List (Nat × Cpl)
  /-- Ring that took the last LAT_FETCH turn and the last ordinary turn (R115). -/
  lastLat : Nat
  lastRing : Nat
deriving DecidableEq, Repr

/-! ### Network ports, streams and records -/

/-- The configuration a network port uses since its last enable (R149). -/
structure NetConfig where
  breakout : Nat
  mtu : Nat
  vlan : Nat
  pcpLat : Nat
  ipv4 : Bytes
  ipv6 : Bytes
  udp : Nat
deriving DecidableEq, Repr

/-- A network port. -/
structure NetPort where
  inUse : NetConfig
  /-- The levels of the cage's two lines: ResetL low, LPMode high (R144); in the reset gap those of the carrier's pull-downs (R490). -/
  resetLow : Bool
  lpModeHigh : Bool
  modPresent : Bool
  /-- Sub-ports that have sent an ERROR this tick (R152). -/
  errorSent : List Nat
deriving DecidableEq, Repr

/-- What a stream's walker is doing within the current object. -/
inductive WalkPhase where
  /-- At the start of an object. -/
  | header
  /-- Between blocks, lines or records of an object whose header passed. -/
  | blocks
  /-- Skipping the object's bytes: rejected, or cut short. -/
  | skipObject
  /-- Scanning forward for the sync marker (Table 6.10). -/
  | scanSync
  /-- Past the last record that a fixed-record header declares: excess is skipped (R174). -/
  | excess
deriving DecidableEq, Repr

/-- A packet held in a receive slot (R158). -/
structure HeldPacket where
  flags : Nat
  object : Nat
  offset : Nat
  bytes : Bytes
deriving DecidableEq, Repr

/-- A stream: image fields of Table 6.6 and its receive and walker state. -/
structure Stream where
  sstate : Nat
  format : Nat
  codec : Nat
  port : Nat
  subport : Nat
  owner : Nat
  decoderTable : Nat
  decodeFlow : Nat
  rxFirst : Nat
  rxRegions : Nat
  stageRegions : Nat
  srcIp4 : Nat
  srcIp6 : Nat
  srcUdp : Nat
  maxField : Nat
  user : Nat
  /-- Lowest SEQ not yet received (R157). -/
  ack : Nat
  /-- F of R157: the lowest SEQ whose slot is not freed; the next packet the walker takes. -/
  freed : Nat
  taken : Nat
  held : List (Nat × HeldPacket)
  highest : Nat
  /-- Source of the most recently accepted DATA packet, and whether there was one (R142). -/
  accepted : Bool
  srcMac : Nat
  srcAddr : Nat
  srcPort : Nat
  v6 : Bool
  /-- The sub-port's own address that it was sent to. -/
  dstAddr : Nat
  /-- Tick of the last CREDIT or NACK, and the ACK and LIMIT of the last CREDIT (R159). -/
  lastSent : Nat
  sentAck : Nat
  sentLimit : Nat
  /-- Tick the open gap began, and of its last NACK (R160, R161). -/
  gapOpen : Option Nat
  nackSent : Option Nat
  closing : Bool
  /-- The END packet has been taken (R164). -/
  ended : Bool
  /-- Opens of this stream ID before this one. -/
  openNo : Nat
  /-- Walker: object number, offset of the next byte in the object, whether an object is open, whether packets are
  skipped up to the next FIRST (R156). -/
  object : Nat
  offset : Nat
  inObject : Bool
  skipping : Bool
  /-- Bytes of the object taken and not yet walked, with the landing-buffer address of each run of them. -/
  buffer : Bytes
  segs : List (Nat × Nat)
  /-- The object's last byte has been taken. -/
  lastTaken : Bool
  phase : WalkPhase
  sync : Bytes
  /-- Avro codec of the object: 0 null, 1 deflate, 2 zstandard. -/
  avroCodec : Nat
  recLen : Nat
  recLeft : Nat
  rcrc : Bool
  /-- Field table of a fixed-record object: OFFSET, TYPE, NULLBIT, LENGTH (R174). -/
  fields : List (Nat × Nat × Nat × Nat)
  /-- Decompressed bytes not yet walked, and for an Avro block its record count. -/
  staged : Bytes
  stagedCount : Option Nat
  /-- The rest of a line split across a failed unit is being skipped (Table 6.10). -/
  lineBroken : Bool
deriving DecidableEq, Repr

/-! ### Pipeline images, graphs, sets and epochs -/

/-- A loaded image (R237, R238, R243). -/
structure Image where
  content : ImageContent
  /-- Operator descriptors, 128 B each. -/
  ops : List Bytes
  flowBase : Nat
  nFlows : Nat
  regionBase : Nat
  nRegions : Nat
  /-- Sets declared: number, base SA, capacity. -/
  sets : List (Nat × Nat × Nat)
  hash : Bytes
  /-- Bytes of its resident copy in the partition's coreless vaults (R243). -/
  bytes : Nat
  /-- Bytes its operators reserve in each home vault (R222, R226), and where they begin in it. -/
  area : Nat
  areaBase : Nat
  /-- Bytes of its decoder tables, automaton tables and literals in the table memories (R243, R336). -/
  decBytes : Nat
  autoBytes : Nat
  litBytes : Nat
deriving DecidableEq, Repr

/-- A stage's end-mark progress (R242): marks received, and the SEQ of the last of them. -/
structure StageRun where
  marks : Nat
  last : Nat
  ended : Bool
deriving DecidableEq, Repr

/-- A running graph. -/
structure GraphRun where
  handle : Nat
  index : Nat
  sources : Nat
  cmd : Nat
  stages : List StageRun
deriving DecidableEq, Repr

/-- What a JOIN_BUILD knows of its table on one core, whose bytes lie in the home vault (R222): the rows stored and the overflow
buckets in use. -/
structure BuildTable where
  rows : Nat
  overflow : Nat
  incomplete : Bool
  isSealed : Bool
deriving DecidableEq, Repr

/-- Aggregate state of one group: per aggregate its rows, its non-null values, their exact sum where they are whole numbers, a
value and the chosen value's provenance. -/
structure AggState where
  rows : Nat
  count : Nat
  sum : Int
  value : Val
  prov : List Nat
deriving DecidableEq, Repr

/-- A group of a GROUP_BY on one core: its key as R209 compares keys, and the key columns' values. -/
structure Group where
  key : List Val
  vals : List Val
  prov : List Nat
  aggs : List AggState
deriving DecidableEq, Repr

/-- A row that a core holds in its home vault: device address and bytes (R228). -/
structure HeldRow where
  da : Nat
  len : Nat
  row : Row
deriving DecidableEq, Repr

/-- Operator state on the cores, keyed by image handle, operator index and core. -/
structure OpState where
  handle : Nat
  op : Nat
  core : Nat
  build : BuildTable
  groups : List Group
  keys : List (List Val)
  rows : List HeldRow
deriving DecidableEq, Repr

/-- An entry of a sample set (Table 7.1). -/
structure SetEntry where
  sa : Nat
  len : Nat
  status : Status
  stream : Nat
  object : Nat
  ordinal : Nat
  openNo : Nat
deriving DecidableEq, Repr

/-- A sample set. -/
structure SampleSet where
  declared : Bool
  base : Nat
  capacity : Nat
  /-- 0 empty or filling, 2 sorting, 3 sealed. -/
  state : Nat
  /-- Entries of the set, whose bytes lie in the spread space, and the sample rows: SA and bytes of each. -/
  count : Nat
  rows : List (Nat × Nat)
deriving DecidableEq, Repr

/-- An assembled sample on its way to a slot (R185). -/
structure Sample where
  gindex : Nat
  weight : Nat
  dense : Bytes
  pooled : Bytes
  lists : List (List Nat)
deriving DecidableEq, Repr

/-- A filled slot of a batch, whose staged row lies in STAGING (R185): its global index, the lists of its packed fields, and
whether it is void (R199). -/
structure BatchSlot where
  gindex : Nat
  lists : List (List Nat)
  void : Bool
deriving DecidableEq, Repr

/-- A drop-record entry (R197). -/
structure DropEntry where
  gindex : Nat
  status : Status
  stage : Nat
  pos : Nat
deriving DecidableEq, Repr

/-- A batch, open or closed (R187). -/
structure Batch where
  firstPos : Nat
  nextPos : Nat
  slots : List BatchSlot
  drops : List DropEntry
  capped : Bool
deriving DecidableEq, Repr

/-- A position released from the assembly flow that no batch has consumed yet: its status, whether its set entry is a hole, and
its sample. -/
structure Released where
  pos : Nat
  status : Status
  hole : Bool
  smp : Option Sample
deriving DecidableEq, Repr

/-- A running epoch (Table 7.2, R183–R193). -/
structure Epoch where
  handle : Nat
  plan : BatchPlan
  planRef : Nat
  port : Nat
  ring : Nat
  epoch : Nat
  seed : Nat
  startPos : Nat
  frameBase : Nat
  /-- Windows with PEER set that the frame area was admitted in: base, bytes and window (R128, R129). -/
  peers : List (Nat × Nat × Nat)
  augBase : Nat
  slotUnits : Nat
  frameTag : Nat
  frameCq : Nat
  slotsLog2 : Nat
  augSize : Nat
  shuffle : Bool
  dropLast : Bool
  lowWater : Nat
  n : Nat
  nextFeed : Nat
  /-- Augmentation entries read ahead: position, entry bytes or none where the read failed. -/
  aug : List (Nat × Option Bytes)
  augNext : Nat
  /-- Released positions that wait for a batch, in order (R187). -/
  released : List Released
  filling : Batch
  prepared : List Batch
  /-- Next batch number to ship, and the CQ index of the notice of each frame slot in use. -/
  batchNo : Nat
  slotsUsed : List (Nat × Nat)
  armed : Bool
  ending : Bool
  aborted : Bool
deriving DecidableEq, Repr

/-- What an operator makes of its input, in output order: a row for a core, or a hole with what is known of its
provenance. -/
inductive Piece where
  | row (r : Row) (target : Nat)
  | hole (st : Status) (stream openNo object ordinal : Nat)
deriving DecidableEq, Repr

/-- What an item carries beside its entry. -/
inductive Work where
  | raw
  /-- A host flow command. -/
  | cmd (id : Nat)
  /-- A look-up request that arrived over RLT. -/
  | rlt (req : Nat)
  /-- A framed record of a stream, by decoder table reference. -/
  | record (table stream openNo object maxField : Nat) (fields : List (Nat × Nat × Nat × Nat)) (bytes : Bytes)
  /-- A hole of a record, with what is known of its provenance. -/
  | hole (stream openNo object ordinal : Nat)
  /-- A run of rows. -/
  | rows (rs : List Row)
  /-- The rows and holes an operator or decoder has made of its item, to be released. -/
  | outcome (ps : List Piece)
  /-- An assembly position of an epoch (R185): whether its set entry is a hole, the SA and bytes of its row, and once dispatched
  the table versions it captured (R300). -/
  | position (epoch pos : Nat) (hole : Bool) (row len : Nat) (versions : List (Nat × Nat))
  /-- An assembled sample. -/
  | sample (epoch pos : Nat) (smp : Sample)
  | endMark
deriving DecidableEq, Repr

/-! ### Flows -/

/-- Mode of a flow (Table 4.3). -/
inductive FlowMode where
  | unordered | ordered | strict
deriving DecidableEq, Repr

/-- Work class (Table 4.1). -/
inductive FlowClass where
  | bulk | lat | maint
deriving DecidableEq, Repr

/-- Where a queued item's entry lies (R101, R103). -/
inductive Place where
  | pool | yard | reserved
deriving DecidableEq, Repr

/-- The continuation state of a stopped bolt (Table 2.1): of a core its scalar registers, 256 B, its 32 vector registers of
512 bits, and 64 B of program counter and request tags (Table 4.5, R259), of a matrix engine its job and tile, of a decoder its parse stack and input offset, of a pattern engine its automaton state and
input offset, of the copy engine its two cursors. -/
inductive Saved where
  | core (scalar : Nat) (vector : List Nat) (control : Nat)
  | matrix (job tile : Nat)
  | decoder (stack offset : Nat)
  | pattern (state offset : Nat)
  | copy (src dst : Nat)
deriving DecidableEq, Repr

/-- An item (Table 4.2) and what it carries. -/
structure Item where
  seq : Nat
  start : Nat
  target : Nat
  slow : Bool
  status : Status
  hostTag : Nat
  len : Nat
  arg0 : Nat
  arg1 : Nat
  place : Place
  /-- Index of its entry within that place, and its number in the order of all enqueues (R79, R100). -/
  entry : Nat
  born : Nat
  /-- Unit it was dispatched to, and whether it is stopped in the slow lane (R93). -/
  unit : Nat
  stopped : Bool
  /-- It has been dispatched once, so START holds. -/
  begun : Bool
  /-- Continuation state kept since the last tick edge (R36), and whether it lies in the slot spill area (R93). -/
  saved : Option Saved
  spilled : Bool
  work : Work
deriving DecidableEq, Repr

/-- An open flow: the context of Table 4.1 and its items.  QUEUED, IN_FLIGHT, SLOW and HELD are the lengths
of the four lists. -/
structure Flow where
  mode : FlowMode
  cls : FlowClass
  prio : Nat
  owner : Nat
  resident : Bool
  /-- Index of its context in the flow context store while it is resident. -/
  store : Nat
  hold : Bool
  closing : Bool
  /-- Its context held an uncorrectable word (R104). -/
  failed : Bool
  standMask : Nat
  prefetch : Nat
  kernel : Nat
  destFlow : Nat
  destKind : Nat
  destRing : Nat
  nextSeq : Nat
  releaseSeq : Nat
  boomSize : Nat
  maxInflight : Nat
  softBudget : Nat
  hardLimit : Nat
  lastTick : Nat
  /-- Tick of the last use of the context, for the eviction order of R99. -/
  lastUse : Nat
  done : Nat
  drops : Nat
  user : Nat
  queued : List Item
  running : List Item
  slow : List Item
  held : List Item
deriving DecidableEq, Repr

/-- An operation on a flow that waits until its context can be resident (R99): the open with a context image and owner,
or the close. -/
inductive FlowWait where
  | opens (image owner : Nat)
  | close
deriving DecidableEq, Repr

/-- What a slot's scratchpad area holds of the payload of the item it is loaded with (R90). -/
structure Prefetch where
  flow : Nat
  seq : Nat
  bytes : Bytes
deriving DecidableEq, Repr

/-- Slot of a core (R87): what it holds. -/
inductive Slot where
  | empty
  | loaded (flow seq : Nat)
  | running (flow seq : Nat)
  | parked (flow seq : Nat)
deriving DecidableEq, Repr

/-! ### The embedding store -/

/-- State of a table version (Table 11.8). -/
inductive VersionState where
  | opened | current | retiring
deriving DecidableEq, Repr

/-- The directory entry of a stored row (Table 11.4), VALID aside: SLOT is the offset of its slot in the home vault ÷ 16. -/
structure RowEntry where
  id : Nat
  grade : Nat
  ready : Bool
  moving : Bool
  sat : Bool
  scale : Nat
  pop : Nat
  slot : Nat
deriving DecidableEq, Repr

/-- What firmware knows of a version's directory and row area on one core, whose bytes lie in the home vault: the valid entries,
and the slots in use as offset in the vault and bytes. -/
structure CoreDir where
  count : Nat
  slots : List (Nat × Nat)
deriving DecidableEq, Repr

/-- A version of a table. -/
structure Version where
  number : Nat
  state : VersionState
  /-- Edge at which it became retiring (R301). -/
  since : Nat
  /-- Offset of its directory in each home vault; its row area follows. -/
  base : Nat
  dirs : List (Nat × CoreDir)
deriving DecidableEq, Repr

/-- A table's regrade policy (Table 11.5). -/
structure Policy where
  popShift : Nat
  hyst : Nat
  migBatch : Nat
  regradePrio : Nat
  windowTicks : Nat
  thG0 : Nat
  thG1 : Nat
  thReady : Nat
  readyLimit : Nat
deriving DecidableEq, Repr

/-- A table: TABLE_CREATE's fields, its policy (Table 11.5), window and versions. -/
structure Table where
  id : Nat
  dim : Nat
  opt : Nat
  g0fmt : Nat
  firstGrade : Nat
  coarsest : Nat
  initMode : Nat
  seed : Nat
  initSeed : Nat
  initScale : Nat
  maxRows : Nat
  areaMib : Nat
  policy : Policy
  /-- Written values that apply from the next window close (R286). -/
  nextPolicy : Option Policy
  windows : Nat
  windowStart : Nat
  closeNow : Bool
  /-- A close fell due while the previous pass ran (R285). -/
  closeLate : Bool
  versions : List Version
  nextVersion : Nat
  /-- Waiting TABLE_VERSION_SWITCH and TABLE_DROP commands. -/
  switch : Option Nat
  drop : Option Nat
  dropped : Bool
deriving DecidableEq, Repr

/-- A row queued for migration or being migrated (R288, R290). -/
structure Migration where
  part : Nat
  table : Nat
  version : Nat
  id : Nat
  grade : Nat
  ready : Bool
  /-- Offset of its new slot in the home vault, once it has been allocated. -/
  slot : Nat
deriving DecidableEq, Repr

/-- What a record of an update lane does. -/
inductive LaneOp where
  | update
  | write (grade : Nat)
deriving DecidableEq, Repr

/-- One record of an update lane (R289, R297, R316): its command, its index in the command, the table and
version it applies to, the row ID, the record's bytes, and its number in the order of all enqueues. -/
structure LaneRec where
  cmd : Nat
  index : Nat
  part : Nat
  table : Nat
  version : Nat
  id : Nat
  op : LaneOp
  bytes : Bytes
  born : Nat
deriving DecidableEq, Repr

/-- A hold of a lane (R290): its edge, the rows of the batch, whether an item was in flight. -/
structure LaneHold where
  edge : Nat
  batch : List Migration
  inFlight : Bool
deriving DecidableEq, Repr

/-- An update lane of a core (R289). -/
structure Lane where
  queue : List LaneRec
  migrations : List Migration
  hold : Option LaneHold
  lastEnd : Option Nat
deriving DecidableEq, Repr

/-- A slot waiting to be freed (R293): core, version, its offset in the home vault, the tick of the swap, and the number of the
first enqueue after it. -/
structure Freed where
  part : Nat
  table : Nat
  version : Nat
  core : Nat
  slot : Nat
  edge : Nat
  upTo : Nat
deriving DecidableEq, Repr

/-- A look-up request that arrived over RLT and has not been answered (R165, R166). -/
structure RltReq where
  net : Nat
  sub : Nat
  srcMac : Nat
  srcAddr : Nat
  srcPort : Nat
  v6 : Bool
  dstAddr : Nat
  stream : Nat
  reqId : Nat
  table : Nat
  version : Nat
  pool : Nat
  outFmt : Nat
  ids : List Nat
  weights : List Nat
  flow : Nat
  tick : Nat
  late : Bool
  inBound : Bool
deriving DecidableEq, Repr

/-- What a kernel of the library does (R79: it fixes the unit kind). -/
inductive Kernel where
  | tableWrite | lookup | update | copy | compress | decompress | topk | argmax | matchK | matmul
  | decode | operator | assembly
deriving DecidableEq, Repr

/-- Kinds of unit an item can run on. -/
inductive UnitKind where
  | core | me | rd | pe | chipD | chipC | copyEngine | merge
deriving DecidableEq, Repr

/-- The dispatcher's choice state for one partition and unit kind (R85, R499): the set of priorities that held
ready work, the priorities served while that set has not changed (newest first), and the flows served in the
current rotation. -/
structure Turn where
  ready : List Nat
  served : List Nat
  flows : List Nat
deriving DecidableEq, Repr

/-- What one partition holds. -/
structure Part where
  flows : List (Nat × Flow)
  images : List (Nat × Image)
  runs : List GraphRun
  ops : List OpState
  sets : List (Nat × SampleSet)
  epochs : List (Nat × Epoch)
  streams : List (Nat × Stream)
  /-- Opens of each stream ID, and their count when each set was last cleared (Table 7.1). -/
  opens : List (Nat × Nat)
  openBase : List (Nat × Nat × Nat)
  /-- Records released from decode flows, by stream, open and object (R178). -/
  ordinals : List (Nat × Nat)
  /-- The PIPE_STOP that takes effect at the next edge: command, handle, UNLOAD. -/
  stop : Option (Nat × Nat × Bool)
  tables : List (Nat × Table)
  dicts : List (Nat × Dict)
  dictUnload : List Nat
  /-- A partition-scoped or device-wide CORE reset covers the partition until its release (R497). -/
  resetting : Bool
  turns : List (Nat × Turn)
  /-- Enqueues that wait for item spill space (R102) or for a context (R99), in arrival order: flow and item. -/
  stalled : List (Nat × Item)
  /-- Opens and closes that wait for a context (R99), in arrival order: flow and operation. -/
  waits : List (Nat × FlowWait)
  /-- Other operations that wait (R99, R102): flow, and SEQ of the item or another number of the operation. -/
  blocked : List (Nat × Nat)
  /-- HOLD changes firmware is to make: flow, value, earliest tick (R96). -/
  holds : List (Nat × Bool × Nat)
  /-- The stream that the walker of each decoder served last (R167). -/
  walkers : List (Nat × Nat)
  /-- The chipper ingest flow: streams whose next compressed unit waits for a lane, in the order enqueued, each with the priority
  of its enqueue (R352, R362). -/
  chipUnits : List (Nat × Nat)
deriving DecidableEq, Repr

/-! ### The management port and the object paths -/

/-- Where the answer of an access to an object goes. -/
inductive Reply where
  | nobody
  /-- A BOP response: path, source address and port of the request, session and its key, SEQ, CTR and OP. -/
  | bop (path : BopPath) (src srcPort session : Nat) (ks : Bytes) (seq ctr op : Nat)
  /-- The completion of a ring command. -/
  | ring (id : Nat)
deriving DecidableEq, Repr

/-- What a deferred access waits for: it is answered when that ends. -/
inductive Await where
  | apply | partReset | blockReset | deepSleep | streamClose | dictUnload | firmware | lifecycle | debugOpen
  | flowOpen | flowClose
deriving DecidableEq, Repr

/-- An access whose answer is still to come. -/
structure Waiter where
  what : Await
  arg : Nat
  reply : Reply
deriving DecidableEq, Repr

/-- An open block transfer (R382). -/
structure Block where
  idx : Nat
  sub : Nat
  total : Nat
  bytes : Bytes
deriving DecidableEq, Repr

/-- An event subscription (R384). -/
structure Subscription where
  mask : Nat
  src : Nat
  srcPort : Nat
deriving DecidableEq, Repr

/-- A BOP session (R373–R376). -/
structure Session where
  id : Nat
  path : BopPath
  slot : Nat
  ks : Bytes
  confirmed : Bool
  /-- Tick of its SESSION_INIT, then of the last accepted request. -/
  since : Nat
  lastCtr : Nat
  lastTag : Bytes
  cached : Option Bytes
  eventCtr : Nat
  sub : Option Subscription
deriving DecidableEq, Repr

/-- An unacknowledged event (R385). -/
structure EventRec where
  number : Nat
  session : Nat
  cause : Nat
  part : Nat
  count : Nat
  detail : Nat
  tick : Nat
  sent : Nat
  resends : Nat
deriving DecidableEq, Repr

/-- An occurrence of an event cause that has not been turned into an event. -/
structure Occurrence where
  cause : Nat
  part : Nat
  detail : Nat
  tick : Nat
deriving DecidableEq, Repr

/-- The management port, its sessions and the object paths. -/
structure Mgmt where
  sessions : List Session
  /-- Open blocks by holder: a session ID, 65,536 for M without a session, 65,537 and 65,538 for the mailboxes. -/
  blocks : List (Nat × Block)
  events : List EventRec
  nextEvent : Nat
  /-- Session nonces given out since the boot (R373). -/
  nonces : Nat
  /-- Consecutive AUTH_FAIL outcomes by key slot, and the tick each locked slot was locked (R377). -/
  fails : List (Nat × Nat)
  locks : List (Nat × Nat)
  occurred : List Occurrence
  /-- Tick of the last untagged AUTH_FAIL response on M (R375). -/
  authTick : Option Nat
  waiters : List Waiter
  /-- Messages that wait for firmware, in arrival order (R386). -/
  mailboxes : List BopMsg
  /-- Frames complete in the transmit buffer (R365). -/
  tx : List Output
  /-- PLCA settings in use since the last POR or SYS reset (R364). -/
  role : Nat
  nodeCount : Nat
  toTimer : Nat
  maxBc : Nat
  burstTmr : Nat
  /-- Selections of FLOW_PEEK_SEL, STREAM_PEEK_SEL and TABLE_PEEK_SEL by key × 4 + principal. -/
  selected : List (Nat × Nat)
  /-- SESSION_IDLE and BOP_UDP_PORT in use since the last tick edge (R387). -/
  idle : Nat
  udpPort : Nat
deriving DecidableEq, Repr

/-! ### Flash, fuses and boot -/

/-- A record of the parameter store (R403): kind, area, SEQ and entries by key. -/
structure StoreRec where
  kind : Nat
  area : Nat
  seq : Nat
  entries : List (Nat × Bytes)
  /-- Its commit word and CRCs check (R404, R406). -/
  valid : Bool
deriving DecidableEq, Repr

/-- A written sector of the parameter store: its records, oldest first, and the bytes they take. -/
structure StoreSector where
  recs : List StoreRec
  used : Nat
deriving DecidableEq, Repr

/-- An entry of the boot log (Table 17.9). -/
structure BootEntry where
  seq : Nat
  kind : Nat
  status : Nat
  bootCount : Nat
  tick : Nat
  detail : Bytes
deriving DecidableEq, Repr

/-- What survives every reset: fuses and the main die's flash (R412, R423). -/
structure Nv where
  lc : Nat
  svnMin : Nat
  ownerHash : Bytes
  deviceKey : Bytes
  /-- Life-cycle state of the wipe record (Table 17.3). -/
  wipeLc : Nat
  image : Bytes
  committed : Bool
  /-- Boot log, newest first. -/
  log : List BootEntry
  logNext : Nat
  bootCount : Nat
  /-- Written sectors of the parameter store, oldest first. -/
  store : List StoreSector
  /-- Highest SEQ of a record written, and the place of the oldest written sector among the 16 (R403, R405). -/
  storeSeq : Nat
  storeBase : Nat
  /-- 64 B blocks of the parameter store whose read-back fails: defects that come from outside (R404). -/
  storeBad : List Nat
deriving DecidableEq, Repr

/-- How far the boot has come (Table 17.3). -/
inductive BootMode where
  /-- Held in reset, or released and not yet booted. -/
  | off
  /-- SCRAPPED: the boot ROM serves HELLO and area 0x1000 only. -/
  | stopped
  | recovery
  | running
deriving DecidableEq, Repr

/-- Boot state. -/
structure Boot where
  mode : BootMode
  /-- The release sequence has run since the last POR or SYS reset. -/
  released : Bool
  /-- Header facts and hashes of the running image (R418). -/
  fwVersion : Nat
  klibVersion : Nat
  svn : Nat
  fwHash : Bytes
  klibHash : Bytes
  /-- Accepted requests and boots that renewed LC_NONCE (R424). -/
  nonce : Nat
  /-- New MGMT_KEY0 held in SRAM over a transition to DEPLOYED, with the old state (R425). -/
  newKey : Option Bytes
  /-- Old state of a transition to be logged at the next boot. -/
  oldLc : Option Nat
  /-- The division that the running APPLY checked and activates (R26). -/
  applying : Option Division
  /-- A firmware image being written (R419). -/
  writing : Option Bytes
  /-- Debug access opens when the running device-wide CORE reset ends (R427); opened since the last POR. -/
  debugPending : Bool
  debugOpened : Bool
  /-- RESET_CAUSE values to copy into the boot log at the next boot (R467). -/
  causes : List Nat
  /-- Boot-log entries that wait for a firmware write to end (R420). -/
  logWaiting : List BootEntry
deriving DecidableEq, Repr

/-! ### Clocks, resets, power -/

/-- A source in the running reset group (R466): cause code, reach (1–4), partition for reach 1.  A source
with a level of its own holds the group through the state that shows the level. -/
structure ResetMember where
  cause : Nat
  reach : Nat
  part : Nat
deriving DecidableEq, Repr

/-- A BLOCK reset under way (R473): unit code, tick of its write, who is answered, whether it was isolated. -/
structure BlockReset where
  unit : Nat
  since : Nat
  reply : Reply
deriving DecidableEq, Repr

/-- Clocks, modes and gating (R453–R463). -/
structure Clocks where
  xoOk : Bool
  ioscOk : Bool
  refXo : Bool
  forced : Bool
  hold : Bool
  pllLost : Bool
  /-- Written divider pairs that do not apply yet, oldest first, each before the tick edges left (R456). -/
  divs : List (Nat × Nat × Nat)
  /-- The dividers in use. -/
  mclk : Nat
  pclk : Nat
  /-- DEEP_SLEEP: tick of the write while it waits to drain, and whether it has been entered. -/
  draining : Option Nat
  asleep : Bool
  /-- Units to be gated, with the tick of the write (R463); gated units; units to be ungated at the next edge. -/
  gating : List (Nat × Nat)
  gated : List Nat
  ungating : List Nat
deriving DecidableEq, Repr

/-- Input stage, power capping and thermal limits (R477–R486). -/
structure Power where
  standby : Bool
  closed : Bool
  mate : Bool
  capDuty : Nat
  fastDuty : Nat
  brakeDuty : Nat
  thermalDuty : Nat
  /-- Input power of the last ten 1 ms samples, newest first, mW. -/
  samples : List Nat
  /-- THERM_TRIP# is asserted, and the scaler seconds of the trips in the window. -/
  tripped : Bool
  trips : List Nat
  /-- The switch stays open until VIN falls below 20 V (R486). -/
  latched : Bool
  /-- ALERT# is asserted. -/
  alert : Bool
  /-- The FRU read has ended (R494). -/
  fruRead : Bool
  /-- Temperature readings at or above the throttle threshold. -/
  hotReading : Bool
deriving DecidableEq, Repr

/-! ### The scaler -/

/-- The running interval's sums (R440–R443). -/
structure Interval where
  flags : Nat
  startS : Nat
  eOpen : Nat
  /-- Voltage and current extremes, mV and mA; V_MIN is none before the first sample. -/
  vMin : Option Nat
  vMax : Nat
  iMax : Nat
  frames : Nat
  tickEnd : Nat
  mainBoot : Nat
  work : List Nat
deriving DecidableEq, Repr

/-- A checkpoint (R446). -/
structure Checkpoint where
  acc : Nat
  scalerS : Nat
  recNo : Nat
  interval : Interval
  final : Bool
deriving DecidableEq, Repr

/-- The scaler die. -/
structure Scaler where
  powered : Bool
  /-- Energy accumulator in units of 2^−16 mJ (R437). -/
  acc : Nat
  scalerS : Nat
  /-- Samples since the last whole second, and their voltage and current sums. -/
  sub : Nat
  vSum : Nat
  iSum : Nat
  vNow : Nat
  iNow : Nat
  overNow : Bool
  recNo : Nat
  interval : Interval
  /-- An interval end has been reached and the close is due (R440). -/
  due : Bool
  intervalMin : Nat
  cal : Bytes
  audit : Nat
  /-- Audit entries, newest first, at most 4,096 (R449). -/
  auditLog : List Bytes
  sealOpen : Bool
  /-- BOOT_COUNT and frame number of the last valid work frame. -/
  lastFrame : Option (Nat × Nat)
  /-- Signed records not yet committed, oldest first. -/
  signed : List (Nat × Bytes)
  /-- Record slots by slot number: REC_NO, body and signature (R445). -/
  ring : List (Nat × (Nat × Bytes))
  checkpoint : Option Checkpoint
  /-- SCALER_S of the last checkpoint and of the last status frame. -/
  lastCheckpoint : Nat
  lastStatus : Nat
  /-- Records to send again: REC_NO and due second (R452). -/
  resends : List (Nat × Nat)
deriving DecidableEq, Repr

/-- Reasons a command stops the model with a fault.  The manual gives the block no fault of its own; the only
one is about the command itself. -/
inductive Fault where
  /-- Raised by a meaning whose operands break `Instr.wf`: no such command exists.  Safe. -/
  | illFormed
deriving DecidableEq, Repr

/-- Reasons a command is refused. -/
inductive Refusal where
  /-- The command has no meaning yet; raised only by `exec`'s own arms.  Safe. -/
  | notModelled (mnemonic : String)
deriving DecidableEq, Repr

/-- The whole block. -/
structure State where
  ticks : Ticks
  /-- Object values by key index × 256 + subindex; an unlisted object holds its default. -/
  od : List (Nat × Nat)
  /-- Values of STR and DOMAIN objects; an unlisted one holds its default. -/
  dom : List (Nat × Bytes)
  div : Division
  /-- Vault memory by device address; an unlisted byte reads zero (R73). -/
  mem : List Host.Cell
  /-- Stored-bit errors by word address (DA ÷ 8): the 80-bit pattern by which the stored word differs. -/
  flips : List (Nat × BitVec 80)
  /-- Landing buffer by region × 65,536 + offset; an unlisted byte reads zero (R73). -/
  lbuf : List Host.Cell
  /-- Words of the SRAM arrays that hold an error (R61), by UNIT × 2^56 + ADDR ÷ 8 in the encodings of Table 3.14: true
  where it is a double-bit error. -/
  sram : List (Nat × Bool)
  vaults : List (Nat × Vault)
  stands : List (Nat × Stand)
  repairs : List (Nat × RepairEntry)
  repairPass : Option RepairPass
  repairQueue : List (Nat × Nat)
  errLog : List ErrEntry
  /-- Wipes under way, oldest first: partitions covered (bit p) and stands covered (R73). -/
  wipes : List (Nat × Nat)
  ports : Vector HostPort 2
  cmds : List Cmd
  /-- Number the next fetched command receives; also its place in the admission order (R119). -/
  nextId : Nat
  parts : Vector Part 2
  rltReqs : List (Nat × RltReq)
  nextReq : Nat
  cores : List (Nat × (Slot × Slot))
  /-- Bytes prefetched for the LOADED slots, by core × 2 + slot (R90). -/
  prefetched : List (Nat × Prefetch)
  /-- Number of the next enqueue in the order of all of them (R100). -/
  nextBorn : Nat
  /-- Items on each engine, oldest first, by kind × 2,048 + unit. -/
  engines : List (Nat × List (Nat × Nat))
  /-- Item at the head of each decompression lane at the last tick edge, while its turn lasts (R352). -/
  laneHeads : List (Nat × (Nat × Nat))
  /-- Units that take no new item: gated, or held by a BLOCK reset (R81), by kind × 2,048 + unit. -/
  down : List Nat
  lanes : List (Nat × Lane)
  freed : List Freed
  klib : List (Nat × Kernel)
  nets : Vector NetPort 2
  /-- Landing-buffer region claims: region, holder code, identity of the holder (R399). -/
  regions : List (Nat × (Nat × Nat))
  mgmt : Mgmt
  nv : Nv
  boot : Boot
  /-- The running reset group; empty while no reset is asserted (R466). -/
  resets : List ResetMember
  blockResets : List BlockReset
  clk : Clocks
  pwr : Power
  scl : Scaler
  /-- Records mirrored in management SRAM, by REC_NO mod 256 (R451). -/
  mirror : List (Nat × Bytes)
  /-- Work counts since the last work frame, by partition × 8 + slot (R441), and the next frame number. -/
  work : List (Nat × Nat)
  workSeq : Nat
  /-- Tick of the last work frame, and of the last status frame of the scaler. -/
  workAt : Nat
  statusAt : Option Nat
  /-- Values taken from the free values so far. -/
  fresh : Nat
  out : List Output
  pending : List Instr
deriving DecidableEq, Repr

/-! ### Reset -/

/-- A closed command ring (Table 5.4). -/
def CmdRing.reset : CmdRing :=
  { base := 0, sizeLog2 := 0, cq := 0, enable := false, latFetch := false, error := false, head := 0,
    tail := 0, fetched := 0, fence := none, stalled := none }

/-- A closed completion ring (Table 5.5): PHASE resets to 1. -/
def CplRing.reset : CplRing :=
  { base := 0, sizeLog2 := 0, enable := false, error := false, timerEn := false, vector := 0, modCount := 0,
    modTicks := 0, tail := 0, phase := true, head := 0, held := [], since := 0, oldest := none,
    written := 0, consumed := 0 }

/-- A disabled DMA window (Table 5.9). -/
def Window.reset : Window :=
  { base := 0, length := 0, read := false, write := false, peer := false, relaxed := false, noSnoop := false }

/-- A host port at POR: link down, every register at the Reset column of Table 5.3, Bus Master Enable 0 and D0
as PCIe gives them. -/
def HostPort.reset : HostPort :=
  { perst := false, hotReset := false, disabled := false, retry := true, linkUp := false, bme := false, d0 := true,
    mps := 128, mrrs := 512, tagBits := 8, refclk := 0, enforce := false, eventCause := 0, eventMask := 0, eventVector := 0, tickLatch := 0,
    faultAddr := 0, faultInfo := 0, mboxBusy := false, mboxDone := false, mboxStatus := 0, mboxReqLen := 0,
    mboxRspLen := 0, mboxReq := [], mboxRsp := [], barDiscards := 0, cmdRings := [], cplRings := [],
    windows := [], msixEnable := false, msixMask := false, msixTable := [], msixPending := [], waiting := [], lastLat := 255, lastRing := 255 }

/-- A partition that holds nothing. -/
def Part.reset : Part :=
  { flows := [], images := [], runs := [], ops := [], sets := [], epochs := [], streams := [], opens := [],
    openBase := [], ordinals := [], stop := none, tables := [], dicts := [], dictUnload := [], resetting := true, turns := [],
    stalled := [], waits := [], blocked := [], holds := [], walkers := [], chipUnits := [] }

/-- A network port at reset: in the reset gap the carrier's pull-downs hold ResetL and LPMode low (R490, Table 20.6); no module
(Table 6.2). -/
def NetPort.reset : NetPort :=
  { inUse := { breakout := 0, mtu := 9000, vlan := 0, pcpLat := 0, ipv4 := List.replicate 16 0,
               ipv6 := List.replicate 64 0, udp := 50410 },
    resetLow := true, lpModeHigh := false, modPresent := false, errorSent := [] }

/-- A vault at reset: nothing owed, cursor at 0 (R73). -/
def Vault.reset : Vault :=
  { owed := 0, slice := 0, cursor := 0, lag := 0, passes := 0, writeBacks := [], seen := [] }

/-- A link with nothing in its replay buffer. -/
def Link.reset : Link := { next := 0, buffer := [], failing := 0, fails := 0 }

/-- A stand at reset. -/
def Stand.reset : Stand :=
  { hot := false, temp := 0, lastReading := 0, calTemp := 0, calTick := 0, down := Link.reset, up := Link.reset,
    retraining := false }

/-- The division the boot activates before it has read the strap: every count 0. -/
def Division.none : Division :=
  { split := 0, shared := false, me := 0, rd := 0, pe := 0, chipD := 0, chipC := 0, flows := 0, lat := 0,
    lbuf := 0, net0 := 0, net1 := 0, window := 1, seed0 := 0, seed1 := 0, pool0 := 64, pool1 := 64,
    yardMib := 128 }

/-- An idle lane. -/
def Lane.reset : Lane := { queue := [], migrations := [], hold := none, lastEnd := none }

/-- The tick generator at reset (R33). -/
def Ticks.reset : Ticks :=
  { count := 0, latShare := [], share := 25, periodPending := false, admitting := false, maint := none, timerNext := none,
    timerDue := false, sampledAt := none, latArrivals := 0,
    latAccesses := [], latRows := [], breaks := [] }
/-- The management port at POR (Table 15.7): follower values until the strap is read, no session. -/
def Mgmt.reset : Mgmt :=
  { sessions := [], blocks := [], events := [], nextEvent := 1, nonces := 0, fails := [], locks := [],
    occurred := [], authTick := none, waiters := [], mailboxes := [], tx := [], role := 0, nodeCount := 8,
    toTimer := 32, maxBc := 0, burstTmr := 128, selected := [],
    idle := 240000000, udpPort := 50411 }

/-- Fuses and flash as built: life-cycle state BLANK, no image, empty store and log (R412, R423). -/
def Nv.reset : Nv :=
  { lc := 0, svnMin := 0, ownerHash := List.replicate 32 0, deviceKey := [], wipeLc := 0, image := [],
    committed := false, log := [], logNext := 1, bootCount := 0, store := [], storeSeq := 0, storeBase := 0,
    storeBad := [] }

/-- Before the boot. -/
def Boot.reset : Boot :=
  { mode := .off, released := false, fwVersion := 0, klibVersion := 0, svn := 0, fwHash := [], klibHash := [],
    nonce := 0, newKey := none, oldLc := none, applying := none, writing := none, debugPending := false, debugOpened := false,
    causes := [], logWaiting := [] }

/-- Clocks at POR (Table 19.13). -/
def Clocks.reset : Clocks :=
  { xoOk := false, ioscOk := false, refXo := false, forced := false, hold := false, pllLost := false, divs := [],
    mclk := 2, pclk := 4, draining := none, asleep := false, gating := [], gated := [], ungating := [] }

/-- The input stage with its switch closed and the rails good, every duty 16. -/
def Power.reset : Power :=
  { standby := true, closed := true, mate := true, capDuty := 16, fastDuty := 16, brakeDuty := 16,
    thermalDuty := 16, samples := [], tripped := false, trips := [], latched := false, alert := false,
    fruRead := false, hotReading := false }

/-- An interval that begins at a second and an energy. -/
def Interval.start (s e flags : Nat) : Interval :=
  { flags := flags, startS := s, eOpen := e, vMin := none, vMax := 0, iMax := 0, frames := 0, tickEnd := 0,
    mainBoot := 0, work := List.replicate 16 0 }

/-- The scaler before its power-up. -/
def Scaler.reset : Scaler :=
  { powered := false, acc := 0, scalerS := 0, sub := 0, vSum := 0, iSum := 0, vNow := 0, iNow := 0,
    overNow := false, recNo := 0, interval := Interval.start 0 0 0, due := false, intervalMin := 15,
    cal := List.replicate 32 0, audit := 0, auditLog := [], sealOpen := false, lastFrame := none, signed := [],
    ring := [], checkpoint := none, lastCheckpoint := 0, lastStatus := 0, resends := [] }


/-- The block right after its power-on reset has been asserted, with rails good. -/
def State.reset : State :=
  { ticks := Ticks.reset, od := [], dom := [], div := Division.none, mem := [], flips := [], lbuf := [],
    sram := [], vaults := [], stands := [], repairs := [], repairPass := none, repairQueue := [],
    errLog := [], wipes := [], ports := #v[HostPort.reset, HostPort.reset], cmds := [], nextId := 0,
    parts := #v[Part.reset, Part.reset], rltReqs := [], nextReq := 0, cores := [], prefetched := [], nextBorn := 0, engines := [], laneHeads := [], down := [], lanes := [],
    freed := [], klib := [], nets := #v[NetPort.reset, NetPort.reset], regions := [],
    mgmt := Mgmt.reset, nv := Nv.reset, boot := { Boot.reset with causes := [0x401] },
    resets := [{ cause := 1, reach := 4, part := 0 }], blockResets := [], clk := Clocks.reset,
    pwr := Power.reset, scl := Scaler.reset, mirror := [], work := [], workSeq := 0, workAt := 0, statusAt := none, fresh := 0, out := [],
    pending := [] }

end Sys2Proof.Machine
end

