-- ==== Sys2Proof/Machine/OdTable.lean ====
section
/-!
DEFINITION. The object dictionary's table: every object of the manual with its type, access, rights and default
(R388–R390, Tables 16.1, 16.2 and 16.7), and each object's key under its own name.

A key is index × 256 + subindex.  A row with `nIdx` or `nSub` above 1 stands for that many consecutive indices or
subindices.  Where the manual's Default column holds no number (fused, from the strap, a dash), the row holds 0
and the value comes from where the rule says.
-/
namespace Sys2Proof.Machine

/-! ### Keys -/

/-- OD 0x1000.01 DEVICE_ID (Table 16.8). -/
def Ob.DEVICE_ID : Nat := 0x100001
/-- OD 0x1000.02 REVISION_ID (Table 16.8). -/
def Ob.REVISION_ID : Nat := 0x100002
/-- OD 0x1008.01 DEVICE_NAME (Table 16.8). -/
def Ob.DEVICE_NAME : Nat := 0x100801
/-- OD 0x1009.01 ORDER_CODE (Table 16.8). -/
def Ob.ORDER_CODE : Nat := 0x100901
/-- OD 0x1018.01 VENDOR_ID (Table 16.8). -/
def Ob.VENDOR_ID : Nat := 0x101801
/-- OD 0x1018.02 SERIAL (Table 16.8). -/
def Ob.SERIAL : Nat := 0x101802
/-- OD 0x1019.01 FW_VERSION (Table 16.8). -/
def Ob.FW_VERSION : Nat := 0x101901
/-- OD 0x1019.02 BOOT_COUNT (Table 16.8). -/
def Ob.BOOT_COUNT : Nat := 0x101902
/-- OD 0x1020.01 KLIB_VERSION (Table 9.5). -/
def Ob.KLIB_VERSION : Nat := 0x102001
/-- OD 0x1030.01 STORE_SEQ (Table 16.14). -/
def Ob.STORE_SEQ : Nat := 0x103001
/-- OD 0x1030.02 STORE_WRITES (Table 16.14). -/
def Ob.STORE_WRITES : Nat := 0x103002
/-- OD 0x1030.03 STORE_ERASES (Table 16.14). -/
def Ob.STORE_ERASES : Nat := 0x103003
/-- OD 0x1030.04 STORE_INVALID (Table 16.14). -/
def Ob.STORE_INVALID : Nat := 0x103004
/-- OD 0x1030.05 RESTORE_REFUSED (Table 16.14). -/
def Ob.RESTORE_REFUSED : Nat := 0x103005
/-- OD 0x1030.06 STORE_FREE (Table 16.14). -/
def Ob.STORE_FREE : Nat := 0x103006
/-- OD 0x1F00.01 OD_DIRECTORY (R396). -/
def Ob.OD_DIRECTORY : Nat := 0x1F0001
/-- OD 0x2010.01 TICK_COUNT (Table 2.7). -/
def Ob.TICK_COUNT : Nat := 0x201001
/-- OD 0x2010.02 TICK_WRAPS (Table 2.7). -/
def Ob.TICK_WRAPS : Nat := 0x201002
/-- OD 0x2010.03 TICK_PERIOD (Table 2.7). -/
def Ob.TICK_PERIOD : Nat := 0x201003
/-- OD 0x2010.04 TICK_PERIOD_ACTIVE (Table 2.7). -/
def Ob.TICK_PERIOD_ACTIVE : Nat := 0x201004
/-- OD 0x2010.05 LAT_SHARE (Table 2.7). -/
def Ob.LAT_SHARE : Nat := 0x201005
/-- OD 0x2010.06 LAT_CYCLES (Table 2.7). -/
def Ob.LAT_CYCLES : Nat := 0x201006
/-- OD 0x2010.07 MAINT_CYCLES (Table 2.7). -/
def Ob.MAINT_CYCLES : Nat := 0x201007
/-- OD 0x2010.08 LAT_BOUND_TICKS (Table 2.7). -/
def Ob.LAT_BOUND_TICKS : Nat := 0x201008
/-- OD 0x2010.09 LAT_ARRIVAL_LIMIT (Table 2.7). -/
def Ob.LAT_ARRIVAL_LIMIT : Nat := 0x201009
/-- OD 0x2010.0A LAT_ACCESS_LIMIT (Table 2.7). -/
def Ob.LAT_ACCESS_LIMIT : Nat := 0x20100A
/-- OD 0x2011.01 LAT_DONE_P0 (Table 2.4). -/
def Ob.LAT_DONE_P0 : Nat := 0x201101
/-- OD 0x2011.02 LAT_DONE_P1 (Table 2.4). -/
def Ob.LAT_DONE_P1 : Nat := 0x201102
/-- OD 0x2011.03 DEADLINE_P0 (Table 2.4). -/
def Ob.DEADLINE_P0 : Nat := 0x201103
/-- OD 0x2011.04 DEADLINE_P1 (Table 2.4). -/
def Ob.DEADLINE_P1 : Nat := 0x201104
/-- OD 0x2011.05 DEADLINE_IN_BOUND_P0 (Table 2.4). -/
def Ob.DEADLINE_IN_BOUND_P0 : Nat := 0x201105
/-- OD 0x2011.06 DEADLINE_IN_BOUND_P1 (Table 2.4). -/
def Ob.DEADLINE_IN_BOUND_P1 : Nat := 0x201106
/-- OD 0x2011.07 OVERLOAD_TICKS (Table 2.4). -/
def Ob.OVERLOAD_TICKS : Nat := 0x201107
/-- OD 0x2011.08 VAULT_OVER_TICKS (Table 2.4). -/
def Ob.VAULT_OVER_TICKS : Nat := 0x201108
/-- OD 0x2020.01 PART_SPLIT_PENDING (Table 1.6). -/
def Ob.PART_SPLIT_PENDING : Nat := 0x202001
/-- OD 0x2020.02 SHARED_PENDING (Table 1.6). -/
def Ob.SHARED_PENDING : Nat := 0x202002
/-- OD 0x2020.03 ME_P0 (Table 1.6). -/
def Ob.ME_P0 : Nat := 0x202003
/-- OD 0x2020.04 RD_P0 (Table 1.6). -/
def Ob.RD_P0 : Nat := 0x202004
/-- OD 0x2020.05 PE_P0 (Table 1.6). -/
def Ob.PE_P0 : Nat := 0x202005
/-- OD 0x2020.06 CHIP_D_P0 (Table 1.6). -/
def Ob.CHIP_D_P0 : Nat := 0x202006
/-- OD 0x2020.07 CHIP_C_P0 (Table 1.6). -/
def Ob.CHIP_C_P0 : Nat := 0x202007
/-- OD 0x2020.08 FLOWS_P0 (Table 1.6). -/
def Ob.FLOWS_P0 : Nat := 0x202008
/-- OD 0x2020.09 LAT_P0 (Table 1.6). -/
def Ob.LAT_P0 : Nat := 0x202009
/-- OD 0x2020.0A LBUF_P0 (Table 1.6). -/
def Ob.LBUF_P0 : Nat := 0x20200A
/-- OD 0x2020.0B NET_N0 (Table 1.6). -/
def Ob.NET_N0 : Nat := 0x20200B
/-- OD 0x2020.0C NET_N1 (Table 1.6). -/
def Ob.NET_N1 : Nat := 0x20200C
/-- OD 0x2020.0D APPLY (Table 1.6). -/
def Ob.APPLY : Nat := 0x20200D
/-- OD 0x2020.0E PART_SPLIT (Table 1.6). -/
def Ob.PART_SPLIT : Nat := 0x20200E
/-- OD 0x2020.0F SHARED (Table 1.6). -/
def Ob.SHARED : Nat := 0x20200F
/-- OD 0x2020.10 APPLY_STATUS (Table 1.6). -/
def Ob.APPLY_STATUS : Nat := 0x202010
/-- OD 0x2021.01 PART_RESET (R136). -/
def Ob.PART_RESET : Nat := 0x202101
/-- OD 0x2030.01 MAINT_FIRST_TICK (Table 2.3). -/
def Ob.MAINT_FIRST_TICK : Nat := 0x203001
/-- OD 0x2030.02 MAINT_SCOPE (Table 2.3). -/
def Ob.MAINT_SCOPE : Nat := 0x203002
/-- OD 0x2030.03 MAINT_LENGTH (Table 2.3). -/
def Ob.MAINT_LENGTH : Nat := 0x203003
/-- OD 0x2030.04 MAINT_ANNOUNCED_AT (Table 2.3). -/
def Ob.MAINT_ANNOUNCED_AT : Nat := 0x203004
/-- OD 0x2040.01 PIN_HOLDER (Table 16.10). -/
def Ob.PIN_HOLDER : Nat := 0x204001
/-- OD 0x2040.02 TIMER_HOLDER (Table 16.10). -/
def Ob.TIMER_HOLDER : Nat := 0x204002
/-- OD 0x2040.03 REGION_HOLDERS (Table 16.10). -/
def Ob.REGION_HOLDERS : Nat := 0x204003
/-- OD 0x2040.04 CLAIMS_REFUSED (Table 16.10). -/
def Ob.CLAIMS_REFUSED : Nat := 0x204004
/-- OD 0x2041.01 TELEMETRY_PERIOD (Table 16.10). -/
def Ob.TELEMETRY_PERIOD : Nat := 0x204101
/-- OD 0x3001.01 CORE_FUSE_MAP (R13). -/
def Ob.CORE_FUSE_MAP : Nat := 0x300101
/-- OD 0x3010.01 SPREAD_WINDOW (R21). -/
def Ob.SPREAD_WINDOW : Nat := 0x301001
/-- OD 0x3010.02 SPREAD_SEED_P0 (R21). -/
def Ob.SPREAD_SEED_P0 : Nat := 0x301002
/-- OD 0x3010.03 SPREAD_SEED_P1 (R21). -/
def Ob.SPREAD_SEED_P1 : Nat := 0x301003
/-- OD 0x3010.04 SPREAD_WINDOW_ACTIVE (R21). -/
def Ob.SPREAD_WINDOW_ACTIVE : Nat := 0x301004
/-- OD 0x3010.05 SPREAD_SEED_P0_ACTIVE (R21). -/
def Ob.SPREAD_SEED_P0_ACTIVE : Nat := 0x301005
/-- OD 0x3010.06 SPREAD_SEED_P1_ACTIVE (R21). -/
def Ob.SPREAD_SEED_P1_ACTIVE : Nat := 0x301006
/-- OD 0x3020.01 HOT_STANDS (Table 3.12). -/
def Ob.HOT_STANDS : Nat := 0x302001
/-- OD 0x3020.02 HOT_ENTER_C (Table 3.12). -/
def Ob.HOT_ENTER_C : Nat := 0x302002
/-- OD 0x3020.03 HOT_EXIT_C (Table 3.12). -/
def Ob.HOT_EXIT_C : Nat := 0x302003
/-- OD 0x3020.04 TREFI_CYCLES (Table 3.12). -/
def Ob.TREFI_CYCLES : Nat := 0x302004
/-- OD 0x3030.01 SCRUB_ENABLE (Table 3.12). -/
def Ob.SCRUB_ENABLE : Nat := 0x303001
/-- OD 0x3030.02 SCRUB_PERIOD_H (Table 3.12). -/
def Ob.SCRUB_PERIOD_H : Nat := 0x303002
/-- OD 0x3030.03 SCRUB_GAP_TICKS (Table 3.12). -/
def Ob.SCRUB_GAP_TICKS : Nat := 0x303003
/-- OD 0x3030.04 SCRUB_LAG_MAX (Table 3.12). -/
def Ob.SCRUB_LAG_MAX : Nat := 0x303004
/-- OD 0x3030.05 SCRUB_PASSES (Table 3.12). -/
def Ob.SCRUB_PASSES : Nat := 0x303005
/-- OD 0x3038.01 CAL_INTERVAL_S (Table 3.12). -/
def Ob.CAL_INTERVAL_S : Nat := 0x303801
/-- OD 0x3038.02 CAL_DRIFT_C (Table 3.12). -/
def Ob.CAL_DRIFT_C : Nat := 0x303802
/-- OD 0x3038.03 CAL_STALE (Table 3.12). -/
def Ob.CAL_STALE : Nat := 0x303803
/-- OD 0x3038.04 CAL_COUNT (Table 3.12). -/
def Ob.CAL_COUNT : Nat := 0x303804
/-- OD 0x3040.01 LINK_RETRAIN (R17). -/
def Ob.LINK_RETRAIN : Nat := 0x304001
/-- OD 0x3050.01 CE_P0 (Table 3.13). -/
def Ob.CE_P0 : Nat := 0x305001
/-- OD 0x3050.02 CE_P1 (Table 3.13). -/
def Ob.CE_P1 : Nat := 0x305002
/-- OD 0x3050.03 UE_P0 (Table 3.13). -/
def Ob.UE_P0 : Nat := 0x305003
/-- OD 0x3050.04 UE_P1 (Table 3.13). -/
def Ob.UE_P1 : Nat := 0x305004
/-- OD 0x3050.05 SRAM_CE (Table 3.13). -/
def Ob.SRAM_CE : Nat := 0x305005
/-- OD 0x3050.06 SRAM_UE (Table 3.13). -/
def Ob.SRAM_UE : Nat := 0x305006
/-- OD 0x3050.07 SCRUB_CE (Table 3.13). -/
def Ob.SCRUB_CE : Nat := 0x305007
/-- OD 0x3050.08 SCRUB_UE (Table 3.13). -/
def Ob.SCRUB_UE : Nat := 0x305008
/-- OD 0x3050.09 WRITEBACK_CANCELLED (Table 3.13). -/
def Ob.WRITEBACK_CANCELLED : Nat := 0x305009
/-- OD 0x3050.0A WRITEBACK_DROPPED (Table 3.13). -/
def Ob.WRITEBACK_DROPPED : Nat := 0x30500A
/-- OD 0x3050.0B FORCED_REFRESH (Table 3.13). -/
def Ob.FORCED_REFRESH : Nat := 0x30500B
/-- OD 0x3050.0C MAX_OWED (Table 3.13). -/
def Ob.MAX_OWED : Nat := 0x30500C
/-- OD 0x3060.01 ERR_LOG (Table 3.13). -/
def Ob.ERR_LOG : Nat := 0x306001
/-- OD 0x3060.02 ERR_LOG_HEAD (Table 3.13). -/
def Ob.ERR_LOG_HEAD : Nat := 0x306002
/-- OD 0x3060.03 ERR_LOG_OVERWRITTEN (Table 3.13). -/
def Ob.ERR_LOG_OVERWRITTEN : Nat := 0x306003
/-- OD 0x3070.01 REPAIR_MAP (Table 3.12). -/
def Ob.REPAIR_MAP : Nat := 0x307001
/-- OD 0x3071.01 REPAIR_THRESHOLD (Table 3.12). -/
def Ob.REPAIR_THRESHOLD : Nat := 0x307101
/-- OD 0x3071.02 REPAIR_ACTIVE (Table 3.12). -/
def Ob.REPAIR_ACTIVE : Nat := 0x307102
/-- OD 0x3080.01 WIPE_LAST_TICK (Table 3.12). -/
def Ob.WIPE_LAST_TICK : Nat := 0x308001
/-- OD 0x3080.02 WIPE_LAST_SCOPE (Table 3.12). -/
def Ob.WIPE_LAST_SCOPE : Nat := 0x308002
/-- OD 0x3080.03 WIPE_COUNT (Table 3.12). -/
def Ob.WIPE_COUNT : Nat := 0x308003
/-- OD 0x3100.01 VAULT_CE (Table 3.13). -/
def Ob.VAULT_CE : Nat := 0x310001
/-- OD 0x3120.01 VAULT_UE (Table 3.13). -/
def Ob.VAULT_UE : Nat := 0x312001
/-- OD 0x4001.01 ITEM_POOL_P0 (Table 4.7). -/
def Ob.ITEM_POOL_P0 : Nat := 0x400101
/-- OD 0x4001.02 ITEM_POOL_P1 (Table 4.7). -/
def Ob.ITEM_POOL_P1 : Nat := 0x400102
/-- OD 0x4001.03 YARD_ITEM_MIB (Table 4.7). -/
def Ob.YARD_ITEM_MIB : Nat := 0x400103
/-- OD 0x4002.01 FLOW_OPEN (Table 4.7). -/
def Ob.FLOW_OPEN : Nat := 0x400201
/-- OD 0x4002.02 FLOW_CLOSE (Table 4.7). -/
def Ob.FLOW_CLOSE : Nat := 0x400202
/-- OD 0x4003.01 FLOW_PEEK_SEL (Table 4.7). -/
def Ob.FLOW_PEEK_SEL : Nat := 0x400301
/-- OD 0x4003.02 FLOW_PEEK (Table 4.7). -/
def Ob.FLOW_PEEK : Nat := 0x400302
/-- OD 0x4020.01 RESIDENT_USED (Table 4.8). -/
def Ob.RESIDENT_USED : Nat := 0x402001
/-- OD 0x4020.02 CONTEXT_SPILLS (Table 4.8). -/
def Ob.CONTEXT_SPILLS : Nat := 0x402002
/-- OD 0x4020.03 CONTEXT_REFILLS (Table 4.8). -/
def Ob.CONTEXT_REFILLS : Nat := 0x402003
/-- OD 0x4020.04 ITEM_SPILLS (Table 4.8). -/
def Ob.ITEM_SPILLS : Nat := 0x402004
/-- OD 0x4020.05 YARD_ITEMS (Table 4.8). -/
def Ob.YARD_ITEMS : Nat := 0x402005
/-- OD 0x4020.06 SLOT_SPILLS (Table 4.8). -/
def Ob.SLOT_SPILLS : Nat := 0x402006
/-- OD 0x4020.07 SLOW_ENTRIES (Table 4.8). -/
def Ob.SLOW_ENTRIES : Nat := 0x402007
/-- OD 0x4020.08 LATE_DROPS (Table 4.8). -/
def Ob.LATE_DROPS : Nat := 0x402008
/-- OD 0x4020.09 PREFETCH_RETURNED (Table 4.8). -/
def Ob.PREFETCH_RETURNED : Nat := 0x402009
/-- OD 0x4020.0A ENQUEUE_STALL_TICKS (Table 4.8). -/
def Ob.ENQUEUE_STALL_TICKS : Nat := 0x40200A
/-- OD 0x4020.0B LAT_ITEM_REFUSED (Table 4.8). -/
def Ob.LAT_ITEM_REFUSED : Nat := 0x40200B
/-- OD 0x5001.01 MAC_BASE (Table 6.11). -/
def Ob.MAC_BASE : Nat := 0x500101
/-- OD 0x5010.01 LINK_RATE (Table 5.13). -/
def Ob.LINK_RATE : Nat := 0x501001
/-- OD 0x5010.02 LINK_WIDTH (Table 5.13). -/
def Ob.LINK_WIDTH : Nat := 0x501002
/-- OD 0x5010.03 REFCLK_MODE (Table 5.13). -/
def Ob.REFCLK_MODE : Nat := 0x501003
/-- OD 0x5010.04 REPLAYS (Table 5.13). -/
def Ob.REPLAYS : Nat := 0x501004
/-- OD 0x5010.05 LINK_DOWNS (Table 5.13). -/
def Ob.LINK_DOWNS : Nat := 0x501005
/-- OD 0x5010.06 DMA_FAULTS (Table 5.13). -/
def Ob.DMA_FAULTS : Nat := 0x501006
/-- OD 0x5010.07 OUTSTANDING_MAX (Table 5.13). -/
def Ob.OUTSTANDING_MAX : Nat := 0x501007
/-- OD 0x5010.08 HELD_COMPLETIONS (Table 5.13). -/
def Ob.HELD_COMPLETIONS : Nat := 0x501008
/-- OD 0x5010.09 FETCH_STALLS (Table 5.13). -/
def Ob.FETCH_STALLS : Nat := 0x501009
/-- OD 0x5010.0A LOST_COMPLETIONS (Table 5.13). -/
def Ob.LOST_COMPLETIONS : Nat := 0x50100A
/-- OD 0x5020.01 PORT_ENABLE (Table 6.2). -/
def Ob.PORT_ENABLE : Nat := 0x502001
/-- OD 0x5020.02 BREAKOUT (Table 6.2). -/
def Ob.BREAKOUT : Nat := 0x502002
/-- OD 0x5020.03 PORT_STATE (Table 6.2). -/
def Ob.PORT_STATE : Nat := 0x502003
/-- OD 0x5020.04 SUBPORT_UP (Table 6.2). -/
def Ob.SUBPORT_UP : Nat := 0x502004
/-- OD 0x5020.05 MODULE_INFO (Table 6.2). -/
def Ob.MODULE_INFO : Nat := 0x502005
/-- OD 0x5020.06 MTU (Table 6.2). -/
def Ob.MTU : Nat := 0x502006
/-- OD 0x5020.07 VLAN_ID (Table 6.2). -/
def Ob.VLAN_ID : Nat := 0x502007
/-- OD 0x5020.08 PCP_LAT (Table 6.2). -/
def Ob.PCP_LAT : Nat := 0x502008
/-- OD 0x5020.09 IPV4 (Table 6.2). -/
def Ob.IPV4 : Nat := 0x502009
/-- OD 0x5020.0A IPV6 (Table 6.2). -/
def Ob.IPV6 : Nat := 0x50200A
/-- OD 0x5020.0B UDP_PORT (Table 6.2). -/
def Ob.UDP_PORT : Nat := 0x50200B
/-- OD 0x5020.0C RX_FRAMES (Table 6.2). -/
def Ob.RX_FRAMES : Nat := 0x50200C
/-- OD 0x5020.0D RX_DISCARDS (Table 6.2). -/
def Ob.RX_DISCARDS : Nat := 0x50200D
/-- OD 0x5020.0E FEC_CORRECTED (Table 6.2). -/
def Ob.FEC_CORRECTED : Nat := 0x50200E
/-- OD 0x5020.0F FEC_UNCORRECTED (Table 6.2). -/
def Ob.FEC_UNCORRECTED : Nat := 0x50200F
/-- OD 0x5020.10 TX_FRAMES (Table 6.2). -/
def Ob.TX_FRAMES : Nat := 0x502010
/-- OD 0x5020.11 RSP_DISCARDED (Table 6.2). -/
def Ob.RSP_DISCARDED : Nat := 0x502011
/-- OD 0x5030.01 STREAM_OPEN (Table 6.11). -/
def Ob.STREAM_OPEN : Nat := 0x503001
/-- OD 0x5030.02 STREAM_CLOSE (Table 6.11). -/
def Ob.STREAM_CLOSE : Nat := 0x503002
/-- OD 0x5030.03 STREAM_PEEK_SEL (Table 6.11). -/
def Ob.STREAM_PEEK_SEL : Nat := 0x503003
/-- OD 0x5030.04 STREAM_PEEK (Table 6.11). -/
def Ob.STREAM_PEEK : Nat := 0x503004
/-- OD 0x5030.05 NACK_DELAY (Table 6.11). -/
def Ob.NACK_DELAY : Nat := 0x503005
/-- OD 0x5030.06 CREDIT_GAP (Table 6.11). -/
def Ob.CREDIT_GAP : Nat := 0x503006
/-- OD 0x5030.07 NACK_PERIOD (Table 6.11). -/
def Ob.NACK_PERIOD : Nat := 0x503007
/-- OD 0x5030.08 GAP_LIMIT (Table 6.11). -/
def Ob.GAP_LIMIT : Nat := 0x503008
/-- OD 0x5030.09 KEEPALIVE (Table 6.11). -/
def Ob.KEEPALIVE : Nat := 0x503009
/-- OD 0x5038.01 DATA_ACCEPTED (Table 6.11). -/
def Ob.DATA_ACCEPTED : Nat := 0x503801
/-- OD 0x5038.02 DUPLICATES (Table 6.11). -/
def Ob.DUPLICATES : Nat := 0x503802
/-- OD 0x5038.03 BEYOND_LIMIT (Table 6.11). -/
def Ob.BEYOND_LIMIT : Nat := 0x503803
/-- OD 0x5038.04 CRC_DISCARDS (Table 6.11). -/
def Ob.CRC_DISCARDS : Nat := 0x503804
/-- OD 0x5038.05 MALFORMED (Table 6.11). -/
def Ob.MALFORMED : Nat := 0x503805
/-- OD 0x5038.06 SRC_REFUSED (Table 6.11). -/
def Ob.SRC_REFUSED : Nat := 0x503806
/-- OD 0x5038.07 NACKS_SENT (Table 6.11). -/
def Ob.NACKS_SENT : Nat := 0x503807
/-- OD 0x5038.08 ERRORS_SENT (Table 6.11). -/
def Ob.ERRORS_SENT : Nat := 0x503808
/-- OD 0x5038.09 ERRORS_SUPPRESSED (Table 6.11). -/
def Ob.ERRORS_SUPPRESSED : Nat := 0x503809
/-- OD 0x5038.0A STREAMS_FAILED (Table 6.11). -/
def Ob.STREAMS_FAILED : Nat := 0x50380A
/-- OD 0x5038.0B OBJECTS_REJECTED (Table 6.11). -/
def Ob.OBJECTS_REJECTED : Nat := 0x50380B
/-- OD 0x5038.0C OBJECTS_TRUNCATED (Table 6.11). -/
def Ob.OBJECTS_TRUNCATED : Nat := 0x50380C
/-- OD 0x5038.0D RECORDS_FRAMED (Table 6.11). -/
def Ob.RECORDS_FRAMED : Nat := 0x50380D
/-- OD 0x5038.0E CORRUPT_RECORDS (Table 6.11). -/
def Ob.CORRUPT_RECORDS : Nat := 0x50380E
/-- OD 0x5038.0F NARROW_SAT (Table 6.11). -/
def Ob.NARROW_SAT : Nat := 0x50380F
/-- OD 0x5038.10 BYTES_SKIPPED (Table 6.11). -/
def Ob.BYTES_SKIPPED : Nat := 0x503810
/-- OD 0x5038.11 LOOKUP_REQS (Table 6.11). -/
def Ob.LOOKUP_REQS : Nat := 0x503811
/-- OD 0x5040.01 MGMT_MAC (Table 15.7). -/
def Ob.MGMT_MAC : Nat := 0x504001
/-- OD 0x5040.02 PLCA_ROLE (Table 15.7). -/
def Ob.PLCA_ROLE : Nat := 0x504002
/-- OD 0x5040.03 PLCA_NODE_BASE (Table 15.7). -/
def Ob.PLCA_NODE_BASE : Nat := 0x504003
/-- OD 0x5040.04 PLCA_NODE_OFFSET (Table 15.7). -/
def Ob.PLCA_NODE_OFFSET : Nat := 0x504004
/-- OD 0x5040.05 PLCA_NODE_ID (Table 15.7). -/
def Ob.PLCA_NODE_ID : Nat := 0x504005
/-- OD 0x5040.06 PLCA_NODE_COUNT (Table 15.7). -/
def Ob.PLCA_NODE_COUNT : Nat := 0x504006
/-- OD 0x5040.07 PLCA_TO_TIMER (Table 15.7). -/
def Ob.PLCA_TO_TIMER : Nat := 0x504007
/-- OD 0x5040.08 PLCA_MAX_BC (Table 15.7). -/
def Ob.PLCA_MAX_BC : Nat := 0x504008
/-- OD 0x5040.09 PLCA_BURST_TMR (Table 15.7). -/
def Ob.PLCA_BURST_TMR : Nat := 0x504009
/-- OD 0x5040.0A PLCA_STATUS (Table 15.7). -/
def Ob.PLCA_STATUS : Nat := 0x50400A
/-- OD 0x5040.0B BOP_UDP_PORT (Table 15.7). -/
def Ob.BOP_UDP_PORT : Nat := 0x50400B
/-- OD 0x5040.0C SESSION_IDLE (Table 15.7). -/
def Ob.SESSION_IDLE : Nat := 0x50400C
/-- OD 0x5041.01 MGMT_RX_DISCARDS (Table 15.7). -/
def Ob.MGMT_RX_DISCARDS : Nat := 0x504101
/-- OD 0x5041.02 PLCA_FALLBACKS (Table 15.7). -/
def Ob.PLCA_FALLBACKS : Nat := 0x504102
/-- OD 0x5041.03 BOP_MALFORMED (Table 15.7). -/
def Ob.BOP_MALFORMED : Nat := 0x504103
/-- OD 0x5041.04 AUTH_FAILS (Table 15.7). -/
def Ob.AUTH_FAILS : Nat := 0x504104
/-- OD 0x5041.05 BOP_REPLAYS (Table 15.7). -/
def Ob.BOP_REPLAYS : Nat := 0x504105
/-- OD 0x5041.06 BOP_QUEUE_DROPS (Table 15.7). -/
def Ob.BOP_QUEUE_DROPS : Nat := 0x504106
/-- OD 0x5041.07 EVENT_RETRIES (Table 15.7). -/
def Ob.EVENT_RETRIES : Nat := 0x504107
/-- OD 0x5041.08 EVENTS_LOST (Table 15.7). -/
def Ob.EVENTS_LOST : Nat := 0x504108
/-- OD 0x5060.01 DICT_LOAD (Table 14.7). -/
def Ob.DICT_LOAD : Nat := 0x506001
/-- OD 0x5060.02 DICT_UNLOAD (Table 14.7). -/
def Ob.DICT_UNLOAD : Nat := 0x506002
/-- OD 0x5060.03 DICT_LIST (Table 14.7). -/
def Ob.DICT_LIST : Nat := 0x506003
/-- OD 0x5060.04 CHIP_INGEST_PRIO (Table 14.7). -/
def Ob.CHIP_INGEST_PRIO : Nat := 0x506004
/-- OD 0x5810.01 SET_SEAL (Table 7.8). -/
def Ob.SET_SEAL : Nat := 0x581001
/-- OD 0x5810.02 SET_CLEAR (Table 7.8). -/
def Ob.SET_CLEAR : Nat := 0x581002
/-- OD 0x5820.01 SET_STATE (Table 7.8). -/
def Ob.SET_STATE : Nat := 0x582001
/-- OD 0x5830.01 SET_OVERFLOW (Table 7.8). -/
def Ob.SET_OVERFLOW : Nat := 0x583001
/-- OD 0x5840.01 EPOCH_STATE (Table 7.8). -/
def Ob.EPOCH_STATE : Nat := 0x584001
/-- OD 0x5840.02 NEXT_FEED (Table 7.8). -/
def Ob.NEXT_FEED : Nat := 0x584002
/-- OD 0x5840.03 SHIPPED (Table 7.8). -/
def Ob.SHIPPED : Nat := 0x584003
/-- OD 0x5840.04 PREP_COUNT (Table 7.8). -/
def Ob.PREP_COUNT : Nat := 0x584004
/-- OD 0x5840.05 DROPS_DATA (Table 7.8). -/
def Ob.DROPS_DATA : Nat := 0x584005
/-- OD 0x5840.06 DROPS_LATE (Table 7.8). -/
def Ob.DROPS_LATE : Nat := 0x584006
/-- OD 0x5840.07 DROPS_OTHER (Table 7.8). -/
def Ob.DROPS_OTHER : Nat := 0x584007
/-- OD 0x5840.08 VOID_SLOTS (Table 7.8). -/
def Ob.VOID_SLOTS : Nat := 0x584008
/-- OD 0x5840.09 BATCH_LOW_COUNT (Table 7.8). -/
def Ob.BATCH_LOW_COUNT : Nat := 0x584009
/-- OD 0x5840.0A CAPPED (Table 7.8). -/
def Ob.CAPPED : Nat := 0x58400A
/-- OD 0x5840.0B PACK_ELIDED (Table 7.8). -/
def Ob.PACK_ELIDED : Nat := 0x58400B
/-- OD 0x5840.0C DISCARDED_LAST (Table 7.8). -/
def Ob.DISCARDED_LAST : Nat := 0x58400C
/-- OD 0x5880.01 BUILD_OVERFLOW (Table 8.22). -/
def Ob.BUILD_OVERFLOW : Nat := 0x588001
/-- OD 0x5880.02 JOIN_CAPPED (Table 8.22). -/
def Ob.JOIN_CAPPED : Nat := 0x588002
/-- OD 0x5880.03 GROUP_OVERFLOW (Table 8.22). -/
def Ob.GROUP_OVERFLOW : Nat := 0x588003
/-- OD 0x5880.04 AGG_SAT (Table 8.22). -/
def Ob.AGG_SAT : Nat := 0x588004
/-- OD 0x5880.05 DEDUPE_OVERFLOW (Table 8.22). -/
def Ob.DEDUPE_OVERFLOW : Nat := 0x588005
/-- OD 0x5880.06 CROSS_TRUNCATED (Table 8.22). -/
def Ob.CROSS_TRUNCATED : Nat := 0x588006
/-- OD 0x5880.07 BAG_TRUNCATED (Table 8.22). -/
def Ob.BAG_TRUNCATED : Nat := 0x588007
/-- OD 0x5880.08 REPART_ROWS (Table 8.22). -/
def Ob.REPART_ROWS : Nat := 0x588008
/-- OD 0x5880.09 REPART_BYTES (Table 8.22). -/
def Ob.REPART_BYTES : Nat := 0x588009
/-- OD 0x58A0.01 CONV_SAT (Table 10.10). -/
def Ob.CONV_SAT : Nat := 0x58A001
/-- OD 0x58A0.02 NAN_TO_INT (Table 10.10). -/
def Ob.NAN_TO_INT : Nat := 0x58A002
/-- OD 0x58A0.03 MX_NAN_BLOCKS (Table 10.10). -/
def Ob.MX_NAN_BLOCKS : Nat := 0x58A003
/-- OD 0x58A0.04 ME_JOBS (Table 10.10). -/
def Ob.ME_JOBS : Nat := 0x58A004
/-- OD 0x58A0.05 ME_BUSY_CYCLES (Table 10.10). -/
def Ob.ME_BUSY_CYCLES : Nat := 0x58A005
/-- OD 0x58A0.06 ME_FEED_STALL_CYCLES (Table 10.10). -/
def Ob.ME_FEED_STALL_CYCLES : Nat := 0x58A006
/-- OD 0x58C0.01 TOPK_DONE (Table 13.9). -/
def Ob.TOPK_DONE : Nat := 0x58C001
/-- OD 0x58C0.02 SEL_NONFINITE (Table 13.9). -/
def Ob.SEL_NONFINITE : Nat := 0x58C002
/-- OD 0x58C0.03 SEL_INVALID_IDS (Table 13.9). -/
def Ob.SEL_INVALID_IDS : Nat := 0x58C003
/-- OD 0x58C0.04 PE_BYTES (Table 13.9). -/
def Ob.PE_BYTES : Nat := 0x58C004
/-- OD 0x58C0.05 PE_MATCHES (Table 13.9). -/
def Ob.PE_MATCHES : Nat := 0x58C005
/-- OD 0x58C0.06 PE_VERIFY_FAIL (Table 13.9). -/
def Ob.PE_VERIFY_FAIL : Nat := 0x58C006
/-- OD 0x58C0.07 PE_PARITY (Table 13.9). -/
def Ob.PE_PARITY : Nat := 0x58C007
/-- OD 0x58C0.08 PE_STALL_CYCLES (Table 13.9). -/
def Ob.PE_STALL_CYCLES : Nat := 0x58C008
/-- OD 0x58E0.01 COPY_BYTES (Table 14.7). -/
def Ob.COPY_BYTES : Nat := 0x58E001
/-- OD 0x58E0.02 COPY_STRIDED_BYTES (Table 14.7). -/
def Ob.COPY_STRIDED_BYTES : Nat := 0x58E002
/-- OD 0x58E0.03 COPY_OVERLAP (Table 14.7). -/
def Ob.COPY_OVERLAP : Nat := 0x58E003
/-- OD 0x58E0.04 CHIP_OUT_BYTES (Table 14.7). -/
def Ob.CHIP_OUT_BYTES : Nat := 0x58E004
/-- OD 0x58E0.05 CHIP_EXPANSION (Table 14.7). -/
def Ob.CHIP_EXPANSION : Nat := 0x58E005
/-- OD 0x58E0.06 CHIP_CORRUPT (Table 14.7). -/
def Ob.CHIP_CORRUPT : Nat := 0x58E006
/-- OD 0x58E0.07 CHIP_FAR_BYTES (Table 14.7). -/
def Ob.CHIP_FAR_BYTES : Nat := 0x58E007
/-- OD 0x58E0.08 CHIP_IN_BYTES (Table 14.7). -/
def Ob.CHIP_IN_BYTES : Nat := 0x58E008
/-- OD 0x58E0.09 CHIP_NOT_SMALLER (Table 14.7). -/
def Ob.CHIP_NOT_SMALLER : Nat := 0x58E009
/-- OD 0x6001.01 TABLE_PEEK_SEL (Table 11.10). -/
def Ob.TABLE_PEEK_SEL : Nat := 0x600101
/-- OD 0x6001.02 TABLE_PEEK (Table 11.10). -/
def Ob.TABLE_PEEK : Nat := 0x600102
/-- OD 0x6020.01 MIGRATIONS (Table 11.10). -/
def Ob.MIGRATIONS : Nat := 0x602001
/-- OD 0x6020.02 REGRADE_ABANDONED (Table 11.10). -/
def Ob.REGRADE_ABANDONED : Nat := 0x602002
/-- OD 0x6020.03 REGRADE_NO_SPACE (Table 11.10). -/
def Ob.REGRADE_NO_SPACE : Nat := 0x602003
/-- OD 0x6020.04 REGRADE_LATE (Table 11.10). -/
def Ob.REGRADE_LATE : Nat := 0x602004
/-- OD 0x6020.05 READY_DENIED (Table 11.10). -/
def Ob.READY_DENIED : Nat := 0x602005
/-- OD 0x6020.06 DIR_FULL (Table 11.10). -/
def Ob.DIR_FULL : Nat := 0x602006
/-- OD 0x6020.07 MATERIALISED (Table 11.10). -/
def Ob.MATERIALISED : Nat := 0x602007
/-- OD 0x6020.08 ROWS_REFUSED (Table 11.10). -/
def Ob.ROWS_REFUSED : Nat := 0x602008
/-- OD 0x6020.09 VERSIONS_RECLAIMED (Table 11.10). -/
def Ob.VERSIONS_RECLAIMED : Nat := 0x602009
/-- OD 0x6040.01 LOOKUPS_LAT (Table 12.8). -/
def Ob.LOOKUPS_LAT : Nat := 0x604001
/-- OD 0x6040.02 LOOKUPS_BULK (Table 12.8). -/
def Ob.LOOKUPS_BULK : Nat := 0x604002
/-- OD 0x6040.03 ROWS_READ (Table 12.8). -/
def Ob.ROWS_READ : Nat := 0x604003
/-- OD 0x6040.04 COMBINED_READS (Table 12.8). -/
def Ob.COMBINED_READS : Nat := 0x604004
/-- OD 0x6040.05 UNWRITTEN_READS (Table 12.8). -/
def Ob.UNWRITTEN_READS : Nat := 0x604005
/-- OD 0x6040.06 UPDATES_APPLIED (Table 12.8). -/
def Ob.UPDATES_APPLIED : Nat := 0x604006
/-- OD 0x6040.07 GRAD_NONFINITE (Table 12.8). -/
def Ob.GRAD_NONFINITE : Nat := 0x604007
/-- OD 0x6040.08 UPDATE_NONFINITE (Table 12.8). -/
def Ob.UPDATE_NONFINITE : Nat := 0x604008
/-- OD 0x6040.09 SAT_SET (Table 12.8). -/
def Ob.SAT_SET : Nat := 0x604009
/-- OD 0x7001.01 LC_STATE (Table 17.10). -/
def Ob.LC_STATE : Nat := 0x700101
/-- OD 0x7001.02 LC_NONCE (Table 17.10). -/
def Ob.LC_NONCE : Nat := 0x700102
/-- OD 0x7001.03 LC_REQUEST (Table 17.10). -/
def Ob.LC_REQUEST : Nat := 0x700103
/-- OD 0x7002.01 OWNER_KEY_HASH (Table 17.10). -/
def Ob.OWNER_KEY_HASH : Nat := 0x700201
/-- OD 0x7002.02 SVN_MIN (Table 17.10). -/
def Ob.SVN_MIN : Nat := 0x700202
/-- OD 0x7002.03 SVN_COMMIT (Table 17.10). -/
def Ob.SVN_COMMIT : Nat := 0x700203
/-- OD 0x7010.01 DEVICE_KEY_RECORD (Table 17.10). -/
def Ob.DEVICE_KEY_RECORD : Nat := 0x701001
/-- OD 0x7020.01 ATTEST_NONCE (Table 17.10). -/
def Ob.ATTEST_NONCE : Nat := 0x702001
/-- OD 0x7020.02 ATTEST_REPORT (Table 17.10). -/
def Ob.ATTEST_REPORT : Nat := 0x702002
/-- OD 0x7040.01 IMAGE_SIG_POLICY (Table 9.5). -/
def Ob.IMAGE_SIG_POLICY : Nat := 0x704001
/-- OD 0x7040.02 IMAGE_KEY_HASH0 (Table 9.5). -/
def Ob.IMAGE_KEY_HASH0 : Nat := 0x704002
/-- OD 0x7040.06 IMAGES_LOADED (Table 9.5). -/
def Ob.IMAGES_LOADED : Nat := 0x704006
/-- OD 0x7050.01 MGMT_KEY0 (Table 15.5). -/
def Ob.MGMT_KEY0 : Nat := 0x705001
/-- OD 0x7050.05 MBOX_KEY_A (Table 15.5). -/
def Ob.MBOX_KEY_A : Nat := 0x705005
/-- OD 0x7050.06 MBOX_KEY_B (Table 15.5). -/
def Ob.MBOX_KEY_B : Nat := 0x705006
/-- OD 0x7050.07 KEY_STATE (Table 15.5). -/
def Ob.KEY_STATE : Nat := 0x705007
/-- OD 0x7060.01 FW_IMAGE (Table 17.10). -/
def Ob.FW_IMAGE : Nat := 0x706001
/-- OD 0x7060.02 FW_UPDATE_STATE (Table 17.10). -/
def Ob.FW_UPDATE_STATE : Nat := 0x706002
/-- OD 0x7070.01 BOOT_LOG (Table 17.10). -/
def Ob.BOOT_LOG : Nat := 0x707001
/-- OD 0x7070.02 BOOT_LOG_HEAD (Table 17.10). -/
def Ob.BOOT_LOG_HEAD : Nat := 0x707002
/-- OD 0x8000.01 SCL_STATUS (Table 18.5). -/
def Ob.SCL_STATUS : Nat := 0x800001
/-- OD 0x8000.02 SCL_SW_VERSION (Table 18.5). -/
def Ob.SCL_SW_VERSION : Nat := 0x800002
/-- OD 0x8000.03 SCL_KEY_RECORD (Table 18.5). -/
def Ob.SCL_KEY_RECORD : Nat := 0x800003
/-- OD 0x8001.01 SCL_AUDIT (Table 18.5). -/
def Ob.SCL_AUDIT : Nat := 0x800101
/-- OD 0x8001.02 SCL_INTERVAL_MIN (Table 18.5). -/
def Ob.SCL_INTERVAL_MIN : Nat := 0x800102
/-- OD 0x8001.03 SCL_CAL (Table 18.5). -/
def Ob.SCL_CAL : Nat := 0x800103
/-- OD 0x8001.04 SCL_CAL_ID (Table 18.5). -/
def Ob.SCL_CAL_ID : Nat := 0x800104
/-- OD 0x8002.01 SCL_E_TOTAL (Table 18.5). -/
def Ob.SCL_E_TOTAL : Nat := 0x800201
/-- OD 0x8002.02 SCL_V_NOW (Table 18.5). -/
def Ob.SCL_V_NOW : Nat := 0x800202
/-- OD 0x8002.03 SCL_I_NOW (Table 18.5). -/
def Ob.SCL_I_NOW : Nat := 0x800203
/-- OD 0x8002.04 SCL_TIME (Table 18.5). -/
def Ob.SCL_TIME : Nat := 0x800204
/-- OD 0x8010.01 SCL_REC_NEWEST (Table 18.5). -/
def Ob.SCL_REC_NEWEST : Nat := 0x801001
/-- OD 0x8020.01 SCL_AUDIT_LOG (Table 18.5). -/
def Ob.SCL_AUDIT_LOG : Nat := 0x802001
/-- OD 0x8100.01 SCL_RECORD (Table 18.5). -/
def Ob.SCL_RECORD : Nat := 0x810001
/-- OD 0x8200.01 SCL_RING (Table 18.5). -/
def Ob.SCL_RING : Nat := 0x820001
/-- OD 0x9001.01 CLK_STATUS (Table 19.13). -/
def Ob.CLK_STATUS : Nat := 0x900101
/-- OD 0x9001.02 CLK_FLAG_CLEAR (Table 19.13). -/
def Ob.CLK_FLAG_CLEAR : Nat := 0x900102
/-- OD 0x9001.03 XO_FAULTS (Table 19.13). -/
def Ob.XO_FAULTS : Nat := 0x900103
/-- OD 0x9001.04 IOSC_FAULTS (Table 19.13). -/
def Ob.IOSC_FAULTS : Nat := 0x900104
/-- OD 0x9001.05 FORCED_SWITCHES (Table 19.13). -/
def Ob.FORCED_SWITCHES : Nat := 0x900105
/-- OD 0x9002.01 MCLK_DIV (Table 19.13). -/
def Ob.MCLK_DIV : Nat := 0x900201
/-- OD 0x9002.02 PCLK_DIV (Table 19.13). -/
def Ob.PCLK_DIV : Nat := 0x900202
/-- OD 0x9003.01 POWER_MODE (Table 19.13). -/
def Ob.POWER_MODE : Nat := 0x900301
/-- OD 0x9003.02 WAKE_MS (Table 19.13). -/
def Ob.WAKE_MS : Nat := 0x900302
/-- OD 0x9003.03 WAKE_SOURCES (Table 19.13). -/
def Ob.WAKE_SOURCES : Nat := 0x900303
/-- OD 0x9004.01 GATE_RUN (Table 19.13). -/
def Ob.GATE_RUN : Nat := 0x900401
/-- OD 0x9004.02 GATE_SLEEP (Table 19.13). -/
def Ob.GATE_SLEEP : Nat := 0x900402
/-- OD 0x9004.03 GATE_DEEP (Table 19.13). -/
def Ob.GATE_DEEP : Nat := 0x900403
/-- OD 0x9010.01 RESET_CAUSE (Table 19.13). -/
def Ob.RESET_CAUSE : Nat := 0x901001
/-- OD 0x9010.02 RESET_CAUSE_TICK (Table 19.13). -/
def Ob.RESET_CAUSE_TICK : Nat := 0x901002
/-- OD 0x9010.03 RESET_REQUEST (Table 19.13). -/
def Ob.RESET_REQUEST : Nat := 0x901003
/-- OD 0x9011.01 BLOCK_RESET (Table 19.13). -/
def Ob.BLOCK_RESET : Nat := 0x901101
/-- OD 0x9011.02 QUIESCE_TICKS (Table 19.13). -/
def Ob.QUIESCE_TICKS : Nat := 0x901102
/-- OD 0x9011.03 BLOCK_ISOLATED (Table 19.13). -/
def Ob.BLOCK_ISOLATED : Nat := 0x901103
/-- OD 0x9020.01 CFG_CODE (Table 19.13). -/
def Ob.CFG_CODE : Nat := 0x902001
/-- OD 0x9020.02 CFG_ADC (Table 19.13). -/
def Ob.CFG_ADC : Nat := 0x902002
/-- OD 0x9100.01 PWR_LIMIT_W (Table 20.11). -/
def Ob.PWR_LIMIT_W : Nat := 0x910001
/-- OD 0x9100.02 PWR_LIMIT_ACTIVE (Table 20.11). -/
def Ob.PWR_LIMIT_ACTIVE : Nat := 0x910002
/-- OD 0x9100.03 BRAKE_DUTY (Table 20.11). -/
def Ob.BRAKE_DUTY : Nat := 0x910003
/-- OD 0x9100.04 DUTY (Table 20.11). -/
def Ob.DUTY : Nat := 0x910004
/-- OD 0x9100.05 THROTTLE_SRC (Table 20.11). -/
def Ob.THROTTLE_SRC : Nat := 0x910005
/-- OD 0x9101.01 VIN_MV (Table 20.11). -/
def Ob.VIN_MV : Nat := 0x910101
/-- OD 0x9101.02 IIN_MA (Table 20.11). -/
def Ob.IIN_MA : Nat := 0x910102
/-- OD 0x9101.03 PIN_W (Table 20.11). -/
def Ob.PIN_W : Nat := 0x910103
/-- OD 0x9101.04 THROTTLE_TICKS (Table 20.11). -/
def Ob.THROTTLE_TICKS : Nat := 0x910104
/-- OD 0x9101.05 LIMIT_UNMET (Table 20.11). -/
def Ob.LIMIT_UNMET : Nat := 0x910105
/-- OD 0x9110.01 TEMP_STAND (Table 20.11). -/
def Ob.TEMP_STAND : Nat := 0x911001
/-- OD 0x9110.15 TEMP_LANDING (Table 20.11). -/
def Ob.TEMP_LANDING : Nat := 0x911015
/-- OD 0x9120.01 THERMAL_TRIPS (Table 20.11). -/
def Ob.THERMAL_TRIPS : Nat := 0x912001
/-- OD 0x9130.01 FRU_STATUS (Table 20.11). -/
def Ob.FRU_STATUS : Nat := 0x913001
/-- OD 0x9130.02 FRU_IMAGE (Table 20.11). -/
def Ob.FRU_IMAGE : Nat := 0x913002
/-- OD 0x9130.03 CARRIER_MAX_W (Table 20.11). -/
def Ob.CARRIER_MAX_W : Nat := 0x913003
/-- OD 0xA001.01 DEBUG_UART_ENABLE (Table 16.10). -/
def Ob.DEBUG_UART_ENABLE : Nat := 0xA00101
/-- OD 0xA010.01 DEBUG_UNLOCK (Table 17.10). -/
def Ob.DEBUG_UNLOCK : Nat := 0xA01001
/-- OD 0xA010.02 DEBUG_TOKEN (Table 17.10). -/
def Ob.DEBUG_TOKEN : Nat := 0xA01002
/-- OD 0xA010.03 DEBUG_STATE (Table 17.10). -/
def Ob.DEBUG_STATE : Nat := 0xA01003

/-! ### Rows -/

/-- Rows of the dictionary, part 0. -/
def odRows0 : List OdRow :=
  [⟨0x1000, 1, 0x01, 1, 2, .const, false, .fixed true true true false, 32⟩,
   ⟨0x1000, 1, 0x02, 1, 1, .const, false, .fixed true true true false, 1⟩,
   ⟨0x1008, 1, 0x01, 1, 7, .const, false, .fixed true true true false, 0⟩,
   ⟨0x1009, 1, 0x01, 1, 7, .const, false, .fixed true true true false, 0⟩,
   ⟨0x1018, 1, 0x01, 1, 2, .const, false, .fixed true true true false, 8042⟩,
   ⟨0x1018, 1, 0x02, 1, 4, .const, false, .fixed true true true false, 0⟩,
   ⟨0x1019, 1, 0x01, 1, 3, .ro, false, .fixed true true true false, 0⟩,
   ⟨0x1019, 1, 0x02, 1, 3, .ro, false, .fixed true true true false, 0⟩,
   ⟨0x1020, 1, 0x01, 1, 3, .ro, false, .fixed true true true false, 0⟩,
   ⟨0x1030, 1, 0x01, 1, 3, .ro, false, .fixed true false false false, 0⟩,
   ⟨0x1030, 1, 0x02, 1, 4, .ro, false, .fixed true false false false, 0⟩,
   ⟨0x1030, 1, 0x03, 1, 3, .ro, false, .fixed true false false false, 0⟩,
   ⟨0x1030, 1, 0x04, 1, 3, .ro, false, .fixed true false false false, 0⟩,
   ⟨0x1030, 1, 0x05, 1, 3, .ro, false, .fixed true false false false, 0⟩,
   ⟨0x1030, 1, 0x06, 1, 3, .ro, false, .fixed true false false false, 0⟩,
   ⟨0x1F00, 1, 0x01, 1, 8, .ro, false, .fixed true true true false, 0⟩,
   ⟨0x2010, 1, 0x01, 1, 4, .ro, false, .fixed true true true false, 0⟩,
   ⟨0x2010, 1, 0x02, 1, 2, .ro, false, .fixed true true true false, 0⟩,
   ⟨0x2010, 1, 0x03, 1, 2, .rw, true, .fixed true false false false, 235⟩,
   ⟨0x2010, 1, 0x04, 1, 2, .ro, false, .fixed true true true false, 235⟩,
   ⟨0x2010, 1, 0x05, 1, 1, .rw, true, .fixed true false false false, 25⟩,
   ⟨0x2010, 1, 0x06, 1, 2, .ro, false, .fixed true true true false, 59⟩,
   ⟨0x2010, 1, 0x07, 1, 2, .ro, false, .fixed true true true false, 14⟩,
   ⟨0x2010, 1, 0x08, 1, 1, .ro, false, .fixed true true true false, 4⟩,
   ⟨0x2010, 1, 0x09, 1, 2, .ro, false, .fixed true true true false, 100⟩,
   ⟨0x2010, 1, 0x0A, 1, 2, .ro, false, .fixed true true true false, 48⟩,
   ⟨0x2011, 1, 0x01, 1, 4, .ro, false, .sharedB, 0⟩,
   ⟨0x2011, 1, 0x02, 1, 4, .ro, false, .fixed true false true false, 0⟩,
   ⟨0x2011, 1, 0x03, 1, 4, .ro, false, .sharedB, 0⟩,
   ⟨0x2011, 1, 0x04, 1, 4, .ro, false, .fixed true false true false, 0⟩,
   ⟨0x2011, 1, 0x05, 1, 4, .ro, false, .sharedB, 0⟩,
   ⟨0x2011, 1, 0x06, 1, 4, .ro, false, .fixed true false true false, 0⟩,
   ⟨0x2011, 1, 0x07, 1, 4, .ro, false, .fixed true true true false, 0⟩,
   ⟨0x2011, 1, 0x08, 1, 4, .ro, false, .fixed true false false false, 0⟩,
   ⟨0x2020, 1, 0x01, 1, 1, .rw, true, .fixed true false false false, 0⟩,
   ⟨0x2020, 1, 0x02, 1, 1, .rw, true, .fixed true false false false, 0⟩,
   ⟨0x2020, 1, 0x03, 1, 1, .rw, true, .fixed true false false false, 0⟩,
   ⟨0x2020, 1, 0x04, 1, 1, .rw, true, .fixed true false false false, 0⟩,
   ⟨0x2020, 1, 0x05, 1, 1, .rw, true, .fixed true false false false, 0⟩,
   ⟨0x2020, 1, 0x06, 1, 1, .rw, true, .fixed true false false false, 0⟩]

/-- Rows of the dictionary, part 1. -/
def odRows1 : List OdRow :=
  [⟨0x2020, 1, 0x07, 1, 1, .rw, true, .fixed true false false false, 0⟩,
   ⟨0x2020, 1, 0x08, 1, 1, .rw, true, .fixed true false false false, 0⟩,
   ⟨0x2020, 1, 0x09, 1, 1, .rw, true, .fixed true false false false, 0⟩,
   ⟨0x2020, 1, 0x0A, 1, 2, .rw, true, .fixed true false false false, 0⟩,
   ⟨0x2020, 1, 0x0B, 1, 1, .rw, true, .fixed true false false false, 0⟩,
   ⟨0x2020, 1, 0x0C, 1, 1, .rw, true, .fixed true false false false, 0⟩,
   ⟨0x2020, 1, 0x0D, 1, 1, .wo, false, .fixed true false false false, 0⟩,
   ⟨0x2020, 1, 0x0E, 1, 1, .ro, false, .fixed true true true false, 0⟩,
   ⟨0x2020, 1, 0x0F, 1, 1, .ro, false, .fixed true true true false, 0⟩,
   ⟨0x2020, 1, 0x10, 1, 1, .ro, false, .fixed true true true false, 0⟩,
   ⟨0x2021, 1, 0x01, 1, 1, .wo, false, .fixed true true true false, 0⟩,
   ⟨0x2030, 1, 0x01, 1, 4, .ro, false, .fixed true true true false, 0⟩,
   ⟨0x2030, 1, 0x02, 1, 3, .ro, false, .fixed true true true false, 0⟩,
   ⟨0x2030, 1, 0x03, 1, 2, .ro, false, .fixed true true true false, 0⟩,
   ⟨0x2030, 1, 0x04, 1, 4, .ro, false, .fixed true true true false, 0⟩,
   ⟨0x2040, 1, 0x01, 1, 1, .ro, false, .fixed true true true false, 0⟩,
   ⟨0x2040, 1, 0x02, 1, 1, .ro, false, .fixed true true true false, 1⟩,
   ⟨0x2040, 1, 0x03, 1, 8, .ro, false, .fixed true true true false, 0⟩,
   ⟨0x2040, 1, 0x04, 1, 4, .ro, false, .fixed true false false false, 0⟩,
   ⟨0x2041, 1, 0x01, 1, 3, .rw, true, .fixed true false false false, 4000⟩,
   ⟨0x3001, 1, 0x01, 20, 4, .const, false, .fixed true true true false, 0⟩,
   ⟨0x3010, 1, 0x01, 1, 1, .rw, true, .fixed true false false false, 1⟩,
   ⟨0x3010, 1, 0x02, 1, 4, .rw, true, .fixed true false false false, 0⟩,
   ⟨0x3010, 1, 0x03, 1, 4, .rw, true, .fixed true false false false, 0⟩,
   ⟨0x3010, 1, 0x04, 1, 1, .ro, false, .fixed true true true false, 1⟩,
   ⟨0x3010, 1, 0x05, 1, 4, .ro, false, .fixed true false false false, 0⟩,
   ⟨0x3010, 1, 0x06, 1, 4, .ro, false, .fixed true false false false, 0⟩,
   ⟨0x3020, 1, 0x01, 1, 3, .ro, false, .fixed true true true false, 0⟩,
   ⟨0x3020, 1, 0x02, 1, 1, .const, false, .fixed true true true false, 84⟩,
   ⟨0x3020, 1, 0x03, 1, 1, .const, false, .fixed true true true false, 81⟩,
   ⟨0x3020, 1, 0x04, 1, 2, .const, false, .fixed true true true false, 3666⟩,
   ⟨0x3030, 1, 0x01, 1, 1, .rw, true, .fixed true false false false, 1⟩,
   ⟨0x3030, 1, 0x02, 1, 2, .rw, true, .fixed true false false false, 24⟩,
   ⟨0x3030, 1, 0x03, 1, 3, .ro, false, .fixed true false false false, 10299⟩,
   ⟨0x3030, 1, 0x04, 1, 2, .ro, false, .fixed true false false false, 0⟩,
   ⟨0x3030, 1, 0x05, 1, 3, .ro, false, .fixed true false false false, 0⟩,
   ⟨0x3038, 1, 0x01, 1, 2, .rw, true, .fixed true false false false, 60⟩,
   ⟨0x3038, 1, 0x02, 1, 1, .rw, true, .fixed true false false false, 8⟩,
   ⟨0x3038, 1, 0x03, 1, 3, .ro, false, .fixed true true true false, 0⟩,
   ⟨0x3038, 1, 0x04, 1, 3, .ro, false, .fixed true false false false, 0⟩]

/-- Rows of the dictionary, part 2. -/
def odRows2 : List OdRow :=
  [⟨0x3040, 1, 0x01, 20, 3, .ro, false, .fixed true false false false, 0⟩,
   ⟨0x3050, 1, 0x01, 1, 4, .ro, false, .sharedB, 0⟩,
   ⟨0x3050, 1, 0x02, 1, 4, .ro, false, .fixed true false true false, 0⟩,
   ⟨0x3050, 1, 0x03, 1, 4, .ro, false, .sharedB, 0⟩,
   ⟨0x3050, 1, 0x04, 1, 4, .ro, false, .fixed true false true false, 0⟩,
   ⟨0x3050, 1, 0x05, 1, 4, .ro, false, .fixed true false false false, 0⟩,
   ⟨0x3050, 1, 0x06, 1, 4, .ro, false, .fixed true false false false, 0⟩,
   ⟨0x3050, 1, 0x07, 1, 4, .ro, false, .fixed true false false false, 0⟩,
   ⟨0x3050, 1, 0x08, 1, 4, .ro, false, .fixed true false false false, 0⟩,
   ⟨0x3050, 1, 0x09, 1, 4, .ro, false, .fixed true false false false, 0⟩,
   ⟨0x3050, 1, 0x0A, 1, 4, .ro, false, .fixed true false false false, 0⟩,
   ⟨0x3050, 1, 0x0B, 1, 4, .ro, false, .fixed true false false false, 0⟩,
   ⟨0x3050, 1, 0x0C, 1, 1, .ro, false, .fixed true false false false, 0⟩,
   ⟨0x3060, 1, 0x01, 1, 8, .ro, false, .fixed true false false false, 0⟩,
   ⟨0x3060, 1, 0x02, 1, 2, .ro, false, .fixed true false false false, 0⟩,
   ⟨0x3060, 1, 0x03, 1, 3, .ro, false, .fixed true false false false, 0⟩,
   ⟨0x3070, 1, 0x01, 20, 8, .ro, false, .fixed true false false false, 0⟩,
   ⟨0x3071, 1, 0x01, 1, 2, .rw, true, .fixed true false false false, 16⟩,
   ⟨0x3071, 1, 0x02, 1, 3, .ro, false, .fixed true false false false, 4294967295⟩,
   ⟨0x3080, 1, 0x01, 1, 4, .ro, false, .fixed true true true false, 0⟩,
   ⟨0x3080, 1, 0x02, 1, 3, .ro, false, .fixed true true true false, 0⟩,
   ⟨0x3080, 1, 0x03, 1, 3, .ro, false, .fixed true false false false, 0⟩,
   ⟨0x3100, 20, 0x01, 64, 3, .ro, false, .fixed true false false false, 0⟩,
   ⟨0x3120, 20, 0x01, 64, 3, .ro, false, .fixed true false false false, 0⟩,
   ⟨0x4001, 1, 0x01, 1, 2, .rw, true, .fixed true false false false, 64⟩,
   ⟨0x4001, 1, 0x02, 1, 2, .rw, true, .fixed true false false false, 64⟩,
   ⟨0x4001, 1, 0x03, 1, 2, .rw, true, .fixed true false false false, 128⟩,
   ⟨0x4002, 1, 0x01, 1, 8, .wo, false, .fixed true true true false, 0⟩,
   ⟨0x4002, 1, 0x02, 1, 3, .wo, false, .fixed true true true false, 0⟩,
   ⟨0x4003, 1, 0x01, 1, 3, .rw, false, .fixed true true true false, 0⟩,
   ⟨0x4003, 1, 0x02, 1, 8, .ro, false, .fixed true true true false, 0⟩,
   ⟨0x4020, 2, 0x01, 1, 2, .ro, false, .part 1, 0⟩,
   ⟨0x4020, 2, 0x02, 1, 4, .ro, false, .part 1, 0⟩,
   ⟨0x4020, 2, 0x03, 1, 4, .ro, false, .part 1, 0⟩,
   ⟨0x4020, 2, 0x04, 1, 4, .ro, false, .part 1, 0⟩,
   ⟨0x4020, 2, 0x05, 1, 4, .ro, false, .part 1, 0⟩,
   ⟨0x4020, 2, 0x06, 1, 4, .ro, false, .part 1, 0⟩,
   ⟨0x4020, 2, 0x07, 1, 4, .ro, false, .part 1, 0⟩,
   ⟨0x4020, 2, 0x08, 1, 4, .ro, false, .part 1, 0⟩,
   ⟨0x4020, 2, 0x09, 1, 4, .ro, false, .part 1, 0⟩]

/-- Rows of the dictionary, part 3. -/
def odRows3 : List OdRow :=
  [⟨0x4020, 2, 0x0A, 1, 4, .ro, false, .part 1, 0⟩,
   ⟨0x4020, 2, 0x0B, 1, 4, .ro, false, .part 1, 0⟩,
   ⟨0x5001, 1, 0x01, 1, 4, .const, false, .fixed true true true false, 0⟩,
   ⟨0x5010, 2, 0x01, 1, 1, .ro, false, .port, 0⟩,
   ⟨0x5010, 2, 0x02, 1, 1, .ro, false, .port, 0⟩,
   ⟨0x5010, 2, 0x03, 1, 1, .rw, true, .fixed true false false false, 0⟩,
   ⟨0x5010, 2, 0x04, 1, 4, .ro, false, .port, 0⟩,
   ⟨0x5010, 2, 0x05, 1, 3, .ro, false, .port, 0⟩,
   ⟨0x5010, 2, 0x06, 1, 4, .ro, false, .port, 0⟩,
   ⟨0x5010, 2, 0x07, 1, 2, .ro, false, .port, 0⟩,
   ⟨0x5010, 2, 0x08, 1, 4, .ro, false, .port, 0⟩,
   ⟨0x5010, 2, 0x09, 1, 4, .ro, false, .port, 0⟩,
   ⟨0x5010, 2, 0x0A, 1, 4, .ro, false, .port, 0⟩,
   ⟨0x5020, 2, 0x01, 1, 1, .rw, true, .fixed true false false false, 0⟩,
   ⟨0x5020, 2, 0x02, 1, 1, .rw, true, .fixed true false false false, 0⟩,
   ⟨0x5020, 2, 0x03, 1, 1, .ro, false, .net, 0⟩,
   ⟨0x5020, 2, 0x04, 1, 1, .ro, false, .net, 0⟩,
   ⟨0x5020, 2, 0x05, 1, 8, .ro, false, .net, 0⟩,
   ⟨0x5020, 2, 0x06, 1, 2, .rw, true, .fixed true false false false, 9000⟩,
   ⟨0x5020, 2, 0x07, 1, 2, .rw, true, .fixed true false false false, 0⟩,
   ⟨0x5020, 2, 0x08, 1, 1, .rw, true, .fixed true false false false, 0⟩,
   ⟨0x5020, 2, 0x09, 1, 8, .rw, true, .fixed true false false false, 0⟩,
   ⟨0x5020, 2, 0x0A, 1, 8, .rw, true, .fixed true false false false, 0⟩,
   ⟨0x5020, 2, 0x0B, 1, 2, .rw, true, .fixed true false false false, 50410⟩,
   ⟨0x5020, 2, 0x0C, 1, 4, .ro, false, .net, 0⟩,
   ⟨0x5020, 2, 0x0D, 1, 4, .ro, false, .net, 0⟩,
   ⟨0x5020, 2, 0x0E, 1, 4, .ro, false, .net, 0⟩,
   ⟨0x5020, 2, 0x0F, 1, 4, .ro, false, .net, 0⟩,
   ⟨0x5020, 2, 0x10, 1, 4, .ro, false, .net, 0⟩,
   ⟨0x5020, 2, 0x11, 1, 4, .ro, false, .net, 0⟩,
   ⟨0x5030, 1, 0x01, 1, 8, .wo, false, .fixed true true true false, 0⟩,
   ⟨0x5030, 1, 0x02, 1, 3, .wo, false, .fixed true true true false, 0⟩,
   ⟨0x5030, 1, 0x03, 1, 3, .rw, false, .fixed true true true false, 0⟩,
   ⟨0x5030, 1, 0x04, 1, 8, .ro, false, .fixed true true true false, 0⟩,
   ⟨0x5030, 1, 0x05, 1, 2, .rw, true, .fixed true false false false, 8⟩,
   ⟨0x5030, 1, 0x06, 1, 2, .rw, true, .fixed true false false false, 8⟩,
   ⟨0x5030, 1, 0x07, 1, 2, .rw, true, .fixed true false false false, 0⟩,
   ⟨0x5030, 1, 0x08, 1, 3, .rw, true, .fixed true false false false, 40000⟩,
   ⟨0x5030, 1, 0x09, 1, 3, .rw, true, .fixed true false false false, 4000⟩,
   ⟨0x5038, 2, 0x01, 1, 4, .ro, false, .part 1, 0⟩]

/-- Rows of the dictionary, part 4. -/
def odRows4 : List OdRow :=
  [⟨0x5038, 2, 0x02, 1, 4, .ro, false, .part 1, 0⟩,
   ⟨0x5038, 2, 0x03, 1, 4, .ro, false, .part 1, 0⟩,
   ⟨0x5038, 2, 0x04, 1, 4, .ro, false, .part 1, 0⟩,
   ⟨0x5038, 2, 0x05, 1, 4, .ro, false, .part 1, 0⟩,
   ⟨0x5038, 2, 0x06, 1, 4, .ro, false, .part 1, 0⟩,
   ⟨0x5038, 2, 0x07, 1, 4, .ro, false, .part 1, 0⟩,
   ⟨0x5038, 2, 0x08, 1, 4, .ro, false, .part 1, 0⟩,
   ⟨0x5038, 2, 0x09, 1, 4, .ro, false, .part 1, 0⟩,
   ⟨0x5038, 2, 0x0A, 1, 4, .ro, false, .part 1, 0⟩,
   ⟨0x5038, 2, 0x0B, 1, 4, .ro, false, .part 1, 0⟩,
   ⟨0x5038, 2, 0x0C, 1, 4, .ro, false, .part 1, 0⟩,
   ⟨0x5038, 2, 0x0D, 1, 4, .ro, false, .part 1, 0⟩,
   ⟨0x5038, 2, 0x0E, 1, 4, .ro, false, .part 1, 0⟩,
   ⟨0x5038, 2, 0x0F, 1, 4, .ro, false, .part 1, 0⟩,
   ⟨0x5038, 2, 0x10, 1, 4, .ro, false, .part 1, 0⟩,
   ⟨0x5038, 2, 0x11, 1, 4, .ro, false, .part 1, 0⟩,
   ⟨0x5040, 1, 0x01, 1, 4, .const, false, .fixed true true true false, 0⟩,
   ⟨0x5040, 1, 0x02, 1, 1, .ro, false, .fixed true true true false, 0⟩,
   ⟨0x5040, 1, 0x03, 1, 1, .ro, false, .fixed true true true false, 0⟩,
   ⟨0x5040, 1, 0x04, 1, 1, .rw, true, .fixed true false false false, 0⟩,
   ⟨0x5040, 1, 0x05, 1, 1, .ro, false, .fixed true true true false, 0⟩,
   ⟨0x5040, 1, 0x06, 1, 1, .rw, true, .fixed true false false false, 8⟩,
   ⟨0x5040, 1, 0x07, 1, 1, .rw, true, .fixed true false false false, 32⟩,
   ⟨0x5040, 1, 0x08, 1, 1, .rw, true, .fixed true false false false, 0⟩,
   ⟨0x5040, 1, 0x09, 1, 1, .rw, true, .fixed true false false false, 128⟩,
   ⟨0x5040, 1, 0x0A, 1, 1, .ro, false, .fixed true false false false, 0⟩,
   ⟨0x5040, 1, 0x0B, 1, 2, .rw, true, .fixed true false false false, 50411⟩,
   ⟨0x5040, 1, 0x0C, 1, 3, .rw, true, .fixed true false false false, 240000000⟩,
   ⟨0x5041, 1, 0x01, 1, 4, .ro, false, .fixed true false false false, 0⟩,
   ⟨0x5041, 1, 0x02, 1, 4, .ro, false, .fixed true false false false, 0⟩,
   ⟨0x5041, 1, 0x03, 1, 4, .ro, false, .fixed true false false false, 0⟩,
   ⟨0x5041, 1, 0x04, 1, 4, .ro, false, .fixed true false false false, 0⟩,
   ⟨0x5041, 1, 0x05, 1, 4, .ro, false, .fixed true false false false, 0⟩,
   ⟨0x5041, 1, 0x06, 1, 4, .ro, false, .fixed true false false false, 0⟩,
   ⟨0x5041, 1, 0x07, 1, 4, .ro, false, .fixed true false false false, 0⟩,
   ⟨0x5041, 1, 0x08, 1, 4, .ro, false, .fixed true false false false, 0⟩,
   ⟨0x5060, 1, 0x01, 1, 8, .wo, false, .fixed true true true false, 0⟩,
   ⟨0x5060, 1, 0x02, 1, 4, .wo, false, .fixed true true true false, 0⟩,
   ⟨0x5060, 1, 0x03, 1, 8, .ro, false, .fixed true true true false, 0⟩,
   ⟨0x5060, 1, 0x04, 1, 1, .rw, true, .fixed true false false false, 6⟩]

/-- Rows of the dictionary, part 5. -/
def odRows5 : List OdRow :=
  [⟨0x5810, 1, 0x01, 1, 2, .wo, false, .fixed true true true false, 0⟩,
   ⟨0x5810, 1, 0x02, 1, 2, .wo, false, .fixed true true true false, 0⟩,
   ⟨0x5820, 2, 0x01, 16, 4, .ro, false, .part 1, 0⟩,
   ⟨0x5830, 2, 0x01, 1, 4, .ro, false, .part 1, 0⟩,
   ⟨0x5840, 8, 0x01, 1, 1, .ro, false, .part 4, 0⟩,
   ⟨0x5840, 8, 0x02, 1, 4, .ro, false, .part 4, 0⟩,
   ⟨0x5840, 8, 0x03, 1, 4, .ro, false, .part 4, 0⟩,
   ⟨0x5840, 8, 0x04, 1, 1, .ro, false, .part 4, 0⟩,
   ⟨0x5840, 8, 0x05, 1, 4, .ro, false, .part 4, 0⟩,
   ⟨0x5840, 8, 0x06, 1, 4, .ro, false, .part 4, 0⟩,
   ⟨0x5840, 8, 0x07, 1, 4, .ro, false, .part 4, 0⟩,
   ⟨0x5840, 8, 0x08, 1, 4, .ro, false, .part 4, 0⟩,
   ⟨0x5840, 8, 0x09, 1, 4, .ro, false, .part 4, 0⟩,
   ⟨0x5840, 8, 0x0A, 1, 4, .ro, false, .part 4, 0⟩,
   ⟨0x5840, 8, 0x0B, 1, 4, .ro, false, .part 4, 0⟩,
   ⟨0x5840, 8, 0x0C, 1, 4, .ro, false, .part 4, 0⟩,
   ⟨0x5880, 2, 0x01, 1, 4, .ro, false, .part 1, 0⟩,
   ⟨0x5880, 2, 0x02, 1, 4, .ro, false, .part 1, 0⟩,
   ⟨0x5880, 2, 0x03, 1, 4, .ro, false, .part 1, 0⟩,
   ⟨0x5880, 2, 0x04, 1, 4, .ro, false, .part 1, 0⟩,
   ⟨0x5880, 2, 0x05, 1, 4, .ro, false, .part 1, 0⟩,
   ⟨0x5880, 2, 0x06, 1, 4, .ro, false, .part 1, 0⟩,
   ⟨0x5880, 2, 0x07, 1, 4, .ro, false, .part 1, 0⟩,
   ⟨0x5880, 2, 0x08, 1, 4, .ro, false, .part 1, 0⟩,
   ⟨0x5880, 2, 0x09, 1, 4, .ro, false, .part 1, 0⟩,
   ⟨0x58A0, 2, 0x01, 1, 4, .ro, false, .part 1, 0⟩,
   ⟨0x58A0, 2, 0x02, 1, 4, .ro, false, .part 1, 0⟩,
   ⟨0x58A0, 2, 0x03, 1, 4, .ro, false, .part 1, 0⟩,
   ⟨0x58A0, 2, 0x04, 1, 4, .ro, false, .part 1, 0⟩,
   ⟨0x58A0, 2, 0x05, 1, 4, .ro, false, .part 1, 0⟩,
   ⟨0x58A0, 2, 0x06, 1, 4, .ro, false, .part 1, 0⟩,
   ⟨0x58C0, 2, 0x01, 1, 4, .ro, false, .part 1, 0⟩,
   ⟨0x58C0, 2, 0x02, 1, 4, .ro, false, .part 1, 0⟩,
   ⟨0x58C0, 2, 0x03, 1, 4, .ro, false, .part 1, 0⟩,
   ⟨0x58C0, 2, 0x04, 1, 4, .ro, false, .part 1, 0⟩,
   ⟨0x58C0, 2, 0x05, 1, 4, .ro, false, .part 1, 0⟩,
   ⟨0x58C0, 2, 0x06, 1, 4, .ro, false, .part 1, 0⟩,
   ⟨0x58C0, 2, 0x07, 1, 4, .ro, false, .part 1, 0⟩,
   ⟨0x58C0, 2, 0x08, 1, 4, .ro, false, .part 1, 0⟩,
   ⟨0x58E0, 2, 0x01, 1, 4, .ro, false, .part 1, 0⟩]

/-- Rows of the dictionary, part 6. -/
def odRows6 : List OdRow :=
  [⟨0x58E0, 2, 0x02, 1, 4, .ro, false, .part 1, 0⟩,
   ⟨0x58E0, 2, 0x03, 1, 4, .ro, false, .part 1, 0⟩,
   ⟨0x58E0, 2, 0x04, 1, 4, .ro, false, .part 1, 0⟩,
   ⟨0x58E0, 2, 0x05, 1, 4, .ro, false, .part 1, 0⟩,
   ⟨0x58E0, 2, 0x06, 1, 4, .ro, false, .part 1, 0⟩,
   ⟨0x58E0, 2, 0x07, 1, 4, .ro, false, .part 1, 0⟩,
   ⟨0x58E0, 2, 0x08, 1, 4, .ro, false, .part 1, 0⟩,
   ⟨0x58E0, 2, 0x09, 1, 4, .ro, false, .part 1, 0⟩,
   ⟨0x6001, 1, 0x01, 1, 4, .rw, false, .fixed true true true false, 0⟩,
   ⟨0x6001, 1, 0x02, 1, 8, .ro, false, .fixed true true true false, 0⟩,
   ⟨0x6020, 2, 0x01, 1, 4, .ro, false, .part 1, 0⟩,
   ⟨0x6020, 2, 0x02, 1, 4, .ro, false, .part 1, 0⟩,
   ⟨0x6020, 2, 0x03, 1, 4, .ro, false, .part 1, 0⟩,
   ⟨0x6020, 2, 0x04, 1, 4, .ro, false, .part 1, 0⟩,
   ⟨0x6020, 2, 0x05, 1, 4, .ro, false, .part 1, 0⟩,
   ⟨0x6020, 2, 0x06, 1, 4, .ro, false, .part 1, 0⟩,
   ⟨0x6020, 2, 0x07, 1, 4, .ro, false, .part 1, 0⟩,
   ⟨0x6020, 2, 0x08, 1, 4, .ro, false, .part 1, 0⟩,
   ⟨0x6020, 2, 0x09, 1, 4, .ro, false, .part 1, 0⟩,
   ⟨0x6040, 2, 0x01, 1, 4, .ro, false, .part 1, 0⟩,
   ⟨0x6040, 2, 0x02, 1, 4, .ro, false, .part 1, 0⟩,
   ⟨0x6040, 2, 0x03, 1, 4, .ro, false, .part 1, 0⟩,
   ⟨0x6040, 2, 0x04, 1, 4, .ro, false, .part 1, 0⟩,
   ⟨0x6040, 2, 0x05, 1, 4, .ro, false, .part 1, 0⟩,
   ⟨0x6040, 2, 0x06, 1, 4, .ro, false, .part 1, 0⟩,
   ⟨0x6040, 2, 0x07, 1, 4, .ro, false, .part 1, 0⟩,
   ⟨0x6040, 2, 0x08, 1, 4, .ro, false, .part 1, 0⟩,
   ⟨0x6040, 2, 0x09, 1, 4, .ro, false, .part 1, 0⟩,
   ⟨0x7001, 1, 0x01, 1, 1, .ro, false, .fixed true true true false, 0⟩,
   ⟨0x7001, 1, 0x02, 1, 8, .ro, false, .fixed true false false false, 0⟩,
   ⟨0x7001, 1, 0x03, 1, 8, .wo, false, .fixed true false false false, 0⟩,
   ⟨0x7002, 1, 0x01, 1, 8, .ro, false, .fixed true true true false, 0⟩,
   ⟨0x7002, 1, 0x02, 1, 1, .ro, false, .fixed true true true false, 0⟩,
   ⟨0x7002, 1, 0x03, 1, 1, .wo, false, .fixed true false false false, 0⟩,
   ⟨0x7010, 1, 0x01, 1, 8, .ro, false, .fixed true true true false, 0⟩,
   ⟨0x7020, 1, 0x01, 1, 8, .wo, false, .fixed true false false false, 0⟩,
   ⟨0x7020, 1, 0x02, 1, 8, .ro, false, .fixed true false false false, 0⟩,
   ⟨0x7040, 1, 0x01, 1, 1, .rw, true, .fixed true false false false, 0⟩,
   ⟨0x7040, 1, 0x02, 4, 8, .rw, true, .fixed true false false false, 0⟩,
   ⟨0x7040, 1, 0x06, 1, 2, .ro, false, .fixed true true true false, 0⟩]

/-- Rows of the dictionary, part 7. -/
def odRows7 : List OdRow :=
  [⟨0x7050, 1, 0x01, 4, 8, .wo, true, .fixed true false false false, 0⟩,
   ⟨0x7050, 1, 0x05, 1, 8, .wo, true, .fixed true true false false, 0⟩,
   ⟨0x7050, 1, 0x06, 1, 8, .wo, true, .fixed true false true false, 0⟩,
   ⟨0x7050, 1, 0x07, 1, 2, .ro, false, .fixed true true true false, 0⟩,
   ⟨0x7060, 1, 0x01, 1, 8, .wo, false, .fixed true false false false, 0⟩,
   ⟨0x7060, 1, 0x02, 1, 1, .ro, false, .fixed true false false false, 0⟩,
   ⟨0x7070, 1, 0x01, 1, 8, .ro, false, .fixed true false false false, 0⟩,
   ⟨0x7070, 1, 0x02, 1, 3, .ro, false, .fixed true false false false, 0⟩,
   ⟨0x8000, 1, 0x01, 1, 3, .ro, false, .fixed true true true true, 0⟩,
   ⟨0x8000, 1, 0x02, 1, 2, .const, false, .fixed true false false true, 0⟩,
   ⟨0x8000, 1, 0x03, 1, 8, .const, false, .fixed true false false true, 0⟩,
   ⟨0x8001, 1, 0x01, 1, 3, .ro, false, .fixed true false false true, 0⟩,
   ⟨0x8001, 1, 0x02, 1, 1, .rw, false, .fixed false false false true, 15⟩,
   ⟨0x8001, 1, 0x03, 1, 8, .rw, false, .fixed false false false true, 0⟩,
   ⟨0x8001, 1, 0x04, 1, 3, .ro, false, .fixed true false false true, 0⟩,
   ⟨0x8002, 1, 0x01, 1, 4, .ro, false, .fixed true false false true, 0⟩,
   ⟨0x8002, 1, 0x02, 1, 3, .ro, false, .fixed true false false true, 0⟩,
   ⟨0x8002, 1, 0x03, 1, 3, .ro, false, .fixed true false false true, 0⟩,
   ⟨0x8002, 1, 0x04, 1, 4, .ro, false, .fixed true false false true, 0⟩,
   ⟨0x8010, 1, 0x01, 1, 3, .ro, false, .fixed true false false true, 4294967295⟩,
   ⟨0x8020, 1, 0x01, 1, 8, .ro, false, .fixed true false false true, 0⟩,
   ⟨0x8100, 256, 0x01, 1, 8, .ro, false, .fixed true false false true, 0⟩,
   ⟨0x8200, 512, 0x01, 128, 8, .ro, false, .fixed false false false true, 0⟩,
   ⟨0x9001, 1, 0x01, 1, 3, .ro, false, .fixed true true true false, 0⟩,
   ⟨0x9001, 1, 0x02, 1, 1, .wo, false, .fixed true false false false, 0⟩,
   ⟨0x9001, 1, 0x03, 1, 3, .ro, false, .fixed true false false false, 0⟩,
   ⟨0x9001, 1, 0x04, 1, 3, .ro, false, .fixed true false false false, 0⟩,
   ⟨0x9001, 1, 0x05, 1, 3, .ro, false, .fixed true false false false, 0⟩,
   ⟨0x9002, 1, 0x01, 1, 1, .rw, true, .fixed true false false false, 2⟩,
   ⟨0x9002, 1, 0x02, 1, 1, .rw, true, .fixed true false false false, 4⟩,
   ⟨0x9003, 1, 0x01, 1, 1, .rw, false, .fixed true false false false, 0⟩,
   ⟨0x9003, 1, 0x02, 1, 3, .rw, true, .fixed true false false false, 0⟩,
   ⟨0x9003, 1, 0x03, 1, 1, .rw, true, .fixed true false false false, 14⟩,
   ⟨0x9004, 1, 0x01, 1, 4, .rw, true, .fixed true false false false, 34359738367⟩,
   ⟨0x9004, 1, 0x02, 1, 4, .rw, true, .fixed true false false false, 25769803776⟩,
   ⟨0x9004, 1, 0x03, 1, 1, .rw, true, .fixed true false false false, 1⟩,
   ⟨0x9010, 1, 0x01, 1, 3, .ro, false, .fixed true true true false, 1025⟩,
   ⟨0x9010, 1, 0x02, 1, 4, .ro, false, .fixed true true true false, 0⟩,
   ⟨0x9010, 1, 0x03, 1, 1, .wo, false, .fixed true false false false, 0⟩,
   ⟨0x9011, 1, 0x01, 1, 3, .wo, false, .fixed true true true false, 0⟩]

/-- Rows of the dictionary, part 8. -/
def odRows8 : List OdRow :=
  [⟨0x9011, 1, 0x02, 1, 2, .rw, true, .fixed true false false false, 64⟩,
   ⟨0x9011, 1, 0x03, 1, 4, .ro, false, .fixed true false false false, 0⟩,
   ⟨0x9020, 1, 0x01, 1, 1, .ro, false, .fixed true true true false, 0⟩,
   ⟨0x9020, 1, 0x02, 1, 2, .ro, false, .fixed true false false false, 0⟩,
   ⟨0x9100, 1, 0x01, 1, 2, .rw, true, .fixed true false false false, 1500⟩,
   ⟨0x9100, 1, 0x02, 1, 2, .ro, false, .fixed true true true false, 600⟩,
   ⟨0x9100, 1, 0x03, 1, 1, .rw, true, .fixed true false false false, 2⟩,
   ⟨0x9100, 1, 0x04, 1, 1, .ro, false, .fixed true true true false, 16⟩,
   ⟨0x9100, 1, 0x05, 1, 1, .ro, false, .fixed true true true false, 0⟩,
   ⟨0x9101, 1, 0x01, 1, 3, .ro, false, .fixed true true true false, 0⟩,
   ⟨0x9101, 1, 0x02, 1, 3, .ro, false, .fixed true true true false, 0⟩,
   ⟨0x9101, 1, 0x03, 1, 2, .ro, false, .fixed true true true false, 0⟩,
   ⟨0x9101, 1, 0x04, 1, 4, .ro, false, .fixed true false false false, 0⟩,
   ⟨0x9101, 1, 0x05, 1, 4, .ro, false, .fixed true false false false, 0⟩,
   ⟨0x9110, 1, 0x01, 20, 3, .ro, false, .fixed true true true false, 0⟩,
   ⟨0x9110, 1, 0x15, 1, 1, .ro, false, .fixed true true true false, 0⟩,
   ⟨0x9120, 1, 0x01, 1, 3, .ro, false, .fixed true false false false, 0⟩,
   ⟨0x9130, 1, 0x01, 1, 1, .ro, false, .fixed true true true false, 0⟩,
   ⟨0x9130, 1, 0x02, 1, 8, .ro, false, .fixed true false false false, 0⟩,
   ⟨0x9130, 1, 0x03, 1, 2, .ro, false, .fixed true true true false, 1500⟩,
   ⟨0xA001, 1, 0x01, 1, 1, .rw, true, .fixed true false false false, 0⟩,
   ⟨0xA010, 1, 0x01, 1, 1, .wo, false, .fixed true false false false, 0⟩,
   ⟨0xA010, 1, 0x02, 1, 8, .wo, false, .fixed true false false false, 0⟩,
   ⟨0xA010, 1, 0x03, 1, 1, .ro, false, .fixed true true true false, 0⟩]

/-- Every object of the dictionary, in ascending index and subindex (R396). -/
def odRows : List OdRow :=
  odRows0 ++ odRows1 ++ odRows2 ++ odRows3 ++ odRows4 ++ odRows5 ++ odRows6 ++ odRows7 ++ odRows8

end Sys2Proof.Machine
end

