-- ==== Sys2Proof/Machine/Ops.lean ====
section
/-!
DEFINITION. The named operations over the state: objects, ports, partitions, the division, vault memory with its
error correction, the landing buffer, the error log, claims and output.
-/
namespace Sys2Proof.Machine

/-! ### Objects of the dictionary -/

/-- The row of an object (R388): none where no such object exists. -/
def odFind (idx sub : Nat) : Option OdRow :=
  odRows.find? fun r => r.idx ≤ idx && idx < r.idx + r.nIdx && r.sub ≤ sub && sub < r.sub + r.nSub

/-- The default of an object by key (Default column). -/
def odDefault (k : Nat) : Nat := ((odFind (k / 256) (k % 256)).map (·.dflt)).getD 0

/-- Bytes of a value of a type code (Table 16.1); 0 for STR and DOMAIN. -/
def tyBytes : Nat → Nat
  | 1 => 1 | 2 => 2 | 3 => 4 | 4 => 8 | 5 => 4 | 6 => 4 | _ => 0

/-- The largest value of an object's type. -/
def odMax (k : Nat) : Nat := 2 ^ (8 * ((odFind (k / 256) (k % 256)).map (tyBytes ·.ty)).getD 0) - 1

/-- The value of an object by key. -/
def State.get (s : State) (k : Nat) : Nat :=
  match look s.od k with
  | some v => v
  | none => odDefault k

/-- The state with an object's value set. -/
def State.put (s : State) (k v : Nat) : State := { s with od := setAt s.od k v }

/-- The state with a counter object raised by `n`, saturating at its type's maximum. -/
def State.bump (s : State) (k : Nat) (n : Nat := 1) : State := s.put k (satAdd (odMax k) (s.get k) n)

/-- The key of object `k` in the copy of partition, port or instance `i` (indices 0x…+i). -/
def at_ (k i : Nat) : Nat := k + 256 * i

/-- Default of a STR or DOMAIN object: the zeros its table gives (Tables 6.2, 9.5, 15.5), else empty. -/
def domDefault (k : Nat) : Bytes :=
  if k = Ob.IPV4 || k = at_ Ob.IPV4 1 then List.replicate 16 0
  else if k = Ob.IPV6 || k = at_ Ob.IPV6 1 then List.replicate 64 0
  else if k = Ob.MODULE_INFO || k = at_ Ob.MODULE_INFO 1 then List.replicate 384 0
  else if Ob.IMAGE_KEY_HASH0 ≤ k && k < Ob.IMAGE_KEY_HASH0 + 4 then List.replicate 32 0
  else if Ob.MGMT_KEY0 ≤ k && k ≤ Ob.MBOX_KEY_B then List.replicate 32 0
  else []

/-- The value of a STR or DOMAIN object held as bytes. -/
def State.dget (s : State) (k : Nat) : Bytes := lookD s.dom k (domDefault k)

/-- The state with a STR or DOMAIN object's bytes set. -/
def State.dput (s : State) (k : Nat) (b : Bytes) : State := { s with dom := setAt s.dom k b }

/-! ### Time, free values, output -/

/-- The tick counter (R33). -/
def State.now (s : State) : Nat := s.ticks.count

/-- Ticks from a stamp to the present: both count modulo 2^48 (R33, R46). -/
def State.since (s : State) (t : Nat) : Nat := (s.now + 2 ^ 48 - t) % 2 ^ 48

/-- The interval timer begins a period for a new holder, or stops (R161, R399). -/
def State.setTimer (s : State) (period : Nat) : State :=
  { s with ticks := { s.ticks with
      timerNext := if period = 0 then none else some ((s.now + period) % 2 ^ 48), timerDue := false } }

/-- A value the manual leaves open, and the state with the next one up. -/
def State.free (s : State) : Nat × State := (Config.free s.fresh, { s with fresh := s.fresh + 1 })

/-- Note an event that bears on R49, keeping the last nine ticks. -/
def State.noteBreak (s : State) (kind unit : Nat) : State :=
  { s with ticks := { s.ticks with
      breaks := (kind, unit, s.now) :: s.ticks.breaks.filter fun b => s.now ≤ b.2.2 + 9 } }

/-- A LAT look-up arrives (R48, R49). -/
def State.latArrive (s : State) : State :=
  { s with ticks := { s.ticks with latArrivals := s.ticks.latArrivals + 1 } }

/-- The PLL domains run: released, not in DEEP_SLEEP, and neither the hold sequence nor a lost PLL gates them (Table 19.4,
R460, R461). -/
def State.clocked (s : State) : Bool := s.boot.released && !s.clk.asleep && !s.clk.hold && !s.clk.pllLost

/-- DUTY: the lowest of the four requested (R480). -/
def State.duty (s : State) : Nat := min (min s.pwr.capDuty s.pwr.fastDuty) (min s.pwr.brakeDuty s.pwr.thermalDuty)

/-- The tick period in use, in cycles (R31), and MAINT_CYCLES (R38). -/
def State.period (s : State) : Nat := s.get Ob.TICK_PERIOD_ACTIVE
def State.maintCycles (s : State) : Nat := s.period * 6 / 100

/-- Cycles of a tick that MAINT work may use: the ceiling of Table 2.2, scaled by the duty (R38, R480). -/
def State.maintBudget (s : State) : Nat := s.duty * s.maintCycles / 16

/-- Work of a class has cycles: LAT always, BULK and MAINT where the duty leaves them some (R41, R480).  The BULK share of a unit is
more than 16 cycles at every tick period, so only a duty of 0 leaves it none. -/
def State.classRuns (s : State) (c : FlowClass) : Bool :=
  match c with
  | .lat => true
  | .bulk => s.duty != 0
  | .maint => s.maintBudget != 0

/-- The MAC of a network port is clocked (R457, R463); its unit code is 8 × 2,048 + n. -/
def State.macRuns (s : State) (n : Nat) : Bool := s.clocked && s.clk.xoOk && !s.clk.gated.contains (8 * 2048 + n)

/-- The state with something sent out of the module. -/
def State.emit (s : State) (o : Output) : State := { s with out := o :: s.out }

/-- A cause of Table 15.6 occurs: it is remembered where a session subscribes to it. -/
def State.occur (s : State) (cause part detail : Nat) : State :=
  if s.mgmt.sessions.any fun v => match v.sub with | some u => bitOf u.mask cause | none => false then
    { s with mgmt := { s.mgmt with
        occurred := s.mgmt.occurred ++ [{ cause := cause, part := part, detail := detail, tick := s.now }] } }
  else s

/-- Add to a work count of a partition (R441). -/
def State.addWork (s : State) (p slot n : Nat) : State :=
  { s with work := putD s.work (p * 8 + slot) 0 (lookD s.work (p * 8 + slot) 0 + n) }

/-- The first MAC address of the network ports, fused as a multiple of 8 (R140). -/
def firstMac : Nat := Config.macBase % 2 ^ 45 * 8

/-! ### Ports and partitions by number -/

/-- Host port 0 (PA) or 1 (PB). -/
def State.port (s : State) (p : Nat) : HostPort := if p = 0 then s.ports[0] else s.ports[1]

/-- The state with a host port changed. -/
def State.setPort (s : State) (p : Nat) (x : HostPort) : State :=
  { s with ports := if p = 0 then #v[x, s.ports[1]] else #v[s.ports[0], x] }

/-- Partition 0 or 1. -/
def State.part (s : State) (p : Nat) : Part := if p = 0 then s.parts[0] else s.parts[1]

/-- The state with a partition changed. -/
def State.setPart (s : State) (p : Nat) (x : Part) : State :=
  { s with parts := if p = 0 then #v[x, s.parts[1]] else #v[s.parts[0], x] }

/-- Network port 0 or 1. -/
def State.net (s : State) (n : Nat) : NetPort := if n = 0 then s.nets[0] else s.nets[1]

/-- The state with a network port changed. -/
def State.setNet (s : State) (n : Nat) (x : NetPort) : State :=
  { s with nets := if n = 0 then #v[x, s.nets[1]] else #v[s.nets[0], x] }

/-- A vault by number stand × 64 + vault. -/
def State.vault (s : State) (v : Nat) : Vault := lookD s.vaults v Vault.reset

/-- The state with a vault changed. -/
def State.setVault (s : State) (v : Nat) (x : Vault) : State := { s with vaults := setAt s.vaults v x }

/-- A stand by number. -/
def State.stand (s : State) (n : Nat) : Stand := lookD s.stands n Stand.reset

/-- The state with a stand changed. -/
def State.setStand (s : State) (n : Nat) (x : Stand) : State := { s with stands := setAt s.stands n x }

/-! ### The active division (R22, R24, Table 1.5) -/

/-- First stand of a partition (R22). -/
def Division.firstStand (d : Division) (p : Nat) : Nat := if p = 0 then 0 else d.split

/-- Number of stands of a partition (R22). -/
def Division.stands (d : Division) (p : Nat) : Nat := if p = 0 then d.split else 20 - d.split

/-- The partition that holds a stand (R22). -/
def Division.standPart (d : Division) (n : Nat) : Nat := if n < d.split then 0 else 1

/-- Share of a resource of `total` units of which P0 holds the lowest `k`: first unit and count. -/
def shareOf (total k p : Nat) : Nat × Nat := if p = 0 then (0, k) else (k, total - k)

/-- Units of a kind that a partition holds: first and count (Table 1.5).  Cores are counted by stand; the copy
engine is shared by time; the merge units belong to the stands. -/
def Division.units (d : Division) (k : UnitKind) (p : Nat) : Nat × Nat :=
  match k with
  | .core => (60 * d.firstStand p, 60 * d.stands p)
  | .me => shareOf 8 d.me p
  | .rd => shareOf 32 d.rd p
  | .pe => shareOf 16 d.pe p
  | .chipD => shareOf 8 d.chipD p
  | .chipC => shareOf 4 d.chipC p
  | .copyEngine => (0, if d.stands p = 0 then 0 else 1)
  | .merge => (d.firstStand p, d.stands p)

/-- Flow IDs of a partition: first and count (R77). -/
def Division.flowRange (d : Division) (p : Nat) : Nat × Nat := shareOf 262144 (4096 * d.flows) p

/-- LAT flow IDs of a partition, the lowest of its range: first and count (R77). -/
def Division.latRange (d : Division) (p : Nat) : Nat × Nat :=
  ((d.flowRange p).1, 256 * (if p = 0 then d.lat else 16 - d.lat))

/-- Landing-buffer regions of a partition: first and count. -/
def Division.regionRange (d : Division) (p : Nat) : Nat × Nat := shareOf 2048 d.lbuf p

/-- Stream IDs of a partition: first and count (R153). -/
def Division.streamRange (d : Division) (p : Nat) : Nat × Nat := shareOf 4096 (64 * d.flows) p

/-- Partition that owns a network port. -/
def Division.netPart (d : Division) (n : Nat) : Nat := if n = 0 then d.net0 else d.net1

/-- Item-pool regions of a partition (R106). -/
def Division.pool (d : Division) (p : Nat) : Nat :=
  if d.stands p = 0 then 0 else if p = 0 then d.pool0 else d.pool1

/-- A number lies in a range given as first and count. -/
def inRange (r : Nat × Nat) (x : Nat) : Bool := r.1 ≤ x && x < r.1 + r.2

/-- The partition a host port serves (R29). -/
def State.served (s : State) (port : Nat) : Nat := if s.div.shared then 0 else port

/-- The host ports that serve a partition. -/
def State.portsOf (s : State) (p : Nat) : List Nat := [0, 1].filter fun q => s.served q == p

/-! ### MSI-X and port events (R124, R125) -/

/-- Vector control word of an MSI-X table entry: masked until software clears the bit. -/
def HostPort.vectorMasked (x : HostPort) (v : Nat) : Bool := bitOf (lookD x.msixTable (4 * v + 3) 1) 0

/-- A message may leave now: MSI-X on, neither mask set, Bus Master Enable set (R124, R131). -/
def HostPort.canSend (x : HostPort) (v : Nat) : Bool :=
  x.msixEnable && !x.msixMask && !x.vectorMasked v && x.bme && x.linkUp

/-- Raise a vector: a message leaves, or the vector's pending bit records it (R124). -/
def State.msix (s : State) (p v : Nat) : State :=
  let x := s.port p
  if x.canSend v then s.emit (.msix p v)
  else if x.msixPending.contains v then s else s.setPort p { x with msixPending := v :: x.msixPending }

/-- Set a bit of EVENT_CAUSE; a change from 0 to 1 with its mask bit set sends a message on EVENT_VECTOR (R125). -/
def State.portEvent (s : State) (p bit : Nat) : State :=
  let x := s.port p
  if bitOf x.eventCause bit then s
  else
    let s := s.setPort p { x with eventCause := setBit x.eventCause bit true }
    if bitOf x.eventMask bit then s.msix p x.eventVector else s

/-- Set a bit of EVENT_CAUSE on every port that serves a partition (R125). -/
def State.partEvent (s : State) (p bit : Nat) : State := (s.portsOf p).foldl (fun t q => t.portEvent q bit) s

/-- Event causes of Table 5.8. -/
def evUe : Nat := 0
def evMboxDone : Nat := 1
def evMaint : Nat := 2
def evPartReset : Nat := 3
def evRingError : Nat := 4
def evDmaFault : Nat := 5
def evThrottle : Nat := 6
def evBatchLow : Nat := 7

/-! ### Core numbering and placement (R10–R15) -/

/-- The enabled positions of a stand in rising order: four of the 64 are fused off, one after another, so that 60 are left
(R10). -/
def enabledPos (n : Nat) : List Nat :=
  (List.range 4).foldl (fun l i => l.eraseIdx (Config.fusedOff (4 * n + i) % l.length)) (List.range 64)

/-- CORE_FUSE_MAP of a stand (R13): a bit for every enabled position. -/
def fuseMask (n : Nat) : Nat := ((enabledPos n).map (2 ^ ·)).sum

/-- Physical position of a logical core, which is also its home vault (R11, R12). -/
def homeVault (core : Nat) : Nat := (enabledPos (core / 60)).getD (core % 60) 0

/-- The coreless vaults of a stand in rising order: those at its disabled positions (R12). -/
def corelessPos (n : Nat) : List Nat := (List.range 64).filter fun v => !(enabledPos n).contains v

/-- Device address of an offset in the home vault of a core (R12, Table 0.5). -/
def homeDa (core off : Nat) : Nat := 2 ^ 37 * (core / 60) + 2 ^ 31 * homeVault core + off

/-- 64-bit wrap. -/
def w64 (x : Nat) : Nat := x % 2 ^ 64

/-- The Ramyth H64 hash (R210). -/
def h64 (v s : Nat) : Nat :=
  let x := (w64 v) ^^^ (w64 (0x8B2F4E61D7A395C5 * s))
  let x := w64 (0xE47C19B36A05D2F1 * (x ^^^ (x >>> 32)))
  let x := w64 (0x5D93A7E20B4CF66B * (x ^^^ (x >>> 29)))
  x ^^^ (x >>> 32)

/-- The H64 hash of a byte string (R211). -/
def h64Bytes (p : Bytes) (s : Nat) : Nat :=
  (chunksOf 8 p.length p).foldl (fun acc w => h64 (leNat w) acc) (h64 p.length s)

/-- The ID of R212. -/
def hashId (off h m : Nat) : Nat := w64 (off + h * m / 2 ^ 64)

/-- Home core of partition key word `k` under seed `s` (R14): global core number. -/
def Division.place (d : Division) (p k s : Nat) : Nat :=
  let h := h64 k s
  let stand := d.firstStand p + (h / 2 ^ 32) * d.stands p / 2 ^ 32
  stand * 60 + h % 2 ^ 32 * 60 / 2 ^ 32

/-! ### Device and spread addresses (R7, R19, R20) -/

/-- Spread pages per vault window. -/
def Division.pagesPerVault (d : Division) : Nat := 0x4000000 * d.window / 0x1000

/-- Bytes of a partition's spread space. -/
def Division.spreadBytes (d : Division) (p : Nat) : Nat := 0x4000000 * (64 * d.stands p * d.window)

/-- The device address of spread byte `sa` (R19). -/
def Division.spread (d : Division) (p sa : Nat) : Nat :=
  let v := 64 * d.stands p
  let g := sa / 0x1000 / v
  let i := sa / 0x1000 % v
  let rot := h64 g (if p = 0 then d.seed0 else d.seed1) % v
  let o := (i + rot) % v
  let stand := d.firstStand p + o / 64
  2 ^ 37 * stand + 2 ^ 31 * (o % 64) + (2 ^ 31 - 0x4000000 * d.window) + 0x1000 * g + sa % 0x1000

/-- Stand and vault numbers of a device address (Table 0.5). -/
def daStand (da : Nat) : Nat := da / 2 ^ 37 % 32
def daVault (da : Nat) : Nat := da / 2 ^ 31 % 64

/-- Number of the vault a word lies in. -/
def vaultOf (da : Nat) : Nat := daStand da * 64 + daVault da

/-! ### Claims of landing-buffer regions, pins and the timer (R399, R400) -/

/-- Holder code of a region: 0 free, 1 item pool, 2 stream, 3 epoch, 4 COMPRESS staging. -/
def State.holder (s : State) (r : Nat) : Nat := (lookD s.regions r (0, 0)).1

/-- Claim regions for a holder: none changes where any is held by another claimant (R399). -/
def State.claim (s : State) (rs : List Nat) (code who : Nat) : Option State :=
  if rs.all fun r => lookD s.regions r (0, 0) == (0, 0) || lookD s.regions r (0, 0) == (code, who) then
    some { s with regions := rs.foldl (fun t r => setAt t r (code, who)) s.regions }
  else none

/-- Release every region a holder claims. -/
def State.release (s : State) (code who : Nat) : State :=
  { s with regions := s.regions.filter fun e => e.2 != (code, who) }

/-- `n` consecutive numbers from `a`. -/
def span (a n : Nat) : List Nat := (List.range n).map (a + ·)

/-! ### The stored word: BCH code of R56, decoding of R57 -/

/-- x^j mod g(x), g = 0x4377: the check bits of code position j. -/
def bchRem : Nat → Nat
  | 0 => 1
  | j + 1 =>
    let r := 2 * bchRem j
    if r ≥ 2 ^ 14 then r ^^^ 0x4377 else r

/-- The code position of a stored bit 0–77: check bits 64–77 are positions 0–13, data bits positions 14–77. -/
def codePos (bit : Nat) : Nat := if bit < 64 then bit + 14 else bit - 64

/-- The check bits r[13:0] of a data word (R56). -/
def bchCheck (d : Nat) : Nat :=
  (List.range 64).foldl (fun r i => if bitOf d i then r ^^^ bchRem (14 + i) else r) 0

/-- The overall parity P of a data word and its check bits (R56). -/
def bchParity (d : Nat) : Bool :=
  ((List.range 64).foldl (fun n i => n + b2n (bitOf d i)) 0 +
    (List.range 14).foldl (fun n i => n + b2n (bitOf (bchCheck d) i)) 0) % 2 == 1

/-- The stored 80-bit word of a data word with no repair entry (Table 3.4). -/
def storedWord (d : Nat) : Nat := d + 2 ^ 64 * bchCheck d + 2 ^ 78 * b2n (bchParity d)

/-- The syndrome of an error pattern over stored bits 0–77: recomputed CHECK XOR stored CHECK. -/
def bchSyndrome (e : Nat) : Nat :=
  (List.range 78).foldl (fun r b => if bitOf e b then r ^^^ bchRem (codePos b) else r) 0

/-- The stored bit whose single error gives a syndrome. -/
def locate1 (synd : Nat) : Option Nat := (List.range 78).find? fun b => bchRem (codePos b) == synd

/-- The two stored bits whose double error gives a syndrome. -/
def locate2 (synd : Nat) : Option (Nat × Nat) :=
  (List.range 78).findSome? fun b =>
    match locate1 (synd ^^^ bchRem (codePos b)) with
    | some c => if b < c then some (b, c) else none
    | none => none

/-- What a read of a stored word finds (Table 3.5): clean; corrected with the log kind, the correction of stored
bits and POS1, POS2; or uncorrectable.  SYND and the parity mismatch go with it for the log. -/
inductive Decoded where
  | clean
  | corrected (kind fix pos1 pos2 : Nat)
  | bad
deriving DecidableEq, Repr

/-- Classify an effective error pattern of 79 bits (R57). -/
def classify (e : Nat) : Decoded :=
  let synd := bchSyndrome e
  let par := (List.range 79).foldl (fun n i => n + b2n (bitOf e i)) 0 % 2 == 1
  if synd = 0 then
    if par then .corrected 1 0 78 0x7F else .clean
  else match locate1 synd with
    | some b => if par then .corrected 1 (2 ^ b) b 0x7F else .corrected 2 (2 ^ b) b 78
    | none =>
      match locate2 synd with
      | some (b, c) => if par then .bad else .corrected 2 (2 ^ b + 2 ^ c) b c
      | none => .bad

/-- Number of the slice of a word: stand, vault and slice (REPAIR_ACTIVE's encoding, Table 3.12). -/
def sliceNo (da : Nat) : Nat := 1024 * daStand da + 16 * daVault da + da / 2 ^ 14 % 16

/-- Access number of an address within its slice, in ascending offset order (R53, R63). -/
def sliceAccess (da : Nat) : Nat := da % 2 ^ 31 / 2 ^ 18 * 256 + da / 64 % 256

/-- The repair entry of a slice (R62): a soft entry, or the one fused at manufacture; none where it is empty. -/
def State.repairEntry (s : State) (slice : Nat) : Option RepairEntry :=
  match look s.repairs slice with
  | some r => some r
  | none => (Config.fuseRepair slice).map fun q => { pos := q.val, soft := false }

/-- The active repair position of the access at an address (R62, R63): the slice's entry, or the position of a
running pass where the access lies below its cursor. -/
def State.repairAt (s : State) (da : Nat) : Option Nat :=
  match s.repairEntry (sliceNo da) with
  | some r => some r.pos
  | none =>
    match s.repairPass with
    | some r => if r.unit = sliceNo da && sliceAccess da < r.cursor then some r.pos else none
    | none => none

/-- The error pattern a read meets in the 79 code bits: with an active entry, SPARE stands in for bit q (R62). -/
def State.errorAt (s : State) (wa : Nat) : Nat :=
  let e := (lookD s.flips wa 0).toNat
  if e = 0 then 0
  else match s.repairAt (wa * 8) with
    | some q => setBit (e % 2 ^ 79) q (bitOf e 79)
    | none => e % 2 ^ 79

/-! ### The error log (R76) -/

/-- The newest-first list with one event entered: coalesced into one of the 16 newest entries of the same KIND
and ADDR, else a new entry; the ring keeps 1,024. -/
def logInto (l : List ErrEntry) (e : ErrEntry) : List ErrEntry :=
  match (l.take 16).findIdx? fun x => x.kind == e.kind && x.addr == e.addr with
  | some i => l.modify i fun x => { x with rep := satAdd 0xFFFFFFFF x.rep 1 }
  | none => (e :: l).take 1024

/-- The event makes an entry of its own: none of the 16 newest has its KIND and ADDR (R76). -/
def State.logsNew (s : State) (e : ErrEntry) : Bool :=
  !((s.errLog.take 16).any fun x => x.kind == e.kind && x.addr == e.addr)

/-- The state with an error event logged (R76). -/
def State.logError (s : State) (e : ErrEntry) : State :=
  let s' := { s with errLog := logInto s.errLog e }
  if s.logsNew e then
    let s' := s'.put Ob.ERR_LOG_HEAD ((s.get Ob.ERR_LOG_HEAD + 1) % 1024)
    if s.errLog.length = 1024 then s'.bump Ob.ERR_LOG_OVERWRITTEN else s'
  else s'

/-- The 32 bytes of an error log entry (Table 3.14). -/
def ErrEntry.bytes (e : ErrEntry) : Bytes :=
  leBytes 32 (e.tick + e.kind * 2 ^ 48 + e.source * 2 ^ 56 + e.addr * 2 ^ 64 + e.pos1 * 2 ^ 112 + e.pos2 * 2 ^ 119 +
    e.synd * 2 ^ 128 + b2n e.pmis * 2 ^ 142 + e.unit * 2 ^ 144 + e.part * 2 ^ 152 + e.rep * 2 ^ 160)

/-- Make an entry in the boot log (R433): the sector after the head's is erased as the head enters a sector.  While a
firmware write runs, the entry waits (R420). -/
def State.bootLog (s : State) (kind status : Nat) (detail : Bytes) : State :=
  let e : BootEntry := { seq := s.nv.logNext, kind := kind, status := status, bootCount := s.nv.bootCount,
                         tick := s.now, detail := fitB 36 detail }
  if s.boot.writing.isSome then { s with boot := { s.boot with logWaiting := s.boot.logWaiting ++ [e] } }
  else
    let i := s.nv.logNext % 65536
    let kept := if i % 1024 = 0 then
      s.nv.log.filter fun x => x.seq % 65536 / 1024 ≠ (i / 1024 + 1) % 64 && x.seq % 65536 / 1024 ≠ i / 1024
    else s.nv.log
    { s with nv := { s.nv with log := e :: kept, logNext := s.nv.logNext + 1 } }

/-- Sources of a vault access in the log (Table 3.14). -/
def srcLat : Nat := 0
def srcBulk : Nat := 1
def srcScrub : Nat := 2
def srcPartial : Nat := 3
def srcRepair : Nat := 4

/-- Key of VAULT_CE or VAULT_UE of a vault. -/
def vaultKey (base v : Nat) : Nat := at_ base (v / 64) + v % 64

/-! ### Vault memory -/

/-- One byte of vault memory as last written. -/
def State.byte (s : State) (da : Nat) : Byte := lookD s.mem da 0

/-- The state with one byte of vault memory written. -/
def State.setByte (s : State) (da : Nat) (b : Byte) : State := { s with mem := putD s.mem da 0 b }

/-- Bytes as last written, ignoring stored-bit errors. -/
def State.peek (s : State) (da n : Nat) : Bytes := (span da n).map s.byte

/-- Bytes written without their error bookkeeping. -/
def State.poke (s : State) (da : Nat) : Bytes → State
  | [] => s
  | b :: bs => (s.setByte da b).poke (da + 1) bs

/-- A found correction queues a write-back (R60): it replaces the value of a queued entry of the same word, or
takes a place while fewer than 16 are queued, and is otherwise dropped and counted. -/
def State.queueWriteBack (s : State) (wa : Nat) (v : BitVec 64) : State :=
  let vt := s.vault (vaultOf (wa * 8))
  if vt.writeBacks.any (·.1 == wa) then
    s.setVault (vaultOf (wa * 8))
      { vt with writeBacks := vt.writeBacks.map fun e => if e.1 == wa then (wa, v) else e }
  else if vt.writeBacks.length < 16 then
    s.setVault (vaultOf (wa * 8)) { vt with writeBacks := vt.writeBacks ++ [(wa, v)] }
  else s.bump Ob.WRITEBACK_DROPPED

/-- A foreground write to a word cancels its queued write-back (R60). -/
def State.cancelWriteBack (s : State) (wa : Nat) : State :=
  let vt := s.vault (vaultOf (wa * 8))
  if vt.writeBacks.any (·.1 == wa) then
    (s.setVault (vaultOf (wa * 8)) { vt with writeBacks := vt.writeBacks.filter (·.1 != wa) }).bump
      Ob.WRITEBACK_CANCELLED
  else s

/-- The data of a word as a read delivers it after a correction: what was written, with the stored-bit errors of
the data bits and the correction applied. -/
def deliver (d e fix : Nat) : Nat := (d ^^^ e % 2 ^ 64) ^^^ (fix % 2 ^ 64)

/-- The log's partition of a vault word. -/
def State.partOfDa (s : State) (da : Nat) : Nat := s.div.standPart (daStand da)

/-- A corrected word is logged and counted (R57, R75). -/
def State.noteCe (s : State) (wa source kind pos1 pos2 : Nat) (e : Nat) : State :=
  let da := wa * 8
  let p := s.partOfDa da
  let s := s.logError { rep := 0, part := p, unit := 0,
                        pmis := (List.range 79).foldl (fun n i => n + b2n (bitOf e i)) 0 % 2 == 1,
                        synd := bchSyndrome e, pos2 := pos2, pos1 := pos1, addr := da, source := source,
                        kind := kind, tick := s.now }
  let s := (s.bump (if p = 0 then Ob.CE_P0 else Ob.CE_P1)).bump (vaultKey Ob.VAULT_CE (vaultOf da))
  if source = srcScrub then s.bump Ob.SCRUB_CE else s

/-- An uncorrectable word is logged and counted, and the partition's UE event is raised (R58); a new entry is copied into
the boot log (R76). -/
def State.noteUe (s : State) (wa source : Nat) (e : Nat) : State :=
  let da := wa * 8
  let p := s.partOfDa da
  let x : ErrEntry := { rep := 0, part := p, unit := 0,
                        pmis := (List.range 79).foldl (fun n i => n + b2n (bitOf e i)) 0 % 2 == 1,
                        synd := bchSyndrome e, pos2 := 0x7F, pos1 := 0x7F, addr := da, source := source,
                        kind := 3, tick := s.now }
  let s := if s.logsNew x then (s.logError x).bootLog 0x06 0 (x.bytes ++ leBytes 4 0) else s.logError x
  let s := (s.bump (if p = 0 then Ob.UE_P0 else Ob.UE_P1)).bump (vaultKey Ob.VAULT_UE (vaultOf da))
  let s := if source = srcScrub then s.bump Ob.SCRUB_UE else s
  (s.partEvent p evUe).occur p p 0

/-- Scrub's evidence for soft repair (R62): corrected words per slice and stored bit position, each word once a
pass. -/
def State.countRepair (s : State) (wa : Nat) (ps : List Nat) : State :=
  let vt := s.vault (vaultOf (wa * 8))
  let new := (ps.filter (· < 79)).map fun p => (wa * 8 / 2 ^ 14 % 16, p, wa)
  s.setVault (vaultOf (wa * 8)) { vt with seen := vt.seen ++ new.filter fun m => !vt.seen.contains m }

/-- One read of one word with stored-bit errors: its outcome's bookkeeping, and whether it is uncorrectable.
A corrected word queues a write-back unless the read belongs to a partial write (R60). -/
def State.readWord (s : State) (wa source : Nat) : Bool × State :=
  let e := s.errorAt wa
  match classify e with
  | .clean => (true, s)
  | .corrected kind fix pos1 pos2 =>
    let s := s.noteCe wa source kind pos1 pos2 e
    let s := if source = srcScrub then s.countRepair wa [pos1, pos2] else s
    if source = srcPartial || source = srcRepair then (true, s)
    else (true, s.queueWriteBack wa
      (BitVec.ofNat 64 (deliver (leNat (s.peek (wa * 8) 8)) e fix)))
  | .bad => (false, s.noteUe wa source e)

/-- The words with stored-bit errors among those of the 64 B accesses a byte range touches. -/
def State.flipped (s : State) (da n : Nat) : List Nat :=
  (s.flips.filter fun e => da / 64 ≤ e.1 / 8 && n ≠ 0 && e.1 / 8 ≤ (da + n - 1) / 64).map (·.1)

/-- Read of a range of vault memory: every 64 B access it touches is read; the bytes, or none where a word is
uncorrectable (R54, R57, R58). -/
def State.vaultRead (s : State) (source da n : Nat) : Option Bytes × State :=
  let r := (s.flipped da n).foldl (fun (acc : Bool × State) wa =>
    let x := acc.2.readWord wa source
    (acc.1 && x.1, x.2)) (true, s)
  if r.1 then
    (some ((span da n).map fun a =>
      let e := s.errorAt (a / 8)
      match classify e with
      | .corrected _ fix _ _ => BitVec.ofNat 8 (deliver (leNat (s.peek (a / 8 * 8) 8)) e fix / 2 ^ (8 * (a % 8)))
      | _ => BitVec.ofNat 8 ((leNat (s.peek (a / 8 * 8) 8) ^^^ e % 2 ^ 64) / 2 ^ (8 * (a % 8)))), r.2)
  else (none, r.2)

/-- The words of a range that a write covers only in part. -/
def partialWords (da n : Nat) : List Nat :=
  if n = 0 then [] else
    let a := if da % 8 = 0 && 8 ≤ n then [] else [da / 8]
    let b := if (da + n) % 8 = 0 || (da + n - 1) / 8 = da / 8 then [] else [(da + n - 1) / 8]
    a ++ b

/-- Write within one 64 B access (R54, R59, R60): a partly covered word is read first, and an uncorrectable one
leaves the whole access unwritten; a written word is a fresh codeword, and its queued write-back is cancelled. -/
def State.writeAccess (s : State) (da : Nat) (bs : Bytes) : Bool × State :=
  let ws := (partialWords da bs.length).filter fun w => (lookD s.flips w 0).toNat != 0
  let r := ws.foldl (fun (acc : Bool × State) wa =>
    let x := acc.2.readWord wa srcPartial
    (acc.1 && x.1, x.2)) (true, s)
  if r.1 then
    let s' := ws.foldl (fun (t : State) wa =>
      match classify (s.errorAt wa) with
      | .corrected _ fix _ _ => t.poke (wa * 8) (leBytes 8 (deliver (leNat (s.peek (wa * 8) 8)) (s.errorAt wa) fix))
      | _ => t.poke (wa * 8) (leBytes 8 (leNat (s.peek (wa * 8) 8) ^^^ s.errorAt wa % 2 ^ 64))) r.2
    let s' := s'.poke da bs
    let words := span (da / 8) ((da + bs.length - 1) / 8 + 1 - da / 8)
    let s' := { s' with flips := s'.flips.filter fun e => !(words.contains e.1) }
    (true, words.foldl (fun t w => t.cancelWriteBack w) s')
  else (false, r.2)

/-- Split a range at 64 B boundaries: address and bytes of each access. -/
def accesses : Nat → Nat → Bytes → List (Nat × Bytes)
  | 0, _, _ => []
  | fuel + 1, da, bs =>
    if bs.isEmpty then [] else
      let k := 64 - da % 64
      (da, bs.take k) :: accesses fuel (da + k) (bs.drop k)

/-- Write of a range of vault memory, access by access; true where every access was written (R54, R59). -/
def State.vaultWrite (s : State) (da : Nat) (bs : Bytes) : Bool × State :=
  (accesses (bs.length + 1) da bs).foldl (fun (acc : Bool × State) x =>
    let r := acc.2.writeAccess x.1 x.2
    (acc.1 && r.1, r.2)) (true, s)

/-! ### The SRAM arrays (R61) -/

/-- UNIT codes of the SRAM arrays (Table 3.14). -/
def unitLbuf : Nat := 0
def unitScratch : Nat := 1
def unitOperand : Nat := 2
def unitContext : Nat := 3

/-- Index of a word of the automaton memory of a pattern engine, of the automaton at an image slot and index (R336); a mark on it is
a parity error. -/
def peWord (eng auto word : Nat) : Nat := 2 ^ 56 * (16 + eng) + 2 ^ 24 * auto + word

/-- A word of an array with an error is logged and counted: corrected (KIND 5) or uncorrectable (KIND 6). -/
def State.noteSram (s : State) (unit part addr : Nat) (double : Bool) : State :=
  (s.bump (if double then Ob.SRAM_UE else Ob.SRAM_CE)).logError
    { rep := 0, part := part, unit := unit, pmis := false, synd := 0, pos2 := 0x7F, pos1 := 0x7F, addr := addr,
      source := 0, kind := if double then 6 else 5, tick := s.now }

/-- Read of `n` bytes of an array from address `a` on (R61): single-bit errors are corrected in place; false where a word
holds a double-bit error. -/
def State.sramRead (s : State) (unit part a n : Nat) : Bool × State :=
  (s.sram.filter fun e => n ≠ 0 && 2 ^ 56 * unit + a / 8 ≤ e.1 && e.1 ≤ 2 ^ 56 * unit + (a + n - 1) / 8).foldl
    (fun (acc : Bool × State) e =>
      let t := acc.2.noteSram unit part (e.1 % 2 ^ 56 * 8) e.2
      if e.2 then (false, t) else (acc.1, { t with sram := dropAt t.sram e.1 })) (true, s)

/-- Words of an array written whole are fresh codewords. -/
def State.sramWrite (s : State) (unit a n : Nat) : State :=
  { s with sram := s.sram.filter fun e =>
      !(2 ^ 56 * unit + divUp a 8 ≤ e.1 && e.1 + 1 ≤ 2 ^ 56 * unit + (a + n) / 8) }

/-- Partition of a landing-buffer address, which is region × 65,536 + offset. -/
def State.lbufPart (s : State) (a : Nat) : Nat := if inRange (s.div.regionRange 0) (a / 65536) then 0 else 1

/-- Read of landing-buffer bytes, by region × 65,536 + offset: none where a word holds a double-bit error. -/
def State.lbufRead (s : State) (a n : Nat) : Option Bytes × State :=
  let r := s.sramRead unitLbuf (s.lbufPart a) a n
  (if r.1 then some ((span a n).map fun i => lookD s.lbuf i 0) else none, r.2)

/-- Write of landing-buffer bytes; a word written whole is a fresh codeword. -/
def State.lbufWrite (s : State) (a : Nat) (bs : Bytes) : State :=
  ((bs.zipIdx).foldl (fun (t : State) x => { t with lbuf := putD t.lbuf (a + x.2) 0 x.1 }) s).sramWrite unitLbuf a bs.length

/-! ### Status codes (Table 0.3) -/

/-- The 8-bit code of a status (R2). -/
def Status.code : Status → Nat
  | .ok => 0x00 | .partialOk => 0x01 | .badDescriptor => 0x10 | .noResource => 0x11 | .overlap => 0x12
  | .resourceHeld => 0x13 | .notPermitted => 0x14 | .uncorrectable => 0x20 | .isolated => 0x21
  | .linkRetryExhausted => 0x22 | .deadline => 0x30 | .late => 0x31 | .corruptRecord => 0x32
  | .expansionLimit => 0x40 | .notSmaller => 0x41 | .authFail => 0x50 | .locked => 0x51
  | .signatureBad => 0x52 | .aborted => 0x60

/-- OK or PARTIAL. -/
def Status.good : Status → Bool
  | .ok => true | .partialOk => true | _ => false

/-- The first check of a list that fails, or OK. -/
def firstFail : List (Bool × Status) → Status
  | [] => .ok
  | (b, st) :: r => if b then st else firstFail r

end Sys2Proof.Machine
end

