-- ==== Sys2Proof/Machine/Flags.lean ====
section
/-!
DEFINITION. Completions, fences, DMA faults and the messages they raise: what a host sees of a command's end
(R120–R131).
-/
namespace Sys2Proof.Machine

/-! ### Commands in flight -/

/-- The outstanding command of a number. -/
def State.cmd? (s : State) (id : Nat) : Option Cmd := s.cmds.find? (·.id == id)

/-- The state with an outstanding command changed. -/
def State.setCmd (s : State) (c : Cmd) : State :=
  { s with cmds := s.cmds.map fun x => if x.id = c.id then c else x }

/-- OUTSTANDING of a port: commands fetched and not yet completed (Table 5.3). -/
def State.outstanding (s : State) (p : Nat) : Nat := (s.cmds.filter (·.port == p)).length

/-- A field of a command entry: bits [hi:lo]. -/
def Cmd.f (c : Cmd) (hi lo : Nat) : Nat := bitsOf c.entry.toNat hi lo

/-! ### Host memory (R128–R131) -/

/-- The lowest-numbered enabled window that contains a range and satisfies `ok` (R128). -/
def HostPort.windowOf (x : HostPort) (base len : Nat) (ok : Window → Bool) : Option (Nat × Window) :=
  x.windows.find? fun w => w.2.length ≠ 0 && w.2.base ≤ base && base + len ≤ w.2.base + w.2.length && ok w.2

/-- The admission check of a host range (R128): with WINDOW_ENFORCE it must lie in one enabled window that allows
its direction. -/
def HostPort.rangeOk (x : HostPort) (write : Bool) (base len : Nat) : Bool :=
  !x.enforce || (x.windowOf base len fun w => if write then w.write else w.read).isSome

/-- The output ranges among those a command names that lie in windows with PEER set, as they stand at its admission: base, bytes
and window (R128, R129).  With WINDOW_ENFORCE 1 and several windows that allow a range, the lowest-numbered of them gives its
attributes (DEDUCED, log 163). -/
def HostPort.peersOf (x : HostPort) (ranges : List (Bool × Nat × Nat)) : List (Nat × Nat × Nat) :=
  ranges.filterMap fun r =>
    if !r.1 then none
    else match x.windowOf r.2.1 r.2.2 fun w => !x.enforce || w.write with
      | some (i, w) => if w.peer then some (r.2.1, r.2.2, i) else none
      | none => none

/-- The window of an admitted range whose writes are flushed, for a write of `n` bytes (R129). -/
def peerOf (peers : List (Nat × Nat × Nat)) (addr n : Nat) : Option Nat :=
  (peers.find? fun r => r.1 ≤ addr && addr + n ≤ r.1 + r.2.1).map (·.2.2)

/-- Record a refused or failed DMA and raise DMA_FAULT (R128, R130). -/
def State.dmaFault (s : State) (p addr : Nat) (st : Status) (ring tag : Nat) : State :=
  let s := s.setPort p { s.port p with faultAddr := addr % 2 ^ 64,
                                       faultInfo := st.code + 256 * ring + 65536 * tag }
  (s.bump (at_ Ob.DMA_FAULTS p)).portEvent p evDmaFault

/-- The requests of a write, with fuel: split at Max_Payload_Size and at 4 KiB boundaries (R130). -/
def hostPieces (mps : Nat) : Nat → Nat → Bytes → List (Nat × Bytes)
  | 0, _, _ => []
  | fuel + 1, addr, bs =>
    if bs.isEmpty then [] else
      let k := min mps (4096 - addr % 4096)
      (addr, bs.take k) :: hostPieces mps fuel (addr + k) (bs.drop k)

/-- A port writes bytes to host memory. -/
def State.hostOut (s : State) (p addr : Nat) (bs : Bytes) : State :=
  (hostPieces (s.port p).mps (bs.length + 1) addr bs).foldl (fun t x => t.emit (.hostWrite p x.1 x.2)) s

/-- Write output bytes to host memory on behalf of a command (R129): its PEER windows remember the last address. -/
def State.dmaWrite (s : State) (id p addr : Nat) (bs : Bytes) : State :=
  if bs.isEmpty then s else
    let s := s.hostOut p addr bs
    match s.cmd? id with
    | some c => (match peerOf c.peers addr bs.length with
      | some w => s.setCmd { c with flush := setAt c.flush w (addr + bs.length - 4) }
      | none => s)
    | none => s

/-! ### Completion entries (R121, R122) -/

/-- The 16 bytes of a completion entry (Table 5.10). -/
def Cpl.bytes (c : Cpl) (phase : Bool) : Bytes :=
  leBytes 2 c.tag ++ leBytes 1 c.status.code ++ leBytes 1 c.opcode ++ leBytes 1 c.sq ++ leBytes 1 0 ++
    leBytes 6 c.tick ++ leBytes 4 (c.result % 2 ^ 31 + 2 ^ 31 * b2n phase)

/-- A completion ring of a port. -/
def HostPort.cplRing (x : HostPort) (r : Nat) : CplRing := lookD x.cplRings r CplRing.reset

/-- A command ring of a port. -/
def HostPort.cmdRing (x : HostPort) (r : Nat) : CmdRing := lookD x.cmdRings r CmdRing.reset

/-- The state with a completion ring changed. -/
def State.setCpl (s : State) (p r : Nat) (x : CplRing) : State :=
  s.setPort p { s.port p with cplRings := setAt (s.port p).cplRings r x }

/-- The state with a command ring changed. -/
def State.setRing (s : State) (p r : Nat) (x : CmdRing) : State :=
  s.setPort p { s.port p with cmdRings := setAt (s.port p).cmdRings r x }

/-- No entry may be written: the ring is full, or its head doorbell went wrong (R122). -/
def CplRing.blocked (r : CplRing) : Bool := r.error || (r.tail + 1) % 2 ^ r.sizeLog2 == r.head

/-- A message restarts the ring's moderation (R124). -/
def State.ringMessage (s : State) (p r : Nat) : State :=
  let x := (s.port p).cplRing r
  (s.setCpl p r { x with since := 0, oldest := none }).msix p x.vector

/-- Write one completion at TAIL with the current PHASE, after its flush reads, and raise the ring's vector where
SIGNAL or MOD_COUNT calls for it (R122, R124, R129). -/
def State.writeEntry (s : State) (p r : Nat) (c : Cpl) : State :=
  let x := (s.port p).cplRing r
  let s := c.flush.foldl (fun t a => t.emit (.flushRead p a)) s
  let s := s.hostOut p (x.base + 16 * x.tail) (c.bytes x.phase)
  let tail := (x.tail + 1) % 2 ^ x.sizeLog2
  let x := { x with tail := tail, phase := if tail = 0 then !x.phase else x.phase, since := x.since + 1,
                    oldest := some (x.oldest.getD s.now),
                    written := x.written + 1 }
  let s := s.setCpl p r x
  if c.signal || (x.modCount ≠ 0 && x.modCount ≤ x.since) then s.ringMessage p r else s

/-- What becomes of a completion that is ready: written, held, waiting for Bus Master Enable, or lost (R120, R122,
R131).  True where its command is done with. -/
def State.deliverCpl (s : State) (p r : Nat) (c : Cpl) : Bool × State :=
  let x := (s.port p).cplRing r
  if !x.enable then (true, s.bump (at_ Ob.LOST_COMPLETIONS p))
  else if !(s.port p).bme then
    (false, s.setPort p { s.port p with waiting := (s.port p).waiting ++ [(r, c)] })
  else if x.blocked || !x.held.isEmpty then
    (false, (s.setCpl p r { x with held := x.held ++ [c] }).bump (at_ Ob.HELD_COMPLETIONS p))
  else (true, s.writeEntry p r c)

/-- A command that is done with leaves OUTSTANDING and gives up its staging regions (R357), and every FENCE waiting for
it waits for one command less; the answer names the FENCEs that now wait for none (R127). -/
def State.retire (s : State) (id : Nat) : List Nat × State :=
  let cmds := (s.cmds.filter (·.id != id)).map fun c => { c with waits := c.waits.filter (· != id) }
  let ready := (s.cmds.filter fun c => c.waits.contains id).map (·.id)
  let ready := ready.filter fun i => cmds.any fun c => c.id == i && c.waits.isEmpty && c.stage == .waiting
  (ready, { s with cmds := cmds, regions := s.regions.filter fun e => e.2 != (4, id) })

/-- A fence that has completed frees its own ring (R127). -/
def State.unfence (s : State) (id : Nat) : State :=
  match s.cmd? id with
  | none => s
  | some c =>
    let x := (s.port c.port).cmdRing c.ring
    if x.fence = some id then s.setRing c.port c.ring { x with fence := none } else s

/-- The completion of a command with a status and RESULT. -/
def Cmd.cpl (c : Cmd) (now : Nat) (st : Status) (result : Nat) : Cpl :=
  { id := c.id, tag := c.tag, status := st, opcode := c.opcode, sq := c.ring, tick := now, result := result,
    signal := c.signal, flush := c.flush.map (·.2) }

/-- Retire commands and complete the FENCEs this frees, with fuel (R127). -/
def State.settle : Nat → State → List Nat → State
  | 0, s, _ => s
  | _ + 1, s, [] => s
  | fuel + 1, s, id :: rest =>
    let r := (s.unfence id).retire id
    -- each freed FENCE's completion is delivered; those written are retired in turn
    let t := r.1.foldl (fun (acc : List Nat × State) i =>
      match acc.2.cmd? i with
      | none => acc
      | some c =>
        let d := acc.2.deliverCpl c.port c.cq (c.cpl acc.2.now .ok c.waited)
        if d.1 then (acc.1 ++ [i], d.2) else (acc.1, d.2.setCmd { c with stage := .held })) ([], r.2)
    State.settle fuel t.2 (rest ++ t.1)

/-- Complete a command (R120–R122). -/
def State.finish (s : State) (id : Nat) (st : Status) (result : Nat) : State :=
  match s.cmd? id with
  | none => s
  | some c =>
    let d := s.deliverCpl c.port c.cq (c.cpl s.now st result)
    if d.1 then State.settle (s.cmds.length + 1) d.2 [id] else d.2.setCmd { c with stage := .held }

/-- Write the completions held for a ring while it has room, with fuel (R122). -/
def State.drain : Nat → State → Nat → Nat → State
  | 0, s, _, _ => s
  | fuel + 1, s, p, r =>
    let x := (s.port p).cplRing r
    match x.held with
    | [] => s
    | c :: rest =>
      if x.blocked || !(s.port p).bme then s
      else
        let s := (s.setCpl p r { x with held := rest }).writeEntry p r c
        State.drain fuel (State.settle (s.cmds.length + 1) s [c.id]) p r

/-- Discard the completions held for a ring: each counts as lost and leaves OUTSTANDING (R120). -/
def State.loseHeld (s : State) (p r : Nat) : State :=
  let x := (s.port p).cplRing r
  x.held.foldl (fun t c => State.settle (t.cmds.length + 1) (t.bump (at_ Ob.LOST_COMPLETIONS p)) [c.id])
    (s.setCpl p r { x with held := [] })

/-- A doorbell or a ring enable went wrong (R113, R114, R122): RING_ERROR. -/
def State.ringError (s : State) (p : Nat) : State := s.portEvent p evRingError

/-- A write that the port discards whole (R112). -/
def State.barDiscard (s : State) (p : Nat) : State :=
  s.setPort p { s.port p with barDiscards := satAdd 0xFFFFFFFF (s.port p).barDiscards 1 }

/-- Complete every command of a list with one status, oldest first. -/
def State.finishAll (s : State) (ids : List Nat) (st : Status) : State := ids.foldl (fun t i => t.finish i st 0) s

/-- Discard commands without completions: each counts as completed for every FENCE that waits for it (R127, R133). -/
def State.discardAll (s : State) (ids : List Nat) : State :=
  let s := { s with cmds := s.cmds.filter fun c => !(ids.contains c.id && c.opcode == 2) }
  ids.foldl (fun t i => State.settle (t.cmds.length + 1) t [i]) s

end Sys2Proof.Machine
end

