-- ==== Sys2Proof/Machine/Operands.lean ====
section
/-!
DEFINITION. Operand forms: device operand addresses (R7, R20, R117) and the ranges a command names, which R118
checks before the command's own checks.
-/
namespace Sys2Proof.Machine

/-! ### Device operand addresses (Table 5.7) -/

/-- A device operand address by the space it names. -/
inductive DevAddr where
  | da (a : Nat)
  | sa (a : Nat)
  | lbuf (a : Nat)
deriving DecidableEq, Repr

/-- Read the form of a device operand address; none where a RSVD field is set or LBUF and SPACE are both 1. -/
def devAddr (v : Nat) : Option DevAddr :=
  if bitsOf v 61 48 ≠ 0 then none
  else if bitOf v 63 then
    if bitOf v 62 || bitsOf v 47 27 ≠ 0 then none else some (.lbuf (bitsOf v 26 0))
  else if bitOf v 62 then some (.sa (bitsOf v 47 0))
  else if bitsOf v 47 42 ≠ 0 || 20 ≤ bitsOf v 41 37 then none
  else some (.da (bitsOf v 41 0))

/-- The form of an address and of the range of `n` bytes from it (R7, R20, R117). -/
def State.devForm (s : State) (p v n : Nat) : Bool :=
  match devAddr v with
  | none => false
  | some (.da a) => n = 0 || daStand (a + n - 1) < 20 && a + n ≤ 20 * 2 ^ 37
  | some (.sa a) => a + max n 1 ≤ s.div.spreadBytes p
  | some (.lbuf a) => a + max n 1 ≤ 2048 * 65536

/-- The range lies in the partition (R7, R23, R118). -/
def State.devPart (s : State) (p v n : Nat) : Bool :=
  match devAddr v with
  | none => false
  | some (.da a) => inRange (s.div.firstStand p, s.div.stands p) (daStand a) &&
      inRange (s.div.firstStand p, s.div.stands p) (daStand (a + (n - 1)))
  | some (.sa _) => true
  | some (.lbuf a) => inRange (s.div.regionRange p) (a / 65536) &&
      inRange (s.div.regionRange p) ((a + (n - 1)) / 65536)

/-- Both checks of a range, form before partition (R7, R118 step 5). -/
def State.devCheck (s : State) (p v n : Nat) : Status :=
  firstFail [(!s.devForm p v n, .badDescriptor), (!s.devPart p v n, .notPermitted)]

/-- The pieces of a spread range that lie in one page each: device address and length. -/
def Division.spreadPieces (d : Division) (p : Nat) : Nat → Nat → Nat → List (Nat × Nat)
  | 0, _, _ => []
  | fuel + 1, sa, n =>
    if n = 0 then [] else
      let k := min n (0x1000 - sa % 0x1000)
      (d.spread p sa, k) :: Division.spreadPieces d p fuel (sa + k) (n - k)

/-- Pieces of a device range in vault memory; none for the landing buffer. -/
def State.devPieces (s : State) (p v n : Nat) : List (Nat × Nat) :=
  match devAddr v with
  | some (.da a) => [(a, n)]
  | some (.sa a) => s.div.spreadPieces p (n / 0x1000 + 2) a n
  | _ => []

/-- Read of device memory by a command of partition `p`: the bytes, or none where a word is uncorrectable. -/
def State.devRead (s : State) (source p v n : Nat) : Option Bytes × State :=
  match devAddr v with
  | some (.lbuf a) => s.lbufRead a n
  | _ =>
    (s.devPieces p v n).foldl (fun (acc : Option Bytes × State) x =>
      let r := acc.2.vaultRead source x.1 x.2
      (match acc.1, r.1 with
        | some a, some b => some (a ++ b)
        | _, _ => none, r.2)) (some [], s)

/-- Write of device memory by a command of partition `p`; true where every access was written. -/
def State.devWrite (s : State) (p v : Nat) (bs : Bytes) : Bool × State :=
  match devAddr v with
  | some (.lbuf a) => (true, s.lbufWrite a bs)
  | _ =>
    let r := (s.devPieces p v bs.length).foldl (fun (acc : (Bool × Bytes) × State) x =>
      let w := acc.2.vaultWrite x.1 (acc.1.2.take x.2)
      ((acc.1.1 && w.1, acc.1.2.drop x.2), w.2)) ((true, bs), s)
    (r.1.1, r.2)

/-! ### Opcodes (Table 0.4) -/

/-- The opcodes of Table 0.4. -/
def opcodes : List Nat :=
  [0x01, 0x02, 0x10, 0x11, 0x12, 0x20, 0x21, 0x22, 0x23, 0x24, 0x28, 0x29, 0x2A, 0x30, 0x34, 0x35, 0x38, 0x39,
   0x3C, 0x40, 0x50, 0x51, 0x60]

/-- Flow commands (R117): they run as items of the flow they name. -/
def flowOpcodes : List Nat := [0x21, 0x28, 0x29, 0x30, 0x34, 0x35, 0x38, 0x39, 0x3C, 0x40]

/-- Opcodes admitted while the partition holds no stand (R28). -/
def standlessOpcodes : List Nat := [0x01, 0x02, 0x50, 0x51, 0x60]

/-- The input ranges of an ARGMAX (Table 13.4, R333): rows of scores, or partial arrays and their column offsets. -/
def argmaxIn (c : Cmd) : List (Nat × Nat) :=
  let rows := c.f 95 64
  let row := c.f 115 96 * (if c.f 117 117 = 1 then 2 else 4)
  if c.f 116 116 = 1 then [(c.f 191 128, 8 * rows * c.f 295 288), (c.f 383 320, 4 * c.f 295 288)]
  else [(c.f 191 128, (rows - 1) * (divUp row 64 * 64) + row)]

/-- The device ranges of a command that R118 step 5 checks: address and bytes. -/
def Cmd.devRanges (c : Cmd) : List (Nat × Nat) :=
  match c.opcode with
  | 0x28 => if c.f 100 100 = 1 then [(c.f 191 128, c.f 223 192)] else []
  | 0x30 => [(c.f 127 64, 128 * c.f 136 128)]
  | 0x34 => (if c.f 104 104 = 1 then [(c.f 191 128, c.f 223 192)] else []) ++
      (if c.f 105 105 = 1 then [(c.f 319 256, c.f 351 320)] else [])
  | 0x35 => (if c.f 98 98 = 1 then [(c.f 191 128, c.f 223 192)] else []) ++
      (if c.f 99 99 = 1 then [(c.f 319 256, c.f 351 320)] else [])
  | 0x38 => (c.f 191 128, c.f 95 64 * (if c.f 96 96 = 1 then 8 else if c.f 97 97 = 1 then 2 else 4)) ::
      (if c.f 101 101 = 1 then [(c.f 255 192, c.f 287 256)] else [])
  | 0x39 => argmaxIn c ++ (if c.f 118 118 = 1 then [(c.f 255 192, c.f 287 256)] else [])
  | 0x3C => (c.f 191 128, 16 * c.f 287 256) :: (if c.f 97 97 = 1 then [(c.f 255 192, c.f 319 288)] else [])
  | 0x40 => [(c.f 127 64, 128 * c.f 136 128)]
  | _ => []

/-- The host ranges of a command that R118 step 6 checks: for write, base, bytes.  Lengths that depend on a table
are checked by the command itself (R297, R315). -/
def Cmd.hostRanges (c : Cmd) : List (Bool × Nat × Nat) :=
  match c.opcode with
  | 0x10 => [(false, c.f 127 64, c.f 159 128)]
  | 0x11 => if c.f 83 80 = 2 then [(true, c.f 319 256, 2 ^ c.f 427 424 * (c.f 399 384 * 4096))] else []
  | 0x30 => (if c.f 137 137 = 1 then [(false, c.f 255 192, c.f 319 256)] else []) ++
      (if c.f 138 138 = 1 then [(true, c.f 255 192, c.f 319 256)] else [])
  | 0x34 => (if c.f 104 104 = 0 then [(false, c.f 191 128, c.f 223 192)] else []) ++
      (if c.f 105 105 = 0 then [(true, c.f 319 256, c.f 351 320)] else [])
  | 0x35 => (if c.f 98 98 = 0 then [(false, c.f 191 128, c.f 223 192)] else []) ++
      (if c.f 99 99 = 0 then [(true, c.f 319 256, c.f 351 320)] else [])
  | 0x38 => if c.f 101 101 = 0 then [(true, c.f 255 192, c.f 287 256)] else []
  | 0x39 => if c.f 118 118 = 0 then [(true, c.f 255 192, c.f 287 256)] else []
  | 0x3C => if c.f 97 97 = 0 then [(true, c.f 255 192, c.f 319 288)] else []
  | 0x28 =>
    (if c.f 100 100 = 0 then [(true, c.f 191 128, c.f 223 192)] else []) ++
    (if c.f 99 99 = 1 then
      [(false, c.f 383 320, 8 * c.f 287 256)] ++
      (if 1 < c.f 239 224 then [(false, c.f 447 384, 4 * (c.f 239 224 + 1))] else []) ++
      (if c.f 98 96 = 4 then [(false, c.f 511 448, 4 * c.f 287 256)] else [])
    else [])
  | 0x50 => [(true, c.f 255 192, c.f 287 256)]
  | 0x60 => [(true, c.f 383 320, c.f 415 384)]
  | 0x51 => if c.f 88 88 = 1 then [] else [(false, c.f 191 128, c.f 127 96)]
  | _ => []

end Sys2Proof.Machine
end

