-- ==== Sys2Proof/Machine/Host.lean ====
section
/-!
DEFINITION. The host ports: BAR0, command and completion rings, doorbells, fetching and the checks of R118, NOP,
FENCE, moderation, Bus Master Enable, configuration requests (R108–R132).
-/
namespace Sys2Proof.Machine

/-! ### Port registers -/

/-- A naturally aligned 4 B or 8 B access (R111). -/
def barAccess (off size : Nat) : Bool := (size = 4 || size = 8) && off % size = 0

/-- Write one 4 B word of a register, window, MSI-X or mailbox area; false where the port discards it whole
(R112, R132).  A word of RSVD bits alone, and an offset among the port registers that holds none, is discarded whole (DESIGN
CHOICE, log 164). -/
def State.barWord (s : State) (p off v : Nat) : Bool × State :=
  let x := s.port p
  let put (y : HostPort) : Bool × State := (true, s.setPort p y)
  if off < 0x1000 then
    if off = 0x00C then put { x with enforce := bitOf v 0 }
    else if off = 0x018 then
      put { x with eventCause := (List.range 8).foldl (fun c i => if bitOf v i then setBit c i false else c)
                                   x.eventCause }
    else if off = 0x01C then put { x with eventMask := v % 2 ^ 32 }
    else if off = 0x020 then put { x with eventVector := v % 2 ^ 16 }
    else if off = 0x048 && !x.mboxBusy then put { x with mboxReqLen := v % 2 ^ 16 }
    else (false, s)
  else if 0x8000 ≤ off && off < 0x8200 then
    let i := (off - 0x8000) / 32
    let w := lookD x.windows i Window.reset
    let set (w' : Window) : Bool × State := put { x with windows := setAt x.windows i w' }
    match (off % 32) / 4 with
    | 0 => set { w with base := w.base / 2 ^ 32 * 2 ^ 32 + v % 2 ^ 32 }
    | 1 => set { w with base := w.base % 2 ^ 32 + v % 2 ^ 32 * 2 ^ 32 }
    | 2 => set { w with length := w.length / 2 ^ 32 * 2 ^ 32 + v % 2 ^ 32 }
    | 3 => set { w with length := w.length % 2 ^ 32 + v % 2 ^ 32 * 2 ^ 32 }
    | 4 => set { w with read := bitOf v 0, write := bitOf v 1, peer := bitOf v 2, relaxed := bitOf v 3,
                        noSnoop := bitOf v 4 }
    | _ => (false, s)
  else if 0x10000 ≤ off && off < 0x11000 then
    if x.mboxBusy then (false, s)
    else
      let b := fitB 4096 x.mboxReq
      let o := off - 0x10000
      put { x with mboxReq := b.take o ++ leBytes 4 v ++ b.drop (o + 4) }
  else if 0x20000 ≤ off && off < 0x28000 then
    let w := (off - 0x20000) / 4
    let y := { x with msixTable := setAt x.msixTable w (v % 2 ^ 32) }
    if w % 4 = 3 && !bitOf v 0 && x.msixPending.contains (w / 4) then
      let y' := { y with msixPending := x.msixPending.filter (· != w / 4) }
      (true, (s.setPort p y').msix p (w / 4))
    else put y
  else (false, s)

/-- A BAR0 write to an area without a row of its own: discarded and counted where its size or alignment is wrong, or where no
word of it is taken (R111, R112). -/
def State.barWrite (s : State) (p off size v : Nat) : State :=
  if !barAccess off size then s.barDiscard p
  else
    let a := s.barWord p off (v % 2 ^ 32)
    let b := if size = 8 then a.2.barWord p (off + 4) (v / 2 ^ 32) else (false, a.2)
    if a.1 || b.1 then b.2 else b.2.barDiscard p

/-- Offsets whose well-formed writes have rows of their own: doorbells, ring tables and MBOX_CTRL. -/
def ownRow (off : Nat) : Bool :=
  (0x1000 ≤ off && off < 0x1800) || (0x2000 ≤ off && off < 0x2800) || (0x4000 ≤ off && off < 0x8000) || off = 0x40

/-- BAR0_WRITE (R111, R112, R132). -/
def execBar0Write (port : PortNo) (off size value : Nat) (s : State) : Host.Outcome State Fault Refusal :=
  .next (if ownRow off && barAccess off size then s else s.barWrite port.val off size value)

/-- PORT_STATUS (Table 5.3): READY, RESETTING, NO_STANDS and RECOVERY. -/
def State.portStatus (s : State) (p : Nat) : Nat :=
  let q := s.served p
  let none := s.div.stands q = 0
  b2n (!(s.part q).resetting && !none && (s.port p).d0 && s.boot.mode == .running) + 2 * b2n (s.part q).resetting +
    4 * b2n none + 8 * b2n (s.boot.mode == .recovery)

/-- A register of Table 5.3 as a host reads it. -/
def State.readReg (s : State) (p off : Nat) : Nat :=
  let x := s.port p
  match off with
  | 0x000 => p + 2 * s.served p + 4 * b2n s.div.shared
  | 0x008 => s.portStatus p
  | 0x00C => b2n x.enforce
  | 0x010 => s.outstanding p
  | 0x018 => x.eventCause
  | 0x01C => x.eventMask
  | 0x020 => x.eventVector
  | 0x028 => s.now % 2 ^ 32
  | 0x02C => x.tickLatch / 2 ^ 32
  | 0x030 => x.faultAddr
  | 0x038 => x.faultInfo
  | 0x044 => b2n x.mboxBusy + 2 * b2n x.mboxDone + 256 * x.mboxStatus
  | 0x048 => x.mboxReqLen
  | 0x04C => x.mboxRspLen
  | 0x050 => x.barDiscards
  | _ => 0

/-- A word of a command ring table entry (Table 5.4). -/
def CmdRing.word (r : CmdRing) (i : Nat) : Nat :=
  bitsOf (r.base % 2 ^ 64 + (r.sizeLog2 % 256) * 2 ^ 64 + (r.cq % 256) * 2 ^ 72 + b2n r.enable * 2 ^ 80 +
    b2n r.latFetch * 2 ^ 81 + b2n r.error * 2 ^ 82 + (r.head % 65536) * 2 ^ 96 + (r.fetched % 2 ^ 64) * 2 ^ 128)
    (32 * i + 31) (32 * i)

/-- A word of a completion ring table entry (Table 5.5). -/
def CplRing.word (r : CplRing) (i : Nat) : Nat :=
  bitsOf (r.base % 2 ^ 64 + (r.sizeLog2 % 256) * 2 ^ 64 + b2n r.enable * 2 ^ 72 + b2n r.error * 2 ^ 73 +
    b2n r.timerEn * 2 ^ 74 + (r.vector % 2048) * 2 ^ 80 + (r.modCount % 65536) * 2 ^ 96 + (r.modTicks % 65536) * 2 ^ 112 +
    (r.tail % 65536) * 2 ^ 128 + b2n r.phase * 2 ^ 144 + (r.head % 65536) * 2 ^ 160) (32 * i + 31) (32 * i)

/-- A word of a DMA window table entry (Table 5.9). -/
def Window.word (w : Window) (i : Nat) : Nat :=
  bitsOf (w.base % 2 ^ 64 + (w.length % 2 ^ 64) * 2 ^ 64 + b2n w.read * 2 ^ 128 + b2n w.write * 2 ^ 129 + b2n w.peer * 2 ^ 130 +
    b2n w.relaxed * 2 ^ 131 + b2n w.noSnoop * 2 ^ 132) (32 * i + 31) (32 * i)

/-- A 4 B word of BAR0 as a host reads it (Table 5.2): zero outside the areas.  What a doorbell reads as is left open. -/
def State.barRead (s : State) (p off : Nat) : Nat :=
  let x := s.port p
  if off < 0x1000 then (if off = 0x034 then s.readReg p 0x030 / 2 ^ 32 else s.readReg p off % 2 ^ 32)
  else if (0x1000 ≤ off && off < 0x1800) || (0x2000 ≤ off && off < 0x2800) then Config.doorbellRead off % 2 ^ 32
  else if 0x4000 ≤ off && off < 0x6000 then (x.cmdRing ((off - 0x4000) / 32)).word (off % 32 / 4)
  else if 0x6000 ≤ off && off < 0x8000 then (x.cplRing ((off - 0x6000) / 32)).word (off % 32 / 4)
  else if 0x8000 ≤ off && off < 0x8200 then (lookD x.windows ((off - 0x8000) / 32) Window.reset).word (off % 32 / 4)
  else if 0x10000 ≤ off && off < 0x11000 then leAt (fitB 4096 x.mboxReq) (off - 0x10000) 4
  else if 0x11000 ≤ off && off < 0x12000 then leAt (fitB 4096 x.mboxRsp) (off - 0x11000) 4
  else if 0x20000 ≤ off && off < 0x28000 then lookD x.msixTable ((off - 0x20000) / 4) (if off % 16 = 12 then 1 else 0)
  else if 0x28000 ≤ off && off < 0x28100 then
    ((List.range 32).map fun i => if x.msixPending.contains (8 * (off - 0x28000) + i) then 2 ^ i else 0).sum
  else 0

/-- The answer of a read of BAR0: none, which is Unsupported Request, for another size or alignment (R111).  The table of commands
has a row for the read of TICK_LO alone, the one read that changes state. -/
def State.barAnswer (s : State) (p off size : Nat) : Option Nat :=
  if !barAccess off size then none
  else some (s.barRead p off + (if size = 8 then s.barRead p (off + 4) * 2 ^ 32 else 0))

/-- TICK_LO_READ: the read latches the tick counter and returns its low half (Table 5.3). -/
def execTickLoRead (port : PortNo) (s : State) : Host.Outcome State Fault Refusal :=
  .next ((s.setPort port.val { s.port port.val with tickLatch := s.now }).emit
    (.readData port.val (s.barRead port.val 0x028)))

/-! ### Ring tables (R113, R122) -/

/-- Words of a table entry that a write covers, with their values: word number and value. -/
def coveredWords (off size v : Nat) : List (Nat × Nat) :=
  if size = 8 then [(off % 32 / 4, v % 2 ^ 32), (off % 32 / 4 + 1, v / 2 ^ 32 % 2 ^ 32)]
  else [(off % 32 / 4, v % 2 ^ 32)]

/-- A field of a 64-bit BASE with one of its words replaced. -/
def baseWith (base : Nat) (ws : List (Nat × Nat)) : Nat :=
  lookD ws 0 (base % 2 ^ 32) + 2 ^ 32 * lookD ws 1 (base / 2 ^ 32)

/-- Write of a command ring table entry (R113). -/
def State.writeCmdRing (s : State) (p ring : Nat) (ws : List (Nat × Nat)) : State :=
  let r := (s.port p).cmdRing ring
  if ws.all fun w => 3 ≤ w.1 then s.barDiscard p
  else
    let base := baseWith r.base ws
    let size := match look ws 2 with | some v => bitsOf v 7 0 | none => r.sizeLog2
    let cq := match look ws 2 with | some v => bitsOf v 15 8 | none => r.cq
    let lat := match look ws 2 with | some v => bitOf v 17 | none => r.latFetch
    let enable := match look ws 2 with | some v => bitOf v 16 | none => r.enable
    let error := match look ws 2 with | some v => bitOf v 16 && r.error | none => r.error
    if r.enable then
      let s := if (base, size, cq, lat) = (r.base, r.sizeLog2, r.cq, r.latFetch) then s else s.barDiscard p
      s.setRing p ring { r with enable := enable, error := error }
    else
      let r := { r with base := base, sizeLog2 := size, cq := cq, latFetch := lat, error := error }
      if !enable then s.setRing p ring r
      else if base % 4096 = 0 && 4 ≤ size && size ≤ 16 && ((s.port p).cplRing cq).enable then
        s.setRing p ring { r with enable := true, head := 0, tail := 0, fetched := 0, stalled := none }
      else (s.setRing p ring { r with error := true }).ringError p

/-- COMMAND_RING_TABLE_WRITE (R113). -/
def execCommandRingTableWrite (port : PortNo) (off size value : Nat) (s : State) :
    Host.Outcome State Fault Refusal :=
  .next (if !(0x4000 ≤ off && off < 0x6000) then s
    else if !barAccess off size then s.barDiscard port.val
    else s.writeCmdRing port.val ((off - 0x4000) / 32) (coveredWords off size value))

/-- Write of a completion ring table entry (R122).  A write of ENABLE 0 clears ERROR (DEDUCED from the clearing that the rule gives
with a disable, log 165). -/
def State.writeCplRing (s : State) (p ring : Nat) (ws : List (Nat × Nat)) : State :=
  let r := (s.port p).cplRing ring
  if ws.all fun w => 4 ≤ w.1 then s.barDiscard p
  else
    let n := { r with
      base := baseWith r.base ws
      sizeLog2 := match look ws 2 with | some v => bitsOf v 7 0 | none => r.sizeLog2
      timerEn := match look ws 2 with | some v => bitOf v 10 | none => r.timerEn
      vector := match look ws 2 with | some v => bitsOf v 26 16 | none => r.vector
      modCount := match look ws 3 with | some v => bitsOf v 15 0 | none => r.modCount
      modTicks := match look ws 3 with | some v => bitsOf v 31 16 | none => r.modTicks
      error := match look ws 2 with | some v => bitOf v 8 && r.error | none => r.error }
    let enable := match look ws 2 with | some v => bitOf v 8 | none => r.enable
    if r.enable && !enable then ((s.setCpl p ring { n with enable := false }).loseHeld p ring)
    else if !r.enable && enable then
      if n.base % 4096 = 0 && 8 ≤ n.sizeLog2 && n.sizeLog2 ≤ 16 && n.vector < 2048 && n.modCount ≤ 4096 &&
          !(n.timerEn && n.modTicks = 0) then
        s.setCpl p ring { n with enable := true, tail := 0, head := 0, phase := true, since := 0, oldest := none,
                                 written := 0, consumed := 0 }
      else (s.setCpl p ring { n with error := true }).ringError p
    else s.setCpl p ring n

/-- COMPLETION_RING_TABLE_WRITE (R122). -/
def execCompletionRingTableWrite (port : PortNo) (off size value : Nat) (s : State) :
    Host.Outcome State Fault Refusal :=
  .next (if !(0x6000 ≤ off && off < 0x8000) then s
    else if !barAccess off size then s.barDiscard port.val
    else s.writeCplRing port.val ((off - 0x6000) / 32) (coveredWords off size value))

/-! ### Doorbells (R114, R122) -/

/-- TAIL_DOORBELL (R114). -/
def execTailDoorbell (port : PortNo) (ring : RingNo) (value : Nat) (s : State) :
    Host.Outcome State Fault Refusal :=
  let r := (s.port port.val).cmdRing ring.val
  .next (
    if !r.enable || r.error then s.barDiscard port.val
    else if 2 ^ r.sizeLog2 ≤ value then (s.setRing port.val ring.val { r with error := true }).ringError port.val
    else s.setRing port.val ring.val { r with tail := value, stalled := none })

/-- HEAD_DOORBELL (R122): held completions are written while there is room.  To a ring that is not enabled it does nothing and is
not counted (DESIGN CHOICE, log 166). -/
def execHeadDoorbell (port : PortNo) (ring : RingNo) (value : Nat) (s : State) :
    Host.Outcome State Fault Refusal :=
  let r := (s.port port.val).cplRing ring.val
  .next (
    if !r.enable then s
    else if 2 ^ r.sizeLog2 ≤ value then (s.setCpl port.val ring.val { r with error := true }).ringError port.val
    else
      let moved := (value + 2 ^ r.sizeLog2 - r.head) % 2 ^ r.sizeLog2
      State.drain (r.held.length + 1)
        (s.setCpl port.val ring.val { r with head := value, consumed := r.consumed + moved }) port.val ring.val)

/-- MOD_TICKS: at a tick edge the oldest completion written since the last message has age MOD_TICKS (R124). -/
def execModTicks (port : PortNo) (ring : RingNo) (s : State) : Host.Outcome State Fault Refusal :=
  let r := (s.port port.val).cplRing ring.val
  .next (match r.oldest with
    | some t => if r.enable && r.timerEn && r.modTicks ≤ s.since t then s.ringMessage port.val ring.val else s
    | none => s)

/-! ### Fetching (R115, R306) -/

/-- Entries pending on a command ring (R114). -/
def CmdRing.pending (r : CmdRing) : Nat := (r.tail + 2 ^ r.sizeLog2 - r.head) % 2 ^ r.sizeLog2

/-- The ring may take a turn (R115). -/
def CmdRing.fetchable (r : CmdRing) : Bool :=
  r.enable && !r.error && r.pending ≠ 0 && r.fence.isNone && r.stalled.isNone

/-- The ring that takes the next turn among those given, in rotation after the last one (R115). -/
def nextTurn (rings : List Nat) (last : Nat) : Option Nat :=
  match rings.find? (last < ·) with
  | some r => some r
  | none => rings.head?

/-- The ring whose turn it is (R115): rings with LAT_FETCH first, others while none of those is fetchable. -/
def HostPort.turn (x : HostPort) : Option Nat :=
  let fetchable := x.cmdRings.filter fun r => r.2.fetchable
  let lat := (fetchable.filter fun r => r.2.latFetch).map (·.1)
  if lat.isEmpty then nextTurn (fetchable.map (·.1)) x.lastRing else nextTurn lat x.lastLat

/-- The port may fetch: link up, Bus Master Enable set, in D0, fewer than 4,096 outstanding, commands admitted
(R31, R115, R131). -/
def State.mayFetch (s : State) (p : Nat) : Bool :=
  s.clocked && (s.port p).linkUp && (s.port p).bme && (s.port p).d0 && s.outstanding p < 4096 && s.ticks.admitting

/-! ### Checks at the fetch (R118 steps 1–6, R497) -/

/-- R118 step 4: the checks of a flow command's flow. -/
def State.flowCheck (s : State) (c : Cmd) : Status :=
  if !inRange (s.div.flowRange c.part) c.flow then .notPermitted
  else match look (s.part c.part).flows c.flow with
    | none => .badDescriptor
    | some f => firstFail [(f.closing, .badDescriptor), (f.destKind ≤ 1, .badDescriptor),
        (f.destKind = 2 && f.owner ≠ c.port + 1, .notPermitted)]

/-- R118 step 5 over the device ranges a command names: every address's form before any partition. -/
def State.devChecks (s : State) (c : Cmd) : Status :=
  firstFail [(c.devRanges.any fun r => !s.devForm c.part r.1 r.2, .badDescriptor),
    (c.devRanges.any fun r => !s.devPart c.part r.1 r.2, .notPermitted)]

/-- R118 step 6: the first host range that no window allows. -/
def State.hostFault (s : State) (c : Cmd) : Option (Bool × Nat × Nat) :=
  c.hostRanges.find? fun r => !(s.port c.port).rangeOk r.1 r.2.1 r.2.2

/-- R118 steps 1 to 5 in order. -/
def State.earlyCheck (s : State) (c : Cmd) : Status :=
  if !opcodes.contains c.opcode || c.f 15 9 ≠ 0 || c.f 63 50 ≠ 0 then .badDescriptor
  else if s.div.stands c.part = 0 && !standlessOpcodes.contains c.opcode then .notPermitted
  else if !flowOpcodes.contains c.opcode && c.flow ≠ 0 then .badDescriptor
  else if flowOpcodes.contains c.opcode && s.flowCheck c ≠ .ok then s.flowCheck c
  else s.devChecks c

/-- R118 steps 1 to 6 in order. -/
def State.fetchCheck (s : State) (c : Cmd) : Status :=
  if s.earlyCheck c ≠ .ok then s.earlyCheck c else if (s.hostFault c).isSome then .notPermitted else .ok

/-- A command as the fetch takes it from its entries. -/
def newCmd (s : State) (p ring cq : Nat) (e : Entry) (ext : List Entry) : Cmd :=
  let v := e.toNat
  { id := s.nextId, port := p, ring := ring, cq := cq, part := s.served p, opcode := bitsOf v 7 0,
    signal := bitOf v 8, tag := bitsOf v 31 16, flow := bitsOf v 49 32, entry := e, ext := ext,
    order := s.nextId, stage := .fetched, tick := s.now, late := false, inBound := true, waits := [],
    waited := 0, version := 0, peers := [], flush := [], left := 0, refused := 0, readN := 0, status := .ok, cut := false, regions := [],
    dict := none }

/-- The completion ring of a flow command whose flow has DEST_KIND 2 is DEST_RING (R120). -/
def State.cqOf (s : State) (c : Cmd) : Nat :=
  if flowOpcodes.contains c.opcode then
    match look (s.part c.part).flows c.flow with
    | some f => if f.destKind = 2 then f.destRing else c.cq
    | none => c.cq
  else c.cq

/-- Take one command from a ring: count it, check it, and complete it with the first failure; while a reset covers
the partition it completes with ABORTED, and while DEEP_SLEEP drains with NOT_PERMITTED (R118, R461, R497).  A LAT LOOKUP arrives
with the read that carries its last entry (R48). -/
def State.take (s : State) (p ring : Nat) (e : Entry) (ext : List Entry) : State :=
  let r := (s.port p).cmdRing ring
  let c0 := newCmd s p ring r.cq e ext
  let c := { c0 with cq := s.cqOf c0, peers := (s.port p).peersOf c0.hostRanges }
  let s1 := { s with nextId := s.nextId + 1, cmds := s.cmds ++ [c] }
  let s2 := s1.setRing p ring { r with
    head := (r.head + 1 + ext.length) % 2 ^ r.sizeLog2, fetched := r.fetched + 1,
    fence := if c.opcode = 2 then some c.id else r.fence }
  let s3 := s2.put (at_ Ob.OUTSTANDING_MAX p) (max (s2.get (at_ Ob.OUTSTANDING_MAX p)) (s2.outstanding p))
  let s3 := if c.opcode = 0x28 && inRange (s.div.latRange c.part) c.flow then s3.latArrive else s3
  if (s.part c.part).resetting then s3.finish c.id .aborted 0
  else if s.clk.draining.isSome then s3.finish c.id .notPermitted 0
  else
    let st := s.fetchCheck c
    if st = .ok then s3
    else
      let s4 := match (if s.earlyCheck c = .ok then s.hostFault c else none) with
        | some r => s3.dmaFault p r.2.1 .notPermitted ring c.tag
        | none => s3
      s4.finish c.id st 0

/-- The entries of one turn, in order (R115): a LOOKUP is taken only with all its extension entries (R306), and a
turn ends after a FENCE. -/
def State.takeTurn : Nat → State → Nat → Nat → List Entry → State
  | 0, s, _, _, _ => s
  | _ + 1, s, _, _, [] => s
  | fuel + 1, s, p, ring, e :: rest =>
    if 4096 ≤ s.outstanding p then s
    else
      let v := e.toNat
      let next := if bitsOf v 7 0 = 0x28 && bitsOf v 99 99 = 0 then bitsOf v 114 112 else 0
      let r := (s.port p).cmdRing ring
      if r.pending < 1 + next then s.setRing p ring { r with stalled := some r.tail }
      else if rest.length < next then s
      else
        let s := s.take p ring e (rest.take next)
        if bitsOf v 7 0 = 2 then s else State.takeTurn fuel s p ring (rest.drop next)

/-- FETCH_TURN: the ring whose turn it is reads up to 8 pending entries (R115). -/
def execFetchTurn (port : PortNo) (ring : RingNo) (entries : List Entry) (s : State) :
    Host.Outcome State Fault Refusal :=
  let p := port.val
  if 8 < entries.length then .fault .illFormed
  else if s.mayFetch p && (s.port p).turn = some ring.val then
    let r := (s.port p).cmdRing ring.val
    let x := s.port p
    let s := s.setPort p (if r.latFetch then { x with lastLat := ring.val } else { x with lastRing := ring.val })
    .next (State.takeTurn 8 s p ring.val (entries.take r.pending))
  else .next s

/-- FETCH_READ_FAILED: a failed read of command-ring entries (R130). -/
def execFetchReadFailed (port : PortNo) (ring : RingNo) (addr : Nat) (s : State) :
    Host.Outcome State Fault Refusal :=
  let p := port.val
  let r := (s.port p).cmdRing ring.val
  .next (
    if s.mayFetch p && r.fetchable then
      (((s.setRing p ring.val { r with error := true }).dmaFault p addr .linkRetryExhausted ring.val 0).ringError
        p).emit (.aer p)
    else s)

/-! ### NOP and FENCE -/

/-- NOP (R126). -/
def execNop (id : Nat) (s : State) : Host.Outcome State Fault Refusal :=
  .next (match s.cmd? id with
    | some c =>
      if c.opcode = 1 && c.stage = .fetched then
        s.finish id (if c.f 511 64 = 0 then .ok else .badDescriptor) 0
      else s
    | none => s)

/-- The commands in a FENCE's scope (R127). -/
def State.fenceScope (s : State) (c : Cmd) (scope : Nat) : List Nat :=
  (s.cmds.filter fun x => x.order < c.order &&
    (match scope with
      | 0 => x.port == c.port && x.ring == c.ring
      | 1 => x.port == c.port
      | _ => true)).map (·.id)

/-- FENCE (R127): it completes at once where its scope is empty, and otherwise when the last command of its scope
has completed. -/
def execFence (id : Nat) (s : State) : Host.Outcome State Fault Refusal :=
  .next (match s.cmd? id with
    | some c =>
      if c.opcode = 2 && c.stage = .fetched then
        if c.f 65 64 = 3 || c.f 511 66 ≠ 0 then s.finish id .badDescriptor 0
        else
          let w := s.fenceScope c (c.f 65 64)
          if w.isEmpty then s.finish id .ok 0
          else s.setCmd { c with stage := .waiting, waits := w, waited := w.length }
      else s
    | none => s)

/-! ### The control queue (R119) -/

/-- The command is next in its partition's control queue: no earlier control command of the partition still has an
action to carry out.  A waiting graph PIPE_RUN or TABLE_VERSION_SWITCH has none. -/
def State.isTurn (s : State) (c : Cmd) : Bool :=
  !(s.cmds.any fun x => x.part == c.part && x.id < c.id && !(flowOpcodes.contains x.opcode) &&
    2 < x.opcode &&
    (x.stage == .fetched || (x.stage == .waiting && x.opcode != 0x11 && x.opcode != 0x23)))

/-- A command moves data between the module and host memory while it acts: its host ranges, or the records of a table command.
The frames of an epoch move later. -/
def Cmd.usesHost (c : Cmd) : Bool :=
  c.opcode == 0x21 || c.opcode == 0x29 || (c.opcode != 0x11 && !c.hostRanges.isEmpty)

/-- A command that needs a DMA waits while Bus Master Enable is 0 (R131). -/
def State.dmaReady (s : State) (c : Cmd) : Bool := !c.usesHost || (s.port c.port).bme

/-- A control command of an opcode whose action starts now. -/
def State.control (s : State) (id opcode : Nat) : Option Cmd :=
  match s.cmd? id with
  | some c => if c.opcode = opcode && c.stage = .fetched && s.isTurn c && s.dmaReady c then some c else none
  | none => none

/-- A flow command of an opcode waiting for its admission (stage `fetched`); UPDATE and TABLE_WRITE_ROWS read their records as
they are admitted. -/
def State.admitting (s : State) (id opcode : Nat) : Option Cmd :=
  match s.cmd? id with
  | some c => if c.opcode = opcode && c.stage = .fetched && (!(c.opcode == 0x21 || c.opcode == 0x29) || s.dmaReady c) then some c
    else none
  | none => none

/-! ### Bus Master Enable, replays, link, configuration -/

/-- Deliver the completions that waited for Bus Master Enable, in order (R131). -/
def State.flushWaiting (s : State) (p : Nat) (l : List (Nat × Cpl)) : State :=
  l.foldl (fun t x =>
    let d := t.deliverCpl p x.1 x.2
    if d.1 then State.settle (d.2.cmds.length + 1) d.2 [x.2.id] else d.2) s

/-- Send the messages whose pending bits are set and that may now leave (R124). -/
def State.sendPending (s : State) (p : Nat) : State :=
  (s.port p).msixPending.foldl (fun t v =>
    if (t.port p).canSend v then
      (t.setPort p { t.port p with msixPending := (t.port p).msixPending.filter (· != v) }).emit (.msix p v)
    else t) s

/-- BUS_MASTER_ENABLE (R131). -/
def execBusMasterEnable (port : PortNo) (on : Bool) (s : State) : Host.Outcome State Fault Refusal :=
  let p := port.val
  let x := s.port p
  .next (
    if on then
      let s := s.setPort p { x with bme := true, waiting := [] }
      let s := s.flushWaiting p x.waiting
      let s := ((s.port p).cplRings.map (·.1)).foldl (fun t r =>
        State.drain (((t.port p).cplRing r).held.length + 1) t p r) s
      s.sendPending p
    else s.setPort p { x with bme := false })

/-- PCIE_REPLAY (R138, R49). -/
def execPcieReplay (port : PortNo) (s : State) : Host.Outcome State Fault Refusal :=
  .next ((s.bump (at_ Ob.REPLAYS port.val)).noteBreak 3 port.val)

/-- Request Retry Status ends once the link is up, the partition is released and firmware runs or recovery waits
(R135). -/
def State.settleRetry (s : State) : State :=
  [0, 1].foldl (fun (t : State) p =>
    let x := t.port p
    let held := match t.boot.mode with
      | .recovery => t.resets.any fun m => m.reach == 2 || (m.reach == 1 && m.part == t.served p)
      | .running => (t.part (t.served p)).resetting
      | _ => true
    if x.retry && x.linkUp && !held then
      t.setPort p { x with retry := false } else t) s

/-- HOST_LINK_UP: training ends and LINK_RATE and LINK_WIDTH take their values (Table 5.13); a hot reset or link disable
has ended with it. -/
def execHostLinkUp (port : PortNo) (rate width : Nat) (s : State) : Host.Outcome State Fault Refusal :=
  let p := port.val
  let x := s.port p
  .next (
    if x.perst || !s.boot.released || s.clk.asleep then s
    else if !(1 ≤ rate && rate ≤ 6 && [1, 2, 4, 8].contains width) then s
    else
      let old := s.get (at_ Ob.LINK_RATE p)
      let s := ((s.setPort p { x with linkUp := true, hotReset := false, disabled := false }).put (at_ Ob.LINK_RATE p) rate).put (at_ Ob.LINK_WIDTH p) width
      let s := if old = rate then s else s.occur 8 0xFF rate
      (if x.linkUp then s.noteBreak 5 p else s).settleRetry)

end Sys2Proof.Machine
end

