-- ==== Sys2Proof/Machine/Flow.lean ====
section
/-!
DEFINITION. Flows: contexts, enqueue, dispatch, release order, residency, core slots (R77–R107, R499).

The work an item does and where a released item goes are in later files; here an item moves through its flow.
-/
namespace Sys2Proof.Machine

/-! ### Access -/

/-- The open flow of an ID in a partition. -/
def State.flow? (s : State) (p f : Nat) : Option Flow := look (s.part p).flows f

/-- The state with an open flow changed. -/
def State.setFlow (s : State) (p f : Nat) (x : Flow) : State :=
  s.setPart p { s.part p with flows := setAt (s.part p).flows f x }

/-- The partition a flow ID belongs to (R77). -/
def Division.flowPart (d : Division) (f : Nat) : Nat := if f < 4096 * d.flows then 0 else 1

/-- The flow ID is a LAT flow ID (R77). -/
def Division.isLatId (d : Division) (f : Nat) : Bool := inRange (d.latRange (d.flowPart f)) f

/-- Every item a flow holds. -/
def Flow.items (x : Flow) : List Item := x.queued ++ x.running ++ x.slow ++ x.held

/-- A closing flow that holds nothing any more. -/
def Flow.isDrained (x : Flow) : Bool := x.queued.isEmpty && x.running.isEmpty && x.slow.isEmpty && x.held.isEmpty

/-! ### Kernels and unit kinds (R79) -/

/-- The unit kind a kernel runs on. -/
def Kernel.kind : Kernel → UnitKind
  | .tableWrite => .core | .lookup => .core | .update => .core | .copy => .copyEngine | .compress => .chipC
  | .decompress => .chipD | .topk => .core | .argmax => .merge | .matchK => .pe | .matmul => .me
  | .decode => .rd | .operator => .core | .assembly => .core

/-- The number a unit kind has in unit codes. -/
def UnitKind.code : UnitKind → Nat
  | .core => 0 | .me => 1 | .rd => 2 | .pe => 3 | .chipD => 4 | .chipC => 5 | .copyEngine => 6 | .merge => 7

/-- Code of a unit: kind × 2,048 + number. -/
def unitCode (k : UnitKind) (u : Nat) : Nat := k.code * 2048 + u

/-- The kernel a flow runs: the library entry of its KERNEL number. -/
def State.kernelOf (s : State) (x : Flow) : Option Kernel := look s.klib x.kernel

/-! ### Places: item pool, context store, yard (R98, R101–R103, R106) -/

/-- Flow blocks and LAT blocks of a partition (Table 1.5). -/
def Division.flowBlocks (d : Division) (p : Nat) : Nat := if p = 0 then d.flows else 64 - d.flows
def Division.latBlocks (d : Division) (p : Nat) : Nat := if p = 0 then d.lat else 16 - d.lat

/-- Entries of a partition's item pool that no LAT flow owns. -/
def Division.generalPool (d : Division) (p : Nat) : Nat := 2048 * (d.pool p - d.latBlocks p)

/-- Entries of a partition's item spill area (R98, Table 4.5): YARD_ITEM_MIB in each of 4 coreless vaults a stand. -/
def Division.yardItems (d : Division) (p : Nat) : Nat := 4 * d.stands p * d.yardMib * 2 ^ 20 / 32

/-- Device address of a partition's coreless vault `i`, counted through its stands in rising order (R98). -/
def Division.coreless (d : Division) (p i : Nat) : Nat :=
  2 ^ 37 * (d.firstStand p + i / 4) + 2 ^ 31 * (corelessPos (d.firstStand p + i / 4)).getD (i % 4) 0

/-- Where firmware put an area of the yard in a coreless vault, below the spread window (R98); the manual leaves the place
open: 0 context home, 1 item spill, 2 slot spill, from 4 on the window stores of decompression lanes (R354). -/
def Division.yardBase (d : Division) (vault area : Nat) : Nat :=
  vault + Config.yardBase (vault / 2 ^ 31 * 16 + area) * 64 % (2 ^ 31 - 0x4000000 * d.window)

/-- Device address of the home of a flow's context (R98): flow IDs go over the coreless vaults in turn. -/
def Division.homeAddr (d : Division) (p f : Nat) : Nat :=
  let i := f - (d.flowRange p).1
  d.yardBase (d.coreless p (i % (4 * d.stands p))) 0 + i / (4 * d.stands p) * 64

/-- Device address of an entry of the item spill area (Table 4.5). -/
def Division.spillEntry (d : Division) (p e : Nat) : Nat :=
  let n := d.yardMib * 2 ^ 20 / 32
  d.yardBase (d.coreless p (e / n)) 1 + e % n * 32

/-- Device address of the 4 KiB slot spill of a core, in a coreless vault of its stand (Table 4.5). -/
def Division.slotSpill (d : Division) (p core : Nat) : Nat :=
  let v := d.coreless p (4 * (core / 60 - d.firstStand p) + Config.yardBase (2 ^ 20 + core) % 4)
  d.yardBase v 2 + core % 60 * 4096

/-- Bytes of core state in a slot spill (Table 4.5). -/
def slotSpillBytes : Nat := 2368

/-- Landing-buffer address of an entry of the item pool: the LAT flows' reserved entries lie lowest (R103, R106). -/
def Division.poolAddr (d : Division) (p e : Nat) : Nat := (d.regionRange p).1 * 65536 + 32 * e

/-- The first number from `i` on, in a ring of `n`, that is not used, with fuel. -/
def probe (used : List Nat) (n : Nat) : Nat → Nat → Nat
  | 0, i => i
  | fuel + 1, i => if used.contains i then probe used n fuel ((i + 1) % n) else i

/-- Items of a partition in a kind of place. -/
def Part.itemsIn (x : Part) (pl : Place) : List Item := (x.flows.flatMap (·.2.items)).filter (·.place == pl)

/-- Number of items of a partition in a kind of place. -/
def Part.inPlace (x : Part) (pl : Place) : Nat := (x.itemsIn pl).length

/-- Where the next item of a flow goes; none where no entry is free (R101–R103), or where QUEUED is at the top of its 20 bits
(Table 4.1). -/
def State.placeFor (s : State) (p : Nat) (x : Flow) : Option Place :=
  let general := (s.part p).inPlace .pool < s.div.generalPool p
  if 1048575 ≤ x.queued.length then none
  else if x.cls = .lat then
    if (x.items.filter (·.place == .reserved)).length < 8 then some .reserved
    else if general then some .pool else none
  else if (x.queued.filter (·.place == .pool)).length < 256 && general &&
      !(x.queued.any (·.place == .yard)) then some .pool
  else if (s.part p).inPlace .yard < s.div.yardItems p then some .yard else none

/-- The entry an item takes in its place: one of the flow's own for a reserved one, else one that the manual leaves open
among those not in use. -/
def State.entryFor (s : State) (p f : Nat) (x : Flow) (pl : Place) : Nat × State :=
  let used := (s.part p).itemsIn pl |>.map (·.entry)
  match pl with
  | .reserved =>
    let base := (f - (s.div.latRange p).1) * 8
    (base + probe ((x.items.filter (·.place == .reserved)).map (·.entry - base)) 8 8 0, s)
  | .pool =>
    let n := s.div.generalPool p
    let base := 2048 * s.div.latBlocks p
    (base + probe (used.map (· - base)) n used.length (s.free.1 % n), s.free.2)
  | .yard =>
    let n := s.div.yardItems p
    (probe used n used.length (s.free.1 % n), s.free.2)

/-- The entry of an item is read: false where it holds an uncorrectable word (R104). -/
def State.readEntry (s : State) (p : Nat) (it : Item) : Bool × State :=
  match it.place with
  | .yard =>
    let r := s.vaultRead srcBulk (s.div.spillEntry p it.entry) 32
    (r.1.isSome, r.2)
  | _ => s.sramRead unitLbuf p (s.div.poolAddr p it.entry) 32

/-- RESIDENT_USED and YARD_ITEMS follow the contexts and items (Table 4.8). -/
def State.flowGauges (s : State) (p : Nat) : State :=
  (s.put (at_ Ob.RESIDENT_USED p) ((s.part p).flows.filter (·.2.resident)).length).put (at_ Ob.YARD_ITEMS p)
    ((s.part p).inPlace .yard)

/-- VALID and CLOSING clear once a closing flow is empty (R83, R104). -/
def State.closeIfDrained (s : State) (p f : Nat) : State :=
  match s.flow? p f with
  | some x => if x.closing && x.isDrained then
      (s.setPart p { s.part p with flows := dropAt (s.part p).flows f }).flowGauges p else s
  | none => s

/-! ### Residency (R99, R103, R104) -/

/-- Resident contexts a partition's store holds. -/
def Division.residentMax (d : Division) (p : Nat) : Nat := 256 * d.flowBlocks p

/-- First entry of a partition's share of the flow context store. -/
def Division.storeBase (d : Division) (p : Nat) : Nat := if p = 0 then 0 else 256 * d.flows

/-- The context to evict: the least recently used idle one, else the least recently used one that only queues.  DESIGN
CHOICE (log 159): use is counted in ticks, and of contexts last used in one tick the one with the lowest flow ID goes. -/
def Part.victim (x : Part) : Option Nat :=
  let res := x.flows.filter fun e => e.2.resident && e.2.cls != .lat && e.2.running.isEmpty && e.2.slow.isEmpty &&
    e.2.held.isEmpty
  let oldest (l : List (Nat × Flow)) : Option Nat :=
    (l.foldl (fun (b : Option (Nat × Flow)) e => match b with
      | some c => if e.2.lastUse < c.2.lastUse then some e else b
      | none => some e) none).map (·.1)
  match oldest (res.filter (·.2.queued.isEmpty)) with
  | some f => some f
  | none => oldest res

/-- One more context can be resident: the store has a free entry, or a context can be evicted. -/
def State.canRefill (s : State) (p : Nat) : Bool :=
  ((s.part p).flows.filter (·.2.resident)).length < s.div.residentMax p || (s.part p).victim.isSome

/-- The flow's context held an uncorrectable word: the flow closes, and every item it holds is to be released with
UNCORRECTABLE (R104). -/
def State.failFlow (s : State) (p f : Nat) : State :=
  match s.flow? p f with
  | none => s
  | some x =>
    let spoil (l : List Item) : List Item := l.map fun it => { it with status := .uncorrectable }
    (s.setFlow p f { x with failed := true, closing := true, queued := spoil x.queued, running := spoil x.running,
                            slow := spoil x.slow, held := spoil x.held }).closeIfDrained p f

/-- Read of a resident context (R61, R104). -/
def State.readContext (s : State) (p f i : Nat) : State :=
  let r := s.sramRead unitContext p (i * 64) 64
  if r.1 then r.2 else r.2.failFlow p f

/-- Words of vault memory written as fresh codewords, whatever they hold (R59). -/
def State.freshen (s : State) (da n : Nat) : State :=
  { s with flips := s.flips.filter fun e => !(da / 8 ≤ e.1 && e.1 < (da + n) / 8) }

/-- Spill a context to its home in the yard (R99). -/
def State.spill (s : State) (p v : Nat) (y : Flow) : State :=
  ((s.setFlow p v { y with resident := false }).freshen (s.div.homeAddr p v) 64).bump (at_ Ob.CONTEXT_SPILLS p)

/-- Refill a context from its home into an entry of the store (R99). -/
def State.refill (s : State) (p f i : Nat) (x : Flow) : State :=
  let r := s.vaultRead srcBulk (s.div.homeAddr p f) 64
  let t := (((r.2.setFlow p f { x with resident := true, store := i, lastUse := s.now }).sramWrite unitContext (i * 64) 64).bump
    (at_ Ob.CONTEXT_REFILLS p)).flowGauges p
  if r.1.isSome then t else t.failFlow p f

/-- Make a flow's context resident before an operation on it (R99): refilled from the yard, after a spill where the
store is full; none while no context can be evicted. -/
def State.touch (s : State) (p f : Nat) : Option State :=
  match s.flow? p f with
  | none => some s
  | some x =>
    if x.resident then some ((s.setFlow p f { x with lastUse := s.now }).readContext p f x.store)
    else
      let used := ((s.part p).flows.filter (·.2.resident)).map (·.2.store - s.div.storeBase p)
      if used.length < s.div.residentMax p then
        let i := probe used (s.div.residentMax p) used.length (s.free.1 % s.div.residentMax p)
        some (s.free.2.refill p f (s.div.storeBase p + i) x)
      else (s.part p).victim.bind fun v => (s.flow? p v).map fun y => (s.spill p v y).refill p f y.store x

/-- An operation waits (R99, R102): ENQUEUE_STALL_TICKS counts its ticks. -/
def State.block (s : State) (p f q : Nat) : State :=
  if (s.part p).blocked.contains (f, q) then s
  else s.setPart p { s.part p with blocked := (s.part p).blocked ++ [(f, q)] }

/-- The operation that waited goes on. -/
def State.unblock (s : State) (p f q : Nat) : State :=
  if (s.part p).blocked.contains (f, q) then
    s.setPart p { s.part p with blocked := (s.part p).blocked.filter (· != (f, q)) }
  else s

/-! ### Enqueue (R80, R83, R100–R103) -/

/-- A fresh item as its producer writes it. -/
def mkItem (target hostTag len arg0 arg1 : Nat) (st : Status) (w : Work) : Item :=
  { seq := 0, start := 0, target := target, slow := false, status := st, hostTag := hostTag, len := len,
    arg0 := arg0, arg1 := arg1, place := .pool, entry := 0, born := 0, unit := 0x7FF, stopped := false, begun := false,
    saved := none, spilled := false, work := w }

/-- The item stands for a command or a look-up request, not for what a bolt made. -/
def Item.isRequest (it : Item) : Bool :=
  match it.work with
  | .cmd _ => true
  | .rlt _ => true
  | _ => false

/-- An enqueue as the dispatcher carries it out: OK; BAD_DESCRIPTOR where the flow is closed or closing (R83); NO_RESOURCE
where no entry is free (R102, R103); none while the context cannot be resident (R99). -/
def State.enqueueNow (s : State) (p f : Nat) (it : Item) : Option Status × State :=
  if !(s.flow? p f).any fun x => !x.closing then (some .badDescriptor, s)
  else match s.touch p f with
    | none => (none, s)
    | some s => match s.flow? p f with
      | none => (some .badDescriptor, s)
      | some x =>
        if x.closing then (some .badDescriptor, s)
        else match s.placeFor p x with
          | none => (some .noResource, if x.cls = .lat then s.bump (at_ Ob.LAT_ITEM_REFUSED p) else s)
          | some pl =>
            let e := s.entryFor p f x pl
            let it := { it with seq := x.nextSeq, place := pl, entry := e.1 }
            let s := e.2.setFlow p f
              { x with queued := x.queued ++ [it], nextSeq := (x.nextSeq + 1) % 2 ^ 32, lastTick := s.now % 65536 }
            (some .ok, if pl = .yard then (s.bump (at_ Ob.ITEM_SPILLS p)).flowGauges p else s)

/-- A flow with enqueues waiting for space or for its context (R99, R102, R167): producers to it are stopped. -/
def State.isStalled (s : State) (p f : Nat) : Bool := (s.part p).stalled.any (·.1 == f)

/-- A close of the flow waits for its context. -/
def State.closeWaits (s : State) (p f : Nat) : Bool := (s.part p).waits.any (· == (f, .close))

/-- The enqueue joins those that wait, in arrival order (R99, R100, R102). -/
def State.stall (s : State) (p f : Nat) (it : Item) : State :=
  s.setPart p { s.part p with stalled := (s.part p).stalled ++ [(f, it)] }

/-- The next number in the order of all enqueues (R100). -/
def State.numbered (s : State) : State := { s with nextBorn := s.nextBorn + 1 }

/-- Enqueue for a command or request: it waits for a context (R99) and behind earlier enqueues to the flow (R100), and is
refused where no entry is free (R102, R103). -/
def State.enqueue (s : State) (p f : Nat) (it : Item) : Status × State :=
  let it := { it with born := s.nextBorn }
  let s := s.numbered
  if s.closeWaits p f then (.badDescriptor, s)
  else if s.isStalled p f then
    match s.flow? p f with
    | some x => if x.closing then (.badDescriptor, s)
        else if (s.placeFor p x).isNone then (.noResource, s) else (.ok, s.stall p f it)
    | none => (.badDescriptor, s)
  else match s.enqueueNow p f it with
    | (none, t) => (.ok, t.stall p f it)
    | (some st, t) => (st, t)

/-- Enqueue by a bolt (R102): while no space is free the item waits, and back-pressure with it. -/
def State.enqueueBolt (s : State) (p f : Nat) (it : Item) : Status × State :=
  let it := { it with born := s.nextBorn }
  let s := s.numbered
  if s.closeWaits p f then (.badDescriptor, s)
  else if s.isStalled p f then (.ok, s.stall p f it)
  else match s.enqueueNow p f it with
    | (none, t) => (.ok, t.stall p f it)
    | (some .noResource, t) => (.ok, t.stall p f it)
    | (some st, t) => (st, t)

/-- A bolt's enqueue to the flow would find room now (R102). -/
def State.hasRoom (s : State) (p f : Nat) : Bool :=
  match s.flow? p f with
  | none => true
  | some x => x.closing || (!s.isStalled p f && (s.placeFor p x).isSome && (x.resident || s.canRefill p))

/-- Move one item of a flow from the yard to the pool: its entry is read, and an unreadable one is to be released with
UNCORRECTABLE (R101, R104). -/
def State.moveEntry (s : State) (p f seq : Nat) : State :=
  match s.flow? p f with
  | none => s
  | some x => match x.queued.find? (·.seq == seq) with
    | none => s
    | some it =>
      let r := s.readEntry p it
      let e := r.2.entryFor p f x .pool
      e.2.setFlow p f { x with queued := x.queued.map fun y => if y.seq = seq then
        { it with place := .pool, entry := e.1, status := if r.1 then it.status else .uncorrectable } else y }

/-- ITEM_REFILL (R101): with fewer than 32 items in the pool and more in the yard, 64 items move in SEQ order. -/
def execItemRefill (flow : FlowNo) (s : State) : Host.Outcome State Fault Refusal :=
  let p := s.div.flowPart flow.val
  .next (match s.flow? p flow.val with
    | some x =>
      let pool := (x.queued.filter (·.place == .pool)).length
      let k := min 64 (s.div.generalPool p - (s.part p).inPlace .pool)
      if pool < 32 && x.queued.any (·.place == .yard) then
        ((((x.queued.filter (·.place == .yard)).take k).foldl (fun t it => t.moveEntry p flow.val it.seq) s)).flowGauges p
      else s
    | none => s)

/-! ### Release order (R91, R92, R95) -/

/-- Release of one item from its flow: DONE, DROPS, RELEASE_SEQ, and LEN 0 for a hole. -/
def Flow.count (x : Flow) (it : Item) : Flow :=
  { x with done := (x.done + 1) % 2 ^ 32,
           drops := if it.status = .ok then x.drops else satAdd 65535 x.drops 1 }

/-- A hole is released with LEN 0 (R92). -/
def Item.released (it : Item) : Item := if it.status = .ok then it else { it with len := 0 }

/-- Release every held item that follows RELEASE_SEQ in unbroken order, with fuel (R92). -/
def Flow.cascade : Nat → Flow → List Item × Flow
  | 0, x => ([], x)
  | fuel + 1, x =>
    match x.held.find? (·.seq == x.releaseSeq) with
    | none => ([], x)
    | some it =>
      let x := { x with held := x.held.filter (·.seq != it.seq), releaseSeq := (x.releaseSeq + 1) % 2 ^ 32 }
      let r := Flow.cascade fuel (x.count it)
      (it.released :: r.1, r.2)

/-- The flow without an item of a SEQ in any of its lists. -/
def Flow.remove (x : Flow) (seq : Nat) : Flow :=
  { x with queued := x.queued.filter (·.seq != seq), running := x.running.filter (·.seq != seq),
           slow := x.slow.filter (·.seq != seq) }

/-- An item completes: what the flow releases, in order, and the flow after (R91, R92, R95). -/
def Flow.complete (x : Flow) (it : Item) : List Item × Flow :=
  let x := x.remove it.seq
  match x.mode with
  | .ordered =>
    let x := { x with held := x.held ++ [it] }
    x.cascade (x.held.length)
  | _ => ([it.released], x.count it)

/-- The item of a SEQ that is in flight: running, or in the slow lane and resumed. -/
def Flow.inFlight? (x : Flow) (seq : Nat) : Option Item :=
  match x.running.find? (·.seq == seq) with
  | some it => some it
  | none => x.slow.find? fun it => it.seq == seq && !it.stopped

/-! ### Cores and engines (R86–R90) -/

/-- The slots of a core. -/
def State.slots (s : State) (c : Nat) : Slot × Slot := lookD s.cores c (.empty, .empty)

/-- The state with a core's slots set. -/
def State.setSlots (s : State) (c : Nat) (x : Slot × Slot) : State := { s with cores := setAt s.cores c x }

/-- Items on an engine, the head running. -/
def State.engine (s : State) (k : UnitKind) (u : Nat) : List (Nat × Nat) := lookD s.engines (unitCode k u) []

/-- The state with an engine's items set. -/
def State.setEngine (s : State) (k : UnitKind) (u : Nat) (l : List (Nat × Nat)) : State :=
  { s with engines := setAt s.engines (unitCode k u) l }

/-- The flow and SEQ a slot holds. -/
def Slot.item : Slot → Option (Nat × Nat)
  | .empty => none
  | .loaded f q => some (f, q)
  | .running f q => some (f, q)
  | .parked f q => some (f, q)

/-- The slot holds nothing. -/
def Slot.isEmpty : Slot → Bool
  | .empty => true
  | _ => false

/-- The slot holds stopped work. -/
def Slot.isParked : Slot → Bool
  | .parked _ _ => true
  | _ => false

/-- The slot holds an item that has not started. -/
def Slot.isLoaded : Slot → Bool
  | .loaded _ _ => true
  | _ => false

/-- The slot runs. -/
def Slot.isRunning : Slot → Bool
  | .running _ _ => true
  | _ => false

/-- A flow ID holds a LAT flow. -/
def State.latFlow (s : State) (f : Nat) : Bool :=
  match s.flow? (s.div.flowPart f) f with
  | some x => x.cls = .lat
  | none => false

/-- A unit of a kind that the partition holds and that takes new items (R81). -/
def State.unitUp (s : State) (p : Nat) (k : UnitKind) (u : Nat) : Bool :=
  inRange (s.div.units k p) u && !(s.down.contains (unitCode k u))

/-- A core may take a BULK or MAINT item: a slot is EMPTY and the other is not PARKED (R87). -/
def coreTakesBulk (x : Slot × Slot) : Bool :=
  (x.1.isEmpty && !x.2.isParked) || (x.2.isEmpty && !x.1.isParked)

/-- A slot that a LAT item may take at a tick edge (R87): EMPTY, or LOADED with BULK work. -/
def State.latSlot (s : State) (sl : Slot) : Bool :=
  match sl with
  | .empty => true
  | .loaded f _ => !s.latFlow f
  | _ => false

/-- The stand is in the scope of a maintenance period that runs (R45). -/
def State.inMaint (s : State) (n : Nat) : Bool :=
  match s.ticks.maint with
  | some (scope, _) => bitOf scope n
  | none => false

/-- The stand of a unit that lies on one: a core's or a merge unit's. -/
def unitStand (k : UnitKind) (u : Nat) : Option Nat :=
  match k with
  | .core => some (u / 60)
  | .merge => some u
  | _ => none

/-- A unit's stand serves work: its link does not retrain (R17), and no maintenance period covers it (R45). -/
def State.standServes (s : State) (k : UnitKind) (u : Nat) : Bool :=
  match unitStand k u with
  | some n => !(s.stand n).retraining && !s.inMaint n
  | none => true

/-- The unit can take an item of a flow's class now: between edges a core takes LAT work only while it holds none (R37,
R87), an engine holds at most four items (R86), and the duty leaves BULK and MAINT work its cycles (R480). -/
def State.takes (s : State) (p : Nat) (k : UnitKind) (u : Nat) (cls : FlowClass) : Bool :=
  s.unitUp p k u && s.standServes k u && s.classRuns cls &&
    (match k with
      | .core => if cls = .lat then s.slots u == (.empty, .empty) else coreTakesBulk (s.slots u)
      | _ => (s.engine k u).length < 4)

/-- The item may run on the unit: its TARGET names it or any, and for a core its stand is in STAND_MASK (R81). -/
def targetOk (x : Flow) (k : UnitKind) (it : Item) (u : Nat) : Bool :=
  (it.target = u || it.target = 0x7FF) &&
    (match k with
      | .core => bitOf x.standMask (u / 60)
      | .merge => bitOf x.standMask u || it.target = u
      | _ => true)

/-- A MATMUL runs on a matrix engine alone (R260); a flow whose kernel runs on another kind of unit cannot take it there. -/
def State.misplaced (s : State) (k : UnitKind) (it : Item) : Bool :=
  k ≠ .me && match it.work with
    | .cmd id => (s.cmd? id).any fun c => c.opcode == 0x40
    | _ => false

/-- R81: the item can never run here: BAD_DESCRIPTOR, NO_RESOURCE, or OK where it can. -/
def State.targetCheck (s : State) (p : Nat) (x : Flow) (k : UnitKind) (it : Item) : Status :=
  if s.misplaced k it then .badDescriptor
  else if it.target = 0x7FF then
    if (s.div.units k p).2 = 0 || (k = .core && x.standMask % 2 ^ 20 = 0) then .noResource else .ok
  else if inRange (s.div.units k p) it.target && (k ≠ .core || bitOf x.standMask (it.target / 60)) then .ok
  else .badDescriptor

/-- The dispatch window: the 32 oldest queued items, in the pool; a strict-serial flow shows only its oldest (R86,
R101), and an ordered-release flow only items within its boom (R84). -/
def Flow.window (x : Flow) : List Item :=
  let w := (x.queued.take (if x.mode = .strict then 1 else 32)).filter (·.place != .yard)
  if x.mode = .ordered then w.filter fun it => (it.seq + 2 ^ 32 - x.releaseSeq) % 2 ^ 32 < x.boomSize else w

/-- The flow is ready (R84). -/
def Flow.ready (x : Flow) : Bool := !x.hold && !x.failed && x.running.length < x.maxInflight && !x.window.isEmpty

/-- The unit can take the item now, and the item may run there. -/
def State.fits (s : State) (p : Nat) (x : Flow) (k : UnitKind) (it : Item) (u : Nat) : Bool :=
  targetOk x k it u && s.takes p k u x.cls

/-- Units of a kind that an item names: one, or all that the partition holds. -/
def Division.targets (d : Division) (p : Nat) (k : UnitKind) (it : Item) : List Nat :=
  if it.target = 0x7FF then span (d.units k p).1 (d.units k p).2 else [it.target]

/-- The item is work for a unit: no hole, no end mark, no TARGET that can never take it (R81, R92). -/
def State.isWork (s : State) (p : Nat) (x : Flow) (k : UnitKind) (it : Item) : Bool :=
  it.status = .ok && it.work ≠ .endMark && s.targetCheck p x k it = .ok

/-- The item a flow has for the units of its kind: the oldest in its window whose target can take it (R86). -/
def State.offer (s : State) (p : Nat) (x : Flow) (k : UnitKind) : Option Item :=
  if x.ready then
    x.window.find? fun it => s.isWork p x k it && (s.div.targets p k it).any fun u => s.fits p x k it u
  else none

/-- The flow runs on a kind of unit. -/
def State.runsOn (s : State) (x : Flow) (k : UnitKind) : Bool := (s.kernelOf x).any (·.kind == k)

/-- A stopped slow-lane item of the flow can go on now: on unit `u`, or on any where none is given (R93). -/
def State.resumes (s : State) (p : Nat) (x : Flow) (k : UnitKind) (u? : Option Nat) : Bool :=
  !x.hold && x.slow.any fun it => it.stopped && (u?.all (· == it.unit)) && s.takes p k it.unit x.cls

/-- A partition's chipper ingest flow, which firmware owns (R352): a number beyond every flow ID. -/
def ingestFlow (p : Nat) : Nat := 2 ^ 18 + p

/-- What the chipper ingest flow offers a lane: its waiting units, at the priority each was enqueued with (R352, R362). -/
def State.unitOffers (s : State) (p : Nat) (u? : Option Nat) : List (Nat × Nat) :=
  if u?.all fun u => s.takes p .chipD u .bulk then (s.part p).chipUnits.map fun e => (ingestFlow p, e.2) else []

/-- The flows of a partition with work of a class for a unit, or for any unit of the kind where none is given, each with a
priority it competes at: its own, or 0 for a stopped slow-lane item, which competes as BULK (R85, R93). -/
def State.offers (s : State) (p : Nat) (k : UnitKind) (u? : Option Nat) (cls : FlowClass) : List (Nat × Nat) :=
  (((s.part p).flows.filter fun e => s.runsOn e.2 k).flatMap fun e =>
    (if e.2.cls = cls && (s.offer p e.2 k).any (fun it => u?.all fun u => s.fits p e.2 k it u) then [(e.1, e.2.prio)] else []) ++
      (if cls = .bulk && s.resumes p e.2 k u? then [(e.1, 0)] else [])) ++
    (if cls = .bulk && k = .chipD then s.unitOffers p u? else [])

/-- The counts of R499 over one run of dispatches: within its bounds for every priority of the ready set. -/
def runOk (ready run : List Nat) : Bool :=
  let w := (ready.map (2 ^ ·)).sum
  let n := run.length
  ready.all fun q =>
    let c := (run.filter (· == q)).length
    n * 2 ^ q / w ≤ c + 1 && c ≤ divUp (n * 2 ^ q) w + 1

/-- Serving a priority next keeps every run of dispatches within the bounds of R499, and leaves no ready priority
waiting for more than W dispatches. -/
def Turn.allows (t : Turn) (ready : List Nat) (q : Nat) : Bool :=
  let hist := q :: (if t.ready = ready then t.served else [])
  let w := (ready.map (2 ^ ·)).sum
  (List.range (hist.length + 1)).all (fun n => n = 0 || runOk ready (hist.take n)) &&
    ready.all fun r => r == q || hist.length ≤ w || (hist.take w).contains r

/-- The rotation of R85: a flow that was served waits until every other flow of its priority had its turn. -/
def Turn.inRotation (t : Turn) (f : Nat) (peers : List Nat) : Bool :=
  !t.flows.contains f || peers.all fun g => t.flows.contains g

/-- The priorities that hold ready work. -/
def prios (o : List (Nat × Nat)) : List Nat := (List.range 8).filter fun q => o.any (·.2 == q)

/-- Key of the dispatcher's turn state. -/
def turnKey (k : UnitKind) (q : Nat) : Nat := k.code * 16 + q

/-- The dispatcher's turn state of one key. -/
def Part.turn (x : Part) (key : Nat) : Turn := lookD x.turns key { ready := [], served := [], flows := [] }

/-- The dispatcher may take work of class `cls` and priority `prio` from flow `f` for this unit now (R85, R499): LAT first;
then BULK by weighted round robin, its bound counted over the units of the kind; MAINT only where nothing else is ready. -/
def State.mayServe (s : State) (p : Nat) (k : UnitKind) (u f : Nat) (cls : FlowClass) (prio : Nat) : Bool :=
  let lat := s.offers p k (some u) .lat
  let bulk := s.offers p k (some u) .bulk
  match cls with
  | .lat => true
  | .bulk =>
    lat.isEmpty && ((s.part p).turn (turnKey k 8)).allows (prios (s.offers p k none .bulk)) prio &&
      ((s.part p).turn (turnKey k prio)).inRotation f ((bulk.filter (·.2 == prio)).map (·.1))
  | .maint => lat.isEmpty && bulk.isEmpty

/-- Record a BULK dispatch in the turn state. -/
def State.noteTurn (s : State) (p : Nat) (k : UnitKind) (u f prio : Nat) : State :=
  let t := (s.part p).turn (turnKey k 8)
  let r := (s.part p).turn (turnKey k prio)
  let ready := prios (s.offers p k none .bulk)
  let peers := ((s.offers p k (some u) .bulk).filter (·.2 == prio)).map (·.1)
  let t' := { t with ready := ready, served := prio :: (if t.ready = ready then t.served else []) }
  let flows := if peers.all fun g => r.flows.contains g then [f] else f :: r.flows
  s.setPart p { s.part p with
    turns := setAt (setAt (s.part p).turns (turnKey k 8) t') (turnKey k prio) { r with flows := flows } }

/-! ### Stand links (R16, R17) -/

/-- One flit of an item's transfer enters a replay buffer. -/
def Link.send (x : Link) (f q : Nat) : Link := { x with next := x.next + 1, buffer := x.buffer ++ [(x.next, f, q)] }

/-- The flits of an item are acknowledged. -/
def Link.acknowledge (x : Link) (f q : Nat) : Link := { x with buffer := x.buffer.filter fun e => e.2 != (f, q) }

/-- Work sent to a unit on a stand crosses its link, and so does what comes back (R16). -/
def State.crossLink (s : State) (k : UnitKind) (u f q : Nat) : State :=
  match unitStand k u with
  | some n => let x := s.stand n
    s.setStand n { x with down := x.down.send f q, up := x.up.send f q }
  | none => s

/-- The transfers of an item that leaves its unit have all been acknowledged, and its prefetched bytes go with it. -/
def State.leaveUnit (s : State) (k : UnitKind) (u f q : Nat) : State :=
  let s := { s with prefetched := s.prefetched.filter fun e => !(e.2.flow == f && e.2.seq == q) }
  match unitStand k u with
  | some n => let x := s.stand n
    if (x.down.buffer ++ x.up.buffer).any (·.2 == (f, q)) then
      s.setStand n { x with down := x.down.acknowledge f q, up := x.up.acknowledge f q }
    else s
  | none => s

/-! ### Slots and engines take items (R86–R90) -/

/-- A LAT item that needs a slot LOADED with BULK work sends that item back to the head of its flow's queue: it keeps its
SEQ, and its prefetch is discarded (R88). -/
def State.returnLoaded (s : State) (c : Nat) : State :=
  let x := s.slots c
  let back (f q : Nat) (y : Slot × Slot) : State :=
    let p := s.div.flowPart f
    match s.flow? p f with
    | some w => match w.running.find? (·.seq == q) with
      | some it =>
        let w' := { w with
          running := w.running.filter (·.seq != q), queued := { it with unit := 0x7FF } :: w.queued }
        (((s.setFlow p f w').setSlots c y).leaveUnit .core c f q).bump (at_ Ob.PREFETCH_RETURNED p)
      | none => s.setSlots c y
    | none => s.setSlots c y
  if x.1.isEmpty || x.2.isEmpty then s
  else match x with
    | (.loaded f q, y) => if s.latFlow f then s else back f q (.empty, y)
    | (y, .loaded f q) => if s.latFlow f then s else back f q (y, .empty)
    | _ => s

/-- The first PREFETCH KiB of the payload of an item that a slot is LOADED with go to the slot's scratchpad area, over BULK
accesses (R90).  Where a word is uncorrectable nothing is kept, and the bolt meets the word itself. -/
def State.prefetch (s : State) (core slot : Nat) (p f q : Nat) : State :=
  match s.flow? p f with
  | none => s
  | some x => match x.running.find? (·.seq == q) with
    | none => s
    | some it =>
      let n := min (x.prefetch * 1024) it.len
      match it.work with
      | .rows _ =>
        if n = 0 then s
        else
          let r := s.vaultRead srcBulk it.arg0 n
          match r.1 with
          | some b => { r.2.sramWrite unitScratch (core * 2 ^ 32) n with
              prefetched := setAt r.2.prefetched (2 * core + slot) { flow := f, seq := q, bytes := b } }
          | none => r.2
      | _ => s

/-- Load an item into a slot of a core that is EMPTY (R87, R90). -/
def State.loadSlot (s : State) (p core f q : Nat) : State :=
  match s.slots core with
  | (.empty, y) => (s.setSlots core (.loaded f q, y)).prefetch core 0 p f q
  | (y, .empty) => (s.setSlots core (y, .loaded f q)).prefetch core 1 p f q
  | _ => s

/-- Put a dispatched item on its unit: an idle core starts it, a core that runs loads it; an engine queues it (R86–R89). -/
def State.place (s : State) (p : Nat) (k : UnitKind) (u f q : Nat) : State :=
  match k with
  | .core =>
    match s.slots u with
    | (.empty, .empty) => s.setSlots u (.running f q, .empty)
    | x => if x.1.isRunning || x.2.isRunning then s.loadSlot p u f q
      else match x with
        | (.empty, y) => s.setSlots u (.running f q, y)
        | (y, .empty) => s.setSlots u (y, .running f q)
        | _ => s
  | _ => s.setEngine k u (s.engine k u ++ [(f, q)])

/-- A command whose item is dispatched starts running. -/
def State.startWork (s : State) (w : Work) : State :=
  match w with
  | .cmd id => match s.cmd? id with
    | some c => if c.stage = .queued then s.setCmd { c with stage := .running } else s
    | none => s
  | _ => s

/-- An item of a flow goes to a unit: START is the tick of its first dispatch, and its transfers cross the unit's link (R80,
R86). -/
def State.issue (s : State) (p f : Nat) (x : Flow) (k : UnitKind) (u : Nat) (it : Item) : State :=
  let it' := { it with start := if it.begun then it.start else s.now % 65536, begun := true, unit := u }
  ((s.setFlow p f { x with queued := x.queued.filter (·.seq != it.seq), running := x.running ++ [it'],
                           lastTick := s.now % 65536, lastUse := s.now }).unblock p f it.seq).crossLink k u f it.seq

/-- Dispatch of an item to a unit, its choice already checked. -/
def State.dispatch (s : State) (p f : Nat) (x : Flow) (k : UnitKind) (u : Nat) (it : Item) : State :=
  ((s.issue p f x k u it).place p k u f it.seq).startWork it.work

/-- Resumption of a stopped slow-lane item on its unit (R93): on a core its state is read back from the slot spill area
first, and an item whose state cannot be read is to be released with UNCORRECTABLE. -/
def State.resume (s : State) (p f : Nat) (x : Flow) (k : UnitKind) (u : Nat) (it : Item) : State :=
  let r := if it.spilled then s.vaultRead srcBulk (s.div.slotSpill p u) slotSpillBytes else (some [], s)
  let slow := x.slow.map fun y => if y.seq = it.seq then
    { y with stopped := false, spilled := false, status := if r.1.isSome then y.status else .uncorrectable } else y
  (((r.2.setFlow p f { x with slow := slow }).unblock p f it.seq).crossLink k u f it.seq).place p k u f it.seq

/-! ### Slots at a bolt's end and at an edge (R88, R89) -/

/-- The item of a slot is still in flight. -/
def State.alive (s : State) (sl : Slot) : Bool :=
  match sl.item with
  | some (f, q) => match s.flow? (s.div.flowPart f) f with
    | some x => (x.inFlight? q).isSome
    | none => false
  | none => false

/-- Start a slot that holds stopped or loaded work. -/
def Slot.start : Slot → Slot
  | .loaded f q => .running f q
  | .parked f q => .running f q
  | sl => sl

/-- The core changes to its PARKED slot, else to its LOADED one (R89). -/
def switchSlots (x : Slot × Slot) : Slot × Slot :=
  if x.1.isParked then (x.1.start, x.2)
  else if x.2.isParked then (x.1, x.2.start)
  else if x.1.isLoaded then (x.1.start, x.2)
  else if x.2.isLoaded then (x.1, x.2.start)
  else x

/-- BOLT_END (R89): the running slot whose item has left is freed, and the core changes to its other slot. -/
def execBoltEnd (core : CoreNo) (s : State) : Host.Outcome State Fault Refusal :=
  let x := s.slots core.val
  let gone (sl : Slot) : Bool := sl.isRunning && !s.alive sl
  .next (
    if gone x.1 then s.setSlots core.val (switchSlots (.empty, x.2))
    else if gone x.2 then s.setSlots core.val (switchSlots (x.1, .empty))
    else s)

/-- At an edge a running bolt stops (R36). -/
def Slot.park : Slot → Slot
  | .running f q => .parked f q
  | sl => sl

/-- What a core changes to at an edge, its running bolt stopped: a stopped LAT bolt, a waiting LAT item, a PARKED BULK bolt,
a LOADED item (R88). -/
def State.edgeSlots (s : State) (y : Slot × Slot) : Slot × Slot :=
  let lat (sl : Slot) : Bool := match sl.item with | some (f, _) => s.latFlow f | none => false
  if y.1.isParked && lat y.1 then (y.1.start, y.2)
  else if y.2.isParked && lat y.2 then (y.1, y.2.start)
  else if y.1.isLoaded && lat y.1 then (y.1.start, y.2)
  else if y.2.isLoaded && lat y.2 then (y.1, y.2.start)
  else switchSlots y

/-- The LAT items that wait in their item entries for a core that has work: of each ready flow, those in its window that may
run there and that no idle core can take (R37, R87). -/
def State.latWaiting (s : State) (p core : Nat) : List (Nat × Flow × Item) :=
  ((s.part p).flows.filter fun e => e.2.cls == .lat && s.runsOn e.2 .core && e.2.ready).flatMap fun e =>
    (e.2.window.filter fun it => s.isWork p e.2 .core it && targetOk e.2 .core it core &&
      !((s.div.targets p .core it).any fun u => s.fits p e.2 .core it u)).map fun it => (e.1, e.2, it)

/-- At an edge a core that has work takes the longest-waiting LAT item into a slot that is EMPTY or LOADED with BULK work
(R87, R88). -/
def State.edgeTake (s : State) (core : Nat) : State :=
  let x := s.slots core
  let p := s.div.standPart (core / 60)
  if x == (.empty, .empty) || !(s.latSlot x.1 || s.latSlot x.2) || !s.unitUp p .core core || !s.standServes .core core then s
  else match (s.latWaiting p core).foldl (fun (b : Option (Nat × Flow × Item)) e => match b with
      | some c => if e.2.2.born < c.2.2.born then some e else b
      | none => some e) none with
    | none => s
    | some (f, _, it) =>
      let t := s.returnLoaded core
      match t.flow? p f with
      | some y => ((t.issue p f y .core core it).loadSlot p core f it.seq).startWork it.work
      | none => s

/-- The continuation state that a unit of a kind keeps of a stopped bolt (Table 2.1): values the manual leaves open. -/
def State.continuation (s : State) (k : UnitKind) : Option Saved :=
  let v (i : Nat) : Nat := Config.free (s.fresh + i)
  match k with
  | .core => some (.core (v 0 % 2 ^ 2048) ((List.range 32).map fun i => v (i + 1) % 2 ^ 512) (v 33 % 2 ^ 512))
  | .me => some (.matrix (v 0) (v 1))
  | .rd => some (.decoder (v 0 % 2 ^ 2048) (v 1))
  | .pe => some (.pattern (v 0) (v 1))
  | .copyEngine => some (.copy (v 0) (v 1))
  | _ => none

/-- The item that a unit runs, of a partition's flow: it stops at the edge and its state is kept (R36). -/
def State.stopBolt (s : State) (k : UnitKind) (f q : Nat) : State :=
  let p := s.div.flowPart f
  match s.flow? p f with
  | none => s
  | some x =>
    let keep (l : List Item) : List Item := l.map fun it => if it.seq = q then { it with saved := s.continuation k } else it
    { s with fresh := s.fresh + 34 }.setFlow p f { x with running := keep x.running, slow := keep x.slow }

/-- Every bolt that runs at an edge stops, with its continuation state kept (R36, Table 2.1). -/
def State.stopBolts (s : State) : State :=
  let running (x : Slot × Slot) : List (Nat × Nat) := ([x.1, x.2].filter (·.isRunning)).filterMap (·.item)
  let s := (s.cores.flatMap fun e => running e.2).foldl (fun (t : State) y => t.stopBolt .core y.1 y.2) s
  let kinds : List UnitKind := [.me, .rd, .pe, .copyEngine]
  let heads := kinds.flatMap fun k =>
    (s.engines.filter fun e => e.1 / 2048 == k.code).flatMap fun e => [0, 1].filterMap fun p =>
      (e.2.filter fun y => s.div.flowPart y.1 == p).head?.map fun y => (k, y)
  let s := heads.foldl (fun (t : State) y => t.stopBolt y.1 y.2.1 y.2.2) s
  { s with cores := s.cores.map fun e => (e.1, (e.2.1.park, e.2.2.park)) }

/-! ### The slow lane (R93) -/

/-- Age of an item in ticks, modulo 65,536 (R81). -/
def State.age (s : State) (it : Item) : Nat := (s.now + 65536 - it.start) % 65536

/-- A unit gives up an item: a slot of its core is emptied, or it leaves its engine's queue. -/
def State.unplace (s : State) (k : UnitKind) (u f q : Nat) : State :=
  let s := s.leaveUnit k u f q
  match k with
  | .core =>
    let x := s.slots u
    if x.1.item = some (f, q) then s.setSlots u (switchSlots (.empty, x.2))
    else if x.2.item = some (f, q) then s.setSlots u (switchSlots (x.1, .empty))
    else s
  | _ => s.setEngine k u ((s.engine k u).filter (· != (f, q)))

/-- A slot of the core holds the item as one that has not started. -/
def State.notStarted (s : State) (core f q : Nat) : Bool :=
  s.slots core |> fun x => x.1 == .loaded f q || x.2 == .loaded f q

/-- SLOW_LANE (R93): an in-flight item of an ordered-release flow whose age has reached SOFT_BUDGET.  On a core the state of
a stopped bolt goes to the yard: a slot spill. -/
def execSlowLane (flow : FlowNo) (seq : Nat) (s : State) : Host.Outcome State Fault Refusal :=
  let f := flow.val
  let p := s.div.flowPart f
  .next (match s.flow? p f with
    | some x =>
      match x.running.find? (·.seq == seq), s.kernelOf x with
      | some it, some kn =>
        if x.mode = .ordered && x.softBudget ≤ s.age it then
          let spills := kn.kind = .core && !s.notStarted it.unit f seq
          let area := s.div.slotSpill p it.unit
          let s := s.setFlow p f { x with
            running := x.running.filter (·.seq != seq)
            slow := x.slow ++ [{ it with slow := true, stopped := true, spilled := spills }] }
          let s := (s.unplace kn.kind it.unit f seq).bump (at_ Ob.SLOW_ENTRIES p)
          if spills then (s.freshen area slotSpillBytes).bump (at_ Ob.SLOT_SPILLS p) else s
        else s
      | _, _ => s
    | none => s)

/-! ### The context image (Table 4.1) -/

/-- A 512-bit context image as a number. -/
def ctxField (v hi lo : Nat) : Nat := bitsOf v hi lo

/-- The bits of a context that an opener writes: every other bit must be zero (R79). -/
def ctxReserved (v : Nat) : Bool :=
  ctxField v 0 0 ≠ 0 || ctxField v 15 8 ≠ 0 || ctxField v 159 88 ≠ 0 && (ctxField v 95 88 ≠ 0 || ctxField v 159 96 ≠ 0)
    || ctxField v 207 197 ≠ 0 || ctxField v 447 224 ≠ 0

/-- The mode of a context's MODE field. -/
def modeOf : Nat → FlowMode
  | 0 => .unordered | 1 => .ordered | _ => .strict

/-- The class of a context's CLASS field. -/
def classOf : Nat → FlowClass
  | 0 => .bulk | 1 => .lat | _ => .maint

/-- R82 step 2, with the added check of R120. -/
def State.ctxForm (s : State) (p id v : Nat) : Bool :=
  let mode := ctxField v 2 1
  let cls := ctxField v 4 3
  let dk := ctxField v 75 74
  let mask := ctxField v 35 16
  let own := (List.range 20).foldl (fun m n => if s.div.standPart n = p then m + 2 ^ n else m) 0
  !ctxReserved v && mode ≠ 3 && cls ≠ 3 && ((cls = 1) = s.div.isLatId id) &&
    !(cls = 1 && (mode ≠ 0 || ctxField v 7 5 ≠ 0 || dk ≤ 1)) &&
    (mask &&& own) = mask &&
    !(dk = 1 && !inRange (s.div.flowRange p) (ctxField v 73 56)) &&
    !(dk ≠ 1 && ctxField v 73 56 ≠ 0) && !(dk ≠ 2 && ctxField v 87 76 ≠ 0) &&
    !(dk = 2 && 256 ≤ ctxField v 87 76)

/-- R82 step 3: the mode rules. -/
def ctxModes (v : Nat) : Bool :=
  let mode := ctxField v 2 1
  let boom := ctxField v 172 160
  let infl := ctxField v 185 173
  let soft := ctxField v 196 186
  let hard := ctxField v 223 208
  1 ≤ infl && infl ≤ 4096 &&
    (if mode = 1 then 1 ≤ boom && boom ≤ 4096 && 1 ≤ soft && soft < hard
     else boom = 0 && soft = 0 && hard = 0 && !(mode = 2 && infl ≠ 1))

/-- The open flow a context image gives (R82). -/
def flowOf (v owner : Nat) (hold : Bool) (now : Nat) : Flow :=
  { mode := modeOf (ctxField v 2 1), cls := classOf (ctxField v 4 3), prio := ctxField v 7 5, owner := owner,
    resident := false, store := 0, hold := hold, closing := false, failed := false, standMask := ctxField v 35 16,
    prefetch := ctxField v 39 36, kernel := ctxField v 55 40, destFlow := ctxField v 73 56,
    destKind := ctxField v 75 74, destRing := ctxField v 87 76, nextSeq := 0, releaseSeq := 0,
    boomSize := ctxField v 172 160, maxInflight := ctxField v 185 173, softBudget := ctxField v 196 186,
    hardLimit := ctxField v 223 208, lastTick := 0, lastUse := now, done := 0, drops := 0,
    user := ctxField v 511 448, queued := [], running := [], slow := [], held := [] }

/-- Open a flow with a checked image (R82): its context takes a place in the store, which a caller makes sure there is
(R99), and a LAT flow's stays there (R103). -/
def State.openFlow (s : State) (p id v owner : Nat) (hold : Bool) : State :=
  let s := (s.setPart p { s.part p with flows := setAt (s.part p).flows id (flowOf v owner hold s.now) }).freshen
    (s.div.homeAddr p id) 64
  ((s.touch p id).getD s).flowGauges p

/-- The checks of a FLOW_OPEN by a principal (R82): `who` is 0 for M and firmware, 1 for A, 2 for B; `p` is the partition a
host writes for.  DESIGN CHOICE (log 160): an ID of 262,144 or more, which lies in no partition, gives M, whose partition the
rule does not name, BAD_DESCRIPTOR. -/
def State.openCheck (s : State) (who p : Nat) (value : Bytes) : Status :=
  let id := leAt value 0 4
  let v := leNat (sliceB value 4 64)
  let fp := s.div.flowPart id
  firstFail [
    (262144 ≤ id, if who = 0 then .badDescriptor else .notPermitted),
    (who ≠ 0 && fp ≠ p, .notPermitted),
    (ctxField v 4 3 = 2, .notPermitted),
    (!s.ctxForm fp id v, .badDescriptor),
    (!ctxModes v, .badDescriptor),
    ((s.flow? fp id).isSome || (s.part fp).waits.any (·.1 == id), .resourceHeld)]

/-- The 64 B context of a flow ID as FLOW_PEEK returns it (Table 4.1).  A closed flow's context is all zero. -/
def State.contextBytes (s : State) (p id : Nat) : Bytes :=
  match s.flow? p id with
  | none => List.replicate 64 0
  | some x =>
    let place (it? : Option Item) : Nat := match it? with
      | none => 0xFFFFFFFF
      | some it => (if it.place = .yard then 2 ^ 31 else 0) + it.entry
    let mode := match x.mode with | .unordered => 0 | .ordered => 1 | .strict => 2
    let cls := match x.cls with | .bulk => 0 | .lat => 1 | .maint => 2
    let f (v lo : Nat) : Nat := v * 2 ^ lo
    leBytes 64 (1 + f mode 1 + f cls 3 + f x.prio 5 + f x.owner 8 + f (b2n (x.cls = .lat)) 10 +
      f (b2n x.resident) 11 + f (b2n x.hold) 12 + f (b2n x.closing) 13 + f x.standMask 16 + f x.prefetch 36 +
      f x.kernel 40 + f x.destFlow 56 + f x.destKind 74 + f x.destRing 76 + f x.nextSeq 96 + f x.releaseSeq 128 +
      f x.boomSize 160 + f x.maxInflight 173 + f x.softBudget 186 + f x.hardLimit 208 +
      f x.running.length 224 + f x.held.length 237 + f x.slow.length 250 + f x.queued.length 263 +
      f (place x.queued.head?) 288 + f (place x.queued.getLast?) 320 + f x.lastTick 352 + f x.done 368 +
      f x.drops 400 + f x.user 448)

/-- HOLD (R96): at a tick edge firmware makes the oldest change of HOLD that a pending action asks for on the flow, once its
context is resident (R99). -/
def execHold (flow : FlowNo) (s : State) : Host.Outcome State Fault Refusal :=
  let f := flow.val
  let p := s.div.flowPart f
  .next (match (s.part p).holds.find? fun e => e.1 == f && decide (s.since e.2.2 < 2 ^ 47) with
    | none => s
    | some e => match s.touch p f with
      | none => s.block p f (2 ^ 32)
      | some t =>
        let t := (t.setPart p { t.part p with holds := (t.part p).holds.erase e }).unblock p f (2 ^ 32)
        match t.flow? p f with
        | some x => t.setFlow p f { x with hold := e.2.1 }
        | none => t)

/-! ### Flow commands (R118–R120) -/

/-- A command that passed its checks joins its flow as an item for any unit, or completes with the status of the
enqueue (R81, R102, R103).  DESIGN CHOICE (log 29): TARGET is 0x7FF, and LEN, ARG0 and ARG1 are 0; the manual does not say what
the port writes there. -/
def State.admitItem (s : State) (c : Cmd) : State :=
  let r := s.enqueue c.part c.flow (mkItem 0x7FF c.tag 0 0 0 .ok (.cmd c.id))
  if r.1 = .ok then r.2.setCmd { c with stage := .queued } else r.2.finish c.id r.1 0

/-- A flow command's own checks: the first failure completes it, else it joins its flow. -/
def State.admitIf (s : State) (c : Cmd) (st : Status) : State := if st = .ok then s.admitItem c else s.finish c.id st 0

/-- A flow command's work is done: its item completes with this status and RESULT. -/
def State.workDone (s : State) (c : Cmd) (st : Status) (result : Nat) : State :=
  s.setCmd { (s.cmd? c.id).getD c with stage := .done st result, status := st }

/-- The flow of a command is of class LAT. -/
def State.cmdLat (s : State) (c : Cmd) : Bool := s.latFlow c.flow

/-- The kernel of a command's flow. -/
def State.cmdKernel (s : State) (c : Cmd) : Option Kernel := (s.flow? c.part c.flow).bind s.kernelOf

/-- Split bytes at 8 B boundaries of their address. -/
def wordPieces : Nat → Nat → Bytes → List (Nat × Bytes)
  | 0, _, _ => []
  | fuel + 1, a, bs =>
    if bs.isEmpty then [] else (a, bs.take (8 - a % 8)) :: wordPieces fuel (a + (8 - a % 8)) (bs.drop (8 - a % 8))

/-- Write output bytes of a command to one place, device or host memory; true where every byte was written (R59, R129). -/
def State.putPiece (s : State) (c : Cmd) (dev : Bool) (addr : Nat) (bs : Bytes) : Bool × State :=
  if dev then s.devWrite c.part addr bs else (true, s.dmaWrite c.id c.port addr bs)

/-- Write output bytes of a command.  Where a transfer of the command failed with its link, each destination word is left
either fully old or fully new, and the manual leaves open which (R18). -/
def State.putOut (s : State) (c : Cmd) (dev : Bool) (addr : Nat) (bs : Bytes) : Bool × State :=
  if !c.cut then s.putPiece c dev addr bs
  else (wordPieces (bs.length + 1) addr bs).foldl (fun (acc : Bool × State) x =>
    let r := acc.2.free
    if r.1 % 2 = 1 then
      let w := r.2.putPiece c dev x.1 x.2
      (acc.1 && w.1, w.2)
    else (acc.1, r.2)) (true, s)

/-- The item of a unit that runs: a core's running slot, or the oldest item of the partition on an engine.  Nothing goes on
while the unit's stand serves no work (R17, R45). -/
def State.onUnit (s : State) (k : UnitKind) (u p f q : Nat) : Bool :=
  s.standServes k u &&
  match k with
  | .core => let x := s.slots u
    (x.1.isRunning && x.1.item == some (f, q)) || (x.2.isRunning && x.2.item == some (f, q))
  | _ => ((s.engine k u).filter fun e => s.div.flowPart e.1 == p).head? == some (f, q)

/-- The item of a command in flight. -/
def State.cmdItem (s : State) (c : Cmd) : Option Item :=
  (s.flow? c.part c.flow).bind fun x => (x.running ++ x.slow).find? fun it => it.work == .cmd c.id && !it.stopped

/-- The unit that a command's item runs on. -/
def State.unitOf (s : State) (c : Cmd) : Nat := ((s.cmdItem c).map (·.unit)).getD 0

/-- A device range of the command lies in a stand that a maintenance period covers: its accesses wait (R45). -/
def State.rangeInMaint (s : State) (c : Cmd) : Bool :=
  s.ticks.maint.isSome && c.devRanges.any fun r => (s.devPieces c.part r.1 r.2).any fun q =>
    s.inMaint (daStand q.1) || s.inMaint (daStand (q.1 + q.2 - 1))

/-- A flow command of an opcode whose item runs on its unit. -/
def State.atWork (s : State) (id opcode : Nat) : Option Cmd :=
  match s.cmd? id with
  | some c =>
    if c.opcode = opcode && c.stage = .running && !s.rangeInMaint c && s.dmaReady c && (s.cmdLat c || s.classRuns .bulk) &&
        (match s.cmdItem c, s.cmdKernel c with
          | some it, some k => s.onUnit k.kind it.unit c.part c.flow it.seq
          | _, _ => false) then some c else none
  | none => none

end Sys2Proof.Machine
end

