-- ==== Sys2Proof/Machine/Float.lean ====
section
/-!
DEFINITION. Binary floating point by exact fractions: the value of a pattern, and rounding to nearest, ties to even.
-/
namespace Sys2Proof.Machine

/-! ### Exact fractions -/

/-- A fraction, not reduced; its denominator is positive. -/
structure Fr where
  n : Int
  d : Nat
deriving DecidableEq, Repr

/-- A whole number as a fraction. -/
def Fr.ofInt (n : Int) : Fr := ⟨n, 1⟩

/-- The fraction 0. -/
def Fr.zero : Fr := ⟨0, 1⟩

/-- Sum; denominators that divide one another are not multiplied. -/
def Fr.add (x y : Fr) : Fr :=
  if y.d % x.d = 0 then ⟨x.n * (y.d / x.d : Nat) + y.n, y.d⟩
  else if x.d % y.d = 0 then ⟨x.n + y.n * (x.d / y.d : Nat), x.d⟩
  else ⟨x.n * y.d + y.n * x.d, x.d * y.d⟩

/-- Negation, difference, product. -/
def Fr.neg (x : Fr) : Fr := ⟨-x.n, x.d⟩
def Fr.sub (x y : Fr) : Fr := x.add y.neg
def Fr.mul (x y : Fr) : Fr := ⟨x.n * y.n, x.d * y.d⟩

/-- Quotient; 0 for a zero divisor. -/
def Fr.div (x y : Fr) : Fr :=
  if y.n = 0 then Fr.zero else if 0 < y.n then ⟨x.n * y.d, x.d * y.n.toNat⟩ else ⟨-(x.n * y.d), x.d * (-y.n).toNat⟩

/-- Order of fractions. -/
def Fr.lt (x y : Fr) : Bool := x.n * y.d < y.n * x.d
def Fr.le (x y : Fr) : Bool := x.n * y.d ≤ y.n * x.d
def Fr.eq (x y : Fr) : Bool := x.n * y.d == y.n * x.d

/-- Magnitude. -/
def Fr.abs (x : Fr) : Fr := ⟨x.n.natAbs, x.d⟩

/-- Floor and truncation to whole numbers. -/
def Fr.floor (x : Fr) : Int := Int.fdiv x.n x.d
def Fr.trunc (x : Fr) : Int := Int.tdiv x.n x.d

/-- 2 to an integer power. -/
def Fr.pow2 (e : Int) : Fr := if 0 ≤ e then ⟨(2 ^ e.toNat : Nat), 1⟩ else ⟨1, 2 ^ (-e).toNat⟩

/-! ### Formats -/

/-- A binary floating-point format: exponent and fraction widths, and the exponent bias. -/
structure FpFmt where
  expW : Nat
  fracW : Nat
  bias : Int
deriving DecidableEq, Repr

/-- FP32 (IEEE 754 binary32). -/
def fp32 : FpFmt := { expW := 8, fracW := 23, bias := 127 }
/-- BF16. -/
def bf16 : FpFmt := { expW := 8, fracW := 7, bias := 127 }

/-- The sign bit, exponent field and fraction field of a pattern. -/
def fpSign (f : FpFmt) (b : Nat) : Bool := bitOf b (f.expW + f.fracW)
def fpExp (f : FpFmt) (b : Nat) : Nat := b / 2 ^ f.fracW % 2 ^ f.expW
def fpFrac (f : FpFmt) (b : Nat) : Nat := b % 2 ^ f.fracW

/-- The magnitude of exponent and fraction fields, read as a finite number. -/
def fpMag (f : FpFmt) (e m : Nat) : Fr :=
  if e = 0 then (Fr.ofInt m).mul (Fr.pow2 (1 - f.bias - f.fracW))
  else (Fr.ofInt (2 ^ f.fracW + m : Nat)).mul (Fr.pow2 (e - f.bias - f.fracW))

/-- The value of a pattern, all exponents finite. -/
def fpVal (f : FpFmt) (b : Nat) : Fr :=
  if fpSign f b then (fpMag f (fpExp f b) (fpFrac f b)).neg else fpMag f (fpExp f b) (fpFrac f b)

/-- IEEE infinity or NaN patterns: the top exponent. -/
def fpSpecial (f : FpFmt) (b : Nat) : Bool := fpExp f b == 2 ^ f.expW - 1
def fpNan (f : FpFmt) (b : Nat) : Bool := fpSpecial f b && fpFrac f b != 0
def fpInf (f : FpFmt) (b : Nat) : Bool := fpSpecial f b && fpFrac f b == 0

/-! ### Rounding -/

/-- Round n/d to the nearest whole number, ties to even. -/
def roundDiv (n d : Nat) : Nat :=
  let q := n / d
  let r := 2 * (n % d)
  if r < d then q else if d < r then q + 1 else if q % 2 = 0 then q else q + 1

/-- ⌊log2 (n/d)⌋ of a positive fraction. -/
def log2Div (n d : Nat) : Int :=
  let g : Int := (n.log2 : Int) - (d.log2 : Int)
  if (if 0 ≤ g then d * 2 ^ g.toNat ≤ n else d ≤ n * 2 ^ (-g).toNat) then g else g - 1

/-- Round a non-negative fraction to a multiple of 2^e, to nearest even: how many. -/
def roundAt (n d : Nat) (e : Int) : Nat :=
  if 0 ≤ e then roundDiv n (d * 2 ^ e.toNat) else roundDiv (n * 2 ^ (-e).toNat) d

/-- The exponent and fraction fields of a magnitude n/d rounded to nearest even; a carry moves into the exponent, and
a magnitude beyond the largest finite one runs past it. -/
def fpPackMag (f : FpFmt) (n d : Nat) : Nat :=
  if n = 0 then 0
  else
    let e := max (log2Div n d) (1 - f.bias)
    let m := roundAt n d (e - f.fracW)
    ((e + f.bias - 1) * 2 ^ f.fracW + m).toNat

/-- The pattern of a fraction in an IEEE format, infinity where it overflows; a zero keeps the sign `neg`. -/
def fpPack (f : FpFmt) (x : Fr) (neg : Bool := false) : Nat :=
  let m := min (fpPackMag f x.n.natAbs x.d) ((2 ^ f.expW - 1) * 2 ^ f.fracW)
  m + (if x.n < 0 || (x.n = 0 && neg) then 2 ^ (f.expW + f.fracW) else 0)

end Sys2Proof.Machine
end

