-- ==== Sys2Proof/Machine/Formats.lean ====
section
/-!
DEFINITION. The element formats: layouts, block scaling, rounding, conversion and FP32 arithmetic (R248–R259).
-/
namespace Sys2Proof.Machine

/-! ### Formats (Table 10.1, Table 10.2) -/

/-- FP16, FP8 E4M3, FP8 E5M2 and the FP4 E2M1 element (Table 10.2). -/
def fp16 : FpFmt := { expW := 5, fracW := 10, bias := 15 }
def e4m3 : FpFmt := { expW := 4, fracW := 3, bias := 7 }
def e5m2 : FpFmt := { expW := 5, fracW := 2, bias := 15 }
def fp4 : FpFmt := { expW := 2, fracW := 1, bias := 1 }

/-- How the elements of a format code are laid out. -/
inductive Elem where
  /-- A floating-point element, with the largest finite pattern, whether it has infinities, and the canonical NaN. -/
  | float (f : FpFmt) (top : Nat) (inf : Bool) (nan : Nat)
  /-- A two's complement integer of `w` bits. -/
  | int (w : Nat)
  /-- An MX block of elements of a floating-point element, or of 4-bit integers × 2^−2. -/
  | mx (e : FpFmt) (w top emax : Nat)
  | mxInt
deriving DecidableEq, Repr

/-- The format of a code of Table 10.1; none for a code that is absent. -/
def elemFmt : Nat → Option Elem
  | 0x0 => some (.float fp32 0x7F7FFFFF true 0x7FC00000)
  | 0x1 => some (.float bf16 0x7F7F true 0x7FC0)
  | 0x2 => some (.float fp16 0x7BFF true 0x7E00)
  | 0x3 => some (.float e4m3 0x7E false 0x7F)
  | 0x4 => some (.float e5m2 0x7B true 0x7E)
  | 0x5 => some (.mx e4m3 8 0x7E 8)
  | 0x6 => some (.mx e5m2 8 0x7B 15)
  | 0x7 => some (.mx fp4 4 0x7 2)
  | 0x8 => some .mxInt
  | 0x9 => some (.int 4)
  | 0xA => some (.int 8)
  | 0xB => some (.int 32)
  | 0xC => some (.int 64)
  | _ => none

/-- Block-scaled formats. -/
def isMx (fmt : Nat) : Bool := 5 ≤ fmt && fmt ≤ 8

/-- Bits of an element of a format that is not block-scaled. -/
def elemBits : Nat → Nat
  | 0x0 => 32 | 0x1 => 16 | 0x2 => 16 | 0x3 => 8 | 0x4 => 8 | 0x9 => 4 | 0xA => 8 | 0xB => 32 | 0xC => 64
  | _ => 0

/-- Bytes of a vector of `n` elements (Table 10.1, R250, R252). -/
def vecBytes (fmt n : Nat) : Nat :=
  if fmt = 5 || fmt = 6 then 33 * divUp n 32 else if fmt = 7 || fmt = 8 then 17 * divUp n 32
  else divUp (n * elemBits fmt) 8

/-! ### Values -/

/-- A number as arithmetic sees it: NaN, an infinity, or a finite value with the sign a zero keeps. -/
inductive FVal where
  | nan
  | inf (neg : Bool)
  | fin (neg : Bool) (x : Fr)
deriving DecidableEq, Repr

/-- A finite value. -/
def FVal.of (x : Fr) : FVal := .fin (x.n < 0) x

/-- Positive zero. -/
def FVal.zero : FVal := .fin false Fr.zero

/-- The value of a floating-point pattern whose infinities and NaN are as Table 10.2 gives them. -/
def floatVal (f : FpFmt) (inf : Bool) (nan b : Nat) : FVal :=
  let s := fpSign f b
  if inf && fpSpecial f b then (if fpFrac f b = 0 then .inf s else .nan)
  else if b % 2 ^ (f.expW + f.fracW) = nan && !inf then .nan
  else .fin s (fpVal f b)

/-- The value of an FP32 pattern (R255: subnormals at full value). -/
def val32 (b : Nat) : FVal := floatVal fp32 true 0x7FC00000 b

/-- The number of a two's complement pattern of `w` bits. -/
def signed (w b : Nat) : Int :=
  if 2 ^ (w - 1) ≤ b % 2 ^ w then (b % 2 ^ w : Nat) - (2 ^ w : Nat) else (b % 2 ^ w : Nat)

/-- The value of a two's complement pattern. -/
def intVal (w b : Nat) : FVal := .of (Fr.ofInt (signed w b))

/-- Sum (R256): a zero is −0 only where both terms are negative. -/
def FVal.add : FVal → FVal → FVal
  | .nan, _ => .nan
  | _, .nan => .nan
  | .inf a, .inf b => if a = b then .inf a else .nan
  | .inf a, _ => .inf a
  | _, .inf b => .inf b
  | .fin a x, .fin b y =>
    let z := x.add y
    if z.n = 0 then .fin (a && b && x.n = 0 && y.n = 0) z else .of z

/-- Product; ∞ × 0 is NaN. -/
def FVal.mul : FVal → FVal → FVal
  | .nan, _ => .nan
  | _, .nan => .nan
  | .inf a, .inf b => .inf (a != b)
  | .inf a, .fin b y => if y.n = 0 then .nan else .inf (a != b)
  | .fin a x, .inf b => if x.n = 0 then .nan else .inf (a != b)
  | .fin a x, .fin b y => .fin (a != b) (x.mul y)

/-- Negation. -/
def FVal.neg : FVal → FVal
  | .nan => .nan
  | .inf a => .inf (!a)
  | .fin a x => .fin (!a) x.neg

/-- Quotient; x ÷ 0 is an infinity, 0 ÷ 0 and ∞ ÷ ∞ are NaN (IEEE 754). -/
def FVal.div : FVal → FVal → FVal
  | .nan, _ => .nan
  | _, .nan => .nan
  | .inf _, .inf _ => .nan
  | .inf a, .fin b _ => .inf (a != b)
  | .fin a _, .inf b => .fin (a != b) Fr.zero
  | .fin a x, .fin b y =>
    if y.n = 0 then (if x.n = 0 then .nan else .inf (a != b)) else .fin (a != b) (x.div y)

/-- The scale of a finite value by a power of two. -/
def FVal.scale (e : Int) : FVal → FVal
  | .fin a x => .fin a (x.mul (Fr.pow2 e))
  | v => v

/-- A finite value. -/
def FVal.isFin : FVal → Bool
  | .fin _ _ => true
  | _ => false

/-- NaN. -/
def FVal.isNan : FVal → Bool
  | .nan => true
  | _ => false

/-- The sign of a value. -/
def FVal.isNeg : FVal → Bool
  | .nan => false
  | .inf a => a
  | .fin a _ => a

/-- BULK order of R207: −∞, finite, +∞, NaN above; all NaN equal, and so are the zeros. -/
def FVal.lt : FVal → FVal → Bool
  | .nan, _ => false
  | _, .nan => true
  | .inf a, .inf b => a && !b
  | .inf a, .fin _ _ => a
  | .fin _ _, .inf b => !b
  | .fin _ x, .fin _ y => x.lt y

/-! ### Rounding an arithmetic result (R253, R255, R256) -/

/-- An arithmetic result in FP32 or BF16: nearest even, overflow to infinity, a subnormal result to a zero of its
sign. -/
def FVal.round (f : FpFmt) : FVal → Nat
  | .nan => (2 ^ f.expW - 1) * 2 ^ f.fracW + 2 ^ (f.fracW - 1)
  | .inf a => (2 ^ f.expW - 1) * 2 ^ f.fracW + (if a then 2 ^ (f.expW + f.fracW) else 0)
  | .fin a x =>
    let s := if a then 2 ^ (f.expW + f.fracW) else 0
    let m := min (fpPackMag f x.n.natAbs x.d) ((2 ^ f.expW - 1) * 2 ^ f.fracW)
    if m < 2 ^ f.fracW then s else s + m

/-- An FP32 arithmetic result. -/
def FVal.r32 (v : FVal) : Nat := v.round fp32

/-- FP32 sum, product, fused multiply-add a × b + c, on patterns. -/
def add32 (a b : Nat) : Nat := ((val32 a).add (val32 b)).r32
def mul32 (a b : Nat) : Nat := ((val32 a).mul (val32 b)).r32
def fma32 (a b c : Nat) : Nat := (((val32 a).mul (val32 b)).add (val32 c)).r32
def sub32 (a b : Nat) : Nat := ((val32 a).add (val32 b).neg).r32
def div32 (a b : Nat) : Nat := ((val32 a).div (val32 b)).r32

/-- A result that is one of its operands: every NaN is the canonical one (R256). -/
def nan32 (b : Nat) : Nat := if fpNan fp32 b then 0x7FC00000 else b

/-- max(x, +0) of R265: −0 becomes +0 and NaN stays NaN. -/
def relu32 (a : Nat) : Nat :=
  match val32 a with
  | .nan => nan32 a
  | v => if v.isNeg then 0 else a

/-- A pattern in the BULK order of R207: the first ranks below the second. -/
def lt32 (a b : Nat) : Bool := (val32 a).lt (val32 b)

/-! ### Conversion (R253, R254, R257, Table 10.3) -/

/-- Counts of conversions: CONV_SAT, NAN_TO_INT, MX_NAN_BLOCKS. -/
structure Tally where
  sat : Nat
  nanInt : Nat
  mxNan : Nat
deriving DecidableEq, Repr

/-- Nothing counted. -/
def Tally.zero : Tally := { sat := 0, nanInt := 0, mxNan := 0 }

/-- Counts taken together. -/
def Tally.add (a b : Tally) : Tally :=
  { sat := a.sat + b.sat, nanInt := a.nanInt + b.nanInt, mxNan := a.mxNan + b.mxNan }

/-- A positive fraction in units of 2^e: rounded to nearest even, or with the 16 random bits of R254. -/
def roundUnits (rnd : Option Nat) (n d : Nat) (e : Int) : Nat :=
  match rnd with
  | none => roundAt n d e
  | some r =>
    let num := if 0 ≤ e then n else n * 2 ^ (-e).toNat
    let den := if 0 ≤ e then d * 2 ^ e.toNat else d
    let t := num / den
    let low := num % den * 65536 / den
    if 65536 ≤ low + r then t + 1 else t

/-- Exponent and fraction fields of a magnitude in a format, the exponent range taken as unbounded above. -/
def convMag (f : FpFmt) (rnd : Option Nat) (n d : Nat) : Nat :=
  if n = 0 then 0
  else
    let e := max (log2Div n d) (1 - f.bias)
    ((e + f.bias - 1) * 2 ^ f.fracW + roundUnits rnd n d (e - f.fracW)).toNat

/-- Conversion of a value to a floating-point format (Table 10.3). -/
def toFloat (f : FpFmt) (top : Nat) (inf : Bool) (nan : Nat) (rnd : Option Nat) (v : FVal) : Nat × Tally :=
  let sign (a : Bool) : Nat := if a then 2 ^ (f.expW + f.fracW) else 0
  match v with
  | .nan => (nan, Tally.zero)
  | .inf a =>
    if inf then (sign a + (2 ^ f.expW - 1) * 2 ^ f.fracW, Tally.zero)
    else (sign a + top, { Tally.zero with sat := 1 })
  | .fin a x =>
    let m := convMag f rnd x.n.natAbs x.d
    if top < m then (sign a + top, { Tally.zero with sat := 1 }) else (sign a + m, Tally.zero)

/-- Conversion of a value to FP32. -/
def to32 (v : FVal) : Nat × Tally := toFloat fp32 0x7F7FFFFF true 0x7FC00000 none v

/-- Saturate a whole number to `w` bits two's complement: the pattern, and whether it saturated. -/
def clampInt (w : Nat) (x : Int) : Nat × Bool :=
  if x < -(2 ^ (w - 1) : Nat) then (2 ^ (w - 1), true)
  else if (2 ^ (w - 1) : Nat) ≤ x then (2 ^ (w - 1) - 1, true)
  else ((x % (2 ^ w : Nat)).toNat, false)

/-- A finite fraction rounded to a whole number. -/
def roundInt (rnd : Option Nat) (x : Fr) : Int :=
  let m := roundUnits rnd x.n.natAbs x.d 0
  if x.n < 0 then -(m : Int) else m

/-- Conversion of a value to INT8 or INT4: an infinity gives the nearer limit, NaN gives 0 and is counted. -/
def toInt (w : Nat) (rnd : Option Nat) (v : FVal) : Nat × Tally :=
  match v with
  | .nan => (0, { Tally.zero with nanInt := 1 })
  | .inf a => (if a then 2 ^ (w - 1) else 2 ^ (w - 1) - 1, Tally.zero)
  | .fin _ x =>
    let r := clampInt w (roundInt rnd x)
    (r.1, { Tally.zero with sat := b2n r.2 })

/-- Conversion of a value to I32 or I64 (EXPR FTOI, PROJECT): none for NaN. -/
def toI (w : Nat) (v : FVal) : Option Nat × Tally :=
  match v with
  | .nan => (none, Tally.zero)
  | v => let r := toInt w none v; (some r.1, r.2)

/-! ### Vectors of elements (R250, R251, R252) -/

/-- Little-endian elements of `w` bits packed from bit 0. -/
def unpack (w : Nat) : Nat → Nat → List Nat
  | 0, _ => []
  | n + 1, v => v % 2 ^ w :: unpack w n (v / 2 ^ w)

/-- Pack elements of `w` bits from bit 0. -/
def pack (w : Nat) : List Nat → Nat
  | [] => 0
  | x :: xs => x % 2 ^ w + 2 ^ w * pack w xs

/-- The 32 values of an MX block (R250). -/
def mxBlock (e : Elem) (b : Bytes) : List FVal :=
  let s := leAt b 0 1
  let w := match e with | .mx _ w _ _ => w | _ => 4
  (unpack w 32 (leNat (b.drop 1))).map fun v =>
    if s = 0xFF then .nan
    else match e with
      | .mx f _ _ _ =>
        let nan := if f = e4m3 then 0x7F else 0x7E
        (floatVal f (f = e5m2) (if f = fp4 then 8 else nan) v).scale ((s : Int) - 127)
      | _ => (intVal 4 v).scale ((s : Int) - 129)

/-- The values of a vector of `n` elements. -/
def decodeVec (fmt n : Nat) (b : Bytes) : List FVal :=
  match elemFmt fmt with
  | some (.float f _ inf nan) => (unpack (elemBits fmt) n (leNat b)).map (floatVal f inf nan)
  | some (.int w) => (unpack w n (leNat b)).map (intVal w)
  | some e =>
    let bb := if fmt ≤ 6 then 33 else 17
    (((chunksOf bb (divUp n 32) b).map (mxBlock e)).flatten).take n
  | none => []

/-- The largest magnitude of finite values. -/
def maxMag (vs : List FVal) : Fr :=
  vs.foldl (fun m v => match v with | .fin _ x => if m.lt x.abs then x.abs else m | _ => m) Fr.zero

/-- One MX block of at most 32 values, padded with zeros (R250, R251). -/
def encodeMx (e : Elem) (rnd : Nat → Option Nat) (vs : List FVal) : Bytes × Tally :=
  let vs := vs ++ List.replicate (32 - vs.length) FVal.zero
  let w := match e with | .mx _ w _ _ => w | _ => 4
  let emax : Int := match e with | .mx _ _ _ k => k | _ => 0
  let amax := maxMag vs
  if vs.any (!·.isFin) then (leBytes 1 0xFF ++ List.replicate (4 * w) 0, { Tally.zero with mxNan := 1 })
  else if amax.n = 0 then (List.replicate (1 + 4 * w) 0, Tally.zero)
  else
    let x := max (-127) (min 127 (log2Div amax.n.natAbs amax.d - emax))
    let es := vs.zipIdx.map fun v =>
      match e with
      | .mx f _ top _ => toFloat f top false 0 (rnd v.2) (v.1.scale (-x))
      | _ => toInt 4 (rnd v.2) (v.1.scale (2 - x))
    (leBytes 1 (x + 127).toNat ++ leBytes (4 * w) (pack w (es.map (·.1))),
      es.foldl (fun t y => t.add y.2) Tally.zero)

/-- The bytes of a vector in a format, `rnd` giving element `i`'s random bits under stochastic rounding. -/
def encodeVec (fmt : Nat) (rnd : Nat → Option Nat) (vs : List FVal) : Bytes × Tally :=
  let flat (conv : Option Nat → FVal → Nat × Tally) : Bytes × Tally :=
    let es := vs.zipIdx.map fun v => conv (rnd v.2) v.1
    (leBytes (vecBytes fmt vs.length) (pack (elemBits fmt) (es.map (·.1))),
      es.foldl (fun t y => t.add y.2) Tally.zero)
  match elemFmt fmt with
  | some (.float f top inf nan) => flat (toFloat f top inf nan)
  | some (.int w) => flat (toInt w)
  | some e =>
    ((chunksOf 32 (divUp vs.length 32) vs).zipIdx).foldl (fun (acc : Bytes × Tally) c =>
      let r := encodeMx e (fun i => rnd (32 * c.2 + i)) c.1
      (acc.1 ++ r.1, acc.2.add r.2)) ([], Tally.zero)
  | none => ([], Tally.zero)

/-- No stochastic rounding. -/
def rne : Nat → Option Nat := fun _ => none

/-- The BF16 pattern of a value, nearest even. -/
def toBf16 (v : FVal) : Nat × Tally := toFloat bf16 0x7F7F true 0x7FC0 none v

/-- A BF16 pattern as FP32: exact, with the canonical NaN (Table 10.3). -/
def ofBf16 (w : Nat) : Nat := nan32 (w * 65536)

/-! ### The vector unit of a core (R259, Table 10.4)

A 512-bit register is a number below 2^512, lane 0 in its lowest bits. -/

/-- The lanes of `w` bits of a register, and a register of lanes. -/
def lanes (w v : Nat) : List Nat := unpack w (512 / w) v
def ofLanes (w : Nat) (l : List Nat) : Nat := pack w l

/-- One operation on every lane of two registers, or of three. -/
def laneMap (w : Nat) (f : Nat → Nat → Nat) (a b : Nat) : Nat := ofLanes w (List.zipWith f (lanes w a) (lanes w b))
def laneMap3 (w : Nat) (f : Nat → Nat → Nat → Nat) (a b c : Nat) : Nat :=
  ofLanes w (((lanes w a).zip ((lanes w b).zip (lanes w c))).map fun x => f x.1 x.2.1 x.2.2)

/-- The lower or the higher of two FP32 patterns in the BULK order: which of two equal ones the manual leaves open. -/
def laneBest (low : Bool) (a b : Nat) : Nat :=
  nan32 (if lt32 a b then (if low then a else b) else if lt32 b a then (if low then b else a)
    else if Config.tie a b % 2 = 0 then a else b)

/-- What a vector lane computes (Table 10.4). -/
inductive LaneArith where
  | add | sub | mul | min | max | satAdd | shl | shr | sar
deriving DecidableEq, Repr

/-- 16 FP32 lanes: none for an operation the format does not have. -/
def lanesF32 (op : LaneArith) (a b : Nat) : Option Nat :=
  match op with
  | .add => some (laneMap 32 add32 a b)
  | .mul => some (laneMap 32 mul32 a b)
  | .min => some (laneMap 32 (laneBest true) a b)
  | .max => some (laneMap 32 (laneBest false) a b)
  | _ => none

/-- 16 FP32 fused multiply-adds, 32 BF16 ones. -/
def lanesFma32 (a b c : Nat) : Nat := laneMap3 32 fma32 a b c
def lanesFma16 (a b c : Nat) : Nat :=
  laneMap3 16 (fun x y z => (((val32 (ofBf16 x)).mul (val32 (ofBf16 y))).add (val32 (ofBf16 z))).round bf16) a b c

/-- The comparison of 16 FP32 or I32 lanes: whether each lane of `a` ranks below, and equals, that of `b`. -/
def lanesCmpF32 (a b : Nat) : List (Bool × Bool) :=
  List.zipWith (fun x y => (lt32 x y, !lt32 x y && !lt32 y x)) (lanes 32 a) (lanes 32 b)
def lanesCmpI32 (a b : Nat) : List (Bool × Bool) :=
  List.zipWith (fun x y => (decide (signed 32 x < signed 32 y), x == y)) (lanes 32 a) (lanes 32 b)

/-- Pair dot: lane i of an FP32 accumulator takes two BF16 products, with one rounding. -/
def lanesPairDot (a b acc : Nat) : Nat :=
  let v (l : List Nat) (i : Nat) : FVal := val32 (ofBf16 ((l[i]?).getD 0))
  ofLanes 32 ((lanes 32 acc).zipIdx.map fun x =>
    let p (j : Nat) : FVal := (v (lanes 16 a) (2 * x.2 + j)).mul (v (lanes 16 b) (2 * x.2 + j))
    (((val32 x.1).add (p 0)).add (p 1)).r32)

/-- Wrapping arithmetic of integer lanes of `w` bits, saturating addition, and shifts; a shift by the width or more is a value the
manual leaves open. -/
def laneInt (w : Nat) (op : LaneArith) (a b : Nat) : Nat :=
  let x := signed w a
  let y := signed w b
  let wrap (z : Int) : Nat := (z % (2 ^ w : Nat)).toNat
  match op with
  | .add => wrap (x + y)
  | .sub => wrap (x - y)
  | .mul => wrap (x * y)
  | .min => if y < x then b else a
  | .max => if x < y then b else a
  | .satAdd => (clampInt w (x + y)).1
  | .shl => if b < w then wrap (x * (2 ^ b : Nat)) else Config.shift a b % 2 ^ w
  | .shr => if b < w then a / 2 ^ b else Config.shift a b % 2 ^ w
  | .sar => if b < w then wrap (Int.fdiv x (2 ^ b : Nat)) else Config.shift a b % 2 ^ w

/-- 64 INT8 lanes, 16 I32 lanes: none for an operation the format does not have. -/
def lanesI8 (op : LaneArith) (a b : Nat) : Option Nat :=
  if [LaneArith.add, .sub, .mul, .min, .max, .satAdd].contains op then some (laneMap 8 (laneInt 8 op) a b) else none
def lanesI32 (op : LaneArith) (a b : Nat) : Option Nat :=
  if [LaneArith.add, .sub, .mul, .shl, .shr, .sar].contains op then some (laneMap 32 (laneInt 32 op) a b) else none

/-- Quad dot: lane i of an I32 accumulator takes four INT8 products, wrapping. -/
def lanesQuadDot (a b acc : Nat) : Nat :=
  let v (l : List Nat) (i : Nat) : Int := signed 8 ((l[i]?).getD 0)
  ofLanes 32 ((lanes 32 acc).zipIdx.map fun x =>
    let p (j : Nat) : Int := v (lanes 8 a) (4 * x.2 + j) * v (lanes 8 b) (4 * x.2 + j)
    (((x.1 : Int) + p 0 + p 1 + p 2 + p 3) % (2 ^ 32 : Nat)).toNat)

end Sys2Proof.Machine
end

