-- ==== Sys2Proof/Machine/Matrix.lean ====
section
/-!
DEFINITION. The matrix engines: job descriptors, tiles, accumulation, epilogue and the MATMUL command (R260–R270).
-/
namespace Sys2Proof.Machine

/-! ### Job descriptors (Table 10.6) -/

/-- A matrix job descriptor. -/
structure MatJob where
  a : Nat
  b : Nat
  c : Nat
  d : Nat
  bias : Nat
  idx : Nat
  m : Nat
  n : Nat
  k : Nat
  aFmt : Nat
  bFmt : Nat
  cFmt : Nat
  dFmt : Nat
  act : Nat
  useC : Bool
  useBias : Bool
  argmax : Bool
  sr : Bool
  writeD : Bool
  alpha : Nat
  beta : Nat
  seed : Nat
deriving DecidableEq, Repr

/-- The descriptor of 128 bytes. -/
def matJob (b : Bytes) : MatJob :=
  let v := leNat (fitB 128 b)
  { a := bitsOf v 63 0, b := bitsOf v 127 64, c := bitsOf v 191 128, d := bitsOf v 255 192, bias := bitsOf v 319 256,
    idx := bitsOf v 383 320, m := bitsOf v 403 384, n := bitsOf v 435 416, k := bitsOf v 467 448,
    aFmt := bitsOf v 483 480, bFmt := bitsOf v 487 484, cFmt := bitsOf v 491 488, dFmt := bitsOf v 495 492,
    act := bitsOf v 497 496, useC := bitOf v 498, useBias := bitOf v 499, argmax := bitOf v 500, sr := bitOf v 501,
    writeD := bitOf v 502, alpha := bitsOf v 543 512, beta := bitsOf v 575 544, seed := bitsOf v 639 576 }

/-- The RSVD bits of a descriptor are zero. -/
def matReserved (b : Bytes) : Bool :=
  let v := leNat (fitB 128 b)
  bitsOf v 415 404 = 0 && bitsOf v 447 436 = 0 && bitsOf v 479 468 = 0 && bitsOf v 511 503 = 0 &&
    bitsOf v 1023 640 = 0

/-- K columns per cycle of an operand pair, none for a pair outside Table 10.7. -/
def pairRate (a b : Nat) : Option Nat :=
  let in_ (l : List Nat) : Bool := l.contains a && l.contains b
  if in_ [1, 2] then some 1 else if in_ [3, 4] then some 2 else if in_ [5, 6] then some 2
  else if in_ [7, 8] then some 4 else if in_ [9] then some 4 else none

/-- Bytes of the 32-element run of a format (R263). -/
def runBytes (fmt : Nat) : Nat := vecBytes fmt 32

/-- Bytes of a tiled matrix of `r` rows and `q` columns (R263). -/
def tiledBytes (fmt r q : Nat) : Nat := divUp r 32 * divUp q 32 * 32 * runBytes fmt

/-- Offset of the run that holds an element (R263). -/
def runOffset (fmt row col q : Nat) : Nat :=
  (row / 32 * divUp q 32 + col / 32) * 32 * runBytes fmt + row % 32 * runBytes fmt

/-- The ranges a job uses: address and bytes. -/
def MatJob.ranges (j : MatJob) : List (Nat × Nat) :=
  [(j.a, tiledBytes j.aFmt j.m j.k), (j.b, tiledBytes j.bFmt j.n j.k)] ++
    (if j.useC then [(j.c, tiledBytes j.cFmt j.m j.n)] else []) ++
    (if j.writeD then [(j.d, tiledBytes j.dFmt j.m j.n)] else []) ++
    (if j.useBias then [(j.bias, 4 * j.n)] else []) ++ (if j.argmax then [(j.idx, 8 * j.m)] else [])

/-- Fields within their ranges, a legal operand pair and legal C and D formats (R262). -/
def MatJob.form (j : MatJob) : Bool :=
  1 ≤ j.m && 1 ≤ j.n && 32 ≤ j.k && j.k % 32 = 0 && j.act ≤ 1 && (pairRate j.aFmt j.bFmt).isSome && j.cFmt ≤ 2 &&
    j.dFmt ≤ 7 && !(isMx j.dFmt && j.n % 32 ≠ 0) && (j.writeD || j.argmax) && j.a % 64 = 0 && j.b % 64 = 0 &&
    !(j.useBias && j.bias % 64 ≠ 0)

/-- Two device ranges of a partition share a byte, whichever space each is named in. -/
def State.overlaps (s : State) (p : Nat) (x y : Nat × Nat) : Bool :=
  let meet (a m b n : Nat) : Bool := a < b + n && b < a + m
  match devAddr x.1, devAddr y.1 with
  | some (.lbuf a), some (.lbuf b) => meet a x.2 b y.2
  | some (.lbuf _), _ => false
  | _, some (.lbuf _) => false
  | some (.sa a), some (.sa b) => meet a x.2 b y.2
  | some _, some _ => (s.devPieces p x.1 x.2).any fun e => (s.devPieces p y.1 y.2).any fun f => meet e.1 e.2 f.1 f.2
  | _, _ => false

/-- D overlaps nothing but a C of the identical range and format (R262). -/
def State.dClear (s : State) (p : Nat) (j : MatJob) (jobs : List (Nat × Nat)) : Bool :=
  let d := (j.d, tiledBytes j.dFmt j.m j.n)
  !j.writeD ||
    (([(j.a, tiledBytes j.aFmt j.m j.k), (j.b, tiledBytes j.bFmt j.n j.k)] ++
        (if j.useBias then [(j.bias, 4 * j.n)] else []) ++ (if j.argmax then [(j.idx, 8 * j.m)] else []) ++ jobs).all
      (fun x => !s.overlaps p d x)) &&
    (!j.useC || (j.c = j.d && j.cFmt = j.dFmt) || !s.overlaps p d (j.c, tiledBytes j.cFmt j.m j.n))

/-- The engine's check of one descriptor; `d` holds its bytes, none where a word of it is uncorrectable (R262). -/
def State.matCheck (s : State) (p : Nat) (d : Option Bytes) (jobs : List (Nat × Nat)) : Status :=
  match d with
  | none => .uncorrectable
  | some b =>
    let j := matJob b
    firstFail [
      (j.ranges.any fun r => s.devForm p r.1 r.2 && !s.devPart p r.1 r.2, .notPermitted),
      (!matReserved b || !j.form || (j.ranges.any fun r => !s.devForm p r.1 r.2), .badDescriptor),
      (!s.dClear p j jobs, .badDescriptor)]

/-! ### Operands -/

/-- One row of a tiled matrix of `q` columns: its values, or none where a word is uncorrectable.  Columns beyond `q`
are not read. -/
def State.matRow (s : State) (p addr fmt q row : Nat) : Option (List FVal) × State :=
  (List.range (divUp q 32)).foldl (fun (acc : Option (List FVal) × State) t =>
    let n := min 32 (q - 32 * t)
    let r := acc.2.devRead srcBulk p (addr + runOffset fmt row (32 * t) q) (vecBytes fmt n)
    (match acc.1, r.1 with
      | some l, some b => some (l ++ decodeVec fmt n b)
      | _, _ => none, r.2)) (some [], s)

/-- Rows of a tiled matrix, each with its values or none. -/
def State.matRows (s : State) (p addr fmt q first n : Nat) : List (Option (List FVal)) × State :=
  (List.range n).foldl (fun (acc : List (Option (List FVal)) × State) i =>
    let r := acc.2.matRow p addr fmt q (first + i)
    (acc.1 ++ [r.1], r.2)) ([], s)

/-! ### Accumulation and epilogue (R264, R265) -/

/-- The exact sum of a group's products. -/
def groupSum : List (FVal × FVal) → FVal
  | [] => FVal.zero
  | [x] => x.1.mul x.2
  | x :: xs => (x.1.mul x.2).add (groupSum xs)

/-- An accumulator carried over a chunk of K, `r` columns at a time. -/
def accumulate (r acc : Nat) (ps : List (FVal × FVal)) : Nat :=
  (chunksOf r (ps.length + 1) ps).foldl (fun acc g => ((val32 acc).add (groupSum g)).r32) acc

/-- The FP32 accumulator of a row of A and a row of B, carried from one chunk of `kc` columns to the next (R264, R267). -/
def dotRow (r kc : Nat) (a b : List FVal) : Nat :=
  (chunksOf kc (a.length + 1) (a.zip b)).foldl (accumulate r) 0

/-- Steps 1 to 4 of the epilogue: t4 of an accumulator, an element of C and a bias. -/
def MatJob.epilogue (j : MatJob) (acc : Nat) (c : FVal) (bias : Nat) : Nat :=
  let t1 := mul32 acc j.alpha
  let t2 := if j.useC then (((val32 j.beta).mul c).add (val32 t1)).r32 else t1
  let t3 := if j.useBias then add32 t2 bias else t2
  if j.act = 1 then relu32 t3 else t3

/-- Random bits of an output element under SR (R254). -/
def MatJob.rnd (j : MatJob) (row col : Nat) : Option Nat :=
  if j.sr then some (h64 (row * 2 ^ 20 + col) j.seed % 65536) else none

/-- Column and value of the highest t4 of a row, lowest column on a tie (R266). -/
def bestOf (base : Nat) (best : Option (Nat × Nat)) (ts : List Nat) : Option (Nat × Nat) :=
  (ts.zipIdx).foldl (fun b t => match b with
    | some (_, v) => if lt32 v t.1 then some (base + t.2, t.1) else b
    | none => some (base + t.2, t.1)) best

/-! ### One job (R267, R268) -/

/-- Areas of an engine's operand SRAM (Table 10.8): bytes of the accumulators, of A and of B. -/
def accArea : Nat := 128 * 1024
def aArea : Nat := 4096 * 1024
def bArea : Nat := 3968 * 1024

/-- Columns of A in one chunk: all of K where a band of 128 rows fits its area, else as many blocks of 32 as do. -/
def MatJob.kChunk (j : MatJob) : Nat := min j.k (aArea / (128 * runBytes j.aFmt) * 32)

/-- B fits its area: it is read once per job and stays; otherwise it is streamed in halves, once per band (R267). -/
def MatJob.resident (j : MatJob) : Bool := j.n * vecBytes j.bFmt j.k ≤ bArea

/-- What a band of `n` rows of A occupies in the operand SRAM of an engine: accumulators, the chunk of A, and B or its two
halves, as address and bytes. -/
def MatJob.operands (j : MatJob) (engine n : Nat) : List (Nat × Nat) :=
  let base := engine * 2 ^ 23
  [(base, accArea), (base + accArea, n * vecBytes j.aFmt j.kChunk),
    (base + accArea + aArea, if j.resident then j.n * vecBytes j.bFmt j.k else bArea)]

/-- A band's operands pass through the operand SRAM: false where a word of it holds a double-bit error when it is read (R61,
R268). -/
def State.bandSram (s : State) (p engine : Nat) (j : MatJob) (n : Nat) : Bool × State :=
  (j.operands engine n).foldl (fun (acc : Bool × State) u =>
    let r := acc.2.sramRead unitOperand p u.1 u.2
    (acc.1 && r.1, r.2.sramWrite unitOperand u.1 u.2)) (true, s)

/-- A block of 128 × 128 outputs: rows of t4 by row, or none where an operand word is uncorrectable. -/
def MatJob.block (j : MatJob) (r : Nat) (as bs cs : List (Option (List FVal))) (bias : Option (List Nat)) (col : Nat) :
    Option (List (List Nat)) :=
  as.zipIdx.mapM fun a =>
    bs.zipIdx.mapM fun b =>
      match a.1, b.1, bias with
      | some x, some y, some bi =>
        let c? : Option FVal := if j.useC then ((cs[a.2]?).bind id).map fun row => (row[col + b.2]?).getD FVal.zero
          else some FVal.zero
        c?.map fun c => j.epilogue (dotRow r j.kChunk x y) c ((bi[col + b.2]?).getD 0)
      | _, _, _ => none

/-- What a job writes, in the order the engine writes it: for each block in band order its rows of D, and at the end
of a band its IDX entries.  A block that meets an uncorrectable word ends the list with `none`. -/
structure MatWrite where
  addr : Nat
  bytes : Bytes
  tally : Tally
deriving DecidableEq, Repr

/-- The runs of D that a block of t4 writes. -/
def MatJob.writes (j : MatJob) (row col : Nat) (t : List (List Nat)) : List MatWrite :=
  if !j.writeD then [] else
    (t.zipIdx).flatMap fun r =>
      ((chunksOf 32 5 r.1).zipIdx).map fun c =>
        let e := encodeVec j.dFmt (fun i => j.rnd (row + r.2) (col + 32 * c.2 + i)) (c.1.map val32)
        { addr := j.d + runOffset j.dFmt (row + r.2) (col + 32 * c.2) j.n, bytes := e.1, tally := e.2 }

/-- Write a list of pieces of output; true where every access was written. -/
def State.matWrite (s : State) (p : Nat) (ws : List MatWrite) : Bool × State :=
  ws.foldl (fun (acc : Bool × State) w =>
    let r := acc.2.devWrite p w.addr w.bytes
    let t := ((r.2.bump (at_ Ob.CONV_SAT p) w.tally.sat).bump (at_ Ob.NAN_TO_INT p) w.tally.nanInt).bump
      (at_ Ob.MX_NAN_BLOCKS p) w.tally.mxNan
    (acc.1 && r.1, t)) (true, s)

/-- The bias vector, or none where a word of it is uncorrectable. -/
def State.matBias (s : State) (p : Nat) (j : MatJob) : Option (List Nat) × State :=
  if j.useBias then
    let r := s.devRead srcBulk p j.bias (4 * j.n)
    (r.1.map fun b => unpack 32 j.n (leNat b), r.2)
  else (some [], s)

/-- One band of 128 rows of A: the writes of its blocks, those of its IDX entries last, and whether it came to its
end. -/
def State.matBand (s : State) (p engine r : Nat) (j : MatJob) (bias : Option (List Nat)) (bs : List (Option (List FVal)))
    (row : Nat) : (List (List MatWrite) × Bool) × State :=
  let n := min 128 (j.m - row)
  let a := s.matRows p j.a j.aFmt j.k row n
  let c := if j.useC then a.2.matRows p j.c j.cFmt j.n row n else ([], a.2)
  let ok := c.2.bandSram p engine j n
  let bands := (chunksOf 128 (divUp j.n 128 + 1) bs).zipIdx
  let out := bands.foldl (fun (acc : (List (List MatWrite) × Bool) × List (Option (Nat × Nat))) b =>
    if !acc.1.2 then acc
    else match j.block r a.1 b.1 c.1 bias (128 * b.2) with
      | none => ((acc.1.1, false), acc.2)
      | some t =>
        ((acc.1.1 ++ [j.writes row (128 * b.2) t], true),
          (t.zip acc.2).map fun x => bestOf (128 * b.2) x.2 x.1)) (([], ok.1), List.replicate n none)
  let idx : List MatWrite := if j.argmax then
    out.2.zipIdx.filterMap fun e => e.1.map fun v =>
      { addr := j.idx + 8 * (row + e.2), bytes := leBytes 4 v.1 ++ leBytes 4 v.2, tally := Tally.zero }
    else []
  ((if out.1.2 then out.1.1 ++ [idx] else out.1.1, out.1.2), ok.2)

/-- A whole job on an engine: true where it ran in full, and the rows it wrote in full.  Of a job that meets an uncorrectable
word, some of the blocks before it have been written: how many is a free value (R268). -/
def State.runJob (s : State) (p engine : Nat) (j : MatJob) : (Bool × Nat) × State :=
  let r := (pairRate j.aFmt j.bFmt).getD 1
  let bias := s.matBias p j
  let b0 := bias.2.matRows p j.b j.bFmt j.k 0 j.n
  let out := (List.range (divUp j.m 128)).foldl
    (fun (acc : (List (List MatWrite) × Bool) × (List (Option (List FVal)) × State)) i =>
      if !acc.1.2 then acc
      else
        let bs := if i = 0 || j.resident then acc.2 else acc.2.2.matRows p j.b j.bFmt j.k 0 j.n
        let x := bs.2.matBand p engine r j bias.1 bs.1 (128 * i)
        ((acc.1.1 ++ x.1.1, x.1.2), (bs.1, x.2))) (([], true), b0)
  let s := out.2.2
  if out.1.2 then let w := s.matWrite p out.1.1.flatten; ((w.1, j.m), w.2)
  else
    let v := s.free
    let n := v.1 % (out.1.1.length + 1)
    ((false, min j.m (128 * ((n + 1) / (divUp j.n 128 + 1)))), (v.2.matWrite p (out.1.1.take n).flatten).2)

/-! ### MATMUL -/

/-- The engine's read of every descriptor (R262). -/
def State.matJobs (s : State) (p addr n : Nat) : List (Option Bytes) × State :=
  (List.range n).foldl (fun (acc : List (Option Bytes) × State) i =>
    let r := acc.2.devRead srcBulk p (addr + 128 * i) 128
    (acc.1 ++ [r.1], r.2)) ([], s)

/-- Cycles an engine spends on a job and loses to its feed: values the manual leaves open (R267). -/
def State.matCycles (s : State) (p : Nat) : State :=
  let a := s.free
  let b := a.2.free
  (((b.2.bump (at_ Ob.ME_BUSY_CYCLES p) a.1).bump (at_ Ob.ME_FEED_STALL_CYCLES p) b.1)).addWork p 2 a.1

/-- Run one job and count it: ME_JOBS where it ran in full, and the engine's cycles (R271). -/
def State.countedJob (s : State) (p engine : Nat) (j : MatJob) : (Bool × Nat) × State :=
  let r := s.runJob p engine j
  let t := r.2.matCycles p
  (r.1, if r.1.1 then t.bump (at_ Ob.ME_JOBS p) else t)

/-- Run jobs in order on an engine: the number that ran in full, and whether all did (R260, R268). -/
def State.runJobs (p engine : Nat) : State → Nat → List MatJob → (Nat × Bool) × State
  | s, done, [] => ((done, true), s)
  | s, done, j :: js =>
    let r := s.countedJob p engine j
    if r.1.1 then State.runJobs p engine r.2 (done + 1) js else ((done, false), r.2)

/-- MATMUL's checks at admission (R262). -/
def State.matmulCheck (s : State) (c : Cmd) : Status :=
  let n := c.f 136 128
  firstFail [(s.cmdLat c || c.f 511 137 ≠ 0 || n = 0 || 256 < n || c.f 127 64 % 64 ≠ 0, .badDescriptor),
    (!s.devForm c.part (c.f 127 64) (128 * n), .badDescriptor),
    (!s.devPart c.part (c.f 127 64) (128 * n), .notPermitted)]

/-- MATMUL's work on its engine (R260–R268). -/
def State.matmulWork (s : State) (c : Cmd) : State :=
  let n := c.f 136 128
  let jobs := (c.f 127 64, 128 * n)
  let r := s.matJobs c.part (c.f 127 64) n
  match (r.1.zipIdx).find? fun d => r.2.matCheck c.part d.1 [jobs] != .ok with
  | some d => r.2.workDone c (r.2.matCheck c.part d.1 [jobs]) d.2
  | none =>
    let x := State.runJobs c.part (((s.cmdItem c).map (·.unit)).getD 0) r.2 0 (r.1.filterMap fun d => d.map matJob)
    x.2.workDone c (if x.1.2 then .ok else .uncorrectable) x.1.1

/-- MATMUL (R260, R262): admission, and its work once its item runs. -/
def execMatmul (id : Nat) (_data : Bytes) (s : State) : Host.Outcome State Fault Refusal :=
  .next (match s.admitting id 0x40 with
    | some c => s.admitIf c (s.matmulCheck c)
    | none => match s.atWork id 0x40 with
      | some c => s.matmulWork c
      | none => s)

end Sys2Proof.Machine
end

