-- ==== Sys2Proof/Machine/Od.lean ====
section
/-!
DEFINITION. Access to the object dictionary: who may read or write what (R388–R392), lengths, ranges, and the key
slots (R378).
-/
namespace Sys2Proof.Machine

/-! ### Who carries out an access -/

/-- One access to the dictionary: principal, its host port and partition, the session that carries it with the key
slot it is bound to and its CTR, and where the answer goes.  `restore` marks the writes of the boot (R407), `rom`
the requests the boot ROM serves in recovery (R421). -/
structure Writer where
  who : Principal
  port : Nat
  part : Nat
  session : Nat
  slot : Option Nat
  ks : Bytes
  ctr : Nat
  idx : Nat
  sub : Nat
  reply : Reply
  restore : Bool
  rom : Bool
deriving DecidableEq, Repr

/-- The answer of a write at once, or none where it is answered later, and the state after. -/
abbrev Ans := Option Status × State

/-- The principal of a host port (R371). -/
def hostPrincipal (port : Nat) : Principal := if port = 0 then .a else .b

/-- The writer is a host. -/
def Writer.isHost (w : Writer) : Bool := w.who == .a || w.who == .b

/-! ### Rights (R390, R107, R138, R149, R388) -/

/-- A partition's objects are the principal's own: M both, A P0, B P1 or, while SHARED is 1, P0 (R107). -/
def State.ownPart (s : State) (who : Principal) (p : Nat) : Bool :=
  match who with
  | .m => true
  | .a => p == 0
  | .b => if s.div.shared then p == 0 else p == 1
  | .k => false

/-- The principal holds the right that a row gives at an index (R390). -/
def State.hasRight (s : State) (who : Principal) (r : OdRow) (idx : Nat) : Bool :=
  match r.right with
  | .fixed m a b k =>
    (match who with | .m => m | .a => a | .b => b | .k => k)
  | .sharedB => (match who with | .m => true | .a => true | .b => s.div.shared | .k => false)
  | .part per =>
    let p := (idx - r.idx) / per
    (match who with | .m => true | .a => p == 0 | .b => p == 1 || (s.div.shared && p == 0) | .k => false)
  | .port => (match who with | .m => true | .a => idx == r.idx | .b => idx == r.idx + 1 | .k => false)
  | .net => (match who with
    | .m => true
    | .a => s.div.netPart (idx - r.idx) == s.served 0
    | .b => s.div.netPart (idx - r.idx) == s.served 1
    | .k => false)

/-- Highest subindex present under an index; none where the index holds no object (R388). -/
def odHighest (idx : Nat) : Option Nat :=
  (odRows.filter fun r => r.idx ≤ idx && idx < r.idx + r.nIdx).foldl
    (fun m r => some (max (m.getD 0) (r.sub + r.nSub - 1))) none

/-- The principal holds a right on some subindex of an index (R388). -/
def State.someRight (s : State) (who : Principal) (idx : Nat) : Bool :=
  odRows.any fun r => r.idx ≤ idx && idx < r.idx + r.nIdx && s.hasRight who r idx

/-- Steps 1 and 2 of R391 for a read. -/
def State.mayRead (s : State) (who : Principal) (idx sub : Nat) : Status :=
  if sub = 0 then
    if (odHighest idx).isNone then .badDescriptor
    else if s.someRight who idx then .ok else .notPermitted
  else match odFind idx sub with
    | none => .badDescriptor
    | some r => firstFail [(!s.hasRight who r idx, .notPermitted), (r.acc == .wo, .notPermitted)]

/-- The object's rights name K: through the dictionary it is read-only (R390). -/
def OdRow.ownedByK (r : OdRow) : Bool :=
  match r.right with | .fixed _ _ _ k => k | _ => false

/-- Steps 1 and 2 of R391 for a write. -/
def State.mayWrite (s : State) (who : Principal) (idx sub : Nat) : Status :=
  if sub = 0 then (if (odHighest idx).isNone then .badDescriptor else .notPermitted)
  else match odFind idx sub with
    | none => .badDescriptor
    | some r => firstFail [(!s.hasRight who r idx, .notPermitted), (r.acc == .ro || r.acc == .const, .notPermitted),
        (r.ownedByK, .notPermitted)]

/-! ### Lengths (R381) -/

/-- Least and largest length of a DOMAIN object's value as its own rule gives it. -/
def domLimits (k : Nat) : Nat × Nat :=
  if k = Ob.FLOW_OPEN || k = Ob.STREAM_OPEN then (68, 68)
  else if k = Ob.IPV4 || k = at_ Ob.IPV4 1 then (16, 16)
  else if k = Ob.IPV6 || k = at_ Ob.IPV6 1 then (64, 64)
  else if Ob.MGMT_KEY0 ≤ k && k ≤ Ob.MBOX_KEY_B then (32, 32)
  else if Ob.IMAGE_KEY_HASH0 ≤ k && k < Ob.IMAGE_KEY_HASH0 + 4 then (32, 32)
  else if k = Ob.ATTEST_NONCE then (32, 32)
  else if k = Ob.DEBUG_TOKEN then (7888, 7888)
  else if k = Ob.DICT_LOAD then (8, 67108864)
  else (0, 67108864)

/-- Step 3 of R391 for a write: LENGTH equals the object's size or lies within its limits. -/
def lengthOk (idx sub n : Nat) : Bool :=
  match odFind idx sub with
  | none => false
  | some r =>
    if r.ty = 8 then (domLimits (idx * 256 + sub)).1 ≤ n && n ≤ (domLimits (idx * 256 + sub)).2
    else if r.ty = 7 then n ≤ 255
    else n = tyBytes r.ty

/-- Steps 1 to 3 of R391 for a write. -/
def State.writeCheck (s : State) (who : Principal) (idx sub n : Nat) : Status :=
  if s.mayWrite who idx sub ≠ .ok then s.mayWrite who idx sub
  else if lengthOk idx sub n then .ok else .badDescriptor

/-! ### Ranges of plain settings -/

/-- The range a setting's table gives its value; a setting with a rule of its own is checked there. -/
def valueOk (k v : Nat) : Bool :=
  let n (b : Nat) : Bool := k = b || k = at_ b 1
  if k = Ob.TICK_PERIOD then 118 ≤ v && v ≤ 7520
  else if k = Ob.IMAGE_SIG_POLICY then v ≤ 1
  else if k = Ob.CAL_INTERVAL_S then 1 ≤ v && v ≤ 3600
  else if k = Ob.CAL_DRIFT_C then 2 ≤ v && v ≤ 15
  else if k = Ob.REPAIR_THRESHOLD then 1 ≤ v
  else if n Ob.REFCLK_MODE then v ≤ 1
  else if n Ob.BREAKOUT then v ≤ 2
  else if n Ob.MTU then 1280 ≤ v && v ≤ 9000
  else if n Ob.VLAN_ID then v ≤ 4094
  else if n Ob.PCP_LAT || k = Ob.CHIP_INGEST_PRIO then v ≤ 7
  else if n Ob.UDP_PORT || k = Ob.BOP_UDP_PORT then 1 ≤ v
  else if k = Ob.NACK_DELAY || k = Ob.CREDIT_GAP then 1 ≤ v && v ≤ 1024
  else if k = Ob.GAP_LIMIT || k = Ob.KEEPALIVE then 1 ≤ v && v ≤ 4000000
  else if k = Ob.PLCA_NODE_OFFSET then v ≤ 254
  else if k = Ob.PLCA_NODE_COUNT then 1 ≤ v
  else if k = Ob.PLCA_TO_TIMER then 32 ≤ v
  else if k = Ob.SESSION_IDLE then 4000000 ≤ v && v ≤ 4000000000
  else if k = Ob.WAKE_MS then v ≤ 4000000000
  else if k = Ob.WAKE_SOURCES then v < 16
  else if k = Ob.GATE_DEEP then v ≤ 1
  else if k = Ob.QUIESCE_TICKS then 1 ≤ v
  else if k = Ob.PWR_LIMIT_W then 300 ≤ v && v ≤ 1500
  else if k = Ob.BRAKE_DUTY then v ≤ 15
  else if k = Ob.CLK_FLAG_CLEAR then v = 1
  else if k = Ob.SPREAD_WINDOW then v ≤ 16
  else true

/-! ### Key slots (R373, R377, R378, Table 15.5) -/

/-- The key a slot holds. -/
def State.key (s : State) (slot : Nat) : Bytes := s.dget (Ob.MGMT_KEY0 + slot)

/-- The slot is empty. -/
def State.keyEmpty (s : State) (slot : Nat) : Bool := allZero (s.key slot)

/-- The slot is locked (R377). -/
def State.keyLocked (s : State) (slot : Nat) : Bool := (look s.mgmt.locks slot).isSome

/-- Every management key slot is empty. -/
def State.noMgmtKey (s : State) : Bool := (List.range 4).all fun i => s.keyEmpty i

/-- KEY_STATE (Table 15.5). -/
def State.keyState (s : State) : Nat :=
  (List.range 6).foldl (fun v i => v + b2n (!s.keyEmpty i) * 2 ^ i + b2n (s.keyLocked i) * 2 ^ (i + 8)) 0

/-- The principal a slot belongs to: M, A or B. -/
def slotOwner (slot : Nat) : Principal := if slot < 4 then .m else if slot = 4 then .a else .b

/-- A write of an empty slot by its own principal in BLANK or PROVISIONED needs no session (R378). -/
def State.freeKeyWrite (s : State) (who : Principal) (slot : Nat) : Bool :=
  s.nv.lc ≤ 1 && s.keyEmpty slot && slotOwner slot == who

/-- The key slot an object is. -/
def keySlot? (idx sub : Nat) : Option Nat := if idx = 0x7050 && 1 ≤ sub && sub ≤ 6 then some (sub - 1) else none

/-- The read or write of an object that a client without a session may make (R372): `port` is none on M. -/
def State.noSessionOk (s : State) (port : Option Nat) (write : Bool) (idx sub : Nat) : Bool :=
  let who : Principal := match port with | none => .m | some q => hostPrincipal q
  (!write && idx / 0x1000 = 1) ||
    (write && (match keySlot? idx sub with
      | some k => s.freeKeyWrite who k && s.mayWrite who idx sub == .ok
      | none => false)) ||
    (match port with
      | none => s.noMgmtKey
      | some q => s.keyEmpty (4 + q) && !(write && idx / 0x1000 = 7))

end Sys2Proof.Machine
end

