-- ==== Sys2Proof/Machine/Bop.lean ====
section
/-!
DEFINITION. The Burral Object Protocol: messages, sessions, responses, events, and port M (R363–R387, R421).
-/
namespace Sys2Proof.Machine

/-- ASCII bytes of a string. -/
def ascii (t : String) : Bytes := t.toList.map fun c => BitVec.ofNat 8 c.toNat

/-! ### Port M -/

/-- Send a frame on M: it waits for the transmit opportunity while PLCA is active, and otherwise leaves under
CSMA/CD, counted in PLCA_FALLBACKS where the node has no ID (R364–R366).  M is silent without a qualified XO (R457). -/
def State.mgmtSend (s : State) (o : Output) : State :=
  if !s.clk.xoOk then s
  else if s.get Ob.PLCA_STATUS = 1 then { s with mgmt := { s.mgmt with tx := s.mgmt.tx ++ [o] } }
  else if s.get Ob.PLCA_NODE_ID = 255 then (s.emit o).bump Ob.PLCA_FALLBACKS else s.emit o

/-- Send every frame that waits in the transmit buffer, oldest first. -/
def State.flushTx (s : State) (n : Nat) : State :=
  (s.mgmt.tx.take n).foldl (fun t o => t.emit o) { s with mgmt := { s.mgmt with tx := s.mgmt.tx.drop n } }

/-- The frames that wait leave before a reset that follows an answer (R422, R425, R464). -/
def State.txDone (s : State) : State := s.flushTx s.mgmt.tx.length

/-- TRANSMIT_OPPORTUNITY (R365): a complete frame starts, and up to PLCA_MAX_BC further ones. -/
def execTransmitOpportunity (s : State) : Host.Outcome State Fault Refusal :=
  .next (if s.get Ob.PLCA_STATUS = 1 && s.clk.xoOk then s.flushTx (1 + s.mgmt.maxBc) else s)

/-- BEACON (R366, R457): a follower resumes PLCA. -/
def execBeacon (s : State) : Host.Outcome State Fault Refusal :=
  .next (if s.mgmt.role = 0 && s.get Ob.PLCA_NODE_ID ≠ 255 && s.clk.xoOk && s.boot.mode ≠ .off then
    s.put Ob.PLCA_STATUS 1 else s)

/-- BEACON_TIMEOUT (R366): a follower falls back to CSMA/CD, and its waiting frames leave. -/
def execBeaconTimeout (s : State) : Host.Outcome State Fault Refusal :=
  .next (if s.mgmt.role = 0 && s.get Ob.PLCA_STATUS = 1 then
    let s := (s.put Ob.PLCA_STATUS 0).bump Ob.PLCA_FALLBACKS
    s.txDone else s)

/-- BEACON_TRANSMIT (R364): the coordinator starts a PLCA cycle. -/
def execBeaconTransmit (s : State) : Host.Outcome State Fault Refusal :=
  .next (if s.mgmt.role = 1 && s.clk.xoOk && s.boot.mode ≠ .off then (s.put Ob.PLCA_STATUS 1).emit .beacon else s)

/-! ### Messages (R368, R369) -/

/-- The fields of a BOP message (Table 15.2). -/
structure Bop where
  ver : Nat
  kind : Nat
  op : Nat
  status : Nat
  rsvd : Nat
  session : Nat
  plen : Nat
  seq : Nat
  ctr : Nat
  header : Bytes
  payload : Bytes
  tag : Bytes
deriving DecidableEq, Repr

/-- Read the fields of a message. -/
def parseBop (b : Bytes) : Bop :=
  let plen := beAt b 6 2
  { ver := beAt b 0 1 / 16, kind := beAt b 0 1 % 16, op := beAt b 1 1, status := beAt b 2 1, rsvd := beAt b 3 1,
    session := beAt b 4 2, plen := plen, seq := beAt b 8 4, ctr := beAt b 12 4, header := sliceB b 0 16,
    payload := sliceB b 16 plen, tag := sliceB b (16 + plen) 16 }

/-- The message lies in the mailbox of a port. -/
def boxOf (m : BopMsg) (p : Nat) : Bool :=
  match m with
  | .m _ _ _ _ => false
  | .mbox q => q.val == p

/-- The path of a message. -/
def msgPath : BopMsg → BopPath
  | .m _ _ _ _ => .m
  | .mbox p => .mbox p

/-- The bytes of a message. -/
def State.msgBytes (s : State) : BopMsg → Bytes
  | .m _ _ _ b => b
  | .mbox p => (s.port p.val).mboxReq.take (s.port p.val).mboxReqLen

/-- R369: the message breaks the form of BOP. -/
def State.malformed (s : State) (m : BopMsg) : Bool :=
  let b := s.msgBytes m
  let x := parseBop b
  let limit := match m with | .m _ _ _ _ => 1452 | .mbox _ => 4096
  let len := match m with | .m _ _ _ _ => b.length | .mbox p => (s.port p.val).mboxReqLen
  len < 16 || limit < len || len ≠ 16 + x.plen + (if x.session = 0 then 0 else 16) || x.ver ≠ 1 ||
    !(x.kind = 1 || x.kind = 4) || x.rsvd ≠ 0

/-- The operations of Table 15.3. -/
def bopOps : List Nat :=
  [0x01, 0x02, 0x03, 0x04, 0x10, 0x11, 0x18, 0x19, 0x1A, 0x1B, 0x20, 0x21, 0x30, 0x31, 0x32]

/-- R370: the form of a request's payload for its OP. -/
def payloadOk (x : Bop) : Bool :=
  match x.op with
  | 0x02 => x.plen = 20 && leAt x.payload 1 3 = 0
  | 0x10 => x.plen = 12 && leAt x.payload 3 1 = 0 && leAt x.payload 10 2 = 0
  | 0x11 => 8 ≤ x.plen && leAt x.payload 3 1 = 0 && x.plen = 8 + leAt x.payload 4 4
  | 0x18 => x.plen = 8 && leAt x.payload 3 1 = 0
  | 0x19 => 4 ≤ x.plen
  | 0x1A => x.plen = 4
  | 0x20 => x.plen = 4 && leAt x.payload 1 3 = 0
  | 0x21 => x.plen = 4 && leAt x.payload 1 3 = 0
  | 0x30 => x.plen = 4
  | _ => x.plen = 0

/-- R370: a request that is refused with BAD_DESCRIPTOR whatever it asks. -/
def badRequest (x : Bop) : Bool :=
  !bopOps.contains x.op || x.op = 0x31 || x.op = 0x32 || x.status ≠ 0 || !payloadOk x

/-- OPs that only M carries (Table 15.3). -/
def mOnly (op : Nat) : Bool := op = 0x20 || op = 0x21 || op = 0x30

/-! ### Responses (R370, R374, R375, R386) -/

/-- The tag of a message: direction byte, header and payload under the session key (R374). -/
def bopTag (ks : Bytes) (dir : Nat) (body : Bytes) : Bytes := (hmac ks (BitVec.ofNat 8 dir :: body)).take 16

/-- A message of the module: header, payload and, in a session, its tag. -/
def buildBop (kind op status session seq ctr : Nat) (ks payload : Bytes) : Bytes :=
  let body := beBytes 1 (16 + kind) ++ beBytes 1 op ++ beBytes 1 status ++ beBytes 1 0 ++ beBytes 2 session ++
    beBytes 2 payload.length ++ beBytes 4 seq ++ beBytes 4 ctr ++ payload
  if session = 0 then body else body ++ bopTag ks 2 body

/-- The state with a session changed. -/
def State.setSession (s : State) (x : Session) : State :=
  { s with mgmt := { s.mgmt with sessions := s.mgmt.sessions.map fun y => if y.id = x.id then x else y } }

/-- The session of an ID. -/
def State.session? (s : State) (id : Nat) : Option Session := s.mgmt.sessions.find? (·.id == id)

/-- Put an answer into a mailbox: the response buffer, MBOX_RSP_LEN, MBOX_STATUS, DONE and MBOX_DONE (R132, R386). -/
def State.mboxAnswer (s : State) (p : Nat) (st : Nat) (bytes : Bytes) : State :=
  let x := s.port p
  (s.setPort p { x with mboxRsp := bytes, mboxRspLen := bytes.length, mboxStatus := st, mboxDone := true,
                        mboxBusy := false }).portEvent p evMboxDone

/-- Send response bytes on the path of their request. -/
def State.sendBop (s : State) (path : BopPath) (src srcPort st : Nat) (bytes : Bytes) : State :=
  match path with
  | .m => s.mgmtSend (.mgmtFrame src srcPort bytes)
  | .mbox p => s.mboxAnswer p.val st bytes

/-- Answer an access: the response of a BOP request, cached for its session, or the completion of a ring command. -/
def State.respond (s : State) (r : Reply) (st : Status) (payload : Bytes := []) : State :=
  match r with
  | .nobody => s
  | .ring id => s.finish id st 0
  | .bop path src srcPort session ks seq ctr op =>
    let b := buildBop 2 op st.code session seq ctr ks (if st.good then payload else [])
    let s := match s.session? session with
      | some x => s.setSession { x with cached := some b }
      | none => s
    s.sendBop path src srcPort st.code b

/-- Answer the accesses that wait for an event, with a status. -/
def State.answer (s : State) (what : Await) (arg : Nat) (st : Status) : State :=
  let hit (w : Waiter) : Bool := w.what == what && w.arg == arg
  let s' := { s with mgmt := { s.mgmt with waiters := s.mgmt.waiters.filter fun w => !hit w } }
  (s.mgmt.waiters.filter hit).foldl (fun t w => t.respond w.reply st) s'

/-- Let an access wait for an event; a ring command stays outstanding meanwhile. -/
def State.await (s : State) (what : Await) (arg : Nat) (r : Reply) : State :=
  let s := match r with
    | .ring id => match s.cmd? id with
      | some c => s.setCmd { c with stage := .waiting }
      | none => s
    | _ => s
  { s with mgmt := { s.mgmt with waiters := s.mgmt.waiters ++ [{ what := what, arg := arg, reply := r }] } }

/-! ### Sessions (R371–R377) -/

/-- Holder number of a client's open block: its session, or its path without one. -/
def blockHolder (path : BopPath) (session : Nat) : Nat :=
  if session ≠ 0 then session else match path with | .m => 65536 | .mbox p => 65537 + p.val

/-- End a session: its open block is aborted and its subscription and events end (R376). -/
def State.endSession (s : State) (id : Nat) : State :=
  { s with mgmt := { s.mgmt with
      sessions := s.mgmt.sessions.filter (·.id != id)
      blocks := dropAt s.mgmt.blocks id
      events := s.mgmt.events.filter (·.session != id) } }

/-- Count an AUTH_FAIL outcome on a slot; the eighth in a row locks it (R377). -/
def State.authFailed (s : State) (slot : Nat) : State :=
  let n := lookD s.mgmt.fails slot 0 + 1
  if 8 ≤ n then
    { s with mgmt := { s.mgmt with fails := dropAt s.mgmt.fails slot, locks := setAt s.mgmt.locks slot s.now } }
  else { s with mgmt := { s.mgmt with fails := setAt s.mgmt.fails slot n } }

/-- Refuse a request whose tag fails: untagged, SESSION 0, at most one a tick on M, the rest counted (R375). -/
def State.authRefuse (s : State) (path : BopPath) (src srcPort : Nat) (x : Bop) : State :=
  let b := buildBop 2 x.op Status.authFail.code 0 x.seq 0 [] []
  match path with
  | .m =>
    if s.mgmt.authTick = some s.now then s.bump Ob.AUTH_FAILS
    else ({ s with mgmt := { s.mgmt with authTick := some s.now } }).mgmtSend (.mgmtFrame src srcPort b)
  | .mbox p => s.mboxAnswer p.val Status.authFail.code b

/-- What the intake of a message decides: it has been dealt with, or it is carried out with these rights. -/
inductive Intake where
  | dealt (s : State)
  | go (w : Writer) (x : Bop) (s : State)

/-- The principal, port and partition of a path (R371). -/
def State.pathWriter (s : State) (path : BopPath) (src srcPort : Nat) (x : Bop) (ks : Bytes) (slot : Option Nat) :
    Writer :=
  let port := match path with | .m => 0 | .mbox p => p.val
  { who := match path with | .m => .m | .mbox p => hostPrincipal p.val
    port := port, part := s.served port, session := x.session, slot := slot, ks := ks, ctr := x.ctr, idx := 0,
    sub := 0, reply := .bop path src srcPort x.session ks x.seq x.ctr x.op, restore := false, rom := false }

/-- The object a READ, WRITE or BLOCK_OPEN names. -/
def bopTarget (x : Bop) : Nat × Nat := (leAt x.payload 0 2, leAt x.payload 2 1)

/-- The object a client's BLOCK_DATA, BLOCK_COMMIT or BLOCK_ABORT acts on. -/
def State.blockTarget (s : State) (path : BopPath) (session : Nat) : Nat × Nat :=
  match look s.mgmt.blocks (blockHolder path session) with
  | some b => (b.idx, b.sub)
  | none => (0, 0)

/-- R372: a request without a session is carried out. -/
def State.sessionless (s : State) (path : BopPath) (x : Bop) : Bool :=
  let port := match path with | .m => none | .mbox p => some p.val
  match x.op with
  | 0x01 => true
  | 0x02 => true
  | 0x03 => false
  | 0x04 => false
  | 0x10 => s.noSessionOk port false (bopTarget x).1 (bopTarget x).2
  | 0x11 => s.noSessionOk port true (bopTarget x).1 (bopTarget x).2
  | 0x18 => s.noSessionOk port true (bopTarget x).1 (bopTarget x).2
  | 0x19 => s.noSessionOk port true (s.blockTarget path 0).1 (s.blockTarget path 0).2
  | 0x1A => s.noSessionOk port true (s.blockTarget path 0).1 (s.blockTarget path 0).2
  | 0x1B => s.noSessionOk port true (s.blockTarget path 0).1 (s.blockTarget path 0).2
  | 0x30 => false
  | _ => (match path with | .m => s.noMgmtKey | .mbox p => s.keyEmpty (4 + p.val))

/-- The requests the boot ROM serves (R421, Table 17.3 step 2). -/
def State.romServes (s : State) (path : BopPath) (x : Bop) : Bool :=
  let t := bopTarget x
  let fw : Nat × Nat := (Ob.FW_IMAGE / 256, Ob.FW_IMAGE % 256)
  x.op = 0x01 || (x.op = 0x10 && t.1 / 0x1000 = 1) ||
    (s.boot.mode == .recovery &&
      ((x.op = 0x10 && (t = (Ob.LC_STATE / 256, Ob.LC_STATE % 256) || t = (Ob.BOOT_LOG / 256, Ob.BOOT_LOG % 256))) ||
        (x.op = 0x18 && t = fw) ||
        ((x.op = 0x19 || x.op = 0x1A || x.op = 0x1B) &&
          (s.blockTarget path 0 = fw || (look s.mgmt.blocks (blockHolder path 0)).isNone))))

/-- The frame acceptance of R367 on a BOP packet: link-local source, and only HELLO to ff02::1. -/
def frameOk (src : Nat) (multicast : Bool) (op : Nat) : Bool :=
  src / 2 ^ 118 = 0x3FA && (!multicast || op = 0x01)

/-- The port accepts the packet of a message; a mailbox has none (R367). -/
def accepted (m : BopMsg) (op : Nat) : Bool :=
  match m with
  | .m src _ multi _ => frameOk src multi op
  | .mbox _ => true

/-- Intake of a request without a session. -/
def State.intakePlain (s : State) (path : BopPath) (src srcPort : Nat) (x : Bop) : Intake :=
  let w := s.pathWriter path src srcPort x [] none
  let isMbox := match path with | .m => false | .mbox _ => true
  if s.boot.mode ≠ .running then
    if badRequest x then .dealt (s.respond w.reply .badDescriptor)
    else if s.romServes path x then .go { w with rom := true } x s
    else .dealt (s.respond w.reply .notPermitted)
  else if badRequest x then .dealt (s.respond w.reply .badDescriptor)
  else if isMbox && mOnly x.op then .dealt (s.respond w.reply .notPermitted)
  else if s.sessionless path x then .go w x s
  else .dealt (s.respond w.reply .authFail)

/-- Intake of a request in a session (R375). -/
def State.intakeSession (s : State) (path : BopPath) (src srcPort : Nat) (x : Bop) : Intake :=
  let refused := s.authRefuse path src srcPort x
  if s.boot.mode ≠ .running then
    .dealt (s.sendBop path src srcPort Status.authFail.code (buildBop 2 x.op Status.authFail.code 0 x.seq 0 [] []))
  else match s.session? x.session with
    | none => .dealt refused
    | some v =>
      if v.path ≠ path then .dealt refused
      else if bopTag v.ks 1 (x.header ++ x.payload) ≠ x.tag then
        -- a failed confirmation also discards the session
        let s := if !v.confirmed && x.op = 0x03 then s.endSession v.id else s
        .dealt ((s.authFailed v.slot).authRefuse path src srcPort x)
      else if !v.confirmed then
        if x.op = 0x03 && x.ctr = 1 then
          .go (s.pathWriter path src srcPort x v.ks (some v.slot)) x s
        else
          let s := if x.op = 0x03 then (s.endSession v.id).authFailed v.slot else s
          .dealt (s.authRefuse path src srcPort x)
      else if x.ctr = v.lastCtr && x.tag = v.lastTag then
        match v.cached with
        | some b => .dealt (s.sendBop path src srcPort (beAt b 2 1) b)
        | none => .dealt s
      else if x.ctr ≤ v.lastCtr then .dealt (s.bump Ob.BOP_REPLAYS)
      else
        let s := s.setSession { v with lastCtr := x.ctr, lastTag := x.tag, cached := none, since := s.now }
        let w := s.pathWriter path src srcPort x v.ks (some v.slot)
        let isMbox := match path with | .m => false | .mbox _ => true
        if badRequest x then .dealt (s.respond w.reply .badDescriptor)
        else if isMbox && mOnly x.op then .dealt (s.respond w.reply .notPermitted)
        else .go w x s

/-- Firmware serves messages one at a time in arrival order (R386): a message is taken where it is at the front, and one from M also
where none waits, as it then arrives. -/
def State.takeMessage (s : State) (m : BopMsg) : Option State :=
  match s.mgmt.mailboxes with
  | q :: rest => if q = m then some { s with mgmt := { s.mgmt with mailboxes := rest } } else none
  | [] => match m with
    | .m _ _ _ _ => some s
    | .mbox _ => none

/-- The message came over M. -/
def onM : BopMsg → Bool
  | .m _ _ _ _ => true
  | .mbox _ => false

/-- A message from M that arrives while others wait takes its place behind them; a seventeenth is discarded (R386).  It is served
when it is given again with its turn come (DESIGN CHOICE, log 176). -/
def State.lineUp (s : State) (m : BopMsg) : State :=
  if !onM m || s.mgmt.mailboxes.contains m then s
  else if 16 ≤ (s.mgmt.mailboxes.filter onM).length then s.bump Ob.BOP_QUEUE_DROPS
  else { s with mgmt := { s.mgmt with mailboxes := s.mgmt.mailboxes ++ [m] } }

/-- A module that is off answers nothing, and M needs the XO (R457). -/
def State.hears (s : State) (m : BopMsg) : Bool :=
  s.boot.mode ≠ .off && s.clocked && (match m with | .m _ _ _ _ => s.clk.xoOk | .mbox _ => true)

/-- Take one BOP message in where its OP is the row's: it is dealt with, or it is carried out. -/
def State.intake (s : State) (m : BopMsg) (op : Nat → Bool) : Intake :=
  let x := parseBop (s.msgBytes m)
  if !s.hears m || s.malformed m || !op x.op then .dealt s
  else if !accepted m x.op then .dealt (s.bump Ob.MGMT_RX_DISCARDS)
  else match s.takeMessage m with
    | none => .dealt (s.lineUp m)
    | some s =>
      match m with
      | .m src srcPort _ _ =>
        if x.kind = 4 then .dealt s
        else if x.session = 0 then s.intakePlain .m src srcPort x else s.intakeSession .m src srcPort x
      | .mbox p =>
        if x.kind = 4 then .dealt (s.mboxAnswer p.val Status.notPermitted.code [])
        else if x.session = 0 then s.intakePlain (.mbox p) 0 0 x else s.intakeSession (.mbox p) 0 0 x

/-- Serve one BOP message where its OP is the row's, with the row's operation on an accepted request. -/
def State.serve (s : State) (m : BopMsg) (op : Nat → Bool) (act : Writer → Bop → State → State) : State :=
  match s.intake m op with
  | .dealt t => t
  | .go w x t => act w x t

/-- BOP_MALFORMED (R369, R370): discarded on M, BAD_DESCRIPTOR in a mailbox; a request of an unknown OP is refused
with BAD_DESCRIPTOR. -/
def execBopMalformed (msg : BopMsg) (s : State) : Host.Outcome State Fault Refusal :=
  .next (
    if !s.hears msg then s
    else if s.malformed msg then
      match msg with
      | .m _ _ _ _ => s.bump Ob.BOP_MALFORMED
      | .mbox p => match s.takeMessage msg with
        | none => s
        | some s => (s.bump Ob.BOP_MALFORMED).mboxAnswer p.val Status.badDescriptor.code []
    else s.serve msg (fun op => !bopOps.contains op || op = 0x31) fun w _ t => t.respond w.reply .badDescriptor)

/-! ### HELLO and sessions -/

/-- HELLO's answer (Table 15.4). -/
def State.helloPayload (s : State) : Bytes :=
  let keys := (List.range 4).foldl (fun v i => v + b2n (!s.keyEmpty i) * 2 ^ i) 0
  let run := s.boot.mode == .running
  leBytes 2 (s.get Ob.VENDOR_ID) ++ leBytes 2 0x0020 ++ leBytes 1 1 ++ leBytes 1 s.nv.lc ++
    leBytes 1 (if run then 0 else 1) ++ leBytes 1 (s.get Ob.PLCA_NODE_ID) ++ leBytes 8 Config.serial ++
    leBytes 4 (if run then s.boot.fwVersion else 0) ++ leBytes 4 (if run then s.boot.klibVersion else 0) ++
    leBytes 8 keys

/-- HELLO (R370). -/
def execHello (msg : BopMsg) (s : State) : Host.Outcome State Fault Refusal :=
  .next (s.serve msg (· = 0x01) fun w _ t => t.respond w.reply .ok t.helloPayload)

/-- The lowest session ID not in use (R373). -/
def State.freeSession (s : State) : Nat :=
  ((List.range (s.mgmt.sessions.length + 1)).find? fun i => (s.session? (i + 1)).isNone).getD 0 + 1

/-- The slot is in the path of a client (R373). -/
def slotInPath (path : BopPath) (slot : Nat) : Bool :=
  match path with | .m => slot < 4 | .mbox p => slot = 4 + p.val

/-- SESSION_INIT (R373). -/
def execSessionInit (msg : BopMsg) (s : State) : Host.Outcome State Fault Refusal :=
  .next (s.serve msg (· = 0x02) fun w x t =>
    let path := msgPath msg
    let slot := leAt x.payload 0 1
    let open_ := (t.mgmt.sessions.filter fun y => y.path == path).length
    let st := firstFail [(5 < slot, .badDescriptor),
      (!slotInPath path slot || t.keyEmpty slot || t.keyLocked slot, .authFail),
      ((match path with | .m => 8 | .mbox _ => 1) ≤ open_, .noResource)]
    if st ≠ .ok then t.respond w.reply st
    else
      let id := t.freeSession
      let nd := leBytes 16 (Config.sessionNonce t.nv.bootCount t.mgmt.nonces)
      let ks := hmac (t.key slot) (ascii "BOP1" ++ sliceB x.payload 4 16 ++ nd ++ beBytes 2 id)
      let v : Session := { id := id, path := path, slot := slot, ks := ks, confirmed := false, since := t.now,
                           lastCtr := 0, lastTag := [], cached := none, eventCtr := 0, sub := none }
      ({ t with mgmt := { t.mgmt with sessions := t.mgmt.sessions ++ [v], nonces := t.mgmt.nonces + 1 } }).respond
        w.reply .ok (leBytes 2 id ++ leBytes 6 0 ++ nd))

/-- SESSION_CONFIRM (R373): its tag has verified. -/
def execSessionConfirm (msg : BopMsg) (s : State) : Host.Outcome State Fault Refusal :=
  .next (s.serve msg (· = 0x03) fun w x t =>
    if badRequest x then t.respond w.reply .badDescriptor
    else match t.session? x.session with
      | none => t
      | some v =>
        let t := t.setSession { v with confirmed := true, since := t.now, lastCtr := max v.lastCtr x.ctr, lastTag := x.tag }
        ({ t with mgmt := { t.mgmt with fails := dropAt t.mgmt.fails v.slot } }).respond w.reply .ok)

/-- SESSION_CLOSE (R376): the session ends after its OK response. -/
def execSessionClose (msg : BopMsg) (s : State) : Host.Outcome State Fault Refusal :=
  .next (s.serve msg (· = 0x04) fun w x t => (t.respond w.reply .ok).endSession x.session)

/-- CONFIRM_TIMEOUT (R373). -/
def execConfirmTimeout (session : Nat) (s : State) : Host.Outcome State Fault Refusal :=
  .next (match s.session? session with
    | some v => if !v.confirmed && 4000000 ≤ s.since v.since then s.endSession session else s
    | none => s)

/-- SESSION_IDLE (R376). -/
def execSessionIdle (session : Nat) (s : State) : Host.Outcome State Fault Refusal :=
  .next (match s.session? session with
    | some v => if v.confirmed && s.mgmt.idle ≤ s.since v.since then s.endSession session else s
    | none => s)

/-- LOCK_EXPIRY (R377). -/
def execLockExpiry (slot : KeySlotNo) (s : State) : Host.Outcome State Fault Refusal :=
  .next (match look s.mgmt.locks slot.val with
    | some t => if 4000000 ≤ s.since t then
        { s with mgmt := { s.mgmt with locks := dropAt s.mgmt.locks slot.val } } else s
    | none => s)

/-- MBOX_GO (R132): an accepted GO clears DONE, sets BUSY and queues the message. -/
def execMboxGo (port : PortNo) (value : Nat) (s : State) : Host.Outcome State Fault Refusal :=
  let x := s.port port.val
  .next (
    if x.mboxBusy then s.barDiscard port.val
    else if !bitOf value 0 then s
    else
      let s := s.setPort port.val { x with mboxDone := false, mboxBusy := true }
      { s with mgmt := { s.mgmt with mailboxes := s.mgmt.mailboxes ++ [.mbox port] } })

/-! ### Events (R384, R385) -/

/-- SUBSCRIBE (R384): a mask with a RSVD bit is refused; the end of a subscription ends its events (DESIGN CHOICE, log 105). -/
def execSubscribe (msg : BopMsg) (s : State) : Host.Outcome State Fault Refusal :=
  .next (s.serve msg (· = 0x30) fun w x t =>
    let mask := leAt x.payload 0 4
    match msg, t.session? x.session with
    | .m src srcPort _ _, some v =>
      if 2 ^ 14 ≤ mask then t.respond w.reply .badDescriptor
      else
        let sub := if mask = 0 then none else some { mask := mask, src := src, srcPort := srcPort }
        let events := t.mgmt.events.filter fun e => mask != 0 || e.session != v.id
        (({ t with mgmt := { t.mgmt with events := events } }).setSession { v with sub := sub }).respond w.reply .ok
    | _, _ => t.respond w.reply .authFail)

/-- The payload of an event (R385). -/
def EventRec.payload (e : EventRec) : Bytes :=
  leBytes 1 e.cause ++ leBytes 1 e.part ++ leBytes 2 e.count ++ leBytes 4 e.detail ++ leBytes 8 e.tick

/-- Send an event in its session with the next event CTR (R374, R384). -/
def State.sendEvent (s : State) (e : EventRec) : State :=
  match s.session? e.session with
  | some v => match v.sub with
    | some u =>
      let s := s.setSession { v with eventCtr := v.eventCtr + 1 }
      s.mgmtSend (.mgmtFrame u.src u.srcPort (buildBop 3 0x31 0 v.id e.number (v.eventCtr + 1) v.ks e.payload))
    | none => s
  | none => s

/-- One session hears an occurrence: a new event, or a higher COUNT of the unacknowledged one (R385). -/
def State.hearEvent (s : State) (o : Occurrence) (v : Session) : State :=
  if !(match v.sub with | some u => bitOf u.mask o.cause | none => false) then s
  else if s.mgmt.events.any fun e => e.session == v.id && e.cause == o.cause && e.part == o.part then
    { s with mgmt := { s.mgmt with events := s.mgmt.events.map fun e =>
        if e.session == v.id && e.cause == o.cause && e.part == o.part then
          { e with count := satAdd 0xFFFF e.count 1 } else e } }
  else
    let e : EventRec := { number := s.mgmt.nextEvent, session := v.id, cause := o.cause, part := o.part, count := 1,
                          detail := o.detail, tick := o.tick, sent := s.now, resends := 0 }
    ({ s with mgmt := { s.mgmt with events := s.mgmt.events ++ [e], nextEvent := s.mgmt.nextEvent + 1 } }).sendEvent e

/-- EVENT (R384, R385): the oldest occurrence of the cause is turned into events. -/
def execEvent (cause part detail : Nat) (s : State) : Host.Outcome State Fault Refusal :=
  .next (match s.mgmt.occurred.find? fun o => o.cause == cause && o.part == part && o.detail == detail with
    | some o =>
      let s := { s with mgmt := { s.mgmt with occurred := s.mgmt.occurred.erase o } }
      s.mgmt.sessions.foldl (fun t v => t.hearEvent o v) s
    | none => s)

/-- EVENT_RETRY (R385). -/
def execEventRetry (number : Nat) (s : State) : Host.Outcome State Fault Refusal :=
  .next (match s.mgmt.events.find? (·.number == number) with
    | some e =>
      if s.since e.sent < 400000 then s
      else if 8 ≤ e.resends then
        ({ s with mgmt := { s.mgmt with events := s.mgmt.events.filter (·.number != number) } }).bump Ob.EVENTS_LOST
      else
        let e' := { e with sent := s.now, resends := e.resends + 1 }
        (({ s with mgmt := { s.mgmt with
            events := s.mgmt.events.map fun (y : EventRec) => if y.number = number then e' else y } }).bump
              Ob.EVENT_RETRIES).sendEvent e'
    | none => s)

/-- EVENT_ACK (R370, R374, R385): on M a valid tag and the event's SEQ clear it, with no response; in a mailbox it is
NOT_PERMITTED. -/
def execEventAck (msg : BopMsg) (s : State) : Host.Outcome State Fault Refusal :=
  let x := parseBop (s.msgBytes msg)
  .next (
    if !s.hears msg || s.malformed msg || x.op ≠ 0x32 then s
    else if x.kind ≠ 4 then s.serve msg (· = 0x32) fun w _ t => t.respond w.reply .badDescriptor
    else if !accepted msg x.op then s.bump Ob.MGMT_RX_DISCARDS
    else match s.takeMessage msg with
      | none => s.lineUp msg
      | some s => match msg with
        | .mbox p => s.mboxAnswer p.val Status.notPermitted.code []
        | .m _ _ _ _ =>
          match s.session? x.session with
            | some v =>
              if v.confirmed && bopTag v.ks 1 (x.header ++ x.payload) = x.tag then
                { s with mgmt := { s.mgmt with
                    events := s.mgmt.events.filter fun e => !(e.session == v.id && e.number == x.seq) } }
              else s
            | none => s)

/-! ### Blocks (R382) -/

/-- Bytes of the open blocks of the module. -/
def State.blockBytes (s : State) : Nat := (s.mgmt.blocks.map fun b => b.2.total).sum

/-- BLOCK_OPEN (R382, R421). -/
def execBlockOpen (msg : BopMsg) (s : State) : Host.Outcome State Fault Refusal :=
  .next (s.serve msg (· = 0x18) fun w x t =>
    let who := blockHolder (msgPath msg) x.session
    let k := bopTarget x
    let total := leAt x.payload 4 4
    let row := odFind k.1 k.2
    let st := firstFail [
      (!w.rom && t.mayWrite w.who k.1 k.2 ≠ .ok, t.mayWrite w.who k.1 k.2),
      (!(row.any fun r => r.ty = 8) || total = 0 || 67108864 < total, .badDescriptor),
      ((look t.mgmt.blocks who).isSome || (w.rom && !t.mgmt.blocks.isEmpty) ||
        t.mgmt.blocks.any fun b => (b.2.idx, b.2.sub) == k, .resourceHeld),
      (67108864 < t.blockBytes + total, .noResource)]
    if st ≠ .ok then t.respond w.reply st
    else
      let b : Block := { idx := k.1, sub := k.2, total := total, bytes := [] }
      ({ t with mgmt := { t.mgmt with blocks := setAt t.mgmt.blocks who b } }).respond w.reply .ok)

/-- BLOCK_DATA (R382): the next bytes of the open block; bytes beyond TOTAL are refused. -/
def execBlockData (msg : BopMsg) (s : State) : Host.Outcome State Fault Refusal :=
  .next (s.serve msg (· = 0x19) fun w x t =>
    let who := blockHolder (msgPath msg) x.session
    match look t.mgmt.blocks who with
    | none => t.respond w.reply .badDescriptor
    | some b =>
      let d := x.payload.drop 4
      if leAt x.payload 0 4 ≠ b.bytes.length || b.total < b.bytes.length + d.length then
        t.respond w.reply .badDescriptor
      else
        ({ t with mgmt := { t.mgmt with blocks := setAt t.mgmt.blocks who { b with bytes := b.bytes ++ d } } }).respond
          w.reply .ok)

/-- BLOCK_ABORT (R382). -/
def execBlockAbort (msg : BopMsg) (s : State) : Host.Outcome State Fault Refusal :=
  .next (s.serve msg (· = 0x1B) fun w x t =>
    let who := blockHolder (msgPath msg) x.session
    match look t.mgmt.blocks who with
    | none => t.respond w.reply .badDescriptor
    | some _ => ({ t with mgmt := { t.mgmt with blocks := dropAt t.mgmt.blocks who } }).respond w.reply .ok)

/-! ### Writes of objects: from the message or command to the object's own rule (R391, R392, R394) -/

/-- The object a write access names, and its value, before any check; none where the access is no write. -/
def State.writeTarget (s : State) (acc : Access) : Option ((Nat × Nat) × Bytes) :=
  match acc with
  | .bop msg =>
    let x := parseBop (s.msgBytes msg)
    if x.op = 0x11 then some (bopTarget x, x.payload.drop 8)
    else if x.op = 0x1A then
      (look s.mgmt.blocks (blockHolder (msgPath msg) x.session)).map fun b => ((b.idx, b.sub), b.bytes)
    else none
  | .ring id data =>
    match s.control id 0x51 with
    | some c => some ((c.f 79 64, c.f 87 80),
        (if c.f 88 88 = 1 then (leBytes 32 (c.f 511 256)).take (c.f 127 96) else fitB (c.f 127 96) data))
    | none => none

/-- Give a write its answer, or leave it to be answered later. -/
def answerNow (w : Writer) (a : Ans) : State :=
  match a.1 with
  | some st => a.2.respond w.reply st
  | none => a.2

/-- What becomes of a write access before the object's own rule: it has been dealt with, or the rule gets this writer
and value in this state. -/
inductive Arrival where
  | dealt (s : State)
  | go (w : Writer) (v : Bytes) (s : State)

/-- The object's own rule on a write that has arrived. -/
def Arrival.run (a : Arrival) (op : Writer → Bytes → State → Ans) : State :=
  match a with
  | .dealt t => t
  | .go w v t => answerNow w (op w v t)

/-- A write comes to an object: steps 1 to 3 of R391. -/
def State.arriveObject (s : State) (w : Writer) (idx sub : Nat) (v : Bytes) : Arrival :=
  let st := if w.rom then .ok else s.writeCheck w.who idx sub v.length
  if st ≠ .ok then .dealt (s.respond w.reply st) else .go { w with idx := idx, sub := sub } v s

/-- R394 steps 1 and 2 of an OD_WRITE. -/
def State.odWriteCheck (s : State) (c : Cmd) : Status :=
  let idx := c.f 79 64
  let sub := c.f 87 80
  let inl := c.f 88 88 = 1
  let n := c.f 127 96
  firstFail [
    (c.f 95 89 ≠ 0 || c.f 255 192 ≠ 0 || n = 0 || (if inl then 32 < n else 67108864 < n) ||
      (inl && (c.f 191 128 ≠ 0 || c.f 511 256 / 2 ^ (8 * n) ≠ 0)) || (!inl && c.f 511 256 ≠ 0), .badDescriptor),
    (!(if idx / 0x1000 = 7 then (match keySlot? idx sub with
        | some k => s.freeKeyWrite (hostPrincipal c.port) k
        | none => false)
      else s.keyEmpty (4 + c.port)), .authFail)]

/-- The write of a ring command comes to its object (R394, R395). -/
def State.arriveRing (s : State) (c : Cmd) (v : Bytes) : Arrival :=
  let w : Writer := { who := hostPrincipal c.port, port := c.port, part := c.part, session := 0, slot := none,
                      ks := [], ctr := 0, idx := 0, sub := 0, reply := .ring c.id, restore := false, rom := false }
  let st := s.odWriteCheck c
  if st ≠ .ok then .dealt (s.finish c.id st 0) else s.arriveObject w (c.f 79 64) (c.f 87 80) v

/-- A block is complete and its SHA matches (R382). -/
def Block.ready (b : Block) (x : Bop) : Bool := b.bytes.length = b.total && (sha256 b.bytes).take 4 = x.payload

/-- A write access comes to an object that a row owns: `own` names the object (and value).  The state is unchanged where
the access names another object. -/
def State.arrive (s : State) (acc : Access) (own : Nat × Nat → Bytes → Bool) : Arrival :=
  match s.writeTarget acc with
  | none => .dealt s
  | some (k, v) =>
    if !own k v then .dealt s
    else match acc with
      | .ring id _ => match s.control id 0x51 with
        | some c => s.arriveRing c v
        | none => .dealt s
      | .bop msg => match s.intake msg (fun o => o = 0x11 || o = 0x1A) with
        | .dealt t => .dealt t
        | .go w x t =>
          if x.op = 0x11 then t.arriveObject w k.1 k.2 v
          else match look t.mgmt.blocks (blockHolder (msgPath msg) x.session) with
            | none => .dealt (t.respond w.reply .badDescriptor)
            | some b =>
              if !b.ready x then .dealt (t.respond w.reply .badDescriptor)
              else
                let who := blockHolder (msgPath msg) x.session
                ({ t with mgmt := { t.mgmt with blocks := dropAt t.mgmt.blocks who } }).arriveObject w k.1 k.2 v

/-- A write access to an object that a row owns, with the object's own rule `op` on a write that arrives. -/
def State.write (s : State) (acc : Access) (own : Nat × Nat → Bytes → Bool) (op : Writer → Bytes → State → Ans) :
    State := (s.arrive acc own).run op

/-- The access names the object of a key. -/
def isKey (k : Nat) : Nat × Nat → Bytes → Bool := fun x _ => x.1 * 256 + x.2 == k

/-- A write of a number: the object's own rule gets the value. -/
def numOp (op : Writer → Nat → State → Ans) : Writer → Bytes → State → Ans := fun w v s => op w (leNat v) s

end Sys2Proof.Machine
end

