-- ==== Sys2Proof/Machine/Vault.lean ====
section
/-!
DEFINITION. Upkeep of the vaults and the stand links: refresh, temperature, scrub, write-back, repair, calibration,
telemetry, wipes, flit replay and retrain (R16–R18, R43–R45, R60–R73).
-/
namespace Sys2Proof.Machine

/-- Number of a vault: stand × 64 + vault. -/
def vaultNo (stand : StandNo) (vault : VaultNo) : Nat := stand.val * 64 + vault.val

/-! ### Refresh (R64–R66) -/

/-- The vaults run their own upkeep: clocked, not in self-refresh (R74). -/
def State.vaultsRun (s : State) : Bool := s.clocked

/-- The vaults of a stand run their MAINT work: while a maintenance period covers it, nothing else runs there (R72). -/
def State.upkeepRuns (s : State) (n : Nat) : Bool := s.vaultsRun && !s.inMaint n

/-- MAINT work of `cost` access cycles can run in a stand: its scaled ceiling holds them (R38, R42, R480). -/
def State.maintRuns (s : State) (n cost : Nat) : Bool := s.upkeepRuns n && decide (cost ≤ s.maintBudget)

/-- REFRESH_INTERVAL (R64): one more interval is owed. -/
def execRefreshInterval (stand : StandNo) (vault : VaultNo) (s : State) : Host.Outcome State Fault Refusal :=
  let v := vaultNo stand vault
  let x := s.vault v
  .next (if s.vaultsRun then
    (s.setVault v { x with owed := x.owed + 1 }).put Ob.MAX_OWED (max (s.get Ob.MAX_OWED) (x.owed + 1).toNat)
  else s)

/-- FORCED_REFRESH (R43, R66): at an edge with 8 or more owed, one all-vault refresh for each interval above 7. -/
def execForcedRefresh (stand : StandNo) (vault : VaultNo) (s : State) : Host.Outcome State Fault Refusal :=
  let v := vaultNo stand vault
  let x := s.vault v
  .next (if s.upkeepRuns stand.val && 8 ≤ x.owed then
    (s.setVault v { x with owed := 7 }).bump Ob.FORCED_REFRESH (x.owed - 7).toNat else s)

/-- SLICE_REFRESH (R65): the next slice of the rotation, ahead of time down to −2; the owed count falls when the last
slice of a round has been refreshed. -/
def execSliceRefresh (stand : StandNo) (vault : VaultNo) (s : State) : Host.Outcome State Fault Refusal :=
  let v := vaultNo stand vault
  let x := s.vault v
  .next (if s.maintRuns stand.val 2 && -2 < x.owed then
    s.setVault v { x with slice := (x.slice + 1) % 16, owed := if x.slice = 15 then x.owed - 1 else x.owed }
  else s)

/-! ### Temperature (R64, R70) -/

/-- Put a stand into or out of hot mode; a change sends the THERMAL event. -/
def State.setHot (s : State) (n : Nat) (hot : Bool) : State :=
  if (s.stand n).hot = hot then s
  else
    ((s.setStand n { s.stand n with hot := hot }).put Ob.HOT_STANDS (setBit (s.get Ob.HOT_STANDS) n hot)).occur 6 0xFF 0

/-- Distance of two readings. -/
def apart (a b : Nat) : Nat := max a b - min a b

/-- R70: a stand more than 15 °C from its last calibration is stale, and the change is logged. -/
def State.checkStale (s : State) (n : Nat) : State :=
  if 15 < apart (s.stand n).temp (s.stand n).calTemp && !bitOf (s.get Ob.CAL_STALE) n then
    (s.put Ob.CAL_STALE (setBit (s.get Ob.CAL_STALE) n true)).logError
      { rep := 0, part := s.div.standPart n, unit := 0, pmis := false, synd := 0, pos2 := 0x7F, pos1 := 0x7F,
        addr := n * 2 ^ 37, source := 5, kind := 7, tick := s.now }
  else s

/-- TEMPERATURE_READING (R64): the highest of the four DRAM sensors; an empty list is a reading that failed.  DESIGN CHOICE
(log 161): after a sensor timeout put the stand into hot mode, a successful reading of 82 or 83 °C leaves it there, as it
does any hot stand. -/
def execTemperatureReading (stand : StandNo) (readings : List Nat) (s : State) : Host.Outcome State Fault Refusal :=
  let n := stand.val
  .next (
    if readings.isEmpty || !s.vaultsRun then s
    else
      let t := readings.foldl max 0
      let x := s.stand n
      let s := s.setStand n { x with temp := t, lastReading := s.now }
      let s := s.put (Ob.TEMP_STAND + n) (s.get (Ob.TEMP_STAND + n) / 256 * 256 + t % 256)
      let s := s.setHot n (if 84 ≤ t then true else if t ≤ 81 then false else x.hot)
      s.checkStale n)

/-- SENSOR_TIMEOUT (R64). -/
def execSensorTimeout (stand : StandNo) (s : State) : Host.Outcome State Fault Refusal :=
  let n := stand.val
  .next (if s.vaultsRun && 1024 ≤ s.since (s.stand n).lastReading then s.setHot n true else s)

/-! ### Scrub and write-back (R60, R67, R68) -/

/-- 64 B accesses of a vault. -/
def vaultAccesses : Nat := 33554432

/-- Passes that every vault of the device has completed. -/
def State.allPasses (s : State) : Nat :=
  (List.range 1280).foldl (fun m v => min m (s.vault v).passes) (s.vault 0).passes

/-- SCRUB_ACCESS (R67, R68): an owed read of the next 64 B of the vault in ascending order. -/
def execScrubAccess (stand : StandNo) (vault : VaultNo) (s : State) : Host.Outcome State Fault Refusal :=
  let v := vaultNo stand vault
  .next (
    if !s.maintRuns stand.val 1 || s.get Ob.SCRUB_ENABLE = 0 || (s.vault v).lag = 0 then s
    else
      let c := (s.vault v).cursor
      let s := (s.vaultRead srcScrub (stand.val * 2 ^ 37 + vault.val * 2 ^ 31 + c * 64) 64).2
      let x := s.vault v
      let x : Vault := { x with lag := x.lag - 1 }
      if c + 1 = vaultAccesses then
        let s := s.setVault v { x with cursor := 0, passes := x.passes + 1, seen := [] }
        s.put Ob.SCRUB_PASSES (min (2 ^ 32 - 1) s.allPasses)
      else s.setVault v { x with cursor := c + 1 })

/-- WRITE_BACK (R60): the oldest queued write-back is written as a fresh codeword. -/
def execWriteBack (stand : StandNo) (vault : VaultNo) (s : State) : Host.Outcome State Fault Refusal :=
  let v := vaultNo stand vault
  let x := s.vault v
  .next (match x.writeBacks with
    | [] => s
    | (wa, d) :: rest =>
      if !s.maintRuns stand.val 1 then s
      else
        let s := (s.setVault v { x with writeBacks := rest }).poke (wa * 8) (leBytes 8 d.toNat)
        { s with flips := s.flips.filter (·.1 != wa) })

/-! ### Repair (R62, R63) -/

/-- The lowest stored bit position of a slice that reached REPAIR_THRESHOLD distinct words in this pass. -/
def State.repairPos (s : State) (v slice : Nat) : Option Nat :=
  (List.range 79).find? fun p =>
    s.get Ob.REPAIR_THRESHOLD ≤ (((s.vault v).seen.filter fun m => m.1 == slice && m.2.1 == p).length)

/-- Begin a repair pass. -/
def State.startRepair (s : State) (unit pos : Nat) : State :=
  ({ s with repairPass := some { unit := unit, pos := pos, cursor := 0 } }).put Ob.REPAIR_ACTIVE unit

/-- REPAIR_PASS_START (R62): a pass starts, or waits while another runs. -/
def execRepairPassStart (stand : StandNo) (vault : VaultNo) (slice : SliceNo) (s : State) :
    Host.Outcome State Fault Refusal :=
  let unit := 1024 * stand.val + 16 * vault.val + slice.val
  .next (match s.repairPos (vaultNo stand vault) slice.val with
    | none => s
    | some pos =>
      if !s.vaultsRun || (s.repairEntry unit).isSome || s.repairQueue.any (·.1 == unit) then s
      else match s.repairPass with
        | some r => if r.unit = unit then s else { s with repairQueue := s.repairQueue ++ [(unit, pos)] }
        | none => s.startRepair unit pos)

/-- Device address of an access of a slice: inverse of the numbering in ascending offset order. -/
def sliceDa (unit c : Nat) : Nat :=
  unit / 1024 * 2 ^ 37 + unit / 16 % 64 * 2 ^ 31 + c / 256 * 2 ^ 18 + unit % 16 * 2 ^ 14 + c % 256 * 64

/-- Accesses of a slice (R63). -/
def sliceAccesses : Nat := 2097152

/-- The data of a word as its read delivers it. -/
def State.wordRead (s : State) (wa : Nat) : Nat :=
  let e := s.errorAt wa
  deliver (leNat (s.peek (wa * 8) 8)) e (match classify e with | .corrected _ f _ _ => f | _ => 0)

/-- Rewrite one access in the steered layout as one locked read-modify-write (R54, R63): its words become fresh codewords;
where one of them is uncorrectable, nothing of the 64 B is written (R59). -/
def State.steer (s : State) (da : Nat) : State :=
  let ws := s.flipped da 64
  let r := ws.foldl (fun (acc : Bool × State) wa =>
    let x := acc.2.readWord wa srcRepair
    (acc.1 && x.1, x.2)) (true, s)
  if r.1 then
    ws.foldl (fun (t : State) wa => (t.poke (wa * 8) (leBytes 8 (s.wordRead wa))).freshen (wa * 8) 8) r.2
  else r.2

/-- The soft entry of a finished pass becomes active for its slice and is logged (R63, Table 3.14). -/
def State.activateRepair (s : State) (r : RepairPass) : State :=
  let s := { s with repairs := setAt s.repairs r.unit { pos := r.pos, soft := true }, repairPass := none }
  let s := s.put Ob.REPAIR_ACTIVE 0xFFFFFFFF
  s.logError { rep := 0, part := s.div.standPart (r.unit / 1024), unit := 0, pmis := false, synd := 0, pos2 := 0x7F,
               pos1 := r.pos, addr := sliceDa r.unit 0, source := 4, kind := 4, tick := s.now }

/-- The next waiting slice's pass starts. -/
def State.nextRepair (s : State) : State :=
  match s.repairQueue with
  | [] => s
  | (u, p) :: rest => ({ s with repairQueue := rest }).startRepair u p

/-- REPAIR_PASS_STEP (R63). -/
def execRepairPassStep (s : State) : Host.Outcome State Fault Refusal :=
  .next (match s.repairPass with
    | none => s
    | some r =>
      if !s.maintRuns (r.unit / 1024) 2 then s
      else
        let s := s.steer (sliceDa r.unit r.cursor)
        if r.cursor + 1 = sliceAccesses then (s.activateRepair r).nextRepair
        else { s with repairPass := some { r with cursor := r.cursor + 1 } })

/-- COUNTER_SAMPLE (R44, R71): at an event of the interval timer that telemetry holds, a sample is taken, stamped with the
tick in which it is taken. -/
def execCounterSample (s : State) : Host.Outcome State Fault Refusal :=
  .next (if s.vaultsRun && s.ticks.timerDue && s.get Ob.TELEMETRY_PERIOD ≠ 0 then
    { s with ticks := { s.ticks with timerDue := false, sampledAt := some s.now } } else s)

/-! ### Calibration (R45, R69) -/

/-- Record that a stand has been calibrated. -/
def State.calibrated (s : State) (n : Nat) : State :=
  (s.setStand n { s.stand n with calTemp := (s.stand n).temp, calTick := s.now }).put Ob.CAL_STALE
    (setBit (s.get Ob.CAL_STALE) n false)

/-- MAINT_LENGTH of a period that calibrates one stand (R69). -/
def State.calTicks (s : State) : Nat := divUp 18800 (s.get Ob.TICK_PERIOD_ACTIVE) + 1

/-- A stand is due for calibration (R69): CAL_INTERVAL_S would pass before a period that begins `lead` ticks from now ends,
or its temperature has moved by CAL_DRIFT_C. -/
def State.calDue (s : State) (n lead : Nat) : Bool :=
  s.get Ob.CAL_INTERVAL_S * 940000000 < (s.since (s.stand n).calTick + lead + s.calTicks) * s.get Ob.TICK_PERIOD_ACTIVE ||
    s.get Ob.CAL_DRIFT_C ≤ apart (s.stand n).temp (s.stand n).calTemp

/-- MAINT_ANNOUNCE (R45, R69): firmware announces a period for a stand that is due, one period at a time, at least the lead
of R45 ahead. -/
def execMaintAnnounce (stand : StandNo) (lead : Nat) (s : State) : Host.Outcome State Fault Refusal :=
  .next (
    if s.boot.mode ≠ .running || s.clk.asleep || s.get Ob.MAINT_FIRST_TICK ≠ 0 || s.ticks.maint.isSome ||
        lead < divUp 940000 (s.get Ob.TICK_PERIOD_ACTIVE) || (s.now + lead) % 2 ^ 48 = 0 || !s.calDue stand.val lead then s
    else
      let s := (((s.put Ob.MAINT_FIRST_TICK ((s.now + lead) % 2 ^ 48)).put Ob.MAINT_SCOPE (2 ^ stand.val)).put Ob.MAINT_LENGTH
        s.calTicks).put Ob.MAINT_ANNOUNCED_AT s.now
      ([0, 1].foldl (fun t p => t.portEvent p evMaint) s).occur 2 0xFF 0)

/-- Every stand of a scope breaks the look-up bound in this tick (R49 condition 6). -/
def State.noteMaint (s : State) (scope : Nat) : State :=
  (List.range 20).foldl (fun t n => if bitOf scope n then t.noteBreak 7 n else t) s

/-- MAINT_PERIOD (R45, R69): the announced period begins; until its MAINT_LENGTH ticks have passed, the stands in its scope
serve no LAT or BULK request. -/
def execMaintPeriod (s : State) : Host.Outcome State Fault Refusal :=
  let first := s.get Ob.MAINT_FIRST_TICK
  .next (
    if first = 0 || 2 ^ 47 ≤ s.since first || s.clk.asleep then s
    else
      let scope := s.get Ob.MAINT_SCOPE
      let last := (s.now + s.get Ob.MAINT_LENGTH) % 2 ^ 48
      let s : State := { s with ticks := { s.ticks with maint := some (scope, last) } }
      (s.noteMaint scope).put Ob.MAINT_FIRST_TICK 0)

/-- At an edge of a maintenance period: the look-up bound does not hold over the tick, or the period has ended: its stands
have been calibrated, and each of their vaults has run the refresh it owes (R45, R69). -/
def State.stepMaint (s : State) : State :=
  match s.ticks.maint with
  | none => s
  | some (scope, last) =>
    if s.now ≠ last then s.noteMaint scope
    else
      let s := { s with ticks := { s.ticks with maint := none } }
      let s := (List.range 20).foldl (fun (t : State) n => if bitOf scope n then t.calibrated n else t) s
      let settle (v : Nat × Vault) : Nat × Vault :=
        if bitOf scope (v.1 / 64) then (v.1, { v.2 with owed := min v.2.owed 0 }) else v
      let s := { s with vaults := s.vaults.map settle }
      s.bump Ob.CAL_COUNT

/-! ### Wipes (R73) -/

/-- WIPE_COMPLETE (R73): the oldest running wipe ends, and its stands are calibrated (Tables 19.10 and 19.11). -/
def execWipeComplete (s : State) : Host.Outcome State Fault Refusal :=
  .next (match s.wipes with
    | [] => s
    | (_, scope) :: rest =>
      let s := (List.range 20).foldl (fun (t : State) n => if bitOf scope n then t.calibrated n else t) s
      ((({ s with wipes := rest }).put Ob.WIPE_LAST_TICK s.now).put Ob.WIPE_LAST_SCOPE scope).bump Ob.WIPE_COUNT)

/-! ### Stand links (R16–R18) -/

/-- One direction of a stand's link. -/
def Stand.link (x : Stand) (up : Bool) : Link := if up then x.up else x.down

/-- The stand with one direction of its link changed. -/
def Stand.setLink (x : Stand) (up : Bool) (l : Link) : Stand := if up then { x with up := l } else { x with down := l }

/-- The receiver rejects a flit, and the sender replays from it (R16): the flits before it have been acknowledged, it and the
later ones stay in the replay buffer.  Which flit it is, the manual leaves open. -/
def Link.fail (l : Link) (pick : Nat) : Link :=
  let i := pick % max 1 l.buffer.length
  let bad := match l.buffer[i]? with | some e => e.1 | none => l.next
  { l with buffer := l.buffer.drop i, failing := bad, fails := if l.fails ≠ 0 && l.failing = bad then l.fails + 1 else 1 }

/-- FLIT_FAILURE (R16): a replay; the fourth failure in a row of a flit leads to LINK_RETRAIN. -/
def execFlitFailure (stand : StandNo) (up : Bool) (s : State) : Host.Outcome State Fault Refusal :=
  let n := stand.val
  let x := s.stand n
  .next (
    if x.retraining || 4 ≤ (x.link up).fails then s
    else (s.free.2.setStand n (x.setLink up ((x.link up).fail s.free.1))).noteBreak 2 n)

/-- The transfers of an item fail with LINK_RETRY_EXHAUSTED (R17): a command ends with that status, and any other item is
released with it. -/
def State.cutItem (s : State) (f q : Nat) : State :=
  let p := s.div.flowPart f
  match s.flow? p f with
  | none => s
  | some x => match (x.running ++ x.slow).find? (·.seq == q) with
    | none => s
    | some it => match it.work with
      | .cmd id => match s.cmd? id with
        | some c => s.setCmd { c with cut := true }
        | none => s
      | _ =>
        let mark (l : List Item) : List Item :=
          l.map fun y => if y.seq = q && y.status = .ok then { y with status := .linkRetryExhausted } else y
        s.setFlow p f { x with running := mark x.running, slow := mark x.slow }

/-- LINK_RETRAIN (R17): a flit has failed four times in a row; every transfer with a flit in the replay buffer fails. -/
def execLinkRetrain (stand : StandNo) (up : Bool) (s : State) : Host.Outcome State Fault Refusal :=
  let n := stand.val
  let x := s.stand n
  .next (
    if x.retraining || (x.link up).fails < 4 then s
    else
      let s := (x.link up).buffer.foldl (fun (t : State) e => t.cutItem e.2.1 e.2.2) s
      ((s.setStand n { (x.setLink up { x.link up with buffer := [], fails := 0 }) with retraining := true }).bump
        (Ob.LINK_RETRAIN + n)).noteBreak 4 n)

/-- A link that retrains breaks the look-up bound in every tick of it (R49 condition 5). -/
def State.stepRetrains (s : State) : State :=
  (s.stands.filter (·.2.retraining)).foldl (fun (t : State) e => t.noteBreak 4 e.1) s

/-- RETRAIN_DONE (R17). -/
def execRetrainDone (stand : StandNo) (s : State) : Host.Outcome State Fault Refusal :=
  .next (s.setStand stand.val { s.stand stand.val with retraining := false })

end Sys2Proof.Machine
end

