-- ==== Sys2Proof/Machine/Net.lean ====
section
/-!
DEFINITION. The network ports N0 and N1: optical modules, links, frame acceptance, and the answers to ARP, Neighbor
Discovery and echo (R139–R149).
-/
namespace Sys2Proof.Machine

/-! ### Port state (R144, R147, R148) -/

/-- States of PORT_STATE (Table 6.2). -/
def psDisabled : Nat := 0
def psAbsent : Nat := 1
def psInit : Nat := 2
def psUnsupported : Nat := 3
def psNoApplication : Nat := 4
def psFault : Nat := 5
def psPinsHeld : Nat := 6
def psLinkDown : Nat := 7
def psUp : Nat := 8

/-- Set PORT_STATE; a change is a NET_PORT event (Table 15.6). -/
def State.setPortState (s : State) (n v : Nat) : State :=
  if s.get (at_ Ob.PORT_STATE n) = v then s else (s.put (at_ Ob.PORT_STATE n) v).occur 7 0xFF v

/-- The sub-ports a BREAKOUT provides (R139). -/
def subPorts (breakout : Nat) : Nat := if breakout = 0 then 1 else if breakout = 1 then 2 else 4

/-- Every sub-port of the port has link. -/
def State.allUp (s : State) (n : Nat) : Bool :=
  (List.range (subPorts (s.net n).inUse.breakout)).all fun i => bitOf (s.get (at_ Ob.SUBPORT_UP n)) i

/-- A sub-port has link. -/
def State.subUp (s : State) (n sub : Nat) : Bool := bitOf (s.get (at_ Ob.SUBPORT_UP n)) sub

/-- Every sub-port that has link loses it. -/
def State.loseLinks (s : State) (n : Nat) : State :=
  (([0, 1, 2, 3].filter (s.subUp n)).foldl (fun (t : State) j => t.noteBreak 8 (4 * n + j)) s).put (at_ Ob.SUBPORT_UP n) 0

/-! ### The enable procedure (Table 6.3) -/

/-- A byte of the module's management memory: page × 256 + byte; a byte not listed reads zero. -/
def moduleByte (m : ModuleScript) (a : Nat) : Nat := lookD m.pages a 0 % 256

/-- A step's condition is reached within its limit. -/
def stepOk (m : ModuleScript) (step : Nat) : Bool := (m.reached[step - 1]?).getD false

/-- Lower memory, upper Page 00h and upper Page 01h (step 5): bytes 0–127, 128–255 of page 0 and 128–255 of page 1. -/
def moduleInfo (m : ModuleScript) : Bytes :=
  (List.range 256).map (fun i => BitVec.ofNat 8 (moduleByte m i)) ++
    (List.range 128).map (fun i => BitVec.ofNat 8 (moduleByte m (384 + i)))

/-- Step 4: an SFF-8024 identifier of a CMIS module and a CMIS revision 4.0 to 5.x. -/
def moduleSupported (m : ModuleScript) : Bool :=
  [0x18, 0x19, 0x1E, 0x1F, 0x20, 0x21].contains (moduleByte m 0) && 0x40 ≤ moduleByte m 1 && moduleByte m 1 < 0x60

/-- SFF-8024 host interface codes for 400GAUI-4, 200GAUI-2 and 100GAUI-1 C2M, by BREAKOUT. -/
def hostCodes (breakout : Nat) : List Nat :=
  if breakout = 0 then [0x4F, 0x50] else if breakout = 1 then [0x4D, 0x4E] else [0x4B, 0x4C]

/-- Where CMIS advertises Application `k`, four bytes each: 1 to 8 from byte 86, 9 to 15 from byte 223 of Page 01h. -/
def appAddr (k : Nat) : Nat := if k ≤ 8 then 86 + 4 * (k - 1) else 256 + 223 + 4 * (k - 9)

/-- Step 6: the lowest-numbered Application that matches BREAKOUT and whose host lanes cover the sub-ports: each sub-port's
first lane is a possible one. -/
def moduleApp (m : ModuleScript) (breakout : Nat) : Option Nat :=
  let lanes := 4 / subPorts breakout
  (span 1 15).find? fun k =>
    (hostCodes breakout).contains (moduleByte m (appAddr k)) && moduleByte m (appAddr k + 2) / 16 = lanes &&
      (List.range (subPorts breakout)).all fun j => bitOf (moduleByte m (appAddr k + 3)) (j * lanes)

/-- Step 7: the writes to the module's management memory (CMIS): the ApSel and first lane of every host lane in Staged
Control Set 0, their application, and LowPwrRequestSW cleared. -/
def appWrites (m : ModuleScript) (breakout app : Nat) : List (Nat × Nat) :=
  let lanes := 4 / subPorts breakout
  ((List.range 4).map fun l => (16 * 256 + 145 + l, app * 16 + l / lanes * lanes * 2)) ++
    [(16 * 256 + 143, 0x0F), (26, setBit (moduleByte m 26) 4 false)]

/-- The configuration that an enable takes into use (R149). -/
def State.netConfig (s : State) (n : Nat) : NetConfig :=
  { breakout := s.get (at_ Ob.BREAKOUT n), mtu := s.get (at_ Ob.MTU n), vlan := s.get (at_ Ob.VLAN_ID n),
    pcpLat := s.get (at_ Ob.PCP_LAT n), ipv4 := s.dget (at_ Ob.IPV4 n), ipv6 := s.dget (at_ Ob.IPV6 n),
    udp := s.get (at_ Ob.UDP_PORT n) }

/-- Release the pins of cage bus 1 where N1 holds them. -/
def State.releasePins (s : State) (n : Nat) : State :=
  if n = 1 && s.get Ob.PIN_HOLDER = 2 then s.put Ob.PIN_HOLDER 0 else s

/-- Drive a cage's ResetL and LPMode. -/
def State.cage (s : State) (n : Nat) (resetLow lpModeHigh : Bool) : State :=
  (s.setNet n { s.net n with resetLow := resetLow, lpModeHigh := lpModeHigh }).emit (.moduleReset n resetLow lpModeHigh)

/-- A failed enable returns the cage to its state before the write (R144). -/
def State.enableFails (s : State) (n state : Nat) : State :=
  (((s.cage n true true).releasePins n).put (at_ Ob.PORT_ENABLE n) 0).setPortState n state

/-- Run the steps of Table 6.3: the status that completes the write, and the state after.  The written configuration comes
into use where the enable succeeds or stays pending (R3, R149). -/
def State.enablePort (s : State) (n : Nat) (m : ModuleScript) : Status × State :=
  let cfg := s.netConfig n
  let s := (s.put (at_ Ob.PORT_ENABLE n) 1).setNet n { s.net n with modPresent := m.present }
  if !m.present then (.ok, (s.setNet n { s.net n with inUse := cfg }).setPortState n psAbsent)
  else if n = 1 && s.get Ob.PIN_HOLDER = 1 then
    (.resourceHeld, ((s.put (at_ Ob.PORT_ENABLE n) 0).bump Ob.CLAIMS_REFUSED).setPortState n psPinsHeld)
  else
    let s := if n = 1 then s.put Ob.PIN_HOLDER 2 else s
    let s := (s.cage n false true).setPortState n psInit
    if !stepOk m 3 then (.linkRetryExhausted, s.enableFails n psFault)
    else if !moduleSupported m then (.noResource, s.enableFails n psUnsupported)
    else if !stepOk m 5 then (.linkRetryExhausted, s.enableFails n psFault)
    else
      let s := s.dput (at_ Ob.MODULE_INFO n) (moduleInfo m)
      match moduleApp m cfg.breakout with
      | none => (.noResource, s.enableFails n psNoApplication)
      | some app =>
        let s := ((appWrites m cfg.breakout app).foldl (fun (t : State) w => t.emit (.moduleWrite n w.1 w.2)) s).cage n false false
        if !stepOk m 7 || !stepOk m 8 then (.linkRetryExhausted, s.enableFails n psFault)
        else (.ok, (s.setNet n { s.net n with inUse := cfg }).setPortState n psLinkDown)

/-- The enable of a port whose stored PORT_ENABLE is 1, at the end of the boot (R146): with a module present its first steps
run, and MODULE_PRESENT brings what the module answers to the others. -/
def State.restorePort (s : State) (n : Nat) : Status × State :=
  if !(s.net n).modPresent then s.enablePort n { present := false, pages := [], reached := [] }
  else if n = 1 && s.get Ob.PIN_HOLDER = 1 then s.enablePort n { present := true, pages := [], reached := [] }
  else
    let s := (s.put (at_ Ob.PORT_ENABLE n) 1).setNet n { s.net n with inUse := s.netConfig n }
    let s := if n = 1 then s.put Ob.PIN_HOLDER 2 else s
    (.ok, (s.cage n false true).setPortState n psInit)

/-- Port of a network object's index. -/
def netOf (idx : Nat) : Nat := idx - Ob.PORT_ENABLE / 256

/-- The access names PORT_ENABLE of either port, with a value that passes `v`. -/
def isPortEnable (v : Nat → Bool) : Nat × Nat → Bytes → Bool := fun x b =>
  (x.1 * 256 + x.2 == Ob.PORT_ENABLE || x.1 * 256 + x.2 == at_ Ob.PORT_ENABLE 1) && v (leNat b)

/-- PORT_ENABLE (R144, R146): a write of 1. -/
def execPortEnable (acc : Access) (module : ModuleScript) (s : State) : Host.Outcome State Fault Refusal :=
  .next (s.write acc (isPortEnable (· = 1)) (numOp fun w _ s =>
    let n := netOf w.idx
    if s.get (at_ Ob.PORT_ENABLE n) = 1 then (some .ok, s)
    else
      let r := s.enablePort n module
      (some r.1, r.2)))

/-- Disable a port (R148). -/
def State.disablePort (s : State) (n : Nat) : State :=
  let s := (s.put (at_ Ob.PORT_ENABLE n) 0).loseLinks n
  ((s.cage n (s.net n).resetLow true).releasePins n).setPortState n psDisabled

/-- PORT_DISABLE (R146, R148): a write of 0; any other value is refused (R149). -/
def execPortDisable (acc : Access) (s : State) : Host.Outcome State Fault Refusal :=
  .next (s.write acc (isPortEnable (· ≠ 1)) (numOp fun w v s =>
    let n := netOf w.idx
    if v ≠ 0 then (some .badDescriptor, s)
    else if s.get (at_ Ob.PORT_ENABLE n) = 0 then (some .ok, s)
    else (some .ok, s.disablePort n)))

/-! ### Links and modules (R144, R147, R148) -/

/-- The port is enabled and its module runs: links can come and go. -/
def State.portRuns (s : State) (n : Nat) : Bool :=
  s.get (at_ Ob.PORT_ENABLE n) = 1 && psLinkDown ≤ s.get (at_ Ob.PORT_STATE n)

/-- LINK_UP: training and FEC lock finish on the sub-ports of a mask (R144). -/
def execLinkUp (net : NetNo) (subs : Nat) (s : State) : Host.Outcome State Fault Refusal :=
  let n := net.val
  .next (if s.portRuns n && s.macRuns n then
    let mask := subs % 2 ^ subPorts (s.net n).inUse.breakout
    let s := s.put (at_ Ob.SUBPORT_UP n) (s.get (at_ Ob.SUBPORT_UP n) ||| mask)
    if s.allUp n then s.setPortState n psUp else s
  else s)

/-- SUBPORT_LINK_LOSS (R148). -/
def execSubportLinkLoss (net : NetNo) (sub : SubNo) (s : State) : Host.Outcome State Fault Refusal :=
  let n := net.val
  .next (if s.portRuns n && s.subUp n sub.val then
    ((s.put (at_ Ob.SUBPORT_UP n) (setBit (s.get (at_ Ob.SUBPORT_UP n)) sub.val false)).noteBreak 8
      (4 * n + sub.val)).setPortState n psLinkDown
  else s)

/-- MODULE_REMOVED (R147). -/
def execModuleRemoved (net : NetNo) (s : State) : Host.Outcome State Fault Refusal :=
  let n := net.val
  let s' := s.setNet n { s.net n with modPresent := false }
  .next (if s.get (at_ Ob.PORT_ENABLE n) = 1 then (s'.loseLinks n).setPortState n psAbsent else s')

/-- MODULE_PRESENT: on an enabled port whose module was absent or faulty the enable runs again from step 1 (R147). -/
def execModulePresent (net : NetNo) (module : ModuleScript) (s : State) : Host.Outcome State Fault Refusal :=
  let n := net.val
  let s' := s.setNet n { s.net n with modPresent := module.present }
  .next (if s.get (at_ Ob.PORT_ENABLE n) = 1 && module.present && s.get (at_ Ob.PORT_STATE n) < psLinkDown then
    (s'.enablePort n module).2 else s')

/-- MODULE_FAULT (R147). -/
def execModuleFault (net : NetNo) (s : State) : Host.Outcome State Fault Refusal :=
  let n := net.val
  .next (if s.portRuns n then (s.loseLinks n).setPortState n psFault else s)

/-! ### Addresses (R140) -/

/-- The modified EUI-64 interface identifier of a MAC address. -/
def eui64 (mac : Nat) : Nat :=
  (mac / 2 ^ 24 % 2 ^ 24 ^^^ 0x020000) * 2 ^ 40 + 0xFFFE * 2 ^ 24 + mac % 2 ^ 24

/-- The link-local address of a MAC address. -/
def linkLocal (mac : Nat) : Nat := 0xFE80 * 2 ^ 112 + eui64 mac

/-- The MAC address of a sub-port: MAC_BASE, a multiple of 8, + 4 × n + s. -/
def subMac (n sub : Nat) : Nat := firstMac + 4 * n + sub

/-- The IPv4 address of a sub-port; 0 for none. -/
def NetConfig.ip4 (c : NetConfig) (sub : Nat) : Nat := beAt c.ipv4 (4 * sub) 4

/-- The IPv6 addresses of a sub-port. -/
def NetConfig.ip6 (c : NetConfig) (n sub : Nat) : List Nat :=
  let a := beAt c.ipv6 (16 * sub) 16
  linkLocal (subMac n sub) :: (if a = 0 then [] else [a])

/-- The solicited-node multicast address of an IPv6 address, and its MAC address. -/
def solicited (a : Nat) : Nat := 0xFF02 * 2 ^ 112 + 0x1FF * 2 ^ 24 + a % 2 ^ 24
def solicitedMac (a : Nat) : Nat := 0x3333FF * 2 ^ 24 + a % 2 ^ 24

/-! ### Frames -/

/-- An Ethernet frame's parts: addresses, VLAN ID where tagged, EtherType and payload. -/
structure Frame where
  dst : Nat
  src : Nat
  vlan : Option Nat
  ethertype : Nat
  payload : Bytes
deriving DecidableEq, Repr

/-- Read a frame (without its FCS). -/
def parseFrame (b : Bytes) : Frame :=
  if beAt b 12 2 = 0x8100 then
    { dst := beAt b 0 6, src := beAt b 6 6, vlan := some (beAt b 14 2 % 4096), ethertype := beAt b 16 2,
      payload := b.drop 18 }
  else { dst := beAt b 0 6, src := beAt b 6 6, vlan := none, ethertype := beAt b 12 2, payload := b.drop 14 }

/-- Build a frame with a VLAN tag where `vlan` is not 0, padded to 60 B. -/
def buildFrame (dst src vlan ethertype : Nat) (payload : Bytes) : Bytes :=
  let f := beBytes 6 dst ++ beBytes 6 src ++ (if vlan = 0 then [] else beBytes 2 0x8100 ++ beBytes 2 vlan) ++
    beBytes 2 ethertype ++ payload
  f ++ List.replicate (60 - f.length) 0

/-- The one's-complement sum of 16-bit big-endian words, folded. -/
def onesSum (b : Bytes) : Nat :=
  let t := ((chunksOf 2 (b.length + 1) b).map fun w => beNat (fitB 2 w)).foldl (· + ·) 0
  if t = 0 then 0 else (t - 1) % 0xFFFF + 1

/-- The Internet checksum of a byte string. -/
def inetSum (b : Bytes) : Nat := 0xFFFF - onesSum b

/-- A UDP checksum is acceptable: correct where non-zero, and non-zero under IPv6 (R141). -/
def udpSumOk (v6 : Bool) (src dst : Nat) (udp : Bytes) : Bool :=
  let w := if v6 then 16 else 4
  let pseudo := beBytes w src ++ beBytes w dst ++ beBytes 4 udp.length ++ beBytes 4 17
  if beAt udp 6 2 = 0 then !v6 else onesSum (pseudo ++ udp) = 0xFFFF

/-- What an accepted frame is. -/
inductive Rx where
  | arp (senderMac senderIp : Nat)
  | echo4 (src : Nat) (icmp : Bytes)
  | echo6 (src dst : Nat) (icmp : Bytes)
  | solicit (src target : Nat)
  | udp (v6 : Bool) (src : Nat) (bytes : Bytes)
  | other
deriving DecidableEq, Repr

/-- Acceptance of an IPv4 packet (R141). -/
def acceptV4 (c : NetConfig) (sub : Nat) (b : Bytes) : Option Rx :=
  let ihl := beAt b 0 1 % 16 * 4
  let total := beAt b 2 2
  let src := beAt b 12 4
  let dst := beAt b 16 4
  let body := (b.take total).drop ihl
  if beAt b 0 1 / 16 ≠ 4 || ihl < 20 || total < ihl || b.length < total || onesSum (b.take ihl) ≠ 0xFFFF ||
      beAt b 6 2 % 0x4000 ≠ 0 || dst ≠ c.ip4 sub || dst = 0 then none
  else if beAt b 9 1 = 17 then
    if body.length < 8 || beAt body 4 2 ≠ body.length || beAt body 2 2 ≠ c.udp || !udpSumOk false src dst body then none
    else some (.udp false src body)
  else if beAt b 9 1 = 1 then
    if beAt body 0 1 = 8 && 8 ≤ body.length then some (.echo4 src body) else some .other
  else none

/-- Acceptance of an IPv6 packet (R141): a Neighbor Solicitation may also go to a solicited-node multicast address. -/
def acceptV6 (own : List Nat) (udpPort : Nat) (b : Bytes) : Option Rx :=
  let plen := beAt b 4 2
  let src := beAt b 8 16
  let dst := beAt b 24 16
  let body := (b.take (40 + plen)).drop 40
  let nh := beAt b 6 1
  let ns := nh = 58 && beAt body 0 1 = 135
  if b.length < 40 + plen || beAt b 0 1 / 16 ≠ 6 || !(nh = 17 || nh = 58) ||
      !(own.contains dst || (ns && own.any fun a => solicited a == dst)) then none
  else if nh = 17 then
    if body.length < 8 || beAt body 4 2 ≠ body.length || beAt body 2 2 ≠ udpPort || !udpSumOk true src dst body then none
    else some (.udp true src body)
  else if ns then
    if 24 ≤ body.length && own.contains (beAt body 8 16) then some (.solicit src (beAt body 8 16)) else some .other
  else if beAt body 0 1 = 128 && 8 ≤ body.length then some (.echo6 src dst body) else some .other

/-- Acceptance of a frame by a sub-port (R139, R141); none where it is discarded.  The frame comes without its FCS of 4 B. -/
def State.accept (s : State) (n sub : Nat) (b : Bytes) (fcsOk : Bool) : Option Rx :=
  let c := (s.net n).inUse
  let f := parseFrame b
  let own := c.ip6 n sub
  let mine := f.dst = subMac n sub
  let tagLen := if c.vlan = 0 then 0 else 4
  if !fcsOk || b.length < 60 || b.length > c.mtu + 14 + tagLen then none
  else if (if c.vlan = 0 then f.vlan.isSome else f.vlan ≠ some c.vlan) then none
  else if f.ethertype = 0x0806 then
    if !(mine || f.dst = 2 ^ 48 - 1) then none
    else if beAt f.payload 0 8 = 0x0001080006040001 && c.ip4 sub ≠ 0 && beAt f.payload 24 4 = c.ip4 sub then
      some (.arp (beAt f.payload 8 6) (beAt f.payload 14 4))
    else some .other
  else if f.ethertype = 0x0800 then if mine then acceptV4 c sub f.payload else none
  else if f.ethertype = 0x86DD then
    match acceptV6 own c.udp f.payload with
    | none => none
    | some r =>
      let nd := match r with | .solicit _ _ => true | _ => false
      if mine || (nd && own.any fun a => solicitedMac a == f.dst) then some r else none
  else none

/-- A sub-port hears: it has link and its MAC is clocked (R147, R148). -/
def State.netHears (s : State) (n sub : Nat) : Bool := s.portRuns n && s.subUp n sub && s.macRuns n

/-- A sub-port can send: it has link and its MAC is clocked. -/
def State.netCan (s : State) (n sub : Nat) : Bool := s.subUp n sub && s.macRuns n

/-- Send a frame from a sub-port, or discard and count the reply of one without link (R148). -/
def State.netSend (s : State) (n sub : Nat) (o : Output) : State :=
  if s.netCan n sub then (s.emit o).bump (at_ Ob.TX_FRAMES n) else s.bump (at_ Ob.RSP_DISCARDED n)

/-- RX_DISCARDS (R141): a frame that fails acceptance is discarded and counted. -/
def execRxDiscards (net : NetNo) (sub : SubNo) (frame : Bytes) (fcsOk : Bool) (s : State) :
    Host.Outcome State Fault Refusal :=
  .next (if s.netHears net.val sub.val && (s.accept net.val sub.val frame fcsOk).isNone then
    s.bump (at_ Ob.RX_DISCARDS net.val) else s)

/-! ### Answers (R142, R143) -/

/-- An IPv4 header: TTL 64, DSCP 0, DF (R143). -/
def ip4Header (proto src dst len : Nat) : Bytes :=
  let h (sum : Nat) : Bytes := beBytes 4 (0x45000000 + 20 + len) ++ beBytes 4 0x4000 ++
    beBytes 4 (64 * 2 ^ 24 + proto * 2 ^ 16 + sum) ++ beBytes 4 src ++ beBytes 4 dst
  h (inetSum (h 0))

/-- An IPv6 header with DSCP 0. -/
def ip6Header (next hop src dst len : Nat) : Bytes :=
  beBytes 4 0x60000000 ++ beBytes 2 len ++ beBytes 1 next ++ beBytes 1 hop ++ beBytes 16 src ++ beBytes 16 dst

/-- A UDP datagram with its checksum over the pseudo-header; a sum of 0 is sent as 0xFFFF. -/
def udpDatagram (v6 : Bool) (src dst srcPort dstPort : Nat) (b : Bytes) : Bytes :=
  let w := if v6 then 16 else 4
  let len := b.length + 8
  let h (sum : Nat) : Bytes := beBytes 2 srcPort ++ beBytes 2 dstPort ++ beBytes 2 len ++ beBytes 2 sum
  let sum := inetSum (beBytes w src ++ beBytes w dst ++ beBytes 4 len ++ beBytes 4 17 ++ h 0 ++ b)
  h (if sum = 0 then 0xFFFF else sum) ++ b

/-- An ICMPv6 message with its checksum over the pseudo-header. -/
def icmp6 (src dst : Nat) (kind : Nat) (rest : Bytes) : Bytes :=
  let len := rest.length + 4
  let sum := inetSum (beBytes 16 src ++ beBytes 16 dst ++ beBytes 4 len ++ beBytes 4 58 ++ beBytes 4 (kind * 2 ^ 24) ++ rest)
  beBytes 1 kind ++ beBytes 1 0 ++ beBytes 2 sum ++ rest

/-- A Neighbor Advertisement of `target` at `mac`: solicited, override. -/
def neighborAdvert (mac target dst hop : Nat) : Bytes :=
  let b := icmp6 target dst 136 (beBytes 4 0x60000000 ++ beBytes 16 target ++ beBytes 2 0x0201 ++ beBytes 6 mac)
  ip6Header 58 hop target dst b.length ++ b

/-- An ICMPv6 Echo Reply. -/
def echoReply6 (src dst hop : Nat) (icmp : Bytes) : Bytes :=
  let b := icmp6 src dst 129 (icmp.drop 4)
  ip6Header 58 hop src dst b.length ++ b

/-- An ICMP Echo Reply. -/
def echoReply4 (src dst : Nat) (icmp : Bytes) : Bytes :=
  let sum := inetSum (beBytes 4 0 ++ icmp.drop 4)
  let b := beBytes 2 0 ++ beBytes 2 sum ++ icmp.drop 4
  ip4Header 1 src dst b.length ++ b

/-- Answer an accepted frame of a sub-port with a packet of an EtherType. -/
def State.answerFrame (s : State) (n sub : Nat) (frame : Bytes) (ethertype : Nat) (payload : Bytes) : State :=
  let f := parseFrame frame
  (s.bump (at_ Ob.RX_FRAMES n)).netSend n sub
    (.neighbour n sub (buildFrame f.src (subMac n sub) (s.net n).inUse.vlan ethertype payload))

/-- What a sub-port does with a received frame (R139, R141): an accepted one is counted and, where it asks for an answer,
answered; any other is discarded and counted.  An RLT datagram comes with the commands of its own and is left to them. -/
def State.hear (s : State) (n sub : Nat) (frame : Bytes) : State :=
  if !s.netHears n sub then s
  else match s.accept n sub frame true with
    | none => s.bump (at_ Ob.RX_DISCARDS n)
    | some (.udp _ _ _) => s
    | some .other => s.bump (at_ Ob.RX_FRAMES n)
    | some (.arp mac ip) =>
      s.answerFrame n sub frame 0x0806
        (beBytes 8 0x0001080006040002 ++ beBytes 6 (subMac n sub) ++ beBytes 4 ((s.net n).inUse.ip4 sub) ++
          beBytes 6 mac ++ beBytes 4 ip)
    | some (.solicit src target) => s.answerFrame n sub frame 0x86DD (neighborAdvert (subMac n sub) target src 64)
    | some (.echo4 src icmp) => s.answerFrame n sub frame 0x0800 (echoReply4 ((s.net n).inUse.ip4 sub) src icmp)
    | some (.echo6 src dst icmp) => s.answerFrame n sub frame 0x86DD (echoReply6 dst src 64 icmp)

/-- ARP_REQUEST (R139). -/
def execArpRequest (net : NetNo) (sub : SubNo) (frame : Bytes) (s : State) : Host.Outcome State Fault Refusal :=
  .next (s.hear net.val sub.val frame)

/-- Acceptance of a frame by port M (R367): none where it is discarded. -/
def State.acceptM (s : State) (b : Bytes) : Option Rx :=
  let f := parseFrame b
  let ll := linkLocal (Config.mgmtMac % 2 ^ 48)
  let dst := beAt f.payload 24 16
  let src := beAt f.payload 8 16
  let all := 0xFF02 * 2 ^ 112 + 1
  if !(f.dst = Config.mgmtMac % 2 ^ 48 || f.dst = 0x333300000001 || f.dst = solicitedMac ll) || f.vlan.isSome ||
      f.ethertype ≠ 0x86DD || beAt f.payload 7 1 ≠ 255 || src / 2 ^ 118 ≠ 0x3FA then none
  else if dst = all then
    if beAt f.payload 6 1 = 58 || beAt f.payload 6 1 = 17 then some .other else none
  else acceptV6 [ll] s.mgmt.udpPort f.payload

/-- Answer a frame of port M with an IPv6 packet of hop limit 255 (R367). -/
def State.answerM (s : State) (frame payload : Bytes) : State :=
  s.mgmtSend (.mgmtNeighbour (buildFrame (parseFrame frame).src (Config.mgmtMac % 2 ^ 48) 0 0x86DD payload))

/-- Port M is powered, booted and clocked by the XO (R457). -/
def State.mHears (s : State) : Bool := s.boot.mode != .off && s.clocked && s.clk.xoOk

/-- What port M does with a received frame (R367): Neighbor Solicitations and Echo Requests are answered. -/
def State.hearM (s : State) (frame : Bytes) : State :=
  if !s.mHears then s
  else match s.acceptM frame with
    | none => s.bump Ob.MGMT_RX_DISCARDS
    | some (.solicit src target) => s.answerM frame (neighborAdvert (Config.mgmtMac % 2 ^ 48) target src 255)
    | some (.echo6 src dst icmp) => s.answerM frame (echoReply6 dst src 255 icmp)
    | some _ => s

/-- NEIGHBOR_SOLICITATION (R139, R367). -/
def execNeighborSolicitation (path : NdPath) (frame : Bytes) (s : State) : Host.Outcome State Fault Refusal :=
  .next (match path with
    | .net n sub => s.hear n.val sub.val frame
    | .m => s.hearM frame)

/-- ECHO_REQUEST (R139, R363). -/
def execEchoRequest (path : NdPath) (frame : Bytes) (s : State) : Host.Outcome State Fault Refusal :=
  .next (match path with
    | .net n sub => s.hear n.val sub.val frame
    | .m => s.hearM frame)

end Sys2Proof.Machine
end

