-- ==== Sys2Proof/Machine/Rlt.lean ====
section
/-!
DEFINITION. The Ramyth Log Transport: packets, streams, window and credit, gaps and retransmission (R150–R164).
-/
namespace Sys2Proof.Machine

/-! ### Packets (R150–R152) -/

/-- The fields of an RLT packet (Table 6.4). -/
structure Rlt where
  ver : Nat
  kind : Nat
  flags : Nat
  stream : Nat
  seq : Nat
  w1 : Nat
  w2 : Nat
  plen : Nat
  rsvd : Nat
  crcOk : Bool
  payload : Bytes
deriving DecidableEq, Repr

/-- Read an RLT packet. -/
def parseRlt (b : Bytes) : Rlt :=
  { ver := beAt b 0 1 / 16, kind := beAt b 0 1 % 16, flags := beAt b 1 1, stream := beAt b 2 2, seq := beAt b 4 4,
    w1 := beAt b 8 4, w2 := beAt b 12 4, plen := beAt b 16 2, rsvd := beAt b 18 2,
    crcOk := decide (24 ≤ b.length) && crc32c (b.take 20 ++ [0, 0, 0, 0] ++ b.drop 24) == beAt b 20 4,
    payload := b.drop 24 }

/-- The packet breaks the form of R152 (its CRC aside). -/
def rltMalformed (b : Bytes) : Bool :=
  let x := parseRlt b
  x.ver ≠ 1 || !(x.kind = 1 || x.kind = 4) || x.rsvd ≠ 0 || x.flags ≥ (if x.kind = 1 then 16 else 1) ||
    b.length < 24 || x.plen ≠ b.length - 24 ||
    (if x.kind = 1 then x.plen > 8192 || (x.plen = 0 && x.flags % 8 ≠ 4) else x.plen < 8 || 392 < x.plen)

/-- Build an RLT packet that the module sends. -/
def buildRlt (kind flags stream seq w1 w2 : Nat) (payload : Bytes) : Bytes :=
  let h := beBytes 1 (16 + kind) ++ beBytes 1 flags ++ beBytes 2 stream ++ beBytes 4 seq ++ beBytes 4 w1 ++ beBytes 4 w2 ++
    beBytes 2 payload.length ++ beBytes 2 0
  h ++ beBytes 4 (crc32c (h ++ [0, 0, 0, 0] ++ payload)) ++ payload

/-- The datagram passes frame acceptance: its packet is no longer than the MTU, and it is for this sub-port and its UDP
port (R139, R141). -/
def State.datagramOk (s : State) (n sub : Nat) (k : RltPacket) : Bool :=
  let c := (s.net n).inUse
  k.dstPort = c.udp && k.vlan = (c.vlan != 0) && decide ((if k.v6 then 40 else 20) + 8 + k.bytes.length ≤ c.mtu) &&
    (if k.v6 then (c.ip6 n sub).contains k.dstAddr else c.ip4 sub ≠ 0 && k.dstAddr = c.ip4 sub)

/-- Key of an RLT counter of the partition that owns a port. -/
def State.rltKey (s : State) (k n : Nat) : Nat := at_ k (s.div.netPart n)

/-- What a received datagram comes to before its type counts: discarded and counted, or a packet. -/
def State.rltIntake (s : State) (n sub : Nat) (k : RltPacket) : Option Rlt × State :=
  if !s.datagramOk n sub k then (none, s.bump (at_ Ob.RX_DISCARDS n))
  else
    let s := s.bump (at_ Ob.RX_FRAMES n)
    let x := parseRlt k.bytes
    if 24 ≤ k.bytes.length && !x.crcOk then (none, s.bump (s.rltKey Ob.CRC_DISCARDS n))
    else if rltMalformed k.bytes then (none, s.bump (s.rltKey Ob.MALFORMED n))
    else (some x, s)

/-- MALFORMED (R152): a packet with a failed CRC or a malformed header. -/
def execMalformed (net : NetNo) (sub : SubNo) (packet : RltPacket) (s : State) : Host.Outcome State Fault Refusal :=
  .next (if !s.netHears net.val sub.val then s
    else
      let r := s.rltIntake net.val sub.val packet
      if r.1.isNone then r.2 else s)

/-! ### Sending (R142, R143, R152) -/

/-- Whom a reply goes to, the source of the packet it answers, and which of the sub-port's own addresses it leaves from:
the one that packet was sent to. -/
structure Peer where
  net : Nat
  sub : Nat
  mac : Nat
  addr : Nat
  port : Nat
  v6 : Bool
  own : Nat
deriving DecidableEq, Repr

/-- The frame of an RLT packet to a peer with a priority code point (R142, R143): TTL or hop limit 64, DSCP 0, DF. -/
def NetConfig.rltFrame (c : NetConfig) (d : Peer) (pcp : Nat) (b : Bytes) : Bytes :=
  let u := udpDatagram d.v6 d.own d.addr c.udp d.port b
  buildFrame d.mac (subMac d.net d.sub) (if c.vlan = 0 then 0 else pcp * 8192 + c.vlan) (if d.v6 then 0x86DD else 0x0800)
    ((if d.v6 then ip6Header 17 64 d.own d.addr u.length else ip4Header 17 d.own d.addr u.length) ++ u)

/-- Send an RLT packet to a peer with a priority code point. -/
def State.sendRlt (s : State) (d : Peer) (pcp : Nat) (b : Bytes) : State :=
  s.netSend d.net d.sub (.ethernet d.net d.sub ((s.net d.net).inUse.rltFrame d pcp b))

/-- Send an RLT packet and count it; a discarded one is not counted as sent. -/
def State.sendCounted (s : State) (key : Nat) (d : Peer) (b : Bytes) : State :=
  (if s.netCan d.net d.sub then s.bump key else s).sendRlt d 0 b

/-- The sender of a packet. -/
def packetPeer (k : RltPacket) (n sub : Nat) : Peer :=
  { net := n, sub := sub, mac := k.srcMac, addr := k.srcAddr, port := k.srcPort, v6 := k.v6, own := k.dstAddr }

/-- Send an ERROR, at most one per tick and sub-port (R152). -/
def State.sendError (s : State) (d : Peer) (kind stream seq : Nat) (st : Status) (object : Nat) : State :=
  let x := s.net d.net
  let b := buildRlt 6 0 stream seq (st.code + 256 * kind) object []
  if !s.netCan d.net d.sub then s.sendRlt d 0 b
  else if x.errorSent.contains d.sub then s.bump (s.rltKey Ob.ERRORS_SUPPRESSED d.net)
  else (s.setNet d.net { x with errorSent := d.sub :: x.errorSent }).sendCounted (s.rltKey Ob.ERRORS_SENT d.net) d b

/-! ### Streams -/

/-- Slots of a stream (Table 6.6). -/
def Stream.slots (x : Stream) : Nat := 8 * x.rxRegions

/-- LIMIT (R157). -/
def Stream.limit (x : Stream) : Nat := (x.freed + x.slots) % 2 ^ 32

/-- Distance from `a` up to `b` modulo 2^32 (R150). -/
def seqDist (a b : Nat) : Nat := (b + 2 ^ 32 - a) % 2 ^ 32

/-- Landing-buffer address of the slot of a SEQ: slots of 8,192 B in the receive regions. -/
def Stream.slotAddr (x : Stream) (seq : Nat) : Nat := x.rxFirst * 65536 + seq % x.slots * 8192

/-- The sender of a stream's most recently accepted DATA packet (R142). -/
def Stream.peer (x : Stream) : Peer :=
  { net := x.port, sub := x.subport, mac := x.srcMac, addr := x.srcAddr, port := x.srcPort, v6 := x.v6, own := x.dstAddr }

/-- The stream of an ID that a partition holds open. -/
def State.stream? (s : State) (p id : Nat) : Option Stream := look (s.part p).streams id

/-- The state with a stream changed. -/
def State.setStream (s : State) (p id : Nat) (x : Stream) : State :=
  s.setPart p { s.part p with streams := setAt (s.part p).streams id x }

/-- Advance ACK over the packets held (R157), with fuel. -/
def Stream.advance : Nat → Stream → Stream
  | 0, x => x
  | fuel + 1, x =>
    if (x.held.any fun h => h.1 == x.ack) then Stream.advance fuel { x with ack := (x.ack + 1) % 2 ^ 32 } else x

/-- A packet above ACK is held, so a gap is open. -/
def Stream.hasGap (x : Stream) : Bool :=
  x.held.any fun h => h.1 != x.ack && decide (seqDist x.ack h.1 < 2 ^ 31)

/-- Accept a DATA packet into its slot, and open or close the gap (R158, R160). -/
def Stream.accept (x : Stream) (k : RltPacket) (r : Rlt) (now : Nat) : Stream :=
  let pkt : HeldPacket := { flags := r.flags, object := r.w1, offset := r.w2, bytes := r.payload }
  let old := x.ack
  let x := { x with held := x.held ++ [(r.seq, pkt)], accepted := true, srcMac := k.srcMac, srcAddr := k.srcAddr,
                    srcPort := k.srcPort, v6 := k.v6, dstAddr := k.dstAddr,
                    highest := if x.held.isEmpty && !x.accepted || seqDist x.highest r.seq < 2 ^ 31 then r.seq else x.highest }
  let x := Stream.advance (x.held.length) x
  if !x.hasGap then { x with gapOpen := none, nackSent := none }
  else if x.ack ≠ old || x.gapOpen.isNone then { x with gapOpen := some now, nackSent := none }
  else x

/-- The filters of a stream reject a source (R154). -/
def Stream.refuses (x : Stream) (k : RltPacket) : Bool :=
  (if k.v6 then x.srcIp6 ≠ 0 && x.srcIp6 ≠ k.srcAddr else x.srcIp4 ≠ 0 && x.srcIp4 ≠ k.srcAddr) ||
    (x.srcUdp ≠ 0 && x.srcUdp ≠ k.srcPort)

/-- A DATA packet that passed R152 (R153, R154, R158, R162, R164). -/
def State.rltData (s : State) (n sub : Nat) (k : RltPacket) (r : Rlt) : State :=
  let p := s.div.netPart n
  let d := packetPeer k n sub
  let err (st : Status) (t : State) : State := t.sendError d 1 r.stream r.seq st r.w1
  match s.stream? p r.stream with
  | none => err .badDescriptor s
  | some x =>
    if x.port ≠ n || x.subport ≠ sub then err .badDescriptor s
    else if x.refuses k then s.bump (at_ Ob.SRC_REFUSED p)
    else if x.sstate = 2 then err .linkRetryExhausted s
    else if x.sstate = 3 then err .badDescriptor s
    else if 2 ^ 31 ≤ seqDist x.ack r.seq || x.held.any fun h => h.1 == r.seq then s.bump (at_ Ob.DUPLICATES p)
    else if x.slots ≤ seqDist x.freed r.seq then err .noResource (s.bump (at_ Ob.BEYOND_LIMIT p))
    else
      ((s.setStream p r.stream (x.accept k r s.now)).lbufWrite (x.slotAddr r.seq) r.payload).bump (at_ Ob.DATA_ACCEPTED p)

/-- DATA. -/
def execData (net : NetNo) (sub : SubNo) (packet : RltPacket) (s : State) : Host.Outcome State Fault Refusal :=
  .next (if !s.netHears net.val sub.val then s
    else match s.rltIntake net.val sub.val packet with
      | (some r, t) => if r.kind = 1 then t.rltData net.val sub.val packet r else s
      | (none, t) => t)

/-! ### Credit and gaps (R159–R162) -/

/-- A stream of the partition that has accepted DATA, whether open, failed or ended (R159). -/
def State.liveStream (s : State) (p id : Nat) : Option Stream :=
  match s.stream? p id with
  | some x => if x.accepted then some x else none
  | none => none

/-- Send a CREDIT (R159). -/
def State.sendCredit (s : State) (p id : Nat) (x : Stream) (keepalive : Bool) : State :=
  (s.setStream p id { x with lastSent := s.now, sentAck := x.ack, sentLimit := x.limit }).sendRlt x.peer 0
    (buildRlt 3 (b2n keepalive) id x.ack x.limit (s.now % 2 ^ 32) [])

/-- CREDIT (R159): at a tick edge, after a change past CREDIT_GAP or after KEEPALIVE ticks. -/
def execCredit (part : PartNo) (stream : StreamNo) (s : State) : Host.Outcome State Fault Refusal :=
  let p := part.val
  .next (match s.liveStream p stream.val with
    | some x =>
      if s.get Ob.KEEPALIVE ≤ s.since x.lastSent then s.sendCredit p stream.val x true
      else if (x.ack, x.limit) ≠ (x.sentAck, x.sentLimit) && s.get Ob.CREDIT_GAP ≤ s.since x.lastSent then
        s.sendCredit p stream.val x false
      else s
    | none => s)

/-- The missing ranges from ACK to the highest SEQ received, ascending: first and count (R160). -/
def Stream.missing (x : Stream) : List (Nat × Nat) :=
  let n := seqDist x.ack x.highest + 1
  let step (acc : List (Nat × Nat)) (i : Nat) : List (Nat × Nat) :=
    let q := (x.ack + i) % 2 ^ 32
    if x.held.any fun h => h.1 == q then acc
    else match acc with
      | (f, c) :: r => if (f + c) % 2 ^ 32 = q then (f, c + 1) :: r else (q, 1) :: acc
      | [] => [(q, 1)]
  (((List.range (min n x.slots)).foldl step []).reverse).take 32

/-- Send a NACK (R160, R161). -/
def State.sendNack (s : State) (p id : Nat) (x : Stream) (again : Bool) : State :=
  let m := x.missing
  let body := m.flatMap fun r => beBytes 4 r.1 ++ beBytes 4 r.2
  (s.setStream p id { x with lastSent := s.now, nackSent := some s.now }).sendCounted (at_ Ob.NACKS_SENT p) x.peer
    (buildRlt 2 (b2n again) id x.ack m.length (s.now % 2 ^ 32) body)

/-- NACK (R160): the gap reaches NACK_DELAY ticks. -/
def execNack (part : PartNo) (stream : StreamNo) (s : State) : Host.Outcome State Fault Refusal :=
  let p := part.val
  .next (match s.liveStream p stream.val with
    | some x => match x.gapOpen, x.nackSent with
      | some t, none => if s.get Ob.NACK_DELAY ≤ s.since t then s.sendNack p stream.val x false else s
      | _, _ => s
    | none => s)

/-- A stream whose NACK is at least a period old and whose gap is still open sends it again (R161). -/
def State.renewNack (s : State) (p id : Nat) : State :=
  match s.liveStream p id with
  | some x => match x.gapOpen, x.nackSent with
    | some _, some k => if s.get Ob.NACK_PERIOD ≤ s.since k then s.sendNack p id x true else s
    | _, _ => s
  | none => s

/-- NACK_REPEAT (R161): an event of the interval timer that RLT holds, which comes once every NACK_PERIOD ticks. -/
def execNackRepeat (s : State) : Host.Outcome State Fault Refusal :=
  .next (
    if s.get Ob.TIMER_HOLDER ≠ 2 || !s.ticks.timerDue then s
    else
      let s : State := { s with ticks := { s.ticks with timerDue := false } }
      [0, 1].foldl (fun (t : State) p => ((t.part p).streams.map (·.1)).foldl (fun (u : State) id => u.renewNack p id) t) s)

/-- What a write of NACK_PERIOD does (R161, R399). -/
def opNackPeriod (_ : Writer) (v : Nat) (s : State) : Ans :=
  if v ≠ 0 && s.get Ob.TIMER_HOLDER = 1 then (some .resourceHeld, s.bump Ob.CLAIMS_REFUSED)
  else
    let held := s.get Ob.TIMER_HOLDER
    let s := s.put Ob.NACK_PERIOD v
    (some .ok, if v ≠ 0 then (if held = 2 then s else (s.put Ob.TIMER_HOLDER 2).setTimer v)
      else if held = 2 then (s.put Ob.TIMER_HOLDER 0).setTimer 0 else s)

/-- NACK_PERIOD (R161, R399): a non-zero write claims the timer for RLT, 0 releases it. -/
def execNackPeriod (acc : Access) (s : State) : Host.Outcome State Fault Refusal :=
  .next (s.write acc (isKey Ob.NACK_PERIOD) (numOp opNackPeriod))

/-- The current object of a stream is cut short now: one that was rejected or cut before is not counted again. -/
def State.countCut (s : State) (p : Nat) (x : Stream) : State :=
  if x.inObject && x.phase ≠ .skipObject then s.bump (at_ Ob.OBJECTS_TRUNCATED p) else s

/-- End the current object of a stream as truncated: nothing more of it is walked. -/
def State.truncate (s : State) (p id : Nat) (x : Stream) : State :=
  (s.setStream p id { x with inObject := false, buffer := [], segs := [], freed := x.taken, staged := [], stagedCount := none,
                             lastTaken := false, phase := .header, lineBroken := false, offset := 0 }).countCut p x

/-- The end mark that a stream enqueues to its decode flow (R242). -/
def State.streamMark (s : State) (p : Nat) (x : Stream) : State :=
  (s.enqueueBolt p x.decodeFlow (mkItem 0x7FF 0 0 0 0xEE00000000000000 .ok .endMark)).2

/-- GAP_LIMIT (R162): the stream fails. -/
def execGapLimit (part : PartNo) (stream : StreamNo) (s : State) : Host.Outcome State Fault Refusal :=
  let p := part.val
  let id := stream.val
  .next (match s.stream? p id with
    | some x => match x.gapOpen with
      | some t =>
        if x.sstate ≠ 1 || s.since t < s.get Ob.GAP_LIMIT then s
        else
          let s := s.sendError x.peer 1 id x.ack .linkRetryExhausted x.object
          let y := { x with sstate := 2, held := [], taken := x.ack, freed := x.ack, gapOpen := none, nackSent := none }
          let s := if x.inObject then s.truncate p id y else s.setStream p id y
          (s.bump (at_ Ob.STREAMS_FAILED p)).streamMark p x
      | none => s
    | none => s)

/-! ### Opening and closing (R154, R155) -/

/-- The fields of a stream image (Table 6.6). -/
def streamOf (v owner openNo now : Nat) : Stream :=
  { sstate := 1, format := bitsOf v 3 2, codec := bitsOf v 5 4, port := bitsOf v 6 6, subport := bitsOf v 8 7,
    owner := owner, decoderTable := bitsOf v 31 16, decodeFlow := bitsOf v 49 32, rxFirst := bitsOf v 74 64,
    rxRegions := bitsOf v 84 80, stageRegions := bitsOf v 95 88, srcIp4 := bitsOf v 127 96, srcIp6 := bitsOf v 255 128,
    srcUdp := bitsOf v 271 256, maxField := bitsOf v 319 288, user := bitsOf v 511 448, ack := 0, freed := 0, taken := 0, held := [],
    highest := 0, accepted := false, srcMac := 0, srcAddr := 0, srcPort := 0, v6 := false, dstAddr := 0, lastSent := now, sentAck := 0,
    sentLimit := 8 * bitsOf v 84 80, gapOpen := none, nackSent := none, closing := false, ended := false, openNo := openNo,
    object := 0, offset := 0, inObject := false, skipping := false, buffer := [], segs := [], lastTaken := false,
    phase := .header, sync := [], avroCodec := 0, recLen := 0, recLeft := 0, rcrc := false, fields := [], staged := [],
    stagedCount := none, lineBroken := false }

/-- The image bits that must be zero: RO and RSVD fields. -/
def streamReserved (v : Nat) : Bool :=
  bitsOf v 1 0 ≠ 0 || bitsOf v 15 9 ≠ 0 || bitsOf v 63 50 ≠ 0 || bitsOf v 79 75 ≠ 0 || bitsOf v 87 85 ≠ 0 ||
    bitsOf v 287 272 ≠ 0 || bitsOf v 447 320 ≠ 0

/-- The decoder table that bits [15:0] of a reference name (R237). -/
def State.decoderTable (s : State) (p ref : Nat) : Option DecoderTable :=
  if bitsOf ref 15 11 ≠ 0 then none
  else (look (s.part p).images (bitsOf ref 10 8)).bind fun im => im.content.decoders[bitsOf ref 7 0]?

/-- The regions of a stream. -/
def Stream.regions (x : Stream) : List Nat := span x.rxFirst (x.rxRegions + x.stageRegions)

/-- The checks of R154 in order. -/
def State.streamCheck (s : State) (w : Writer) (id v : Nat) : Status :=
  let x := streamOf v 0 0 0
  let p := s.div.netPart x.port
  firstFail [
    (!inRange (s.div.streamRange p) id || !inRange (s.div.flowRange p) x.decodeFlow ||
      x.regions.any (fun r => !inRange (s.div.regionRange p) r) || (w.isHost && w.part ≠ p), .notPermitted),
    (streamReserved v || x.format = 3 || x.codec = 3 || (x.codec ≠ 0 && x.format = 0) ||
      subPorts (s.net x.port).inUse.breakout ≤ x.subport || x.rxRegions < 1 || 16 < x.rxRegions || x.stageRegions < 2 ||
      x.maxField < 1 || 1048576 < x.maxField || !((s.decoderTable p x.decoderTable).any fun t => t.format == x.format) ||
      !((s.flow? p x.decodeFlow).any fun f => f.mode == .ordered && s.kernelOf f == some .decode), .badDescriptor),
    ((s.div.units .rd p).2 = 0 || ((x.codec = 1 || x.codec = 2) && (s.div.units .chipD p).2 = 0), .noResource)]

/-- OWNER code of a writer: 0 M and firmware, 1 PA, 2 PB. -/
def Writer.owner (w : Writer) : Nat := if w.isHost then w.port + 1 else 0

/-- What a write of STREAM_OPEN does (R154). -/
def opStreamOpen (w : Writer) (b : Bytes) (s : State) : Ans :=
  let id := leAt b 0 4
  let v := leNat (sliceB b 4 64)
  let p := s.div.netPart (bitsOf v 6 6)
  let st := s.streamCheck w id v
  if st ≠ .ok then (some st, s)
  else if (s.stream? p id).isSome then (some .resourceHeld, s)
  else
    let n := lookD (s.part p).opens id 0
    let x := streamOf v w.owner n s.now
    match s.claim x.regions 2 id with
    | none => (some .resourceHeld, s.bump Ob.CLAIMS_REFUSED)
    | some t =>
      let t := t.setStream p id x
      (some .ok, t.setPart p { t.part p with opens := setAt (t.part p).opens id (n + 1) })

/-- STREAM_OPEN (R154). -/
def execStreamOpen (acc : Access) (s : State) : Host.Outcome State Fault Refusal :=
  .next (s.write acc (isKey Ob.STREAM_OPEN) opStreamOpen)

/-- The 64 B image of a stream (Table 6.6); a closed stream's image is all zero. -/
def State.streamBytes (s : State) (p id : Nat) : Bytes :=
  match s.stream? p id with
  | none => List.replicate 64 0
  | some x =>
    let f (v lo : Nat) : Nat := v * 2 ^ lo
    leBytes 64 (x.sstate + f x.format 2 + f x.codec 4 + f x.port 6 + f x.subport 7 + f x.owner 9 + f x.decoderTable 16 +
      f x.decodeFlow 32 + f x.rxFirst 64 + f x.rxRegions 80 + f x.stageRegions 88 + f x.srcIp4 96 + f x.srcIp6 128 +
      f x.srcUdp 256 + f x.maxField 288 + f x.ack 320 + f x.limit 352 + f x.user 448)

/-- The partition a stream ID belongs to (R153). -/
def Division.streamPart (d : Division) (id : Nat) : Nat := if id < 64 * d.flows then 0 else 1

/-- STREAM_CLOSE (R155): checked, and carried out at the next tick edge. -/
def execStreamClose (acc : Access) (s : State) : Host.Outcome State Fault Refusal :=
  .next (s.write acc (isKey Ob.STREAM_CLOSE) (numOp fun w id s =>
    let p := s.div.streamPart id
    match s.stream? p id with
    | none => (some .notPermitted, s)
    | some x =>
      if w.isHost && x.owner ≠ w.owner then (some .notPermitted, s)
      else (none, (s.setStream p id { x with closing := true }).await .streamClose id w.reply)))

end Sys2Proof.Machine
end

