-- ==== Sys2Proof/Machine/Store.lean ====
section
/-!
DEFINITION. The embedding store: tables, grades, the row directory, unwritten rows, windows and migration, versions
(R272–R304).
-/
namespace Sys2Proof.Machine

/-! ### Tables -/

/-- A table record of a partition, dropped or not. -/
def State.anyTable (s : State) (p id : Nat) : Option Table := look (s.part p).tables id

/-- The table of an ID: none once it has been dropped (R303). -/
def State.table? (s : State) (p id : Nat) : Option Table :=
  match s.anyTable p id with
  | some t => if t.dropped then none else some t
  | none => none

/-- The state with a table changed. -/
def State.setTable (s : State) (p : Nat) (t : Table) : State :=
  s.setPart p { s.part p with tables := setAt (s.part p).tables t.id t }

/-- A version of a table. -/
def Table.version? (t : Table) (n : Nat) : Option Version := t.versions.find? (·.number == n)

/-- The table with a version changed. -/
def Table.setVersion (t : Table) (v : Version) : Table :=
  { t with versions := t.versions.map fun x => if x.number = v.number then v else x }

/-- Number of the version in a state; 0 for none. -/
def Table.inState (t : Table) (st : VersionState) : Nat :=
  ((t.versions.find? (·.state == st)).map (·.number)).getD 0

/-- The current version's number. -/
def Table.current (t : Table) : Nat := t.inState .current

/-- What firmware knows of a version's directory on one core. -/
def Version.dir (v : Version) (core : Nat) : CoreDir := lookD v.dirs core { count := 0, slots := [] }

/-- The version with a core's directory changed. -/
def Version.setDir (v : Version) (core : Nat) (d : CoreDir) : Version := { v with dirs := setAt v.dirs core d }

/-- Enabled cores of a partition. -/
def Division.coreCount (d : Division) (p : Nat) : Nat := 60 * d.stands p

/-! ### Slots (R277, Table 11.2) -/

/-- Value bytes of a grade. -/
def Table.valueBytes (t : Table) (grade : Nat) : Nat :=
  if grade = 0 then 2 * t.dim else if grade = 1 then t.dim else 17 * t.dim / 32

/-- Optimizer state bytes. -/
def Table.stateBytes (t : Table) : Nat := if t.opt = 0 then 0 else if t.opt = 1 then 2 * t.dim else 4

/-- Bytes of a row's slot. -/
def Table.slotBytes (t : Table) (grade : Nat) (ready : Bool) : Nat :=
  let n := t.valueBytes grade + t.stateBytes
  if ready then divUp n 64 * 64 + 4 * t.dim else divUp n 16 * 16

/-- 64 B value accesses of a read of a row (R277, R309); of an unwritten row as R281 counts them. -/
def Table.accesses (t : Table) (r : Option RowEntry) : Nat :=
  match r with
  | some e => if e.ready then divUp (4 * t.dim) 64 else divUp (t.valueBytes e.grade) 64
  | none => divUp (4 * t.dim) 64

/-- Offset of a ready copy within its slot: the first 64 B boundary after values and state. -/
def Table.copyAt (t : Table) (grade : Nat) : Nat := divUp (t.valueBytes grade + t.stateBytes) 64 * 64

/-- The bytes of a slot: values, state and, where there is one, the ready copy (R277). -/
def Table.slotImage (t : Table) (grade : Nat) (ready : Bool) (value state copy : Bytes) : Bytes :=
  if ready then fitB (t.copyAt grade) (value ++ state) ++ copy else fitB (t.slotBytes grade false) (value ++ state)

/-- The first place at or after `a` where a slot of `n` bytes may lie: one of 64 B or less inside one access, a larger one on a
64 B boundary (R277). -/
def slotAlign (n a : Nat) : Nat :=
  let up := divUp a 64 * 64
  let near := divUp a 16 * 16
  if n ≤ 64 && near % 64 + n ≤ 64 then near else up

/-- Places where a range of `n` bytes fits between `lo` and `hi` beside the ranges in use, each as early in its gap as `align`
lets it begin. -/
def gapStarts (align : Nat → Nat) (used : List (Nat × Nat)) (lo hi n : Nat) : List Nat :=
  ((lo :: used.map fun u => u.1 + u.2).map align).filter fun a =>
    lo ≤ a && a + n ≤ hi && used.all fun u => a + n ≤ u.1 || u.1 + u.2 ≤ a

/-- One of a list of places, which the manual leaves open. -/
def State.chooseOf (s : State) (l : List Nat) : Option Nat × State := (l[s.free.1 % l.length]?, s.free.2)

/-- The smallest DIR_BITS of 4 or more whose buckets hold 1.25 entries per stored row, with fuel (R280). -/
def dirBitsGo (need : Nat) : Nat → Nat → Nat
  | 0, b => b
  | fuel + 1, b => if need ≤ 16 * 2 ^ b then b else dirBitsGo need fuel (b + 1)

/-- DIR_BITS of a table over `c` cores: 4 × 2^DIR_BITS ≥ 1.25 × ⌈MAX_ROWS ÷ C⌉. -/
def Table.dirBits (t : Table) (c : Nat) : Nat := dirBitsGo (5 * divUp t.maxRows c) 41 4

/-- Entries of a core's directory. -/
def Table.dirEntries (t : Table) (c : Nat) : Nat := 4 * 2 ^ t.dirBits c

/-- Row-area bytes of a version on a core (R274). -/
def Table.areaBytes (t : Table) (c : Nat) : Nat :=
  2 ^ 20 * (if t.areaMib ≠ 0 then t.areaMib
    else divUp (5 * divUp t.maxRows c * t.slotBytes 0 false) (4 * 2 ^ 20))

/-- Bytes a version takes in each home vault (R274). -/
def Table.homeBytes (t : Table) (c : Nat) : Nat := 16 * t.dirEntries c + t.areaBytes c

/-- What tables and loaded images hold in every home vault of a partition: offset and bytes. -/
def State.homeAreas (s : State) (p : Nat) : List (Nat × Nat) :=
  ((s.part p).tables.flatMap fun e => e.2.versions.map fun v => (v.base, e.2.homeBytes (s.div.coreCount p))) ++
    ((s.part p).images.filter (·.2.area != 0)).map fun e => (e.2.areaBase, e.2.area)

/-- The memory that a run of rows takes: device address and bytes. -/
def Item.run? (it : Item) : Option (Nat × Nat) :=
  match it.work with
  | .rows _ => some (it.arg0, it.len)
  | _ => none

/-- The runs of rows that wait or are worked on, and the rows that operators hold: device address and bytes. -/
def State.runRanges (s : State) (p : Nat) : List (Nat × Nat) :=
  ((s.part p).flows.flatMap fun e => e.2.items.filterMap Item.run?) ++
    ((s.part p).stalled.filterMap fun e => e.2.run?) ++
    (s.part p).ops.flatMap fun o => o.rows.map fun h => (h.da, h.len)

/-- Where an area of `n` bytes fits in every home vault, below the spread window (R273, R274, R296). -/
def State.homeGaps (s : State) (p n : Nat) : List Nat :=
  gapStarts (fun a => divUp a 64 * 64) (s.homeAreas p ++ (s.runRanges p).map fun u => (u.1 % 2 ^ 31, u.2)) 0 (2 ^ 31 - 0x4000000 * s.div.window) n

/-- A home vault has room below the spread window (R273, R296). -/
def State.homeRoom (s : State) (p n : Nat) : Bool := !(s.homeGaps p n).isEmpty

/-- The partition's enabled cores. -/
def Division.coreSpan (d : Division) (p : Nat) : List Nat := span (60 * d.firstStand p) (60 * d.stands p)

/-- A device address lies in a range of offsets of a home vault of the partition. -/
def Division.inHome (d : Division) (p lo n da : Nat) : Bool :=
  d.firstStand p ≤ daStand da && daStand da < d.firstStand p + d.stands p && lo ≤ da % 2 ^ 31 && da % 2 ^ 31 < lo + n &&
    (enabledPos (daStand da)).contains (daVault da)

/-- Clear a range of offsets in every home vault of a partition (R274). -/
def State.clearHome (s : State) (p lo n : Nat) : State :=
  { s with mem := s.mem.filter fun c => !s.div.inHome p lo n c.1
           flips := s.flips.filter fun e => !s.div.inHome p lo n (e.1 * 8) }

/-! ### Encoding a row (R278, R282, Table 11.2) -/

/-- Element format of G0. -/
def Table.g0 (t : Table) : Nat := if t.g0fmt = 0 then 1 else 2

/-- FP32 to FP16 rounding toward +∞, for a value that is not negative; it saturates (R257, R278). -/
def fp16Up (x : Fr) : Nat :=
  if x.n ≤ 0 then 1
  else
    let e := max (log2Div x.n.natAbs x.d) (1 - fp16.bias)
    let u : Int := e - fp16.fracW
    let n := if 0 ≤ u then x.n.natAbs else x.n.natAbs * 2 ^ (-u).toNat
    let d := if 0 ≤ u then x.d * 2 ^ u.toNat else x.d
    min 0x7BFF ((e + fp16.bias - 1) * 2 ^ fp16.fracW + (divUp n d : Nat)).toNat

/-- SCALE of a G1 row (R278). -/
def g1Scale (vs : List Nat) : Nat :=
  let amax := maxMag (vs.map val32)
  if amax.n = 0 then 0x3C00
  else
    let q := fpPack fp32 (amax.div (Fr.ofInt 448))
    if q = 0 then 1 else fp16Up (fpVal fp32 q)

/-- Value bytes and SCALE of FP32 values at a grade, with new scales (R278). -/
def Table.encodeRow (t : Table) (grade : Nat) (vs : List Nat) : (Nat × Bytes) × Tally :=
  if grade = 0 then
    let r := encodeVec t.g0 rne (vs.map val32)
    ((0, r.1), r.2)
  else if grade = 1 then
    let sc := g1Scale vs
    let r := encodeVec 3 rne (vs.map fun v => val32 ((val32 v).div (floatVal fp16 true 0x7E00 sc)).r32)
    ((sc, r.1), r.2)
  else
    let r := encodeVec 7 rne (vs.map val32)
    ((0, r.1), r.2)

/-- FP32 values of a row's value bytes (Table 11.2). -/
def Table.decodeRow (t : Table) (grade scale : Nat) (b : Bytes) : List Nat :=
  let vs := if grade = 0 then decodeVec t.g0 t.dim b
    else if grade = 1 then (decodeVec 3 t.dim b).map fun v => (floatVal fp16 true 0x7E00 scale).mul v
    else decodeVec 7 t.dim b
  vs.map fun v => (to32 v).1

/-- FP32 bytes of values: a ready copy (R277). -/
def readyCopy (vs : List Nat) : Bytes := leBytes (4 * vs.length) (pack 32 vs)

/-- A new slot of a row at a grade: its SCALE and bytes (R277, R278, R290, R298). -/
def Table.newRow (t : Table) (grade : Nat) (ready : Bool) (state : Bytes) (vs : List Nat) : (Nat × Bytes) × Tally :=
  let r := t.encodeRow grade vs
  let copy := if ready then readyCopy (t.decodeRow grade r.1.1 r.1.2) else []
  ((r.1.1, t.slotImage grade ready r.1.2 state copy), r.2)

/-- Element `j` of unwritten row `k` before its encoding at FIRST_GRADE (R282). -/
def Table.seeded (t : Table) (k j : Nat) : Nat :=
  if t.initMode = 0 then 0
  else
    let w := h64 j (h64 k t.initSeed)
    ((FVal.of ⟨(w / 2 ^ 40 : Nat) - (0x800000 : Int), 2 ^ 23⟩).mul (val32 t.initScale)).r32

/-- The values of an unwritten row before their encoding at FIRST_GRADE (R282). -/
def Table.seedRow (t : Table) (k : Nat) : List Nat := (List.range t.dim).map (t.seeded k)

/-- The FP32 values of an unwritten row (R281, R282). -/
def Table.seededValues (t : Table) (k : Nat) : List Nat :=
  let r := (t.encodeRow t.firstGrade (t.seedRow k)).1
  t.decodeRow t.firstGrade r.1 r.2

/-! ### The row directory (R279, R280) -/

/-- The upper 8 B word of a valid directory entry (Table 11.4). -/
def RowEntry.upper (e : RowEntry) : Nat :=
  1 + 2 * e.grade + 8 * b2n e.ready + 16 * b2n e.moving + 32 * b2n e.sat + 64 * e.scale + 2 ^ 22 * e.pop + 2 ^ 37 * e.slot

/-- The 16 B directory entry of a row (Table 11.4). -/
def RowEntry.image (e : RowEntry) : Bytes := leBytes 8 e.id ++ leBytes 8 e.upper

/-- A directory entry: none where VALID is 0. -/
def entryOf (b : Bytes) : Option RowEntry :=
  let v := leAt b 8 8
  if bitOf v 0 then
    some { id := leAt b 0 8, grade := bitsOf v 2 1, ready := bitOf v 3, moving := bitOf v 4, sat := bitOf v 5,
           scale := bitsOf v 21 6, pop := bitsOf v 36 22, slot := bitsOf v 63 37 }
  else none

/-- Device address of a directory position of a version on a core. -/
def Version.entryDa (v : Version) (core pos : Nat) : Nat := homeDa core (v.base + 16 * pos)

/-- Offset of a version's row area in a home vault, of a table over `c` cores (R274). -/
def Table.areaAt (t : Table) (v : Version) (c : Nat) : Nat := v.base + 16 * t.dirEntries c

/-- First bucket of a row's search. -/
def Table.homeBucket (t : Table) (c k : Nat) : Nat := h64 k (t.seed ^^^ 0x44495200) / 2 ^ (64 - t.dirBits c)

/-- Where a search ends within a bucket: at the entry of `k`, or at the first that is not valid. -/
def bucketHit (k : Nat) (b : Bytes) : Option (Nat × Option RowEntry) :=
  ((List.range 4).map fun i => (i, entryOf (sliceB b (16 * i) 16))).find? fun x => x.2.all (·.id == k)

/-- Search a directory from a bucket on, with fuel (R280): the entry of `k`, or the first invalid position; none where a bucket
holds an uncorrectable word. -/
def State.search (v : Version) (core source buckets k : Nat) : Nat → State → Nat → Option (Nat × Option RowEntry) × State
  | 0, s, b => (some (4 * b, none), s)
  | fuel + 1, s, b =>
    match s.vaultRead source (v.entryDa core (4 * b)) 64 with
    | (none, s) => (none, s)
    | (some bytes, s) => match bucketHit k bytes with
      | some (i, e) => (some (4 * b + i, e), s)
      | none => State.search v core source buckets k fuel s ((b + 1) % buckets)

/-- Home core of a row (R275). -/
def State.rowCore (s : State) (p : Nat) (t : Table) (k : Nat) : Nat := s.div.place p k t.seed

/-- Update lane of a row (R289). -/
def Table.laneOf (t : Table) (k : Nat) : Nat := h64 k (t.seed ^^^ 0x4C414E45) % 8

/-- Resolve a row in a version (R280, R281): its directory position and entry. -/
def State.resolve (s : State) (p : Nat) (t : Table) (v : Version) (source k : Nat) : Option (Nat × Option RowEntry) × State :=
  let c := s.div.coreCount p
  let core := s.rowCore p t k
  State.search v core source (2 ^ t.dirBits c) k ((v.dir core).count / 4 + 2) s (t.homeBucket c k)

/-- The entry of a stored row as last written. -/
def State.row? (s : State) (p : Nat) (t : Table) (v : Version) (k : Nat) : Option RowEntry :=
  (s.resolve p t v srcBulk k).1.bind (·.2)

/-- Write a directory entry: its ID word, then the word that holds VALID (R298). -/
def State.putEntry (s : State) (v : Version) (core pos : Nat) (e : RowEntry) : State :=
  ((s.vaultWrite (v.entryDa core pos) (leBytes 8 e.id)).2.vaultWrite (v.entryDa core pos + 8) (leBytes 8 e.upper)).2

/-- Write the upper word of a directory entry. -/
def State.putUpper (s : State) (v : Version) (core pos : Nat) (e : RowEntry) : State :=
  (s.vaultWrite (v.entryDa core pos + 8) (leBytes 8 e.upper)).2

/-- Change what firmware knows of a version's directory on a core. -/
def State.setDir (s : State) (p : Nat) (t : Table) (v : Version) (core : Nat) (d : CoreDir) : State :=
  s.setTable p (t.setVersion (v.setDir core d))

/-- The table and version as the state now holds them. -/
def State.versionOf (s : State) (p table number : Nat) : Option (Table × Version) :=
  (s.anyTable p table).bind fun t => (t.version? number).map fun v => (t, v)

/-- Device address of the slot of a row on its home core. -/
def slotDa (core : Nat) (e : RowEntry) : Nat := homeDa core (16 * e.slot)

/-- The FP32 values a reader of a stored row receives: from its ready copy, or its value bytes at its grade (R309); none where a
word is uncorrectable. -/
def State.readValues (s : State) (t : Table) (core source : Nat) (e : RowEntry) : Option (List Nat) × State :=
  if e.ready then
    let r := s.vaultRead source (slotDa core e + t.copyAt e.grade) (4 * t.dim)
    (r.1.map fun b => unpack 32 t.dim (leNat b), r.2)
  else
    let r := s.vaultRead source (slotDa core e) (t.valueBytes e.grade)
    (r.1.map (t.decodeRow e.grade e.scale), r.2)

/-- The value bytes and state of a stored row; none where a word of them is uncorrectable. -/
def State.readSlot (s : State) (t : Table) (core : Nat) (e : RowEntry) : Option (Bytes × Bytes) × State :=
  let n := t.valueBytes e.grade
  let r := s.vaultRead srcBulk (slotDa core e) (n + t.stateBytes)
  (r.1.map fun b => (b.take n, b.drop n), r.2)

/-- Allocate a slot in the row area of a version on a core; none where the area has none free (R283, R290). -/
def State.allocSlot (s : State) (p : Nat) (t : Table) (v : Version) (core n : Nat) : Option Nat × State :=
  let c := s.div.coreCount p
  let lo := t.areaAt v c
  s.chooseOf (gapStarts (slotAlign n) (v.dir core).slots lo (lo + t.areaBytes c) n)

/-- The slot at an offset is free again. -/
def CoreDir.give (d : CoreDir) (off : Nat) : CoreDir := { d with slots := d.slots.filter fun u => u.1 != off }

/-- Count what conversions of a partition saturated (R271). -/
def State.tally (s : State) (p : Nat) (t : Tally) : State :=
  ((s.bump (at_ Ob.CONV_SAT p) t.sat).bump (at_ Ob.NAN_TO_INT p) t.nanInt).bump (at_ Ob.MX_NAN_BLOCKS p) t.mxNan

/-- A former slot waits to be freed (R293). -/
def State.freeLater (s : State) (p : Nat) (t : Table) (v : Version) (core slot : Nat) : State :=
  { s with freed := s.freed ++ [{ part := p, table := t.id, version := v.number, core := core, slot := slot,
                                  edge := s.now, upTo := s.nextBorn }] }

/-- What applying a record, or storing a row, comes to. -/
inductive Applied where
  | done | refused | bad
deriving DecidableEq, Repr

/-- Store a row in a new slot and then write its directory entry (R298): refused where the directory or the row area is full
(R280, R283); bad where the search meets an uncorrectable word. -/
def State.store (s : State) (p : Nat) (t : Table) (v : Version) (k grade : Nat) (ready : Bool) (row : Nat × Bytes) :
    Applied × State :=
  let core := s.rowCore p t k
  match s.resolve p t v srcBulk k with
  | (none, s) => (.bad, s)
  | (some (pos, old), s) =>
    let d := v.dir core
    if old.isNone && 15 * t.dirEntries (s.div.coreCount p) ≤ 16 * d.count then (.refused, s)
    else match s.allocSlot p t v core row.2.length with
      | (none, s) => (.refused, s)
      | (some off, s) =>
        let e : RowEntry := { id := k, grade := grade, ready := ready, moving := false, sat := false, scale := row.1, pop := 0,
                              slot := off / 16 }
        let s := ((s.vaultWrite (homeDa core off) row.2).2.putEntry v core pos e).setDir p t v core
          { count := d.count + b2n old.isNone, slots := d.slots ++ [(off, row.2.length)] }
        (.done, match old with
          | some o => s.freeLater p t v core (16 * o.slot)
          | none => s)

/-! ### TABLE_CREATE (R272–R274) -/

/-- The table a TABLE_CREATE body describes, with the policy defaults of Table 11.5. -/
def Cmd.newTable (c : Cmd) (now : Nat) : Table :=
  { id := c.f 95 64, dim := c.f 111 96, opt := c.f 113 112, g0fmt := c.f 114 114, firstGrade := c.f 116 115,
    coarsest := c.f 118 117, initMode := c.f 119 119, seed := c.f 191 128, initSeed := c.f 255 192,
    initScale := c.f 287 256, maxRows := c.f 351 288, areaMib := c.f 367 352,
    policy := { popShift := 4, hyst := 64, migBatch := 2, regradePrio := 5, windowTicks := 0, thG0 := 0xFFFF, thG1 := 0xFFFF,
                thReady := 0xFFFF, readyLimit := 0 },
    nextPolicy := none, windows := 0, windowStart := now, closeNow := false, closeLate := false,
    versions := [], nextVersion := 1, switch := none, drop := none, dropped := false }

/-- R273. -/
def State.tableCreateCheck (s : State) (c : Cmd) : Status :=
  let t := c.newTable s.now
  firstFail [
    (c.f 127 120 ≠ 0 || c.f 511 368 ≠ 0 || t.dim < 32 || 1024 < t.dim || t.dim % 32 ≠ 0 || t.opt = 3 ||
      t.firstGrade = 3 || t.coarsest = 3 || t.coarsest < t.firstGrade || t.maxRows = 0 || 2 ^ 40 < t.maxRows ||
      !(val32 t.initScale).isFin || (val32 t.initScale).lt FVal.zero, .badDescriptor),
    (256 ≤ (s.part c.part).tables.length || !s.homeRoom c.part (t.homeBytes (s.div.coreCount c.part)), .noResource),
    ((s.anyTable c.part t.id).isSome, .resourceHeld)]

/-- Give a table a new version (R274, R296): its place in every home vault, where the manual leaves open, with its directories
cleared. -/
def State.addVersion (s : State) (p : Nat) (t : Table) (st : VersionState) : State :=
  let c := s.div.coreCount p
  let r := s.chooseOf (s.homeGaps p (t.homeBytes c))
  let v : Version := { number := t.nextVersion, state := st, since := 0, base := r.1.getD 0, dirs := [] }
  (r.2.clearHome p v.base (16 * t.dirEntries c)).setTable p
    { t with versions := t.versions ++ [v], nextVersion := t.nextVersion + 1 }

/-- TABLE_CREATE (R272–R274). -/
def execTableCreate (id : Nat) (_data : Bytes) (s : State) : Host.Outcome State Fault Refusal :=
  .next (match s.control id 0x20 with
    | some c =>
      let st := s.tableCreateCheck c
      if st = .ok then (s.addVersion c.part (c.newTable s.now) .current).finish id .ok 1 else s.finish id st 0
    | none => s)

/-! ### REGRADE_POLICY (R286) -/

/-- R286's checks. -/
def State.regradeCheck (s : State) (c : Cmd) : Status :=
  let w := c.f 159 128
  firstFail [
    (c.f 103 98 ≠ 0 || c.f 127 123 ≠ 0 || c.f 511 240 ≠ 0 || (s.table? c.part (c.f 95 64)).isNone, .badDescriptor),
    (c.f 96 96 = 1 && (8 < c.f 107 104 || c.f 119 116 = 0 || 8 < c.f 119 116 || (w ≠ 0 && w < 4000) ||
      c.f 175 160 < c.f 191 176), .badDescriptor)]

/-- The policy fields of a REGRADE_POLICY (Table 11.5). -/
def Cmd.policy (c : Cmd) : Policy :=
  { popShift := c.f 107 104, hyst := c.f 115 108, migBatch := c.f 119 116, regradePrio := c.f 122 120,
    windowTicks := c.f 159 128, thG0 := c.f 175 160, thG1 := c.f 191 176, thReady := c.f 207 192, readyLimit := c.f 239 208 }

/-- REGRADE_POLICY (R286): the values it sets apply from the next window close. -/
def execRegradePolicy (id : Nat) (s : State) : Host.Outcome State Fault Refusal :=
  .next (match s.control id 0x2A with
    | some c =>
      match s.regradeCheck c, s.table? c.part (c.f 95 64) with
      | .ok, some t =>
        let t := if c.f 96 96 = 1 then { t with nextPolicy := some c.policy } else t
        (s.setTable c.part { t with closeNow := t.closeNow || c.f 97 97 = 1 }).finish id .ok 0
      | st, _ => s.finish id st 0
    | none => s)

/-! ### Popularity (R284) -/

/-- A read of a stored row counts toward POP: `reader` is the reading core (R284, R302). -/
def State.countPop (s : State) (t : Table) (v : Version) (core pos : Nat) (e : RowEntry) (reader : Nat) : State :=
  if v.state = .current && h64 e.id (w64 (s.now * 2 ^ 16 + reader)) % 2 ^ t.policy.popShift = 0 then
    s.putUpper v core pos { e with pop := min 32767 (e.pop + 1) }
  else s

/-! ### Lanes -/

/-- Key of an update lane. -/
def laneKey (core lane : Nat) : Nat := core * 8 + lane

/-- An update lane. -/
def State.lane (s : State) (core lane : Nat) : Lane := lookD s.lanes (laneKey core lane) Lane.reset

/-- The state with a lane changed. -/
def State.setLane (s : State) (core lane : Nat) (x : Lane) : State :=
  { s with lanes := putD s.lanes (laneKey core lane) Lane.reset x }

/-- Queue a record on its row's lane (R289, R316). -/
def State.route (s : State) (t : Table) (r : LaneRec) : State :=
  let core := s.rowCore r.part t r.id
  let lane := t.laneOf r.id
  let x := s.lane core lane
  s.setLane core lane { x with queue := x.queue ++ [r] }

/-- A regrade pass of the table's current version still runs: rows wait for migration or a lane is held. -/
def State.passRuns (s : State) (p : Nat) (t : Table) : Bool :=
  s.lanes.any fun e =>
    let mine (m : Migration) : Bool := m.part == p && m.table == t.id && m.version == t.current
    e.2.migrations.any mine || (match e.2.hold with | some h => h.batch.any mine | none => false)

/-! ### Windows and regrade passes (R285–R288) -/

/-- The grade a pass chooses (R287). -/
def Policy.choose (x : Policy) (coarsest old pop : Nat) : Nat :=
  if x.thG0 = 0xFFFF && x.thG1 = 0xFFFF then old
  else
    let g := if x.thG0 ≤ pop then 0 else if x.thG1 ≤ pop then 1 else 2
    let g := min g coarsest
    if old < g then
      let th := if old = 0 then x.thG0 else x.thG1
      if th * (256 - x.hyst) / 256 ≤ pop then old else g
    else g

/-- The buckets of a directory with a valid entry, in ascending order, of a table over `c` cores. -/
def State.fullBuckets (s : State) (t : Table) (v : Version) (c core : Nat) : List Nat :=
  let lo := v.entryDa core 0
  let cells := s.mem.filter fun x => lo ≤ x.1 && x.1 < lo + 16 * t.dirEntries c && (x.1 - lo) % 16 == 8 && bitOf x.2.toNat 0
  (cells.map fun x => (x.1 - lo) / 64).dedup

/-- The valid entries of a bucket with their positions; none where it holds an uncorrectable word. -/
def State.readBucket (s : State) (v : Version) (core b : Nat) : Option (List (Nat × RowEntry)) × State :=
  let r := s.vaultRead srcBulk (v.entryDa core (4 * b)) 64
  (r.1.map fun bytes => (List.range 4).filterMap fun i => (entryOf (sliceB bytes (16 * i) 16)).map fun e => (4 * b + i, e), r.2)

/-- A pass visits one entry (R285, R287, R288): POP is cleared, and the row queues for migration where grade, READY or SAT call
for it.  It counts the ready copies the core has granted in the pass. -/
def State.visit (p : Nat) (t : Table) (v : Version) (core : Nat) (acc : Nat × State) (x : Nat × RowEntry) : Nat × State :=
  let e := x.2
  let wants := t.policy.thReady ≤ e.pop
  let granted := wants && acc.1 < t.policy.readyLimit
  let g := t.policy.choose t.coarsest e.grade e.pop
  let s := if wants && !granted then acc.2.bump (at_ Ob.READY_DENIED p) else acc.2
  let s := s.putUpper v core x.1 { e with pop := 0 }
  let l := s.lane core (t.laneOf e.id)
  (acc.1 + b2n granted,
    if g ≠ e.grade || granted ≠ e.ready || e.sat then
      s.setLane core (t.laneOf e.id) { l with migrations := l.migrations ++
        [{ part := p, table := t.id, version := v.number, id := e.id, grade := g, ready := granted, slot := 0 }] }
    else s)

/-- A pass over one core's directory, in ascending position (R285, R288).  A bucket with an uncorrectable word is left out. -/
def State.passCore (s : State) (p : Nat) (t : Table) (v : Version) (core : Nat) : State :=
  ((s.fullBuckets t v (s.div.coreCount p) core).foldl (fun (acc : Nat × State) b =>
    match acc.2.readBucket v core b with
    | (none, s) => (acc.1, s)
    | (some es, s) => es.foldl (State.visit p t v core) (acc.1, s)) (0, s)).2

/-- Close a table's window: written policy values come into force, and every core passes over the current version (R285,
R286). -/
def State.closeWindow (s : State) (p : Nat) (t : Table) : State :=
  let t := { t with policy := t.nextPolicy.getD t.policy, nextPolicy := none, windows := t.windows + 1, windowStart := s.now,
                    closeNow := false, closeLate := false }
  let s := s.setTable p t
  match t.version? t.current with
  | none => s
  | some v => (v.dirs.map (·.1)).foldl (fun (u : State) core => u.passCore p t v core) s

/-- A close of the table is due (R285). -/
def State.closeDue (s : State) (t : Table) : Bool :=
  t.closeNow || t.closeLate || (t.policy.windowTicks ≠ 0 && t.policy.windowTicks ≤ s.since t.windowStart)

/-- WINDOW_CLOSE (R285): a close that falls due while the previous pass runs waits, and is counted. -/
def execWindowClose (part : PartNo) (table : Nat) (s : State) : Host.Outcome State Fault Refusal :=
  let p := part.val
  .next (match s.table? p table with
    | some t =>
      if !s.closeDue t then s
      else if s.passRuns p t then
        if t.closeLate then s
        else (s.setTable p { t with closeLate := true, closeNow := false }).bump (at_ Ob.REGRADE_LATE p)
      else s.closeWindow p t
    | none => s)

/-! ### Migration (R290–R294) -/

/-- The table and version of a migration, while the version is current. -/
def State.migrant (s : State) (m : Migration) : Option (Table × Version) :=
  match s.table? m.part m.table with
  | some t => match t.version? m.version with
    | some v => if v.state = .current then some (t, v) else none
    | none => none
  | none => none

/-- The pass allocates the new slot of a row of a batch (Table 11.6): none where the row stays as it is. -/
def State.moveSlot (s : State) (m : Migration) (core : Nat) : Option Migration × State :=
  match s.migrant m with
  | none => (none, s)
  | some (t, v) =>
    let n := t.slotBytes m.grade m.ready
    match s.allocSlot m.part t v core n with
    | (none, s) => (none, s.bump (at_ Ob.REGRADE_NO_SPACE m.part))
    | (some off, s) =>
      let d := v.dir core
      (some { m with slot := off }, s.setDir m.part t v core { d with slots := d.slots ++ [(off, n)] })

/-- The migration bolt sets MOVING in the entry of a row (Table 11.6). -/
def State.setMoving (s : State) (m : Migration) (core : Nat) : State :=
  match s.migrant m with
  | none => s
  | some (t, v) => match s.resolve m.part t v srcBulk m.id with
    | (some (pos, some e), s) => s.putUpper v core pos { e with moving := true }
    | (_, s) => s

/-- The migration bolt of a held lane starts once the lane has no item in flight. -/
def State.startMoves (s : State) (batch : List Migration) (core : Nat) : State :=
  batch.foldl (fun (t : State) m => t.setMoving m core) s

/-- MIGRATION_HOLD (R290, R294): at edge E the lane is held, with new slots allocated for its batch. -/
def execMigrationHold (core : CoreNo) (lane : LaneNo) (s : State) : Host.Outcome State Fault Refusal :=
  let c := core.val
  let x := s.lane c lane.val
  let coreHeld := (List.range 8).any fun l => (s.lane c l).hold.isSome
  let rested := match x.lastEnd with | some t => decide (8 ≤ s.since t) | none => true
  .next (match x.migrations with
    | [] => s
    | m :: _ =>
      if coreHeld || !rested then s
      else
        let batch := (match s.table? m.part m.table with | some t => t.policy.migBatch | none => 1)
        let same := x.migrations.takeWhile fun n => n.part == m.part && n.table == m.table && n.version == m.version
        let take := same.take batch
        let r := take.foldl (fun (acc : List Migration × State) n =>
          let b := acc.2.moveSlot n c
          (acc.1 ++ b.1.toList, b.2)) ([], s)
        let x := r.2.lane c lane.val
        let busy := !x.queue.isEmpty
        let hold : Option LaneHold := if r.1.isEmpty then none else some { edge := s.now, batch := r.1, inFlight := busy }
        let s := r.2.setLane c lane.val { x with migrations := x.migrations.drop take.length, hold := hold }
        if busy then s else s.startMoves r.1 c)

/-- What the migration bolt reads of a row (Table 11.6): its directory position and entry, value bytes and state; none where it
meets an uncorrectable word. -/
def State.readMove (s : State) (m : Migration) (t : Table) (v : Version) (core : Nat) :
    Option (Nat × RowEntry × Bytes × Bytes) × State :=
  match s.resolve m.part t v srcBulk m.id with
  | (some (pos, some e), s) =>
    let r := s.readSlot t core e
    (r.1.map fun x => (pos, e, x.1, x.2), r.2)
  | (_, s) => (none, s)

/-- Swap one row into its new slot (R290). -/
def State.swapRow (s : State) (m : Migration) (t : Table) (v : Version) (core : Nat) (x : Nat × RowEntry × Bytes × Bytes) : State :=
  let e := x.2.1
  let n := t.newRow m.grade m.ready x.2.2.2 (t.decodeRow e.grade e.scale x.2.2.1)
  let s := (s.vaultWrite (homeDa core m.slot) n.1.2).2.putUpper v core x.1
    { e with grade := m.grade, ready := m.ready, scale := n.1.1, slot := m.slot / 16, moving := false, sat := false }
  ((s.tally m.part n.2).freeLater m.part t v core (16 * e.slot)).bump (at_ Ob.MIGRATIONS m.part)

/-- Abandon one row (R291): MOVING is cleared, its new slot is freed and it keeps its old one. -/
def State.abandonRow (s : State) (m : Migration) (core : Nat) (counted : Bool) : State :=
  match s.migrant m with
  | none => s
  | some (t, v) =>
    let s := match s.resolve m.part t v srcBulk m.id with
      | (some (pos, some e), s) => if e.moving then s.putUpper v core pos { e with moving := false } else s
      | (_, s) => s
    let s := s.setDir m.part t v core ((v.dir core).give m.slot)
    if counted then s.bump (at_ Ob.REGRADE_ABANDONED m.part) else s

/-- The rows of a batch in turn (R290, R291): one that meets an uncorrectable word is abandoned, the first `n` others swap, and
the rest are left. -/
def State.moveRows (core : Nat) : List Migration → Nat → State → List Migration × State
  | [], _, s => ([], s)
  | m :: ms, n, s =>
    match s.migrant m with
    | none => State.moveRows core ms n s
    | some (t, v) =>
      match s.readMove m t v core with
      | (none, s) => State.moveRows core ms n (s.abandonRow m core true)
      | (some x, s') =>
        if n = 0 then
          let r := State.moveRows core ms 0 s
          (m :: r.1, r.2)
        else State.moveRows core ms (n - 1) (s'.swapRow m t v core x)

/-- MIGRATION_SWAP (R290, R291): at edge E + 1 the first `written` rows are complete and swap; a row that met an
uncorrectable word is abandoned; the hold clears where no row is left. -/
def execMigrationSwap (core : CoreNo) (lane : LaneNo) (written : Nat) (s : State) : Host.Outcome State Fault Refusal :=
  let c := core.val
  .next (match (s.lane c lane.val).hold with
    | none => s
    | some h =>
      if s.since h.edge ≠ 1 || h.inFlight then s
      else
        let r := State.moveRows c h.batch written s
        let y := r.2.lane c lane.val
        r.2.setLane c lane.val (if r.1.isEmpty then { y with hold := none, lastEnd := some s.now }
          else { y with hold := some { h with batch := r.1 } }))

/-- MIGRATION_ABANDON (R290, R291): at edge E + 2 complete rows swap, every other one is abandoned, and the hold
clears. -/
def execMigrationAbandon (core : CoreNo) (lane : LaneNo) (written : Nat) (s : State) :
    Host.Outcome State Fault Refusal :=
  let c := core.val
  .next (match (s.lane c lane.val).hold with
    | none => s
    | some h =>
      if s.since h.edge < 2 || 2 ^ 47 ≤ s.since h.edge then s
      else
        let r := if h.inFlight then (h.batch, s) else State.moveRows c h.batch written s
        let s' := r.1.foldl (fun (t : State) m => t.abandonRow m c true) r.2
        let y := s'.lane c lane.val
        s'.setLane c lane.val { y with hold := none, lastEnd := some s.now })

/-! ### Freed slots and reclaimed versions (R293, R301) -/

/-- An outstanding request of the partition names the table version: a command, an RLT request, an assembly item or a
lane record. -/
def State.captured (s : State) (p table version : Nat) : Bool :=
  (s.cmds.any fun c => c.part == p && [0x21, 0x28, 0x29].contains c.opcode && c.f 95 64 == table &&
      c.version == version && c.stage != .fetched) ||
    (s.rltReqs.any fun r => s.div.netPart r.2.net == p && r.2.table == table && r.2.version == version) ||
    (s.lanes.any fun l => l.2.queue.any fun r => r.part == p && r.table == table && r.version == version) ||
    ((s.part p).flows.any fun f => f.2.items.any fun it =>
      match it.work with | .position _ _ _ _ _ vs => vs.contains (table, version) | _ => false)

/-- A LOOKUP, assembly item or update lane item of the partition that was admitted before the enqueue of a number has not
completed (R293). -/
def State.earlier (s : State) (p upTo : Nat) : Bool :=
  let reads (it : Item) : Bool := match it.work with
    | .cmd id => (s.cmd? id).any (·.opcode == 0x28)
    | .rlt _ => true
    | .position _ _ _ _ _ _ => true
    | _ => false
  ((s.part p).flows.any fun f => (f.2.queued ++ f.2.running ++ f.2.slow).any fun it => it.born < upTo && reads it) ||
    ((s.part p).stalled.any fun e => e.2.born < upTo && reads e.2) ||
    (s.lanes.any fun l => l.2.queue.any fun r => r.part == p && r.born < upTo)

/-- Free one given-up slot. -/
def State.freeSlot (s : State) (f : Freed) : State :=
  match s.versionOf f.part f.table f.version with
  | some (t, v) => s.setDir f.part t v f.core ((v.dir f.core).give f.slot)
  | none => s

/-- SLOT_FREE (R293): the given-up slots of a core whose conditions hold are freed. -/
def execSlotFree (core : CoreNo) (s : State) : Host.Outcome State Fault Refusal :=
  let due (f : Freed) : Bool := f.core == core.val && decide (4 ≤ s.since f.edge) && !s.earlier f.part f.upTo
  .next { (s.freed.filter due).foldl (fun t f => t.freeSlot f) s with freed := s.freed.filter fun f => !due f }

/-- Reclaim one version: its memory returns to free space, and the last version of a dropped table frees its ID
(R301, R303). -/
def State.reclaim (s : State) (p table number : Nat) : State :=
  match s.anyTable p table with
  | none => s
  | some t =>
    let t := { t with versions := t.versions.filter (·.number != number) }
    let s := { s with freed := s.freed.filter fun f =>
                        !(f.part == p && f.table == table && f.version == number) }
    (if t.dropped && t.versions.isEmpty then
      s.setPart p { s.part p with tables := dropAt (s.part p).tables table }
    else s.setTable p t).bump (at_ Ob.VERSIONS_RECLAIMED p)

/-- VERSION_RECLAIM (R301). -/
def execVersionReclaim (part : PartNo) (table : Nat) (s : State) : Host.Outcome State Fault Refusal :=
  let p := part.val
  .next (match s.anyTable p table with
    | none => s
    | some t =>
      ((t.versions.filter fun v => v.state == .retiring && decide (4 ≤ s.since v.since) &&
        !s.captured p table v.number).map (·.number)).foldl (fun u n => u.reclaim p table n) s)

/-! ### Versions (R295–R299) -/

/-- Copy one row of a version to the version `n` (R296): at its grade, with state and scales, POP 0. -/
def State.cloneRow (s : State) (p : Nat) (t : Table) (n core : Nat) (e : RowEntry) : Applied × State :=
  match s.readSlot t core e with
  | (none, s) => (.bad, s)
  | (some x, s) => match s.versionOf p t.id n with
    | some (t, v) => s.store p t v e.id e.grade false (e.scale, t.slotImage e.grade false x.1 x.2 [])
    | none => (.bad, s)

/-- Copy the rows of one bucket. -/
def State.cloneBucket (s : State) (p : Nat) (t : Table) (v : Version) (n core b : Nat) : Applied × State :=
  match s.readBucket v core b with
  | (none, s) => (.bad, s)
  | (some es, s) => es.foldl (fun (acc : Applied × State) e =>
      if acc.1 = .done then acc.2.cloneRow p t n core e.2 else acc) (.done, s)

/-- Copy every stored row of a version to the version `n` (R296): what came of it. -/
def State.cloneAll (s : State) (p : Nat) (t : Table) (v : Version) (n : Nat) : Applied × State :=
  let work := (v.dirs.map (·.1)).flatMap fun core => (s.fullBuckets t v (s.div.coreCount p) core).map fun b => (core, b)
  work.foldl (fun (acc : Applied × State) x =>
    if acc.1 = .done then acc.2.cloneBucket p t v n x.1 x.2 else acc) (.done, s)

/-- Discard a version that could not be opened: its memory and its number are free again (R296). -/
def State.dropVersion (s : State) (p table n : Nat) : State :=
  match s.anyTable p table with
  | some t => s.setTable p { t with versions := t.versions.filter (·.number != n), nextVersion := n }
  | none => s

/-- R296's checks. -/
def State.versionOpenCheck (s : State) (c : Cmd) : Status :=
  match s.table? c.part (c.f 95 64) with
  | none => .badDescriptor
  | some t => firstFail [(c.f 511 97 ≠ 0, .badDescriptor),
      (!s.homeRoom c.part (t.homeBytes (s.div.coreCount c.part)) || 2 ^ 31 - 1 < t.nextVersion, .noResource),
      (t.inState .opened ≠ 0, .resourceHeld)]

/-- The lanes hold no record of the table's current version. -/
def State.lanesIdle (s : State) (p table : Nat) : Bool :=
  !(s.lanes.any fun l => l.2.queue.any fun r => r.part == p && r.table == table)

/-- TABLE_VERSION_OPEN (R296).  A clone, which goes through the rows' update lanes, is taken once the lanes hold no record of
the table. -/
def execTableVersionOpen (id : Nat) (s : State) : Host.Outcome State Fault Refusal :=
  .next (match s.control id 0x22 with
    | none => s
    | some c =>
      let st := s.versionOpenCheck c
      if st ≠ .ok then s.finish id st 0
      else match s.table? c.part (c.f 95 64) with
        | none => s.finish id .badDescriptor 0
        | some t =>
          let n := t.nextVersion
          let u := s.addVersion c.part t .opened
          if c.f 96 96 = 0 then u.finish id .ok n
          else if !s.lanesIdle c.part t.id then s
          else match t.version? t.current with
            | none => s
            | some cur => match u.cloneAll c.part t cur n with
              | (.done, u) => u.finish id .ok n
              | (.refused, u) => (u.dropVersion c.part t.id n).finish id .noResource 0
              | (.bad, u) => (u.dropVersion c.part t.id n).finish id .uncorrectable 0)

/-- TABLE_VERSION_SWITCH (R299): checked and registered. -/
def execTableVersionSwitch (id : Nat) (s : State) : Host.Outcome State Fault Refusal :=
  .next (match s.control id 0x23 with
    | none => s
    | some c => match s.table? c.part (c.f 95 64) with
      | none => s.finish id .badDescriptor 0
      | some t =>
        let st := firstFail [
          (c.f 511 128 ≠ 0 || c.f 127 96 = 0 || c.f 127 96 ≠ t.inState .opened, .badDescriptor),
          (t.inState .retiring ≠ 0 || t.switch.isSome, .resourceHeld)]
        if st ≠ .ok then s.finish id st 0
        else (s.setTable c.part { t with switch := some id }).setCmd { c with stage := .waiting })

/-- End the holds and queued migrations of a table's version without counting (R299). -/
def State.endPass (s : State) (p table version : Nat) : State :=
  let mine (m : Migration) : Bool := m.part == p && m.table == table && m.version == version
  s.lanes.foldl (fun t e =>
    let core := e.1 / 8
    let x := t.lane core (e.1 % 8)
    let batch := (match x.hold with | some h => h.batch.filter mine | none => [])
    let t := batch.foldl (fun u m => u.abandonRow m core false) t
    let hold := (match x.hold with
      | some h => if h.batch.all mine then none else some { h with batch := h.batch.filter fun m => !mine m }
      | none => none)
    t.setLane core (e.1 % 8)
      { x with migrations := x.migrations.filter fun m => !mine m, hold := hold,
               lastEnd := if x.hold.isSome && hold.isNone then some t.now else x.lastEnd }) s

/-- A TABLE_WRITE_ROWS with TARGET 1 on a table, admitted before a command, has not completed (R299). -/
def State.openWrites (s : State) (p table before : Nat) : Bool :=
  s.cmds.any fun c => c.part == p && c.opcode == 0x21 && c.f 95 64 == table && c.f 96 96 == 1 && decide (c.order < before)

/-- SWITCH_EDGE (R299): edge S. -/
def execSwitchEdge (part : PartNo) (table : Nat) (s : State) : Host.Outcome State Fault Refusal :=
  let p := part.val
  .next (match s.table? p table with
    | none => s
    | some t => match t.switch with
      | none => s
      | some id =>
        if s.openWrites p table id then s
        else
          let s := s.endPass p table t.current
          match s.table? p table with
          | none => s
          | some t =>
            let n := t.inState .opened
            let vs := t.versions.map fun v =>
              if v.state = .current then { v with state := .retiring, since := s.now }
              else if v.state = .opened then { v with state := .current } else v
            (s.setTable p { t with versions := vs, switch := none, windows := 0, windowStart := s.now,
                                   closeLate := false }).finish id .ok n)

/-- TABLE_DROP (R303): checked; it acts at the next tick edge. -/
def execTableDrop (id : Nat) (s : State) : Host.Outcome State Fault Refusal :=
  .next (match s.control id 0x24 with
    | none => s
    | some c => match s.table? c.part (c.f 95 64) with
      | none => s.finish id .badDescriptor 0
      | some t =>
        if c.f 511 96 ≠ 0 then s.finish id .badDescriptor 0
        else (s.setTable c.part { t with drop := some id }).setCmd { c with stage := .waiting })

/-! ### TABLE_PEEK (R304, Table 11.11) -/

/-- Rows of the current version for which a test holds (R304). -/
def State.countRows (s : State) (p : Nat) (t : Table) (f : RowEntry → Bool) : Nat :=
  match t.version? t.current with
  | some v => ((v.dirs.map (·.1)).map fun core => ((s.fullBuckets t v (s.div.coreCount p) core).map fun b =>
      ((List.range 4).filter fun i => (entryOf (s.peek (v.entryDa core (4 * b + i)) 16)).any f).length).sum).sum
  | none => 0

/-- The 64 B record of a table. -/
def State.tableRecord (s : State) (p : Nat) (t : Table) : Bytes :=
  let rows (f : RowEntry → Bool) : Bytes := leBytes 8 (s.countRows p t f)
  leBytes 4 t.id ++ leBytes 4 (t.dim + 2 ^ 16 * t.opt + 2 ^ 18 * t.g0fmt + 2 ^ 19 * t.firstGrade + 2 ^ 21 * t.coarsest) ++
    leBytes 4 t.current ++ leBytes 4 (t.inState .opened) ++ leBytes 4 (t.inState .retiring) ++ leBytes 4 t.windows ++
    rows (·.grade == 0) ++ rows (·.grade == 1) ++ rows (·.grade == 2) ++ rows (·.ready) ++ leBytes 8 t.maxRows

end Sys2Proof.Machine
end

