-- ==== Sys2Proof/Machine/Lookup.lean ====
section
/-!
DEFINITION. Look-up, pooling, the LAT serving path, and sparse updates: LOOKUP, LOOKUP_REQ, UPDATE, TABLE_WRITE_ROWS and
the records of update lanes (R297–R298, R305–R321).
-/
namespace Sys2Proof.Machine

/-! ### Reading a row (R50, R281, R284, R309) -/

/-- Add LAT accesses of a vault in this tick (R49). -/
def State.latAccess (s : State) (vault n : Nat) : State :=
  { s with ticks := { s.ticks with latAccesses := putD s.ticks.latAccesses vault 0 (lookD s.ticks.latAccesses vault 0 + n) } }

/-- Read one row for a reader, of a version in force: FP32 values, or none where a word of it is uncorrectable (R281, R309). -/
def State.readResolved (s : State) (p : Nat) (t : Table) (v : Version) (reader : Nat) (lat : Bool) (id : Nat) :
    Option (List Nat) × State :=
  let core := s.rowCore p t id
  let source := if lat then srcLat else srcBulk
  match s.resolve p t v source id with
  | (none, s) => (none, s)
  | (some (pos, e), s) =>
    let s := if lat then s.latAccess (core / 60 * 64 + homeVault core) (t.accesses e) else s
    match e with
    | none => (some (t.seededValues id), s.bump (at_ Ob.UNWRITTEN_READS p))
    | some e => match s.readValues t core source e with
      | (none, s) => (none, s)
      | (some vs, s) => (some vs, s.countPop t v core pos e reader)

/-- What a LAT read of a row gave: an empty list stands for a read that met an uncorrectable word. -/
def rowRead (l : List Nat) : Option (List Nat) := if l.isEmpty then none else some l

/-- Read one row for a reader.  LAT reads of a row that this tick has already read receive what that read gave (R50). -/
def State.readRow (s : State) (p : Nat) (t : Table) (vn reader : Nat) (lat : Bool) (id : Nat) :
    Option (List Nat) × State :=
  match s.versionOf p t.id vn with
  | none => (none, s)
  | some (t, v) =>
    let key := (t.id, vn, s.rowCore p t id, id)
    match (if lat then (s.ticks.latRows.find? (·.1 == key)).map (·.2) else none) with
    | some vs => (rowRead vs, s.bump (at_ Ob.COMBINED_READS p))
    | none =>
      let r := (s.bump (at_ Ob.ROWS_READ p)).readResolved p t v reader lat id
      (r.1, if lat then
        { r.2 with ticks := { r.2.ticks with latRows := (key, r.1.getD []) :: r.2.ticks.latRows } } else r.2)

/-! ### Pooling (R311) -/

/-- Maximum of two FP32 values in the order of R207; of two equal values with different patterns either may result. -/
def max32 (a b : Nat) : Nat :=
  if lt32 a b then b else if lt32 b a then a else if a = b then a
  else if Config.free (2 ^ 69 + a * 2 ^ 32 + b) % 2 = 0 then a else b

/-- Element-wise combination of two rows. -/
def zipRow (f : Nat → Nat → Nat) (a b : List Nat) : List Nat := (a.zip b).map fun x => f x.1 x.2

/-- One step of a partial: the row of an ID with its weight joins the accumulator (R311 step 2). -/
def poolStep (pool dim : Nat) (acc : Option (List Nat)) (row : List Nat) (weight : Nat) : List Nat :=
  let zero := List.replicate dim 0
  match pool with
  | 3 => match acc with | some a => zipRow max32 a row | none => row
  | 4 => zipRow (fun a r => fma32 weight r a) (acc.getD zero) row
  | _ => zipRow add32 (acc.getD zero) row

/-- Put a list into an order that free values choose. -/
def State.shuffleFree {α : Type} : Nat → State → List α → List α × State
  | 0, s, l => (l, s)
  | fuel + 1, s, l =>
    if l.length ≤ 1 then (l, s)
    else
      let v := s.free
      let i := v.1 % l.length
      match l[i]? with
      | none => (l, v.2)
      | some x =>
        let r := State.shuffleFree fuel v.2 (l.eraseIdx i)
        (x :: r.1, r.2)

/-- The IDs of a bag by stand, each stand's part in request order (R311 step 1). -/
def State.byStand (s : State) (p : Nat) (t : Table) (ids : List (Nat × Nat)) : List (List (Nat × Nat)) :=
  ((span (s.div.firstStand p) (s.div.stands p)).map fun n =>
    ids.filter fun x => s.rowCore p t x.1 / 60 == n).filter fun l => !l.isEmpty

/-- One stand's partial: none where a row of it is uncorrectable. -/
def State.standPartial (s : State) (p : Nat) (t : Table) (vn : Nat) (lat : Bool) (pool : Nat) (part : List (Nat × Nat)) :
    Option (List Nat) × State :=
  let reader := ((part.head?).map fun x => s.rowCore p t x.1).getD 0
  let r := part.foldl (fun (acc : (Bool × Option (List Nat)) × State) x =>
    let y := acc.2.readRow p t vn reader lat x.1
    (match y.1 with
      | some row => (acc.1.1, some (poolStep pool t.dim acc.1.2 row x.2))
      | none => (false, acc.1.2), y.2)) ((true, none), s)
  (if r.1.1 then r.1.2 else none, r.2)

/-- The pooled FP32 vector of a bag, or none where a row it needs is uncorrectable (R311, R313).  The order in which
the stands' partials arrive is free. -/
def State.poolBag (s : State) (p : Nat) (t : Table) (vn : Nat) (lat : Bool) (pool : Nat) (ids : List (Nat × Nat)) :
    Option (List Nat) × State :=
  let r := (s.byStand p t ids).foldl (fun (acc : List (Option (List Nat)) × State) part =>
    let y := acc.2.standPartial p t vn lat pool part
    (acc.1 ++ [y.1], y.2)) ([], s)
  if r.1.any (·.isNone) then (none, r.2)
  else
    let o := State.shuffleFree r.1.length r.2 (r.1.filterMap id)
    let sum := match o.1 with
      | [] => List.replicate t.dim 0
      | x :: xs => xs.foldl (zipRow (if pool = 3 then max32 else add32)) x
    let n := fpPack fp32 (Fr.ofInt ids.length)
    (some (if pool = 2 && !ids.isEmpty then sum.map fun v => div32 v n else sum), o.2)

/-- Convert an FP32 row to an output format (R311 step 5). -/
def State.outRow (s : State) (p fmt : Nat) (row : List Nat) : Bytes × State :=
  let r := encodeVec fmt rne (row.map val32)
  (r.1, s.tally p r.2)

/-- Output formats of Table 12.3. -/
def outFmts : List Nat := [0, 1, 2, 3, 5]

/-- The reading core of an ID of a bag: the home core of the bag's first ID on the same stand (R311 step 1). -/
def State.readerOf (s : State) (p : Nat) (t : Table) (bag : List (Nat × Nat)) (id : Nat) : Nat :=
  ((bag.map fun y => s.rowCore p t y.1).find? fun c => c / 60 == s.rowCore p t id / 60).getD (s.rowCore p t id)

/-- Output rows of a request, in order: none for an affected bag or ID (R311–R313).  Under POOL 0 each ID is read for itself, by
the reading core of its bag's part. -/
def State.lookupRows (s : State) (p : Nat) (t : Table) (vn : Nat) (lat : Bool) (pool fmt : Nat)
    (bags : List (List (Nat × Nat))) : List (Option Bytes) × State :=
  let units : List (List (Nat × Nat) × Nat) :=
    if pool = 0 then bags.flatMap fun b => b.map fun x => (b, x.1) else bags.map fun b => (b, 0)
  units.foldl (fun (acc : List (Option Bytes) × State) u =>
    let r := if pool = 0 then acc.2.readRow p t vn (acc.2.readerOf p t u.1 u.2) lat u.2
      else acc.2.poolBag p t vn lat pool u.1
    match r.1 with
    | some row => let o := r.2.outRow p fmt row; (acc.1 ++ [some o.1], o.2)
    | none => (acc.1 ++ [none], r.2)) ([], s)

/-! ### LOOKUP (R305–R308) -/

/-- Bytes of the extension entries. -/
def Cmd.extBytes (c : Cmd) : Bytes := c.ext.flatMap fun e => leBytes 64 e.toNat

/-- Little-endian words of `n` bytes. -/
def words (n k : Nat) (b : Bytes) : List Nat := (List.range k).map fun i => leAt b (n * i) n

/-- The bytes a command's DMA read returned, made up to `n` bytes with bytes of host memory that the environment did
not give. -/
def Cmd.hostBytes (c : Cmd) (data : Bytes) (n : Nat) : Bytes :=
  (List.range n).map fun i => (data[i]?).getD (Config.hostByte c.id i)

/-- Output rows of a LOOKUP (Table 12.2). -/
def Cmd.outRows (c : Cmd) : Nat := if c.f 98 96 = 0 then c.f 287 256 else c.f 239 224

/-- R308 for a host command. -/
def State.lookupCheck (s : State) (c : Cmd) : Status :=
  let pool := c.f 98 96
  let src := c.f 99 99
  let fmt := c.f 111 104
  let next := c.f 114 112
  let nbags := c.f 239 224
  let nids := c.f 287 256
  let need := divUp (8 * nids + (if pool = 4 then 4 * nids else 0)) 64
  let used := 8 * nids + (if pool = 4 then 4 * nids else 0)
  let form : Bool :=
    c.f 103 101 = 0 && c.f 127 115 = 0 && c.f 255 240 = 0 && c.f 319 288 = 0 && pool ≤ 4 && outFmts.contains fmt &&
    (if src = 0 then
      c.f 511 320 = 0 && nbags = 1 && 1 ≤ nids && nids ≤ 32 && next = need && allZero (c.extBytes.drop used)
     else
      next = 0 && 1 ≤ nbags && nbags ≤ 4096 && 1 ≤ nids && nids ≤ 1048576 && (nbags ≠ 1 || c.f 447 384 = 0) &&
        (pool = 4 || c.f 511 448 = 0) && !(nbags = 1 && 1 ≤ pool && 256 < nids))
  if !form then .badDescriptor
  else match s.table? c.part (c.f 95 64) with
    | none => .badDescriptor
    | some t =>
      let size := c.outRows * vecBytes fmt t.dim
      if c.f 223 192 < size then .badDescriptor
      else if s.cmdLat c && (src = 1 || c.f 100 100 = 1 || 512 < size) then .badDescriptor
      else .ok

/-- Bags of IDs with weights from flat lists and offsets. -/
def bagsOf (offs : List Nat) (ids : List (Nat × Nat)) : List (List (Nat × Nat)) :=
  (offs.zip (offs.drop 1)).map fun o => (ids.drop o.1).take (o.2 - o.1)

/-- The bags of a LOOKUP, or none where its offset array breaks R307.  With SRC 1 the bytes read are the offsets where
there are any, then the IDs, then the weights. -/
def Cmd.bags (c : Cmd) (data : Bytes) : Option (List (List (Nat × Nat))) :=
  let n := c.f 287 256
  let nb := c.f 239 224
  let pool := c.f 98 96
  let mk (b : Bytes) : List (Nat × Nat) :=
    (words 8 n b).zip (if pool = 4 then words 4 n (b.drop (8 * n)) else List.replicate n 0)
  if c.f 99 99 = 0 then some [mk c.extBytes]
  else
    let no := if 1 < nb then 4 * (nb + 1) else 0
    let b := c.hostBytes data (no + 8 * n + (if pool = 4 then 4 * n else 0))
    let offs := if 1 < nb then words 4 (nb + 1) b else [0, n]
    let pairs := offs.zip (offs.drop 1)
    if offs.head? = some 0 && offs.getLast? = some n && pairs.all (fun o => o.1 ≤ o.2) &&
        (pool = 0 || pairs.all fun o => o.2 - o.1 ≤ 256) then some (bagsOf offs (mk (b.drop no)))
    else none

/-- Stands that a request for rows of a table touches. -/
def State.touched (s : State) (p table : Nat) (ids : List Nat) : List Nat :=
  match s.anyTable p table with
  | some t => (ids.map fun k => s.rowCore p t k / 60).dedup
  | none => []

/-- Every stand that holds one of the rows serves work: none retrains its link (R17) or lies in the scope of a maintenance
period (R45). -/
def State.rowsServed (s : State) (p table : Nat) (ids : List Nat) : Bool :=
  (s.touched p table ids).all fun n => s.standServes .merge n

/-- The rows of a LOOKUP's bags are read, pooled and written out (R309–R313). -/
def State.lookupBags (s : State) (c : Cmd) (t : Table) (bags : List (List (Nat × Nat))) : State :=
  let pool := c.f 98 96
  let fmt := c.f 111 104
  let size := vecBytes fmt t.dim
  let r := s.lookupRows c.part t c.version (s.cmdLat c) pool fmt bags
  let w := (r.1.zipIdx).foldl (fun (acc : Nat × State) x =>
    match x.1 with
    | some b =>
      let o := acc.2.putOut c (c.f 100 100 = 1) (c.f 191 128 + x.2 * size) b
      (if o.1 then acc.1 else acc.1 + 1, o.2)
    | none => (acc.1 + 1, acc.2)) (0, r.2)
  let c := (w.2.cmd? c.id).getD c
  if w.1 = 0 then w.2.workDone c .ok r.1.length else w.2.workDone c .uncorrectable w.1

/-- A LOOKUP's work: it waits while a stand that it touches serves none (R17, R45, R307). -/
def State.lookupWork (s : State) (c : Cmd) (data : Bytes) : State :=
  match c.bags data, s.anyTable c.part (c.f 95 64) with
  | some bags, some t =>
    if s.rowsServed c.part t.id (bags.flatten.map (·.1)) then s.lookupBags c t bags else s
  | _, _ => s.workDone c .badDescriptor 0

/-- Counts of a look-up that leaves (Tables 2.4 and 12.8, R441). -/
def State.countLookup (s : State) (p : Nat) (lat late inBound : Bool) : State :=
  if lat then
    let s := ((s.bump (if p = 0 then Ob.LAT_DONE_P0 else Ob.LAT_DONE_P1)).bump (at_ Ob.LOOKUPS_LAT p)).addWork p 7 1
    if late then
      let s := s.bump (if p = 0 then Ob.DEADLINE_P0 else Ob.DEADLINE_P1)
      if inBound then s.bump (if p = 0 then Ob.DEADLINE_IN_BOUND_P0 else Ob.DEADLINE_IN_BOUND_P1) else s
    else s
  else s.bump (at_ Ob.LOOKUPS_BULK p)

/-- A LOOKUP that its checks, or its flow, refuse has left too. -/
def State.countRefused (s : State) (c : Cmd) (lat : Bool) : State :=
  if (s.cmd? c.id).any (·.stage == .queued) then s else s.countLookup c.part lat false true

/-- LOOKUP (R305–R308): checked and admitted with the version it captures (R300); once it runs, the row gives what its
DMA reads returned. -/
def execLookup (id : Nat) (data : Bytes) (s : State) : Host.Outcome State Fault Refusal :=
  .next (match s.admitting id 0x28 with
    | some c =>
      let c := { c with version := ((s.table? c.part (c.f 95 64)).map (·.current)).getD 0 }
      ((s.setCmd c).admitIf c (s.lookupCheck c)).countRefused c (s.cmdLat c)
    | none => match s.atWork id 0x28 with
      | some c => s.lookupWork c data
      | none => s)

/-! ### LOOKUP_REQ (R165, R166) -/

/-- Send the answer of an RLT request (R142, R143, R166). -/
def State.sendRsp (s : State) (r : RltReq) (st : Status) (out : Bytes) : State :=
  let d : Peer := { net := r.net, sub := r.sub, mac := r.srcMac, addr := r.srcAddr, port := r.srcPort, v6 := r.v6,
                    own := r.dstAddr }
  let out := if st = .ok || st = .partialOk || st = .deadline then out else []
  s.sendRlt d (s.net r.net).inUse.pcpLat (buildRlt 5 0 r.stream r.reqId st.code (s.now % 2 ^ 32) out)

/-- The request an RLT packet carries. -/
def rltRequest (s : State) (n sub : Nat) (k : RltPacket) (x : Rlt) : RltReq :=
  let b := x.payload
  let nids := beAt b 6 1
  { net := n, sub := sub, srcMac := k.srcMac, srcAddr := k.srcAddr, srcPort := k.srcPort, v6 := k.v6,
    dstAddr := k.dstAddr, stream := x.stream, reqId := x.seq, table := beAt b 0 4, version := 0, pool := beAt b 4 1, outFmt := beAt b 5 1,
    ids := words 8 nids (b.drop 8), weights := if beAt b 4 1 = 4 then words 4 nids (b.drop (8 + 8 * nids)) else [],
    flow := x.w1 % 2 ^ 18, tick := s.now, late := false, inBound := true }

/-- The checks of R165. -/
def State.reqCheck (s : State) (r : RltReq) (x : Rlt) : Status :=
  let p := s.div.netPart r.net
  let nids := beAt x.payload 6 1
  match s.table? p r.table with
  | t? => firstFail [
      (!inRange (s.div.latRange p) r.flow, .notPermitted),
      ((match s.flow? p r.flow with | some f => f.closing || f.destKind != 3 | none => true) || nids = 0 || 32 < nids ||
        x.plen ≠ 8 + 8 * nids + (if r.pool = 4 then 4 * nids else 0) || x.w1 / 2 ^ 18 ≠ 0 || x.w2 ≠ 0 ||
        beAt x.payload 7 1 ≠ 0, .badDescriptor),
      (4 < r.pool || !outFmts.contains r.outFmt, .badDescriptor),
      (t?.isNone, .badDescriptor),
      ((match t? with
        | some t => 512 < (if r.pool = 0 then nids else 1) * vecBytes r.outFmt t.dim
        | none => true), .badDescriptor)]

/-- LOOKUP_REQ (R165). -/
def execLookupReq (net : NetNo) (sub : SubNo) (packet : RltPacket) (s : State) : Host.Outcome State Fault Refusal :=
  .next (if !s.netHears net.val sub.val || (parseRlt packet.bytes).kind ≠ 4 then s
    else
      let i := s.rltIntake net.val sub.val packet
      match i.1 with
      | none => i.2
      | some x =>
        let s := (i.2.bump (i.2.rltKey Ob.LOOKUP_REQS net.val)).latArrive
        let p := s.div.netPart net.val
        let r := rltRequest s net.val sub.val packet x
        let st := s.reqCheck r x
        if st ≠ .ok then
          (if s.div.flowPart r.flow = p && s.latFlow r.flow then s.countLookup p true false true else s).sendRsp r st []
        else
          let r := { r with version := ((s.table? p r.table).map (·.current)).getD 0 }
          let e := s.enqueue p r.flow (mkItem 0x7FF 0 0 0 0 .ok (.rlt s.nextReq))
          if e.1 ≠ .ok then (e.2.countLookup p true false true).sendRsp r e.1 []
          else { e.2 with rltReqs := setAt e.2.rltReqs s.nextReq r, nextReq := s.nextReq + 1 })

/-- The output of an RLT request, and its status (R311–R313). -/
def State.rltWork (s : State) (r : RltReq) : (Status × Bytes) × State :=
  let p := s.div.netPart r.net
  match s.anyTable p r.table with
  | none => ((.aborted, []), s)
  | some t =>
    let ws := if r.pool = 4 then r.weights else List.replicate r.ids.length 0
    let o := s.lookupRows p t r.version true r.pool r.outFmt [r.ids.zip ws]
    (if o.1.any (·.isNone) then (.uncorrectable, []) else (.ok, (o.1.filterMap id).flatten), o.2)

/-! ### UPDATE and TABLE_WRITE_ROWS: admission and routing (R297, R314–R316) -/

/-- Bytes of a gradient record (Table 12.5). -/
def gradBytes (fmt dim : Nat) : Nat := if fmt = 0 then 8 + 4 * dim else if fmt = 3 then 16 + dim else 8 + 2 * dim

/-- A host range check that runs once its length is known (R297, R315): a failure records the DMA fault. -/
def State.lateRange (s : State) (c : Cmd) (addr n : Nat) : Option State :=
  if (s.port c.port).rangeOk false addr n then none
  else some ((s.dmaFault c.port addr .notPermitted c.ring c.tag).finish c.id .notPermitted 0)

/-- R315 steps 1 and 2. -/
def State.updateCheck (s : State) (c : Cmd) : Status :=
  let fin (v : Nat) : Bool := (val32 v).isFin
  let nonneg (v : Nat) : Bool := fin v && !(val32 v).lt FVal.zero
  let t? := s.table? c.part (c.f 95 64)
  let adagrad : Bool := match t? with | some t => t.opt = 2 | none => false
  firstFail [
    (s.cmdLat c || c.f 127 101 ≠ 0 || c.f 511 448 ≠ 0 || 3 < c.f 99 96 || c.f 223 192 = 0 || 65536 < c.f 223 192 ||
      !fin (c.f 255 224) || !fin (c.f 287 256) || !nonneg (c.f 351 320) || !nonneg (c.f 383 352), .badDescriptor),
    (t?.isNone, .badDescriptor),
    (adagrad && !(fin (c.f 319 288) && FVal.zero.lt (val32 (c.f 319 288))), .badDescriptor)]

/-- Queue the first `n` records of a command on the lanes of their rows, in order (R316). -/
def State.routeSome (s : State) (c : Cmd) (t : Table) (op : LaneOp) (size n : Nat) (b : Bytes) : State :=
  let s := s.setCmd { c with left := n, stage := .waiting }
  (List.range n).foldl (fun (u : State) i =>
    let r := sliceB b (i * size) size
    (u.route t { cmd := c.id, index := i, part := c.part, table := t.id, version := c.version, id := leAt r 0 8,
                 op := op, bytes := r, born := u.nextBorn }).numbered) s

/-- Queue every record of a command. -/
def State.routeAll (s : State) (c : Cmd) (t : Table) (op : LaneOp) (size : Nat) (b : Bytes) : State :=
  s.routeSome c t op size (c.f 223 192) b

/-- No UPDATE or TABLE_WRITE_ROWS of the table that was admitted earlier still has to route its records (R316). -/
def State.routesNext (s : State) (c : Cmd) : Bool :=
  !(s.cmds.any fun x => x.part == c.part && [0x21, 0x29].contains x.opcode && x.f 95 64 == c.f 95 64 &&
    decide (x.order < c.order) && (x.stage == .fetched || x.stage == .queued || x.stage == .running))

/-- UPDATE (R314–R316). -/
def execUpdate (id : Nat) (data : Bytes) (s : State) : Host.Outcome State Fault Refusal :=
  .next (match s.admitting id 0x29 with
    | some c => match s.updateCheck c, s.table? c.part (c.f 95 64) with
      | .ok, some t => match s.lateRange c (c.f 191 128) (c.f 223 192 * gradBytes (c.f 99 96) t.dim) with
        | some u => u
        | none =>
          let c := { c with version := t.current }
          (s.setCmd c).admitItem c
      | st, _ => s.finish id st 0
    | none => match s.atWork id 0x29 with
      | some c => match s.anyTable c.part (c.f 95 64) with
        | some t =>
          let size := gradBytes (c.f 99 96) t.dim
          if !s.routesNext c then s else
          s.routeAll c t .update size (c.hostBytes data (c.f 223 192 * size))
        | none => s
      | none => s)

/-- Bytes of a source record of TABLE_WRITE_ROWS (R297). -/
def rowBytes (fmt dim : Nat) : Nat := 8 + (if fmt = 0 then 4 else 2) * dim

/-- TABLE_WRITE_ROWS (R297). -/
def execTableWriteRows (id : Nat) (data : Bytes) (s : State) : Host.Outcome State Fault Refusal :=
  .next (match s.admitting id 0x21 with
    | some c => match s.table? c.part (c.f 95 64) with
      | none => s.finish id .badDescriptor 0
      | some t =>
        let g := c.f 98 97
        if c.f 103 99 ≠ 0 || c.f 127 108 ≠ 0 || c.f 511 224 ≠ 0 || (c.f 96 96 = 1 && t.inState .opened = 0) ||
            (g ≠ 3 && t.coarsest < g) || 2 < c.f 107 104 || c.f 223 192 = 0 || 65536 < c.f 223 192 then
          s.finish id .badDescriptor 0
        else match s.lateRange c (c.f 191 128) (c.f 223 192 * rowBytes (c.f 107 104) t.dim) with
          | some u => u
          | none =>
            let c := { c with version := if c.f 96 96 = 1 then t.inState .opened else t.current }
            (s.setCmd c).admitItem c
    | none => match s.atWork id 0x21 with
      | some c => match s.anyTable c.part (c.f 95 64) with
        | some t =>
          let size := rowBytes (c.f 107 104) t.dim
          let g := if c.f 98 97 = 3 then t.firstGrade else c.f 98 97
          if !s.routesNext c then s else
          s.routeAll c t (.write g) size (c.hostBytes data (c.f 223 192 * size))
        | none => s
      | none => s)

/-! ### The optimizer (R317) -/

/-- Square root by bits: the whole part of √n, from bit `b` down. -/
def isqrtGo (n : Nat) : Nat → Nat → Nat
  | 0, r => if (r + 1) * (r + 1) ≤ n then r + 1 else r
  | b + 1, r => isqrtGo n b (if (r + 2 ^ (b + 1)) * (r + 2 ^ (b + 1)) ≤ n then r + 2 ^ (b + 1) else r)

/-- FP32 square root of a pattern, rounded once: a zero keeps its sign and a negative number gives NaN. -/
def sqrt32 (b : Nat) : Nat :=
  match val32 b with
  | .fin _ x =>
    if x.n = 0 then b
    else if x.n < 0 then FVal.nan.r32
    else
      let n := x.n.toNat * x.d * 4 ^ 64
      let r := isqrtGo n (n.log2 / 2 + 1) 0
      let y : Fr := if r * r = n then ⟨r, x.d * 2 ^ 64⟩ else ⟨(2 * r + 1 : Nat), x.d * 2 ^ 65⟩
      (FVal.of y).r32
  | .inf false => b
  | _ => FVal.nan.r32

/-- Negation of an FP32 pattern. -/
def neg32 (b : Nat) : Nat := setBit b 31 (!bitOf b 31)

/-- The hyper-parameters of an UPDATE (Table 12.4). -/
structure Hyper where
  lr : Nat
  mu : Nat
  eps : Nat
  wd : Nat
  clip : Nat
  sr : Option Nat
deriving DecidableEq, Repr

/-- The hyper-parameters a command carries. -/
def Cmd.hyper (c : Cmd) : Hyper :=
  { lr := c.f 255 224, mu := c.f 287 256, eps := c.f 319 288, wd := c.f 351 320, clip := c.f 383 352,
    sr := if c.f 100 100 = 1 then some (c.f 447 384) else none }

/-- Random bits of a conversion of an update: the row's ID and record index with the element's offset (R318). -/
def Hyper.rnd (h : Hyper) (k i off : Nat) : Option Nat :=
  h.sr.map fun seed => h64 (w64 (h64 k i + off)) seed % 65536

/-- Clip and decay a gradient (R317). -/
def Hyper.grad (h : Hyper) (g w : Nat) : Nat :=
  let g := if FVal.zero.lt (val32 h.clip) then
      (let m := if lt32 g (neg32 h.clip) then neg32 h.clip else g; if lt32 h.clip m then h.clip else m) else g
  if FVal.zero.lt (val32 h.wd) then fma32 h.wd w g else g

/-- New values and state bytes of one record (R317): values and momentum or accumulator as FP32 patterns too, with
conversion counts. -/
def Table.optimise (t : Table) (h : Hyper) (k i : Nat) (w g : List Nat) (state : Bytes) :
    (List Nat × List Nat × Bytes) × Tally :=
  let g := zipRow h.grad g w
  match t.opt with
  | 0 => ((zipRow (fun wj gj => fma32 (neg32 h.lr) gj wj) w g, [], state), Tally.zero)
  | 1 =>
    let m := zipRow (fun mj gj => fma32 h.mu mj gj) ((decodeVec 1 t.dim state).map fun v => (to32 v).1) g
    let r := m.zipIdx.map fun x => toFloat bf16 0x7F7F true 0x7FC0 (h.rnd k i (1024 + x.2)) (val32 x.1)
    let m' := r.map fun x => x.1 * 65536
    ((zipRow (fun wj mj => fma32 (neg32 h.lr) mj wj) w m', m, leBytes (2 * t.dim) (pack 16 (r.map (·.1)))),
      r.foldl (fun a x => a.add x.2) Tally.zero)
  | _ =>
    let q := g.foldl (fun q gj => fma32 gj gj q) 0
    let s' := add32 (leNat state) (div32 q (fpPack fp32 (Fr.ofInt t.dim)))
    let r := div32 h.lr (add32 (sqrt32 s') h.eps)
    ((zipRow (fun wj gj => fma32 (neg32 r) gj wj) w g, [s'], leBytes 4 s'), Tally.zero)

/-! ### Writing a row in place (R318) -/

/-- New value bytes under the scales that a row's entry and old value bytes have: the bytes, and what saturated. -/
def Table.requantise (t : Table) (h : Hyper) (k i : Nat) (e : RowEntry) (old : Bytes) (w : List Nat) : Bytes × Tally :=
  let sum (r : List (Nat × Tally)) : Tally := r.foldl (fun a x => a.add x.2) Tally.zero
  if e.grade = 0 then
    encodeVec t.g0 (fun j => h.rnd k i j) (w.map val32)
  else if e.grade = 1 then
    encodeVec 3 (fun j => h.rnd k i j) (w.map fun v => val32 ((val32 v).div (floatVal fp16 true 0x7E00 e.scale)).r32)
  else
    let blocks := (chunksOf 32 (t.dim / 32) (w.zipIdx)).zipIdx
    blocks.foldl (fun (acc : Bytes × Tally) b =>
      let sc := leAt old (17 * b.2) 1
      let r := b.1.map fun x =>
        toFloat fp4 0x7 false 0 (h.rnd k i x.2) (val32 ((val32 x.1).scale (127 - (sc : Int))).r32)
      (acc.1 ++ leBytes 1 sc ++ leBytes 16 (pack 4 (r.map (·.1))), acc.2.add (sum r))) ([], Tally.zero)

/-- Gradient elements of a record in FP32 (Table 12.5). -/
def gradients (fmt dim : Nat) (b : Bytes) : List Nat :=
  if fmt = 3 then
    let sc := val32 (leAt b 8 4)
    (decodeVec 3 dim (b.drop 16)).map fun v => (sc.mul v).r32
  else (decodeVec fmt dim (b.drop 8)).map fun v => (to32 v).1

/-! ### Applying a lane's record (R297, R298, R316–R320) -/

/-- Finite FP32 patterns. -/
def allFinite (l : List Nat) : Bool := l.all fun v => (val32 v).isFin

/-- What an update reads of a stored row: its FP32 values, value bytes and state (R309, R317); none where a word of them is
uncorrectable. -/
def State.readForUpdate (s : State) (t : Table) (core : Nat) (e : RowEntry) : Option (List Nat × Bytes × Bytes) × State :=
  match s.readSlot t core e with
  | (none, s) => (none, s)
  | (some x, s) =>
    if e.ready then
      let r := s.readValues t core srcBulk e
      (r.1.map fun w => (w, x.1, x.2), r.2)
    else (some (t.decodeRow e.grade e.scale x.1, x.1, x.2), s)

/-- Write a row in place (R318): value bytes, state and ready copy, and SAT in its entry where an element saturated. -/
def State.writeInPlace (s : State) (p : Nat) (t : Table) (v : Version) (core pos : Nat) (e : RowEntry) (q : Bytes × Tally)
    (state : Bytes) : State :=
  let copy := if e.ready then readyCopy (t.decodeRow e.grade e.scale q.1) else []
  let s := (s.vaultWrite (slotDa core e) (t.slotImage e.grade e.ready q.1 state copy)).2.tally p q.2
  if e.grade ≠ 0 && q.2.sat ≠ 0 then (s.putUpper v core pos { e with sat := true }).bump (at_ Ob.SAT_SET p) else s

/-- Apply an update to a stored row at a directory position (R317–R319). -/
def State.updateRow (s : State) (p : Nat) (t : Table) (v : Version) (c : Cmd) (r : LaneRec) (pos : Nat) (e : RowEntry)
    (g : List Nat) : Applied × State :=
  let core := s.rowCore p t e.id
  match s.readForUpdate t core e with
  | (none, s) => (.bad, s)
  | (some (w, value, state), s) =>
    let h := c.hyper
    let o := t.optimise h r.id r.index w g state
    if !allFinite o.1.1 || !allFinite o.1.2.1 then (.refused, s.bump (at_ Ob.UPDATE_NONFINITE p))
    else (.done, ((s.writeInPlace p t v core pos e (t.requantise h r.id r.index e value o.1.1) o.1.2.2).tally p o.2).bump
      (at_ Ob.UPDATES_APPLIED p))

/-- Store an unwritten row with its seeded values and zero state (R283). -/
def State.materialise (s : State) (p : Nat) (t : Table) (v : Version) (k : Nat) : Applied × State :=
  let n := t.newRow t.firstGrade false (List.replicate t.stateBytes 0) (t.seedRow k)
  match s.store p t v k t.firstGrade false n.1 with
  | (.done, s) => (.done, (s.tally p n.2).bump (at_ Ob.MATERIALISED p))
  | (.refused, s) => (.refused, s.bump (at_ Ob.DIR_FULL p))
  | (.bad, s) => (.bad, s)

/-- Apply gradients to the row of a record, which is stored by now. -/
def State.updateStored (s : State) (c : Cmd) (r : LaneRec) (g : List Nat) : Applied × State :=
  match s.versionOf r.part r.table r.version with
  | none => (.refused, s)
  | some (t, v) => match s.resolve r.part t v srcBulk r.id with
    | (some (pos, some e), s) => s.updateRow r.part t v c r pos e g
    | (_, s) => (.bad, s)

/-- Apply a gradient record (R316, R319): an unwritten row is materialised first (R283). -/
def State.applyUpdate (s : State) (c : Cmd) (r : LaneRec) (t : Table) (v : Version) : Applied × State :=
  let fmt := c.f 99 96
  let g := gradients fmt t.dim r.bytes
  if !allFinite g || (fmt = 3 && (leAt r.bytes 12 4 ≠ 0 || !(val32 (leAt r.bytes 8 4)).isFin)) then
    (.refused, s.bump (at_ Ob.GRAD_NONFINITE r.part))
  else match s.resolve r.part t v srcBulk r.id with
    | (none, s) => (.bad, s)
    | (some (pos, some e), s) => s.updateRow r.part t v c r pos e g
    | (some (_, none), s) => match s.materialise r.part t v r.id with
      | (.done, s) => s.updateStored c r g
      | (a, s) => (a, s)

/-- Apply a source record of TABLE_WRITE_ROWS (R297, R298). -/
def State.applyWrite (s : State) (c : Cmd) (r : LaneRec) (grade : Nat) (t : Table) (v : Version) : Applied × State :=
  let vals := (decodeVec (c.f 107 104) t.dim (r.bytes.drop 8)).map fun x => (to32 x).1
  if !allFinite vals then (.refused, s.bump (at_ Ob.ROWS_REFUSED r.part))
  else
    let n := t.newRow grade false (List.replicate t.stateBytes 0) vals
    match s.store r.part t v r.id grade false n.1 with
    | (.done, s) => (.done, s.tally r.part n.2)
    | (.refused, s) => (.refused, s.bump (at_ Ob.DIR_FULL r.part))
    | (.bad, s) => (.bad, s)

/-- The command of a record moves on: when its last record has been applied or refused, its work is done with the
status of R297 and R320. -/
def State.recordDone (s : State) (id : Nat) (a : Applied) : State :=
  match s.cmd? id with
  | none => s
  | some c =>
    let c := { c with left := c.left - 1, readN := c.readN + (if a = .done then 1 else 0),
                      refused := c.refused + (if a = .refused then 1 else 0),
                      status := if a = .bad then .uncorrectable else c.status }
    if c.left = 0 then
      (s.setCmd c).workDone c (if c.status = .uncorrectable then .uncorrectable
        else if c.status = .linkRetryExhausted then .linkRetryExhausted
        else if c.status = .isolated then .isolated
        else if c.refused ≠ 0 then .partialOk else .ok) c.readN
    else s.setCmd c

/-- The lane may complete the item at its front: its stand serves work (R17, R45), its core takes work (R81), and a held lane
completes only an item that was in flight at the hold (R290). -/
def State.laneRuns (s : State) (core : Nat) (x : Lane) : Bool :=
  s.standServes .core core && !s.down.contains (unitCode .core core) && s.classRuns .bulk &&
    (match x.hold with | some h => h.inFlight | none => true)

/-- Apply the record of a lane's item. -/
def State.applyRec (s : State) (r : LaneRec) : State :=
  match s.cmd? r.cmd, s.versionOf r.part r.table r.version with
  | some c, some (t, v) =>
    let a := match r.op with
      | .update => s.applyUpdate c r t v
      | .write g => s.applyWrite c r g t v
    a.2.recordDone r.cmd a.1
  | _, _ => s

/-- The item at the front of an update lane completes (R289–R291).  Where the lane is held, the migration bolt starts once no
item is in flight. -/
def State.laneItem (s : State) (core lane : Nat) : State :=
  let x := s.lane core lane
  match x.queue with
  | [] => s
  | r :: rest =>
    if !s.laneRuns core x then s
    else
      let s := (s.setLane core lane { x with queue := rest, hold := x.hold.map fun h => { h with inFlight := false } }).applyRec r
      match x.hold with
      | some h => s.startMoves h.batch core
      | none => s

end Sys2Proof.Machine
end

