-- ==== Sys2Proof/Machine/Records.lean ====
section
/-!
DEFINITION. The record formats: Avro values, JSON text and fixed-record fields, from a record's bytes to the columns of
a row (R169–R174).
-/
namespace Sys2Proof.Machine

/-! ### Reading bytes -/

/-- What reading a prefix of a byte string comes to: more bytes are needed, the form is broken, or a value and the
rest. -/
inductive Parse (α : Type) where
  | more
  | bad
  | ok (x : α) (rest : Bytes)

/-- Read an unsigned variable-length integer of at most 10 bytes (R170). -/
def varintGo : Nat → Nat → Nat → Bytes → Parse Nat
  | 0, _, _, _ => .bad
  | _ + 1, _, _, [] => .more
  | fuel + 1, sh, acc, b :: bs =>
    let acc := acc + b.toNat % 128 * 2 ^ sh
    if b.toNat < 128 then .ok (acc % 2 ^ 64) bs else varintGo fuel (sh + 7) acc bs

/-- The signed value of a zigzag code. -/
def zigzag (n : Nat) : Int := if n % 2 = 0 then (n / 2 : Nat) else -((n / 2 + 1 : Nat) : Int)

/-- Read an Avro int or long. -/
def avroLong (b : Bytes) : Parse Int :=
  match varintGo 10 0 0 b with
  | .more => .more
  | .bad => .bad
  | .ok n r => .ok (zigzag n) r

/-- Read a length and that many bytes. -/
def avroBytes (b : Bytes) : Parse Bytes :=
  match avroLong b with
  | .more => .more
  | .bad => .bad
  | .ok n r => if n < 0 then .bad else if r.length < n.toNat then .more else .ok (r.take n.toNat) (r.drop n.toNat)

/-! ### Decoded columns -/

/-- Columns decoded so far, whether every value was valid, and saturations (NARROW_SAT). -/
structure Dec where
  cols : List (Nat × Val)
  ok : Bool
  sat : Nat

/-- No column yet. -/
def Dec.start : Dec := { cols := [], ok := true, sat := 0 }

/-- The record breaks a rule of its format. -/
def Dec.fail (d : Dec) : Dec := { d with ok := false }

/-- Record a column's value where the position has a column. -/
def Dec.set (d : Dec) (col : Option Nat) (v : Val) : Dec :=
  match col with
  | some c => { d with cols := d.cols ++ [(c, v)] }
  | none => d

/-- The first value decoded for each column of a layout; a column without one is null. -/
def Dec.row (d : Dec) (n : Nat) : List Val :=
  (List.range n).map fun c => match d.cols.find? (·.1 == c) with | some e => e.2 | none => .null

/-- FP64 (IEEE 754 binary64). -/
def fp64 : FpFmt := { expW := 11, fracW := 52, bias := 1023 }

/-- Narrow a 64-bit float to FP32 (R172): the pattern, and whether it saturated. -/
def narrow (b : Nat) : Nat × Nat :=
  let sign := if fpSign fp64 b then 2 ^ 31 else 0
  if fpNan fp64 b then (0x7FC00000, 0)
  else if fpInf fp64 b then (sign + 0x7F800000, 0)
  else
    let v := fpVal fp64 b
    let m := fpPackMag fp32 v.n.natAbs v.d
    if 0x7F800000 ≤ m then (sign + 0x7F7FFFFF, 1) else (sign + m, 0)

/-- Two's complement of a whole number in `w` bits. -/
def twos (w : Nat) (x : Int) : Nat := (x % (2 ^ w : Nat)).toNat

/-- The whole number of a `w`-bit two's complement pattern. -/
def untwos (w v : Nat) : Int := if 2 ^ (w - 1) ≤ v then (v : Int) - (2 ^ w : Nat) else v

/-- Saturate a whole number to `w` bits: its pattern, and whether it saturated. -/
def satInt (w : Nat) (x : Int) : Nat × Nat :=
  if x < -(2 ^ (w - 1) : Nat) then (2 ^ (w - 1), 1)
  else if (2 ^ (w - 1) : Nat) ≤ x then (2 ^ (w - 1) - 1, 1)
  else (twos w x, 0)

/-! ### Avro (R170, R171) -/

/-- Number of schema positions of the type that a list of positions begins with. -/
def typeSpan : Nat → List AvroField → Nat
  | 0, _ => 0
  | _ + 1, [] => 0
  | fuel + 1, f :: fs =>
    match f.tok with
    | .record n => (List.range n).foldl (fun k _ => k + typeSpan fuel ((f :: fs).drop k)) 1
    | .array => 1 + typeSpan fuel fs
    | .map => 1 + typeSpan fuel fs
    | .union _ => 1 + typeSpan fuel fs
    | _ => 1

/-- The element a decoded value gives in a LIST column: a scalar's bits, or none for null. -/
def elemOf : Val → Option Nat
  | .word w => some w
  | _ => none

/-- What decoding a value of a type leaves: the value, the columns, the schema positions after it, the bytes after it;
none where the walk of R170 fails. -/
abbrev AvroOut := Option (Val × Dec × List AvroField × Bytes)

/-- Read a value of exactly `n` bytes. -/
def fixedBytes (n : Nat) (b : Bytes) : Option (Bytes × Bytes) :=
  if b.length < n then none else some (b.take n, b.drop n)

/-- A scalar of the 32-bit Avro type int; a value beyond 32 bits is one the manual leaves open. -/
def avroInt (n : Int) : Nat :=
  if -(2 ^ 31 : Nat) ≤ n && n < (2 ^ 31 : Nat) then twos 32 n else Config.free (2 ^ 67 + twos 64 n) % 2 ^ 32

mutual
/-- Decode one value of the type that `fs` begins with. -/
def avroVal (maxField : Nat) : Nat → List AvroField → Dec → Bytes → AvroOut
  | 0, _, _, _ => none
  | _ + 1, [], _, _ => none
  | fuel + 1, f :: fs, d, b =>
    let done (v : Val) (d : Dec) (r : Bytes) : AvroOut := some (v, d.set f.col v, fs, r)
    let long (k : Int → Nat × Nat) : AvroOut :=
      match avroLong b with
      | .ok n r => done (.word (k n).1) { d with sat := d.sat + (k n).2 } r
      | _ => none
    match f.tok with
    | .null => done .null d b
    | .boolean => (fixedBytes 1 b).bind fun x =>
        if leNat x.1 ≤ 1 then done (.word (leNat x.1)) d x.2 else done .null d.fail x.2
    | .int => long fun n => (avroInt n, 0)
    | .date => long fun n => (avroInt n, 0)
    | .long => long fun n => (twos 64 n, 0)
    | .tsMicros => long fun n => (twos 64 n, 0)
    | .tsMillis => long fun n => satInt 64 (n * 1000)
    | .float => (fixedBytes 4 b).bind fun x => done (.word (leNat x.1)) d x.2
    | .double => (fixedBytes 8 b).bind fun x =>
        done (.word (narrow (leNat x.1)).1) { d with sat := d.sat + (narrow (leNat x.1)).2 } x.2
    | .bytes => match avroBytes b with
      | .ok x r => if maxField < x.length then done .null d.fail r else done (.bytes x) d r
      | _ => none
    | .fixed n => (fixedBytes n b).bind fun x => done (.bytes x.1) d x.2
    | .enum k => match avroLong b with
      | .ok n r => if n < 0 || (k : Int) ≤ n then done .null d.fail r else done (.word n.toNat) d r
      | _ => none
    | .record n => avroFields maxField fuel n fs d b
    | .array => match avroItems maxField fuel false fs d [] b with
      | some (vs, d, r) =>
        let v : Val := .list (vs.map elemOf)
        some (v, (if 4096 < vs.length then d.fail else d).set f.col v, fs.drop (typeSpan (fs.length + 1) fs), r)
      | none => none
    | .map => match avroItems maxField fuel true fs d [] b with
      | some (vs, d, r) =>
        let v : Val := .list (vs.map elemOf)
        some (v, (if 4096 < vs.length then d.fail else d).set f.col v, fs.drop (typeSpan (fs.length + 1) fs), r)
      | none => none
    | .union nullFirst => match avroLong b with
      | .ok n r =>
        if n ≠ 0 && n ≠ 1 then none
        else if (n = 0) = nullFirst then some (.null, d, fs.drop (typeSpan (fs.length + 1) fs), r)
        else match avroVal maxField fuel fs d r with
          | some (v, d, fs', r) => some (v, d.set f.col v, fs', r)
          | none => none
      | _ => none
/-- Decode `n` fields of a record in turn. -/
def avroFields (maxField : Nat) : Nat → Nat → List AvroField → Dec → Bytes → AvroOut
  | 0, _, _, _, _ => none
  | fuel + 1, n, fs, d, b =>
    if n = 0 then some (.null, d, fs, b)
    else match avroVal maxField fuel fs d b with
      | some (_, d, fs', r) => avroFields maxField fuel (n - 1) fs' d r
      | none => none
/-- Decode the blocks of an array or map: its values in order. -/
def avroItems (maxField : Nat) : Nat → Bool → List AvroField → Dec → List Val → Bytes → Option (List Val × Dec × Bytes)
  | 0, _, _, _, _, _ => none
  | fuel + 1, keyed, fs, d, acc, b =>
    match avroLong b with
    | .ok n r =>
      if n = 0 then some (acc, d, r)
      else if 0 < n then avroElems maxField fuel keyed n.toNat fs d acc r
      else match avroLong r with
        | .ok size r' => if size < 0 || r'.length < size.toNat then none
          else avroElems maxField fuel keyed n.natAbs fs d acc r'
        | _ => none
    | _ => none
/-- Decode `n` elements of the current block, then the blocks that follow. -/
def avroElems (maxField : Nat) : Nat → Bool → Nat → List AvroField → Dec → List Val → Bytes →
    Option (List Val × Dec × Bytes)
  | 0, _, _, _, _, _, _ => none
  | fuel + 1, keyed, n, fs, d, acc, b =>
    if n = 0 then avroItems maxField fuel keyed fs d acc b
    else
      let key : Option (Bool × Bytes) :=
        if keyed then (match avroBytes b with | .ok k r => some (decide (k.length ≤ maxField), r) | _ => none)
        else some (true, b)
      match key with
      | none => none
      | some (good, b) =>
        match avroVal maxField fuel fs (if good then d else d.fail) b with
        | some (v, d, _, r) => avroElems maxField fuel keyed (n - 1) fs d (acc ++ [v]) r
        | none => none
end

/-- Decode one Avro record at the start of a byte string: the columns and the bytes after it. -/
def avroRecord (schema : List AvroField) (maxField : Nat) (b : Bytes) : Option (Dec × Bytes) :=
  match avroVal maxField (8 * (b.length + schema.length) + 65536) schema Dec.start b with
  | some (_, d, _, r) => some (d, r)
  | none => none

/-! ### JSON (R173) -/

/-- A JSON value as the decoder needs it.  A number keeps its digits: sign, integer of all digits, digits after the
point, exponent, and whether it has neither fraction nor exponent. -/
inductive Json where
  | null
  | bool (b : Bool)
  | num (neg : Bool) (digits fracLen : Nat) (exp : Int) (whole : Bool)
  | str (b : Bytes)
  /-- The elements of an array that are scalars, and whether all were. -/
  | arr (xs : List Val) (ok : Bool)
  | obj
deriving DecidableEq, Repr

/-- JSON white space. -/
def jsonWs : Bytes → Bytes
  | [] => []
  | b :: bs => if b.toNat = 0x20 || b.toNat = 9 || b.toNat = 10 || b.toNat = 13 then jsonWs bs else b :: bs

/-- The UTF-8 bytes of a code point. -/
def utf8 (c : Nat) : Bytes :=
  let t (v : Nat) : Byte := BitVec.ofNat 8 (0x80 + v % 64)
  if c < 0x80 then [BitVec.ofNat 8 c]
  else if c < 0x800 then [BitVec.ofNat 8 (0xC0 + c / 64), t c]
  else if c < 0x10000 then [BitVec.ofNat 8 (0xE0 + c / 4096), t (c / 64), t c]
  else [BitVec.ofNat 8 (0xF0 + c / 262144), t (c / 4096), t (c / 64), t c]

/-- A hexadecimal digit. -/
def hexDigit (b : Byte) : Option Nat :=
  let c := b.toNat
  if 48 ≤ c && c ≤ 57 then some (c - 48)
  else if 65 ≤ c && c ≤ 70 then some (c - 55)
  else if 97 ≤ c && c ≤ 102 then some (c - 87) else none

/-- Four hexadecimal digits. -/
def hex4 : Bytes → Option (Nat × Bytes)
  | a :: b :: c :: d :: r => do
    let w ← hexDigit a
    let x ← hexDigit b
    let y ← hexDigit c
    let z ← hexDigit d
    some (w * 4096 + x * 256 + y * 16 + z, r)
  | _ => none

/-- The rest of a string after its opening quote: its bytes as UTF-8, and what follows the closing quote. -/
def jsonStr : Nat → Bytes → Bytes → Option (Bytes × Bytes)
  | 0, _, _ => none
  | _ + 1, _, [] => none
  | fuel + 1, acc, b :: bs =>
    let c := b.toNat
    if c = 0x22 then some (acc.reverse, bs)
    else if c < 0x20 then none
    else if c = 0x5C then
      match bs with
      | [] => none
      | e :: r =>
        let k := e.toNat
        let one (v : Nat) : Option (Bytes × Bytes) := jsonStr fuel (BitVec.ofNat 8 v :: acc) r
        if k = 0x22 || k = 0x5C || k = 0x2F then one k
        else if k = 0x62 then one 8
        else if k = 0x66 then one 12
        else if k = 0x6E then one 10
        else if k = 0x72 then one 13
        else if k = 0x74 then one 9
        else if k = 0x75 then
          match hex4 r with
          | none => none
          | some (u, r1) =>
            if 0xD800 ≤ u && u < 0xDC00 then
              match r1 with
              | x :: y :: r2 =>
                if x.toNat = 0x5C && y.toNat = 0x75 then
                  match hex4 r2 with
                  | some (v, r3) =>
                    if 0xDC00 ≤ v && v < 0xE000 then
                      jsonStr fuel ((utf8 (0x10000 + (u - 0xD800) * 1024 + (v - 0xDC00))).reverse ++ acc) r3
                    else none
                  | none => none
                else none
              | _ => none
            else if 0xDC00 ≤ u && u < 0xE000 then none
            else jsonStr fuel ((utf8 u).reverse ++ acc) r1
        else none
    else jsonStr fuel (b :: acc) bs

/-- Decimal digits: their number, their value, and the rest. -/
def digits : Nat → Nat → Bytes → Nat × Nat × Bytes
  | n, v, [] => (n, v, [])
  | n, v, b :: bs => if 48 ≤ b.toNat && b.toNat ≤ 57 then digits (n + 1) (v * 10 + (b.toNat - 48)) bs else (n, v, b :: bs)

/-- A number (RFC 8259). -/
def jsonNum (b : Bytes) : Option (Json × Bytes) :=
  let (neg, b) := match b with
    | c :: r => if c.toNat = 0x2D then (true, r) else (false, b)
    | [] => (false, b)
  let (n, v, r) := digits 0 0 b
  let lead := match b with | c :: _ => c.toNat = 48 | [] => false
  if n = 0 || (lead && n ≠ 1) then none
  else
    let (fn, fv, r2, good) := match r with
      | c :: r' => if c.toNat = 0x2E then
          (let (m, w, q) := digits 0 v r'
           (m, w, q, decide (m ≠ 0))) else (0, v, r, true)
      | [] => (0, v, r, true)
    if !good then none
    else match r2 with
      | c :: r' =>
        if c.toNat = 0x65 || c.toNat = 0x45 then
          let (eneg, r'') := match r' with
            | d :: q => if d.toNat = 0x2D then (true, q) else if d.toNat = 0x2B then (false, q) else (false, r')
            | [] => (false, r')
          let (en, ev, r3) := digits 0 0 r''
          if en = 0 then none else some (.num neg fv fn (if eneg then -(ev : Int) else ev) false, r3)
        else some (.num neg fv fn 0 (r2 == r), r2)
      | [] => some (.num neg fv fn 0 (r2 == r), r2)

/-- A literal name. -/
def jsonLit (b : Bytes) : Option (Json × Bytes) :=
  let has (w : List Nat) : Bool := (b.take w.length).map (·.toNat) == w
  if has [110, 117, 108, 108] then some (.null, b.drop 4)
  else if has [116, 114, 117, 101] then some (.bool true, b.drop 4)
  else if has [102, 97, 108, 115, 101] then some (.bool false, b.drop 5)
  else none

/-- The FP64 pattern of a decimal number; one beyond the FP64 range is finite still, and gives the largest finite pattern, which
narrowing saturates and counts (R172). -/
def decFloat (neg : Bool) (v fracLen : Nat) (exp : Int) : Nat :=
  let e := exp - fracLen
  let nd : Int := (v.log2 : Int) * 30103 / 100000
  let sign := if neg then 2 ^ 63 else 0
  let most := 0x7FEFFFFFFFFFFFFF
  if v = 0 || nd + e < -400 then sign
  else if 400 < nd + e then sign + most
  else
    let f : Fr := if 0 ≤ e then ⟨(v * 10 ^ e.toNat : Nat), 1⟩ else ⟨v, 10 ^ (-e).toNat⟩
    sign + min most (fpPack fp64 f)

/-- Bind a JSON value to a column of a type (R173): the value and its saturations; none where the record is invalid. -/
def jsonBind (maxField : Nat) (ty : ColTy) (j : Json) : Option (Val × Nat) :=
  match j, ty with
  | .null, _ => some (.null, 0)
  | .bool b, .bool => some (.word (b2n b), 0)
  | .num neg v fl e whole, ty =>
    let n : Int := if neg then -(v : Int) else v
    (match ty with
    | .i64 => if whole then some (.word (satInt 64 n).1, (satInt 64 n).2) else none
    | .i32 => if whole then some (.word (satInt 32 n).1, (satInt 32 n).2) else none
    | .enum => if whole && !neg && v < 2 ^ 32 then some (.word v, 0) else none
    | .f32 => some (.word (narrow (decFloat neg v fl e)).1, (narrow (decFloat neg v fl e)).2)
    | .bf16 =>
      let r := narrow (decFloat neg v fl e)
      some (.word (fpPack bf16 (fpVal fp32 r.1) (fpSign fp32 r.1)), r.2)
    | _ => none)
  | .str b, .bytes => if maxField < b.length then none else some (.bytes b, 0)
  | .str b, .fixed n => if b.length = n then some (.bytes b, 0) else none
  | .arr xs ok, .list _ => if ok && xs.length ≤ 4096 then some (.list (xs.map elemOf), 0) else none
  | _, _ => none

/-- The element type of a LIST column. -/
def listElem : Nat → ColTy
  | 1 => .bool | 2 => .i32 | 3 => .i64 | 4 => .f32 | 5 => .bf16 | _ => .enum

/-- The column type that an object path is bound to. -/
def keyType (keys : List JsonKey) (layout : Layout) (path : List Bytes) : Option (Nat × ColTy) :=
  match keys.find? (·.path == path) with
  | some k => (layout.cols[k.col]?).map fun c => (k.col, c.ty)
  | none => none

mutual
/-- Parse a value at a path and depth; bound columns are recorded.  `keep` is false inside a repeated key. -/
def jsonVal (keys : List JsonKey) (layout : Layout) (maxField : Nat) :
    Nat → Nat → List Bytes → Bool → Option ColTy → Dec → Bytes → Option (Json × Dec × Bytes)
  | 0, _, _, _, _, _, _ => none
  | fuel + 1, depth, path, keep, want, d, b =>
    match jsonWs b with
    | [] => none
    | c :: r =>
      if c.toNat = 0x7B then
        if 4 < depth + 1 then none
        else match jsonWs r with
          | e :: r' => if e.toNat = 0x7D then some (.obj, d, r') else jsonMembers keys layout maxField fuel (depth + 1) path keep [] d (e :: r')
          | [] => none
      else if c.toNat = 0x5B then
        if 4 < depth + 1 then none
        else match jsonWs r with
          | e :: r' => if e.toNat = 0x5D then some (.arr [] true, d, r')
            else jsonElems keys layout maxField fuel (depth + 1) path want [] true d (e :: r')
          | [] => none
      else if c.toNat = 0x22 then (jsonStr (r.length + 1) [] r).map fun x => (.str x.1, d, x.2)
      else if c.toNat = 0x2D || (48 ≤ c.toNat && c.toNat ≤ 57) then (jsonNum (c :: r)).map fun x => (x.1, d, x.2)
      else (jsonLit (c :: r)).map fun x => (x.1, d, x.2)
/-- Parse the members of an object up to its closing brace. -/
def jsonMembers (keys : List JsonKey) (layout : Layout) (maxField : Nat) :
    Nat → Nat → List Bytes → Bool → List Bytes → Dec → Bytes → Option (Json × Dec × Bytes)
  | 0, _, _, _, _, _, _ => none
  | fuel + 1, depth, path, keep, seen, d, b =>
    match jsonWs b with
    | [] => none
    | q :: r =>
      if q.toNat ≠ 0x22 then none
      else match jsonStr (r.length + 1) [] r with
        | none => none
        | some (k, r) => match jsonWs r with
          | [] => none
          | colon :: r =>
            if colon.toNat ≠ 0x3A then none
            else
              let keep' := keep && !seen.contains k
              let bound := if keep' then keyType keys layout (path ++ [k]) else none
              match jsonVal keys layout maxField fuel depth (path ++ [k]) keep' (bound.map (·.2)) d r with
              | none => none
              | some (v, d, r) =>
                let d : Dec := match bound with
                  | some (col, ty) => match jsonBind maxField ty v with
                    | some (w, n) => { d.set (some col) w with sat := d.sat + n }
                    | none => d.fail
                  | none => d
                match jsonWs r with
                | [] => none
                | e :: r =>
                  if e.toNat = 0x7D then some (.obj, d, r)
                  else if e.toNat = 0x2C then jsonMembers keys layout maxField fuel depth path keep (k :: seen) d r
                  else none
/-- Parse the elements of an array up to its closing bracket. -/
def jsonElems (keys : List JsonKey) (layout : Layout) (maxField : Nat) :
    Nat → Nat → List Bytes → Option ColTy → List Val → Bool → Dec → Bytes → Option (Json × Dec × Bytes)
  | 0, _, _, _, _, _, _, _ => none
  | fuel + 1, depth, path, want, acc, ok, d, b =>
    match jsonVal keys layout maxField fuel depth path false none d b with
    | none => none
    | some (v, d, r) =>
      let elem : Option (Val × Nat) := match want with
        | some (.list e) => jsonBind maxField (listElem e) v
        | _ => none
      let acc := acc ++ [match elem with | some x => x.1 | none => .null]
      let ok := ok && elem.isSome
      let d := { d with sat := d.sat + (match elem with | some x => x.2 | none => 0) }
      match jsonWs r with
      | [] => none
      | e :: r =>
        if e.toNat = 0x5D then some (.arr acc ok, d, r)
        else if e.toNat = 0x2C then jsonElems keys layout maxField fuel depth path want acc ok d r
        else none
end

/-- Decode a JSON line: none where the record is a hole. -/
def jsonRecord (keys : List JsonKey) (layout : Layout) (maxField : Nat) (b : Bytes) : Option Dec :=
  match jsonVal keys layout maxField (4 * b.length + 16) 0 [] true none Dec.start b with
  | some (.obj, d, r) => if jsonWs r = [] && d.ok then some d else none
  | _ => none

/-! ### Fixed records (R174) -/

/-- Bytes of a field of a TYPE; none for an unknown TYPE. -/
def fixedLen (ty len : Nat) : Option Nat :=
  match ty with
  | 1 => some 1 | 2 => some 4 | 3 => some 8 | 4 => some 4 | 5 => some 8 | 6 => some 2 | 7 => some len | 8 => some 4
  | _ => none

/-- The value of a field, with its saturations. -/
def fixedField (rec : Bytes) (f : Nat × Nat × Nat × Nat) : Val × Nat :=
  let (off, ty, nb, len) := f
  if nb ≠ 0xFF && bitOf (leAt rec (nb / 8) 1) (nb % 8) then (.null, 0)
  else match ty with
    | 5 => (.word (narrow (leAt rec off 8)).1, (narrow (leAt rec off 8)).2)
    | 7 => (.bytes (sliceB rec off len), 0)
    | _ => match fixedLen ty len with
      | some n => (.word (leAt rec off n), 0)
      | none => (.null, 0)

/-- Decode a fixed record through its field table and the columns of the decoder table.  A value longer than
MAX_FIELD is not valid. -/
def fixedRecord (cols : List (Option Nat)) (maxField : Nat) (fields : List (Nat × Nat × Nat × Nat)) (rec : Bytes) :
    Option Dec :=
  let d := (fields.zip cols).foldl (fun (d : Dec) fc =>
    let v := fixedField rec fc.1
    let d := { d.set fc.2 v.1 with sat := d.sat + v.2 }
    let bad := match v.1 with
      | .bytes b => decide (maxField < b.length)
      | _ => false
    if bad then d.fail else d) Dec.start
  if d.ok then some d else none

/-! ### One record of any format -/

/-- Decode a framed record: none where it is a hole. -/
def decodeRecord (t : DecoderTable) (layout : Layout) (maxField : Nat) (fields : List (Nat × Nat × Nat × Nat))
    (b : Bytes) : Option Dec :=
  match t.format with
  | 0 => match avroRecord t.schema maxField b with
    | some (d, r) => if d.ok && r.isEmpty then some d else none
    | none => none
  | 1 => jsonRecord t.json layout maxField b
  | _ => fixedRecord t.fixedCols maxField fields b

end Sys2Proof.Machine
end

