-- ==== Sys2Proof/Machine/Expr.lean ====
section
/-!
DEFINITION. Column values: conversion, keys and hashes (R206–R212, Table 10.3), the elementary functions, and EXPR
programs (R230, R231).
-/
namespace Sys2Proof.Machine

/-! ### Logarithm and exponential (R220, Table 8.19) -/

/-- The unit of the fixed-point numbers of this section. -/
def fixOne : Nat := 2 ^ 140

/-- Terms z^(2i+1) ÷ (2i+1) of the inverse hyperbolic tangent. -/
def atanhGo (zz : Nat) : Nat → Nat → Nat → Nat
  | 0, _, _ => 0
  | fuel + 1, i, p => p / (2 * i + 1) + atanhGo zz fuel (i + 1) (p * zz / fixOne)

/-- ln(n ÷ d) for 1 ≤ n ÷ d < 2, in fixed point. -/
def lnUnit (n d : Nat) : Nat :=
  let z := (n - d) * fixOne / (n + d)
  2 * atanhGo (z * z / fixOne) 50 0 z

/-- ln 2 in fixed point. -/
def ln2Fix : Nat := lnUnit 2 1

/-- The logarithm of a positive fraction. -/
def lnFr (x : Fr) : Fr :=
  let e := log2Div x.n.toNat x.d
  let m := x.mul (Fr.pow2 (-e))
  ⟨e * ln2Fix + lnUnit m.n.toNat m.d, fixOne⟩

/-- Terms of the exponential series from the `i`-th on. -/
def expGo (r : Nat) : Nat → Nat → Nat → Nat
  | 0, _, _ => 0
  | fuel + 1, i, t => t + expGo r fuel (i + 1) (t * r / fixOne / (i + 1))

/-- The exponential of a fraction. -/
def expFr (x : Fr) : Fr :=
  let v := Int.fdiv (x.n * fixOne) x.d
  let k := Int.fdiv v ln2Fix
  let r := (v - k * ln2Fix).toNat
  (⟨expGo r 45 0 fixOne, fixOne⟩ : Fr).mul (Fr.pow2 k)

/-- A result within 2 units in the last place of an exact value, chosen by `sel`. -/
def nearby (sel : Nat) (x : Fr) : Nat :=
  let b := (FVal.of x).r32
  if b % 2 ^ 31 = 0 || fpSpecial fp32 b then b
  else
    let c := b + sel % 5 - 2
    let two := Fr.pow2 (fpExp fp32 b - 149)
    if fpSpecial fp32 c || fpExp fp32 c = 0 || two.lt ((fpVal fp32 c).sub x).abs then b else c

/-- FP32 logarithm: 0 gives −∞, a negative number NaN. -/
def ln32 (b : Nat) : Nat :=
  match val32 b with
  | .fin _ x =>
    if x.n = 0 then 0xFF800000 else if x.n < 0 then 0x7FC00000
    else if x.n = x.d then 0 else nearby (Config.ulps 0 b) (lnFr x)
  | .inf false => b
  | _ => 0x7FC00000

/-- FP32 exponential. -/
def exp32 (b : Nat) : Nat :=
  match val32 b with
  | .fin _ x =>
    if x.n = 0 then 0x3F800000 else if (Fr.ofInt 90).lt x then 0x7F800000 else if x.lt (Fr.ofInt (-104)) then 0
    else nearby (Config.ulps 1 b) (expFr x)
  | .inf a => if a then 0 else b
  | .nan => 0x7FC00000

/-! ### Columns of a row -/

/-- The value of a column. -/
def rowGet (r : Row) (c : Nat) : Val := (r.cols[c]?).getD .null

/-- The row with a column's value set. -/
def rowSet (r : Row) (n c : Nat) (v : Val) : Row :=
  { r with cols := (r.cols ++ List.replicate (n - r.cols.length) Val.null).set c v }

/-- The provenance of a row, in the order R179 sorts it. -/
def rowProv (r : Row) : List Nat := [r.stream, r.openNo, r.object, r.ordinal]

/-- The type of a column of a layout. -/
def colTy (l : Layout) (c : Nat) : ColTy := ((l.cols[c]?).map (·.ty)).getD .bool

/-- Bytes of a field of a type, and of an element of a LIST (Table 8.2). -/
def fieldBytes : ColTy → Nat
  | .bool => 1 | .i32 => 4 | .i64 => 8 | .f32 => 4 | .bf16 => 2 | .enum => 4 | .fixed n => n | .bytes => 8
  | .list _ => 8

/-- Heap bytes of a value in a column. -/
def heapBytes (ty : ColTy) : Val → Nat
  | .bytes b => match ty with | .bytes => b.length | _ => 0
  | .list ws => match ty with | .list e => ws.length * fieldBytes (listElem e) | _ => 0
  | _ => 0

/-- Bytes of a row before its heap (R203): header, bitmap, fields. -/
def rowBase (l : Layout) : Nat :=
  l.cols.foldl (fun m c => max m (c.off + fieldBytes c.ty)) (24 + 8 * divUp l.cols.length 64)

/-- Bytes of a row in a layout: header, bitmap, fields, heap. -/
def rowLen (l : Layout) (r : Row) : Nat :=
  rowBase l + ((l.cols.zipIdx).map fun c => heapBytes c.1.ty (rowGet r c.2)).sum

/-! ### Row images (R203, R204, Tables 8.1 and 8.2) -/

/-- Bytes of a string replaced from an offset on. -/
def putB (b : Bytes) (off : Nat) (x : Bytes) : Bytes := b.take off ++ x ++ b.drop (off + x.length)

/-- The value that a column holds beside a partial aggregate state. -/
def plainVal : Val → Val
  | .agg _ _ _ v _ => v
  | v => v

/-- The bytes of a column's field: zero where it is null (R203). -/
def fieldOf (ty : ColTy) (v : Val) : Bytes :=
  match plainVal v with
  | .word w => leBytes (fieldBytes ty) w
  | .bytes b => fitB (fieldBytes ty) b
  | _ => List.replicate (fieldBytes ty) 0

/-- A column's field and its bytes in the heap, which lie `at'` bytes from the header; an element that is null is stored as
zero. -/
def cellOf (ty : ColTy) (v : Val) (at' : Nat) : Bytes × Bytes :=
  match ty, v with
  | .bytes, .bytes b => (leBytes 4 at' ++ leBytes 4 b.length, b)
  | .list e, .list ws => (leBytes 4 at' ++ leBytes 4 ws.length, ws.flatMap fun w => leBytes (fieldBytes (listElem e)) (w.getD 0))
  | ty, v => (fieldOf ty v, [])

/-- Place the columns of a row from the `i`-th on: the bytes before the heap, and the heap, in column order. -/
def placeCols : List (ColSpec × Val) → Bytes → Bytes → Bytes × Bytes
  | [], b, heap => (b, heap)
  | (c, v) :: cs, b, heap =>
    let x := cellOf c.ty v (b.length + heap.length)
    placeCols cs (putB b c.off x.1) (heap ++ x.2)

/-- The validity bitmap of a row as a number. -/
def validBits (vs : List Val) : Nat := ((vs.zipIdx).map fun v => if v.1 = .null then 0 else 2 ^ v.2).sum

/-- The row image of a row whose OPENNO is given: header, bitmap, fields, heap (Table 8.1). -/
def rowImage (l : Layout) (openNo : Nat) (r : Row) : Bytes :=
  let n := l.cols.length
  let vs := (List.range n).map (rowGet r)
  let head := leBytes 4 (rowLen l r) ++ leBytes 1 n ++ leBytes 1 (b2n r.trunc) ++ leBytes 2 r.stream ++ leBytes 2 openNo ++
    leBytes 4 r.object ++ leBytes 4 r.ordinal ++ leBytes 6 0 ++ leBytes (8 * divUp n 64) (validBits vs)
  let x := placeCols (l.cols.zip vs) (fitB (rowBase l) head) []
  x.1 ++ x.2

/-- The value of a column of a row image. -/
def cellAt (b : Bytes) (c : ColSpec) : Val :=
  let at' := leAt b c.off 4
  let n := leAt b (c.off + 4) 4
  match c.ty with
  | .fixed k => .bytes (sliceB b c.off k)
  | .bytes => .bytes (sliceB b at' (min n b.length))
  | .list e =>
    let k := fieldBytes (listElem e)
    .list ((List.range (min n b.length)).map fun i => some (leAt b (at' + i * k) k))
  | ty => .word (leAt b c.off (fieldBytes ty))

/-- The row that an image in a layout holds. -/
def rowOf (l : Layout) (b : Bytes) : Row :=
  { stream := leAt b 6 2, openNo := leAt b 8 2, object := leAt b 10 4, ordinal := leAt b 14 4, trunc := bitOf (leAt b 5 1) 0,
    cols := (l.cols.zipIdx).map fun c => if bitOf (leAt b (24 + c.2 / 8) 1) (c.2 % 8) then cellAt b c.1 else .null }

/-- A value read back: a partial aggregate state and the nulls of a list, which an image does not show, are kept. -/
def rereadVal (old new : Val) : Val :=
  match old, new with
  | .agg a b c v d, _ => .agg a b c v d
  | .list xs, .list ys => .list ((ys.zipIdx).map fun y => if xs[y.2]? = some none then none else y.1)
  | _, v => v

/-- A row of a run as its image in memory now gives it. -/
def reread (l : Layout) (r : Row) (b : Bytes) : Row :=
  let m := rowOf l b
  { r with trunc := m.trunc, cols := (m.cols.zipIdx).map fun v => rereadVal (rowGet r v.2) v.1 }

/-! ### Numbers in columns (R207, Table 10.3) -/

/-- A number of a column: a whole number, or an FP32 pattern. -/
inductive Num where
  | int (x : Int)
  | flt (b : Nat)
deriving DecidableEq, Repr

/-- The number a scalar column's bits give. -/
def numOf (ty : ColTy) (w : Nat) : Option Num :=
  match ty with
  | .bool => some (.int w)
  | .enum => some (.int w)
  | .i32 => some (.int (untwos 32 w))
  | .i64 => some (.int (untwos 64 w))
  | .f32 => some (.flt w)
  | .bf16 => some (.flt (ofBf16 w))
  | _ => none

/-- A number as FP32, whole numbers rounded to nearest even. -/
def Num.f32 : Num → Nat
  | .int x => (to32 (FVal.of (Fr.ofInt x))).1
  | .flt b => b

/-- The type code of Table 8.2. -/
def tyCode : ColTy → Nat
  | .bool => 1 | .i32 => 2 | .i64 => 3 | .f32 => 4 | .bf16 => 5 | .enum => 6 | .fixed _ => 7 | .bytes => 8 | .list _ => 9

/-- Conversion of a number to a column type (Table 10.3, R231, R257): none where it is null.  A whole number becomes an I32
through FP32.  The result of a conversion to ENUM or BOOL out of range is one the manual leaves open. -/
def Num.conv (ty : ColTy) (x : Num) : Option Nat × Tally :=
  let whole (i : Int) : Nat :=
    match ty with
    | .i64 => twos 64 i
    | .enum => if 0 ≤ i && i < 2 ^ 32 then i.toNat else Config.conv 6 i % 2 ^ 32
    | _ => if 0 ≤ i && i < 2 then i.toNat else Config.conv 1 i % 2
  match ty, x with
  | .f32, x => (some x.f32, Tally.zero)
  | .bf16, x => let r := toBf16 (val32 x.f32); (some r.1, r.2)
  | .i32, x => toI 32 (val32 x.f32)
  | .i64, .flt b => toI 64 (val32 b)
  | _, .int i => (some (whole i), Tally.zero)
  | _, .flt b =>
    match val32 b with
    | .nan => (none, Tally.zero)
    | .inf a => (some (whole (if a then -(2 ^ 63) else 2 ^ 63 - 1)), Tally.zero)
    | .fin _ y => (some (whole (roundInt none y)), Tally.zero)

/-- Conversion of a value between column types: a value of the same type stays as it is, and between I32 and I64 it passes
through FP32 (R257). -/
def convVal (src dst : ColTy) (v : Val) : Val × Tally :=
  if src = dst then (v, Tally.zero)
  else match v with
    | .word w => match numOf src w with
      | some x => let r := (if src = .i32 then Num.flt x.f32 else x).conv dst; (match r.1 with | some y => .word y | none => .null, r.2)
      | none => (.null, Tally.zero)
    | _ => (.null, Tally.zero)

/-- A scalar numeric type. -/
def isNum : ColTy → Bool
  | .fixed _ => false | .bytes => false | .list _ => false | _ => true

/-- A floating-point type. -/
def isFloat : ColTy → Bool
  | .f32 => true | .bf16 => true | _ => false

/-- Types between which a value can be converted. -/
def convertible (src dst : ColTy) : Bool := src == dst || (isNum src && isNum dst)

/-! ### Keys (R208, R209, Table 8.3) -/

/-- FP32 bits with −0 as +0 and every NaN as 0x7FC0_0000. -/
def canon32 (b : Nat) : Nat := if fpNan fp32 b then 0x7FC00000 else if b = 2 ^ 31 then 0 else b

/-- The word of a key column's value (Table 8.3). -/
def keyWordOf (ty : ColTy) (v : Val) : Nat :=
  match v with
  | .word w => match numOf ty w with
    | some (.int x) => twos 64 x
    | some (.flt b) => canon32 b
    | none => w
  | .bytes b => h64Bytes b 0
  | _ => 2 ^ 64 - 1

/-- A key column's value as R209 compares it within its class. -/
def keyNorm (ty : ColTy) (v : Val) : Val :=
  match v with
  | .word _ => .word (keyWordOf ty v)
  | v => v

/-- The columns that a KEYS field names: 0xFF marks an unused place. -/
def keyCols (v : Nat) : List Nat := (unpack 8 4 v).filter (· != 255)

/-- The key word of a list of column values (R208). -/
def keyWord (ws : List Nat) : Nat :=
  match ws with
  | [] => 0
  | w :: r => r.foldl (fun k x => h64 x k) w

/-- The key word of a row under columns of a layout. -/
def rowKeyWord (l : Layout) (cols : List Nat) (r : Row) : Nat :=
  keyWord (cols.map fun c => keyWordOf (colTy l c) (rowGet r c))

/-- The key of a row as R209 compares it. -/
def rowKey (l : Layout) (cols : List Nat) (r : Row) : List Val := cols.map fun c => keyNorm (colTy l c) (rowGet r c)

/-- A key with a null column. -/
def hasNull (k : List Val) : Bool := k.any (· == .null)

/-! ### EXPR (R230, R231, Table 8.19) -/

/-- A register: type and value, none where null. -/
structure Reg where
  ty : RegTy
  v : Option Nat
deriving DecidableEq, Repr

/-- A register at the start of a program. -/
def Reg.null : Reg := { ty := .i64, v := none }

/-- The number in a register; BOOL counts as 0 or 1. -/
def Reg.num (r : Reg) : Option Num :=
  r.v.map fun w => match r.ty with | .i64 => .int (untwos 64 w) | .bool => .int w | .f32 => .flt w

/-- A result of type I64, F32 or BOOL. -/
def Reg.int (x : Int) : Reg := { ty := .i64, v := some (twos 64 x) }
def Reg.flt (b : Nat) : Reg := { ty := .f32, v := some b }
def Reg.bool (b : Bool) : Reg := { ty := .bool, v := some (b2n b) }

/-- The type of an arithmetic result. -/
def joinTy (a b : RegTy) : RegTy := if a = .f32 || b = .f32 then .f32 else .i64

/-- A null of a type. -/
def Reg.none (ty : RegTy) : Reg := { ty := ty, v := Option.none }

/-- Arithmetic on two registers (R231): whole numbers wrap, a mix is FP32. -/
def Reg.arith (f : Int → Int → Option Int) (g : Nat → Nat → Nat) (a b : Reg) : Reg :=
  match a.num, b.num with
  | some (.int x), some (.int y) => match f x y with | some z => .int z | Option.none => .none .i64
  | some x, some y => .flt (g x.f32 y.f32)
  | _, _ => .none (joinTy a.ty b.ty)

/-- Order of R207 between numbers. -/
def Num.lt : Num → Num → Bool
  | .int x, .int y => x < y
  | x, y => lt32 x.f32 y.f32

/-- Comparison of two registers. -/
def Reg.cmp (f : Num → Num → Bool) (a b : Reg) : Reg :=
  match a.num, b.num with
  | some x, some y => .bool (f x y)
  | _, _ => .none .bool

/-- The lower or higher of two registers, A where they are equal. -/
def Reg.pick (low : Bool) (a b : Reg) : Reg :=
  match a.num, b.num with
  | some x, some y =>
    let z := if low then (if y.lt x then y else x) else (if x.lt y then y else x)
    match joinTy a.ty b.ty, z with
    | .f32, z => .flt (nan32 z.f32)
    | _, .int i => .int i
    | _, .flt c => .flt (nan32 c)
  | _, _ => .none (joinTy a.ty b.ty)

/-- One operand's arithmetic. -/
def Reg.one (f : Int → Int) (g : FVal → FVal) (a : Reg) : Reg :=
  match a.num with
  | some (.int x) => .int (f x)
  | some (.flt b) => .flt (g (val32 b)).r32
  | Option.none => .none (joinTy a.ty a.ty)

/-- Three-valued AND and OR: `z` is the value that decides. -/
def Reg.logic (z : Bool) (a b : Reg) : Reg :=
  if a.v = some (b2n z) || b.v = some (b2n z) then .bool z
  else match a.v, b.v with
    | some _, some _ => .bool (!z)
    | _, _ => .none .bool

/-- An FP32 function of a register. -/
def Reg.fn (f : Nat → Nat) (a : Reg) : Reg :=
  match a.num with
  | some x => .flt (nan32 (f x.f32))
  | Option.none => .none .f32

/-- The word of a register in HASH (Table 8.3). -/
def Reg.word (a : Reg) : Nat :=
  match a.v with
  | some w => if a.ty = .f32 then canon32 w else w
  | Option.none => 2 ^ 64 - 1

/-- Absolute value of a number. -/
def FVal.abs : FVal → FVal
  | .nan => .nan
  | .inf _ => .inf false
  | .fin _ x => .fin false x.abs

/-- What a program works on: registers, the row's columns, conversions counted. -/
structure ExprState where
  regs : List Reg
  row : Row
  tally : Tally
deriving DecidableEq, Repr

/-- Fields of an instruction. -/
def insOp (w : BitVec 32) : Nat := bitsOf w.toNat 7 0
def insD (w : BitVec 32) : Nat := bitsOf w.toNat 10 8
def insA (w : BitVec 32) : Nat := bitsOf w.toNat 13 11
def insB (w : BitVec 32) : Nat := bitsOf w.toNat 16 14
def insImm (w : BitVec 32) : Nat := bitsOf w.toNat 31 17

/-- A column as LDC loads it. -/
def loadCol (ty : ColTy) (v : Val) : Reg :=
  let t : RegTy := match ty with | .bool => .bool | .f32 => .f32 | .bf16 => .f32 | _ => .i64
  match v with
  | .word w => match numOf ty w with
    | some (.int x) => { ty := t, v := some (twos 64 x) }
    | some (.flt b) => .flt b
    | Option.none => .none t
  | .bytes b => { ty := .i64, v := some (h64Bytes b 0) }
  | _ => .none t

/-- LEN of a column. -/
def lenCol (v : Val) : Reg :=
  match v with
  | .bytes b => .int b.length
  | .list l => .int l.length
  | _ => .none .i64

/-- A constant of a program. -/
def exprConst (p : ExprProg) (i : Nat) : Reg :=
  match p.consts[i]? with
  | some (t, v) => { ty := t, v := some v }
  | Option.none => .null

/-- The register a computing instruction writes; STC writes none (Table 8.19). -/
def exprValue (p : ExprProg) (l : Layout) (user : Bytes) (st : ExprState) (w : BitVec 32) : Reg :=
  let reg (i : Nat) : Reg := (st.regs[i]?).getD .null
  let a := reg (insA w)
  let b := reg (insB w)
  let imm := insImm w
  match insOp w with
  | 0x01 => loadCol (colTy l imm) (rowGet st.row imm)
  | 0x02 => exprConst p imm
  | 0x03 => .int (untwos 15 imm)
  | 0x04 => a
  | 0x05 => a.arith (fun x y => some (x + y)) add32 b
  | 0x06 => a.arith (fun x y => some (x - y)) sub32 b
  | 0x07 => a.arith (fun x y => some (x * y)) mul32 b
  | 0x08 => a.arith (fun x y => if y = 0 then Option.none else some (Int.tdiv x y)) div32 b
  | 0x09 => a.pick true b
  | 0x0A => a.pick false b
  | 0x0B => a.one (fun x => -x) FVal.neg
  | 0x0C => a.one (fun x => x.natAbs) FVal.abs
  | 0x0D => a.cmp (fun x y => !x.lt y && !y.lt x) b
  | 0x0E => a.cmp Num.lt b
  | 0x0F => a.cmp (fun x y => !y.lt x) b
  | 0x10 => a.logic false b
  | 0x11 => a.logic true b
  | 0x12 => match a.v with | some x => .bool (x == 0) | Option.none => .none .bool
  | 0x13 => .bool a.v.isNone
  | 0x14 => if a.v.isNone then b else a
  | 0x15 => if (reg (insD w)).v = some 1 then a else b
  | 0x16 => a.fn id
  | 0x17 => match a.num with
    | some x => { ty := .i64, v := (x.conv .i64).1 }
    | Option.none => .none .i64
  | 0x18 => a.fn sqrt32
  | 0x19 => a.fn ln32
  | 0x1A => a.fn exp32
  | 0x1B => { ty := .i64, v := some (h64 a.word b.word) }
  | 0x1C => match a.v, b.v with
    | some x, some y => if y = 0 then .none .i64 else { ty := .i64, v := some (x % y) }
    | _, _ => .none .i64
  | 0x1D => lenCol (rowGet st.row imm)
  | 0x1E => if 8 * imm + 8 ≤ user.length then { ty := .i64, v := some (leAt user (8 * imm) 8) } else .none .i64
  | _ => .null

/-- Conversions that an instruction counts: FTOI and STC (R257). -/
def ftoiTally (st : ExprState) (w : BitVec 32) : Tally :=
  if insOp w = 0x17 then
    match ((st.regs[insA w]?).getD .null).num with
    | some x => (x.conv .i64).2
    | Option.none => Tally.zero
  else Tally.zero

/-- STC: the column takes the register's value in its type; null clears its validity. -/
def storeCol (l : Layout) (st : ExprState) (c : Nat) (a : Reg) : ExprState :=
  match a.num with
  | Option.none => { st with row := rowSet st.row l.cols.length c .null }
  | some x =>
    let r := x.conv (colTy l c)
    { st with row := rowSet st.row l.cols.length c (match r.1 with | some w => .word w | Option.none => .null),
              tally := st.tally.add r.2 }

/-- Run the rest of a program. -/
def exprGo (p : ExprProg) (l : Layout) (user : Bytes) : List (BitVec 32) → ExprState → ExprState
  | [], st => st
  | w :: ws, st =>
    if insOp w = 0 then st
    else if insOp w = 0x1F then
      exprGo p l user ws (storeCol l st (insImm w) ((st.regs[insA w]?).getD .null))
    else exprGo p l user ws
      { st with regs := st.regs.set (insD w) (exprValue p l user st w), tally := st.tally.add (ftoiTally st w) }

/-- Run a program on a row (R230): the final register r0, the row, and the conversions counted. -/
def runExpr (p : ExprProg) (l : Layout) (user : Bytes) (r : Row) : Reg × Row × Tally :=
  let st := exprGo p l user p.code { regs := List.replicate 8 Reg.null, row := r, tally := Tally.zero }
  ((st.regs[0]?).getD .null, st.row, st.tally)

/-! ### Static types of EXPR (R230) -/

/-- The type of a register as the check knows it: none while nothing has been written to it. -/
abbrev TyOf := Option RegTy

/-- The joined type of two operands. -/
def joinOf (a b : TyOf) : TyOf :=
  match a, b with
  | some x, some y => some (joinTy x y)
  | some x, Option.none => some (joinTy x x)
  | Option.none, some y => some (joinTy y y)
  | _, _ => Option.none

/-- The type an instruction gives its destination; none where its operands do not match Table 8.19. -/
def exprTy (p : ExprProg) (l : Layout) (tys : List TyOf) (w : BitVec 32) : Option TyOf :=
  let reg (i : Nat) : TyOf := (tys[i]?).getD Option.none
  let a := reg (insA w)
  let b := reg (insB w)
  let isB (t : TyOf) : Bool := t != some .i64 && t != some .f32
  let isF (t : TyOf) : Bool := t != some .i64 && t != some .bool
  let notF (t : TyOf) : Bool := t != some .f32
  let col : Option ColTy := (l.cols[insImm w]?).map (·.ty)
  let same : Option TyOf := if a = b || b = Option.none then some a else if a = Option.none then some b else Option.none
  match insOp w with
  | 0x01 => match col with
    | some (.list _) => Option.none
    | some .bool => some (some .bool)
    | some t => some (some (if isFloat t then .f32 else .i64))
    | Option.none => Option.none
  | 0x02 => (p.consts[insImm w]?).map fun c => some c.1
  | 0x03 => some (some .i64)
  | 0x04 => some a
  | 0x08 => some (joinOf a b)
  | 0x0B => some (joinOf a a)
  | 0x0C => some (joinOf a a)
  | 0x0D => some (some .bool)
  | 0x0E => some (some .bool)
  | 0x0F => some (some .bool)
  | 0x10 => if isB a && isB b then some (some .bool) else Option.none
  | 0x11 => if isB a && isB b then some (some .bool) else Option.none
  | 0x12 => if isB a then some (some .bool) else Option.none
  | 0x13 => some (some .bool)
  | 0x14 => same
  | 0x15 => if isB (reg (insD w)) then same else Option.none
  | 0x16 => if notF a then some (some .f32) else Option.none
  | 0x17 => if isF a then some (some .i64) else Option.none
  | 0x18 => if isF a then some (some .f32) else Option.none
  | 0x19 => if isF a then some (some .f32) else Option.none
  | 0x1A => if isF a then some (some .f32) else Option.none
  | 0x1B => some (some .i64)
  | 0x1C => if notF a && notF b then some (some .i64) else Option.none
  | 0x1D => match col with
    | some (.list _) => some (some .i64)
    | some .bytes => some (some .i64)
    | some (.fixed _) => some (some .i64)
    | _ => Option.none
  | 0x1E => some (some .i64)
  | n => if 0x05 ≤ n && n ≤ 0x0A then some (joinOf a b) else Option.none

/-- Types of the registers after a program; none where an instruction is refused. -/
def exprTypes (p : ExprProg) (l : Layout) : List (BitVec 32) → List TyOf → Option (List TyOf)
  | [], tys => some tys
  | w :: ws, tys =>
    if insOp w = 0 then some tys
    else if insOp w = 0x1F then
      if ((l.cols[insImm w]?).map fun c => isNum c.ty).getD false then exprTypes p l ws tys else Option.none
    else match exprTy p l tys w with
      | some t => exprTypes p l ws (tys.set (insD w) t)
      | Option.none => Option.none

/-- A program that PIPE_LOAD accepts over a layout; FILTER's must leave a BOOL in r0. -/
def exprOk (p : ExprProg) (l : Layout) (filter : Bool) : Bool :=
  p.code.length ≤ 64 && p.consts.length ≤ 32 &&
    match exprTypes p l p.code (List.replicate 8 Option.none) with
    | some tys => !filter || tys[0]? = some (some .bool)
    | Option.none => false

end Sys2Proof.Machine
end

