-- ==== Sys2Proof/Machine/Operators.lean ====
section
/-!
DEFINITION. The table operators (R203–R234): what each makes of a row, and what a core does at an end mark.
-/
namespace Sys2Proof.Machine

/-! ### Stages and descriptors (R205, R213, R242) -/

/-- The loaded image whose flow range holds a flow. -/
def State.imageOf (s : State) (p f : Nat) : Option (Nat × Image) :=
  (s.part p).images.find? fun e => inRange (e.2.flowBase, e.2.nFlows) f

/-- The stage that a flow feeds: graph index, number and stage; a running graph's stage comes first. -/
def State.stageOf (s : State) (p f : Nat) : Option (Nat × Nat × GraphStage) :=
  match s.imageOf p f with
  | none => none
  | some (h, im) =>
    let all := im.content.graphs.flatMap fun g => (g.stages.zipIdx).map fun x => (g.index, x.2, x.1)
    let mine := all.filter fun x => im.flowBase + x.2.2.inFlow == f
    let runs (i : Nat) : Bool := (s.part p).runs.any fun r => r.handle == h && r.index == i
    match mine.find? fun x => runs x.1 with
    | some x => some x
    | none => mine.head?

/-- A layout that holds nothing. -/
def noLayout : Layout := { cols := [], maxLen := 0 }

/-- A layout of an image. -/
def Image.layout (im : Image) (i : Nat) : Layout := (im.content.layouts[i]?).getD noLayout

/-- The descriptor of an operator of an image as a number. -/
def Image.desc (im : Image) (i : Nat) : Nat := leNat ((im.ops[i]?).getD [])

/-- A number rounded up to a multiple of 64. -/
def up64 (n : Nat) : Nat := divUp n 64 * 64

/-- Overflow buckets of a build area: enough for every row in one chain. -/
def overflowBuckets (maxRows : Nat) : Nat := divUp maxRows 7

/-- Bytes an operator reserves in each home vault: a JOIN_BUILD's buckets and rows, a GROUP_BY's groups (R222, R226). -/
def opArea (im : Image) (i : Nat) : Nat :=
  let d := im.desc i
  let b (hi lo : Nat) : Nat := bitsOf d (128 + hi) (128 + lo)
  match bitsOf d 7 0 with
  | 0x07 => 64 * (2 ^ b 108 104 + overflowBuckets (b 143 112)) + b 143 112 * up64 (im.layout (bitsOf d 31 16)).maxLen
  | 0x09 => b 95 64 * up64 (im.layout (bitsOf d 47 32)).maxLen
  | _ => 0

/-- Offset of an operator's area in a home vault. -/
def Image.opBase (im : Image) (i : Nat) : Nat := im.areaBase + ((List.range i).map (opArea im)).sum

/-- Where an operator runs: partition, image, operator index, its descriptor as a number, core, and layouts. -/
structure OpCtx where
  p : Nat
  handle : Nat
  img : Image
  op : Nat
  desc : Nat
  core : Nat
  inL : Layout
  outL : Layout
deriving DecidableEq, Repr

/-- An operator of an image on a core. -/
def opCtx (p handle : Nat) (im : Image) (op core : Nat) : OpCtx :=
  let d := im.desc op
  { p := p, handle := handle, img := im, op := op, desc := d, core := core,
    inL := im.layout (bitsOf d 31 16), outL := im.layout (bitsOf d 47 32) }

/-- The operator code (Table 8.5). -/
def OpCtx.code (x : OpCtx) : Nat := bitsOf x.desc 7 0

/-- The flow that receives the output. -/
def OpCtx.outFlow (x : OpCtx) : Nat := x.img.flowBase + bitsOf x.desc 65 48

/-- Body bits [hi:lo]: body bit 0 is descriptor bit 128. -/
def OpCtx.b (x : OpCtx) (hi lo : Nat) : Nat := bitsOf x.desc (128 + hi) (128 + lo)

/-- Device address of an offset in the operator's area on its core. -/
def OpCtx.at' (x : OpCtx) (off : Nat) : Nat := homeDa x.core (x.img.opBase x.op + off)

/-- What an operator makes of its input. -/
abbrev OpOut := List Piece × State

/-- The input row is released as a hole. -/
def rowHole (st : Status) (r : Row) : Piece := .hole st r.stream r.openNo r.object r.ordinal

/-- An output row, or a hole where it is longer than the layout's maximum (R203). -/
def OpCtx.emit (x : OpCtx) (r : Row) : List Piece :=
  [if x.outL.maxLen < rowLen x.outL r then rowHole .badDescriptor r else .row r x.core]

/-- The row with an output column written. -/
def OpCtx.put (x : OpCtx) (r : Row) (c : Nat) (v : Val) : Row := rowSet r x.outL.cols.length c v

/-- Count an event of an operator (Table 8.22). -/
def OpCtx.count (x : OpCtx) (s : State) (k n : Nat) : State := if n = 0 then s else s.bump (at_ k x.p) n

/-- The program of an image. -/
def Image.program (im : Image) (i : Nat) : ExprProg := (im.content.programs[i]?).getD { code := [], consts := [] }

/-! ### State of an operator on a core -/

/-- The state of an operator on a core before its first row. -/
def OpState.start (handle op core : Nat) : OpState :=
  { handle := handle, op := op, core := core, build := { rows := 0, overflow := 0, incomplete := false, isSealed := false },
    groups := [], keys := [], rows := [] }

/-- The state of an operator on a core. -/
def State.opState (s : State) (p handle op core : Nat) : OpState :=
  ((s.part p).ops.find? fun o => o.handle == handle && o.op == op && o.core == core).getD
    (OpState.start handle op core)

/-- The state with an operator's state on a core set. -/
def State.setOp (s : State) (p : Nat) (o : OpState) : State :=
  let same (y : OpState) : Bool := y.handle == o.handle && y.op == o.op && y.core == o.core
  let ops := (s.part p).ops
  s.setPart p { s.part p with
    ops := if ops.any same then ops.map fun y => if same y then o else y else ops ++ [o] }

/-! ### FILTER, EXPR, SAMPLE, PROJECT -/

/-- FILTER (R215). -/
def opFilter (x : OpCtx) (r : Row) (s : State) : OpOut :=
  let e := runExpr (x.img.program (x.b 15 0)) x.inL [] r
  let keep := match e.1.v with | some v => v == 1 | none => x.b 16 16 == 1
  (if keep then x.emit r else [], s.tally x.p e.2.2)

/-- EXPR (R230). -/
def opExpr (x : OpCtx) (r : Row) (s : State) : OpOut :=
  let e := runExpr (x.img.program (x.b 15 0)) x.inL [] r
  (x.emit e.2.1, s.tally x.p e.2.2)

/-- Opens of a stream ID before a set was last cleared (Table 7.1). -/
def Part.openBaseOf (x : Part) (set stream : Nat) : Nat :=
  ((x.openBase.find? fun e => e.1 == set && e.2.1 == stream).map (·.2.2)).getD 0

/-- OPENNO of a row as a set counts it (Table 7.1). -/
def Part.relOpen (x : Part) (set stream openNo : Nat) : Nat := (openNo - x.openBaseOf set stream) % 65536

/-- The lowest-numbered set an image declares. -/
def Image.firstSet (im : Image) : Option Nat := (sortBy (fun a b => decide (a < b)) (im.sets.map (·.1))).head?

/-- OPENNO of a row as the images of a pipeline show it (Tables 7.1 and 8.1). -/
def State.rowOpen (s : State) (p : Nat) (im : Image) (r : Row) : Nat :=
  match im.firstSet with
  | some n => (s.part p).relOpen n r.stream r.openNo
  | none => r.openNo % 65536

/-- SAMPLE (R216). -/
def opSample (x : OpCtx) (r : Row) (s : State) : OpOut :=
  let cols := keyCols (x.b 63 32)
  let keyed := x.b 16 16 == 1
  let openNo := s.rowOpen x.p x.img r
  let word := if keyed then rowKeyWord x.inL cols r
    else h64 (r.object % 2 ^ 32 * 2 ^ 32 + r.ordinal % 2 ^ 32) (r.stream * 2 ^ 16 + openNo)
  let h := h64 word (x.b 127 64)
  let cc := x.b 7 0
  let cls : Nat := if cc = 255 then 0 else
    match rowGet r cc with
    | .word w => match numOf (colTy x.inL cc) w with
      | some (.int i) => if 0 ≤ i then min 3 i.toNat else Config.conv 6 i % 4
      | _ => 3
    | _ => 3
  let th := x.b (191 + 64 * cls) (128 + 64 * cls)
  let all := th == 2 ^ 64 - 1
  let wc := x.b 15 8
  let weight := if all then 0x3F800000 else (FVal.of ⟨2 ^ 64, th⟩).r32
  if keyed && hasNull (rowKey x.inL cols r) then ([], s)
  else if all || h < th then (x.emit (if wc = 255 then r else x.put r wc (.word weight)), s)
  else ([], s)

/-- A projection map of an image. -/
def Image.map (im : Image) (i : Nat) : List MapEntry :=
  match im.content.lists[i]? with | some (.map m) => m | _ => []

/-- Output columns of a projection map over source columns (R217). -/
def projectCols (m : List MapEntry) (tys : List ColTy) (vals : List Val) : List (Val × Tally) :=
  m.map fun e => match e with
    | .src c ty => convVal ((tys[c]?).getD .bool) ty ((vals[c]?).getD .null)
    | .const v _ => (v, Tally.zero)

/-- Counts of conversions taken together. -/
def sumTally (l : List (Val × Tally)) : Tally := l.foldl (fun t y => t.add y.2) Tally.zero

/-- The column types and values of a row. -/
def colTys (l : Layout) : List ColTy := l.cols.map (·.ty)
def colVals (l : Layout) (r : Row) : List Val := (List.range l.cols.length).map (rowGet r)

/-- PROJECT (R217). -/
def opProject (x : OpCtx) (r : Row) (s : State) : OpOut :=
  let o := projectCols (x.img.map (x.b 15 0)) (colTys x.inL) (colVals x.inL r)
  (x.emit { r with cols := o.map (·.1) }, s.tally x.p (sumTally o))

/-! ### Feature operators -/

/-- HASH (R218). -/
def opHash (x : OpCtx) (r : Row) (s : State) : OpOut :=
  let cols := keyCols (x.b 31 0)
  let id (w : Nat) : Nat := hashId (x.b 239 176) (h64 w (x.b 111 48)) (x.b 175 112)
  let nullId : Option Nat := if x.b 41 41 = 1 then some (x.b 303 240) else none
  let ofNull : Val := match nullId with
    | some v => if x.b 40 40 = 1 then .list [some v] else .word v
    | none => .null
  let v : Val :=
    if x.b 40 40 = 1 then
      let c := cols.headD 0
      match rowGet r c, colTy x.inL c with
      | .list ws, .list e => .list (ws.filterMap fun w => match w with
          | some w => some (some (id (keyWordOf (listElem e) (.word w))))
          | none => nullId.map some)
      | _, _ => ofNull
    else if hasNull (rowKey x.inL cols r) then ofNull
    else .word (id (rowKeyWord x.inL cols r))
  (x.emit (x.put r (x.b 39 32) v), s)

/-- The boundary list of an image: whether its values are integers, and the values. -/
def Image.bounds (im : Image) (i : Nat) : Bool × List Nat :=
  match im.content.lists[i]? with | some (.bounds a vs) => (a, vs) | _ => (true, [])

/-- BUCKETIZE (R219). -/
def opBucketize (x : OpCtx) (r : Row) (s : State) : OpOut :=
  let c := x.b 7 0
  let bs := x.img.bounds (x.b 31 16)
  let at' (n : Nat) : Nat := w64 (x.b 95 32 + n)
  let v : Nat := match rowGet r c with
    | .word w => match numOf (colTy x.inL c) w with
      | some (.int i) => at' (bs.2.filter fun b => decide (untwos 64 b ≤ i)).length
      | some (.flt f) =>
        if fpNan fp32 f then x.b 223 160 else at' (bs.2.filter fun b => !lt32 f b).length
      | none => x.b 159 96
    | _ => x.b 159 96
  (x.emit (x.put r (x.b 15 8) (.word v)), s)

/-- The steps of NORMALISE on an FP32 value that is not NaN (R220). -/
def normalise (mode scale shift lo hi f : Nat) : Nat :=
  let y := match mode with
    | 0 => mul32 (sub32 f shift) scale
    | 1 => mul32 (sub32 (ln32 (add32 0x3F800000 (relu32 f))) shift) scale
    | _ => f
  if fpNan fp32 y then y else if lt32 y lo then lo else if lt32 hi y then hi else y

/-- NORMALISE (R220). -/
def opNormalise (x : OpCtx) (r : Row) (s : State) : OpOut :=
  let c := x.b 7 0
  let fill : Val := .word (x.b 191 160)
  let v : Val := match rowGet r c with
    | .word w => match numOf (colTy x.inL c) w with
      | some n =>
        if fpNan fp32 n.f32 then (if x.b 19 19 = 1 then fill else .word 0x7FC00000)
        else .word (normalise (x.b 17 16) (x.b 63 32) (x.b 95 64) (x.b 127 96) (x.b 159 128) n.f32)
      | none => .null
    | _ => if x.b 18 18 = 1 then fill else .null
  (x.emit (x.put r (x.b 15 8) v), s)

/-- The words of a CROSS component: none where it is null. -/
def crossWords (ty : ColTy) (v : Val) : Option (List Nat) :=
  match v, ty with
  | .null, _ => none
  | .list ws, .list e => some (ws.map fun w =>
      match w with | some w => keyWordOf (listElem e) (.word w) | none => 2 ^ 64 - 1)
  | v, ty => some [keyWordOf ty v]

/-- CROSS (R221). -/
def opCross (x : OpCtx) (r : Row) (s : State) : OpOut :=
  let cols := (unpack 8 3 (x.b 23 0)).filter (· != 255)
  let comps := cols.map fun c => crossWords (colTy x.inL c) (rowGet r c)
  let lists := cols.any fun c => match colTy x.inL c with | .list _ => true | _ => false
  let lim := x.b 239 224
  let out := x.b 31 24
  if comps.any (·.isNone) then (x.emit (x.put r out .null), s)
  else
    let ws := comps.filterMap id
    let n : Nat := (ws.map (·.length)).foldl (fun a b => a * b) 1
    let ks : List Nat := if n = 0 then [] else
      ws.foldl (fun ks w => (ks.flatMap fun k => w.map fun y => h64 y k).take lim) [x.b 95 32]
    let ids := ks.map fun k => hashId (x.b 223 160) k (x.b 159 96)
    let v : Val := if lists then .list (ids.map some) else .word (ids.headD 0)
    let r := x.put r out v
    if lim < n then (x.emit { r with trunc := true }, x.count s Ob.CROSS_TRUNCATED 1) else (x.emit r, s)

/-- BAG (R229). -/
def opBag (x : OpCtx) (r : Row) (s : State) : OpOut :=
  let ids : List (Option Nat) := match rowGet r (x.b 7 0) with
    | .word w => [some w]
    | .list ws => ws
    | _ => []
  let wc := x.b 15 8
  let mismatch := wc ≠ 255 && (match rowGet r wc with | .list ws => ws.length != ids.length | _ => false)
  let lim := x.b 80 72
  if mismatch then ([rowHole .badDescriptor r], s)
  else
    let r := x.put r (x.b 23 16) (.list (ids.take lim))
    if lim < ids.length then (x.emit { r with trunc := true }, x.count s Ob.BAG_TRUNCATED 1) else (x.emit r, s)

/-! ### Join (R222–R225) -/

/-- The hash that chooses bucket and TAG. -/
def joinHash (key seed : Nat) : Nat := h64 (h64 key seed) 0x4A4F494E

/-- The fields of a build bucket (Table 8.13): NEXT, and the entries in use as (TAG, ROW). -/
def bucketNext (b : Bytes) : Nat := leAt b 0 4
def bucketEntries (b : Bytes) : List (Nat × Nat) :=
  (List.range (min 7 (leAt b 4 1))).map fun i => (leAt b (8 + 8 * i) 4, leAt b (12 + 8 * i) 4)

/-- The 64 bytes of a build bucket. -/
def bucketImage (next : Nat) (es : List (Nat × Nat)) : Bytes :=
  fitB 64 (leBytes 4 next ++ leBytes 4 es.length ++ es.flatMap fun e => leBytes 4 e.1 ++ leBytes 4 e.2)

/-- The buckets of a chain from one on, with their bytes and with fuel; none where a word of them is uncorrectable. -/
def State.chain (x : OpCtx) : Nat → State → Nat → Option (List (Nat × Bytes)) × State
  | 0, s, _ => (some [], s)
  | fuel + 1, s, b =>
    match s.vaultRead srcBulk (x.at' (64 * b)) 64 with
    | (none, s) => (none, s)
    | (some y, s) =>
      if bucketNext y = 0 then (some [(b, y)], s)
      else match State.chain x fuel s (bucketNext y) with
        | (some l, s) => (some ((b, y) :: l), s)
        | r => r

/-- Primary buckets of a JOIN_BUILD, its bucket of a hash, and the offset of stored row `k`. -/
def OpCtx.buckets (x : OpCtx) : Nat := 2 ^ x.b 108 104
def OpCtx.bucketOf (x : OpCtx) (g : Nat) : Nat := g / 2 ^ (64 - x.b 108 104)
def OpCtx.rowOff (x : OpCtx) (k : Nat) : Nat :=
  64 * (x.buckets + overflowBuckets (x.b 143 112)) + k * up64 x.inL.maxLen

/-- Append an entry to a chain whose buckets have been read: a full last bucket is continued in an overflow bucket. -/
def State.appendChain (s : State) (x : OpCtx) (t : BuildTable) (bs : List (Nat × Bytes)) (e : Nat × Nat) : BuildTable × State :=
  match bs.getLast? with
  | none => (t, s)
  | some (b, y) =>
    let es := bucketEntries y
    if es.length < 7 then (t, (s.vaultWrite (x.at' (64 * b)) (bucketImage 0 (es ++ [e]))).2)
    else
      let n := x.buckets + t.overflow
      let s := (s.vaultWrite (x.at' (64 * n)) (bucketImage 0 [e])).2
      ({ t with overflow := t.overflow + 1 }, (s.vaultWrite (x.at' (64 * b)) (bucketImage n es)).2)

/-- JOIN_BUILD (R222). -/
def opJoinBuild (x : OpCtx) (r : Row) (s : State) : OpOut :=
  let cols := keyCols (x.b 39 8)
  let o := s.opState x.p x.handle x.op x.core
  let g := joinHash (rowKeyWord x.inL cols r) (x.b 103 40)
  if hasNull (rowKey x.inL cols r) then ([], s)
  else if x.b 143 112 ≤ o.build.rows then
    ([rowHole .noResource r],
      x.count (s.setOp x.p { o with build := { o.build with incomplete := true } }) Ob.BUILD_OVERFLOW 1)
  else match s.chain x (o.build.overflow + 1) (x.bucketOf g) with
    | (none, s) => ([rowHole .uncorrectable r], s)
    | (some bs, s) =>
      let off := x.rowOff o.build.rows
      let s := (s.vaultWrite (x.at' off) (rowImage x.inL (s.rowOpen x.p x.img r) r)).2
      let a := s.appendChain x o.build bs (g % 2 ^ 32, off / 64)
      ([], a.2.setOp x.p { o with build := { a.1 with rows := o.build.rows + 1 } })

/-- A row image of a layout in a home vault, its length first; none where a word of it is uncorrectable. -/
def State.rowAt (s : State) (l : Layout) (da : Nat) : Option Bytes × State :=
  match s.vaultRead srcBulk da 4 with
  | (none, s) => (none, s)
  | (some b, s) => s.vaultRead srcBulk da (min (leNat b) l.maxLen)

/-- Index of the JOIN_BUILD that shares a probe's JOIN_ID. -/
def OpCtx.buildOp (x : OpCtx) : Nat :=
  (x.img.ops.findIdx? fun d => bitsOf (leNat d) 7 0 == 7 && bitsOf (leNat d) 133 128 == x.b 5 0).getD 0

/-- The build rows of a chain's entries with a TAG whose keys are equal to a probe's, in build order; none where a word that the
walk reads is uncorrectable (R214, R224). -/
def State.withKey (y : OpCtx) (tag : Nat) (key : List Val) : List (Nat × Nat) → State → Option (List Row) × State
  | [], s => (some [], s)
  | e :: es, s =>
    if e.1 ≠ tag then State.withKey y tag key es s
    else match s.rowAt y.inL (y.at' (64 * e.2)) with
      | (none, s) => (none, s)
      | (some b, s) =>
        let row := rowOf y.inL b
        match State.withKey y tag key es s with
        | (some l, s) => (some (if rowKey y.inL (keyCols (y.b 39 8)) row == key then row :: l else l), s)
        | r => r

/-- What a probe row finds in its own core's table. -/
def State.probe (s : State) (y : OpCtx) (t : BuildTable) (g : Nat) (key : List Val) : Option (List Row) × State :=
  if hasNull key then (some [], s)
  else match s.chain y (t.overflow + 1) (y.bucketOf g) with
    | (none, s) => (none, s)
    | (some bs, s) => State.withKey y (g % 2 ^ 32) key (bs.flatMap fun b => bucketEntries b.2) s

/-- JOIN_PROBE (R224). -/
def opJoinProbe (x : OpCtx) (r : Row) (s : State) : OpOut :=
  let y := opCtx x.p x.handle x.img x.buildOp x.core
  let o := s.opState x.p x.handle x.buildOp x.core
  let cols := keyCols (x.b 39 8)
  let key := rowKey x.inL cols r
  let g := joinHash (rowKeyWord x.inL cols r) (y.b 103 40)
  let lim := x.b 191 176
  let out (b : Option Row) : List (Val × Tally) :=
    projectCols (x.img.map (x.b 175 160)) (colTys x.inL ++ colTys y.inL)
      (colVals x.inL r ++ match b with | some b => colVals y.inL b | none => y.inL.cols.map fun _ => Val.null)
  if o.build.incomplete then ([rowHole .noResource r], s)
  else match s.probe y o.build g key with
    | (none, s) => ([rowHole .uncorrectable r], s)
    | (some hits, s) =>
      let outs : List (List (Val × Tally)) := match x.b 145 144 with
        | 0 => (hits.take lim).map fun b => out (some b)
        | 1 => if hits.isEmpty then [out none] else (hits.take lim).map fun b => out (some b)
        | 2 => if hits.isEmpty then [] else [out none]
        | _ => if hits.isEmpty then [out none] else []
      let capped := if x.b 145 144 ≤ 1 then hits.length - lim else 0
      let rows := outs.map fun l => { r with cols := l.map (·.1) }
      let s := x.count (s.tally x.p (outs.foldl (fun t l => t.add (sumTally l)) Tally.zero)) Ob.JOIN_CAPPED capped
      if rows.any fun w => decide (x.outL.maxLen < rowLen x.outL w) then ([rowHole .badDescriptor r], s)
      else (rows.map fun w => .row w x.core, s)

/-- Provenance that the header of a row image shows (R204). -/
def imageProv (b : Bytes) : List Nat := [leAt b 6 2, leAt b 8 2, leAt b 10 4, leAt b 14 4]

/-- The entries of a chain with the provenance of their rows; none where a word of them is uncorrectable. -/
def State.entryProvs (x : OpCtx) : List (Nat × Nat) → State → Option (List (List Nat × Nat × Nat)) × State
  | [], s => (some [], s)
  | e :: es, s =>
    match s.vaultRead srcBulk (x.at' (64 * e.2)) 24 with
    | (none, s) => (none, s)
    | (some b, s) => match State.entryProvs x es s with
      | (some l, s) => (some ((imageProv b, e) :: l), s)
      | r => r

/-- The buckets of a chain written again with its entries in an order, seven to a bucket. -/
def State.rewriteChain (x : OpCtx) : List (Nat × Bytes) → List (Nat × Nat) → State → State
  | [], _, s => s
  | (b, y) :: bs, es, s =>
    State.rewriteChain x bs (es.drop 7) (s.vaultWrite (x.at' (64 * b)) (bucketImage (bucketNext y) (es.take 7))).2

/-- Seal one chain (R223): its entries in ascending provenance.  A chain with an uncorrectable word keeps its order. -/
def State.sealChain (x : OpCtx) (fuel : Nat) (s : State) (b : Nat) : State :=
  match s.chain x fuel b with
  | (none, s) => s
  | (some bs, s) => match State.entryProvs x (bs.flatMap fun y => bucketEntries y.2) s with
    | (none, s) => s
    | (some es, s) => State.rewriteChain x bs ((sortBy (fun a c => ltList a.1 c.1) es).map (·.2)) s

/-- The primary buckets of a build table that hold an entry, in ascending order. -/
def State.usedBuckets (s : State) (x : OpCtx) : List Nat :=
  let lo := x.at' 0
  ((s.mem.filter fun c => lo ≤ c.1 && c.1 < lo + 64 * x.buckets && (c.1 - lo) % 64 == 4).map fun c => (c.1 - lo) / 64)

/-! ### GROUP_BY (R226, R227) -/

/-- An aggregate before its first row. -/
def AggState.start : AggState := { rows := 0, count := 0, sum := 0, value := .null, prov := [] }

/-- A word code of a value, for the choice between equal ones. -/
def valWord : Val → Nat
  | .word w => w
  | _ => 0

/-- Sum of two floating-point values: in FP32, a subnormal result flushed to zero; a first value is rounded the same way. -/
def addVals (a b : Val) : Val :=
  match a, b with
  | .null, .word y => .word (val32 y).r32
  | a, .null => a
  | .word x, .word y => .word (add32 x y)
  | a, _ => a

/-- A column's value with every NaN the canonical one of its format (R256). -/
def canonVal (ty : ColTy) (v : Val) : Val :=
  match ty, v with
  | .f32, .word w => .word (nan32 w)
  | .bf16, .word w => .word (if fpNan bf16 w then 0x7FC0 else w)
  | _, v => v

/-- The lower or higher of two values in the BULK order. -/
def bestVal (low : Bool) (ty : ColTy) (a b : Val) : Val :=
  match a, b with
  | .null, b => b
  | a, .null => a
  | .word x, .word y =>
    match numOf ty x, numOf ty y with
    | some m, some n =>
      if m.lt n then (if low then a else b) else if n.lt m then (if low then b else a)
      else if x = y || Config.tie x y % 2 = 0 then a else b
    | _, _ => a
  | a, _ => a

/-- A value as a floating-point SUM and MEAN add it: FP32. -/
def sumVal (ty : ColTy) (v : Val) : Val :=
  match v with
  | .word w => match numOf ty w with
    | some (.flt f) => .word f
    | _ => .null
  | _ => .null

/-- A whole number as SUM and MEAN add it. -/
def sumInt (ty : ColTy) (v : Val) : Int :=
  match v with
  | .word w => match numOf ty w with
    | some (.int i) => i
    | _ => 0
  | _ => 0

/-- One aggregate takes a contribution: rows, non-null values, exact sum, a value and its provenance. -/
def AggState.take (fn : Nat) (ty : ColTy) (a b : AggState) : AggState :=
  let c : AggState := { a with rows := a.rows + b.rows, count := a.count + b.count, sum := a.sum + b.sum }
  match fn with
  | 2 => { c with value := addVals a.value b.value }
  | 5 => { c with value := addVals a.value b.value }
  | 3 => { c with value := bestVal true ty a.value b.value }
  | 4 => { c with value := bestVal false ty a.value b.value }
  | 6 => if b.value = .null || (a.value ≠ .null && !ltList b.prov a.prov) then c
    else { c with value := b.value, prov := b.prov }
  | 7 => if b.value = .null || (a.value ≠ .null && !ltList a.prov b.prov) then c
    else { c with value := b.value, prov := b.prov }
  | _ => c

/-- What a row contributes to an aggregate: a partial state in PHASE 2, else its source value. -/
def aggInput (x : OpCtx) (a : Agg) (r : Row) : AggState :=
  let ty := colTy x.inL a.src
  match rowGet r a.src with
  | .agg n c i w pr => { rows := n, count := c, sum := i, value := w, prov := pr }
  | v =>
    let sums := a.fn = 2 || a.fn = 5
    { rows := 1, count := b2n (v != .null), sum := if sums then sumInt ty v else 0,
      value := if a.fn ≤ 1 then .null else if sums then sumVal ty v
        else if a.fn ≤ 4 then canonVal ty v else v,
      prov := rowProv r }

/-- The aggregates of an image list. -/
def Image.aggs (im : Image) (i : Nat) : List Agg :=
  match im.content.lists[i]? with | some (.aggs l) => l | _ => []

/-- Which of two equal key values a group's row carries. -/
def keepKey (a b : Val) : Val := if a = b || Config.tie (valWord a) (valWord b) % 2 = 0 then a else b

/-- The sum of an aggregate as it is written: a whole number saturates in 64 bits. -/
def AggState.total (ty : ColTy) (a : AggState) : Val × Nat :=
  if a.count = 0 then (.null, 0) else if isFloat ty then (a.value, 0)
  else let r := satInt 64 a.sum; (.word r.1, r.2)

/-- The mean of a sum. -/
def meanOf (ty : ColTy) (count : Nat) (v : Val) : Val :=
  match v with
  | .word w =>
    let sum : FVal := if isFloat ty then val32 w else FVal.of (Fr.ofInt (untwos 64 w))
    .word (sum.div (FVal.of (Fr.ofInt count))).r32
  | _ => .null

/-- The value a final aggregate writes (Table 8.15), and saturations. -/
def AggState.final (fn : Nat) (ty : ColTy) (a : AggState) : Val × Nat :=
  match fn with
  | 0 => (.word (a.rows % 2 ^ 64), 0)
  | 1 => (.word (a.count % 2 ^ 64), 0)
  | 2 => a.total ty
  | 5 => let t := a.total ty; (meanOf ty a.count t.1, t.2)
  | _ => (a.value, 0)

/-- What a group's row holds of an aggregate: in PHASE 1 its partial state. -/
def OpCtx.aggOut (x : OpCtx) (fn : Nat) (ty : ColTy) (a : AggState) : Val × Nat :=
  if x.b 33 32 = 1 then
    (.agg a.rows a.count a.sum (if fn = 2 || fn = 5 then (a.total ty).1 else (a.final fn ty).1) a.prov, 0)
  else a.final fn ty

/-- The row of a group, and the sums that saturated in it. -/
def OpCtx.groupRow (x : OpCtx) (g : Group) : Row × Nat :=
  let aggs := x.img.aggs (x.b 63 48)
  let n := x.outL.cols.length
  let base : Row := { stream := (g.prov[0]?).getD 0, openNo := (g.prov[1]?).getD 0, object := (g.prov[2]?).getD 0,
                      ordinal := (g.prov[3]?).getD 0, trunc := false, cols := List.replicate n Val.null }
  let r := (g.vals.zipIdx).foldl (fun (r : Row) e => rowSet r n e.2 e.1) base
  (g.aggs.zip aggs).foldl (fun (r : Row × Nat) e =>
    let v := x.aggOut e.2.fn (colTy x.inL e.2.src) e.1
    (rowSet r.1 n e.2.out v.1, r.2 + v.2)) (r, 0)

/-- Device address of group `i` of the table (R226). -/
def OpCtx.groupAt (x : OpCtx) (i : Nat) : Nat := x.at' (i * up64 x.outL.maxLen)

/-- The bytes that a group takes in the table: those of its row. -/
def State.groupImage (s : State) (x : OpCtx) (g : Group) : Bytes :=
  let r := (x.groupRow g).1
  fitB (min (rowLen x.outL r) (up64 x.outL.maxLen)) (rowImage x.outL (s.rowOpen x.p x.img r) r)

/-- A group can be read: no word of it is uncorrectable (R214). -/
def State.groupRead (s : State) (x : OpCtx) (i : Nat) (g : Group) : Bool × State :=
  let r := s.vaultRead srcBulk (x.groupAt i) (s.groupImage x g).length
  (r.1.isSome, r.2)

/-- GROUP_BY takes a row (R226). -/
def opGroupBy (x : OpCtx) (r : Row) (s : State) : OpOut :=
  let cols := keyCols (x.b 31 0)
  let aggs := x.img.aggs (x.b 63 48)
  let o := s.opState x.p x.handle x.op x.core
  let key := rowKey x.inL cols r
  let vals := cols.map (rowGet r)
  let i := o.groups.findIdx fun g => g.key == key
  let old := o.groups[i]?
  if old.isNone && x.b 95 64 ≤ o.groups.length then
    ([rowHole .noResource r], x.count s Ob.GROUP_OVERFLOW 1)
  else
    let g : Group := old.getD { key := key, vals := vals, prov := rowProv r, aggs := aggs.map fun _ => AggState.start }
    let k := if old.isSome then s.groupRead x i g else (true, s)
    if !k.1 then ([rowHole .uncorrectable r], k.2)
    else
      let g : Group := { g with
        vals := (g.vals.zip vals).map fun e => keepKey e.1 e.2
        prov := if ltList (rowProv r) g.prov then rowProv r else g.prov
        aggs := (g.aggs.zip aggs).map fun e => e.1.take e.2.fn (colTy x.inL e.2.src) (aggInput x e.2 r) }
      let s := (k.2.vaultWrite (x.groupAt i) (k.2.groupImage x g)).2
      ([], s.setOp x.p { o with groups := if old.isSome then o.groups.set i g else o.groups ++ [g] })

/-- A group at the end mark: its row, or a hole where it cannot be read (R214, R226). -/
def State.flushGroup (s : State) (x : OpCtx) (i : Nat) (g : Group) : OpOut :=
  let k := s.groupRead x i g
  let r := x.groupRow g
  if k.1 then (x.emit r.1, x.count k.2 Ob.AGG_SAT r.2) else ([rowHole .uncorrectable r.1], k.2)

/-! ### DEDUPE (R228) -/

/-- DEDUPE takes a row, whose image lies at an address. -/
def opDedupe (x : OpCtx) (h : HeldRow) (s : State) : OpOut :=
  let r := h.row
  let cols := keyCols (x.b 31 0)
  let o := s.opState x.p x.handle x.op x.core
  let key := rowKey x.inL cols r
  let whole := x.b 32 32 == 1
  if hasNull key then
    if x.b 33 33 = 0 then ([], s)
    else if whole then ([], s.setOp x.p { o with rows := o.rows ++ [h] })
    else (x.emit r, s)
  else if o.keys.contains key then
    if whole then
      let rows := o.rows.map fun y => if rowKey x.inL cols y.row = key && ltList (rowProv r) (rowProv y.row) then h else y
      ([], s.setOp x.p { o with rows := rows })
    else ([], s)
  else if x.b 95 64 ≤ o.keys.length then ([rowHole .noResource r], x.count s Ob.DEDUPE_OVERFLOW 1)
  else
    let o' := { o with keys := o.keys ++ [key] }
    if whole then ([], s.setOp x.p { o' with rows := o.rows ++ [h] }) else (x.emit r, s.setOp x.p o')

/-- A held row at the end mark, or a hole where it cannot be read (R214, R228). -/
def State.flushRow (s : State) (x : OpCtx) (h : HeldRow) : OpOut :=
  match s.vaultRead srcBulk h.da h.len with
  | (some b, s) => (x.emit (reread x.inL h.row b), s)
  | (none, s) => ([rowHole .uncorrectable h.row], s)

/-! ### REPARTITION (R233) -/

/-- REPARTITION places a row again. -/
def opRepartition (x : OpCtx) (r : Row) (s : State) : OpOut :=
  let core := s.div.place x.p (rowKeyWord x.inL (keyCols (x.b 31 0)) r) (x.b 95 32)
  let s := if core / 60 = x.core / 60 then s
    else x.count (x.count s Ob.REPART_ROWS 1) Ob.REPART_BYTES (rowLen x.outL r)
  ([if x.outL.maxLen < rowLen x.outL r then rowHole .badDescriptor r else .row r core], s)

/-! ### Runs and end marks -/

/-- An operator takes one row (Table 8.5). -/
def opStep (x : OpCtx) (h : HeldRow) (s : State) : OpOut :=
  match x.code with
  | 0x01 => opFilter x h.row s
  | 0x02 => opProject x h.row s
  | 0x03 => opHash x h.row s
  | 0x04 => opBucketize x h.row s
  | 0x05 => opNormalise x h.row s
  | 0x06 => opCross x h.row s
  | 0x07 => opJoinBuild x h.row s
  | 0x08 => opJoinProbe x h.row s
  | 0x09 => opGroupBy x h.row s
  | 0x0A => opDedupe x h s
  | 0x0B => opSample x h.row s
  | 0x0C => opExpr x h.row s
  | 0x0D => opBag x h.row s
  | 0x0E => opRepartition x h.row s
  | _ => ([rowHole .badDescriptor h.row], s)

/-- An operator reads a row image and takes the row, which is a hole where it cannot be read in full (R214). -/
def opRow (x : OpCtx) (da : Nat) (r : Row) (s : State) : OpOut :=
  let n := rowLen x.inL r
  match s.vaultRead srcBulk da n with
  | (none, s) => ([rowHole .uncorrectable r], s)
  | (some b, s) => opStep x { da := da, len := n, row := reread x.inL r b } s

/-- An operator takes a run of rows in order, each image 64 B aligned (R205). -/
def opRun (x : OpCtx) : Nat → List Row → State → OpOut
  | _, [], s => ([], s)
  | da, r :: rs, s =>
    let o := opRow x da r s
    let t := opRun x (da + up64 (rowLen x.inL r)) rs o.2
    (o.1 ++ t.1, t.2)

/-- Pieces that a list of things gives one after another. -/
def foldOut {α : Type} (f : α → State → OpOut) : List α → State → OpOut
  | [], s => ([], s)
  | a :: as, s =>
    let o := f a s
    let t := foldOut f as o.2
    (o.1 ++ t.1, t.2)

/-- A core's end-mark action (R242): JOIN_BUILD seals its table (R223), GROUP_BY and EXACT DEDUPE flush. -/
def opEnd (x : OpCtx) (s : State) : OpOut :=
  let o := s.opState x.p x.handle x.op x.core
  match x.code with
  | 0x07 =>
    let s := (s.usedBuckets x).foldl (fun t b => t.sealChain x (o.build.overflow + 1) b) s
    ([], s.setOp x.p { o with build := { o.build with isSealed := true } })
  | 0x09 =>
    let gs := sortBy (fun (a b : Group × Nat) => ltList a.1.prov b.1.prov) o.groups.zipIdx
    foldOut (fun g s => s.flushGroup x g.2 g.1) gs (s.setOp x.p { o with groups := [] })
  | 0x0A =>
    if x.b 32 32 = 1 then
      foldOut (fun h s => s.flushRow x h) (sortBy (fun (a b : HeldRow) => ltList (rowProv a.row) (rowProv b.row)) o.rows)
        (s.setOp x.p { o with rows := [] })
    else ([], s)
  | _ => ([], s)

/-! ### Where runs lie (R205) -/

/-- The runs and held rows that lie in the home vault of a core: offset and bytes. -/
def State.runAreas (s : State) (p core : Nat) : List (Nat × Nat) :=
  let home := homeDa core 0
  ((s.runRanges p).filter fun u => home ≤ u.1 && u.1 < home + 2 ^ 31).map fun u => (u.1 - home, u.2)

/-- Write the images of a run from an address on. -/
def State.writeRun (l : Layout) (openNo : Row → Nat) : State → Nat → List Row → State
  | s, _, [] => s
  | s, da, r :: rs =>
    State.writeRun l openNo (s.vaultWrite da (rowImage l (openNo r) r)).2 (da + up64 (rowLen l r)) rs

/-- A run of rows for one core as an item, its images written to the core's home vault, at a place beside its tables, areas and
other runs, which the manual leaves open; a run that any core may take lies in the home vault of one of the partition's.  Rows
that no place is left for are holes. -/
def State.putRun (s : State) (p : Nat) (im : Image) (l : Layout) (rs : List Row) (target : Nat) : List Item × State :=
  let n := (rs.map fun r => up64 (rowLen l r)).sum
  let v := if target = 0x7FF then s.chooseOf (s.div.coreSpan p) else (some target, s)
  let core := v.1.getD 0
  let r := v.2.chooseOf (gapStarts up64 (v.2.homeAreas p ++ v.2.runAreas p core) 0 (2 ^ 31 - 0x4000000 * s.div.window) n)
  match r.1 with
  | some off =>
    let da := homeDa core off
    ([mkItem target 0 n da rs.length .ok (.rows rs)], r.2.writeRun l (s.rowOpen p im) da rs)
  | none => (rs.map fun y => mkItem 0x7FF 0 0 0 0 .noResource (.hole y.stream y.openNo y.object y.ordinal), r.2)

end Sys2Proof.Machine
end

