-- ==== Sys2Proof/Machine/Batch.lean ====
section
/-!
DEFINITION. Sample sets, the shuffle, epochs, batch assembly and batch frames (R177–R202, R270).
-/
namespace Sys2Proof.Machine

/-! ### Sample sets (R177–R179, R202) -/

/-- A set that holds nothing. -/
def SampleSet.empty : SampleSet :=
  { declared := false, base := 0, capacity := 0, state := 0, count := 0, rows := [] }

/-- A sample set of a partition. -/
def State.set? (s : State) (p n : Nat) : SampleSet := lookD (s.part p).sets n SampleSet.empty

/-- The state with a sample set changed. -/
def State.setSet (s : State) (p n : Nat) (x : SampleSet) : State :=
  s.setPart p { s.part p with sets := setAt (s.part p).sets n x }

/-- The 32 bytes of a sample-set entry (Table 7.1). -/
def SetEntry.bytes (e : SetEntry) : Bytes :=
  leBytes 32 (e.sa % 2 ^ 48 + e.len % 2 ^ 16 * 2 ^ 48 + e.status.code * 2 ^ 64 + e.stream % 2 ^ 16 * 2 ^ 80 +
    e.object % 2 ^ 32 * 2 ^ 96 + e.ordinal % 2 ^ 32 * 2 ^ 128 + e.openNo % 2 ^ 16 * 2 ^ 160)

/-- The device operand address of entry `i` of a set. -/
def SampleSet.entryAddr (x : SampleSet) (i : Nat) : Nat := 2 ^ 62 + x.base + 32 * i

/-- The statuses an entry can carry (Table 0.3). -/
def allStatus : List Status :=
  [.ok, .partialOk, .badDescriptor, .noResource, .overlap, .resourceHeld, .notPermitted, .uncorrectable, .isolated,
   .linkRetryExhausted, .deadline, .late, .corruptRecord, .expansionLimit, .notSmaller, .authFail, .locked, .signatureBad,
   .aborted]

/-- The entry that 32 bytes hold (Table 7.1).  A status code that Table 0.3 does not name reads as BAD_DESCRIPTOR (DESIGN CHOICE,
log 167). -/
def setEntryOf (b : Bytes) : SetEntry :=
  { sa := leAt b 0 6, len := leAt b 6 2, status := (allStatus.find? fun x => x.code == leAt b 8 1).getD .badDescriptor,
    stream := leAt b 10 2, object := leAt b 12 4, ordinal := leAt b 16 4, openNo := leAt b 20 2 }

/-- Read an entry of a set: none where a word of it is uncorrectable (R58). -/
def State.setEntry? (s : State) (p : Nat) (x : SampleSet) (i : Nat) : Option SetEntry × State :=
  let r := s.devRead srcBulk p (x.entryAddr i) 32
  (r.1.map setEntryOf, r.2)

/-- What a partition's spread space holds: its first access, where no row lies since ROW 0 marks a hole, the entries and rows of
its declared sets, and the staging of its batch plans. -/
def State.spreadAreas (s : State) (p : Nat) : List (Nat × Nat) :=
  (0, 64) :: ((s.part p).sets.filter (·.2.declared)).flatMap (fun x => (x.2.base, 32 * x.2.capacity) :: x.2.rows) ++
    (s.part p).images.flatMap fun im => im.2.content.plans.map fun q => (q.stagingFirst, q.stagingLen)

/-- Append an entry to a set (R177), its row written to the spread space: BAD_DESCRIPTOR where it is sealed, NO_RESOURCE where it
is full.  Where in the spread space a row lies the manual leaves open; a row that no place is left for is refused as by a full
set (DESIGN CHOICE, log 168). -/
def State.appendEntry (s : State) (p n : Nat) (row : Option (Layout × Row)) (st : Status) (stream openNo object ordinal : Nat) :
    Status × State :=
  let x := s.set? p n
  let rel := (s.part p).relOpen n stream openNo
  let len := match row with | some r => rowLen r.1 r.2 | none => 0
  let full : Status × State := (.noResource, s.bump (at_ Ob.SET_OVERFLOW p))
  if x.state ≠ 0 || !x.declared then (.badDescriptor, s)
  else if x.capacity ≤ x.count then full
  else
    let v := match row with
      | some _ => s.chooseOf (gapStarts up64 (s.spreadAreas p) 64 (s.div.spreadBytes p) (up64 len))
      | none => (some 0, s)
    match v.1 with
    | none => full
    | some sa =>
      let e : SetEntry := { sa := sa, len := len, status := st, stream := stream, object := object, ordinal := ordinal,
                            openNo := rel }
      let t := v.2.setSet p n { x with count := x.count + 1, rows := if row.isSome then x.rows ++ [(sa, up64 len)] else x.rows }
      let t := match row with | some r => (t.devWrite p (2 ^ 62 + sa) (rowImage r.1 rel r.2)).2 | none => t
      (.ok, (t.devWrite p (x.entryAddr x.count) e.bytes).2)

/-- The value of SET_SEAL or SET_CLEAR: BAD_DESCRIPTOR or NOT_PERMITTED, or OK (R202). -/
def State.setArg (s : State) (w : Writer) (v : Nat) : Status :=
  firstFail [(w.isHost && bitsOf v 8 8 ≠ s.served w.port, .notPermitted),
    (15 < bitsOf v 7 0 || bitsOf v 15 9 ≠ 0, .badDescriptor)]

/-- SET_SEAL (R179): the set refuses further items, and its sort begins. -/
def execSetSeal (acc : Access) (s : State) : Host.Outcome State Fault Refusal :=
  .next (s.write acc (isKey Ob.SET_SEAL) (numOp fun w v s =>
    let st := s.setArg w v
    let p := bitsOf v 8 8
    let n := bitsOf v 7 0
    let x := s.set? p n
    (some st, if st = .ok && x.state = 0 then s.setSet p n { x with state := 2 } else s)))

/-- Order of the entries of a sealed set (R179). -/
def SetEntry.key (e : SetEntry) : List Nat := [e.stream, e.openNo, e.object % 2 ^ 32, e.ordinal]

/-- The entries of a set as the sort reads them: one that cannot be read becomes a hole with UNCORRECTABLE and no provenance
(DESIGN CHOICE, log 169). -/
def State.setEntries (s : State) (p : Nat) (x : SampleSet) : List SetEntry × State :=
  (List.range x.count).foldl (fun (acc : List SetEntry × State) i =>
    let r := acc.2.setEntry? p x i
    let lost : SetEntry := { sa := 0, len := 0, status := .uncorrectable, stream := 0, object := 0, ordinal := 0, openNo := 0 }
    (acc.1 ++ [r.1.getD lost], r.2)) ([], s)

/-- SET_SORT_END (R179): the sort ends and the set reads SEALED. -/
def execSetSortEnd (part : PartNo) (set : SetNo) (s : State) : Host.Outcome State Fault Refusal :=
  let p := part.val
  let n := set.val
  let x := s.set? p n
  .next (if x.state = 2 then
    let r := s.setEntries p x
    let es := sortBy (fun (a b : SetEntry) => ltList a.key b.key) r.1
    (r.2.setSet p n { x with state := 3 }).devWrite p (x.entryAddr 0) (es.flatMap SetEntry.bytes) |>.2
  else s)

/-- A running epoch draws on a set. -/
def Part.setInUse (x : Part) (n : Nat) : Bool := x.epochs.any fun e => e.2.plan.set == n

/-- Opens of each stream ID that lie before a clear of a set: an open stream's current open is counted after it. -/
def Part.clearBase (x : Part) (n : Nat) : List (Nat × Nat × Nat) :=
  (x.openBase.filter fun e => e.1 != n) ++
    x.opens.map fun o => (n, o.1, if (look x.streams o.1).isSome then o.2 - 1 else o.2)

/-- SET_CLEAR (R179): empties a set that no epoch uses. -/
def execSetClear (acc : Access) (s : State) : Host.Outcome State Fault Refusal :=
  .next (s.write acc (isKey Ob.SET_CLEAR) (numOp fun w v s =>
    let st := s.setArg w v
    let p := bitsOf v 8 8
    let n := bitsOf v 7 0
    if st ≠ .ok then (some st, s)
    else if (s.part p).setInUse n then (some .resourceHeld, s)
    else
      let s := s.setSet p n { s.set? p n with state := 0, count := 0, rows := [] }
      (some .ok, s.setPart p { s.part p with openBase := (s.part p).clearBase n })))

/-! ### The shuffle permutation (R180–R182) -/

/-- The round keys of an epoch (R180). -/
def roundKeys (seed epoch : Nat) : List Nat :=
  let k := sha256 (leBytes 8 seed ++ leBytes 4 epoch)
  (List.range 4).map fun i => leAt k (8 * i) 8

/-- The smallest b of at least 2 with n at most 2^b. -/
def ceilLog2 (n : Nat) : Nat := max 2 (if n ≤ 1 then 0 else (n - 1).log2 + 1)

/-- The rounds of the Feistel network: left and right parts and their widths (R181). -/
def feistelGo : List Nat → Nat → Nat → Nat → Nat → Nat × Nat
  | [], l, r, _, _ => (l, r)
  | k :: ks, l, r, wl, wr => feistelGo ks r (l ^^^ (h64 r k % 2 ^ wl)) wr wl

/-- A bijection on the numbers below 2^b (R181). -/
def feistel (ks : List Nat) (x b : Nat) : Nat :=
  let a := (b + 1) / 2
  let c := b - a
  let o := feistelGo ks (x / 2 ^ c) (x % 2 ^ c) a c
  o.1 * 2 ^ c + o.2

/-- Cycle-walking: apply the network until the value lies below n, with fuel. -/
def walkGo (ks : List Nat) (b n : Nat) : Nat → Nat → Nat
  | 0, y => y
  | fuel + 1, y => if y < n then y else walkGo ks b n fuel (feistel ks y b)

/-- The global index that a shuffle position draws (R181). -/
def sigma (ks : List Nat) (j n : Nat) : Nat :=
  let b := ceilLog2 n
  walkGo ks b n (2 ^ b) (feistel ks j b)

/-- The global index of a position in an epoch (R181, R182). -/
def Epoch.index (e : Epoch) (j : Nat) : Nat := if e.shuffle then sigma (roundKeys e.seed e.epoch) j e.n else j

/-! ### Plans and frames by size (R184, R194, R195) -/

/-- The sections of a plan's frames before the drop record: kind, field, stride and entries with `n` samples. -/
def sectionsOf (q : BatchPlan) (n : Nat) : List (Nat × Nat × Nat × Nat) :=
  [(1, 0, 16, n)] ++ (if q.denseBytes ≠ 0 then [(2, 0, q.denseBytes, n)] else []) ++
    (if q.pooledBytes ≠ 0 && !q.proj then [(3, 0, q.pooledBytes, n)] else []) ++
    (if q.proj then [(4, 0, vecBytes (matJob q.template).dFmt (matJob q.template).n, n)] else []) ++
    (q.packed.zipIdx.map fun f => (5, f.2, f.1.elemSize, f.1.packRows * f.1.rowLen)) ++
    (q.packed.zipIdx.map fun f => (6, f.2, 2, f.1.packRows * f.1.rowLen))

/-- Bytes before the first section. -/
def headBytes (n : Nat) : Nat := up64 (64 + 16 * n)

/-- The largest frame of a plan (R183). -/
def largestFrame (q : BatchPlan) : Nat :=
  let ss := sectionsOf q q.batch
  (ss.map fun x => up64 (x.2.2.1 * x.2.2.2)).foldl (fun a b => a + b) (headBytes (ss.length + 1)) + 16 * q.dropCap

/-- Bytes of a staged row: its SLOT entry, dense values and pooled values. -/
def stagedRow (q : BatchPlan) : Nat := 16 + q.denseBytes + q.pooledBytes

/-- The staged rows of a plan: bytes (Table 7.4). -/
def stagedBytes (q : BatchPlan) : Nat := up64 ((q.prepDepth + 1) * q.batch * stagedRow q)

/-- Device operand address of a slot's staged row of batch `k`, in one of PREP_DEPTH + 1 buffers of B rows (Table 7.4). -/
def slotAddr (q : BatchPlan) (k slot : Nat) : Nat :=
  2 ^ 62 + q.stagingFirst + (k % (q.prepDepth + 1) * q.batch + slot) * stagedRow q

/-- Device operand addresses of the projection operand and output, after the staged rows (R270). -/
def operandAddr (q : BatchPlan) : Nat := 2 ^ 62 + q.stagingFirst + stagedBytes q
def outputAddr (q : BatchPlan) : Nat :=
  operandAddr q + tiledBytes (matJob q.template).aFmt q.batch (matJob q.template).k

/-- STAGING a plan needs: the staged rows, and with PROJ the projection operand and output (Table 7.4, R270). -/
def stagingNeed (q : BatchPlan) : Nat :=
  let j := matJob q.template
  stagedBytes q + (if q.proj then tiledBytes j.aFmt q.batch j.k + tiledBytes j.dFmt q.batch j.n else 0)

/-! ### Starting an epoch (R183, R185) -/

/-- Key of an epoch's object. -/
def epochKey (k p e : Nat) : Nat := at_ k (4 * p + e)

/-- A running epoch. -/
def State.epoch? (s : State) (p e : Nat) : Option Epoch := look (s.part p).epochs e

/-- The state with an epoch changed; its gauges follow (Table 7.8). -/
def State.setEpoch (s : State) (p e : Nat) (x : Epoch) : State :=
  let s := s.setPart p { s.part p with epochs := setAt (s.part p).epochs e x }
  ((s.put (epochKey Ob.EPOCH_STATE p e) (if x.ending then 2 else 1)).put (epochKey Ob.NEXT_FEED p e) x.nextFeed).put
    (epochKey Ob.PREP_COUNT p e) x.prepared.length

/-- Bytes of an augmentation entry. -/
def augBytes (code : Nat) : Nat := 16 * 2 ^ code

/-- The batch plan a reference names: handle, image and plan (R237). -/
def State.planOf (s : State) (p ref : Nat) : Option (Nat × Image × BatchPlan) :=
  if bitsOf ref 15 11 ≠ 0 || bitsOf ref 31 20 ≠ 0 || bitsOf ref 19 16 ≠ 2 then none
  else match look (s.part p).images (bitsOf ref 10 8) with
    | some im => (im.content.plans[bitsOf ref 7 0]?).map fun q => (bitsOf ref 10 8, im, q)
    | none => none

/-- The landing-buffer regions of a plan. -/
def planRegions (im : Image) (q : BatchPlan) : List Nat := span (im.regionBase + q.asmFirst) q.asmRegions

/-- Two ranges share a byte. -/
def meets (a b : Nat × Nat) : Bool := a.1 < b.1 + b.2 && b.1 < a.1 + a.2

/-- Budget and limit in use (R183). -/
def Cmd.budget (c : Cmd) : Nat := if c.f 458 448 = 0 then 64 else c.f 458 448
def Cmd.limit (c : Cmd) : Nat := if c.f 479 464 = 0 then 1024 else c.f 479 464

/-- R183's checks. -/
def State.epochCheck (s : State) (c : Cmd) : Status :=
  match s.planOf c.part (c.f 95 64) with
  | none => .badDescriptor
  | some (_, im, q) =>
    let x := s.set? c.part q.set
    let n := x.count
    firstFail [
      (c.f 463 459 ≠ 0 || c.f 511 480 ≠ 0 || c.f 319 256 % 4096 ≠ 0 || c.f 399 384 = 0, .badDescriptor),
      (x.state ≠ 3 || n = 0 || n ≤ c.f 255 192, .badDescriptor),
      (c.f 427 424 = 0 || 12 < c.f 427 424 || c.f 399 384 * 4096 < largestFrame q, .badDescriptor),
      ((c.f 383 320 = 0 && c.f 429 428 ≠ 0) || c.f 429 428 = 3 || q.prepDepth < c.f 447 432 || c.limit ≤ c.budget,
        .badDescriptor),
      (!((s.port c.port).cplRing (c.f 423 416)).enable, .badDescriptor),
      (4 ≤ (s.part c.part).epochs.length, .noResource),
      (((s.flow? c.part (im.flowBase + q.asmFlow)).any fun x => !x.isDrained) ||
        ((planRegions im q).any fun r => s.holder r != 0) ||
        ((s.part c.part).epochs.any fun e => meets (e.2.plan.stagingFirst, e.2.plan.stagingLen) (q.stagingFirst, q.stagingLen)),
        .resourceHeld)]

/-- The range of augmentation entries an epoch reads (R183). -/
def State.augRange (s : State) (c : Cmd) : Option (Nat × Nat) :=
  match s.planOf c.part (c.f 95 64) with
  | some (_, _, q) =>
    let n := (s.set? c.part q.set).count
    let size := augBytes (c.f 429 428)
    if c.f 383 320 = 0 || n ≤ c.f 255 192 then none
    else some (c.f 383 320 + c.f 255 192 * size, (n - c.f 255 192) * size)
  | none => none

/-- A batch that begins at a position. -/
def Batch.start (j : Nat) : Batch := { firstPos := j, nextPos := j, slots := [], drops := [], capped := false }

/-- The epoch a checked PIPE_RUN starts. -/
def newEpoch (c : Cmd) (handle : Nat) (q : BatchPlan) (n : Nat) : Epoch :=
  { handle := handle, plan := q, planRef := c.f 95 64, port := c.port, ring := c.ring, epoch := c.f 127 96,
    seed := c.f 191 128, startPos := c.f 255 192, frameBase := c.f 319 256, peers := c.peers, augBase := c.f 383 320,
    slotUnits := c.f 399 384, frameTag := c.f 415 400, frameCq := c.f 423 416, slotsLog2 := c.f 427 424,
    augSize := augBytes (c.f 429 428), shuffle := c.f 430 430 = 1, dropLast := c.f 431 431 = 1,
    lowWater := c.f 447 432, n := n, nextFeed := c.f 255 192, aug := [], augNext := c.f 255 192,
    released := [], filling := Batch.start (c.f 255 192), prepared := [], batchNo := 0, slotsUsed := [], armed := false,
    ending := false, aborted := false }

/-- Start an epoch (R183, R185): its regions are claimed, its assembly flow takes the body's budgets, and the flow's
HOLD clears at the next edge. -/
def State.startEpoch (s : State) (c : Cmd) (handle : Nat) (im : Image) (q : BatchPlan) : State :=
  let p := c.part
  let e := ((List.range 4).find? fun e => (s.epoch? p e).isNone).getD 0
  let f := im.flowBase + q.asmFlow
  let s := (s.claim (planRegions im q) 3 (p * 4 + e)).getD s
  let s := match s.flow? p f with
    | some x => s.setFlow p f { x with softBudget := c.budget, hardLimit := c.limit }
    | none => s
  let s := s.setPart p { s.part p with holds := (s.part p).holds ++ [(f, false, s.now + 1)] }
  (s.setEpoch p e (newEpoch c handle q (s.set? p q.set).count)).finish c.id .ok e

/-- PIPE_RUN naming a batch plan (R183). -/
def execPipeRunEpoch (id : Nat) (_data : Bytes) (s : State) : Host.Outcome State Fault Refusal :=
  .next (match s.control id 0x11 with
    | some c =>
      if c.f 83 80 ≠ 2 then s
      else
        let late := (s.augRange c).bind fun r => s.lateRange c r.1 r.2
        match late with
        | some t => t
        | none =>
          match s.epochCheck c, s.planOf c.part (c.f 95 64) with
          | .ok, some (h, im, q) => s.startEpoch c h im q
          | st, _ => s.finish id st 0
    | none => s)

/-! ### Feeding (R185, R189, R190) -/

/-- AUGMENTATION_READ (R190): the next 4 KiB of entries ahead of the feeder; a failed read leaves every position it
covers without an entry. -/
def execAugmentationRead (part : PartNo) (epoch : EpochNo) (data : Bytes) (ok : Bool) (s : State) :
    Host.Outcome State Fault Refusal :=
  let p := part.val
  let e := epoch.val
  .next (match s.epoch? p e with
    | some x =>
      if x.augBase = 0 || x.ending || x.n ≤ x.augNext || !(s.port x.port).bme then s
      else
        let k := min (4096 / x.augSize) (x.n - x.augNext)
        let bytes := (List.range (k * x.augSize)).map fun i => (data[i]?).getD (Config.hostByte (2 ^ 32 + e) i)
        let new := (List.range k).map fun i =>
          (x.augNext + i, if ok then some (sliceB bytes (i * x.augSize) x.augSize) else none)
        let s := s.setEpoch p e { x with aug := x.aug ++ new, augNext := x.augNext + k }
        if ok then s
        else (s.dmaFault x.port (x.augBase + x.augNext * x.augSize) .linkRetryExhausted x.ring x.frameTag).emit (.aer x.port)
    | none => s)

/-- Weight, DROP_MASK and USER bytes of a position, or the status that makes it a drop (R189, R190). -/
def Epoch.augOf (x : Epoch) (j : Nat) : Status × Nat × Nat × Bytes :=
  if x.augBase = 0 then (.ok, 0x3F800000, 0, [])
  else match look x.aug j with
    | some (some b) => (if leAt b 4 4 = 0 then .ok else .badDescriptor, leAt b 0 4, leAt b 8 8, b.drop 16)
    | _ => (.linkRetryExhausted, 0, 0, [])

/-- How a position is fed: its status, whether its set entry is a hole, and the SA and bytes of its row.  An augmentation entry
that makes the position a drop gives its status before that of the set entry (R185, R189, R190). -/
def State.feedEntry (s : State) (p : Nat) (x : Epoch) (j : Nat) : (Status × Bool × Nat × Nat) × State :=
  let e := s.setEntry? p (s.set? p x.plan.set) (x.index j)
  let a := (x.augOf j).1
  match e.1 with
  | none => ((if a = .ok then .uncorrectable else a, false, 0, 0), e.2)
  | some en => ((if a = .ok then en.status else a, en.status != .ok, en.sa, en.len), e.2)

/-- FEED (R185): the next position enters the assembly flow, while the prepared queue has room. -/
def execFeed (part : PartNo) (epoch : EpochNo) (s : State) : Host.Outcome State Fault Refusal :=
  let p := part.val
  let e := epoch.val
  .next (match s.epoch? p e with
    | some x =>
      let j := x.nextFeed
      if x.ending || x.n ≤ j || x.plan.prepDepth ≤ x.prepared.length || (x.augBase ≠ 0 && x.augNext ≤ j) then s
      else
        let v := s.feedEntry p x j
        let s := v.2
        let st := v.1.1
        let len := if st = .ok then v.1.2.2.2 else 0
        let f := ((look (s.part p).images x.handle).map fun im => im.flowBase + x.plan.asmFlow).getD 262144
        let r := s.enqueue p f (mkItem 0x7FF 0 len (j % 2 ^ 48) e st
          (.position e j v.1.2.1 v.1.2.2.1 len []))
        if r.1 = .ok then r.2.setEpoch p e { x with nextFeed := j + 1 } else s
    | none => s)

/-! ### The assembly kernel (R185, R189, R229) -/

/-- The IDs and weights of a bag in a row: nulls left out, weights 1.0 where there are none. -/
def bagOf (b : BagSpec) (r : Row) : List (Nat × Nat) :=
  let ids := match rowGet r b.idCol with | .list ws => ws | .word w => [some w] | _ => []
  let ws : List (Option Nat) := match b.weightCol with
    | some c => (match rowGet r c with | .list l => l | _ => [])
    | none => []
  (ids.zipIdx).filterMap fun i => i.1.map fun id => (id, ((ws[i.2]?).getD (some 0x3F800000)).getD 0x3F800000)

/-- Tables whose versions an assembly item captures when it is dispatched (R300). -/
def State.captureVersions (s : State) (p : Nat) (q : BatchPlan) : List (Nat × Nat) :=
  q.bags.map fun b => (b.table, ((s.table? p b.table).map (·.current)).getD 0)

/-- Pool one bag into its output bytes: none with the status that makes the position a drop. -/
def State.poolOne (s : State) (p : Nat) (versions : List (Nat × Nat)) (mask : Nat) (b : BagSpec) (r : Row) :
    (Status × Bytes) × State :=
  match s.anyTable p b.table with
  | none => ((.badDescriptor, []), s)
  | some t =>
    let ids := if bitOf mask b.feature then [] else bagOf b r
    let v := s.poolBag p t (lookD versions b.table t.current) false b.pool ids
    match v.1 with
    | none => ((.uncorrectable, []), v.2)
    | some row => let o := v.2.outRow p b.outFmt row; ((.ok, o.1), o.2)

/-- The elements of a packed field's list in a row. -/
def listOf (f : PackedField) (r : Row) : List Nat :=
  match rowGet r f.col with
  | .list ws => ws.map fun w => (w.getD 0) % 2 ^ (8 * f.elemSize)
  | .word w => [w % 2 ^ (8 * f.elemSize)]
  | _ => []

/-- The assembly kernel on a position (R185): its status and the assembled sample, from the row that lies at an SA. -/
def State.assemble (s : State) (p e j row len : Nat) (versions : List (Nat × Nat)) : (Status × Option Sample) × State :=
  match s.epoch? p e with
  | none => ((.aborted, none), s)
  | some x =>
    let q := x.plan
    match look (s.part p).images x.handle, s.devRead srcBulk p (2 ^ 62 + row) len with
    | some im, (some b, s) =>
      let a := x.augOf j
      let l := im.layout q.layout
      let ex := q.exprs.foldl (fun (acc : Row × State) i =>
        let o := runExpr (im.program i) l a.2.2.2 acc.1
        (o.2.1, acc.2.tally p o.2.2)) (rowOf l b, s)
      let r := ex.1
      let pooled := q.bags.foldl (fun (acc : (Status × Bytes) × State) b =>
        if acc.1.1 ≠ .ok then acc
        else
          let o := acc.2.poolOne p versions a.2.2.1 b r
          ((o.1.1, acc.1.2 ++ o.1.2), o.2)) ((.ok, []), ex.2)
      let smp : Sample :=
        { gindex := x.index j, weight := a.2.1,
          dense := fitB q.denseBytes (q.denseCols.flatMap fun c => fieldOf (colTy l c) (rowGet r c)),
          pooled := fitB q.pooledBytes pooled.1.2, lists := q.packed.map fun f => listOf f r }
      if pooled.1.1 = .ok then ((.ok, some smp), pooled.2) else ((pooled.1.1, none), pooled.2)
    | _, r => ((.uncorrectable, none), r.2)

/-! ### Filling batches (R187, R188, R191) -/

/-- Counter of a drop's status (Table 7.8). -/
def dropCounter (st : Status) : Nat :=
  match st with
  | .corruptRecord => Ob.DROPS_DATA
  | .badDescriptor => Ob.DROPS_DATA
  | .late => Ob.DROPS_LATE
  | _ => Ob.DROPS_OTHER

/-- The prepared queue after a batch joined it: BATCH_LOW is armed once the count reaches LOW_WATER (R191). -/
def Epoch.queue (x : Epoch) (b : Batch) (next : Nat) : Epoch :=
  let prep := x.prepared ++ [b]
  { x with prepared := prep, filling := Batch.start next,
           armed := x.armed || (x.lowWater ≠ 0 && x.lowWater ≤ prep.length) }

/-- The bytes of a sample's staged row. -/
def Sample.staged (y : Sample) : Bytes := leBytes 8 y.gindex ++ leBytes 4 y.weight ++ leBytes 4 0 ++ y.dense ++ y.pooled

/-- A projection operand's row of pooled values: its runs of 32 elements in A_FMT. -/
def projRow (fmt k : Nat) (pooled : Option Bytes) : List Bytes :=
  let vs := match pooled with | some b => decodeVec fmt k b | none => List.replicate k FVal.zero
  (chunksOf 32 (divUp k 32) vs).map fun c =>
    fitB (runBytes fmt) (encodeVec fmt rne (c ++ List.replicate (32 - c.length) FVal.zero)).1

/-- The pooled values of a closed batch go to the projection operand, one row per slot in slot order; a slot whose values cannot
be read is void, and its row holds zero (R199, R270). -/
def State.toOperand (s : State) (p k : Nat) (q : BatchPlan) (b : Batch) : Batch × State :=
  if !q.proj then (b, s)
  else
    let t := matJob q.template
    let r := (b.slots.zipIdx).foldl (fun (acc : List BatchSlot × State) y =>
      let v := acc.2.devRead srcBulk p (slotAddr q k y.2 + 16 + q.denseBytes) q.pooledBytes
      let w := ((projRow t.aFmt t.k v.1).zipIdx).foldl (fun (u : State) z =>
        (u.devWrite p (operandAddr q + runOffset t.aFmt y.2 (32 * z.2) t.k) z.1).2) v.2
      (acc.1 ++ [{ y.1 with void := y.1.void || v.1.isNone }], w)) ([], s)
    ({ b with slots := r.1 }, r.2)

/-- A closed batch joins the prepared queue.  The plan has one projection operand: the batch writes it once it is next to ship. -/
def State.queueBatch (s : State) (p e : Nat) (x : Epoch) (b : Batch) (next : Nat) (ending : Bool) : State :=
  let r := if x.prepared.isEmpty then s.toOperand p x.batchNo x.plan b else (b, s)
  r.2.setEpoch p e { x.queue r.1 next with ending := ending }

/-- The batch being filled consumes a released position (R187, R188): a sample takes the next slot, its staged row in STAGING; any
other position adds a drop. -/
def State.fillOne (s : State) (p e : Nat) (x : Epoch) (r : Released) : State :=
  let j := r.pos
  let b := x.filling
  let filled : Option Sample := if r.status = .ok then r.smp else none
  let s := match filled with
    | some y => (s.devWrite p (slotAddr x.plan (x.batchNo + x.prepared.length) b.slots.length) y.staged).2
    | none => s.bump (epochKey (dropCounter r.status) p e)
  let b : Batch := match filled with
    | some y => { b with slots := b.slots ++ [{ gindex := y.gindex, lists := y.lists, void := false }], nextPos := j + 1 }
    | none => { b with drops := b.drops ++ [{ gindex := x.index j, status := r.status, stage := if r.hole then 0 else 1, pos := j }],
                       nextPos := j + 1 }
  let last : Bool := j + 1 = x.n
  let x := { x with aug := x.aug.filter fun a => j < a.1 }
  if x.plan.batch ≤ b.slots.length then s.queueBatch p e x b (j + 1) last
  else if last && x.dropLast then
    (s.bump (epochKey Ob.DISCARDED_LAST p e) b.slots.length).setEpoch p e
      { x with filling := Batch.start (j + 1), ending := true }
  else if x.plan.dropCap ≤ b.drops.length then
    (s.bump (epochKey Ob.CAPPED p e)).queueBatch p e x { b with capped := true } (j + 1) last
  else if last then s.queueBatch p e x b (j + 1) true
  else s.setEpoch p e { x with filling := b }

/-- Released positions are consumed in order, with fuel, while STAGING has a buffer for the batch being filled: it holds
PREP_DEPTH + 1 (Table 7.4). -/
def State.consumeReleased (p e : Nat) : Nat → State → State
  | 0, s => s
  | fuel + 1, s =>
    match s.epoch? p e with
    | none => s
    | some x => match x.released with
      | r :: rest =>
        if x.plan.prepDepth < x.prepared.length then s
        else State.consumeReleased p e fuel (s.fillOne p e { x with released := rest } r)
      | [] => s

/-- A position is released to the epoch's batches (R187). -/
def State.fillBatch (s : State) (p e : Nat) (r : Released) : State :=
  match s.epoch? p e with
  | none => s
  | some x => State.consumeReleased p e (x.released.length + 1) (s.setEpoch p e { x with released := x.released ++ [r] })

/-! ### Packing (R198) -/

/-- Where packing stands: row, fill, the pieces placed (row, column, slot, elements) and PFLAGS bits per slot. -/
structure Packing where
  row : Nat
  fill : Nat
  placed : List (Nat × Nat × Nat × List Nat)
  flags : List Nat
  elided : Nat
deriving DecidableEq, Repr

/-- Pack one slot's list of field `f` (R198). -/
def packStep (f : PackedField) (k : Nat) (a : Packing) (s : Nat) (l : List Nat) : Packing :=
  if l.isEmpty then { a with flags := a.flags ++ [0] }
  else
    let long := f.rowLen < l.length
    let l := l.take f.rowLen
    let next := f.rowLen < a.fill + l.length
    let r := if next then a.row + 1 else a.row
    let c := if next then 0 else a.fill
    let t := if long then 16 * 2 ^ k else 0
    if f.packRows ≤ r then { a with row := r, fill := c, flags := a.flags ++ [t + 2 ^ k], elided := a.elided + 1 }
    else { a with row := r, fill := c + l.length, placed := a.placed ++ [(r, c, s, l)], flags := a.flags ++ [t] }

/-- Pack a field of every slot. -/
def packField (f : PackedField) (k : Nat) (lists : List (List Nat)) : Packing :=
  (lists.zipIdx).foldl (fun a l => packStep f k a l.2 l.1) { row := 0, fill := 0, placed := [], flags := [], elided := 0 }

/-- The element table and the marks of a packed field: unused positions hold 0 and 0xFFFF, and so do the positions of
a void slot (R198, R199). -/
def packTables (f : PackedField) (void : Nat → Bool) (a : Packing) : List Nat × List Nat :=
  let n := f.packRows * f.rowLen
  a.placed.foldl (fun (acc : List Nat × List Nat) x =>
    if void x.2.2.1 then acc
    else
      let at' := x.1 * f.rowLen + x.2.1
      let l := x.2.2.2
      (acc.1.take at' ++ l ++ acc.1.drop (at' + l.length),
        acc.2.take at' ++ l.map (fun _ => x.2.2.1 % 65536) ++ acc.2.drop (at' + l.length)))
    (List.replicate n 0, List.replicate n 0xFFFF)

/-! ### Projection at shipping (R270) -/

/-- The projected rows of a batch of `n` slots, in jobs of m rows over the partition's engines: none for a slot whose tile
failed (R199, R270). -/
def State.project (s : State) (p n : Nat) (q : BatchPlan) : List (Option Bytes) × State :=
  let t := matJob q.template
  let me := s.div.units .me p
  if me.2 = 0 then (List.replicate n none, s)
  else
    let m := divUp n (32 * me.2) * 32
    let done := (List.range (if m = 0 then 0 else divUp n m)).foldl (fun (acc : List Bool × State) i =>
      let j := { t with a := operandAddr q + runOffset t.aFmt (i * m) 0 t.k, d := outputAddr q + runOffset t.dFmt (i * m) 0 t.n,
                        m := min m (n - i * m) }
      let r := acc.2.countedJob p (me.1 + i) j
      (acc.1 ++ (List.range j.m).map fun k => decide (k < r.1.2), r.2)) ([], s)
    (done.1.zipIdx).foldl (fun (acc : List (Option Bytes) × State) i =>
      if !i.1 then (acc.1 ++ [none], acc.2)
      else
        let r := (List.range (divUp t.n 32)).foldl (fun (b : Option Bytes × State) c =>
          let x := b.2.devRead srcBulk p (outputAddr q + runOffset t.dFmt i.2 (32 * c) t.n) (runBytes t.dFmt)
          (match b.1, x.1 with | some y, some z => some (y ++ z) | _, _ => none, x.2)) (some [], acc.2)
        (acc.1 ++ [r.1.map (fitB (vecBytes t.dFmt t.n))], r.2)) ([], done.2)

/-! ### Shipping (R192–R199) -/

/-- A slot as it is read at shipping, and whether it is void: a word that carries bytes of it is uncorrectable (R199). -/
def State.readStaged (s : State) (p k i : Nat) (q : BatchPlan) (y : BatchSlot) : (Sample × Bool) × State :=
  let v := s.devRead srcBulk p (slotAddr q k i) (if q.proj then 16 + q.denseBytes else stagedRow q)
  let b := v.1.getD []
  (({ gindex := y.gindex, weight := leAt b 8 4, dense := (b.drop 16).take q.denseBytes, pooled := b.drop (16 + q.denseBytes),
      lists := y.lists }, y.void || v.1.isNone), v.2)

/-- The slots of a batch as shipping reads them, each with the mark of a void slot. -/
def State.readSlots (s : State) (p k : Nat) (q : BatchPlan) (slots : List BatchSlot) : List (Sample × Bool) × State :=
  (slots.zipIdx).foldl (fun (acc : List (Sample × Bool) × State) y =>
    let v := acc.2.readStaged p k y.2 q y.1
    (acc.1 ++ [v.1], v.2)) ([], s)

/-- Bytes of a section: entries of `stride` bytes from each slot, zero where void. -/
def perSlot (stride : Nat) (slots : List (Sample × Bool)) (f : Sample → Bytes) : Bytes :=
  slots.flatMap fun y => if y.2 then List.replicate stride 0 else fitB stride (f y.1)

/-- A SLOT entry (Table 7.7). -/
def slotEntry (y : Sample × Bool) (pflags : Nat) : Bytes :=
  leBytes 8 y.1.gindex ++ leBytes 4 (if y.2 then 0 else y.1.weight) ++
    leBytes 1 (if y.2 then Status.uncorrectable.code else 0) ++ leBytes 1 pflags ++ [0, 0]

/-- A DROP entry (R197). -/
def DropEntry.bytes (d : DropEntry) : Bytes :=
  leBytes 8 d.gindex ++ leBytes 1 d.status.code ++ leBytes 1 d.stage ++ leBytes 6 (d.pos % 2 ^ 48)

/-- A frame section: kind, field, stride, entries, bytes. -/
structure FrameSection where
  kind : Nat
  field : Nat
  stride : Nat
  count : Nat
  bytes : Bytes
deriving DecidableEq, Repr

/-- The sections of a frame (R195), drop record last. -/
def frameSections (q : BatchPlan) (slots : List (Sample × Bool)) (proj : List Bytes) (drops : List DropEntry) : List FrameSection :=
  let packs := (q.packed.zipIdx).map fun f => packField f.1 f.2 (slots.map fun y => (y.1.lists[f.2]?).getD [])
  let void (i : Nat) : Bool := ((slots[i]?).map (·.2)).getD false
  let flags (i : Nat) : Nat := (packs.map fun a => (a.flags[i]?).getD 0).foldl (fun x y => x ||| y) 0
  let tables := (q.packed.zip packs).map fun f => (f.1, packTables f.1 void f.2)
  let body (x : Nat × Nat × Nat × Nat) : Bytes :=
    match x.1 with
    | 1 => (slots.zipIdx).flatMap fun y => slotEntry y.1 (flags y.2)
    | 2 => perSlot x.2.2.1 slots (·.dense)
    | 3 => perSlot x.2.2.1 slots (·.pooled)
    | 4 => proj.flatten
    | 5 => match tables[x.2.1]? with | some t => t.2.1.flatMap (leBytes t.1.elemSize) | none => []
    | _ => match tables[x.2.1]? with | some t => t.2.2.flatMap (leBytes 2) | none => []
  (sectionsOf q slots.length).map (fun x =>
    { kind := x.1, field := x.2.1, stride := x.2.2.1, count := x.2.2.2, bytes := body x }) ++
    [{ kind := 7, field := 0, stride := 16, count := drops.length, bytes := drops.flatMap DropEntry.bytes }]

/-- Sections with their offsets, the first at `at'`. -/
def layoutSections : Nat → List FrameSection → List (Nat × FrameSection)
  | _, [] => []
  | at', x :: xs => (at', x) :: layoutSections (up64 (at' + x.bytes.length)) xs

/-- The frame header (Table 7.5). -/
def frameHeader (x : Epoch) (b : Batch) (flags len samples nsect tick : Nat) : Bytes :=
  leBytes 64 (0x4D524642 + 1 * 2 ^ 32 + flags * 2 ^ 48 + len * 2 ^ 64 + x.epoch * 2 ^ 96 + x.batchNo % 2 ^ 64 * 2 ^ 128 +
    b.firstPos * 2 ^ 192 + b.nextPos * 2 ^ 256 + samples * 2 ^ 320 + b.drops.length % 2 ^ 16 * 2 ^ 352 +
    nsect * 2 ^ 368 + tick * 2 ^ 384 + x.seed * 2 ^ 448)

/-- A directory entry (Table 7.6). -/
def dirEntry (e : Nat × FrameSection) : Bytes :=
  leBytes 16 (e.2.kind + e.2.field * 2 ^ 8 + e.2.stride * 2 ^ 16 + e.2.count * 2 ^ 32 + e.1 * 2 ^ 64)

/-- Writes of a frame into host memory, in order: sections, drop record, header (R192, R194).  The last address of each PEER window
is kept (R129). -/
def State.frameWrites (s : State) (x : Epoch) (ws : List (Nat × Bytes)) : List (Nat × Nat) × State :=
  ws.foldl (fun (acc : List (Nat × Nat) × State) w =>
    if w.2.isEmpty then acc
    else
      (match peerOf x.peers w.1 w.2.length with
        | some i => setAt acc.1 i (w.1 + w.2.length - 4)
        | none => acc.1, acc.2.hostOut x.port w.1 w.2)) ([], s)

/-- The batch that ships is the last of its epoch: every position has been consumed, or DROP_LAST discards whatever the positions
left can still make. -/
def Epoch.lastFrame (x : Epoch) (rest : List Batch) : Bool :=
  let left := x.n - x.filling.nextPos
  rest.isEmpty && !x.aborted && (x.ending || (x.dropLast && left + x.filling.slots.length < x.plan.batch &&
    left + x.filling.drops.length < x.plan.dropCap))

/-- Number of the next completion a ring will take, counted from its enable. -/
def CplRing.nextIndex (r : CplRing) : Nat := r.written + r.held.length

/-- A frame slot is free (R192). -/
def State.slotFree (s : State) (x : Epoch) (slot : Nat) : Bool :=
  match look x.slotsUsed slot with
  | none => true
  | some i => i < ((s.port x.port).cplRing x.frameCq).consumed

/-- A notice of an epoch (R192, R193). -/
def Epoch.notice (x : Epoch) (now result : Nat) (st : Status) (flush : List (Nat × Nat)) : Cpl :=
  { id := 2 ^ 64, tag := x.frameTag, status := st, opcode := 0x11, sq := x.ring, tick := now, result := result,
    signal := false, flush := flush.map (·.2) }

/-- Ship the batch at the front of the prepared queue (R192–R199). -/
def State.shipBatch (s : State) (p e : Nat) (x : Epoch) (b : Batch) (rest : List Batch) : State :=
  let q := x.plan
  let slot := x.batchNo % 2 ^ x.slotsLog2
  let pr := if q.proj then s.project p b.slots.length q else (b.slots.map fun _ => some [], s)
  let v := pr.2.readSlots p x.batchNo q b.slots
  let slots := (v.1.zip pr.1).map fun y => (y.1.1, y.1.2 || y.2.isNone)
  let rowB := vecBytes (matJob q.template).dFmt (matJob q.template).n
  let proj := (slots.zip pr.1).map fun y => if y.1.2 then List.replicate rowB 0 else y.2.getD []
  let secs := frameSections q slots proj b.drops
  let placed := layoutSections (headBytes secs.length) secs
  let len := match placed.getLast? with | some l => l.1 + l.2.bytes.length | none => 0
  let nvoid := (slots.filter (·.2)).length
  let short : Bool := slots.length < q.batch
  let flags := b2n (x.lastFrame rest) + 2 * b2n short + 4 * b2n (nvoid ≠ 0) + 8 * b2n b.capped
  let base := x.frameBase + slot * x.slotUnits * 4096
  let head := frameHeader x b flags len slots.length secs.length s.now ++ placed.flatMap dirEntry
  let w := v.2.frameWrites x (placed.map (fun y => (base + y.1, y.2.bytes)) ++ [(base, head)])
  let s := w.2
  let i := ((s.port x.port).cplRing x.frameCq).nextIndex
  let st : Status := if short || nvoid ≠ 0 then .partialOk else .ok
  let elided := ((q.packed.zipIdx).map fun f =>
    (packField f.1 f.2 (slots.map fun y => (y.1.lists[f.2]?).getD [])).elided).sum
  let s := (s.deliverCpl x.port x.frameCq (x.notice s.now slot st w.1)).2
  let s := (s.bump (epochKey Ob.SHIPPED p e)).bump (epochKey Ob.VOID_SLOTS p e) nvoid
  let s := s.bump (epochKey Ob.PACK_ELIDED p e) elided
  let n := match rest with
    | b :: bs => let o := s.toOperand p (x.batchNo + 1) q b; (o.1 :: bs, o.2)
    | [] => ([], s)
  let s := n.2.setEpoch p e { x with prepared := n.1, batchNo := x.batchNo + 1, slotsUsed := setAt x.slotsUsed slot i }
  State.consumeReleased p e (x.released.length + 1) s

/-- SHIP (R192): batch k leaves once its frame slot is free and Bus Master Enable is set. -/
def execShip (part : PartNo) (epoch : EpochNo) (s : State) : Host.Outcome State Fault Refusal :=
  let p := part.val
  let e := epoch.val
  .next (match s.epoch? p e with
    | some x => match x.prepared with
      | b :: rest =>
        if x.aborted || !(s.port x.port).bme || !s.slotFree x (x.batchNo % 2 ^ x.slotsLog2) then s
        else s.shipBatch p e x b rest
      | [] => s
    | none => s)

/-- An epoch's number becomes free: its gauges and regions with it (R193). -/
def State.freeEpoch (s : State) (p e : Nat) : State :=
  let s := s.setPart p { s.part p with epochs := dropAt (s.part p).epochs e }
  ((s.release 3 (p * 4 + e)).put (epochKey Ob.EPOCH_STATE p e) 0).put (epochKey Ob.PREP_COUNT p e) 0

/-- Write the END notice of an epoch (R193). -/
def State.endNotice (s : State) (p e : Nat) (x : Epoch) : State :=
  let st : Status := if x.aborted then .aborted else .ok
  ((s.deliverCpl x.port x.frameCq (x.notice s.now 4096 st [])).2).freeEpoch p e

/-- END_NOTICE (R193): after the notice of its last frame, with a free entry of FRAME_CQ, an epoch writes its END
notice and its number is free. -/
def execEndNotice (part : PartNo) (epoch : EpochNo) (s : State) : Host.Outcome State Fault Refusal :=
  let p := part.val
  let e := epoch.val
  .next (match s.epoch? p e with
    | some x =>
      let r := (s.port x.port).cplRing x.frameCq
      if x.ending && (x.aborted || x.prepared.isEmpty) && (s.port x.port).bme && !r.blocked && r.held.isEmpty then
        s.endNotice p e x
      else s
    | none => s)

/-- An epoch ends early (R200): the feeder stops and the unshipped batches are discarded. -/
def Epoch.abort (x : Epoch) : Epoch :=
  { x with ending := true, aborted := true, prepared := [], released := [], filling := Batch.start x.filling.nextPos }

end Sys2Proof.Machine
end

