-- ==== Sys2Proof/Machine/Codec.lean ====
section
/-!
DEFINITION. The decoders of the chipper's lanes: deflate streams (RFC 1951) and Zstandard frames (RFC 8878), with an
output limit (R354–R356).
-/
namespace Sys2Proof.Machine

/-- Why a lane gives up: a broken structure (R355), or output beyond the limit (R356). -/
inductive CodeErr where
  | corrupt
  | over
deriving DecidableEq, Repr

/-- What a lane has written: the output after any history, newest byte first; bytes produced; the limit; bytes of
matches farther than 1 MiB. -/
structure Dst where
  out : Bytes
  n : Nat
  limit : Nat
  far : Nat
deriving DecidableEq, Repr

/-- Append bytes, oldest first. -/
def Dst.push (d : Dst) (bs : Bytes) : Except CodeErr Dst :=
  if d.limit < d.n + bs.length then .error .over
  else .ok { d with out := bs.reverse ++ d.out, n := d.n + bs.length }

/-- Copy `k` bytes from `dist` back, one at a time. -/
def copyBack : Nat → Nat → Bytes → Bytes
  | 0, _, out => out
  | k + 1, dist, out => copyBack k dist ((out[dist - 1]?).getD 0 :: out)

/-- Append a match. -/
def Dst.copy (d : Dst) (dist k : Nat) : Except CodeErr Dst :=
  if dist = 0 || d.out.length < dist then .error .corrupt
  else if d.limit < d.n + k then .error .over
  else .ok { d with out := copyBack k dist d.out, n := d.n + k, far := if 2 ^ 20 < dist then d.far + k else d.far }

/-- The bytes produced, oldest first. -/
def Dst.bytes (d : Dst) : Bytes := (d.out.take d.n).reverse

/-! ### Bits -/

/-- The bits of a byte, least significant first. -/
def byteBits (b : Byte) : List Bool := (List.range 8).map fun i => bitOf b.toNat i

/-- The bits of a byte string, least significant of the first byte first. -/
def bitsLsb (bs : Bytes) : List Bool := bs.flatMap byteBits

/-- The number that bits spell, least significant first. -/
def numLsb : List Bool → Nat
  | [] => 0
  | b :: r => b2n b + 2 * numLsb r

/-- Take `n` bits as a number, least significant first. -/
def takeLsb (n : Nat) (b : List Bool) : Except CodeErr (Nat × List Bool) :=
  if b.length < n then .error .corrupt else .ok (numLsb (b.take n), b.drop n)

/-! ### Deflate -/

/-- A canonical Huffman code: how many codes of each length 0–15, and the symbols in code order. -/
structure Canon where
  counts : List Nat
  syms : List Nat

/-- The code of a list of lengths. -/
def canonOf (lens : List Nat) : Canon :=
  { counts := (List.range 16).map fun l => (lens.filter (· == l)).length
    syms := (List.range 15).flatMap fun l => (lens.zipIdx.filter fun x => x.1 == l + 1).map (·.2) }

/-- Codes left over after each length is used: negative where there are too many. -/
def Canon.left (c : Canon) : Int := ((c.counts.drop 1).foldl (fun (l : Int) (n : Nat) => 2 * l - n) 1)

/-- Codes in use. -/
def Canon.used (c : Canon) : Nat := c.syms.length

/-- Decode one symbol. -/
def Canon.decode (c : Canon) : Nat → Nat → Nat → Nat → List Bool → Except CodeErr (Nat × List Bool)
  | 0, _, _, _, _ => .error .corrupt
  | _ + 1, _, _, _, [] => .error .corrupt
  | fuel + 1, code, first, index, b :: r =>
    let len := 16 - (fuel + 1)
    let code := code + b2n b
    let count := (c.counts[len]?).getD 0
    if code < first + count then
      match c.syms[index + (code - first)]? with
      | some s => .ok (s, r)
      | none => .error .corrupt
    else c.decode fuel (2 * code) (2 * (first + count)) (index + count) r

/-- Decode one symbol of a code. -/
def Canon.next (c : Canon) (b : List Bool) : Except CodeErr (Nat × List Bool) := c.decode 15 0 0 0 b

/-- Base and extra bits of length codes 257–285 and distance codes 0–29 (RFC 1951). -/
def lenBase : List (Nat × Nat) :=
  [(3, 0), (4, 0), (5, 0), (6, 0), (7, 0), (8, 0), (9, 0), (10, 0), (11, 1), (13, 1), (15, 1), (17, 1), (19, 2),
   (23, 2), (27, 2), (31, 2), (35, 3), (43, 3), (51, 3), (59, 3), (67, 4), (83, 4), (99, 4), (115, 4), (131, 5),
   (163, 5), (195, 5), (227, 5), (258, 0)]
def distBase : List (Nat × Nat) :=
  [(1, 0), (2, 0), (3, 0), (4, 0), (5, 1), (7, 1), (9, 2), (13, 2), (17, 3), (25, 3), (33, 4), (49, 4), (65, 5),
   (97, 5), (129, 6), (193, 6), (257, 7), (385, 7), (513, 8), (769, 8), (1025, 9), (1537, 9), (2049, 10), (3073, 10),
   (4097, 11), (6145, 11), (8193, 12), (12289, 12), (16385, 13), (24577, 13)]

/-- The symbols of a Huffman block up to its end. -/
def deflateCodes (lc dc : Canon) : Nat → Dst → List Bool → Except CodeErr (Dst × List Bool)
  | 0, _, _ => .error .corrupt
  | fuel + 1, d, b => do
    let (s, b) ← lc.next b
    if s < 256 then
      let d ← d.push [BitVec.ofNat 8 s]
      deflateCodes lc dc fuel d b
    else if s = 256 then .ok (d, b)
    else
      match lenBase[s - 257]? with
      | none => .error .corrupt
      | some (lb, le) =>
        let (x, b) ← takeLsb le b
        let (q, b) ← dc.next b
        match distBase[q]? with
        | none => .error .corrupt
        | some (db, de) =>
          let (y, b) ← takeLsb de b
          if 32768 < db + y then .error .corrupt
          else
            let d ← d.copy (db + y) (lb + x)
            deflateCodes lc dc fuel d b

/-- The fixed codes. -/
def fixedLit : Canon :=
  canonOf (List.replicate 144 8 ++ List.replicate 112 9 ++ List.replicate 24 7 ++ List.replicate 8 8)
def fixedDist : Canon := canonOf (List.replicate 30 5)

/-- The code lengths of a dynamic block, run-length coded. -/
def dynLengths (c : Canon) : Nat → Nat → List Nat → List Bool → Except CodeErr (List Nat × List Bool)
  | 0, _, _, _ => .error .corrupt
  | fuel + 1, want, acc, b =>
    if want ≤ acc.length then (if acc.length = want then .ok (acc, b) else .error .corrupt)
    else do
      let (s, b) ← c.next b
      if s < 16 then dynLengths c fuel want (acc ++ [s]) b
      else if s = 16 then
        let (k, b) ← takeLsb 2 b
        match acc.getLast? with
        | none => .error .corrupt
        | some v => dynLengths c fuel want (acc ++ List.replicate (3 + k) v) b
      else if s = 17 then
        let (k, b) ← takeLsb 3 b
        dynLengths c fuel want (acc ++ List.replicate (3 + k) 0) b
      else
        let (k, b) ← takeLsb 7 b
        dynLengths c fuel want (acc ++ List.replicate (11 + k) 0) b

/-- The order in which code-length code lengths are sent. -/
def clOrder : List Nat := [16, 17, 18, 0, 8, 7, 9, 6, 10, 5, 11, 4, 12, 3, 13, 2, 14, 1, 15]

/-- Read `n` code-length code lengths. -/
def clLengths : Nat → List Nat → List Bool → Except CodeErr (List Nat × List Bool)
  | 0, acc, b => .ok (acc, b)
  | n + 1, acc, b => do
    let (x, b) ← takeLsb 3 b
    clLengths n (acc ++ [x]) b

/-- The codes of a dynamic block. -/
def dynCodes (b : List Bool) : Except CodeErr (Canon × Canon × List Bool) := do
  let (hlit, b) ← takeLsb 5 b
  let (hdist, b) ← takeLsb 5 b
  let (hclen, b) ← takeLsb 4 b
  let nlen := hlit + 257
  let ndist := hdist + 1
  if 286 < nlen || 30 < ndist then .error .corrupt
  else
    let (cl, b) ← clLengths (hclen + 4) [] b
    let cc := canonOf ((List.range 19).map fun i => match clOrder.findIdx? (· == i) with
      | some j => (cl[j]?).getD 0
      | none => 0)
    if cc.left ≠ 0 then .error .corrupt
    else
      let (ls, b) ← dynLengths cc 400 (nlen + ndist) [] b
      let lc := canonOf (ls.take nlen)
      let dc := canonOf (ls.drop nlen)
      if (ls[256]?).getD 0 = 0 || lc.left < 0 || (0 < lc.left && lc.used ≠ 1) || dc.left < 0 ||
          (0 < dc.left && 1 < dc.used) then .error .corrupt
      else .ok (lc, dc, b)

/-- A stored block. -/
def storedBlock (d : Dst) (b : List Bool) : Except CodeErr (Dst × List Bool) := do
  let b := b.drop (b.length % 8)
  let (len, b) ← takeLsb 16 b
  let (nlen, b) ← takeLsb 16 b
  if len + nlen ≠ 65535 || b.length < 8 * len then .error .corrupt
  else
    let d ← d.push ((chunksOf 8 (len + 1) (b.take (8 * len))).map fun x => BitVec.ofNat 8 (numLsb x))
    .ok (d, b.drop (8 * len))

/-- The blocks of a deflate stream, up to the final one. -/
def deflateBlocks : Nat → Dst → List Bool → Except CodeErr (Dst × List Bool)
  | 0, _, _ => .error .corrupt
  | fuel + 1, d, b => do
    let (final, b) ← takeLsb 1 b
    let (kind, b) ← takeLsb 2 b
    let (d, b) ← (match kind with
      | 0 => storedBlock d b
      | 1 => deflateCodes fixedLit fixedDist (b.length + 1) d b
      | 2 => do
        let (lc, dc, b) ← dynCodes b
        deflateCodes lc dc (b.length + 1) d b
      | _ => .error .corrupt)
    if final = 1 then .ok (d, b) else deflateBlocks fuel d b

/-- Decode one deflate stream: the output and the whole bytes left after it. -/
def inflate (limit : Nat) (history src : Bytes) : Except CodeErr (Dst × Bytes) := do
  let b := bitsLsb src
  let (d, b) ← deflateBlocks (b.length + 1) { out := history.reverse, n := 0, limit := limit, far := 0 } b
  .ok (d, src.drop (src.length - b.length / 8))

/-! ### XXH64 (the content checksum of Zstandard) -/

/-- 64-bit arithmetic of XXH64. -/
def xmul (a b : Nat) : Nat := a * b % 2 ^ 64
def xadd (a b : Nat) : Nat := (a + b) % 2 ^ 64
def rotl64 (x n : Nat) : Nat := (x * 2 ^ n) % 2 ^ 64 ||| x / 2 ^ (64 - n)

/-- The primes of XXH64. -/
def xp1 : Nat := 0x9E3779B185EBCA87
def xp2 : Nat := 0xC2B2AE3D27D4EB4F
def xp3 : Nat := 0x165667B19E3779F9
def xp4 : Nat := 0x85EBCA77C2B2AE63
def xp5 : Nat := 0x27D4EB2F165667C5

/-- One round of an accumulator. -/
def xxRound (acc lane : Nat) : Nat := xmul (rotl64 (xadd acc (xmul lane xp2)) 31) xp1

/-- Merge an accumulator into the hash. -/
def xxMerge (h acc : Nat) : Nat := xadd (xmul (h ^^^ xxRound 0 acc) xp1) xp4

/-- The bytes left after whole 32 B stripes. -/
def xxTail : Nat → Nat → Bytes → Nat
  | 0, h, _ => h
  | fuel + 1, h, b =>
    if 8 ≤ b.length then
      xxTail fuel (xadd (xmul (rotl64 (h ^^^ xxRound 0 (leAt b 0 8)) 27) xp1) xp4) (b.drop 8)
    else if 4 ≤ b.length then
      xxTail fuel (xadd (xmul (rotl64 (h ^^^ xmul (leAt b 0 4) xp1) 23) xp2) xp3) (b.drop 4)
    else match b with
      | [] => h
      | c :: r => xxTail fuel (xmul (rotl64 (h ^^^ xmul c.toNat xp5) 11) xp1) r

/-- XXH64 of a byte string with seed 0. -/
def xxh64 (m : Bytes) : Nat :=
  let stripes := (chunksOf 32 (m.length + 1) m).filter (·.length == 32)
  let h :=
    if m.length < 32 then xp5
    else
      let v0 := [xadd xp1 xp2, xp2, 0, 2 ^ 64 - xp1]
      let v := stripes.foldl (fun v s => (v.zip [0, 8, 16, 24]).map fun x => xxRound x.1 (leAt s x.2 8)) v0
      match v with
      | [a, b, c, d] =>
        let h := xadd (xadd (rotl64 a 1) (rotl64 b 7)) (xadd (rotl64 c 12) (rotl64 d 18))
        xxMerge (xxMerge (xxMerge (xxMerge h a) b) c) d
      | _ => 0
  let h := xadd h m.length
  let h := xxTail (m.length + 1) h (m.drop (m.length / 32 * 32))
  let h := xmul (h ^^^ h / 2 ^ 33) xp2
  let h := xmul (h ^^^ h / 2 ^ 29) xp3
  h ^^^ h / 2 ^ 32

/-! ### Zstandard: entropy tables -/

/-- A finite-state entropy table: its accuracy, and each state's symbol, bits to read and base of the next state. -/
structure Fse where
  log : Nat
  cells : List (Nat × Nat × Nat)
deriving DecidableEq, Repr

/-- Next position of the spread that is below the low-probability symbols. -/
def fseStep (size high : Nat) : Nat → Nat → Nat
  | 0, p => p
  | fuel + 1, p =>
    let q := (p + (size / 2 + size / 8 + 3)) % size
    if high ≤ q then fseStep size high fuel q else q

/-- Spread symbols over the positions of a table. -/
def fseSpread (size high : Nat) : List Nat → Nat → List (Option Nat) → List (Option Nat)
  | [], _, t => t
  | s :: r, p, t => fseSpread size high r (fseStep size high size p) (t.set p (some s))

/-- The table of a distribution: a probability of −1 is given as `none`. -/
def fseBuild (log : Nat) (freq : List (Option Nat)) : Fse :=
  let size := 2 ^ log
  let low := (freq.zipIdx.filter fun x => x.1.isNone).map (·.2)
  let high := size - low.length
  let t0 : List (Option Nat) := List.replicate size none
  let t1 := (low.zipIdx).foldl (fun t x => t.set (size - 1 - x.2) (some x.1)) t0
  let syms := freq.zipIdx.flatMap fun x => match x.1 with | some n => List.replicate n x.2 | none => []
  let t2 := (fseSpread size high syms 0 t1).map (·.getD 0)
  let start (s : Nat) : Nat := match freq[s]? with | some (some n) => n | _ => 1
  let cells := (t2.foldl (fun (acc : List (Nat × Nat × Nat) × List (Nat × Nat)) s =>
    let next := lookD acc.2 s (start s)
    let nb := log - next.log2
    (acc.1 ++ [(s, nb, next * 2 ^ nb - size)], setAt acc.2 s (next + 1))) ([], [])).1
  { log := log, cells := cells }

/-- A table of one symbol. -/
def fseRle (s : Nat) : Fse := { log := 0, cells := [(s, 0, 0)] }

/-- Zero probabilities that follow one: runs of up to three. -/
def fseZeros : Nat → List Bool → Except CodeErr (Nat × List Bool)
  | 0, _ => .error .corrupt
  | fuel + 1, b => do
    let (k, b) ← takeLsb 2 b
    if k = 3 then
      let (m, b) ← fseZeros fuel b
      .ok (3 + m, b)
    else .ok (k, b)

/-- The probabilities of a distribution. -/
def fseProbs : Nat → Nat → List (Option Nat) → List Bool → Except CodeErr (List (Option Nat) × List Bool)
  | 0, _, _, _ => .error .corrupt
  | fuel + 1, remaining, acc, b =>
    if remaining = 0 then .ok (acc, b)
    else do
      let bits := (remaining + 1).log2 + 1
      let (v, b') ← takeLsb bits (b ++ List.replicate (bits - b.length) false)
      let mask := 2 ^ (bits - 1) - 1
      let thr := 2 ^ bits - 1 - (remaining + 1)
      let short := v % 2 ^ (bits - 1) < thr
      let val := if short then v % 2 ^ (bits - 1) else if mask < v then v - thr else v
      let b := if short then b.drop (bits - 1) else b'
      if remaining < (if val = 0 then 1 else val - 1) then .error .corrupt
      else if val = 0 then fseProbs fuel (remaining - 1) (acc ++ [none]) b
      else if val = 1 then
        let (k, b) ← fseZeros 100 b
        fseProbs fuel remaining (acc ++ List.replicate (k + 1) (some 0)) b
      else fseProbs fuel (remaining - (val - 1)) (acc ++ [some (val - 1)]) b

/-- Read a table description from the start of a byte string: the table and the bytes after it. -/
def fseRead (maxLog maxSyms : Nat) (src : Bytes) : Except CodeErr (Fse × Bytes) := do
  let b := bitsLsb (src.take 512)
  let (l, b) ← takeLsb 4 b
  let log := l + 5
  if maxLog < log then .error .corrupt
  else
    let (p, r) ← fseProbs 1024 (2 ^ log) [] b
    if maxSyms < p.length then .error .corrupt
    else .ok (fseBuild log p, src.drop ((src.take 512).length - r.length / 8))

/-- A backward bit stream: the bits still to read, first one first, and how many were read past its end. -/
structure Back where
  bits : List Bool
  past : Nat

/-- Open a backward stream: the highest set bit of the last byte marks its end. -/
def backOpen (src : Bytes) : Except CodeErr Back :=
  match src.getLast? with
  | none => .error .corrupt
  | some l =>
    if l = 0 then .error .corrupt
    else .ok { bits := ((bitsLsb src).reverse.dropWhile (! ·)).drop 1, past := 0 }

/-- Read `n` bits of a backward stream, most significant first; bits past the end read zero. -/
def Back.read (b : Back) (n : Nat) : Nat × Back :=
  let t := b.bits.take n
  let v := t.foldl (fun v x => 2 * v + b2n x) 0
  (v * 2 ^ (n - t.length), { bits := b.bits.drop n, past := b.past + (n - t.length) })

/-- The cell of a state. -/
def Fse.cell (t : Fse) (st : Nat) : Nat × Nat × Nat := (t.cells[st]?).getD (0, 0, 0)

/-- The next state. -/
def Fse.step (t : Fse) (st : Nat) (b : Back) : Nat × Back :=
  let (v, b) := b.read (t.cell st).2.1
  ((t.cell st).2.2 + v, b)

/-- Huffman weights coded by two interleaved states. -/
def hufWeights (t : Fse) : Nat → Nat → Nat → Back → List Nat → Except CodeErr (List Nat)
  | 0, _, _, _, _ => .error .corrupt
  | fuel + 1, s1, s2, b, acc =>
    let acc := acc ++ [(t.cell s1).1]
    let (n1, b) := t.step s1 b
    if b.past ≠ 0 then .ok (acc ++ [(t.cell s2).1])
    else hufWeights t fuel s2 n1 b acc

/-- A Huffman table: its longest code, and the symbol and code length of each prefix. -/
structure Huf where
  bits : Nat
  cells : List (Nat × Nat)
deriving DecidableEq, Repr

/-- The table of a list of weights, its last one implied. -/
def hufBuild (ws : List Nat) : Except CodeErr Huf :=
  let total := (ws.map fun w => if w = 0 then 0 else 2 ^ (w - 1)).sum
  if total = 0 || ws.any (12 < ·) then .error .corrupt
  else
    let bits := total.log2 + 1
    let rest := 2 ^ bits - total
    if 11 < bits || 2 ^ rest.log2 ≠ rest then .error .corrupt
    else
      let ws := ws ++ [rest.log2 + 1]
      .ok { bits := bits
            cells := (List.range bits).flatMap fun i => (ws.zipIdx.filter fun x => x.1 == i + 1).flatMap fun x =>
              List.replicate (2 ^ i) (x.2, bits - i) }

/-- Read a Huffman table description. -/
def hufRead (src : Bytes) : Except CodeErr (Huf × Bytes) :=
  match src with
  | [] => .error .corrupt
  | h :: r => do
    let k := h.toNat
    if 128 ≤ k then
      let n := k - 127
      let bytes := (n + 1) / 2
      if r.length < bytes then .error .corrupt
      else
        let ws := ((r.take bytes).flatMap fun b => [b.toNat / 16, b.toNat % 16]).take n
        let t ← hufBuild ws
        .ok (t, r.drop bytes)
    else if r.length < k then .error .corrupt
    else
      let (t, body) ← fseRead 6 12 (r.take k)
      let b ← backOpen body
      let (s1, b) := b.read t.log
      let (s2, b) := b.read t.log
      let ws ← hufWeights t 300 s1 s2 b []
      if 255 < ws.length then .error .corrupt
      else
        let t ← hufBuild ws
        .ok (t, r.drop k)

/-- Decode `n` literals of one Huffman stream; every bit must be used. -/
def hufDecode (t : Huf) : Nat → Back → Bytes → Except CodeErr Bytes
  | 0, b, acc => if b.bits = [] && b.past = 0 then .ok acc.reverse else .error .corrupt
  | n + 1, b, acc =>
    let (s, len) := (t.cells[(b.read t.bits).1]?).getD (0, 1)
    let b := (b.read len).2
    if b.past ≠ 0 then .error .corrupt else hufDecode t n b (BitVec.ofNat 8 s :: acc)

/-- Decode one Huffman stream of bytes. -/
def hufStream (t : Huf) (n : Nat) (src : Bytes) : Except CodeErr Bytes := do
  let b ← backOpen src
  hufDecode t n b []

/-! ### Zstandard: blocks -/

/-- What blocks of a frame hand on: entropy tables and repeated offsets. -/
structure ZCtx where
  huf : Option Huf
  ll : Option Fse
  of : Option Fse
  ml : Option Fse
  r1 : Nat
  r2 : Nat
  r3 : Nat
deriving DecidableEq, Repr

/-- At the start of a frame without a formatted dictionary. -/
def ZCtx.start : ZCtx := { huf := none, ll := none, of := none, ml := none, r1 := 1, r2 := 4, r3 := 8 }

/-- The literals section: the literals, the tables, the bytes after it. -/
def zLiterals (z : ZCtx) (src : Bytes) : Except CodeErr (Bytes × ZCtx × Bytes) :=
  let h := leAt src 0 1
  let kind := h % 4
  let fmt := h / 4 % 4
  if src.isEmpty then .error .corrupt
  else if kind ≤ 1 then
    let (hs, n) := if fmt % 2 = 0 then (1, h / 8) else if fmt = 1 then (2, leAt src 0 2 / 16) else (3, leAt src 0 3 / 16)
    let r := src.drop hs
    if src.length < hs || 131072 < n then .error .corrupt
    else if kind = 0 then if r.length < n then .error .corrupt else .ok (r.take n, z, r.drop n)
    else match r with
      | b :: r => .ok (List.replicate n b, z, r)
      | [] => .error .corrupt
  else
    let (hs, w) := if fmt ≤ 1 then (3, 10) else if fmt = 2 then (4, 14) else (5, 18)
    let v := leAt src 0 hs
    let n := v / 16 % 2 ^ w
    let cs := v / 2 ^ (4 + w) % 2 ^ w
    let r := src.drop hs
    if src.length < hs || r.length < cs || 131072 < n then .error .corrupt
    else do
      let body := r.take cs
      let (t, body) ← (if kind = 2 then hufRead body
        else match z.huf with | some t => .ok (t, body) | none => .error .corrupt)
      let lits ← (if fmt = 0 then hufStream t n body
        else
          let (a, b, c) := (leAt body 0 2, leAt body 2 2, leAt body 4 2)
          let q := (n + 3) / 4
          let s := body.drop 6
          if body.length < 6 || s.length < a + b + c || n < 3 * q then .error .corrupt
          else do
            let x1 ← hufStream t q (s.take a)
            let x2 ← hufStream t q ((s.drop a).take b)
            let x3 ← hufStream t q ((s.drop (a + b)).take c)
            let x4 ← hufStream t (n - 3 * q) (s.drop (a + b + c))
            .ok (x1 ++ x2 ++ x3 ++ x4))
      .ok (lits, { z with huf := some t }, r.drop cs)

/-- Predefined distributions of literal lengths, match lengths and offsets (RFC 8878). -/
def llDefault : Fse :=
  fseBuild 6 (([4, 3, 2, 2, 2, 2, 2, 2, 2, 2, 2, 2, 2, 1, 1, 1, 2, 2, 2, 2, 2, 2, 2, 2, 2, 3, 2, 1, 1, 1, 1, 1].map some) ++
    List.replicate 4 none)
def mlDefault : Fse :=
  fseBuild 6 (([1, 4, 3, 2, 2, 2, 2, 2, 2] ++ List.replicate 37 1).map some ++ List.replicate 7 none)
def ofDefault : Fse :=
  fseBuild 5 (([1, 1, 1, 1, 1, 1, 2, 2, 2] ++ List.replicate 15 1).map some ++ List.replicate 5 none)

/-- Base and extra bits of a literal-length and of a match-length code. -/
def llCode (c : Nat) : Nat × Nat :=
  if c < 16 then (c, 0)
  else (([(16, 1), (18, 1), (20, 1), (22, 1), (24, 2), (28, 2), (32, 3), (40, 3), (48, 4), (64, 6), (128, 7), (256, 8),
    (512, 9), (1024, 10), (2048, 11), (4096, 12), (8192, 13), (16384, 14), (32768, 15), (65536, 16)])[c - 16]?).getD (0, 0)
def mlCode (c : Nat) : Nat × Nat :=
  if c < 32 then (c + 3, 0)
  else (([(35, 1), (37, 1), (39, 1), (41, 1), (43, 2), (47, 2), (51, 3), (59, 3), (67, 4), (83, 4), (99, 5), (131, 7),
    (259, 8), (515, 9), (1027, 10), (2051, 11), (4099, 12), (8195, 13), (16387, 14), (32771, 15), (65539, 16)])[c - 32]?).getD
      (0, 0)

/-- The table of one symbol kind by its mode. -/
def zTable (mode maxLog maxSyms : Nat) (dflt : Fse) (prev : Option Fse) (src : Bytes) : Except CodeErr (Fse × Bytes) :=
  match mode with
  | 0 => .ok (dflt, src)
  | 1 => match src with
    | b :: r => if maxSyms ≤ b.toNat then .error .corrupt else .ok (fseRle b.toNat, r)
    | [] => .error .corrupt
  | 2 => fseRead maxLog maxSyms src
  | _ => match prev with
    | some t => .ok (t, src)
    | none => .error .corrupt

/-- The offset that an offset value stands for, and the repeated offsets after it. -/
def ZCtx.offset (z : ZCtx) (ov ll : Nat) : Nat × ZCtx :=
  if 3 < ov then (ov - 3, { z with r1 := ov - 3, r2 := z.r1, r3 := z.r2 })
  else
    match ov - 1 + (if ll = 0 then 1 else 0) with
    | 0 => (z.r1, z)
    | 1 => (z.r2, { z with r1 := z.r2, r2 := z.r1 })
    | 2 => (z.r3, { z with r1 := z.r3, r2 := z.r1, r3 := z.r2 })
    | _ => (z.r1 - 1, { z with r1 := z.r1 - 1, r2 := z.r1, r3 := z.r2 })

/-- Where the frame's output begins and how far its window reaches. -/
structure ZFrame where
  start : Nat
  window : Nat

/-- An offset may reach data of the frame within the window, or the dictionary while the output fits the window. -/
def ZFrame.reach (f : ZFrame) (d : Dst) (off : Nat) : Bool :=
  let made := d.n - f.start
  if off ≤ made then off ≤ f.window else made ≤ f.window

/-- Execute the sequences of a block. -/
def zSequences (f : ZFrame) (tl tf tm : Fse) : Nat → Nat → Nat → Nat → Back → Bytes → ZCtx → Dst →
    Except CodeErr (Bytes × ZCtx × Dst)
  | 0, _, _, _, b, lits, z, d => if b.bits = [] && b.past = 0 then .ok (lits, z, d) else .error .corrupt
  | n + 1, sl, so, sm, b, lits, z, d => do
    let oc := (tf.cell so).1
    let (x, b) := b.read oc
    let (mb, me) := mlCode (tm.cell sm).1
    let (y, b) := b.read me
    let (lb, le) := llCode (tl.cell sl).1
    let (w, b) := b.read le
    let (sl, b) := if n = 0 then (sl, b) else tl.step sl b
    let (sm, b) := if n = 0 then (sm, b) else tm.step sm b
    let (so, b) := if n = 0 then (so, b) else tf.step so b
    let ll := lb + w
    if b.past ≠ 0 || lits.length < ll then .error .corrupt
    else
      let (off, z) := z.offset (2 ^ oc + x) ll
      let d ← d.push (lits.take ll)
      if !f.reach d off then .error .corrupt
      else
        let d ← d.copy off (mb + y)
        zSequences f tl tf tm n sl so sm b (lits.drop ll) z d

/-- A compressed block. -/
def zBlock (f : ZFrame) (z : ZCtx) (d : Dst) (src : Bytes) : Except CodeErr (ZCtx × Dst) := do
  let (lits, z, r) ← zLiterals z src
  let b0 := leAt r 0 1
  let (n, hs) := if b0 < 128 then (b0, 1) else if b0 < 255 then ((b0 - 128) * 256 + leAt r 1 1, 2)
    else (leAt r 1 2 + 0x7F00, 3)
  if r.length < hs then .error .corrupt
  else
    let r := r.drop hs
    if n = 0 then
      if !r.isEmpty then .error .corrupt
      else
        let d ← d.push lits
        .ok (z, d)
    else match r with
      | [] => .error .corrupt
      | m :: r =>
        let mode := m.toNat
        if mode % 4 ≠ 0 then .error .corrupt
        else
          let (tl, r) ← zTable (mode / 64) 9 36 llDefault z.ll r
          let (tf, r) ← zTable (mode / 16 % 4) 8 32 ofDefault z.of r
          let (tm, r) ← zTable (mode / 4 % 4) 9 53 mlDefault z.ml r
          let b ← backOpen r
          let (sl, b) := b.read tl.log
          let (so, b) := b.read tf.log
          let (sm, b) := b.read tm.log
          let (lits, z, d) ← zSequences f tl tf tm n sl so sm b lits { z with ll := some tl, of := some tf, ml := some tm } d
          let d ← d.push lits
          .ok (z, d)

/-- The blocks of a frame. -/
def zBlocks (f : ZFrame) : Nat → ZCtx → Dst → Bytes → Except CodeErr (Dst × Bytes)
  | 0, _, _, _ => .error .corrupt
  | fuel + 1, z, d, src => do
    let h := leAt src 0 3
    let last := h % 2 = 1
    let kind := h / 2 % 4
    let size := h / 8
    let r := src.drop 3
    let most := min f.window 131072
    if src.length < 3 || kind = 3 || most < size then .error .corrupt
    else
      let (z, d', r) ← (match kind with
        | 0 => if r.length < size then .error .corrupt else do
          let d ← d.push (r.take size)
          .ok (z, d, r.drop size)
        | 1 => match r with
          | b :: r => do
            let d ← d.push (List.replicate size b)
            .ok (z, d, r)
          | [] => .error .corrupt
        | _ => if r.length < size then .error .corrupt else do
          let (z, d) ← zBlock f z d (r.take size)
          .ok (z, d, r.drop size))
      if most < d'.n - d.n then .error .corrupt
      else if last then .ok (d', r) else zBlocks f fuel z d' r

/-! ### Zstandard: dictionaries and frames -/

/-- A dictionary as a lane uses it: its entropy state and its content. -/
structure ZDict where
  ctx : ZCtx
  content : Bytes

/-- Read a formatted dictionary after its magic and ID. -/
def zDictRead (src : Bytes) : Except CodeErr ZDict := do
  let (h, r) ← hufRead (src.drop 8)
  let (tf, r) ← fseRead 8 32 r
  let (tm, r) ← fseRead 9 53 r
  let (tl, r) ← fseRead 9 36 r
  let (a, b, c) := (leAt r 0 4, leAt r 4 4, leAt r 8 4)
  let content := r.drop 12
  if r.length < 12 || a = 0 || b = 0 || c = 0 || content.length < a || content.length < b || content.length < c then
    .error .corrupt
  else .ok { ctx := { huf := some h, ll := some tl, of := some tf, ml := some tm, r1 := a, r2 := b, r3 := c },
             content := content }

/-- A dictionary of bytes: formatted where it begins with the magic, else raw content. -/
def zDictOf (b : Bytes) : ZDict :=
  if leAt b 0 4 = 0xEC30A437 then
    match zDictRead b with
    | .ok d => d
    | .error _ => { ctx := ZCtx.start, content := [] }
  else { ctx := ZCtx.start, content := b }

/-- The header of a Zstandard frame: window, content size, dictionary ID, checksum flag, bytes of the header. -/
structure ZHead where
  window : Nat
  size : Option Nat
  dict : Nat
  checksum : Bool
  len : Nat

/-- Read a frame header after its magic number (R355). -/
def zHead (src : Bytes) : Except CodeErr ZHead :=
  let d := leAt src 4 1
  let single := bitOf d 5
  let wl := if single then 0 else 1
  let dl := [0, 1, 2, 4].getD (d % 4) 0
  let fl := match d / 64 with | 0 => if single then 1 else 0 | 1 => 2 | 2 => 4 | _ => 8
  let len := 5 + wl + dl + fl
  if src.length < len || bitOf d 3 then .error .corrupt
  else
    let w := leAt src 5 1
    let size := if fl = 0 then none else some (leAt src (5 + wl + dl) fl + (if fl = 2 then 256 else 0))
    let base := 2 ^ (10 + w / 8)
    let window := if single then size.getD 0 else base + base / 8 * (w % 8)
    if 2 ^ 23 < window then .error .corrupt
    else .ok { window := window, size := size, dict := leAt src (5 + wl) dl, checksum := bitOf d 2, len := len }

/-- The first magic number is that of a skippable frame. -/
def zSkippable (src : Bytes) : Bool := leAt src 0 4 / 16 = 0x184D2A5

/-- Decode one frame, skippable or not, onto the output: the output and the bytes after it.  `dicts` gives the
dictionary of an ID, 0 being the command's own (R354–R356). -/
def zFrame (dicts : Nat → Option Bytes) (d : Dst) (src : Bytes) : Except CodeErr (Dst × Bytes) :=
  if src.length < 4 then .error .corrupt
  else if zSkippable src then
    if src.length < 8 + leAt src 4 4 || src.length < 8 then .error .corrupt else .ok (d, src.drop (8 + leAt src 4 4))
  else if leAt src 0 4 ≠ 0xFD2FB528 then .error .corrupt
  else do
    let h ← zHead src
    let dict ← (match dicts h.dict with
      | some b => .ok (zDictOf b)
      | none => if h.dict = 0 then .ok { ctx := ZCtx.start, content := [] } else .error .corrupt)
    match h.size with
    | some n => if d.limit < d.n + n then Except.error CodeErr.over else pure ()
    | none => pure ()
    let hist := dict.content.reverse
    let d0 : Dst := { out := hist, n := 0, limit := d.limit - d.n, far := 0 }
    let (e, r) ← zBlocks { start := 0, window := h.window } (src.length + 1) dict.ctx d0
      (src.drop h.len)
    let made := e.bytes
    if (h.size.any (· != made.length)) then .error .corrupt
    else if h.checksum && (r.length < 4 || leAt r 0 4 ≠ xxh64 made % 2 ^ 32) then .error .corrupt
    else
      .ok ({ d with out := made.reverse ++ d.out, n := d.n + made.length, far := d.far + e.far },
        if h.checksum then r.drop 4 else r)

/-- Decode every frame of an input, with fuel (R354). -/
def zFrames (dicts : Nat → Option Bytes) : Nat → Dst → Bytes → Except CodeErr Dst
  | 0, _, _ => .error .corrupt
  | fuel + 1, d, src =>
    if src.isEmpty then .ok d
    else do
      let (d, r) ← zFrame dicts d src
      zFrames dicts fuel d r

end Sys2Proof.Machine
end

