-- ==== Sys2Proof/Machine/Ingest.lean ====
section
/-!
DEFINITION. The walkers: from the packets of a stream to objects, records and items of the decode flow (R155, R156,
R164, R167–R175).
-/
namespace Sys2Proof.Machine

/-! ### The bytes a walker walks -/

/-- Object bytes not yet walked: those taken, or for a compressed object those decompressed. -/
def Stream.source (x : Stream) : Bytes := if x.codec = 0 then x.buffer else x.staged

/-- No further byte of the object can come. -/
def Stream.sourceEnds (x : Stream) : Bool := x.lastTaken && (x.codec = 0 || x.buffer.isEmpty)

/-- Drop bytes from a list of address runs. -/
def dropSegs : Nat → List (Nat × Nat) → List (Nat × Nat)
  | _, [] => []
  | k, (a, n) :: r => if n ≤ k then dropSegs (k - n) r else (a + k, n - k) :: r

/-- Drop bytes taken.  Once none is left, every packet taken has been consumed and its slot is freed (R157). -/
def Stream.dropBuffer (x : Stream) (k : Nat) : Stream :=
  { x with buffer := x.buffer.drop k, segs := dropSegs k x.segs, freed := if x.buffer.length ≤ k then x.taken else x.freed }

/-- Drop bytes of the source. -/
def Stream.eat (x : Stream) (k : Nat) : Stream :=
  if x.codec = 0 then x.dropBuffer k else { x with staged := x.staged.drop k }

/-- A place in the staging regions, which the manual leaves open: the one that a run of bytes takes after packet `taken`. -/
def Stream.stageAddr (x : Stream) (k : Nat) : Nat :=
  (x.rxFirst + x.rxRegions) * 65536 + Config.free (2 ^ 68 + x.taken * 2 ^ 32 + k) % (x.stageRegions * 65536)

/-- Landing-buffer address of the byte `k` of the source: that of its receive slot, or its place in the staging regions. -/
def Stream.addrAt (x : Stream) (k : Nat) : Nat :=
  if x.codec = 0 && x.stagedCount.isNone then
    match dropSegs k x.segs with
    | (a, _) :: _ => a
    | [] => 0
  else x.stageAddr k

/-- The walker, or the chipper, has read all bytes at hand and needs more: those of a part of a record, line or block that has
not ended wait in staging, and the slots of the packets taken are freed (R157). -/
def Stream.stash (x : Stream) : Stream :=
  { x with freed := x.taken, segs := if x.buffer.isEmpty then [] else [(x.stageAddr 0, x.buffer.length)] }

/-- SEQ of the packet the walker took last. -/
def Stream.lastSeq (x : Stream) : Nat := (x.taken + 2 ^ 32 - 1) % 2 ^ 32

/-- Output limit of a decompression job and size limit of a block (R168). -/
def Stream.stageLimit (x : Stream) : Nat := x.stageRegions * 32768

/-! ### Records and holes (R167, R175) -/

/-- ARG1 of a record's item. -/
def recordArg1 (id object : Nat) : Nat := id + object % 2 ^ 32 * 2 ^ 16

/-- Enqueue one record. -/
def State.frameRecord (s : State) (p id : Nat) (x : Stream) (addr : Nat) (bytes : Bytes) : State :=
  let w : Work := .record x.decoderTable id x.openNo x.object x.maxField x.fields bytes
  ((s.enqueueBolt p x.decodeFlow (mkItem 0x7FF 0 bytes.length addr (recordArg1 id x.object) .ok w)).2).bump
    (at_ Ob.RECORDS_FRAMED p)

/-- Enqueue one hole. -/
def State.frameHole (s : State) (p id : Nat) (x : Stream) (addr : Nat) : State :=
  let w : Work := .hole id x.openNo x.object 0
  (((s.enqueueBolt p x.decodeFlow (mkItem 0x7FF 0 0 addr (recordArg1 id x.object) .corruptRecord w)).2).bump
    (at_ Ob.RECORDS_FRAMED p)).bump (at_ Ob.CORRUPT_RECORDS p)

/-- Enqueue `n` holes. -/
def State.frameHoles (s : State) (p id : Nat) (x : Stream) (n : Nat) : State :=
  (List.range n).foldl (fun t _ => t.frameHole p id x (x.addrAt 0)) s

/-- ERROR to the sender about the walker's last packet. -/
def State.walkError (s : State) (id : Nat) (x : Stream) (st : Status) : State :=
  s.sendError x.peer 1 id x.lastSeq st x.object

/-- Reject the object (R169, R174): its remaining bytes are skipped. -/
def State.rejectObject (s : State) (p id : Nat) (x : Stream) : State :=
  ((s.setStream p id { x with phase := .skipObject, staged := [], stagedCount := none }).walkError id x
    .corruptRecord).bump (at_ Ob.OBJECTS_REJECTED p)

/-- Cut the object short because of its content (Table 6.10): counted, its remaining bytes skipped. -/
def State.cutObject (s : State) (p id : Nat) (x : Stream) (error : Bool) : State :=
  let s := (s.setStream p id { x with phase := .skipObject, staged := [], stagedCount := none }).bump
    (at_ Ob.OBJECTS_TRUNCATED p)
  if error then s.walkError id x .corruptRecord else s

/-- The object is finished: the next one has the next number (R156). -/
def Stream.nextObject (x : Stream) : Stream :=
  { x with object := x.object + 1, offset := 0, inObject := false, buffer := [], segs := [], freed := x.taken,
           lastTaken := false, phase := .header, staged := [], stagedCount := none, lineBroken := false }

/-- The object's bytes are used up: what is missing decides how it ends (R169, R174, R175).  A fixed-record object that ends
after a good header and before the records it declares is truncated; `head` says that the header was good. -/
def State.finishObject (s : State) (p id : Nat) (x : Stream) (head : Bool) : State :=
  let t := s.setStream p id x.nextObject
  match x.phase with
  | .header =>
    if head then t.bump (at_ Ob.OBJECTS_TRUNCATED p)
    else (t.walkError id x .corruptRecord).bump (at_ Ob.OBJECTS_REJECTED p)
  | .skipObject => t
  | .excess => t
  | .scanSync => t.bump (at_ Ob.BYTES_SKIPPED p) x.source.length
  | .blocks =>
    if x.format = 2 then if x.recLeft = 0 then t else t.bump (at_ Ob.OBJECTS_TRUNCATED p)
    else if x.source.isEmpty || x.lineBroken then t else t.bump (at_ Ob.OBJECTS_TRUNCATED p)

/-! ### Taking packets (R156, R157, R164) -/

/-- Begin an object with a packet. -/
def Stream.begin (x : Stream) (k : HeldPacket) (addr : Nat) : Stream :=
  { x with object := k.object, offset := k.bytes.length, inObject := true, skipping := false, buffer := k.bytes,
           segs := [(addr, k.bytes.length)], lastTaken := bitOf k.flags 1, phase := .header, staged := [],
           stagedCount := none, lineBroken := false }

/-- A packet that fails the checks of R156 ends the object; packets are skipped up to one with FIRST.  DESIGN CHOICE (log 162):
where the failing packet itself has FIRST and offset 0, it begins the next object. -/
def State.badPacket (s : State) (p id : Nat) (x : Stream) (k : HeldPacket) (addr : Nat) : State :=
  let s := if x.inObject then s.truncate p id x else s.setStream p id x
  let s := s.walkError id x .badDescriptor
  let y := (s.stream? p id).getD x
  s.setStream p id (if bitOf k.flags 0 && k.offset = 0 then y.begin k addr else { y with skipping := true, freed := y.taken })

/-- The packet begins an object as R156 demands. -/
def HeldPacket.opens (k : HeldPacket) : Bool := bitOf k.flags 0 && k.offset == 0

/-- A packet that the walker has taken, in SEQ order (R156). -/
def State.consume (s : State) (p id : Nat) (x : Stream) (k : HeldPacket) (addr : Nat) : State :=
  if k.bytes.isEmpty then s.setStream p id { x with freed := x.taken }
  else if x.inObject then
    if !bitOf k.flags 0 && k.object = x.object && k.offset = x.offset then
      s.setStream p id { x with offset := x.offset + k.bytes.length, buffer := x.buffer ++ k.bytes,
                                segs := x.segs ++ [(addr, k.bytes.length)], lastTaken := bitOf k.flags 1 }
    else s.badPacket p id x k addr
  else if x.skipping then
    if !bitOf k.flags 0 then s.setStream p id { x with freed := x.taken }
    else if k.opens then s.setStream p id (x.begin k addr)
    else s.badPacket p id x k addr
  else if k.opens && k.object = x.object then s.setStream p id (x.begin k addr)
  else s.badPacket p id x k addr

/-- Take the next packet in SEQ order where it has been received and the current object needs bytes. -/
def State.takePacket (s : State) (p id : Nat) (x : Stream) : Option State :=
  if x.lastTaken || x.ended then none
  else match x.held.find? (·.1 == x.taken) with
    | none => none
    | some (seq, k) =>
      let x := x.stash
      let x := { x with held := x.held.filter (·.1 != seq), taken := (seq + 1) % 2 ^ 32, ended := bitOf k.flags 2 }
      some (s.consume p id x k (x.slotAddr seq))

/-- The END packet and everything before it have been consumed (R164, R242). -/
def State.endStream (s : State) (p id : Nat) (x : Stream) : State :=
  let s := if x.inObject then s.truncate p id x else s
  let y := (s.stream? p id).getD x
  let s := (s.setStream p id { y with sstate := 3 }).sendCredit p id { y with sstate := 3 } false
  s.streamMark p x

/-! ### Compressed units at hand (R168) -/

/-- A dictionary of a partition by ID. -/
def State.dict (s : State) (p id : Nat) : Option Bytes :=
  if id = 0 then none else (look (s.part p).dicts id).map (·.bytes)

/-- Bytes of the blocks of a Zstandard frame after its header, by their headers. -/
def zBlocksLen : Nat → Nat → Bytes → Parse Nat
  | 0, _, _ => .bad
  | fuel + 1, n, b =>
    if b.length < 3 then .more
    else
      let h := leAt b 0 3
      let k := 3 + (if h / 2 % 4 = 1 then 1 else h / 8)
      if h / 2 % 4 = 3 then .bad
      else if b.length < k then .more
      else if h % 2 = 1 then .ok (n + k) (b.drop k)
      else zBlocksLen fuel (n + k) (b.drop k)

/-- Bytes of the frame that a byte string begins with. -/
def zUnitLen (b : Bytes) : Parse Nat :=
  if b.length < 9 then .more
  else if zSkippable b then if b.length < 8 + leAt b 4 4 then .more else .ok (8 + leAt b 4 4) (b.drop (8 + leAt b 4 4))
  else if leAt b 0 4 ≠ 0xFD2FB528 then .bad
  else match zHead b with
    | .error _ => .bad
    | .ok h => match zBlocksLen (b.length + 1) h.len (b.drop h.len) with
      | .more => .more
      | .bad => .bad
      | .ok n r => if !h.checksum then .ok n r else if r.length < 4 then .more else .ok (n + 4) (r.drop 4)

/-- The next compressed unit of a JSON or fixed-record object: its bytes; none while more of it is to come. -/
def Stream.unit (x : Stream) : Option Bytes :=
  if x.buffer.isEmpty then none
  else if x.codec = 1 then
    match zUnitLen x.buffer with
    | .ok n _ => some (x.buffer.take n)
    | .bad => some x.buffer
    | .more => if x.lastTaken then some x.buffer else none
  else
    match inflate x.stageLimit [] x.buffer with
    | .ok (_, r) => some (x.buffer.take (x.buffer.length - r.length))
    | .error .over => some x.buffer
    | .error .corrupt => if x.lastTaken then some x.buffer else none

/-- More bytes, the end of the object, or the end of the stream, which comes once no compressed unit is left. -/
def State.moreBytes (s : State) (p id : Nat) (x : Stream) (head : Bool := false) : Option State :=
  match s.takePacket p id x with
  | some t => some t
  | none =>
    if x.inObject && x.sourceEnds then some (s.finishObject p id x head)
    else if x.ended && !x.lastTaken then
      if x.inObject && x.codec ≠ 0 && x.phase ≠ .skipObject && x.unit.isSome then none else some (s.endStream p id x)
    else if x.freed = x.taken then none
    else some (s.setStream p id x.stash)

/-! ### Avro (R169, R170) -/

/-- The metadata map of a header: pairs of key and value. -/
def avroMeta : Nat → Nat → List (Bytes × Bytes) → Bytes → Parse (List (Bytes × Bytes))
  | 0, _, _, _ => .bad
  | fuel + 1, left, acc, b =>
    if left = 0 then
      match avroLong b with
      | .more => .more
      | .bad => .bad
      | .ok n r =>
        if n = 0 then .ok acc r
        else if 0 < n then avroMeta fuel n.toNat acc r
        else match avroLong r with
          | .more => .more
          | .bad => .bad
          | .ok size r => if size < 0 then .bad else avroMeta fuel n.natAbs acc r
    else match avroBytes b with
      | .more => .more
      | .bad => .bad
      | .ok k r => match avroBytes r with
        | .more => .more
        | .bad => .bad
        | .ok v r => avroMeta fuel (left - 1) (acc ++ [(k, v)]) r

/-- The codec a metadata value names: 0 null, 1 deflate, 2 zstandard. -/
def avroCodecOf (m : List (Bytes × Bytes)) : Option Nat :=
  match m.find? fun e => e.1 == ascii "avro.codec" with
  | none => some 0
  | some e =>
    if e.2 = ascii "null" then some 0 else if e.2 = ascii "deflate" then some 1
    else if e.2 = ascii "zstandard" then some 2 else none

/-- Read an Avro object header (R169): codec, sync marker, bytes of the header. -/
def avroHeader (t : DecoderTable) (b : Bytes) : Parse (Nat × Bytes) :=
  if b.length < 4 then .more
  else if b.take 4 ≠ [0x4F, 0x62, 0x6A, 0x01] then .bad
  else match avroMeta (b.length + 2) 0 [] (b.drop 4) with
    | .more => if 65536 + 4 < b.length then .bad else .more
    | .bad => .bad
    | .ok m r =>
      if 65536 < b.length - 4 - r.length then .bad
      else if r.length < 16 then .more
      else match m.find? fun e => e.1 == ascii "avro.schema", avroCodecOf m with
        | some e, some c => if t.hashes.contains (sha256 e.2) then .ok (c, r.take 16) (r.drop 16) else .bad
        | _, _ => .bad

/-- Walk the records of a block: the bytes of those that walked, and the bytes left; none left where a walk failed. -/
def avroBlock (schema : List AvroField) (maxField : Nat) : Nat → Bytes → List Bytes × Option Bytes
  | 0, b => ([], some b)
  | n + 1, b =>
    match avroRecord schema maxField b with
    | none => ([], none)
    | some (_, r) =>
      let q := avroBlock schema maxField n r
      (b.take (b.length - r.length) :: q.1, q.2)

/-- Enqueue the records of a block, from an offset of the source. -/
def State.frameAll (s : State) (p id : Nat) (x : Stream) (off : Nat) (recs : List Bytes) : State :=
  (recs.foldl (fun (acc : State × Nat) r => (acc.1.frameRecord p id x (x.addrAt acc.2) r, acc.2 + r.length)) (s, off)).1

/-- Deliver a block whose walk is done (Table 6.10): its records, then holes for those that did not walk; holes for all where
the walk stopped short of the block's end or its sync marker does not follow. -/
def State.avroDeliver (s : State) (p id : Nat) (x : Stream) (count off : Nat) (w : List Bytes × Option Bytes) (marker : Bool) :
    State :=
  if marker && w.2.all (·.isEmpty) then (s.frameAll p id x off w.1).frameHoles p id x (count - w.1.length)
  else s.frameHoles p id x count

/-- The next block of an Avro object: its count, its size and where its data starts. -/
def avroBlockHead (b : Bytes) : Parse (Int × Int) :=
  match avroLong b with
  | .more => .more
  | .bad => .bad
  | .ok c r => match avroLong r with
    | .more => .more
    | .bad => .bad
    | .ok n r => .ok (c, n) r

/-- The counts that Table 6.10 refuses. -/
def avroBadHead (h : Int × Int) : Bool := h.1 < 0 || 65536 < h.1 || h.2 < 0

/-- Walk one uncompressed or staged block; none where more bytes, or the chipper, are needed.  True where a block has
been delivered.  Where the walk of an uncompressed block ends short of the block, or no sync marker follows it, the scan for
the marker begins where the walk ended. -/
def State.walkAvro (s : State) (p id : Nat) (x : Stream) (t : DecoderTable) : Option (Bool × State) :=
  match x.stagedCount with
  | some n =>
    let y := { x with staged := [], stagedCount := none }
    some (true, (s.setStream p id y).avroDeliver p id x n 0 (avroBlock t.schema x.maxField n x.staged) true)
  | none =>
    match avroBlockHead x.buffer with
    | .more => (s.moreBytes p id x).map fun u => (false, u)
    | .bad => some (true, s.cutObject p id x true)
    | .ok h r =>
      if avroBadHead h then some (true, s.cutObject p id x true)
      else
        let size := h.2.toNat
        let count := h.1.toNat
        if r.length < size + 16 then (s.moreBytes p id x).map fun u => (false, u)
        else if x.avroCodec ≠ 0 then none
        else
          let marker := (r.drop size).take 16 == x.sync
          let off := x.buffer.length - r.length
          let w := if x.stageLimit < size then ([], none) else avroBlock t.schema x.maxField count (r.take size)
          let left := (w.2.map (·.length)).getD 0
          let y := if marker && left = 0 then x.dropBuffer (off + size + 16)
            else { x.dropBuffer (off + size - left) with phase := .scanSync }
          some (true, (s.setStream p id y).avroDeliver p id x count off w marker)

/-- Position of a sync marker in a byte string. -/
def findSync (sync : Bytes) : Nat → Bytes → Option Nat
  | _, [] => none
  | i, b :: r => if (b :: r).take 16 == sync then some i else findSync sync (i + 1) r

/-- Scan forward for the sync marker, counting the bytes skipped (Table 6.10). -/
def State.walkScan (s : State) (p id : Nat) (x : Stream) : Option State :=
  match findSync x.sync 0 x.buffer with
  | some i =>
    some ((s.setStream p id { x.dropBuffer (i + 16) with phase := .blocks }).bump (at_ Ob.BYTES_SKIPPED p) i)
  | none =>
    if 15 < x.buffer.length then
      let k := x.buffer.length - 15
      some ((s.setStream p id (x.dropBuffer k)).bump (at_ Ob.BYTES_SKIPPED p) k)
    else s.moreBytes p id x

/-! ### JSON Lines (R173) -/

/-- Walk one line of the source. -/
def State.walkJson (s : State) (p id : Nat) (x : Stream) : Option State :=
  let b := x.source
  match b.findIdx? (· == 0x0A) with
  | some i =>
    let line := b.take i
    let line := match line.getLast? with | some c => if c = 0x0D then line.dropLast else line | none => line
    let y := { x.eat (i + 1) with lineBroken := false }
    let u := s.setStream p id y
    if x.lineBroken || line.isEmpty then some u
    else if 1048576 < line.length then some (u.frameHole p id x (x.addrAt 0))
    else some (u.frameRecord p id x (x.addrAt 0) line)
  | none =>
    if x.lineBroken && !b.isEmpty then some (s.setStream p id (x.eat b.length))
    else if 1048577 < b.length then
      some ((s.setStream p id { x.eat b.length with lineBroken := true }).frameHole p id x (x.addrAt 0))
    else s.moreBytes p id x

/-! ### Fixed records (R174) -/

/-- The field table of a fixed-record object. -/
def fieldTable (n : Nat) (b : Bytes) : List (Nat × Nat × Nat × Nat) :=
  (List.range n).map fun i =>
    (leAt b (8 * i) 2, leAt b (8 * i + 2) 1, leAt b (8 * i + 3) 1, leAt b (8 * i + 4) 2)

/-- The header checks of R174 that need only its 64 bytes. -/
def fixedHeadOk (t : DecoderTable) (h : Bytes) : Bool :=
  let recLen := leAt h 8 4
  leAt h 0 4 = 0x31524647 && leAt h 4 2 = 1 && leAt h 6 2 < 2 && 8 ≤ recLen && recLen ≤ 65536 && recLen % 8 = 0 &&
    1 ≤ leAt h 12 2 && leAt h 12 2 ≤ 256 && leAt h 14 2 = 0 && leAt h 56 4 = 0 && leAt h 60 4 = crc32c (h.take 60) &&
    t.hashes.contains (sliceB h 24 32)

/-- A field table is within its ranges. -/
def fieldsOk (recLen : Nat) (fs : List (Nat × Nat × Nat × Nat)) : Bool :=
  fs.all fun f => match fixedLen f.2.1 f.2.2.2 with
    | some n => f.1 + n ≤ recLen
    | none => false

/-- Walk the header of a fixed-record object. -/
def State.walkFixedHead (s : State) (p id : Nat) (x : Stream) (t : DecoderTable) : Option State :=
  let b := x.source
  if b.length < 64 then s.moreBytes p id x
  else if !fixedHeadOk t b then some (s.rejectObject p id x)
  else
    let n := leAt b 12 2
    if b.length < 64 + 8 * n then s.moreBytes p id x true
    else
      let tab := (b.drop 64).take (8 * n)
      if sha256 tab ≠ sliceB b 24 32 || !fieldsOk (leAt b 8 4) (fieldTable n tab) then some (s.rejectObject p id x)
      else
        some (s.setStream p id { x.eat (64 + 8 * n) with
          phase := if leAt b 16 8 = 0 then .excess else .blocks, recLen := leAt b 8 4, recLeft := leAt b 16 8,
          rcrc := leAt b 6 2 = 1, fields := fieldTable n tab })

/-- Walk one fixed record. -/
def State.walkFixed (s : State) (p id : Nat) (x : Stream) : Option State :=
  let b := x.source
  if b.length < x.recLen then s.moreBytes p id x
  else
    let body := b.take x.recLen
    let y := { x.eat x.recLen with recLeft := x.recLeft - 1, phase := if x.recLeft = 1 then .excess else .blocks }
    let u := s.setStream p id y
    if x.rcrc && crc32c (body.take (x.recLen - 4)) ≠ leAt body (x.recLen - 4) 4 then some (u.frameHole p id x (x.addrAt 0))
    else some (u.frameRecord p id x (x.addrAt 0) body)

/-! ### One action of a walker -/

/-- Walk the header of an Avro object. -/
def State.walkAvroHead (s : State) (p id : Nat) (x : Stream) (t : DecoderTable) : Option State :=
  match avroHeader t x.buffer with
  | .more => s.moreBytes p id x
  | .bad => some (s.rejectObject p id x)
  | .ok h r =>
    some (s.setStream p id { x.dropBuffer (x.buffer.length - r.length) with phase := .blocks, avroCodec := h.1, sync := h.2 })

/-- Skip the bytes at hand of an object that is being skipped; excess bytes of a fixed-record object are counted. -/
def State.walkSkip (s : State) (p id : Nat) (x : Stream) (count : Bool) : Option State :=
  let n := if count then x.source.length else x.buffer.length + x.staged.length
  if n = 0 then s.moreBytes p id x
  else
    let y := if count then x.eat n else { x.dropBuffer x.buffer.length with staged := [] }
    let u := s.setStream p id y
    some (if count then u.bump (at_ Ob.BYTES_SKIPPED p) n else u)

/-- The decoder table of a stream's image; an image that is gone gives a table that accepts nothing. -/
def State.tableOf (s : State) (p : Nat) (x : Stream) : DecoderTable :=
  (s.decoderTable p x.decoderTable).getD
    { format := x.format, hashes := [], layout := 0, schema := [], json := [], fixedCols := [],
      partKeys := [], partSeed := 0, binds := [] }

/-- One action of a stream's walker: none where nothing can be done; true where an object block has been delivered.  It skips a
stream whose enqueue is stalled, unless the stream is being closed (`last`), which processes what it holds (R155, R167). -/
def State.walk (s : State) (p id : Nat) (last : Bool := false) : Option (Bool × State) :=
  match s.stream? p id with
  | none => none
  | some x =>
    let t := s.tableOf p x
    let plain (r : Option State) : Option (Bool × State) := r.map fun u => (false, u)
    if x.sstate ≠ 1 || (!last && s.isStalled p x.decodeFlow) then none
    else if !x.inObject then plain (s.moreBytes p id x)
    else match x.phase, x.format with
      | .skipObject, _ => plain (s.walkSkip p id x false)
      | .excess, _ => plain (s.walkSkip p id x true)
      | .scanSync, _ => plain (s.walkScan p id x)
      | .header, 0 => plain (s.walkAvroHead p id x t)
      | .blocks, 0 => s.walkAvro p id x t
      | .header, 1 => some (false, s.setStream p id { x with phase := .blocks })
      | .blocks, 1 => plain (s.walkJson p id x)
      | .header, _ => plain (s.walkFixedHead p id x t)
      | .blocks, _ => plain (s.walkFixed p id x)

/-- Bytes of a stream's object that wait to be walked. -/
def State.walkLeft (s : State) (p id : Nat) : Nat :=
  ((s.stream? p id).map fun x => x.buffer.length + x.staged.length).getD 0

/-- A turn of the walker (R167): one object block, or 64 KiB of bytes walked, with fuel. -/
def State.walkTurn : Nat → State → Nat → Nat → Nat → State
  | 0, s, _, _, _ => s
  | fuel + 1, s, p, id, done =>
    match s.walk p id with
    | none => s
    | some (true, t) => t
    | some (false, t) =>
      let done := done + (s.walkLeft p id - t.walkLeft p id)
      if 65536 ≤ done then t else State.walkTurn fuel t p id done

/-- The decoder whose walker a stream has: stream ID mod the partition's decoders, counted from the lowest (R167). -/
def State.walkerOf (s : State) (p id : Nat) : Nat := (s.div.units .rd p).1 + id % (s.div.units .rd p).2

/-- It is the stream's turn at its walker: no other stream of the walker that can be walked comes before it in rotation, in
rising order of stream ID after the one served last (R167). -/
def State.walkTurnOf (s : State) (p id : Nat) : Bool :=
  let d := s.walkerOf p id
  let last := lookD (s.part p).walkers d 4095
  let after (i : Nat) : Nat := (i + 4096 - (last + 1)) % 4096
  ((s.part p).streams.map (·.1)).all fun i =>
    i == id || s.walkerOf p i != d || after id < after i || (s.walk p i).isNone

/-- WALK_RECORDS (R167). -/
def execWalkRecords (part : PartNo) (stream : StreamNo) (s : State) : Host.Outcome State Fault Refusal :=
  let p := part.val
  let id := stream.val
  .next (if (s.walk p id).isSome && s.walkTurnOf p id then
      let t := State.walkTurn 131072 s p id 0
      t.setPart p { t.part p with walkers := setAt (t.part p).walkers (s.walkerOf p id) id }
    else s)

/-! ### Compressed units (R168) -/

/-- Decode a whole unit of exactly the given bytes within a limit: Zstandard frames, or one deflate stream. -/
def State.decodeUnit (s : State) (p : Nat) (deflate : Bool) (limit : Nat) (b : Bytes) : Except CodeErr Dst :=
  let d : Dst := { out := [], n := 0, limit := limit, far := 0 }
  if deflate then
    match inflate limit [] b with
    | .ok (e, r) => if r.isEmpty then .ok e else .error .corrupt
    | .error e => .error e
  else zFrames (s.dict p) (b.length + 1) d b

/-- Count a job of a decompression lane. -/
def State.countUnit (s : State) (p : Nat) (r : Except CodeErr Dst) : State :=
  match r with
  | .ok d => ((s.bump (at_ Ob.CHIP_OUT_BYTES p) d.n).bump (at_ Ob.CHIP_FAR_BYTES p) d.far).addWork p 4 d.n
  | .error .corrupt => s.bump (at_ Ob.CHIP_CORRUPT p)
  | .error .over => s.bump (at_ Ob.CHIP_EXPANSION p)

/-- A whole line, record, header or excess byte of an object waits in staging to be walked. -/
def Stream.stagedUnit (x : Stream) (t : DecoderTable) : Bool :=
  if x.format = 1 then x.staged.contains 0x0A
  else match x.phase with
    | .header => 64 ≤ x.staged.length && (!fixedHeadOk t x.staged || 64 + 8 * leAt x.staged 12 2 ≤ x.staged.length)
    | .blocks => decide (x.recLen ≤ x.staged.length)
    | _ => !x.staged.isEmpty

/-- A unit of a JSON or fixed-record object (R168, Table 6.10).  A unit that fails waits until what earlier units gave has been
walked, since output is walked in stream order. -/
def State.objectUnit (s : State) (p id : Nat) (x : Stream) : State :=
  match x.unit with
  | none => s
  | some b =>
    let y := x.dropBuffer b.length
    let r := s.decodeUnit p (x.codec == 2) x.stageLimit b
    match r with
    | .ok d => (s.countUnit p r).setStream p id { y with staged := y.staged ++ d.bytes }
    | .error _ =>
      if x.stagedUnit (s.tableOf p x) then s
      else
      let s := s.countUnit p r
      if x.format = 1 then
        let f := s.free
        (f.2.setStream p id { y with staged := [], lineBroken := true }).frameHoles p id x (1 + f.1 % x.stageLimit)
      else s.cutObject p id y false

/-- A compressed block of an Avro object (R168, R170, Table 6.10). -/
def State.avroUnit (s : State) (p id : Nat) (x : Stream) : State :=
  match avroBlockHead x.buffer with
  | .ok h r =>
    let size := h.2.toNat
    let count := h.1.toNat
    if avroBadHead h || r.length < size + 16 then s
    else
      let marker := (r.drop size).take 16 == x.sync
      let y := x.dropBuffer (x.buffer.length - r.length + size + (if marker then 16 else 0))
      let res : Except CodeErr Dst :=
        if (s.div.units .chipD p).2 = 0 then .error .corrupt
        else s.decodeUnit p (x.avroCodec == 1) x.stageLimit (r.take size)
      let s := if (s.div.units .chipD p).2 = 0 then s else s.countUnit p res
      if !marker then (s.setStream p id { y with phase := .scanSync }).frameHoles p id x count
      else match res with
        | .ok d => s.setStream p id { y with staged := d.bytes, stagedCount := some count }
        | .error _ => (s.setStream p id y).frameHoles p id x count
  | _ => s

/-- Decompress the next unit of a stream where one is at hand. -/
def State.decompressUnit (s : State) (p id : Nat) (last : Bool := false) : State :=
  match s.stream? p id with
  | none => s
  | some x =>
    if x.sstate ≠ 1 || !x.inObject || (!last && s.isStalled p x.decodeFlow) then s
    else if x.format = 0 then
      if x.phase = .blocks && x.avroCodec ≠ 0 && x.stagedCount.isNone then s.avroUnit p id x else s
    else if x.codec ≠ 0 && x.phase ≠ .skipObject then s.objectUnit p id x
    else s

/-- A block of an Avro object is in the buffer whole. -/
def Stream.blockWhole (x : Stream) : Bool :=
  match avroBlockHead x.buffer with
  | .ok h r => !avroBadHead h && h.2.toNat + 16 ≤ r.length
  | _ => false

/-- The next compressed unit of a stream is at hand. -/
def State.unitAtHand (s : State) (p id : Nat) : Bool :=
  match s.stream? p id with
  | none => false
  | some x =>
    x.sstate = 1 && x.inObject && !s.isStalled p x.decodeFlow &&
      (if x.format = 0 then x.phase = .blocks && x.avroCodec ≠ 0 && x.stagedCount.isNone && x.blockWhole
       else x.codec ≠ 0 && x.phase ≠ .skipObject && x.unit.isSome)

/-- The lowest decompression lane that may take a unit of the chipper ingest flow at a priority now (R85, R352). -/
def State.unitLane (s : State) (p prio : Nat) : Option Nat :=
  (span (s.div.units .chipD p).1 (s.div.units .chipD p).2).find? fun u =>
    s.takes p .chipD u .bulk && s.mayServe p .chipD u (ingestFlow p) .bulk prio

/-- A stream's unit leaves the chipper ingest flow. -/
def State.dropUnit (s : State) (p id : Nat) : State :=
  s.setPart p { s.part p with chipUnits := (s.part p).chipUnits.filter (·.1 != id) }

/-- COMPRESSED_UNIT (R168, R352, R362): a unit at hand joins the chipper ingest flow; one that waits there is decompressed once the
dispatcher gives it a lane.  Without lanes an Avro block cannot be decompressed and is not enqueued. -/
def execCompressedUnit (part : PartNo) (stream : StreamNo) (s : State) : Host.Outcome State Fault Refusal :=
  let p := part.val
  let id := stream.val
  .next (
    if !s.unitAtHand p id then s.dropUnit p id
    else if (s.div.units .chipD p).2 = 0 then s.decompressUnit p id
    else match (s.part p).chipUnits.find? (·.1 == id) with
      | none => s.setPart p { s.part p with chipUnits := (s.part p).chipUnits ++ [(id, s.get Ob.CHIP_INGEST_PRIO)] }
      | some e => match s.unitLane p e.2 with
        | none => s
        | some u => ((s.noteTurn p .chipD u (ingestFlow p) e.2).dropUnit p id).decompressUnit p id)

/-! ### The close (R155) -/

/-- Process everything a stream holds in order, with fuel. -/
def State.walkAll : Nat → State → Nat → Nat → State
  | 0, s, _, _ => s
  | fuel + 1, s, p, id =>
    match s.walk p id true with
    | some (_, t) => State.walkAll fuel t p id
    | none =>
      let t := s.decompressUnit p id true
      if t.stream? p id = s.stream? p id then s else State.walkAll fuel t p id

/-- Close a stream: what is left of it is discarded, its regions are released and an end mark follows its last record
(R155, R242). -/
def State.closeStream (s : State) (p id : Nat) (x : Stream) : State :=
  let s := s.countCut p x
  let s := if x.sstate = 1 then s.streamMark p x else s
  ((s.setPart p { s.part p with streams := dropAt (s.part p).streams id }).dropUnit p id).release 2 id

/-- STREAM_CLOSE_EDGE (R155). -/
def execStreamCloseEdge (part : PartNo) (stream : StreamNo) (s : State) : Host.Outcome State Fault Refusal :=
  let p := part.val
  let id := stream.val
  .next (match s.stream? p id with
    | some x =>
      if !x.closing then s
      else
        let s := State.walkAll 4194304 s p id
        match s.stream? p id with
        | some y => (s.closeStream p id y).answer .streamClose id .ok
        | none => s
    | none => s)

end Sys2Proof.Machine
end

