-- ==== Sys2Proof/Machine/Pipeline.lean ====
section
/-!
DEFINITION. Pipeline images: header and sections, content checks, PIPE_LOAD, PIPE_RUN of a graph and PIPE_STOP
(R235–R245, R335, R336).
-/
namespace Sys2Proof.Machine

/-! ### Header and section table (R235, R236) -/

/-- An entry of the section table (Table 9.2). -/
structure Section where
  kind : Nat
  rsvd : Nat
  count : Nat
  off : Nat
  len : Nat
  crc : Nat
deriving DecidableEq, Repr

/-- The section table of an image. -/
def imageSections (b : Bytes) : List Section :=
  (List.range (leAt b 20 2)).map fun i =>
    let o := 64 + 16 * i
    { kind := leAt b o 1, rsvd := leAt b (o + 1) 1, count := leAt b (o + 2) 2, off := leAt b (o + 4) 4,
      len := leAt b (o + 8) 4, crc := leAt b (o + 12) 4 }

/-- The image is signed. -/
def imageSigned (b : Bytes) : Bool := bitOf (leAt b 6 2) 0

/-- The header holds what R235 asks. -/
def headerOk (b : Bytes) (len : Nat) : Bool :=
  let h := leNat (sliceB b 0 64)
  let signed := bitsOf h 127 96
  bitsOf h 31 0 = 0x474D4950 && bitsOf h 47 32 = 1 && bitsOf h 63 49 = 0 && bitsOf h 95 64 = len &&
    signed % 64 = 0 && signed ≤ len && (bitOf h 48 || signed = len) && 1 ≤ bitsOf h 175 160 && bitsOf h 175 160 ≤ 64 &&
    1 ≤ bitsOf h 183 176 && bitsOf h 183 176 ≤ 20 && bitsOf h 191 184 = 0 && 1 ≤ bitsOf h 207 192 &&
    bitsOf h 207 192 ≤ 16384 && bitsOf h 219 208 ≤ 2048 && bitsOf h 255 220 = 0 && bitsOf h 511 320 = 0

/-- The section kinds of Table 9.3. -/
def sectionKinds : List Nat := [1, 2, 3, 4, 5, 6, 7, 8, 9, 10, 14, 15]

/-- A section of an image is well placed, of a known kind and of its kind's length, and its CRC holds (R236). -/
def sectionOk (b : Bytes) (ss : List Section) (i : Nat) (x : Section) : Bool :=
  let signed := leAt b 12 4
  let top := 64 + 16 * ss.length
  sectionKinds.contains x.kind && x.rsvd = 0 && x.off % 64 = 0 && top ≤ x.off &&
    (if x.kind = 15 then imageSigned b && x.off = signed && x.len = 7888 && x.off + x.len ≤ b.length
     else x.off + x.len ≤ signed) &&
    crc32c (sliceB b x.off x.len) = x.crc &&
    (ss.zipIdx).all (fun y => y.2 == i || !meets (x.off, x.len) (y.1.off, y.1.len)) &&
    (x.kind = 14 || (ss.zipIdx).all fun y => y.2 == i || y.1.kind != x.kind) &&
    (x.kind ≠ 1 || (x.len = 64 * x.count && x.count = leAt b 24 2)) && (x.kind ≠ 2 || x.len = 128 * x.count) &&
    (x.kind ≠ 9 || x.len = 17 * x.count)

/-- The section of a kind. -/
def sectionOf (ss : List Section) (k : Nat) : Option Section := ss.find? (·.kind == k)

/-- Entries of `n` bytes of the section of a kind. -/
def sectionEntries (b : Bytes) (k n : Nat) : List Bytes :=
  match sectionOf (imageSections b) k with
  | some x => (List.range x.count).map fun i => sliceB b (x.off + n * i) n
  | none => []

/-! ### Signature and library version (R239–R241) -/

/-- R243 step 5. -/
def State.signatureOk (s : State) (b : Bytes) : Bool :=
  if !imageSigned b then s.get Ob.IMAGE_SIG_POLICY = 0
  else match sectionOf (imageSections b) 15 with
    | none => false
    | some x =>
      let key := sliceB b x.off 32
      let slots := (List.range 4).map fun i => s.dget (Ob.IMAGE_KEY_HASH0 + i)
      (slots.any fun h => !allZero h && h == sha256 key) &&
        Config.slhVerify key (sha256 (b.take (leAt b 12 4))) (sliceB b (x.off + 32) 7856)

/-- R243 step 6. -/
def State.klibOk (s : State) (b : Bytes) : Bool :=
  leAt b 16 2 = s.boot.klibVersion / 65536 && leAt b 18 2 ≤ s.boot.klibVersion % 65536

/-! ### Layouts, lists, automata (R203, R217, R219, R227, R335) -/

/-- Alignment of a field: its own size, 8 for BYTES and LIST; FIXED fields are byte strings. -/
def fieldAlign (ty : ColTy) : Nat := match ty with | .fixed _ => 1 | t => fieldBytes t

/-- A row layout within its ranges, its fields apart from one another and from the bitmap. -/
def layoutOk (l : Layout) : Bool :=
  let n := l.cols.length
  1 ≤ n && n ≤ 255 && 32 ≤ l.maxLen && l.maxLen ≤ 2097152 &&
    l.cols.all (fun c =>
      c.off % fieldAlign c.ty = 0 && 24 + 8 * divUp n 64 ≤ c.off && c.off + fieldBytes c.ty ≤ l.maxLen &&
      (match c.ty with | .fixed k => 1 ≤ k && k ≤ 64 | .list e => 1 ≤ e && e ≤ 6 | _ => true)) &&
    (l.cols.zipIdx).all fun c => (l.cols.zipIdx).all fun d =>
      c.2 == d.2 || !meets (c.1.off, fieldBytes c.1.ty) (d.1.off, fieldBytes d.1.ty)

/-- Values of a list rise strictly under an order. -/
def rises (lt : Nat → Nat → Bool) : List Nat → Bool
  | a :: b :: r => lt a b && rises lt (b :: r)
  | _ => true

/-- An entry of the LISTS section within its ranges. -/
def listOk : ListEntry → Bool
  | .map m => 1 ≤ m.length && m.length ≤ 255
  | .bounds ints vs => 1 ≤ vs.length && vs.length ≤ 1024 &&
      (if ints then rises (fun a b => decide (untwos 64 a < untwos 64 b)) vs
       else rises lt32 vs && vs.all fun v => !fpNan fp32 v)
  | .aggs l => 1 ≤ l.length && l.length ≤ 16 && l.all fun a => a.fn ≤ 7

/-- A field of an automaton's header. -/
def autoField (b : Bytes) (hi lo : Nat) : Nat := bitsOf (leNat (sliceB b 0 64)) hi lo

/-- Header values of an automaton (Table 13.5). -/
def autoClasses (b : Bytes) : Nat := autoField b 15 8
def autoStart (b : Bytes) : Nat := autoField b 31 16
def autoStates (b : Bytes) : Nat := autoField b 48 32
def autoRules (b : Bytes) : Nat := autoField b 76 64

/-- Class of a byte, next state, accept entry and candidate of an automaton. -/
def autoClass (b : Bytes) (x : Nat) : Nat := leAt b (autoField b 127 96 + x) 1
def autoNext (b : Bytes) (s c : Nat) : Nat := leAt b (autoField b 159 128 + 2 * (s * autoClasses b + c)) 2
def autoAccept (b : Bytes) (s : Nat) : Nat := leAt b (autoField b 191 160 + 4 * s) 4
def autoCand (b : Bytes) (i : Nat) : Nat := leAt b (autoField b 223 192 + 2 * i) 2

/-- A rule entry as a number (Table 13.6), and its literal. -/
def autoRule (b : Bytes) (i : Nat) : Nat := leAt b (autoField b 255 224 + 16 * i) 16
def autoLit (b : Bytes) (i : Nat) : Bytes :=
  sliceB b (autoField b 287 256 + bitsOf (autoRule b i) 63 32) (bitsOf (autoRule b i) 72 64)

/-- Bytes of the literal store: to the end of the last literal. -/
def autoLitLen (b : Bytes) : Nat :=
  (List.range (autoRules b)).foldl (fun m i =>
    max m (bitsOf (autoRule b i) 63 32 + bitsOf (autoRule b i) 72 64)) 0

/-- Entries of the candidate list: to the end of the last accepting state's candidates. -/
def autoCands (b : Bytes) : Nat :=
  (List.range (autoStates b)).foldl (fun m s => max m (bitsOf (autoAccept b s) 15 0 + bitsOf (autoAccept b s) 23 16)) 0

/-- Bytes of an automaton's tables but for its literals (R336). -/
def autoTableLen (b : Bytes) : Nat :=
  64 + 256 + 2 * autoStates b * autoClasses b + 4 * autoStates b + 2 * autoCands b + 16 * autoRules b

/-- An automaton within its ranges (R335). -/
def autoOk (b : Bytes) : Bool :=
  let n := autoStates b
  let offs := [autoField b 127 96, autoField b 159 128, autoField b 191 160, autoField b 223 192, autoField b 255 224,
    autoField b 287 256]
  let fits (off len : Nat) : Bool := off + len ≤ b.length
  1 ≤ autoClasses b && autoClasses b ≤ 255 && autoStart b < n && n ≤ 65536 && autoField b 63 49 = 0 &&
    1 ≤ autoRules b && autoRules b ≤ 4096 && autoField b 95 77 = 0 && autoField b 511 288 = 0 &&
    offs.all (fun o => o % 64 = 0 && 64 ≤ o) &&
    fits (autoField b 127 96) 256 && fits (autoField b 159 128) (2 * n * autoClasses b) &&
    fits (autoField b 191 160) (4 * n) && fits (autoField b 223 192) (2 * autoCands b) &&
    fits (autoField b 255 224) (16 * autoRules b) && fits (autoField b 287 256) (autoLitLen b) &&
    autoLitLen b ≤ 262144 &&
    (List.range 256).all (fun x => autoClass b x < autoClasses b) &&
    (List.range n).all (fun s => bitsOf (autoAccept b s) 31 24 = 0 &&
      (List.range (autoClasses b)).all fun c => autoNext b s c < n) &&
    (List.range (autoCands b)).all (fun i => autoCand b i < autoRules b) &&
    (List.range (autoRules b)).all (fun i =>
      let r := autoRule b i
      bitsOf r 15 0 ≤ 4095 && bitsOf r 31 27 = 0 && bitsOf r 127 73 = 0 && 1 ≤ bitsOf r 72 64 && bitsOf r 72 64 ≤ 256 &&
        (List.range i).all fun k => bitsOf (autoRule b k) 15 0 ≠ bitsOf r 15 0)

/-! ### Operators (R213–R232) -/

/-- The named body bits of an operator, as (hi, lo) pairs (Tables 8.6–8.21). -/
def bodyFields : Nat → List (Nat × Nat)
  | 0x01 => [(16, 0)]
  | 0x02 => [(15, 0)]
  | 0x03 => [(41, 0), (303, 48)]
  | 0x04 => [(223, 0)]
  | 0x05 => [(19, 0), (191, 32)]
  | 0x06 => [(239, 0)]
  | 0x07 => [(5, 0), (108, 8), (143, 112)]
  | 0x08 => [(5, 0), (39, 8), (145, 144), (191, 160)]
  | 0x09 => [(33, 0), (44, 40), (95, 48)]
  | 0x0A => [(33, 0), (95, 64)]
  | 0x0B => [(16, 0), (383, 32)]
  | 0x0C => [(15, 0)]
  | 0x0D => [(29, 0), (66, 32), (80, 72)]
  | 0x0E => [(95, 0)]
  | _ => []

/-- The RSVD bits of a descriptor are zero. -/
def descReserved (d : Nat) : Bool :=
  bitsOf d 15 8 = 0 && bitsOf d 127 66 = 0 &&
    (bodyFields (bitsOf d 7 0)).foldl (fun v f => v - bitsOf v f.1 f.2 * 2 ^ f.2) (d / 2 ^ 128) = 0

/-- A column exists in a layout and its type satisfies a condition. -/
def colIs (l : Layout) (c : Nat) (f : ColTy → Bool) : Bool := (l.cols[c]?).any fun x => f x.ty

/-- Type conditions. -/
def isList (f : ColTy → Bool) : ColTy → Bool
  | .list e => f (listElem e)
  | _ => false
def isI64 (t : ColTy) : Bool := t == .i64
def isF32 (t : ColTy) : Bool := t == .f32
def isScalar (t : ColTy) : Bool := match t with | .list _ => false | _ => true

/-- The class of a key column (R209): integer, float, bytes. -/
def keyClass (t : ColTy) : Nat := if isFloat t then 1 else if isNum t then 0 else 2

/-- A KEYS field names one to four scalar columns of a layout, the unused places last. -/
def keysOk (l : Layout) (v : Nat) : Bool :=
  let k := keyCols v
  1 ≤ k.length && (unpack 8 4 v).take k.length = k && k.all fun c => colIs l c isScalar

/-- Classes of the columns of a KEYS field. -/
def keyClasses (l : Layout) (v : Nat) : List Nat := (keyCols v).map fun c => keyClass (colTy l c)

/-- A projection map from source types to a layout. -/
def mapOk (m : List MapEntry) (tys : List ColTy) (out : Layout) : Bool :=
  m.length = out.cols.length && (m.zip out.cols).all fun e =>
    match e.1 with
    | .src c ty => ty == e.2.ty && (tys[c]?).any fun t => convertible t ty
    | .const _ ty => ty == e.2.ty

/-- The result type of an aggregate (Table 8.15): in PHASE 1, MEAN carries its sum. -/
def aggTy (phase fn : Nat) (src : ColTy) : ColTy :=
  match fn with
  | 0 => .i64
  | 1 => .i64
  | 2 => if isFloat src then .f32 else .i64
  | 5 => if phase = 1 then (if isFloat src then .f32 else .i64) else .f32
  | _ => src

/-- The aggregates of a GROUP_BY fit its layouts: key columns first, then the aggregates. -/
def aggsOk (x : OpCtx) : Bool :=
  let l := x.img.aggs (x.b 63 48)
  let k := keyCols (x.b 31 0)
  l.length = x.b 44 40 && x.outL.cols.length = k.length + l.length &&
    (k.zipIdx).all (fun c => colTy x.outL c.2 == colTy x.inL c.1) &&
    (l.zipIdx).all fun a =>
      a.1.out = k.length + a.2 && (if a.1.fn = 0 then colTy x.outL a.1.out == ColTy.i64 else colIs x.inL a.1.src fun t =>
        (match a.1.fn with
          | 1 => true
          | 6 => isScalar t
          | 7 => isScalar t
          | _ => isNum t) && colTy x.outL a.1.out == aggTy (x.b 33 32) a.1.fn t)

/-- The body of an operator within its ranges and types. -/
def opBodyOk (x : OpCtx) : Bool :=
  let same : Bool := bitsOf x.desc 31 16 = bitsOf x.desc 47 32
  match x.code with
  | 0x01 => same && x.b 15 0 < x.img.content.programs.length && exprOk (x.img.program (x.b 15 0)) x.inL true
  | 0x02 => mapOk (x.img.map (x.b 15 0)) (colTys x.inL) x.outL
  | 0x03 => same && 1 ≤ x.b 175 112 && x.b 175 112 ≤ 2 ^ 48 &&
      (if x.b 40 40 = 1 then colIs x.inL (x.b 7 0) (isList fun _ => true) && colIs x.outL (x.b 39 32) (isList isI64)
       else keysOk x.inL (x.b 31 0) && colIs x.outL (x.b 39 32) isI64)
  | 0x04 => same && colIs x.inL (x.b 7 0) isNum && colIs x.outL (x.b 15 8) isI64 &&
      (match x.img.content.lists[x.b 31 16]? with
        | some (.bounds ints _) => colIs x.inL (x.b 7 0) fun t => isFloat t == !ints
        | _ => false)
  | 0x05 => same && colIs x.inL (x.b 7 0) isNum && colIs x.outL (x.b 15 8) isF32 && x.b 17 16 ≤ 2 &&
      !fpNan fp32 (x.b 127 96) && !fpNan fp32 (x.b 159 128) && !lt32 (x.b 159 128) (x.b 127 96)
  | 0x06 =>
      let cols := (unpack 8 3 (x.b 23 0)).filter (· != 255)
      let lists := cols.any fun c => colIs x.inL c (isList fun _ => true)
      same && 1 ≤ x.b 159 96 && x.b 159 96 ≤ 2 ^ 48 && 1 ≤ x.b 239 224 && x.b 239 224 ≤ 256 &&
        x.b 7 0 ≠ 255 && x.b 15 8 ≠ 255 && cols.all (fun c => colIs x.inL c fun _ => true) &&
        colIs x.outL (x.b 31 24) (if lists then isList isI64 else isI64)
  | 0x07 => same && keysOk x.inL (x.b 39 8) && 4 ≤ x.b 108 104 && x.b 108 104 ≤ 24 && 1 ≤ x.b 143 112 && x.b 143 112 ≤ 2 ^ 26 &&
      (x.img.ops.filter fun d => bitsOf (leNat d) 7 0 == 7 && bitsOf (leNat d) 133 128 == x.b 5 0).length = 1
  | 0x08 =>
      let y := opCtx x.p x.handle x.img x.buildOp x.core
      keysOk x.inL (x.b 39 8) && y.code = 7 && y.b 5 0 = x.b 5 0 &&
        keyClasses x.inL (x.b 39 8) = keyClasses y.inL (y.b 39 8) && 1 ≤ x.b 191 176 &&
        mapOk (x.img.map (x.b 175 160)) (colTys x.inL ++ colTys y.inL) x.outL
  | 0x09 => keysOk x.inL (x.b 31 0) && x.b 33 32 ≤ 2 && 1 ≤ x.b 44 40 && x.b 44 40 ≤ 16 && 1 ≤ x.b 95 64 &&
      x.b 95 64 ≤ 16777216 && aggsOk x
  | 0x0A => same && keysOk x.inL (x.b 31 0) && 1 ≤ x.b 95 64 && x.b 95 64 ≤ 2 ^ 26
  | 0x0B => same && (x.b 7 0 = 255 || colIs x.inL (x.b 7 0) fun t => isNum t && !isFloat t) &&
      (x.b 15 8 = 255 || colIs x.outL (x.b 15 8) isF32) && (x.b 16 16 = 0 || keysOk x.inL (x.b 63 32))
  | 0x0C => same && x.b 15 0 < x.img.content.programs.length && exprOk (x.img.program (x.b 15 0)) x.inL false
  | 0x0D => same && colIs x.inL (x.b 7 0) (fun t => isI64 t || isList isI64 t) &&
      (x.b 15 8 = 255 || colIs x.inL (x.b 15 8) (isList isF32)) && colIs x.outL (x.b 23 16) (isList isI64) &&
      1 ≤ x.b 80 72 && x.b 80 72 ≤ 256 && x.b 66 64 ≤ 4
  | 0x0E => same && keysOk x.inL (x.b 31 0)
  | _ => false

/-- A FLOWS entry of an image is of class BULK. -/
def bulkFlow (flows : List Bytes) (i : Nat) : Bool := (flows[i]?).any fun v => ctxField (leNat v) 4 3 == 0

/-- An operator that PIPE_LOAD accepts (R213). -/
def opOk (x : OpCtx) (flows : List Bytes) : Bool :=
  let n := x.img.content.layouts.length
  descReserved x.desc && 1 ≤ x.code && x.code ≤ 0x0E && bitsOf x.desc 31 16 < n && bitsOf x.desc 47 32 < n &&
    bulkFlow flows (bitsOf x.desc 65 48) && opBodyOk x

/-- The BAG descriptors of an image as numbers. -/
def Image.bagDescs (im : Image) : List Nat := (im.ops.map leNat).filter fun d => bitsOf d 7 0 == 0x0D

/-- A field of a BAG descriptor's body (Table 8.18). -/
def bagField (d hi lo : Nat) : Nat := bitsOf d (128 + hi) (128 + lo)

/-- A feature number appears at most once per layout in the BAG operators of an image (R229). -/
def featuresOk (im : Image) : Bool := (im.bagDescs.map fun d => (bitsOf d 47 32, bagField d 29 24)).Nodup

/-- The bags of a plan read what the BAG operators of their layout and feature write, with their TABLE and POOL (R229). -/
def bagsMatch (im : Image) (q : BatchPlan) : Bool :=
  q.bags.all fun b => (im.bagDescs.filter fun d => bitsOf d 47 32 == q.layout && bagField d 29 24 == b.feature).all fun d =>
    bagField d 63 32 == b.table && bagField d 66 64 == b.pool && bagField d 23 16 == b.idCol

/-- The placement tag an operator asks of its input (R232): key columns, and the seed where its descriptor has one. -/
def OpCtx.tag (x : OpCtx) : Option (List Nat × Option Nat) :=
  match x.code with
  | 0x07 => some (keyCols (x.b 39 8), some (x.b 103 40))
  | 0x08 => some (keyCols (x.b 39 8), some ((opCtx x.p x.handle x.img x.buildOp x.core).b 103 40))
  | 0x09 => if x.b 33 32 = 1 then none else some (keyCols (x.b 31 0), none)
  | 0x0A => some (keyCols (x.b 31 0), none)
  | _ => none

/-- The OUT_FLOW index of an operator of an image. -/
def outFlowOf (im : Image) (op : Nat) : Nat := bitsOf (im.desc op) 65 48

/-- A stage whose OUT_FLOW feeds no stage of its graph (R242). -/
def isSink (im : Image) (g : Graph) (x : GraphStage) : Bool :=
  !(g.stages.any fun y => y.inFlow == outFlowOf im x.op)

/-- A graph that PIPE_LOAD accepts (R232, R242). -/
def graphOk (p : Nat) (im : Image) (flows : List Bytes) (g : Graph) : Bool :=
  g.index ≤ 255 && (im.content.graphs.filter fun h => h.index == g.index).length = 1 &&
    g.stages.all fun x =>
      let o := opCtx p 0 im x.op 0
      x.op < im.ops.length && x.endIn ≤ 1 && bulkFlow flows x.inFlow &&
        (match x.sinkSet with
          | some n => isSink im g x && (im.sets.any fun e => e.1 == n) && o.outL.maxLen ≤ 4096
          | none => !isSink im g x || o.code = 7) &&
        (match o.tag with
          | some (ks, sd) => x.tagKeys = ks && sd.all fun v => x.tagSeed == v
          | none => true)

/-! ### Decoders, sets, plans (R171, R184, R341) -/

/-- A decoder table of an image. -/
def decoderOk (im : Image) (d : DecoderTable) : Bool :=
  let l := im.layout d.layout
  d.format ≤ 2 && d.hashes.length ≤ 8 && d.layout < im.content.layouts.length &&
    d.partKeys.length ≤ 4 && d.partKeys.all (fun c => colIs l c isScalar) && d.binds.length ≤ 4 &&
    d.binds.all fun b => colIs l b.1 (fun t => t == .bytes) && colIs l b.2.2 (fun t => t == .i32) &&
      im.content.automata.any fun a => autoField a.bytes 7 0 == b.2.1

/-- A set declaration: number, base SA, capacity; the range lies in the spread space (R20). -/
def State.setOk (s : State) (p : Nat) (sets : List (Nat × Nat × Nat)) (x : Nat × Nat × Nat) : Bool :=
  x.1 ≤ 15 && x.2.1 % 64 = 0 && x.2.1 + 32 * x.2.2 ≤ s.div.spreadBytes p && (sets.filter fun y => y.1 == x.1).length = 1

/-- The projection template of a plan: its fields set as R270 asks, the rest zero. -/
def templateOk (s : State) (p : Nat) (q : BatchPlan) : Bool :=
  let j := matJob q.template
  matReserved q.template && j.a = 0 && j.c = 0 && j.d = 0 && j.idx = 0 && j.m = 0 && !j.useC && !j.argmax && j.beta = 0 &&
    j.writeD && { j with m := 1 }.form &&
    s.devCheck p j.b (tiledBytes j.bFmt j.n j.k) = .ok && (!j.useBias || s.devCheck p j.bias (4 * j.n) = .ok) &&
    q.bags.all (fun b => b.outFmt == j.aFmt) && vecBytes j.aFmt j.k = q.pooledBytes

/-- A batch plan within Table 7.4 (R184). -/
def State.planOk (s : State) (p : Nat) (im : Image) (flows : List Bytes) (regions : Nat) (q : BatchPlan) : Bool :=
  let v := leNat ((flows[q.asmFlow]?).getD [])
  let l := im.layout q.layout
  1 ≤ q.batch && q.batch ≤ 65535 && q.set ≤ 15 && q.asmFlow < flows.length && ctxField v 2 1 = 1 &&
    1 ≤ ctxField v 172 160 && ctxField v 172 160 ≤ 4096 && 1 ≤ q.prepDepth && q.prepDepth ≤ 64 &&
    q.stagingFirst % 64 = 0 && q.stagingFirst + q.stagingLen ≤ s.div.spreadBytes p && stagingNeed q ≤ q.stagingLen &&
    1 ≤ q.asmRegions && q.asmRegions ≤ 64 && q.asmFirst + q.asmRegions ≤ regions && 16 ≤ q.dropCap && q.dropCap ≤ 4096 &&
    q.denseBytes ≤ 65535 && q.pooledBytes ≤ 65535 && q.packed.length ≤ 4 &&
    q.packed.all (fun f => [1, 2, 4, 8].contains f.elemSize && 16 ≤ f.rowLen && f.rowLen ≤ 4096 && f.rowLen % 16 = 0 &&
      1 ≤ f.packRows && f.packRows ≤ 65535 && f.col < l.cols.length) &&
    (if q.proj then q.template.length = 128 && templateOk s p q else q.template.isEmpty) && bagsMatch im q && q.layout < im.content.layouts.length &&
    q.denseCols.all (fun c => c < l.cols.length) &&
    q.bags.all (fun b => b.feature ≤ 63 && 1 ≤ b.pool && b.pool ≤ 4 && outFmts.contains b.outFmt && b.idCol < l.cols.length) &&
    q.exprs.all fun i => i < im.content.programs.length && exprOk (im.program i) l false

/-! ### Rebasing and reserving (R222, R226, R238) -/

/-- A context image with its DEST_FLOW and STAND_MASK rebased. -/
def State.rebase (s : State) (p base : Nat) (v : Nat) : Nat :=
  let dk := ctxField v 75 74
  let v := if dk = 1 then v + base * 2 ^ 56 else v
  let mask := ctxField v 35 16
  let own := if mask = 0xFFFFF then (2 ^ s.div.stands p - 1) * 2 ^ s.div.firstStand p
    else mask * 2 ^ s.div.firstStand p % 2 ^ 20
  v - mask * 2 ^ 16 + own * 2 ^ 16

/-- A FLOWS entry that PIPE_LOAD accepts: its DEST_FLOW index lies in the image, and the rebased context passes R82. -/
def State.imageFlowOk (s : State) (p base n : Nat) (i : Nat) (b : Bytes) : Bool :=
  let v := leNat b
  let mask := ctxField v 35 16
  (ctxField v 75 74 ≠ 1 || ctxField v 73 56 < n) && (mask = 0xFFFFF || mask < 2 ^ s.div.stands p) && ctxField v 4 3 ≠ 2 &&
    (!inRange (s.div.flowRange p) (base + n - 1) || s.div.isLatId (base + i) ||
      s.ctxForm p (base + i) (s.rebase p base v)) && ctxModes v

/-! ### PIPE_LOAD (R243) -/

/-- The image's parts as it would be loaded. -/
def imageOf (b : Bytes) (parsed : ImageContent) (flowBase regionBase : Nat) : Image :=
  let im : Image :=
    { content := parsed, ops := sectionEntries b 2 128, flowBase := flowBase, nFlows := leAt b 24 2,
      regionBase := regionBase, nRegions := leAt b 26 2 % 4096,
      sets := (sectionEntries b 9 17).map fun e => (leAt e 0 1, leAt e 1 8, leAt e 9 8),
      hash := sha256 b, bytes := b.length, area := 0, areaBase := 0, decBytes := ((sectionOf (imageSections b) 7).map (·.len)).getD 0,
      autoBytes := (parsed.automata.map fun a => autoTableLen a.bytes).sum,
      litBytes := (parsed.automata.map fun a => autoLitLen a.bytes).sum }
  { im with area := ((List.range im.ops.length).map (opArea im)).sum }

/-- Entries of a parsed section. -/
def parsedCount (c : ImageContent) : Nat → Option Nat
  | 3 => some c.graphs.length
  | 4 => some c.layouts.length
  | 5 => some c.programs.length
  | 6 => some c.lists.length
  | 7 => some c.decoders.length
  | 8 => some c.automata.length
  | 10 => some c.plans.length
  | _ => none

/-- The content of a section passes R184 and R203–R233 (R243 step 7). -/
def State.contentOk (s : State) (p : Nat) (im : Image) (flows : List Bytes) (x : Section) : Bool :=
  (match parsedCount im.content x.kind with | some n => n = x.count | none => true) &&
  match x.kind with
  | 1 => (flows.zipIdx).all fun f => s.imageFlowOk p im.flowBase flows.length f.2 f.1
  | 2 => (List.range im.ops.length).all (fun i => opOk (opCtx p 0 im i 0) flows) && featuresOk im
  | 3 => x.count ≤ 256 && im.content.graphs.all (graphOk p im flows)
  | 4 => im.content.layouts.all layoutOk
  | 5 => im.content.programs.all fun g => g.code.length ≤ 64 && g.consts.length ≤ 32
  | 6 => im.content.lists.all listOk
  | 7 => x.count ≤ 256 && im.content.decoders.all (decoderOk im)
  | 8 => im.content.automata.all (fun a => autoOk a.bytes) && im.content.automata.all fun a =>
      (im.content.automata.filter fun c => autoField c.bytes 7 0 == autoField a.bytes 7 0).length = 1
  | 9 => im.sets.all (s.setOk p im.sets)
  | 10 => x.count ≤ 256 && im.content.plans.all (s.planOk p im flows im.nRegions)
  | _ => true

/-- Parsed parts come only with their sections. -/
def partsMatch (ss : List Section) (c : ImageContent) : Bool :=
  [3, 4, 5, 6, 7, 8, 10].all fun k => (sectionOf ss k).isSome || parsedCount c k = some 0

/-- Bytes of a partition's coreless vaults below the spread window that the yard leaves for images: 64 B per flow context, the
item spill area of each vault and 4 KiB per core (R98, R243). -/
def Division.copySpace (d : Division) (p : Nat) : Nat :=
  4 * d.stands p * (2 ^ 31 - 0x4000000 * d.window) - (64 * (d.flowRange p).2 + 32 * d.yardItems p + 4096 * d.coreCount p)

/-- PIPE_LOAD's checks after the image has been read (R243 steps 4–9): status, and index of the failing section. -/
def State.loadCheck (s : State) (p : Nat) (b : Bytes) (len : Nat) (im : Image) : Status × Nat :=
  let ss := imageSections b
  let flows := sectionEntries b 1 64
  let bad (f : Nat → Section → Bool) : Option Nat := ((ss.zipIdx).find? fun x => !f x.2 x.1).map (·.2)
  let fr := s.div.flowRange p
  let rr := s.div.regionRange p
  let ids := span im.flowBase im.nFlows
  let loaded := (s.part p).images.map (·.2)
  let sum (f : Image → Nat) : Nat := (loaded.map f).sum + f im
  if !headerOk b len then (.badDescriptor, 0xFFFF)
  else match bad (sectionOk b ss) with
    | some i => (.badDescriptor, i)
    | none =>
      if imageSigned b && (sectionOf ss 15).isNone then (.badDescriptor, 0xFFFF)
      else if !s.signatureOk b then (.signatureBad, ((ss.findIdx? fun x => x.kind == 15).getD 0xFFFF))
      else if !s.klibOk b then (.badDescriptor, 0xFFFF)
      else match bad fun _ x => s.contentOk p im flows x with
        | some i => (.badDescriptor, i)
        | none =>
          if !partsMatch ss im.content || flows.length ≠ im.nFlows || s.div.stands p < leAt b 22 1 then
            (.badDescriptor, 0xFFFF)
          else if !(fr.1 ≤ im.flowBase && im.flowBase + im.nFlows ≤ fr.1 + fr.2) || (ids.any s.div.isLatId) ||
              (im.nRegions ≠ 0 && !(rr.1 ≤ im.regionBase && im.regionBase + im.nRegions ≤ rr.1 + rr.2)) then
            (.notPermitted, 0xFFFF)
          else if !s.homeRoom p im.area || s.div.copySpace p < sum (·.bytes) || 2 ^ 20 < sum (·.decBytes) || 2 ^ 22 < sum (·.autoBytes) ||
              2 ^ 18 < sum (·.litBytes) then (.noResource, 0xFFFF)
          else if (ids.any fun f => (s.flow? p f).isSome || (s.part p).waits.any (·.1 == f)) ||
              (im.sets.any fun x => loaded.any fun y => y.sets.any fun z => z.1 == x.1) then (.resourceHeld, 0xFFFF)
          else (.ok, 0)

/-- Clear the primary buckets of the JOIN_BUILD operators among those given, in every home vault (R222, R244). -/
def State.clearBuckets (s : State) (p : Nat) (im : Image) (ops : List Nat) : State :=
  (ops.filter fun i => bitsOf (im.desc i) 7 0 == 7).foldl (fun t i =>
    t.clearHome p (im.opBase i) (64 * 2 ^ bitsOf (im.desc i) 236 232)) s

/-- The automata of an image slot have been copied into every pattern engine of the partition (R336). -/
def State.freshAutomata (s : State) (p slot : Nat) : State :=
  { s with sram := s.sram.filter fun e =>
      !((span (s.div.units .pe p).1 (s.div.units .pe p).2).any fun g =>
        peWord g (slot * 256) 0 ≤ e.1 && e.1 < peWord g (slot * 256 + 256) 0) }

/-- Load a checked image: its flows open with OWNER 3 and HOLD set, its areas are reserved, its sets are declared empty (R243).
Where in the home vaults the areas lie the manual leaves open. -/
def State.loadImage (s : State) (p h : Nat) (b : Bytes) (im : Image) : State :=
  let s := ((sectionEntries b 1 64).zipIdx).foldl (fun (s : State) f =>
    s.openFlow p (im.flowBase + f.2) (s.rebase p im.flowBase (leNat f.1)) 3 true) s
  let s := im.sets.foldl (fun (s : State) x =>
    let s := s.setSet p x.1 { SampleSet.empty with declared := true, base := x.2.1, capacity := x.2.2 }
    s.setPart p { s.part p with openBase := (s.part p).clearBase x.1 }) s
  let v := s.chooseOf (s.homeGaps p im.area)
  let im := { im with areaBase := v.1.getD 0 }
  ((v.2.setPart p { v.2.part p with images := setAt (v.2.part p).images h im }).freshAutomata p h).clearBuckets p im
    (List.range im.ops.length)

/-- R243 steps 1 and 2, before the image is read. -/
def State.loadEarly (s : State) (c : Cmd) : Status :=
  let len := c.f 159 128
  firstFail [(len < 4096 || 268435456 < len || c.f 191 178 ≠ 0 || c.f 511 203 ≠ 0, .badDescriptor),
    (8 ≤ (s.part c.part).images.length, .noResource)]

/-- PIPE_LOAD (R243).  While no context can be made resident, the opening of its flows waits (R99). -/
def execPipeLoad (id : Nat) (image : Bytes) (parsed : ImageContent) (s : State) : Host.Outcome State Fault Refusal :=
  .next (match s.control id 0x10 with
    | some c =>
      if s.loadEarly c ≠ .ok then s.finish id (s.loadEarly c) 0xFFFF
      else
        let b := c.hostBytes image (c.f 159 128)
        let im := imageOf b parsed (c.f 177 160) (c.f 202 192)
        let r := s.loadCheck c.part b (c.f 159 128) im
        if r.1 ≠ .ok then (s.unblock c.part im.flowBase (2 ^ 32)).finish id r.1 r.2
        else if !s.canRefill c.part then s.block c.part im.flowBase (2 ^ 32)
        else
          let h := ((List.range 8).find? fun h => (look (s.part c.part).images h).isNone).getD 0
          ((s.unblock c.part im.flowBase (2 ^ 32)).loadImage c.part h b im).finish id .ok h
    | none => s)

/-! ### PIPE_RUN of a graph (R244) -/

/-- The graph a reference names (R237). -/
def State.graphOf (s : State) (p ref : Nat) : Option (Nat × Image × Graph) :=
  if bitsOf ref 15 11 ≠ 0 || bitsOf ref 31 20 ≠ 0 || bitsOf ref 19 16 ≠ 1 then none
  else match look (s.part p).images (bitsOf ref 10 8) with
    | some im => (im.content.graphs.find? fun g => g.index == bitsOf ref 7 0).map fun g => (bitsOf ref 10 8, im, g)
    | none => none

/-- The flows of a graph: the input flows of its stages and the decode flows that feed them (R242, R244). -/
def State.graphFlows (s : State) (p : Nat) (im : Image) (g : Graph) : List Nat :=
  let ins := (g.stages.map fun x => im.flowBase + x.inFlow).dedup
  let decode := (((s.part p).flows.filter fun e => inRange (im.flowBase, im.nFlows) e.1 && e.2.destKind = 1 &&
    ins.contains e.2.destFlow).map (·.1)).filter fun f => !ins.contains f
  decode ++ ins

/-- The input flows of a graph's JOIN_PROBE stages. -/
def probeFlows (im : Image) (g : Graph) : List Nat :=
  (g.stages.filter fun x => bitsOf (im.desc x.op) 7 0 == 8).map fun x => im.flowBase + x.inFlow

/-- Ask firmware to change HOLD of flows at the next edge (R96). -/
def State.askHold (s : State) (p : Nat) (fs : List Nat) (v : Bool) : State :=
  s.setPart p { s.part p with holds := (s.part p).holds ++ fs.map fun f => (f, v, s.now + 1) }

/-- The enabled cores of a flow's STAND_MASK, in ascending global core number. -/
def flowCores (x : Flow) : List Nat :=
  ((List.range 20).filter fun n => bitOf x.standMask n).flatMap fun n => span (60 * n) 60

/-- Enabled cores of the STAND_MASK of a flow. -/
def State.maskCores (s : State) (p f : Nat) : List Nat :=
  match s.flow? p f with
  | some x => flowCores x
  | none => []

/-- Probe flows of the running graphs of an image whose join's table is sealed on every core of the flow's STAND_MASK (R223). -/
def State.sealedProbes (s : State) (p h : Nat) (im : Image) : List Nat :=
  (im.content.graphs.filter fun g => (s.part p).runs.any fun r => r.handle == h && r.index == g.index).flatMap fun g =>
    (g.stages.filter fun y =>
      let o := opCtx p h im y.op 0
      o.code = 8 && (s.maskCores p (im.flowBase + y.inFlow)).all fun c => (s.opState p h o.buildOp c).build.isSealed).map
        fun y => im.flowBase + y.inFlow

/-- Start a graph: the previous run's tables are discarded, and HOLD clears on its flows at the next edge but for the
probe flows of joins whose tables are not all sealed (R223, R244). -/
def State.startGraph (s : State) (c : Cmd) (h : Nat) (im : Image) (g : Graph) : State :=
  let p := c.part
  let ops := g.stages.map (·.op)
  let run : GraphRun :=
    { handle := h, index := g.index, sources := c.f 127 96, cmd := c.id,
      stages := g.stages.map fun _ => { marks := 0, last := 0, ended := false } }
  let s := (s.setPart p { s.part p with
    ops := (s.part p).ops.filter (fun o => !(o.handle == h && ops.contains o.op)),
    runs := (s.part p).runs ++ [run] }).clearBuckets p im ops
  let closed := (probeFlows im g).filter fun f => !(s.sealedProbes p h im).contains f
  let fs := (s.graphFlows p im g).filter fun f => !closed.contains f
  (s.askHold p fs false).setCmd { c with stage := .waiting }

/-- PIPE_RUN naming a graph, or naming nothing that can run (R237, R244). -/
def execPipeRunGraph (id : Nat) (_data : Bytes) (s : State) : Host.Outcome State Fault Refusal :=
  .next (match s.control id 0x11 with
    | some c =>
      if c.f 83 80 = 2 then s
      else
        let n := c.f 127 96
        match s.graphOf c.part (c.f 95 64) with
        | some (h, im, g) =>
          if c.f 511 128 ≠ 0 || n < 1 || 4096 < n then s.finish id .badDescriptor 0
          else if 8 ≤ (s.part c.part).runs.length then s.finish id .noResource 0
          else if (s.part c.part).runs.any fun r => r.handle == h && r.index == g.index then s.finish id .resourceHeld 0
          else s.startGraph c h im g
        | none => s.finish id .badDescriptor 0
    | none => s)

/-! ### PIPE_STOP (R245) -/

/-- PIPE_STOP: checked; it takes effect at the next tick edge. -/
def execPipeStop (id : Nat) (s : State) : Host.Outcome State Fault Refusal :=
  .next (match s.control id 0x12 with
    | some c =>
      let h := c.f 66 64
      let unload := c.f 72 72 = 1
      match look (s.part c.part).images h with
      | some im =>
        if c.f 71 67 ≠ 0 || c.f 511 73 ≠ 0 then s.finish id .badDescriptor 0
        else if unload && (s.part c.part).epochs.any (fun e =>
            e.2.handle != h && im.sets.any fun x => x.1 == e.2.plan.set) then s.finish id .resourceHeld 0
        else (s.setPart c.part { s.part c.part with stop := some (id, h, unload) }).setCmd { c with stage := .waiting }
      | none => s.finish id .badDescriptor 0
    | none => s)

end Sys2Proof.Machine
end

