-- ==== Sys2Proof/Machine/Select.lean ====
section
/-!
DEFINITION. Selection and pattern matching: TOPK and threshold compaction, ARGMAX, the pattern engines and MATCH
(R322–R343).
-/
namespace Sys2Proof.Machine

/-! ### Order (R322, R323) -/

/-- The F32 pattern is a NaN or an infinity. -/
def f32Special (b : Nat) : Bool := fpSpecial fp32 b

/-- The order key of an F32 score (R322). -/
def selKey (b : Nat) : Nat :=
  if fpNan fp32 b then 0xFFFFFFFF
  else if b = 0x80000000 then 0x80000000
  else if b < 2 ^ 31 then b + 2 ^ 31
  else 2 ^ 32 - 1 - b

/-- A selected score as it is written (R323). -/
def selScore (b : Nat) : Nat := if fpNan fp32 b then 0x7FC00000 else b

/-- An entry under selection: element ID, score pattern, input index, and the core whose share holds it. -/
structure SelEntry where
  id : Nat
  score : Nat
  idx : Nat
  core : Nat
deriving DecidableEq, Repr

/-- The order key of an entry. -/
def SelEntry.key (e : SelEntry) : Nat := selKey e.score

/-- The first entry ranks above the second (R322). -/
def SelEntry.above (x y : SelEntry) : Bool := y.key < x.key || (x.key == y.key && x.idx < y.idx)

/-- Entries in the order of R322. -/
def ranked (es : List SelEntry) : List SelEntry := sortBy SelEntry.above es

/-- Keep one entry per ID, the better by `wins`, in the order of the IDs. -/
def collapseBy (wins : SelEntry → SelEntry → Bool) (es : List SelEntry) : List SelEntry :=
  (es.foldl (fun (t : List (Nat × SelEntry)) e =>
    match look t e.id with
    | some o => if wins e o then setAt t e.id e else t
    | none => setAt t e.id e) []).map (·.2)

/-- The collapse on a core: the higher score, on equal scores the lower input index (R326). -/
def collapseCore (es : List SelEntry) : List SelEntry :=
  sortBy (fun x y => x.idx < y.idx) (collapseBy SelEntry.above es)

/-- The collapse in a merge: the higher score, on equal scores the lower core (R329). -/
def collapseMerge (es : List SelEntry) : List SelEntry :=
  collapseBy (fun x y => y.key < x.key || (x.key == y.key && x.core < y.core)) es

/-- A merge of partials: the best k entries, collapsed first where DEDUP is set (R329). -/
def mergeBest (dedup : Bool) (k : Nat) (es : List SelEntry) : List SelEntry :=
  (ranked (if dedup then collapseMerge es else es)).take k

/-! ### The bucketed selection on a core (R327) -/

/-- The bucket of a key in a range that starts at `lo` and is `r` wide. -/
def bucketOf (lo r u : Nat) : Nat := (u - lo) * 4096 / r

/-- The highest bucket from which on the buckets hold `k` or more entries. -/
def thresholdBucket (bs : List Nat) (k : Nat) : Nat :=
  (((List.range 4096).reverse).find? fun t => k ≤ (bs.filter fun b => t ≤ b).length).getD 0

/-- Steps 1 to 5 of R327 over entries in ascending input index, with the histogram passes still allowed. -/
def bucketSelect (approx : Bool) : Nat → Nat → List SelEntry → List SelEntry
  | 0, k, es => es.take k
  | fuel + 1, k, es =>
    match es with
    | [] => []
    | e :: _ =>
      let lo := es.foldl (fun m x => min m x.key) e.key
      let hi := es.foldl (fun m x => max m x.key) e.key
      let r := hi - lo + 1
      let k := min k es.length
      let t := thresholdBucket (es.map fun x => bucketOf lo r x.key) k
      let kept := es.filter fun x => t < bucketOf lo r x.key
      let edge := es.filter fun x => bucketOf lo r x.key = t
      let left := k - kept.length
      if approx || edge.length ≤ left || edge.all (fun x => x.key == ((edge.head?).map (·.key)).getD 0) then
        kept ++ edge.take left
      else kept ++ bucketSelect approx fuel left edge

/-- A core's partial result (R327 step 6). -/
def corePartial (approx dedup : Bool) (k : Nat) (es : List SelEntry) : List SelEntry :=
  ranked (bucketSelect approx 3 k (if dedup then collapseCore es else es))

/-! ### TOPK (R324–R332) -/

/-- Fields of a TOPK body (Table 13.2). -/
def Cmd.topN (c : Cmd) : Nat := c.f 95 64
def Cmd.topPairs (c : Cmd) : Bool := c.f 96 96 = 1
def Cmd.topBf16 (c : Cmd) : Bool := c.f 97 97 = 1
def Cmd.topMode (c : Cmd) : Nat := c.f 99 98
def Cmd.topDedup (c : Cmd) : Bool := c.f 100 100 = 1
def Cmd.topDev (c : Cmd) : Bool := c.f 101 101 = 1
def Cmd.topK (c : Cmd) : Nat := c.f 116 104
def Cmd.topCap (c : Cmd) : Nat := c.f 383 352

/-- Bytes of an input entry. -/
def Cmd.topSize (c : Cmd) : Nat := if c.topPairs then 8 else if c.topBf16 then 2 else 4

/-- Entries of a core's share of `n` entries cut into segments of `seg`, for core `i` of `c` (R325). -/
def shareLen (n seg c i : Nat) : Nat :=
  ((List.range (divUp n seg)).filter fun j => j % c == i).foldl (fun a j => a + min seg (n - j * seg)) 0

/-- R324. -/
def State.topkCheck (s : State) (c : Cmd) : Status :=
  let lat := s.cmdLat c
  let n := c.topN
  let mode := c.topMode
  let cores := match s.flow? c.part c.flow with | some x => (flowCores x).length | none => 0
  let form : Bool :=
    c.f 103 102 = 0 && c.f 127 117 = 0 && c.f 511 392 = 0 && mode ≤ 2 && c.f 191 128 % 64 = 0 && c.f 255 192 % 8 = 0 &&
    1 ≤ n && n ≤ (if lat then 4096 else 268435456) &&
    (if mode = 2 then c.topK = 0 && 1 ≤ c.topCap && c.topCap ≤ (if lat then 63 else 67108864)
     else c.topCap = 0 && 1 ≤ c.topK && c.topK ≤ (if lat then 63 else 4096)) &&
    (c.topPairs || c.f 319 288 + n - 1 < 0xFFFFFFFF) &&
    (lat || (10 ≤ c.f 391 384 && c.f 391 384 ≤ 16)) &&
    !(c.topDedup && (!c.topPairs || mode = 2)) && !(c.topBf16 && c.topPairs) &&
    !(mode = 2 && f32Special (c.f 351 320)) && 8 + 8 * (if mode = 2 then c.topCap else c.topK) ≤ c.f 287 256
  firstFail [(!form, .badDescriptor),
    (c.topDedup && !lat && (List.range cores).any (fun i => 8192 < shareLen n (2 ^ c.f 391 384) cores i), .noResource)]

/-- The entries that a piece of input holds, from input index `i`. -/
def Cmd.topEntries (c : Cmd) (core i : Nat) (b : Bytes) : List SelEntry :=
  (List.range (b.length / c.topSize)).map fun j =>
    if c.topPairs then { id := leAt b (8 * j) 4, score := leAt b (8 * j + 4) 4, idx := i + j, core := core }
    else { id := c.f 319 288 + i + j,
           score := if c.topBf16 then leAt b (2 * j) 2 * 65536 else leAt b (4 * j) 4, idx := i + j, core := core }

/-- The segments of the input: core, first entry and number of entries (R325). -/
def State.topSegments (s : State) (c : Cmd) : List (Nat × Nat × Nat) :=
  let n := c.topN
  match s.flow? c.part c.flow with
  | none => []
  | some x =>
    let cores := flowCores x
    if x.cls = .lat then [((cores.head?).getD 0, 0, n)]
    else
      let seg := 2 ^ c.f 391 384
      (List.range (divUp n seg)).map fun j =>
        ((cores[j % max 1 cores.length]?).getD 0, j * seg, min seg (n - j * seg))

/-- Read every segment: its core, first entry, and its entries, or none where a word of it is uncorrectable. -/
def State.topRead (s : State) (c : Cmd) : List (Nat × Option (List SelEntry)) × State :=
  (s.topSegments c).foldl (fun (acc : List (Nat × Option (List SelEntry)) × State) g =>
    let r := acc.2.devRead (if acc.2.cmdLat c then srcLat else srcBulk) c.part (c.f 191 128 + g.2.1 * c.topSize)
      (g.2.2 * c.topSize)
    (acc.1 ++ [(g.1, r.1.map fun b => c.topEntries g.1 g.2.1 b)], r.2)) ([], s)

/-- The entry takes part in selection (R326). -/
def selValid (c : Cmd) (lat : Bool) (e : SelEntry) : Bool :=
  !(c.topPairs && e.id == 0xFFFFFFFF) && !(lat && f32Special e.score)

/-- The bytes of an output entry (R330). -/
def SelEntry.bytes (e : SelEntry) : Bytes := leBytes 4 e.id ++ leBytes 4 (selScore e.score)

/-- The result of MODE 0 and 1: each core's partial, each stand's list, and the list of the whole (R327–R329). -/
def topSelect (c : Cmd) (es : List SelEntry) : List SelEntry :=
  let parts := ((es.map (·.core)).dedup).map fun k =>
    corePartial (c.topMode = 0) c.topDedup c.topK (es.filter fun e => e.core == k)
  let all := parts.flatten
  let stands := ((all.map fun e => e.core / 60).dedup).map fun n =>
    mergeBest c.topDedup c.topK (all.filter fun e => e.core / 60 == n)
  mergeBest c.topDedup c.topK stands.flatten

/-- TOPK's work (R325–R332). -/
def State.topkWork (s : State) (c : Cmd) : State :=
  let p := c.part
  let lat := s.cmdLat c
  let r := s.topRead c
  let s := r.2
  let okay := r.1.takeWhile fun g => g.2.isSome
  let es := (okay.filterMap fun g => g.2).flatten
  let out := c.f 255 192
  let qual := es.filter fun e => selValid c lat e && selKey (c.f 351 320) ≤ e.key
  if r.1.any (·.2.isNone) then
    -- entries that cores have already written under MODE 2 keep their values: how many is open
    let s := if c.topMode = 2 then
        let v := s.free
        (v.2.putOut c c.topDev (out + 8)
          (((qual.take c.topCap).take (v.1 % (qual.length + 1))).flatMap SelEntry.bytes)).2
      else s
    (s.bump (at_ Ob.TOPK_DONE p)).workDone c .uncorrectable 0
  else
    let drops := if lat then (es.filter fun e => f32Special e.score).length else 0
    let bad := if c.topPairs then (es.filter fun e => e.id == 0xFFFFFFFF).length else 0
    let s := ((s.bump (at_ Ob.TOPK_DONE p)).bump (at_ Ob.SEL_NONFINITE p) drops).bump (at_ Ob.SEL_INVALID_IDS p) bad
    if c.topMode = 2 then
      let n := min qual.length 0xFFFFFFFF
      let w := s.putOut c c.topDev out
        (leBytes 4 n ++ leBytes 4 drops ++ (qual.take c.topCap).flatMap SelEntry.bytes)
      w.2.workDone c (if !w.1 then .uncorrectable else if c.topCap < n then .partialOk else .ok)
        (if w.1 then min n 0x7FFFFFFF else 0)
    else
      let best := topSelect c (es.filter fun e => selValid c lat e)
      let w := s.putOut c c.topDev out (leBytes 4 best.length ++ leBytes 4 drops ++ best.flatMap SelEntry.bytes ++
        (List.range (c.topK - best.length)).flatMap fun _ => leBytes 4 0xFFFFFFFF ++ leBytes 4 0x7FC00000)
      w.2.workDone c (if w.1 then .ok else .uncorrectable) (if w.1 then best.length else 0)

/-- The merge units that a TOPK needs serve work: those of the stands of its shares, and that of the lowest stand in STAND_MASK
(R329, R332). -/
def State.topMerges (s : State) (c : Cmd) : Bool :=
  s.cmdLat c ||
    (((s.maskCores c.part c.flow).take 1 ++ (s.topSegments c).map (·.1)).map (· / 60)).dedup.all (s.standServes .merge)

/-- A selection that its checks refuse has completed too (Table 13.9). -/
def State.countSelected (s : State) (c : Cmd) (st : Status) : State :=
  if st = .ok then s else s.bump (at_ Ob.TOPK_DONE c.part)

/-- TOPK (R324): admission, and its work once its item runs. -/
def execTopk (id : Nat) (_data : Bytes) (s : State) : Host.Outcome State Fault Refusal :=
  .next (match s.admitting id 0x38 with
    | some c => (s.admitIf c (s.topkCheck c)).countSelected c (s.topkCheck c)
    | none => match s.atWork id 0x38 with
      | some c => if s.topMerges c then s.topkWork c else s
      | none => s)

/-! ### ARGMAX (R333, R334) -/

/-- Fields of an ARGMAX body (Table 13.4). -/
def Cmd.argRows (c : Cmd) : Nat := c.f 95 64
def Cmd.argCols (c : Cmd) : Nat := c.f 115 96
def Cmd.argMerge (c : Cmd) : Bool := c.f 116 116 = 1
def Cmd.argSize (c : Cmd) : Nat := if c.f 117 117 = 1 then 2 else 4
def Cmd.argParts (c : Cmd) : Nat := c.f 295 288

/-- ARGMAX's checks (R333, R334). -/
def State.argmaxCheck (s : State) (c : Cmd) : Status :=
  let lat := s.cmdLat c
  let form : Bool :=
    c.f 127 119 = 0 && c.f 319 296 = 0 && c.f 511 384 = 0 && c.f 191 128 % 64 = 0 && c.f 255 192 % 8 = 0 &&
    1 ≤ c.argRows && c.argRows ≤ 65536 && 8 * c.argRows ≤ c.f 287 256 &&
    (if c.argMerge then 2 ≤ c.argParts && c.argParts ≤ 64 else 1 ≤ c.argCols) &&
    !(lat && (4096 < c.argRows * (if c.argMerge then c.argParts else c.argCols) || 512 < c.f 287 256))
  if form then .ok else .badDescriptor

/-- The best of a row's (column, score) pairs: the highest score, lowest column on equal scores (R333). -/
def bestColumn (es : List (Nat × Nat)) : Option (Nat × Nat) :=
  es.foldl (fun (b : Option (Nat × Nat)) e => match b with
    | none => some e
    | some o => if selKey o.2 < selKey e.2 || (selKey o.2 == selKey e.2 && e.1 < o.1) then some e else b) none

/-- The entry of a row as it is written (R266, R333). -/
def argEntry (b : Option (Nat × Nat)) : Bytes :=
  match b with
  | some e => leBytes 4 e.1 ++ leBytes 4 (selScore e.2)
  | none => leBytes 4 0xFFFFFFFF ++ leBytes 4 0x7FC00000

/-- Column and score pairs of one row, or none where a word of them is uncorrectable; `bases` are the column offsets of
MODE 1. -/
def State.argRow (s : State) (c : Cmd) (bases : List Nat) (r : Nat) : Option (List (Nat × Nat)) × State :=
  let src := if s.cmdLat c then srcLat else srcBulk
  if c.argMerge then
    (List.range c.argParts).foldl (fun (acc : Option (List (Nat × Nat)) × State) i =>
      let x := acc.2.devRead src c.part (c.f 191 128 + 8 * (i * c.argRows + r)) 8
      (match acc.1, x.1 with
        | some l, some b => some (l ++ if leAt b 0 4 = 0xFFFFFFFF then [] else
            [(leAt b 0 4 + (bases[i]?).getD 0, leAt b 4 4)])
        | _, _ => none, x.2)) (some [], s)
  else
    let x := s.devRead src c.part (c.f 191 128 + r * (divUp (c.argCols * c.argSize) 64 * 64)) (c.argCols * c.argSize)
    (x.1.map fun b => (List.range c.argCols).map fun i =>
      (i, if c.argSize = 2 then leAt b (2 * i) 2 * 65536 else leAt b (4 * i) 4), x.2)

/-- ARGMAX's work (R333, R334): a row with an uncorrectable word is not written. -/
def State.argmaxWork (s : State) (c : Cmd) : State :=
  let p := c.part
  let lat := s.cmdLat c
  let cb := if c.argMerge then s.devRead (if lat then srcLat else srcBulk) p (c.f 383 320) (4 * c.argParts)
    else (some [], s)
  let s := cb.2
  match cb.1 with
  | none => (s.bump (at_ Ob.TOPK_DONE p)).workDone c .uncorrectable 0
  | some cbs =>
    let bases := words 4 c.argParts cbs
    let rows := (List.range c.argRows).foldl (fun (acc : List (Option (List (Nat × Nat))) × State) r =>
      let x := acc.2.argRow c bases r
      (acc.1 ++ [x.1], x.2)) ([], s)
    let s := rows.2.bump (at_ Ob.TOPK_DONE p)
    if rows.1.any fun r => match r with | some l => l.any fun e => 0xFFFFFFFE < e.1 | none => false then
      s.workDone c .badDescriptor 0
    else
      let keep (l : List (Nat × Nat)) : List (Nat × Nat) := if lat then l.filter fun e => !f32Special e.2 else l
      let gone := rows.1.foldl (fun n r => match r with | some l => n + (l.length - (keep l).length) | none => n) 0
      let w := (rows.1.zipIdx).foldl (fun (acc : Bool × State) r => match r.1 with
        | some l =>
          let o := acc.2.putOut c (c.f 118 118 = 1) (c.f 255 192 + 8 * r.2) (argEntry (bestColumn (keep l)))
          (acc.1 && o.1, o.2)
        | none => (false, acc.2)) (true, s)
      let s := w.2.bump (at_ Ob.SEL_NONFINITE p) gone
      if w.1 then s.workDone c .ok (min gone 0x7FFFFFFF) else s.workDone c .uncorrectable 0

/-- ARGMAX (R333): admission, and its work once its item runs. -/
def execArgmax (id : Nat) (_data : Bytes) (s : State) : Host.Outcome State Fault Refusal :=
  .next (match s.admitting id 0x39 with
    | some c => (s.admitIf c (s.argmaxCheck c)).countSelected c (s.argmaxCheck c)
    | none => match s.atWork id 0x39 with
      | some c => s.argmaxWork c
      | none => s)

/-! ### Scanning and verification (R337, R338) -/

/-- A match: rule ID, priority, end offset. -/
structure Hit where
  rule : Nat
  prio : Nat
  stop : Nat
deriving DecidableEq, Repr

/-- Candidate rule entries queued along a string, with their end offsets, from a state and an offset on. -/
def autoRun (a : Bytes) : Nat → Nat → Bytes → List (Nat × Nat)
  | _, _, [] => []
  | st, e, x :: xs =>
    let nx := autoNext a st (autoClass a x.toNat)
    let acc := autoAccept a nx
    ((List.range (bitsOf acc 23 16)).map fun i => (autoCand a (bitsOf acc 15 0 + i), e)) ++ autoRun a nx (e + 1) xs

/-- A byte under ASCII case folding. -/
def foldCase (b : Byte) : Byte := if 0x41 ≤ b.toNat && b.toNat ≤ 0x5A then b + 0x20 else b

/-- A candidate passes verification at an end offset (R337). -/
def candOk (a str : Bytes) (r e : Nat) : Bool :=
  let v := autoRule a r
  let lit := autoLit a r
  let n := lit.length
  let norm (b : Bytes) : Bytes := if bitOf v 24 then b.map foldCase else b
  n ≤ e + 1 && norm ((str.drop (e + 1 - n)).take n) == norm lit && (!bitOf v 25 || e + 1 == n) &&
    (!bitOf v 26 || e + 1 == str.length)

/-- What an engine finds in a string: its matches in the order of R338, candidates that failed, and candidates in all. -/
def scan (a str : Bytes) : List Hit × Nat × Nat :=
  let cs := autoRun a (autoStart a) 0 str
  let good := (cs.filter fun c => candOk a str c.1 c.2).dedup
  let hits := good.map fun c => ({ rule := bitsOf (autoRule a c.1) 15 0, prio := bitsOf (autoRule a c.1) 23 16,
                                   stop := c.2 } : Hit)
  (sortBy (fun x y => x.stop < y.stop || (x.stop == y.stop && x.rule < y.rule)) hits,
    (cs.filter fun c => !candOk a str c.1 c.2).length, cs.length)

/-- What an engine reads of an automaton's tables for a byte from a state on, as offset and bytes: class, next state, accept entry,
candidates, rule entries and literals (R335, R337). -/
def autoReads (a : Bytes) (st x : Nat) : List (Nat × Nat) :=
  let c := autoClass a x
  let acc := autoAccept a (autoNext a st c)
  [(autoField a 127 96 + x, 1), (autoField a 159 128 + 2 * (st * autoClasses a + c), 2),
    (autoField a 191 160 + 4 * autoNext a st c, 4)] ++
    (List.range (bitsOf acc 23 16)).flatMap fun i =>
      let r := autoCand a (bitsOf acc 15 0 + i)
      [(autoField a 223 192 + 2 * (bitsOf acc 15 0 + i), 2), (autoField a 255 224 + 16 * r, 16),
        (autoField a 287 256 + bitsOf (autoRule a r) 63 32, bitsOf (autoRule a r) 72 64)]

/-- Bytes of a string that are scanned before a table read for which a test fails. -/
def scanned (bad : Nat × Nat → Bool) (a : Bytes) : Nat → Bytes → Nat
  | _, [] => 0
  | st, x :: xs => if (autoReads a st x.toNat).any bad then 0 else 1 + scanned bad a (autoNext a st (autoClass a x.toNat)) xs

/-- A table read of a pattern engine meets a parity error: `auto` is the automaton's image slot and index (R336). -/
def State.parityError (s : State) (eng auto : Nat) (r : Nat × Nat) : Bool :=
  s.sram.any fun e => r.2 != 0 && peWord eng auto (r.1 / 8) ≤ e.1 && e.1 ≤ peWord eng auto ((r.1 + r.2 - 1) / 8)

/-- The winning match (R338). -/
def winner (hs : List Hit) : Option Hit :=
  hs.foldl (fun (b : Option Hit) h => match b with
    | none => some h
    | some o => if o.prio < h.prio || (o.prio == h.prio && h.rule < o.rule) then some h else b) none

/-- Scan a string on an engine and count it (R343): none where a parity error on a table read stops the string (R337), which counts
no match and no candidate (DESIGN CHOICE, log 88).  The scan stalls for cycles the manual does not fix only where more than 8
candidates are queued. -/
def State.scanString (s : State) (p eng auto : Nat) (a str : Bytes) : Option (List Hit) × State :=
  let n := scanned (s.parityError eng auto) a (autoStart a) str
  let s := s.bump (at_ Ob.PE_BYTES p) n
  if n < str.length then (none, s.bump (at_ Ob.PE_PARITY p))
  else
    let r := scan a str
    let s := (s.bump (at_ Ob.PE_MATCHES p) r.1.length).bump (at_ Ob.PE_VERIFY_FAIL p) r.2.1
    if 8 < r.2.2 then let v := s.free; (some r.1, v.2.bump (at_ Ob.PE_STALL_CYCLES p) v.1) else (some r.1, s)

/-! ### MATCH (R339, R340) -/

/-- The automaton a reference names. -/
def State.autoOf (s : State) (p ref : Nat) : Option Bytes :=
  if bitsOf ref 15 11 ≠ 0 || bitsOf ref 31 20 ≠ 0 || bitsOf ref 19 16 ≠ 4 then none
  else (look (s.part p).images (bitsOf ref 10 8)).bind fun im =>
    ((im.content.automata.find? fun a => autoField a.bytes 7 0 == bitsOf ref 7 0).map (·.bytes))

/-- Bytes of a result slot. -/
def Cmd.matchSlot (c : Cmd) : Nat := 8 + 8 * c.f 111 104

/-- MATCH's checks at admission (R339). -/
def State.matchCheck (s : State) (c : Cmd) : Status :=
  let n := c.f 287 256
  let form : Bool :=
    c.f 103 98 = 0 && c.f 127 112 = 0 && c.f 511 320 = 0 && c.f 191 128 % 16 = 0 && c.f 255 192 % 8 = 0 && 1 ≤ n &&
    n ≤ 65536 && ((c.f 96 96 = 1) = (1 ≤ c.f 111 104)) && n * c.matchSlot ≤ c.f 319 288
  if !form || s.cmdLat c || (s.autoOf c.part (c.f 95 64)).isNone then .badDescriptor else .ok

/-- The string descriptors: address and length, or none where a word of one is uncorrectable. -/
def State.matchStrings (s : State) (c : Cmd) : Option (List Bytes) × State :=
  let r := s.devRead srcBulk c.part (c.f 191 128) (16 * c.f 287 256)
  (r.1.map fun b => chunksOf 16 (c.f 287 256) b, r.2)

/-- The check of one string descriptor (R339): an ADDR of a wrong form breaks its range, which R7 answers with BAD_DESCRIPTOR,
and one outside the partition gives NOT_PERMITTED (DEDUCED, log 88). -/
def State.stringCheck (s : State) (p : Nat) (d : Bytes) : Status :=
  if leAt d 12 4 ≠ 0 || 1048576 < leAt d 8 4 then .badDescriptor else s.devCheck p (leAt d 0 8) (leAt d 8 4)

/-- A result slot (Table 13.8): `hs` none for a string that could not be read. -/
def Cmd.matchBytes (c : Cmd) (hs : Option (List Hit)) : Bytes :=
  let m := c.f 111 104
  let l := hs.getD []
  let w := winner l
  let list := if c.f 96 96 = 1 then l.take m else []
  leBytes 2 ((w.map (·.rule)).getD 0xFFFF) ++ leBytes 1 ((w.map (·.prio)).getD 0) ++
    leBytes 1 (b2n (c.f 96 96 = 1 && m < l.length) + 2 * b2n hs.isNone) ++ leBytes 2 (min l.length 0xFFFF) ++
    leBytes 2 0 ++ list.flatMap (fun h => leBytes 4 h.rule ++ leBytes 4 h.stop) ++
    (List.range (m - list.length)).flatMap fun _ => leBytes 8 0xFFFF

/-- MATCH's work on its engine (R339, R340). -/
def State.matchWork (s : State) (c : Cmd) : State :=
  match s.autoOf c.part (c.f 95 64) with
  | none => s.workDone c .badDescriptor 0
  | some a =>
    let r := s.matchStrings c
    match r.1 with
    | none => r.2.workDone c .uncorrectable 0
    | some ds =>
      match ds.find? fun d => r.2.stringCheck c.part d != .ok with
      | some d => r.2.workDone c (r.2.stringCheck c.part d) 0
      | none =>
        let out := (ds.zipIdx).foldl (fun (acc : (Nat × Bool) × State) d =>
          let b := acc.2.devRead srcBulk c.part (leAt d.1 0 8) (leAt d.1 8 4)
          let h : Option (List Hit) × State := match b.1 with
            | some str => b.2.scanString c.part (b.2.unitOf c) (bitsOf (c.f 95 64) 10 0) a str
            | none => (none, b.2)
          let w := h.2.putOut c (c.f 97 97 = 1) (c.f 255 192 + d.2 * c.matchSlot) (c.matchBytes h.1)
          ((acc.1.1 + b2n (h.1.any fun l => !l.isEmpty), acc.1.2 && h.1.isSome && w.1), w.2)) ((0, true), r.2)
        if out.1.2 then out.2.workDone c .ok out.1.1 else out.2.workDone c .uncorrectable 0

/-- MATCH (R339): admission, and its work once its item runs. -/
def execMatchCmd (id : Nat) (_data : Bytes) (s : State) : Host.Outcome State Fault Refusal :=
  .next (match s.admitting id 0x3C with
    | some c => s.admitIf c (s.matchCheck c)
    | none => match s.atWork id 0x3C with
      | some c => s.matchWork c
      | none => s)

/-! ### Matching during decoding (R341) -/

/-- A pattern engine of the partition, one that takes new work where there is one: which one serves a decoder's string is open. -/
def State.anyEngine (s : State) (p : Nat) : Nat × State :=
  let v := s.free
  let all := span (s.div.units .pe p).1 (s.div.units .pe p).2
  let up := all.filter fun u => !s.down.contains (unitCode .pe u)
  let l := if up.isEmpty then all else up
  ((l[v.1 % l.length]?).getD 0, v.2)

/-- The bound columns of a record: RULE of each value goes to its output column, null without a match or for a null
value; false where a value's result has UNREADABLE set.  `slot` is the image's. -/
def State.bindRules (s : State) (p slot : Nat) (im : Image) (t : DecoderTable) (cols : List Val) : (Bool × List Val) × State :=
  t.binds.foldl (fun (acc : (Bool × List Val) × State) b =>
    let a := (im.content.automata.find? fun a => autoField a.bytes 7 0 == b.2.1).map (·.bytes)
    match (acc.1.2[b.1]? : Option Val), a with
    | some (.bytes v), some a =>
      let e := acc.2.anyEngine p
      let r := e.2.scanString p e.1 (slot * 256 + b.2.1) a v
      ((acc.1.1 && r.1.isSome,
        acc.1.2.set b.2.2 (match r.1.bind winner with | some h => .word h.rule | none => .null)), r.2)
    | _, _ => ((acc.1.1, acc.1.2.set b.2.2 .null), acc.2)) ((true, cols), s)

end Sys2Proof.Machine
end

