-- ==== Sys2Proof/Machine/Chipper.lean ====
section
/-!
DEFINITION. The chipper: DECOMPRESS, COMPRESS, the lanes' turns, and compression dictionaries (R352–R362).
-/
namespace Sys2Proof.Machine

/-! ### Dictionaries and window stores in the coreless vaults (R354, R360) -/

/-- Read a dictionary where it lies: its bytes, or none where a word of it is uncorrectable. -/
def State.readDict (s : State) (d : Dict) : Option Bytes × State := s.vaultRead srcBulk d.da d.bytes.length

/-- The dictionaries that the frames of an input name, with fuel (R354). -/
def frameDicts : Nat → Bytes → List Nat
  | 0, _ => []
  | fuel + 1, b =>
    match zUnitLen b with
    | .ok _ r =>
      let rest := frameDicts fuel r
      if zSkippable b then rest else match zHead b with
        | .ok h => h.dict :: rest
        | .error _ => rest
    | _ => []

/-- Read the dictionaries of some IDs: those loaded, by ID, and the one captured under ID 0; none where a word of one is
uncorrectable. -/
def State.readDicts (s : State) (p : Nat) (captured : Option Dict) : List Nat → Option (List (Nat × Bytes)) × State
  | [] => (some [], s)
  | i :: is =>
    match (if i = 0 then captured else look (s.part p).dicts i) with
    | none => State.readDicts s p captured is
    | some d =>
      let r := s.readDict d
      let t := State.readDicts r.2 p captured is
      (match r.1, t.1 with | some b, some l => some ((i, b) :: l) | _, _ => none, t.2)

/-- The dictionaries a command's frames may name, 0 standing for the command's own, which is the one it captured where the
partition has it no more (R353, R354). -/
def dictsOf (l : List (Nat × Bytes)) (own : Nat) : Nat → Option Bytes :=
  fun i => if i = 0 then (look l 0).or (if own = 0 then none else look l own) else look l i

/-- IDs of the dictionaries of a command whose frames name `frames`, 0 standing for a captured one. -/
def Cmd.dictIds (c : Cmd) (frames : List Nat) : List Nat := (0 :: (if c.dict.isSome then [] else [c.f 95 64]) ++ frames).dedup

/-- The 8 MiB window store of a lane, in a coreless vault of the partition below the spread window (R354): firmware places it, and
the manual leaves open where. -/
def Division.windowStore (d : Division) (p lane : Nat) : Nat :=
  d.yardBase (d.coreless p (lane % (4 * d.stands p))) (4 + lane)

/-- Bytes that far matches read come from the lane's window store: false where a word there is uncorrectable.  What the store holds
is the output itself. -/
def State.readWindow (s : State) (p lane far : Nat) : Bool × State :=
  if far = 0 then (true, s)
  else
    let r := s.vaultRead srcBulk (s.div.windowStore p lane) (min far (2 ^ 23))
    (r.1.isSome, r.2)

/-- An undefined output: some bytes of the range have been written, and which is open (R356). -/
def State.undefinedOut (s : State) (c : Cmd) (dev : Bool) (addr limit : Nat) : State :=
  let v := s.free
  (v.2.putOut c dev addr ((List.range (v.1 % (limit + 1))).map fun i =>
    BitVec.ofNat 8 (Config.free (2 ^ 70 + s.fresh * 2 ^ 32 + i)))).2

/-- The bytes of an input, from a device range or as the command's DMA reads returned them. -/
def State.takeIn (s : State) (c : Cmd) (data : Bytes) (dev : Bool) (addr n : Nat) : Option Bytes × State :=
  if dev then s.devRead srcBulk c.part addr n else (some (c.hostBytes data n), s)

/-! ### DECOMPRESS (R353–R356) -/

/-- DECOMPRESS's checks at admission (R353). -/
def State.decompressCheck (s : State) (c : Cmd) : Status :=
  let dict := c.f 95 64
  if s.cmdLat c || s.cmdKernel c ≠ some .decompress || c.f 127 100 ≠ 0 || c.f 255 224 ≠ 0 || c.f 511 352 ≠ 0 ||
      1 < c.f 97 96 || c.f 223 192 = 0 || c.f 351 320 = 0 || 2147483647 < c.f 351 320 ||
      (dict ≠ 0 && (s.dict c.part dict).isNone) then .badDescriptor else .ok

/-- What a lane makes of an input: Zstandard frames, or one deflate stream with nothing after its last byte (R354). -/
def decodeInput (dicts : Nat → Option Bytes) (deflate : Bool) (limit : Nat) (b : Bytes) : Except CodeErr Dst :=
  if deflate then
    let h := match dicts 0 with | some d => (zDictOf d).content | none => []
    match inflate limit (h.drop (h.length - 32768)) b with
    | .ok (e, r) => if r.isEmpty then .ok e else .error .corrupt
    | .error e => .error e
  else zFrames dicts (b.length + 1) { out := [], n := 0, limit := limit, far := 0 } b

/-- The status of a decoding that failed. -/
def CodeErr.status : CodeErr → Status
  | .corrupt => .corruptRecord
  | .over => .expansionLimit

/-- DECOMPRESS's work on its lane (R354–R356). -/
def State.decompressWork (s : State) (c : Cmd) (data : Bytes) : State :=
  let p := c.part
  let dict := c.f 95 64
  let dev : Bool := c.f 99 99 = 1
  let dst := c.f 319 256
  let limit := c.f 351 320
  let fail (t : State) (st : Status) : State := (t.undefinedOut c dev dst limit).workDone c st 0
  let i := s.takeIn c data (c.f 98 98 = 1) (c.f 191 128) (c.f 223 192)
  match i.1 with
  | none => fail i.2 .uncorrectable
  | some b =>
    let deflate : Bool := c.f 97 96 = 1
    match i.2.readDicts p c.dict (c.dictIds (if deflate then [] else frameDicts (b.length + 1) b)) with
    | (none, s) => fail s .uncorrectable
    | (some l, s) =>
      let r := decodeInput (dictsOf l dict) deflate limit b
      let u := s.readWindow p (s.unitOf c) (match r with | .ok d => d.far | .error _ => 0)
      if !u.1 then fail u.2 .uncorrectable
      else
        let t := u.2.countUnit p r
        match r with
        | .error e => fail t e.status
        | .ok d =>
          let w := t.putOut c dev dst d.bytes
          if w.1 then w.2.workDone c .ok d.n else fail w.2 .uncorrectable

/-- DECOMPRESS (R353, R354): admission, and its work once its item runs, with the input its DMA reads return. -/
def execDecompress (id : Nat) (data : Bytes) (s : State) : Host.Outcome State Fault Refusal :=
  .next (match s.admitting id 0x35 with
    | some c => s.admitIf c (s.decompressCheck c)
    | none => match s.atWork id 0x35 with
      | some c => s.decompressWork c data
      | none => s)

/-- LANE_FRAME_END (R352): between Zstandard frames, with another item waiting and an edge passed since its turn began,
the running item goes to the back of its lane's queue. -/
def execLaneFrameEnd (lane : Nat) (s : State) : Host.Outcome State Fault Refusal :=
  .next (match s.engine .chipD lane with
    | (f, q) :: x :: rest =>
      let p := s.div.flowPart f
      let zstd : Bool := match s.flow? p f with
        | none => false
        | some fl => match ((fl.running.find? (·.seq == q)).map (·.work) : Option Work) with
          | some (.cmd id) => match s.cmd? id with
            | some c => c.opcode = 0x35 && c.f 97 96 = 0 && c.stage = .running
            | none => false
          | _ => false
      if zstd && look s.laneHeads lane == some (f, q) then
        { s.setEngine .chipD lane (x :: rest ++ [(f, q)]) with laneHeads := dropAt s.laneHeads lane }
      else s
    | _ => s)

/-! ### COMPRESS (R357–R359) -/

/-- The staging regions of a COMPRESS. -/
def Cmd.staging (c : Cmd) : List Nat := span (c.f 234 224) (divUp (c.f 223 192) 65536)

/-- COMPRESS's checks at admission but for the claim (R357). -/
def State.compressCheck (s : State) (c : Cmd) : Status :=
  let dict := c.f 95 64
  let n := c.f 223 192
  firstFail [
    (s.cmdLat c || s.cmdKernel c ≠ some .compress || c.f 127 106 ≠ 0 || c.f 255 235 ≠ 0 || c.f 511 352 ≠ 0 ||
      c.f 97 96 = 0 || c.f 102 98 < 10 || 23 < c.f 102 98 || n = 0 || 4194304 < n || c.f 351 320 < n - 1 ||
      (dict ≠ 0 && (s.dict c.part dict).isNone), .badDescriptor),
    (c.staging.any fun r => !inRange (s.div.regionRange c.part) r, .notPermitted)]

/-- Admission of a COMPRESS: it claims its staging regions (R357). -/
def State.compressAdmit (s : State) (c : Cmd) : State :=
  match s.compressCheck c with
  | .ok =>
    if c.staging.all fun r => s.holder r = 0 then
      match s.claim c.staging 4 c.id with
      | some t => t.admitItem c
      | none => s.finish c.id .resourceHeld 0
    else (s.bump Ob.CLAIMS_REFUSED).finish c.id .resourceHeld 0
  | st => s.finish c.id st 0

/-- The header of the frame of an input of `n` bytes (R358). -/
def zstdHeader (wlog dict n : Nat) (checksum : Bool) : Bytes :=
  let single : Bool := n ≤ 2 ^ wlog
  let flags := if n < 256 then (if single then [0, 2, 3] else [2, 3]) else if n < 65792 then [1, 2, 3] else [2, 3]
  let flag := (flags[Config.fcsSize n % flags.length]?).getD 3
  leBytes 4 0xFD2FB528 ++
    leBytes 1 (64 * flag + 32 * b2n single + 4 * b2n checksum + (if dict ≠ 0 then 3 else 0)) ++
    (if single then [] else leBytes 1 (8 * (wlog - 10))) ++ (if dict ≠ 0 then leBytes 4 dict else []) ++
    (if flag = 0 then leBytes 1 n else if flag = 1 then leBytes 2 (n - 256) else if flag = 2 then leBytes 4 n
     else leBytes 8 n)

/-- An input as raw blocks of at most 128 KiB, the last one marked. -/
def rawBlocks (b : Bytes) : Bytes :=
  let bs := chunksOf 131072 b.length b
  (bs.zipIdx).flatMap fun x => leBytes 3 (8 * x.1.length + b2n (x.2 + 1 == bs.length)) ++ x.1

/-- The frame of an input (R358): the blocks that the lane's search finds, which are open but for the input they decode
to. -/
def zstdFrame (dicts : Nat → Option Bytes) (level wlog dict : Nat) (checksum : Bool) (b : Bytes) : Bytes :=
  let sum := if checksum then leBytes 4 (xxh64 b % 2 ^ 32) else []
  let frame (blocks : Bytes) : Bytes := zstdHeader wlog dict b.length checksum ++ blocks ++ sum
  let best := frame (Config.zstdBlocks level wlog ((dicts 0).getD []) b)
  match zFrames dicts 2 { out := [], n := 0, limit := b.length, far := 0 } best with
  | .ok d => if d.bytes = b then best else frame (rawBlocks b)
  | .error _ => frame (rawBlocks b)

/-- COMPRESS's work on its lane (R358, R359). -/
def State.compressWork (s : State) (c : Cmd) (data : Bytes) : State :=
  let p := c.part
  let dict := c.f 95 64
  let n := c.f 223 192
  let i := s.takeIn c data (c.f 104 104 = 1) (c.f 191 128) n
  let u := i.2.readDicts p c.dict (c.dictIds [])
  match i.1, u.1 with
  | some b, some l =>
    let f := zstdFrame (dictsOf l dict) (c.f 97 96) (c.f 102 98) dict (c.f 103 103 = 1) b
    let t := (u.2.bump (at_ Ob.CHIP_IN_BYTES p) n).addWork p 4 n
    let t := t.lbufWrite (c.f 234 224 * 65536) (f.take (n - 1))
    if n ≤ f.length then (t.bump (at_ Ob.CHIP_NOT_SMALLER p)).workDone c .notSmaller 0
    else
      let r := t.lbufRead (c.f 234 224 * 65536) f.length
      match r.1 with
      | none => r.2.workDone c .uncorrectable 0
      | some out =>
        let w := r.2.putOut c (c.f 105 105 = 1) (c.f 319 256) out
        if w.1 then w.2.workDone c .ok f.length else w.2.workDone c .uncorrectable 0
  | _, _ => u.2.workDone c .uncorrectable 0

/-- COMPRESS (R357–R359): admission, and its work once its item runs, with the input its DMA reads return. -/
def execCompress (id : Nat) (data : Bytes) (s : State) : Host.Outcome State Fault Refusal :=
  .next (match s.admitting id 0x34 with
    | some c => s.compressAdmit c
    | none => match s.atWork id 0x34 with
      | some c => s.compressWork c data
      | none => s)

/-! ### Dictionaries (R360, R361) -/

/-- Bytes of a partition's dictionaries. -/
def Part.dictBytes (x : Part) : Nat := (x.dicts.map fun d => d.2.bytes.length).sum

/-- A dictionary's content is well formed for its ID (R360). -/
def dictOk (id : Nat) (b : Bytes) : Bool :=
  leAt b 0 4 ≠ 0xEC30A437 || b.length < 4 ||
    (leAt b 4 4 = id && (match zDictRead b with | .ok _ => true | .error _ => false))

/-- The partition field of a dictionary object is one its writer may name. -/
def dictPart (w : Writer) (p : Nat) : Status :=
  firstFail [(w.isHost && w.part ≠ p, .notPermitted), (1 < p, .badDescriptor)]

/-- What a partition's coreless vault `i` holds below the spread window beside its dictionaries: the areas of the yard (R98) and
the window stores of its lanes, as offset and bytes. -/
def State.corelessAreas (s : State) (p i : Nat) : List (Nat × Nat) :=
  let v := s.div.coreless p i
  let at' (a : Nat) : Nat := s.div.yardBase v a - v
  let lanes := (span (s.div.units .chipD p).1 (s.div.units .chipD p).2).filter fun l => l % (4 * s.div.stands p) == i
  [(at' 0, 64 * divUp (s.div.flowRange p).2 (4 * s.div.stands p)), (at' 1, s.div.yardMib * 2 ^ 20), (at' 2, 60 * 4096)] ++
    lanes.map fun l => (at' (4 + l), 2 ^ 23)

/-- Put a dictionary's bytes at a place in the coreless vaults, which the manual leaves open; none where none has room. -/
def State.placeDict (s : State) (p : Nat) (b : Bytes) : Option Dict × State :=
  let starts := (List.range (4 * s.div.stands p)).flatMap fun i =>
    let v := s.div.coreless p i
    let kept := ((s.part p).dicts.map (·.2) ++ s.cmds.filterMap (·.dict)).filterMap fun d =>
      if v ≤ d.da && d.da < v + 2 ^ 31 then some (d.da - v, d.bytes.length) else none
    (gapStarts up64 (s.corelessAreas p i ++ kept) 0 (2 ^ 31 - 0x4000000 * s.div.window) b.length).map (v + ·)
  let r := s.chooseOf starts
  match r.1 with
  | some da => (some { bytes := b, da := da }, (r.2.vaultWrite da b).2)
  | none => (none, r.2)

/-- What a write of DICT_LOAD does (R360).  Where no coreless vault has room the load completes with NO_RESOURCE (DESIGN CHOICE,
log 170). -/
def opDictLoad (w : Writer) (v : Bytes) (s : State) : Ans :=
  let p := leAt v 0 1
  let id := leAt v 4 4
  let b := v.drop 8
  let st := firstFail [
    (dictPart w p ≠ .ok, dictPart w p),
    (id = 0 || b.length = 0 || 262144 < b.length || leAt v 1 3 ≠ 0 || !dictOk id b, .badDescriptor),
    (16 ≤ (s.part p).dicts.length || 1048576 < (s.part p).dictBytes + b.length, .noResource),
    ((look (s.part p).dicts id).isSome, .resourceHeld)]
  if st ≠ .ok then (some st, s)
  else match s.placeDict p b with
    | (some d, t) => (some .ok, t.setPart p { t.part p with dicts := setAt (t.part p).dicts id d })
    | (none, _) => (some .noResource, s)

/-- DICT_LOAD (R360). -/
def execDictLoad (acc : Access) (s : State) : Host.Outcome State Fault Refusal :=
  .next (s.write acc (isKey Ob.DICT_LOAD) opDictLoad)

/-- An admitted command of a partition holds one of its dictionaries (R353, R357). -/
def Cmd.holdsDict (c : Cmd) (p id : Nat) : Bool :=
  c.part == p && (c.opcode == 0x34 || c.opcode == 0x35) && c.f 95 64 == id && c.stage != .fetched && c.stage != .held &&
    c.dict.isNone

/-- Some command holds the dictionary. -/
def State.dictHeld (s : State) (p id : Nat) : Bool := s.cmds.any fun c => c.holdsDict p id

/-- A dictionary leaves its partition; a command admitted since the unload was written keeps the one that it captured (R353). -/
def State.dropDict (s : State) (p id : Nat) : State :=
  { s.setPart p { s.part p with dicts := dropAt (s.part p).dicts id } with
    cmds := s.cmds.map fun c => if c.holdsDict p id then { c with dict := look (s.part p).dicts id } else c }

/-- DICT_UNLOAD (R361): checked, and carried out at the next tick edge. -/
def execDictUnload (acc : Access) (s : State) : Host.Outcome State Fault Refusal :=
  .next (s.write acc (isKey Ob.DICT_UNLOAD) (numOp fun w v s =>
    let p := bitsOf v 7 0
    let id := bitsOf v 63 32
    let st := firstFail [
      (dictPart w p ≠ .ok, dictPart w p),
      (bitsOf v 31 8 ≠ 0 || (look (s.part p).dicts id).isNone, .badDescriptor),
      (s.dictHeld p id, .resourceHeld)]
    if st ≠ .ok then (some st, s)
    else (none, (s.setPart p { s.part p with dictUnload := (s.part p).dictUnload ++ [id] }).await .dictUnload
      (p * 2 ^ 32 + id) w.reply)))

/-- DICT_UNLOAD_EDGE (R361): at the edge the dictionaries to be unloaded are removed. -/
def execDictUnloadEdge (part : PartNo) (s : State) : Host.Outcome State Fault Refusal :=
  let p := part.val
  .next (((s.part p).dictUnload).foldl (fun (t : State) id =>
      (t.dropDict p id).answer .dictUnload (p * 2 ^ 32 + id) .ok)
    (s.setPart p { s.part p with dictUnload := [] }))

end Sys2Proof.Machine
end

