-- ==== Sys2Proof/Machine/Copy.lean ====
section
/-!
DEFINITION. The copy engine: copy descriptors, layouts, permutation, padding, overlap, and the COPY command
(R344–R351).

Positions are counted in half bytes, so that INT4 elements have positions of their own.
-/
namespace Sys2Proof.Machine

/-! ### Copy descriptors (Table 14.3) -/

/-- A copy descriptor. -/
structure CopyDesc where
  src : Nat
  dst : Nat
  dims : List Nat
  srcS : List Nat
  dstS : List Nat
  fmt : Nat
  srcLay : Nat
  dstLay : Nat
  perm : Nat
  srcHost : Bool
  dstHost : Bool
  lo : List Nat
  hi : List Nat
  pad : Nat
deriving DecidableEq, Repr

/-- The descriptor of 128 bytes. -/
def copyDesc (b : Bytes) : CopyDesc :=
  let v := leNat (fitB 128 b)
  { src := bitsOf v 63 0, dst := bitsOf v 127 64,
    dims := [bitsOf v 159 128, bitsOf v 191 160, bitsOf v 223 192, bitsOf v 255 224],
    srcS := [bitsOf v 303 256, bitsOf v 351 304, bitsOf v 399 352],
    dstS := [bitsOf v 447 400, bitsOf v 495 448, bitsOf v 543 496],
    fmt := bitsOf v 547 544, srcLay := bitsOf v 549 548, dstLay := bitsOf v 551 550, perm := bitsOf v 559 552,
    srcHost := bitOf v 560, dstHost := bitOf v 561,
    lo := (List.range 4).map fun i => bitsOf v (591 + 16 * i) (576 + 16 * i),
    hi := (List.range 4).map fun i => bitsOf v (655 + 16 * i) (640 + 16 * i), pad := bitsOf v 735 704 }

/-- The RSVD bits of a descriptor are zero. -/
def copyReserved (b : Bytes) : Bool :=
  let v := leNat (fitB 128 b)
  bitsOf v 575 562 = 0 && bitsOf v 1023 736 = 0

/-- Component `i` of a list of sizes, strides or paddings. -/
def nth (l : List Nat) (i : Nat) : Nat := (l[i]?).getD 0

/-- The source dimension that output dimension `i` takes. -/
def CopyDesc.from_ (d : CopyDesc) (i : Nat) : Nat := d.perm / 4 ^ i % 4

/-- Half bytes of one unit of a format in a layout: an element, or a block of an MX format. -/
def unitNib (fmt lay : Nat) : Nat :=
  if isMx fmt then 2 * runBytes fmt else if fmt = 9 then (if lay = 0 then 2 else 1) else elemBits fmt / 4

/-- Source sizes in units. -/
def CopyDesc.size (d : CopyDesc) (i : Nat) : Nat :=
  if i = 0 && isMx d.fmt then nth d.dims 0 / 32 else nth d.dims i

/-- Output sizes in units. -/
def CopyDesc.outSize (d : CopyDesc) (i : Nat) : Nat := d.size (d.from_ i) + nth d.lo i + nth d.hi i

/-- Position of a unit from the base, in half bytes (Table 14.1); `n0` is the size of dimension 0 in units. -/
def position (fmt lay n0 : Nat) (st : List Nat) (i : List Nat) : Nat :=
  if lay = 1 then
    let k := if isMx fmt then 32 else 1
    let col := nth i 0 * k
    2 * (nth i 2 * nth st 1 + nth i 3 * nth st 2 + runOffset fmt (nth i 1) col (n0 * k)) +
      (if isMx fmt then 0 else col % 32 * unitNib fmt lay)
  else nth i 0 * unitNib fmt lay + 2 * (nth i 1 * nth st 0 + nth i 2 * nth st 1 + nth i 3 * nth st 2)

/-- Every index of four sizes, dimension 0 fastest. -/
def indices (n0 n1 n2 n3 : Nat) : List (List Nat) :=
  (List.range n3).flatMap fun d => (List.range n2).flatMap fun c => (List.range n1).flatMap fun b =>
    (List.range n0).map fun a => [a, b, c, d]

/-- Position of a source unit and of an output unit. -/
def CopyDesc.srcPos (d : CopyDesc) (i : List Nat) : Nat := position d.fmt d.srcLay (d.size 0) d.srcS i
def CopyDesc.dstPos (d : CopyDesc) (i : List Nat) : Nat := position d.fmt d.dstLay (d.outSize 0) d.dstS i

/-- The output index of a source index. -/
def CopyDesc.outIdx (d : CopyDesc) (i : List Nat) : List Nat :=
  (List.range 4).map fun k => nth d.lo k + nth i (d.from_ k)

/-- The source indices. -/
def CopyDesc.srcIdx (d : CopyDesc) : List (List Nat) := indices (d.size 0) (d.size 1) (d.size 2) (d.size 3)

/-- The output indices. -/
def CopyDesc.allOut (d : CopyDesc) : List (List Nat) :=
  indices (d.outSize 0) (d.outSize 1) (d.outSize 2) (d.outSize 3)

/-- The output position holds data: no component lies in the padding. -/
def CopyDesc.isData (d : CopyDesc) (i : List Nat) : Bool :=
  (List.range 4).all fun k => nth d.lo k ≤ nth i k && nth i k < nth d.lo k + d.size (d.from_ k)

/-- The copy moves source dimension 0 away from output dimension 0. -/
def CopyDesc.transposing (d : CopyDesc) : Bool := d.from_ 0 != 0

/-- The copy is permuting. -/
def CopyDesc.permuting (d : CopyDesc) : Bool :=
  d.perm != 0xE4 || d.srcLay != d.dstLay || (d.lo ++ d.hi).any (· != 0)

/-- Bytes from the base to the end of the last unit read. -/
def CopyDesc.srcExtent (d : CopyDesc) : Nat :=
  divUp (d.srcPos ((List.range 4).map fun i => d.size i - 1) + unitNib d.fmt d.srcLay) 2

/-- Columns of the tiled output, in elements. -/
def CopyDesc.outCols (d : CopyDesc) : Nat := if isMx d.fmt then d.outSize 0 * 32 else d.outSize 0

/-- Bytes from the base to the end of the last byte written, fringes included. -/
def CopyDesc.dstExtent (d : CopyDesc) : Nat :=
  if d.dstLay = 1 then
    (d.outSize 2 - 1) * nth d.dstS 1 + (d.outSize 3 - 1) * nth d.dstS 2 + tiledBytes d.fmt (d.outSize 1) d.outCols
  else divUp (d.dstPos ((List.range 4).map fun i => d.outSize i - 1) + unitNib d.fmt d.dstLay) 2

/-! ### Checks of a descriptor (R347, R348) -/

/-- Bytes to which a ROW base and strides are aligned. -/
def rowAlign (fmt : Nat) : Nat := max 1 (elemBits fmt / 8)

/-- Formats, layouts, PERM and padding agree (Table 14.4). -/
def CopyDesc.formatOk (d : CopyDesc) : Bool :=
  let lays (l : List Nat) : Bool := l.contains d.srcLay && l.contains d.dstLay
  if [0x0, 0x1, 0x2, 0x3, 0x4, 0xA].contains d.fmt then lays [0, 1]
  else if [0xB, 0xC].contains d.fmt then lays [0]
  else if isMx d.fmt then
    lays [0, 1] && nth d.dims 0 % 32 = 0 && d.from_ 0 = 0 && (d.lo ++ d.hi).all (· == 0)
  else if d.fmt = 9 then lays [0, 1, 2] && d.from_ 0 = 0
  else false

/-- PERM names every source dimension once. -/
def CopyDesc.permOk (d : CopyDesc) : Bool := (List.range 4).all fun k => (List.range 4).any fun i => d.from_ i == k

/-- Base and strides of one side are aligned (R347). -/
def sideAligned (fmt lay base : Nat) (st : List Nat) : Bool :=
  if lay = 1 then base % 64 = 0 && nth st 0 = 0
  else lay ≠ 0 || (base % rowAlign fmt = 0 && st.all fun x => x % rowAlign fmt == 0)

/-- No two output units share a byte (R347). -/
def CopyDesc.apart (d : CopyDesc) : Bool :=
  let n := d.outSize
  if d.dstLay = 1 then
    let m := tiledBytes d.fmt (n 1) d.outCols
    let offs := sortBy (fun x y => x < y) ((List.range (n 3)).flatMap fun e =>
      (List.range (n 2)).map fun c => c * nth d.dstS 1 + e * nth d.dstS 2)
    (n 2 ≤ 1 || m ≤ nth d.dstS 1) && (n 3 ≤ 1 || m ≤ nth d.dstS 2) &&
      (offs.zip (offs.drop 1)).all fun x => x.1 + m ≤ x.2
  else
    let row := divUp (n 0 * unitNib d.fmt d.dstLay) 2
    let s1 := nth d.dstS 0
    let s2 := nth d.dstS 1
    let s3 := nth d.dstS 2
    let span1 := if n 1 ≤ 1 then row else (n 1 - 1) * s1 + row
    let span2 := if n 2 ≤ 1 then span1 else (n 2 - 1) * s2 + span1
    (n 1 ≤ 1 || row ≤ s1) && (n 2 ≤ 1 || (n 1 * s1 ≤ s2 && span1 ≤ s2)) &&
      (n 3 ≤ 1 || (n 2 * s2 ≤ s3 && span2 ≤ s3))

/-- Step 2 of R347 for a descriptor. -/
def CopyDesc.form (d : CopyDesc) : Bool :=
  d.dims.all (1 ≤ ·) && nth d.dims 0 ≤ 16777216 && nth d.dims 1 ≤ 16777216 && nth d.dims 2 ≤ 65536 &&
    nth d.dims 3 ≤ 65536 && d.permOk && d.formatOk && !(d.srcHost && d.dstHost) &&
    !((d.srcHost || d.dstHost) && (d.permuting || d.srcLay ≠ 0 || d.dstLay ≠ 0)) &&
    sideAligned d.fmt d.srcLay d.src d.srcS && sideAligned d.fmt d.dstLay d.dst d.dstS && d.apart

/-- A host-side extent lies in the host range and its direction is allowed (R347). -/
def Cmd.hostSide (c : Cmd) (allowed : Bool) (base n : Nat) : Bool :=
  allowed && c.f 255 192 ≤ base && base + n ≤ c.f 255 192 + c.f 319 256

/-- Source and destination extents share a byte (R348). -/
def State.copyOverlap (s : State) (p : Nat) (d : CopyDesc) : Bool :=
  !d.srcHost && !d.dstHost && s.overlaps p (d.src, d.srcExtent) (d.dst, d.dstExtent)

/-- The engine's check of one descriptor; `b` holds its bytes, none where a word of it is uncorrectable (R347). -/
def State.copyCheck (s : State) (c : Cmd) (b : Option Bytes) : Status :=
  match b with
  | none => .uncorrectable
  | some b =>
    let d := copyDesc b
    let bad (host : Bool) (allowed : Bool) (a n : Nat) : Bool :=
      if host then !c.hostSide allowed a n else s.devForm c.part a n && !s.devPart c.part a n
    firstFail [
      (bad d.srcHost (c.f 137 137 = 1) d.src d.srcExtent || bad d.dstHost (c.f 138 138 = 1) d.dst d.dstExtent,
        .notPermitted),
      (!copyReserved b || !d.form || (!d.srcHost && !s.devForm c.part d.src d.srcExtent) ||
        (!d.dstHost && !s.devForm c.part d.dst d.dstExtent), .badDescriptor),
      (s.copyOverlap c.part d && (d.permuting || d.srcS ≠ d.dstS), .overlap)]

/-! ### Half bytes and runs -/

/-- The bytes that a table of half bytes covers; a half that it does not name keeps what `old` gives. -/
def cellBytes (old : Nat → Byte) : List (Nat × Nat) → List (Nat × Byte)
  | [] => []
  | (k, v) :: r =>
    let rest := cellBytes old r
    let cur : Nat := match rest with
      | (b, x) :: _ => if b = k / 2 then x.toNat else (old (k / 2)).toNat
      | [] => (old (k / 2)).toNat
    let x := if k % 2 = 0 then cur / 16 * 16 + v % 16 else cur % 16 + 16 * (v % 16)
    (k / 2, BitVec.ofNat 8 x) :: (match rest with
      | (b, _) :: t => if b = k / 2 then t else rest
      | [] => rest)

/-- Bytes at rising addresses as runs. -/
def runsOf : List (Nat × Byte) → List (Nat × Bytes)
  | [] => []
  | (a, b) :: r =>
    match runsOf r with
    | (a', bs) :: t => if a' = a + 1 then (a, b :: bs) :: t else (a, [b]) :: (a', bs) :: t
    | [] => [(a, [b])]

/-- A list of half bytes as a table; a later one wins. -/
def cellTable (cs : List (Nat × Nat)) : List (Nat × Nat) := cs.foldl (fun t c => setAt t c.1 c.2) []

/-- `n` half bytes of a number from a position. -/
def nibbles (pos n v : Nat) : List (Nat × Nat) := (List.range n).map fun i => (pos + i, v / 16 ^ i % 16)

/-! ### What a descriptor writes (R349) -/

/-- The bit pattern of a padding element at the destination: INT4 in a byte is sign-extended. -/
def CopyDesc.padUnit (d : CopyDesc) : Nat :=
  if d.fmt = 9 && d.dstLay = 0 then (if 8 ≤ d.pad % 16 then 0xF0 + d.pad % 16 else d.pad % 16) else d.pad

/-- Fringe units: those of the last tiles, and the half byte after an odd row of PACK4 (R252, R349). -/
def CopyDesc.fringe (d : CopyDesc) : List (List Nat) :=
  if d.dstLay = 1 then
    let cols := if isMx d.fmt then d.outSize 0 else divUp (d.outSize 0) 32 * 32
    (indices cols (divUp (d.outSize 1) 32 * 32) (d.outSize 2) (d.outSize 3)).filter fun i =>
      d.outSize 0 ≤ nth i 0 || d.outSize 1 ≤ nth i 1
  else if d.dstLay = 2 && d.outSize 0 % 2 = 1 then
    (indices 1 (d.outSize 1) (d.outSize 2) (d.outSize 3)).map fun i => [d.outSize 0, nth i 1, nth i 2, nth i 3]
  else []

/-- The padding and fringe half bytes of a descriptor. -/
def CopyDesc.padCells (d : CopyDesc) : List (Nat × Nat) :=
  let u := unitNib d.fmt d.dstLay
  (d.allOut.filter fun i => !d.isData i).flatMap (fun i => nibbles (d.dstPos i) u d.padUnit) ++
    d.fringe.flatMap fun i => nibbles (d.dstPos i) u 0

/-- An element's bits as the destination holds them, and whether INT4 packing saturated it. -/
def CopyDesc.convert (d : CopyDesc) (v : Nat) : Nat × Nat :=
  if d.fmt = 9 && d.srcLay = 0 && d.dstLay ≠ 0 then
    if v < 8 || 0xF8 ≤ v then (v % 16, 0) else if v < 128 then (7, 1) else (8, 1)
  else if d.fmt = 9 && d.srcLay ≠ 0 && d.dstLay = 0 then (if 8 ≤ v then 0xF0 + v else v, 0)
  else (v, 0)

/-! ### Running a COPY (R349, R351) -/

/-- A COPY under way: the state, and the bytes of host memory that it has written. -/
structure Copying where
  st : State
  laid : List (Nat × Byte)

/-- The byte of host memory at an address, as the DMA reads of the command return it. -/
def Cmd.hostAt (c : Cmd) (data : Bytes) (laid : List (Nat × Byte)) (a : Nat) : Byte :=
  match look laid a with
  | some b => b
  | none => (data[a - c.f 255 192]?).getD (Config.hostByte c.id (a - c.f 255 192))

/-- Write half bytes relative to a descriptor's destination, run by run; true where every byte was written. -/
def Copying.put (k : Copying) (c : Cmd) (d : CopyDesc) (runs : List (Nat × Bytes)) : Bool × Copying :=
  runs.foldl (fun (acc : Bool × Copying) r =>
    if d.dstHost then
      (acc.1, { st := acc.2.st.dmaWrite c.id c.port (d.dst + r.1) r.2,
                laid := (r.2.zipIdx).foldl (fun t x => setAt t (d.dst + r.1 + x.2) x.1) acc.2.laid })
    else
      let w := acc.2.st.devWrite c.part (d.dst + r.1) r.2
      (acc.1 && w.1, { acc.2 with st := w.2 })) (true, k)

/-- The runs of bytes that some half bytes make, over what the destination holds. -/
def Copying.runs (k : Copying) (c : Cmd) (data : Bytes) (d : CopyDesc) (cs : List (Nat × Nat)) : List (Nat × Bytes) :=
  let old (b : Nat) : Byte :=
    if d.dstHost then c.hostAt data k.laid (d.dst + b)
    else ((k.st.devRead srcPartial c.part (d.dst + b) 1).1.bind List.head?).getD 0
  runsOf (cellBytes old (cellTable cs))

/-- The 64 B granules that a descriptor reads, each read once in ascending order; one with an uncorrectable word is
left out. -/
def Copying.granules (k : Copying) (c : Cmd) (d : CopyDesc) : List (Nat × Bytes) × Copying :=
  if d.srcHost then ([], k)
  else
    let u := unitNib d.fmt d.srcLay
    let gs := (d.srcIdx.flatMap fun i =>
      let a := d.src + d.srcPos i / 2
      let b := d.src + (d.srcPos i + u - 1) / 2
      span (a / 64) (b / 64 + 1 - a / 64)).foldl (fun (t : List (Nat × Unit)) g => setAt t g ()) []
    gs.foldl (fun (acc : List (Nat × Bytes) × Copying) g =>
      let r := acc.2.st.devRead srcBulk c.part (g.1 * 64) 64
      (match r.1 with | some b => setAt acc.1 g.1 b | none => acc.1, { acc.2 with st := r.2 })) ([], k)

/-- The bits of a source unit, or none where a word of it could not be read. -/
def Copying.unit (k : Copying) (c : Cmd) (data : Bytes) (failed : Option Nat) (gs : List (Nat × Bytes)) (d : CopyDesc)
    (i : List Nat) : Option Nat :=
  let pos := d.srcPos i
  (List.range (unitNib d.fmt d.srcLay)).foldr (fun n (acc : Option Nat) =>
    let a := d.src + (pos + n) / 2
    let b : Option Byte :=
      if d.srcHost then (if failed.any (fun f => f / 64 == a / 64) then none else some (c.hostAt data k.laid a))
      else (look gs (a / 64)).bind fun x => x[a % 64]?
    match acc, b with
    | some v, some x => some (v * 16 + x.toNat / 16 ^ ((pos + n) % 2) % 16)
    | _, _ => none) (some 0)

/-- Copy the valid data of one descriptor: true where it was copied in full.  Of a descriptor that stops, some of the
runs before the stop have been written: how many is open (R351). -/
def Copying.copyData (k : Copying) (c : Cmd) (data : Bytes) (failed : Option Nat) (d : CopyDesc) : Bool × Copying :=
  let g := k.granules c d
  let units := d.srcIdx.map fun i => (i, g.2.unit c data failed g.1 d i)
  let good := units.takeWhile fun u => u.2.isSome
  let conv := good.map fun u => (d.dstPos (d.outIdx u.1), d.convert (u.2.getD 0))
  let u := unitNib d.fmt d.dstLay
  let runs := g.2.runs c data d (conv.flatMap fun x => nibbles x.1 u x.2.1)
  if good.length = units.length then
    let w := g.2.put c d runs
    if w.1 then
      let n := units.length * u / 2
      let t := (w.2.st.bump (at_ Ob.COPY_BYTES c.part) n).bump (at_ Ob.CONV_SAT c.part) (conv.map fun x => x.2.2).sum
      let t := if d.transposing then t.bump (at_ Ob.COPY_STRIDED_BYTES c.part) n else t
      (true, { w.2 with st := t })
    else (false, w.2)
  else
    let v := g.2.st.free
    (false, ({ g.2 with st := v.2 }.put c d (runs.take (v.1 % (runs.length + 1)))).2)

/-- Phase 1: every padding position and fringe of every descriptor (R349). -/
def Copying.pads (k : Copying) (c : Cmd) (data : Bytes) (ds : List CopyDesc) : Bool × Copying :=
  ds.foldl (fun (acc : Bool × Copying) d =>
    if !acc.1 then acc else acc.2.put c d (acc.2.runs c data d d.padCells)) (true, k)

/-- Phase 2: the valid data of each descriptor in order; the number copied in full. -/
def Copying.copies : Copying → Cmd → Bytes → Option Nat → Nat → List CopyDesc → (Nat × Bool) × Copying
  | k, _, _, _, n, [] => ((n, true), k)
  | k, c, data, failed, n, d :: ds =>
    let r := k.copyData c data failed d
    if r.1 then Copying.copies r.2 c data failed (n + 1) ds else ((n, false), r.2)

/-- COPY's work: every descriptor is read and checked before any byte is written (R347–R351).  `failed` is the host
address of a read that failed under R130. -/
def State.copyWork (s : State) (c : Cmd) (data : Bytes) (failed : Option Nat) : State :=
  let n := c.f 136 128
  let r := s.matJobs c.part (c.f 127 64) n
  match (r.1.zipIdx).find? fun d => r.2.copyCheck c d.1 != .ok with
  | some d =>
    let st := r.2.copyCheck c d.1
    (if st = .overlap then r.2.bump (at_ Ob.COPY_OVERLAP c.part) else r.2).workDone c st d.2
  | none =>
    let ds := r.1.filterMap fun d => d.map copyDesc
    let p := Copying.pads { st := r.2, laid := [] } c data ds
    if !p.1 then p.2.st.workDone c .uncorrectable 0
    else
      let x := p.2.copies c data failed 0 ds
      x.2.st.workDone c (if x.1.2 then .ok else if failed.isSome && ((ds[x.1.1]?).any (·.srcHost)) then
        .linkRetryExhausted else .uncorrectable) x.1.1

/-- COPY's checks at admission (R346). -/
def State.copyAdmit (s : State) (c : Cmd) : Status :=
  let n := c.f 136 128
  let host := c.f 137 137 = 1 || c.f 138 138 = 1
  if c.f 191 139 ≠ 0 || c.f 511 320 ≠ 0 || n = 0 || 256 < n || c.f 127 64 % 64 ≠ 0 || s.cmdKernel c ≠ some .copy ||
      s.cmdLat c || (decide (c.f 319 256 = 0) = host) || (!host && c.f 255 192 ≠ 0) then .badDescriptor else .ok

/-- COPY (R346, R349): admission, and its work once its item runs, with the bytes of its host range that its DMA reads
return. -/
def execCopy (id : Nat) (data : Bytes) (s : State) : Host.Outcome State Fault Refusal :=
  .next (match s.admitting id 0x30 with
    | some c => s.admitIf c (s.copyAdmit c)
    | none => match s.atWork id 0x30 with
      | some c => s.copyWork c data none
      | none => s)

end Sys2Proof.Machine
end

