-- ==== Sys2Proof/Machine/Release.lean ====
section
/-!
DEFINITION. Dispatch, completion and release of items: what becomes of a released item, the end marks of a graph,
FLOW_OPEN and FLOW_CLOSE, LATE drops, what waited for a context or for space, and the edges of PIPE_STOP and TABLE_DROP
(R82–R104, R178, R242, R246, R303).
-/
namespace Sys2Proof.Machine

/-! ### Host commands and look-ups leave (R51, R92, R97, R120) -/

/-- A released host flow command completes with its item's status and the RESULT of its work. -/
def State.releaseCmd (s : State) (id : Nat) (st : Status) : State :=
  match s.cmd? id with
  | none => s
  | some c =>
    let result : Nat := match c.stage with
      | .done st' r => if st = st' then r else 0
      | _ => 0
    if c.opcode = 0x28 then
      let lat := s.cmdLat c
      let s := s.countLookup c.part lat c.late c.inBound
      s.finish id (if lat && c.late && st.good then .deadline else st) result
    else s.finish id st result

/-- A released look-up request is answered; `out` holds its rows. -/
def State.releaseRlt (s : State) (i : Nat) (st : Status) (out : Bytes) : State :=
  match look s.rltReqs i with
  | none => s
  | some r =>
    let s := (s.countLookup (s.div.netPart r.net) true r.late r.inBound)
    { s.sendRsp r (if r.late && st.good then .deadline else st) out with rltReqs := dropAt s.rltReqs i }

/-- The command or request of an item that its flow does not take completes with a status. -/
def State.refuse (s : State) (it : Item) (st : Status) : State :=
  match it.work with
  | .cmd id => s.releaseCmd id st
  | .rlt i => s.releaseRlt i st []
  | _ => s

/-! ### Rows between flows (R14, R177, R178, R205) -/

/-- A hole as an item. -/
def holeItem (st : Status) (stream openNo object ordinal : Nat) : Item :=
  mkItem 0x7FF 0 0 0 0 st (.hole stream openNo object ordinal)

/-- An end mark as an item (R242). -/
def endMarkItem : Item := mkItem 0x7FF 0 0 0 0xEE00000000000000 .ok .endMark

/-- Group pieces into runs of at most 256 consecutive rows for one core, newest run first. -/
def groupPieces : List (List Row × Nat ⊕ (Status × Nat × Nat × Nat × Nat)) → List Piece →
    List (List Row × Nat ⊕ (Status × Nat × Nat × Nat × Nat))
  | acc, [] => acc
  | acc, .hole st a b c d :: r => groupPieces (.inr (st, a, b, c, d) :: acc) r
  | acc, .row x t :: r =>
    match acc with
    | .inl (rs, u) :: rest =>
      if u = t && rs.length < 256 then groupPieces (.inl (rs ++ [x], u) :: rest) r
      else groupPieces (.inl ([x], t) :: acc) r
    | _ => groupPieces (.inl ([x], t) :: acc) r

/-- Enqueue items to a flow in order. -/
def State.enqueueAll (s : State) (p f : Nat) (its : List Item) : State :=
  its.foldl (fun t it => (t.enqueueBolt p f it).2) s

/-- Enqueue pieces to a flow in order: runs of rows, written to a home vault, and holes (R205). -/
def State.enqueuePieces (s : State) (p f : Nat) (im : Image) (l : Layout) (ps : List Piece) : State :=
  ((groupPieces [] ps).reverse).foldl (fun (t : State) g => match g with
    | .inl (rs, u) => let r := t.putRun p im l rs u; r.2.enqueueAll p f r.1
    | .inr (st, a, b, c, d) => t.enqueueAll p f [holeItem st a b c d]) s

/-- An item of a flow is released with a status other than OK after it was counted: DROPS. -/
def State.countDrop (s : State) (p f : Nat) : State :=
  match s.flow? p f with
  | some x => s.setFlow p f { x with drops := satAdd 65535 x.drops 1 }
  | none => s

/-- A sink takes a piece: it appends one entry to its set (R177). -/
def State.sinkPiece (s : State) (p f set : Nat) (l : Layout) (x : Piece) : State :=
  let r := match x with
    | .row y _ => s.appendEntry p set (some (l, y)) .ok y.stream y.openNo y.object y.ordinal
    | .hole st a b c d => s.appendEntry p set none st a b c d
  if r.1 = .ok then r.2 else r.2.countDrop p f

/-- What an operator stage runs and where its output goes: the operator on a core, the set of a sink, and the flow that takes
the output of a stage that is no sink (R242). -/
structure StageOut where
  op : OpCtx
  set : Option Nat
  flow : Option Nat

/-- A stage of a graph on a core. -/
def stageOut (p h : Nat) (im : Image) (g : Graph) (st : GraphStage) (core : Nat) : StageOut :=
  let o := opCtx p h im st.op core
  { op := o, set := st.sinkSet, flow := if isSink im g st then none else some o.outFlow }

/-- The operator that runs the items of a flow on a core. -/
def State.opOf (s : State) (p f core : Nat) : Option StageOut :=
  match s.imageOf p f, s.stageOf p f with
  | some (h, im), some (gi, _, st) =>
    (im.content.graphs.find? fun g => g.index == gi).map fun g => stageOut p h im g st core
  | _, _ => none

/-- A piece is a hole. -/
def Piece.isHole : Piece → Bool
  | .hole _ _ _ _ _ => true
  | .row _ _ => false

/-- The pieces that an operator's input flow releases go on: to the sink's set, or to OUT_FLOW.  A hole made in a flow
that is not ordered goes no further (R177). -/
def State.sendPieces (s : State) (p f : Nat) (x : StageOut) (ordered : Bool) (ps : List Piece) : State :=
  let s := (ps.filter Piece.isHole).foldl (fun t _ => t.countDrop p f) s
  let ps := if ordered then ps else ps.filter fun y => !y.isHole
  match x.set, x.flow with
  | some n, _ => ps.foldl (fun t y => t.sinkPiece p f n x.op.outL y) s
  | none, some g => s.enqueuePieces p g x.op.img x.op.outL ps
  | none, none => s

/-- A hole that an operator flow received, or the hole that an item of it has become, goes on. -/
def State.passHole (s : State) (p f : Nat) (st : Status) (stream openNo object ordinal : Nat) : State :=
  match s.opOf p f 0 with
  | none => s
  | some x => match x.set, x.flow with
    | some n, _ => s.sinkPiece p f n x.op.outL (.hole st stream openNo object ordinal)
    | none, some g => s.enqueueAll p g [holeItem st stream openNo object ordinal]
    | none, none => s

/-! ### Leaving a decode flow (R14, R178, R341) -/

/-- Key of a record counter. -/
def ordKey (stream openNo object : Nat) : Nat := (stream * 2 ^ 48 + openNo) * 2 ^ 64 + object

/-- The ORDINAL of the next record released (R178). -/
def State.nextOrdinal (s : State) (p stream openNo object : Nat) : Nat × State :=
  let k := ordKey stream openNo object
  let n := lookD (s.part p).ordinals k 0
  (n, s.setPart p { s.part p with ordinals := setAt (s.part p).ordinals k (n + 1) })

/-- The image of a decoder table reference and the layout of its rows. -/
def State.decoderRows (s : State) (p table : Nat) : Option (Image × DecoderTable × Layout) :=
  match look (s.part p).images (bitsOf table 10 8), s.decoderTable p table with
  | some im, some t => some (im, t, im.layout t.layout)
  | _, _ => none

/-- A record decoder's work: the row and its home core, or a hole (R171–R175, R341). -/
def State.decodeWork (s : State) (p table stream openNo object maxField : Nat) (fields : List (Nat × Nat × Nat × Nat))
    (b : Bytes) : (Status × List Piece) × State :=
  let hole (st : Status) (s : State) : (Status × List Piece) × State := ((st, [.hole st stream openNo object 0]), s)
  match s.decoderRows p table with
  | none => hole .badDescriptor s
  | some (im, t, l) => match decodeRecord t l maxField fields b with
    | none => hole .corruptRecord (s.bump (at_ Ob.CORRUPT_RECORDS p))
    | some d =>
      let v := (s.bump (at_ Ob.NARROW_SAT p) d.sat).bindRules p (bitsOf table 10 8) im t (d.row l.cols.length)
      let r : Row := { stream := stream, openNo := openNo, object := object % 2 ^ 32, ordinal := 0, trunc := false,
                       cols := v.1.2 }
      let n := rowLen l r
      if !v.1.1 then hole .uncorrectable v.2
      else if l.maxLen < n then hole .badDescriptor v.2
      else
        let core := if t.partKeys.isEmpty then 0x7FF else s.div.place p (rowKeyWord l t.partKeys r) t.partSeed
        ((.ok, [.row r core]), v.2.addWork p 3 n)

/-- What a decode flow releases goes to DEST_FLOW, its ORDINAL assigned (R178). -/
def State.sendRecord (s : State) (p : Nat) (x : Flow) (st : Status) (table stream openNo object : Nat)
    (row : Option (Row × Nat)) : State :=
  let o := s.nextOrdinal p stream openNo object
  let hole (st : Status) : State := o.2.enqueueAll p x.destFlow [holeItem st stream openNo (object % 2 ^ 32) o.1]
  if x.destKind ≠ 1 then o.2
  else match row with
    | none => hole st
    | some (r, t) => match s.decoderRows p table with
      | some (im, _, l) => o.2.enqueuePieces p x.destFlow im l [.row { r with ordinal := o.1 } t]
      | none => hole .badDescriptor

/-! ### End marks (R242) -/

/-- Of two SEQs of a flow, the one enqueued later. -/
def laterSeq (a b : Nat) : Nat := if (a + 2 ^ 32 - b) % 2 ^ 32 < 2 ^ 31 then a else b

/-- A stage has received an end mark. -/
def StageRun.mark (y : StageRun) (seq : Nat) : StageRun :=
  { y with marks := y.marks + 1, last := if y.marks = 0 then seq else laterSeq seq y.last }

/-- An end mark has left the input flow of a stage of a running graph. -/
def State.noteMark (s : State) (p f seq : Nat) : State :=
  let runs := (s.part p).runs.map fun r =>
    match look (s.part p).images r.handle with
    | none => r
    | some im => match im.content.graphs.find? fun g => g.index == r.index with
      | none => r
      | some g => { r with stages := (r.stages.zip g.stages).map fun y =>
          if im.flowBase + y.2.inFlow = f && !y.1.ended then y.1.mark seq else y.1 }
  s.setPart p { s.part p with runs := runs }

/-! ### Release of one item (R91, R92) -/

/-- A released position reaches its batch, unless its epoch was ended early (R187, R200). -/
def State.releasePosition (s : State) (p e : Nat) (r : Released) : State :=
  match s.epoch? p e with
  | some x => if x.aborted then s else s.fillBatch p e r
  | none => s

/-- A run of rows leaves an operator's input flow: the operator takes it where the flow releases in order, and one hole goes on
for a run that is a hole (R205). -/
def State.deliverRows (s : State) (p f : Nat) (ordered : Bool) (it : Item) (rs : List Row) : State :=
  if it.status = .ok then
    match s.opOf p f it.unit with
    | some x => let r := opRun x.op it.arg0 rs s; r.2.sendPieces p f x ordered r.1
    | none => s
  else match rs with
    | r :: _ => if ordered then s.passHole p f it.status r.stream r.openNo r.object r.ordinal else s
    | [] => s

/-- What a decoder or an operator made of an item leaves its flow. -/
def State.deliverOutcome (s : State) (p f : Nat) (x : Flow) (it : Item) (ps : List Piece) : State :=
  if s.kernelOf x = some .decode then
    match ps with
    | [.row r t] => s.sendRecord p x it.status it.arg0 r.stream r.openNo it.arg1 (if it.status = .ok then some (r, t) else none)
    | [.hole _ a b c _] => s.sendRecord p x it.status it.arg0 a b c none
    | _ => s
  else match s.opOf p f it.unit with
    | some y => s.sendPieces p f y (x.mode == .ordered) ps
    | none => s

/-- What becomes of an item that a flow releases.  What a flow with DEST_KIND 0 held when its context failed is discarded
(R104). -/
def State.deliver (s : State) (p f : Nat) (x : Flow) (it : Item) : State :=
  if x.failed && x.destKind = 0 then s
  else match it.work with
  | .raw => s
  | .cmd id => s.releaseCmd id it.status
  | .rlt i => s.releaseRlt i it.status []
  | .record table stream openNo object _ _ _ => s.sendRecord p x it.status table stream openNo object none
  | .position e j hole _ _ _ => s.releasePosition p e { pos := j, status := it.status, hole := hole, smp := none }
  | .sample e j smp =>
    s.releasePosition p e { pos := j, status := it.status, hole := false, smp := if it.status = .ok then some smp else none }
  | .endMark =>
    if it.status ≠ .ok then s
    else if s.kernelOf x = some .decode then (if x.destKind = 1 then s.enqueueAll p x.destFlow [endMarkItem] else s)
    else s.noteMark p f it.seq
  | .hole a b c d =>
    if s.kernelOf x = some .decode then s.sendRecord p x it.status 0 a b c none else s.passHole p f it.status a b c d
  | .rows rs => s.deliverRows p f (x.mode == .ordered) it rs
  | .outcome ps => s.deliverOutcome p f x it ps

/-- Key of a completion of an item that waits (R99, R102). -/
def waitKey (seq : Nat) : Nat := 2 ^ 33 + seq

/-- A finished item leaves its unit and its flow, and everything this releases is delivered in order (R91, R92).  A
core's slot stays until its bolt ends (R89) where `bolt` says so. -/
def State.endItem (s : State) (p f : Nat) (it : Item) (bolt : Bool) : State :=
  match s.flow? p f with
  | none => s
  | some x =>
    let s := match s.kernelOf x with
      | some k => if bolt && k.kind == UnitKind.core then s.leaveUnit .core it.unit f it.seq else s.unplace k.kind it.unit f it.seq
      | none => s
    let r := x.complete it
    let s := ((s.unblock p f it.seq).unblock p f (waitKey it.seq)).setFlow p f { r.2 with lastUse := s.now }
    ((r.1.foldl (fun (t : State) y => t.deliver p f x y) s).closeIfDrained p f).flowGauges p

/-! ### Dispatch (R84–R88, R93) -/

/-- An item of a flow takes a status, wherever the flow holds it. -/
def Flow.mark (x : Flow) (seq : Nat) (st : Status) : Flow :=
  let set (l : List Item) : List Item := l.map fun y => if y.seq = seq then { y with status := st } else y
  { x with queued := set x.queued, running := set x.running, slow := set x.slow, held := set x.held }

/-- The item of a SEQ, where the dispatch rules let a unit take it now: the item that the flow offers, or one stopped in the
slow lane (R84–R88, R93, R499). -/
def State.pick (s : State) (p f : Nat) (x : Flow) (k : UnitKind) (seq unit : Nat) : Option Item :=
  match (s.offer p x k).filter fun it => it.seq == seq && s.fits p x k it unit && s.mayServe p k unit f x.cls x.prio with
  | some it => some it
  | none =>
    if s.resumes p x k (some unit) && s.mayServe p k unit f .bulk 0 then
      x.slow.find? fun it => it.stopped && it.seq == seq && it.unit == unit
    else none

/-- An assembly item captures the versions of its tables when it is dispatched (R300). -/
def State.withVersions (s : State) (p : Nat) (it : Item) : Item :=
  match it.work with
  | .position e j h row len _ => match s.epoch? p e with
    | some ep => if it.begun then it else { it with work := .position e j h row len (s.captureVersions p ep.plan) }
    | none => it
  | _ => it

/-- An item whose context is resident goes to its unit.  An entry that cannot be read makes the item one that completes with
UNCORRECTABLE (R104). -/
def State.issueTo (s : State) (p f : Nat) (x : Flow) (k : UnitKind) (unit : Nat) (it : Item) : State :=
  if it.stopped then
    let s := s.noteTurn p k unit f 0
    s.resume p f x k unit it
  else
    let r := s.readEntry p it
    if !r.1 then r.2.setFlow p f (x.mark it.seq .uncorrectable)
    else
      let s := if x.cls = .bulk then r.2.noteTurn p k unit f x.prio else r.2
      s.dispatch p f x k unit (s.withVersions p it)

/-- ITEM_DISPATCH (R86): an item that the dispatch rules let a unit take now is issued to it; no other is.  While its flow's
context cannot be resident it waits (R99). -/
def execItemDispatch (flow : FlowNo) (seq unit : Nat) (s : State) : Host.Outcome State Fault Refusal :=
  let f := flow.val
  let p := s.div.flowPart f
  .next (match (s.flow? p f).bind fun x => (s.kernelOf x).bind fun kn => (s.pick p f x kn.kind seq unit).map fun it => (kn.kind, it) with
    | none => s
    | some (k, it) => match s.touch p f with
      | none => s.block p f seq
      | some t => match t.flow? p f with
        | some x => if x.failed then t else t.issueTo p f x k unit it
        | none => t)

/-! ### Completion (R81, R91, R92) -/

/-- A queued item that completes without running: a hole, an end mark, or an item whose TARGET can never take it (R81);
its status.  DESIGN CHOICE (log 171): an item of a flow whose KERNEL names no entry of the kernel library has BAD_DESCRIPTOR. -/
def State.idleStatus (s : State) (p : Nat) (x : Flow) (it : Item) : Option Status :=
  if x.hold || !(x.window.any (·.seq == it.seq)) || (x.mode == .strict && !x.running.isEmpty) then none
  else if it.status ≠ .ok then some it.status
  else if it.work = .endMark then some .ok
  else match s.kernelOf x with
    | some k => if s.targetCheck p x k.kind it = .ok then none else some (s.targetCheck p x k.kind it)
    | none => some .badDescriptor

/-- The flow that an item's output goes to. -/
def State.nextFlow (s : State) (p f : Nat) (x : Flow) : Option Nat :=
  match s.kernelOf x with
  | some .decode => if x.destKind = 1 then some x.destFlow else none
  | some .operator => (s.opOf p f 0).bind fun y => if y.set.isSome then none else y.flow
  | _ => none

/-- The rows that an assembly item looks up lie in stands that serve work (R17, R45). -/
def State.positionServed (s : State) (p e j row len : Nat) : Bool :=
  match s.epoch? p e with
  | none => true
  | some x => match look (s.part p).images x.handle with
    | none => true
    | some im =>
      let l := im.layout x.plan.layout
      let b := (s.devPieces p (2 ^ 62 + row) len).flatMap fun y => s.peek y.1 y.2
      let r := x.plan.exprs.foldl (fun r i => (runExpr (im.program i) l (x.augOf j).2.2.2 r).2.1) (rowOf l b)
      x.plan.bags.all fun g => s.rowsServed p g.table ((bagOf g r).map (·.1))

/-- An item's work can end now: the duty leaves its class cycles (R480), and the stands that it needs serve work. -/
def State.workServed (s : State) (p : Nat) (x : Flow) (it : Item) : Bool :=
  s.classRuns x.cls && match it.work with
  | .rlt i => (look s.rltReqs i).all fun r => s.rowsServed p r.table r.ids
  | .position e j _ row len _ => s.positionServed p e j row len
  | _ => true

/-- The end of a host command's work, or none while it still works: its transfers failed with their link (R17), or it is done. -/
def State.cmdWork (s : State) (id : Nat) : Option (Status × State) :=
  let s := match s.cmd? id with
    | some c => if c.opcode = 0x28 && c.stage = Stage.running && c.f 99 99 = 0 then s.lookupWork c [] else s
    | none => s
  match s.cmd? id with
  | none => some (.aborted, s)
  | some c => match c.stage with
    | .done st _ => some (if c.cut then .linkRetryExhausted else st, s)
    | _ => none

/-- A decoder's work on the record bytes of an item, which lie in the landing buffer (R61, R171). -/
def State.recordWork (s : State) (p : Nat) (it : Item) (table stream openNo object maxField : Nat)
    (fields : List (Nat × Nat × Nat × Nat)) (b : Bytes) : Item × State :=
  let m := s.sramRead unitLbuf p it.arg0 it.len
  if !m.1 then ({ it with status := .uncorrectable }, m.2)
  else
    let r := m.2.decodeWork p table stream openNo object maxField fields b
    ({ it with status := r.1.1, arg0 := table, arg1 := object, work := .outcome r.1.2 }, r.2)

/-- The end of an item's work on its unit: the finished item and the state after, or none while it still works.  A run of rows
of an ordered-release flow is taken when the flow releases it, so that operators see the release order (R205). -/
def State.itemWork (s : State) (p f : Nat) (x : Flow) (kn : Kernel) (it : Item) : Option (Item × State) :=
  match it.work with
  | .cmd id => (s.cmdWork id).map fun r => ({ it with status := r.1 }, r.2)
  | .rlt i => match look s.rltReqs i with
    | some r =>
      let w := s.rltWork r
      some ({ it with status := w.1.1 }, w.2.releaseRlt i w.1.1 w.1.2)
    | none => some (it, s)
  | .record table stream openNo object maxField fields b =>
    if kn ≠ .decode then some ({ it with status := .badDescriptor }, s)
    else some (s.recordWork p it table stream openNo object maxField fields b)
  | .rows rs =>
    match kn, s.opOf p f it.unit with
    | .operator, some y =>
      if x.mode = .ordered then some (it, s)
      else let r := opRun y.op it.arg0 rs s; some ({ it with work := .outcome r.1 }, r.2)
    | _, _ => some ({ it with status := .badDescriptor }, s)
  | .position e j h row len vs =>
    let r := s.assemble p e j row len vs
    some ({ it with status := r.1.1, work := match r.1.2 with | some y => .sample e j y | none => .position e j h row len vs }, r.2)
  | _ => some (it, s)

/-- Bytes of a core's scratchpad. -/
def scratchBytes : Nat := 2 ^ 18

/-- A bolt's scratchpad reads well: false where a word of it holds a double-bit error, which fails the bolt (R61). -/
def State.readScratch (s : State) (p : Nat) (kn : Kernel) (unit : Nat) : Bool × State :=
  if kn.kind ≠ .core then (true, s)
  else
    let r := s.sramRead unitScratch p (unit * 2 ^ 32) scratchBytes
    if r.1 then r else (false, r.2.sramWrite unitScratch (unit * 2 ^ 32) scratchBytes)

/-- The end of the item that a unit runs: none while it still works or while a stand that it needs serves nothing.  A bolt whose
destination has no room stops there (R102). -/
def State.endBolt (s : State) (p f : Nat) (x : Flow) (kn : Kernel) (it : Item) : Option State :=
  if !s.onUnit kn.kind it.unit p f it.seq then none
  else if it.status ≠ .ok then some (s.endItem p f it true)
  else if !s.workServed p x it then none
  else if (s.nextFlow p f x).any fun g => !s.hasRoom p g then some (s.block p f (waitKey it.seq))
  else
    let r := s.readScratch p kn it.unit
    if !r.1 then some (r.2.endItem p f { it with status := .uncorrectable } true)
    else (r.2.itemWork p f x kn it).map fun w => w.2.endItem p f w.1 true

/-- Completion of the item of a SEQ of a flow whose context is resident; none where it cannot complete now. -/
def State.completeNow (s : State) (p f seq : Nat) (x : Flow) : Option State :=
  if x.failed then
    ((x.queued ++ x.running ++ x.slow).find? (·.seq == seq)).map fun it => s.endItem p f it false
  else match x.queued.find? (·.seq == seq) with
    | some it => (s.idleStatus p x it).map fun st => s.endItem p f { it with status := st } false
    | none => (x.inFlight? seq).bind fun it => (s.kernelOf x).bind fun kn => s.endBolt p f x kn it

/-- Completion of the item of a SEQ; while its flow's context cannot be resident it waits (R99). -/
def State.completeItem (s : State) (p f seq : Nat) : State :=
  match (s.flow? p f).bind fun x => s.completeNow p f seq x with
  | none => s
  | some _ => match s.touch p f with
    | none => s.block p f (waitKey seq)
    | some t => match t.flow? p f with
      | some x => (t.completeNow p f seq x).getD t
      | none => t

/-- ITEM_COMPLETION (R92, R317). -/
def execItemCompletion (what : Completion) (s : State) : Host.Outcome State Fault Refusal :=
  .next (match what with
    | .item flow seq => s.completeItem (s.div.flowPart flow.val) flow.val seq
    | .lane core lane => s.laneItem core.val lane.val)

/-! ### FLOW_OPEN and FLOW_CLOSE (R82, R83, R99) -/

/-- What a write of FLOW_OPEN does (R82).  While no context can be made resident the open waits (R99). -/
def opFlowOpen (w : Writer) (b : Bytes) (s : State) : Ans :=
  let st := s.openCheck w.owner w.part b
  let id := leAt b 0 4
  let p := s.div.flowPart id
  let v := leNat (sliceB b 4 64)
  if st ≠ .ok then (some st, s)
  else if s.canRefill p then (some .ok, s.openFlow p id v w.owner false)
  else (none, (s.setPart p { s.part p with waits := (s.part p).waits ++ [(id, .opens v w.owner)] }).await .flowOpen id w.reply)

/-- FLOW_OPEN (R82). -/
def execFlowOpen (acc : Access) (s : State) : Host.Outcome State Fault Refusal :=
  .next (s.write acc (isKey Ob.FLOW_OPEN) opFlowOpen)

/-- Release queued items of a flow with a status, oldest first. -/
def State.dropQueued (s : State) (p f : Nat) (st : Status) : State :=
  match s.flow? p f with
  | none => s
  | some x => x.queued.foldl (fun t it => t.endItem p f { it with status := st } false) s

/-- A close of an open flow (R83): CLOSING is set, and every queued item is released with ABORTED. -/
def State.closeFlow (s : State) (p f : Nat) : State :=
  match s.flow? p f with
  | none => s
  | some x => if x.closing then s
    else ((s.setFlow p f { x with closing := true }).dropQueued p f .aborted).closeIfDrained p f

/-- R83's checks of a FLOW_CLOSE. -/
def State.closeCheck (s : State) (w : Writer) (id : Nat) : Status :=
  match s.flow? (s.div.flowPart id) id with
  | x? => firstFail [
      (w.isHost && (262144 ≤ id || s.div.flowPart id ≠ w.part), .notPermitted),
      (x?.isNone, .badDescriptor),
      (w.isHost && x?.any (fun x => x.owner ≠ w.owner), .notPermitted)]

/-- What a write of FLOW_CLOSE does (R83).  While the flow's context cannot be resident the close waits (R99). -/
def opFlowClose (w : Writer) (id : Nat) (s : State) : Ans :=
  let p := s.div.flowPart id
  let st := s.closeCheck w id
  if st ≠ .ok then (some st, s)
  else match s.touch p id with
    | some t => (some .ok, t.closeFlow p id)
    | none => (none, (s.setPart p { s.part p with waits := (s.part p).waits ++ [(id, .close)] }).await .flowClose id w.reply)

/-- FLOW_CLOSE (R83). -/
def execFlowClose (acc : Access) (s : State) : Host.Outcome State Fault Refusal :=
  .next (s.write acc (isKey Ob.FLOW_CLOSE) (numOp opFlowClose))

/-! ### What waited goes on (R99, R100, R102) -/

/-- The opens and closes of a flow no longer wait. -/
def State.dropWaits (s : State) (p f : Nat) : State :=
  s.setPart p { s.part p with waits := (s.part p).waits.filter (·.1 != f) }

/-- CONTEXT_REFILL (R99): the open or close of a flow that waited for a context goes on, a close after the enqueues that came
before it (R100); a flow for which neither waits has its context refilled. -/
def execContextRefill (flow : FlowNo) (s : State) : Host.Outcome State Fault Refusal :=
  let f := flow.val
  let p := s.div.flowPart f
  .next (match (s.part p).waits.find? (·.1 == f) with
    | some (_, .opens v owner) =>
      if s.canRefill p then ((s.dropWaits p f).openFlow p f v owner false).answer .flowOpen f .ok else s
    | some (_, .close) =>
      if s.isStalled p f then s
      else match s.touch p f with
        | some t => ((t.dropWaits p f).closeFlow p f).answer .flowClose f .ok
        | none => s
    | none => (s.touch p f).getD s)

/-- An enqueue that waited goes on, where it can: it joins its flow, or a command or request that finds no entry, or finds its
flow closed, completes so. -/
def State.tryResume (s : State) (p : Nat) (e : Nat × Item) : Option State :=
  let t := s.setPart p { s.part p with stalled := (s.part p).stalled.erase e }
  match t.enqueueNow p e.1 e.2 with
  | (none, _) => none
  | (some .ok, u) => some u
  | (some .noResource, u) => if e.2.isRequest then some (u.refuse e.2 .noResource) else none
  | (some st, u) => some (u.refuse e.2 st)

/-- The enqueues that wait, of each flow the first (R100). -/
def Part.firstStalled (x : Part) : List (Nat × Item) := x.stalled.filter fun e => x.stalled.find? (·.1 == e.1) == some e

/-- ENQUEUE_RESUME (R99, R102): of the enqueues that wait, the first that can proceed does. -/
def execEnqueueResume (part : PartNo) (s : State) : Host.Outcome State Fault Refusal :=
  let p := part.val
  .next (((s.part p).firstStalled.findSome? (s.tryResume p)).getD s)

/-! ### LATE (R94) -/

/-- The boom alone keeps the flow's oldest queued item from dispatch (R94). -/
def Flow.boomFull (x : Flow) : Bool :=
  !x.hold && !x.closing && x.running.length < x.maxInflight &&
    (match x.queued.head? with
      | some it => x.boomSize ≤ (it.seq + 2 ^ 32 - x.releaseSeq) % 2 ^ 32
      | none => false)

/-- LATE_DROP (R94): at an edge an item of an ordered-release flow that has been dispatched becomes a hole with LATE, at its hard
limit, or slow at the head of a full boom. -/
def execLateDrop (flow : FlowNo) (seq : Nat) (s : State) : Host.Outcome State Fault Refusal :=
  let f := flow.val
  let p := s.div.flowPart f
  .next (match s.flow? p f with
    | some x =>
      match (x.queued.filter (·.begun) ++ x.running ++ x.slow).find? (·.seq == seq) with
      | some it =>
        let slow := x.slow.any (·.seq == seq)
        if x.mode = .ordered && (x.hardLimit ≤ s.age it || (slow && seq = x.releaseSeq && x.boomFull)) then
          (s.bump (at_ Ob.LATE_DROPS p)).endItem p f { it with status := .late } false
        else s
      | none => s
    | none => s)

/-! ### END_MARK (R223, R242, R244) -/

/-- End marks a stage expects (R242). -/
def State.marksDue (s : State) (p : Nat) (im : Image) (g : Graph) (r : GraphRun) (x : GraphStage) : Nat :=
  if x.endIn = 0 then r.sources
  else ((g.stages.filter fun y => outFlowOf im y.op == x.inFlow).map fun y =>
    (s.maskCores p (im.flowBase + y.inFlow)).length).sum

/-- The flow has released every item enqueued before a SEQ. -/
def Flow.clearBefore (x : Flow) (seq : Nat) : Bool :=
  x.items.all fun it => !(((seq + 2 ^ 32 - it.seq) % 2 ^ 32) < 2 ^ 31 && it.seq != seq)

/-- Change a stage of a run. -/
def State.setStage (s : State) (p : Nat) (h gi i : Nat) (y : StageRun) : State :=
  s.setPart p { s.part p with runs := (s.part p).runs.map fun r =>
    if r.handle = h && r.index = gi then { r with stages := r.stages.set i y } else r }

/-- A core of a stage carries out its end-mark action and passes one mark on (R242). -/
def State.coreEnd (s : State) (p f : Nat) (ordered : Bool) (x : StageOut) : State :=
  let r := opEnd x.op s
  let s := r.2.sendPieces p f x ordered r.1
  match x.flow with
  | some g => s.enqueueAll p g [endMarkItem]
  | none => s

/-- Every core of a stage carries out its end-mark action (R242). -/
def State.stageEnd (s : State) (p f h : Nat) (im : Image) (g : Graph) (st : GraphStage) : State :=
  let ordered := (s.flow? p f).any fun x => x.mode == .ordered
  (s.maskCores p f).foldl (fun (t : State) core => t.coreEnd p f ordered (stageOut p h im g st core)) s

/-- A run whose sinks have all ended completes, and HOLD is set on its flows at the next edge (R244). -/
def State.endRun (s : State) (p : Nat) (im : Image) (g : Graph) (r : GraphRun) : State :=
  let sinks := (g.stages.zip r.stages).filter fun y => isSink im g y.1
  if sinks.all (·.2.ended) then
    let s := s.setPart p { s.part p with runs := (s.part p).runs.filter fun x => !(x.handle == r.handle && x.index == r.index) }
    (s.finish r.cmd .ok sinks.length).askHold p (s.graphFlows p im g) true
  else s

/-- The end mark of a stage has come: its cores act, the flows it unblocks are released, and the run ends with its last
sink (R223, R242, R244). -/
def State.passStage (s : State) (p f h : Nat) (im : Image) (g : Graph) (gi i : Nat) (st : GraphStage) (y : StageRun) : State :=
  let before := s.sealedProbes p h im
  let s := (s.stageEnd p f h im g st).setStage p h gi i { y with ended := true }
  let s := s.askHold p ((s.sealedProbes p h im).filter fun x => !before.contains x) false
  match (s.part p).runs.find? fun r => r.handle == h && r.index == gi with
  | some r => s.endRun p im g r
  | none => s

/-- END_MARK (R242); `stage` is graph index × 256 + stage number. -/
def execEndMark (part : PartNo) (image : HandleNo) (stage : Nat) (s : State) : Host.Outcome State Fault Refusal :=
  let p := part.val
  let h := image.val
  let gi := stage / 256
  let i := stage % 256
  .next (match look (s.part p).images h, (s.part p).runs.find? fun r => r.handle == h && r.index == gi with
    | some im, some r => match im.content.graphs.find? fun g => g.index == gi with
      | none => s
      | some g => match g.stages[i]?, r.stages[i]? with
        | some st, some y =>
          let f := im.flowBase + st.inFlow
          let clear : Bool := match s.flow? p f with | some x => x.clearBefore y.last && !x.hold | none => false
          if y.ended || y.marks < s.marksDue p im g r st || !clear then s else s.passStage p f h im g gi i st y
        | _, _ => s
    | _, _ => s)

/-! ### Ending work early (R246, R303) -/

/-- Every item of a partition's flows that satisfies a condition ends with ABORTED, in its SEQ position; of the enqueues that
wait, a command or request ends at once, and any other item joins its flow as one that has ended. -/
def State.abortItems (s : State) (p : Nat) (bad : Item → Bool) : State :=
  let held := (s.part p).stalled.filter fun e => bad e.2
  let rest := ((s.part p).stalled.filter fun e => !(bad e.2 && e.2.isRequest)).map fun e =>
    if bad e.2 then (e.1, { e.2 with status := .aborted }) else e
  let s := s.setPart p { s.part p with stalled := rest }
  let s := held.foldl (fun (t : State) e => t.refuse e.2 .aborted) s
  (s.part p).flows.foldl (fun (t : State) e =>
    let t := (e.2.held.filter bad).foldl (fun (t : State) it => match t.flow? p e.1 with
      | some x => t.setFlow p e.1 (x.mark it.seq .aborted)
      | none => t) t
    ((e.2.queued ++ e.2.running ++ e.2.slow).filter bad).foldl (fun t it =>
      t.endItem p e.1 { it with status := .aborted } false) t) s

/-- Items of a flow, the enqueues that wait for it among them. -/
def State.flowLoad (s : State) (p f : Nat) : Nat :=
  ((s.flow? p f).map fun x => x.items.length).getD 0 + ((s.part p).stalled.filter (·.1 == f)).length

/-- Every item of a flow is released with ABORTED at once, in SEQ order, and HOLD is set (R246). -/
def State.abortFlow (s : State) (p f : Nat) : State :=
  match s.flow? p f with
  | none => s
  | some x =>
    let its : List Item := sortBy (fun (a b : Item) => (a.seq + 2 ^ 32 - x.releaseSeq) % 2 ^ 32 < (b.seq + 2 ^ 32 - x.releaseSeq) % 2 ^ 32)
      x.items ++ ((s.part p).stalled.filter (·.1 == f)).map (·.2)
    let s := match s.kernelOf x with
      | some k => x.items.foldl (fun (t : State) (it : Item) => t.unplace k.kind it.unit f it.seq) s
      | none => s
    let s := s.setPart p { s.part p with
      stalled := (s.part p).stalled.filter (·.1 != f), blocked := (s.part p).blocked.filter (·.1 != f) }
    let s := s.setFlow p f { x with queued := [], running := [], slow := [], held := [], hold := true,
                                    releaseSeq := if x.mode = FlowMode.ordered then x.nextSeq else x.releaseSeq,
                                    done := (x.done + its.length) % 2 ^ 32, drops := satAdd 65535 x.drops its.length }
    (its.foldl (fun (t : State) (it : Item) => t.deliver p f x { it with status := .aborted, len := 0 }) s).flowGauges p

/-- The flows of an image release what they hold, and then what those releases enqueued to them, with fuel (R246). -/
def State.abortRounds (p : Nat) (fs : List Nat) : Nat → State → State
  | 0, s => s
  | fuel + 1, s =>
    if fs.all fun f => s.flowLoad p f == 0 then s
    else State.abortRounds p fs fuel (fs.foldl (fun t f => t.abortFlow p f) s)

/-- HOLD is set on a flow at an edge (R96). -/
def State.holdFlow (s : State) (p f : Nat) : State :=
  match s.flow? p f with
  | some x => s.setFlow p f { x with hold := true }
  | none => s

/-- An epoch of a stopped image ends (R200, R246). -/
def State.abortEpoch (s : State) (p e : Nat) : State :=
  match s.epoch? p e with
  | some x => s.setEpoch p e x.abort
  | none => s

/-- A stream that uses an image's flows or decoder tables closes: the DATA that it accepted is processed first (R155, R246). -/
def State.closeImageStream (s : State) (p h : Nat) (im : Image) (id : Nat) : State :=
  match s.stream? p id with
  | none => s
  | some x =>
    if inRange (im.flowBase, im.nFlows) x.decodeFlow || bitsOf x.decoderTable 10 8 = h then
      let s := State.walkAll 4194304 s p id
      match s.stream? p id with
      | some y => (s.closeStream p id y).answer .streamClose id .ok
      | none => s
    else s

/-- The item stands for a MATCH that names an image's automata. -/
def State.matchesImage (s : State) (h : Nat) (it : Item) : Bool :=
  match it.work with
  | .cmd id => (s.cmd? id).any fun c => c.opcode == 0x3C && c.f 74 72 == h
  | _ => false

/-- What UNLOAD adds to a PIPE_STOP once its streams have closed (R246). -/
def State.unloadImage (s : State) (p h : Nat) (im : Image) : State :=
  let s := (span im.flowBase im.nFlows).foldl (fun (t : State) f => (t.dropWaits p f).closeFlow p f) s
  let s := s.abortItems p (s.matchesImage h)
  let x := s.part p
  s.setPart p { x with
    sets := x.sets.filter (fun e => !(im.sets.any fun y => y.1 == e.1)), images := dropAt x.images h }

/-- The work of an image ends: its epochs, the items of its flows, its runs and operator state, and with UNLOAD the image
itself; the command completes with the number of items that its flows held (R246). -/
def State.stopImage (s : State) (p id h : Nat) (unload : Bool) (im : Image) : State :=
  let fs := (span im.flowBase im.nFlows).filter fun f => (s.flow? p f).isSome
  let eps := ((s.part p).epochs.filter fun e => e.2.handle == h).map (·.1)
  let s := eps.foldl (fun t e => t.abortEpoch p e) s
  let s := if unload then ((s.part p).streams.map (·.1)).foldl (fun t i => t.closeImageStream p h im i) s else s
  let n := (fs.map (s.flowLoad p)).sum
  let runs := (s.part p).runs.filter fun r => r.handle == h
  let s := s.setPart p { s.part p with
    runs := (s.part p).runs.filter (fun r => r.handle != h),
    holds := (s.part p).holds.filter fun e => !inRange (im.flowBase, im.nFlows) e.1 }
  let s := State.abortRounds p fs (im.nFlows + 1) (fs.foldl (fun t f => t.holdFlow p f) s)
  let s := s.setPart p { s.part p with ops := (s.part p).ops.filter (fun o => o.handle != h) }
  let s := s.finishAll (runs.map (·.cmd)) .aborted
  let s := if unload then s.unloadImage p h im else s
  s.finish id .ok (min n 0x7FFFFFFF)

/-- PIPE_STOP_EDGE (R246). -/
def execPipeStopEdge (part : PartNo) (s : State) : Host.Outcome State Fault Refusal :=
  let p := part.val
  .next (match (s.part p).stop with
    | none => s
    | some (id, h, unload) =>
      let s := s.setPart p { s.part p with stop := none }
      match look (s.part p).images h with
      | none => s.finish id .ok 0
      | some im => s.stopImage p id h unload im)

/-- Opcodes whose body names a table in [95:64]. -/
def tableOpcodes : List Nat := [0x21, 0x22, 0x23, 0x28, 0x29, 0x2A]

/-- The command names a table. -/
def Cmd.namesTable (c : Cmd) (table : Nat) : Bool := tableOpcodes.contains c.opcode && c.f 95 64 == table

/-- The plan of an epoch pools from a table. -/
def State.poolsFrom (s : State) (p e table : Nat) : Bool := (s.epoch? p e).any fun x => x.plan.bags.any fun b => b.table == table

/-- The item's command, request or position names a table. -/
def State.namesTable (s : State) (p table : Nat) (it : Item) : Bool :=
  match it.work with
  | .cmd id => (s.cmd? id).any fun c => c.namesTable table
  | .rlt i => (look s.rltReqs i).any fun r => r.table == table
  | .position e _ _ _ _ _ => s.poolsFrom p e table
  | .sample e _ _ => s.poolsFrom p e table
  | _ => false

/-- A flow still holds the item of a command. -/
def State.cmdHeld (s : State) (c : Cmd) : Bool := (s.flow? c.part c.flow).any fun x => x.items.any fun it => it.work == .cmd c.id

/-- The drop of a table: what names it ends with ABORTED, every version retires, and the command completes (R303). -/
def State.dropTable (s : State) (p id : Nat) (t : Table) : State :=
  let lanes : List (Nat × Lane) := s.lanes.map fun (l : Nat × Lane) => (l.1, { l.2 with
    queue := l.2.queue.filter fun r => !(r.part == p && r.table == t.id) })
  let s : State := { s with lanes := lanes }
  let s := s.abortItems p (s.namesTable p t.id)
  let ids := (s.cmds.filter fun c => c.part == p && c.namesTable t.id && c.id != id && c.stage != .held &&
    !(flowOpcodes.contains c.opcode && s.cmdHeld c)).map (·.id)
  let s := s.finishAll ids .aborted
  let u := (s.table? p t.id).getD t
  let vs := u.versions.map fun v =>
    if v.state = .retiring then v else { v with state := .retiring, since := s.now }
  (s.setTable p { u with versions := vs, drop := none, switch := none, dropped := true }).finish id .ok 0

/-- TABLE_DROP_EDGE (R303). -/
def execTableDropEdge (part : PartNo) (table : Nat) (s : State) : Host.Outcome State Fault Refusal :=
  let p := part.val
  .next (match s.table? p table with
    | none => s
    | some t => match t.drop with
      | none => s
      | some id => s.dropTable p id t)

end Sys2Proof.Machine
end

