-- ==== Sys2Proof/Machine/Isolate.lean ====
section
/-!
DEFINITION. Cutting a unit off: what an isolation wrapper leaves of the work of its unit, and the BLOCK resets
(R463, R471–R475).

The destination of work that is cut off is undefined by whole 64 B accesses (R474): each access that the work would
have made is made or not as a free value says.
-/
namespace Sys2Proof.Machine

/-! ### Free choices of accesses -/

/-- A free choice by number. -/
def picks (key a : Nat) : Bool := Config.free (key + a) % 2 == 1

/-- Base of the free values of one cut-off. -/
def State.cutKey (s : State) : Nat := 2 ^ 200 + s.fresh * 2 ^ 128

/-- `n` free bytes. -/
def freeBytes (key n : Nat) : Bytes := (List.range n).map fun i => BitVec.ofNat 8 (Config.free (key + i))

/-- Cells of `b` in the picked accesses and of `a` elsewhere. -/
def mixCells (pick : Nat → Bool) (a b : List Host.Cell) : List Host.Cell :=
  (a.map (·.1) ++ b.map (·.1)).foldl (fun (m : List Host.Cell) x =>
    if pick (x / 64) then putD m x 0 (lookD b x 0) else m) a

/-- Entries of `b` under the picked keys and of `a` under the others. -/
def mixKeys {α : Type} (pick : Nat → Bool) (a b : List (Nat × α)) : List (Nat × α) :=
  (b.filter fun e => pick e.1).foldl (fun (m : List (Nat × α)) e => setAt m e.1 e.2) (a.filter fun e => !pick e.1)

/-- What is left in memory, in the landing buffer and on the host's side of work that leads from `s` to `t` and is cut
off: every access it writes is written or not. -/
def State.mix (s t : State) : State :=
  let k := s.cutKey
  let pick (a : Nat) : Bool := picks k a
  let pickL (a : Nat) : Bool := picks (k + 2 ^ 64) a
  let new := t.out.take (t.out.length - s.out.length)
  let kept := (new.zipIdx.filter fun x => picks (k + 2 ^ 65) x.2).map (·.1)
  { s with mem := mixCells pick s.mem t.mem, flips := mixKeys (fun w => pick (w / 8)) s.flips t.flips,
           lbuf := mixCells pickL s.lbuf t.lbuf,
           sram := mixKeys (fun w => w / 2 ^ 56 == unitLbuf && pickL (w / 8)) s.sram t.sram,
           out := kept ++ s.out, fresh := s.fresh + 1 }

/-! ### A unit is cut off (R105, R474) -/

/-- A command that is cut off before its work was done leaves its destination undefined. -/
def State.cutCmd (s : State) (id : Nat) : State :=
  match s.cmd? id with
  | none => s
  | some c =>
    if c.stage ≠ Stage.running then s
    else
      let n := ((c.hostRanges.filter fun r => !r.1).map (·.2.2)).sum
      let data := freeBytes (s.cutKey + 2 ^ 100) n
      let r : Host.Outcome State Fault Refusal := match c.opcode with
        | 0x28 => .next (s.lookupWork c data)
        | 0x30 => execCopy id data s
        | 0x34 => execCompress id data s
        | 0x35 => execDecompress id data s
        | 0x38 => execTopk id data s
        | 0x39 => execArgmax id data s
        | 0x3C => execMatchCmd id data s
        | 0x40 => execMatmul id data s
        | _ => .next s
      match r with
      | .next t => s.mix t
      | _ => s

/-- The record that an update lane was applying when its core was cut off.  What firmware knows of the directory follows the entry
that memory holds. -/
def State.cutRecord (s : State) (core : Nat) (r : LaneRec) : State :=
  match s.cmd? r.cmd, s.versionOf r.part r.table r.version with
  | some c, some (t, v) =>
    let a := match r.op with
      | .update => (s.applyUpdate c r t v).2
      | .write g => (s.applyWrite c r g t v).2
    let u := s.mix a
    match a.versionOf r.part r.table r.version with
    | some (_, w) => if (u.row? r.part t v r.id).isSome then u.setDir r.part t v core (w.dir core) else u
    | none => u
  | _, _ => s

/-- The command of a record that is gone ends with ISOLATED. -/
def State.isolateRecord (s : State) (id : Nat) : State :=
  match s.cmd? id with
  | some c => (s.setCmd { c with status := .isolated }).recordDone id .done
  | none => s

/-- An update lane of a core that is cut off. -/
def State.cutLane (s : State) (core lane : Nat) : State :=
  let x := s.lane core lane
  match x.queue with
  | [] => s
  | r :: _ =>
    let s := (s.cutRecord core r).setLane core lane { x with queue := [], hold := x.hold.map fun h => { h with inFlight := false } }
    x.queue.foldl (fun t y => t.isolateRecord y.cmd) s

/-- Flow and SEQ of the items a unit holds. -/
def State.unitItems (s : State) (k : UnitKind) (u : Nat) : List (Nat × Nat) :=
  match k with
  | .core => [(s.slots u).1, (s.slots u).2].filterMap (·.item)
  | _ => s.engine k u

/-- The isolation wrapper of a unit closes: every item on it is released with ISOLATED (R474).  How many transfers were
cut off is a value the manual leaves open. -/
def State.isolateUnit (s : State) (k : UnitKind) (u : Nat) : State :=
  let s := (s.unitItems k u).foldl (fun (t : State) e =>
    let p := t.div.flowPart e.1
    match (t.flow? p e.1).bind fun x => x.inFlight? e.2 with
    | some it =>
      let t := match it.work with | .cmd id => t.cutCmd id | _ => t
      t.endItem p e.1 { it with status := .isolated } false
    | none => t) s
  let s := match k with
    | .core => (List.range 8).foldl (fun (t : State) l => t.cutLane u l) (s.setSlots u (.empty, .empty))
    | _ => s.setEngine k u []
  let r := s.free
  r.2.bump Ob.BLOCK_ISOLATED (r.1 % 2 ^ 64)

/-- The unit has no item in flight: its slots hold nothing that runs, its queue and its update lanes are empty (R473). -/
def State.unitIdle (s : State) (k : UnitKind) (u : Nat) : Bool :=
  match k with
  | .core => !s.alive (s.slots u).1 && !s.alive (s.slots u).2 && (List.range 8).all fun l => (s.lane u l).queue.isEmpty
  | _ => (s.engine k u).isEmpty

/-! ### BLOCK reset (R471–R475) -/

/-- Unit kinds of BLOCK_RESET (Table 19.12) with the number of units of each. -/
def blockKind : Nat → Option (UnitKind × Nat)
  | 1 => some (.core, 1200) | 2 => some (.me, 8) | 3 => some (.rd, 32) | 4 => some (.pe, 16) | 5 => some (.chipD, 8)
  | 6 => some (.chipC, 4) | 7 => some (.copyEngine, 1) | _ => none

/-- The kind of a unit code. -/
def unitKind (code : Nat) : UnitKind :=
  match code / 2048 with
  | 0 => .core | 1 => .me | 2 => .rd | 3 => .pe | 4 => .chipD | 5 => .chipC | 6 => .copyEngine | _ => .merge

/-- The unit of a BLOCK_RESET value: none where it names no unit. -/
def blockUnit (v : Nat) : Option (UnitKind × Nat) :=
  match blockKind (v % 16) with
  | some (k, n) => if v / 16 % 4096 = 0 && v / 2 ^ 16 < n then some (k, v / 2 ^ 16) else none
  | none => none

/-- The answer of an access comes later: a ring command stays outstanding meanwhile. -/
def State.defer (s : State) (r : Reply) : State :=
  match r with
  | .ring id => match s.cmd? id with
    | some c => s.setCmd { c with stage := .waiting }
    | none => s
  | _ => s

/-- BLOCK_RESET (R471, R473): the unit takes no new item from the write onward. -/
def execBlockReset (acc : Access) (s : State) : Host.Outcome State Fault Refusal :=
  .next (s.write acc (isKey Ob.BLOCK_RESET) (numOp fun w v s =>
    match blockUnit v with
    | none => (some .badDescriptor, s)
    | some (k, u) =>
      if w.who ≠ Principal.m && (k = .copyEngine || !inRange (s.div.units k w.part) u) then (some .notPermitted, s)
      else
        let code := unitCode k u
        let b : BlockReset := { unit := code, since := s.now, reply := w.reply }
        let t : State := { s with blockResets := s.blockResets ++ [b],
                                  down := if s.down.contains code then s.down else code :: s.down }
        (none, t.defer w.reply)))

/-- The SRAM of a unit of a kind is wiped (Table 3.10): a core's scratchpad with what was prefetched into it, or a matrix engine's
operand SRAM. -/
def State.wipeUnit (s : State) (k : UnitKind) (u : Nat) : State :=
  match k with
  | .core => { s.sramWrite unitScratch (u * 2 ^ 32) scratchBytes with
      prefetched := s.prefetched.filter fun e => e.1 / 2 != u }
  | .me => s.sramWrite unitOperand (u * 2 ^ 23) (2 ^ 23)
  | _ => s

/-- The end of a BLOCK reset: the unit is wiped, reloaded, ungated and taken up again, unless another write waits to
reset it once more (R471, R473). -/
def State.blockDone (s : State) (b : BlockReset) (st : Status) : State :=
  let rest := s.blockResets.erase b
  let u := b.unit
  let again := rest.any (·.unit == u)
  let k := unitKind u
  let s := match k with
    | .core => s.setSlots (u % 2048) (.empty, .empty)
    | _ => s.setEngine k (u % 2048) []
  let s := s.wipeUnit k (u % 2048)
  let s := { s with
    blockResets := rest
    down := if again then s.down else s.down.filter (· != u)
    clk := { s.clk with gating := s.clk.gating.filter (·.1 != u), gated := s.clk.gated.filter (· != u) } }
  s.respond b.reply st

/-- The BLOCK reset of a unit that comes first. -/
def State.blockOf (s : State) (unit : Nat) : Option BlockReset := s.blockResets.find? (·.unit == unit)

/-- BLOCK_RESET_CLEAN (R473): at an edge the unit has no item in flight. -/
def execBlockResetClean (unit : Nat) (s : State) : Host.Outcome State Fault Refusal :=
  .next (match s.blockOf unit with
    | some b => if s.unitIdle (unitKind unit) (unit % 2048) then s.blockDone b .ok else s
    | none => s)

/-- QUIESCE_TICKS (R474): the unit still has an item in flight after the wait. -/
def execQuiesceTicks (unit : Nat) (s : State) : Host.Outcome State Fault Refusal :=
  .next (match s.blockOf unit with
    | some b =>
      if s.get Ob.QUIESCE_TICKS ≤ s.since b.since && !s.unitIdle (unitKind unit) (unit % 2048) then
        (s.isolateUnit (unitKind unit) (unit % 2048)).blockDone b .isolated
      else s
    | none => s)

end Sys2Proof.Machine
end

