-- ==== Sys2Proof/Machine/Reset.lean ====
section
/-!
DEFINITION. Resets: what each event of Table 5.11 does to a port, the reset groups and the cause register, the wipe and
the teardown of a partition, SYS reset and POR, the release sequences, APPLY and PART_RESET (R25–R27, R73, R133–R136,
R155, R426, R464–R470).
-/
namespace Sys2Proof.Machine

/-! ### A port's registers and link (R133, Table 5.11) -/

/-- The port's link goes down (Table 5.13, Table 15.6). -/
def State.dropLink (s : State) (p : Nat) : State :=
  let x := s.port p
  if !x.linkUp then s
  else
    let s := (((s.setPort p { x with linkUp := false }).put (at_ Ob.LINK_RATE p) 0).put (at_ Ob.LINK_WIDTH p) 0).bump
      (at_ Ob.LINK_DOWNS p)
    (s.noteBreak 5 p).occur 8 0xFF 0

/-- Outstanding commands of a port. -/
def State.portCmds (s : State) (p : Nat) : List Nat := (s.cmds.filter (·.port == p)).map (·.id)

/-- The mailbox client of a port is gone: its session, its open block and its message (R376). -/
def State.endMailbox (s : State) (p : Nat) : State :=
  let mine : BopPath → Bool := fun x => match x with | .mbox q => q.val == p | .m => false
  let s := ((s.mgmt.sessions.filter fun v => mine v.path).map (·.id)).foldl (fun (t : State) i => t.endSession i) s
  { s with mgmt := { s.mgmt with
      blocks := dropAt s.mgmt.blocks (65537 + p), mailboxes := s.mgmt.mailboxes.filter fun m => !boxOf m p } }

/-- Outstanding commands are discarded and the rings, windows, event registers, mailbox and function state take their
reset values; pins, the REFCLK mode in use and the link stay. -/
def State.clearPort (s : State) (p : Nat) : State :=
  let s := (s.discardAll (s.portCmds p)).endMailbox p
  let x := s.port p
  s.setPort p { HostPort.reset with perst := x.perst, hotReset := x.hotReset, disabled := x.disabled, retry := x.retry,
                                    linkUp := x.linkUp, refclk := x.refclk }

/-- The flows that a host owns close (R83, R133). -/
def State.closeOwned (s : State) (port : Nat) : State :=
  let p := s.served port
  ((s.part p).flows.filter fun e => e.2.owner == port + 1).foldl (fun (t : State) e =>
    t.closeFlow p e.1) s

/-- The rings of a port are disabled; completions that were still to be written are lost (R120, Table 5.11). -/
def State.disableRings (s : State) (p : Nat) : State :=
  let s := ((s.port p).cplRings.map (·.1)).foldl (fun (t : State) r => t.loseHeld p r) s
  let s := (s.port p).waiting.foldl (fun (t : State) c =>
    State.settle (t.cmds.length + 1) (t.bump (at_ Ob.LOST_COMPLETIONS p)) [c.2.id]) s
  let x := s.port p
  let cmdRings := x.cmdRings.map fun (r : Nat × CmdRing) => (r.1, { r.2 with enable := false, fence := none, stalled := none })
  let cplRings := x.cplRings.map fun (r : Nat × CplRing) => (r.1, { r.2 with enable := false })
  s.setPort p { x with cmdRings := cmdRings, cplRings := cplRings, waiting := [] }

/-! ### Reset groups and the cause register (R466, R467) -/

/-- Two sources overlap: either reaches the device, or both the same partition. -/
def ResetMember.overlaps (a b : ResetMember) : Bool := 2 ≤ a.reach || 2 ≤ b.reach || a.part == b.part

/-- RESET_CAUSE (Table 19.9) of a source. -/
def ResetMember.word (m : ResetMember) : Nat := m.cause + 256 * m.reach + 2048 * m.part

/-- Write the cause register, and note the value for the boot log. -/
def State.writeCause (s : State) (m : ResetMember) : State :=
  let s := (s.put Ob.RESET_CAUSE m.word).put Ob.RESET_CAUSE_TICK (if m.reach ≤ 2 then s.now else 0)
  { s with boot := { s.boot with causes := s.boot.causes ++ [m.word] } }

/-- A source is asserted: it starts a group or joins one, and the register is written for a new group and for a wider
source. -/
def State.joinReset (s : State) (m : ResetMember) : State :=
  let widest := ((s.resets.filter m.overlaps).map (·.reach)).foldl max 0
  let s := if widest < m.reach then s.writeCause m else s
  { s with resets := s.resets ++ [m] }

/-! ### Wipe (R73, Table 17.6) -/

/-- Pending repair entries of the stands of a reach become active (R73). -/
def State.settleRepairs (s : State) (inReach : Nat → Bool) : State :=
  let mine := s.repairQueue.filter fun e => inReach (e.1 / 1024)
  let pass := s.repairPass
  let s := mine.foldl (fun (t : State) e => t.activateRepair { unit := e.1, pos := e.2, cursor := 0 })
    { s with repairQueue := s.repairQueue.filter fun e => !inReach (e.1 / 1024) }
  match pass with
  | none => { s with repairPass := none }
  | some r =>
    let s := ({ s with repairPass := pass }).put Ob.REPAIR_ACTIVE r.unit
    if inReach (r.unit / 1024) then (s.activateRepair r).nextRepair else s

/-- A word of an SRAM array lies in a reach of partitions, stands and landing-buffer regions (Table 3.10). -/
def Division.sramIn (d : Division) (mask stands : Nat) (inRegion : Nat → Bool) (key : Nat) : Bool :=
  let a := key % 2 ^ 56 * 8
  let has (p : Nat) (k : UnitKind) (u : Nat) : Bool := bitOf mask p && inRange (d.units k p) u
  match key / 2 ^ 56 with
  | 0 => inRegion (a / 65536)
  | 1 => bitOf stands (a / 2 ^ 32 / 60)
  | 2 => mask = 3 || has 0 .me (a / 2 ^ 23) || has 1 .me (a / 2 ^ 23)
  | _ => bitOf mask (if a / 64 < d.storeBase 1 then 0 else 1)

/-- The vault memory, landing-buffer regions and vault cursors of a reach are wiped, and the wipe runs until
WIPE_COMPLETE; a running wipe that lies in the reach starts again with it. -/
def State.wipe (s : State) (mask stands : Nat) (inRegion : Nat → Bool) : State :=
  let inReach (n : Nat) : Bool := bitOf stands n
  let s := s.settleRepairs inReach
  let fresh (v : Vault) : Vault := { v with cursor := 0, lag := 0, writeBacks := [], seen := [] }
  { s with
    mem := s.mem.filter fun c => !inReach (daStand c.1)
    flips := s.flips.filter fun e => !inReach (daStand (e.1 * 8))
    lbuf := s.lbuf.filter fun c => !inRegion (c.1 / 65536)
    sram := s.sram.filter fun e => !s.div.sramIn mask stands inRegion e.1
    vaults := s.vaults.map fun e => (e.1, if inReach (e.1 / 64) then fresh e.2 else e.2)
    wipes := (s.wipes.filter fun w => w.1 ||| mask ≠ mask) ++ [(mask, stands)] }

/-- The stands of a partition as a mask. -/
def Division.standMask (d : Division) (p : Nat) : Nat :=
  (List.range 20).foldl (fun m n => if inRange (d.firstStand p, d.stands p) n then m + 2 ^ n else m) 0

/-! ### Counters that a CORE reset clears (R52, R75, R107, R202, R393) -/

/-- A counter or gauge of a partition's own table. -/
def partCounter (p k : Nat) : Bool :=
  match odFind (k / 256) (k % 256) with
  | some r => (match r.right with | .part per => r.acc == .ro && (k / 256 - r.idx) / per == p | _ => false)
  | none => false

/-- Counters of a partition outside those tables, and of its stands. -/
def Division.otherCounter (d : Division) (p k : Nat) : Bool :=
  let two : List Nat := if p = 0 then
      [Ob.LAT_DONE_P0, Ob.DEADLINE_P0, Ob.DEADLINE_IN_BOUND_P0, Ob.CE_P0, Ob.UE_P0]
    else [Ob.LAT_DONE_P1, Ob.DEADLINE_P1, Ob.DEADLINE_IN_BOUND_P1, Ob.CE_P1, Ob.UE_P1]
  let ofStand (b : Nat) : Bool := b / 256 ≤ k / 256 && k / 256 < b / 256 + 20 &&
    inRange (d.firstStand p, d.stands p) (k / 256 - b / 256)
  two.contains k || ofStand Ob.VAULT_CE || ofStand Ob.VAULT_UE

/-- Counters of the vaults and the look-up bound that belong to no partition: a device-wide CORE reset clears them. -/
def deviceCounters : List Nat :=
  [Ob.OVERLOAD_TICKS, Ob.VAULT_OVER_TICKS, Ob.SRAM_CE, Ob.SRAM_UE, Ob.SCRUB_CE, Ob.SCRUB_UE, Ob.WRITEBACK_CANCELLED,
    Ob.WRITEBACK_DROPPED, Ob.FORCED_REFRESH, Ob.MAX_OWED, Ob.SCRUB_LAG_MAX, Ob.SCRUB_PASSES, Ob.CAL_COUNT, Ob.WIPE_COUNT]

/-! ### Teardown of a partition (R105, R133, R155, R399, R475, Table 17.6) -/

/-- The unit of a code belongs to the partition alone (the copy engine serves both). -/
def Division.holds (d : Division) (p code : Nat) : Bool :=
  unitKind code ≠ .copyEngine && inRange (d.units (unitKind code) p) (code % 2048)

/-- BLOCK resets of the partition's units are absorbed (R475). -/
def State.absorbBlocks (s : State) (hit : Nat → Bool) : State :=
  let gone := s.blockResets.filter fun b => hit b.unit
  let s' : State := { s with
    blockResets := s.blockResets.filter fun b => !hit b.unit
    down := s.down.filter fun u => !hit u || s.clk.gated.contains u || s.clk.gating.any (·.1 == u) }
  gone.foldl (fun (t : State) b => t.respond b.reply .aborted) s'

/-- The status with which a reset of a partition ends an access that waits for one of its streams, dictionaries or flows: what
was to close has closed, and what was to open is not open (DESIGN CHOICE, log 172). -/
def State.goneStatus (s : State) (p : Nat) (w : Waiter) : Option Status :=
  match w.what with
  | .streamClose => if inRange (s.div.streamRange p) w.arg then some .ok else none
  | .dictUnload => if w.arg / 2 ^ 32 = p then some .ok else none
  | .flowClose => if s.div.flowPart w.arg = p then some .ok else none
  | .flowOpen => if s.div.flowPart w.arg = p then some .aborted else none
  | _ => none

/-- Every waiting access to a stream, a dictionary or a flow of the partition ends with it. -/
def State.answerGone (s : State) (p : Nat) : State :=
  let s' : State := { s with mgmt := { s.mgmt with waiters := s.mgmt.waiters.filter fun w => (s.goneStatus p w).isNone } }
  s.mgmt.waiters.foldl (fun (t : State) w => match s.goneStatus p w with
    | some st => t.respond w.reply st
    | none => t) s'

/-- Every look-up request that the partition has not answered is answered with ABORTED (R166; DESIGN CHOICE, log 173). -/
def State.abortRequests (s : State) (p : Nat) : State :=
  (s.rltReqs.filter fun r => s.div.netPart r.2.net == p).foldl (fun (t : State) r => t.releaseRlt r.1 .aborted []) s

/-- The commands that Table 5.11 completes with ABORTED: those outstanding on the ports that serve the partition, FENCEs
first, after the one that asked for the reset. -/
def State.abortPart (s : State) (p : Nat) (first : Option Nat) : State :=
  let s := match first with | some id => s.finish id .ok 0 | none => s
  let mine := s.cmds.filter fun c => s.served c.port == p && c.stage != Stage.held
  let s := s.finishAll (((mine.filter (·.opcode == 2)) ++ mine.filter (·.opcode != 2)).map (·.id)) .aborted
  let s := (s.part p).epochs.foldl (fun (t : State) e => t.endNotice p e.1 { e.2 with aborted := true }) s
  (s.portsOf p).foldl (fun (t : State) q => t.disableRings q) s

/-- Everything that a partition holds is gone: flows, streams, images, sets, epochs, tables, dictionaries, the work on
its units, its landing-buffer claims and its counters. -/
def State.teardown (s : State) (p : Nat) : State :=
  let s := ((s.abortRequests p).answerGone p).absorbBlocks (s.div.holds p)
  let mine (f : Nat) : Bool := s.div.flowPart f == p
  let engines := (s.engines.map fun (e : Nat × List (Nat × Nat)) => (e.1, e.2.filter fun x => !mine x.1)).filter
    fun e => !e.2.isEmpty
  let core (c : Nat) : Bool := inRange (s.div.units .core p) c
  let s := s.setPart p Part.reset
  let t : State := { s with
    cores := s.cores.filter fun e => !core e.1
    prefetched := s.prefetched.filter fun e => !core (e.1 / 2)
    engines := engines
    laneHeads := s.laneHeads.filter fun e => !mine e.2.1
    lanes := s.lanes.filter fun e => !core (e.1 / 8)
    freed := s.freed.filter fun f => f.part != p
    regions := s.regions.filter fun e => !inRange (s.div.regionRange p) e.1
    od := s.od.filter fun e => !(partCounter p e.1 || s.div.otherCounter p e.1) }
  t.noteBreak 6 p

/-- One partition enters reset: its work is gone and its wipe starts. -/
def State.enterPart (s : State) (p : Nat) : State :=
  (s.teardown p).wipe (p + 1) (s.div.standMask p) (inRange (s.div.regionRange p))

/-- The device-wide CORE reset (Tables 5.11 and 17.6). -/
def State.coreReset (s : State) (cause : Nat) : State :=
  let s := s.joinReset { cause := cause, reach := 2, part := 0 }
  let s := (s.abortPart 0 none).abortPart 1 none
  let s := ((s.teardown 0).teardown 1).absorbBlocks fun _ => true
  let s := { s with od := s.od.filter fun e => !deviceCounters.contains e.1,
                    vaults := s.vaults.map fun (e : Nat × Vault) => (e.1, { e.2 with passes := 0 }) }
  s.wipe 3 (2 ^ 20 - 1) fun _ => true

/-- A partition-scoped CORE reset that a write asks for: commands complete with ABORTED (Table 5.11). -/
def State.partReset (s : State) (p cause : Nat) (first : Option Nat) : State :=
  ((s.joinReset { cause := cause, reach := 1, part := p }).abortPart p first).enterPart p

/-! ### SYS reset and POR (R464, R468, Table 16.3, Table 17.6) -/

/-- Objects that no reset of the main die clears, or that a SYS reset spares (R467, R469, R496). -/
def keptObjects : List Nat := [Ob.RESET_CAUSE, Ob.RESET_CAUSE_TICK, Ob.THERMAL_TRIPS, Ob.CFG_CODE, Ob.CFG_ADC]

/-- A port under a SYS reset or POR: the link is down and everything at reset; the pin keeps its level. -/
def HostPort.sysReset (x : HostPort) : HostPort := { HostPort.reset with perst := x.perst }

/-- The state of the main die under a SYS reset or POR: only flash, fuses, repair records, the scaler die, the input
stage and the reset controller keep theirs; debug logic and the clock sources too under a SYS reset. -/
def State.rebuild (s : State) (por : Bool) : State :=
  let s := s.settleRepairs fun _ => true
  let clk : Clocks := if por then Clocks.reset else
    { Clocks.reset with xoOk := s.clk.xoOk, ioscOk := s.clk.ioscOk, refXo := s.clk.refXo, forced := s.clk.forced }
  let boot : Boot := if por then { Boot.reset with nonce := s.boot.nonce, causes := s.boot.causes } else
    { Boot.reset with nonce := s.boot.nonce, causes := s.boot.causes, newKey := s.boot.newKey, oldLc := s.boot.oldLc,
                      debugOpened := s.boot.debugOpened }
  let pwr : Power := { s.pwr with capDuty := 16, thermalDuty := 16, samples := [], alert := false, fruRead := false,
                                  hotReading := false }
  let out := if s.pwr.alert then Output.alert false :: s.out else s.out
  { State.reset with
    od := s.od.filter fun e => keptObjects.contains e.1
    repairs := s.repairs, ports := #v[(s.port 0).sysReset, (s.port 1).sysReset]
    nets := #v[{ NetPort.reset with modPresent := (s.net 0).modPresent }, { NetPort.reset with modPresent := (s.net 1).modPresent }]
    nv := s.nv, boot := boot, resets := s.resets, clk := clk, pwr := pwr, scl := s.scl, nextId := s.nextId,
    nextReq := s.nextReq, fresh := s.fresh, out := out, pending := s.pending }

/-- SYS reset (reach 3) or POR (reach 4). -/
def State.sysReset (s : State) (cause reach : Nat) : State :=
  (s.joinReset { cause := cause, reach := reach, part := 0 }).rebuild (reach == 4)

/-- WATCHDOG (R464). -/
def execWatchdog (s : State) : Host.Outcome State Fault Refusal :=
  .next (if s.boot.released then s.sysReset 0x10 3 else s)

/-- JTAG: the system-reset instruction (R464). -/
def execJtag (s : State) : Host.Outcome State Fault Refusal := .next (s.sysReset 0x14 3)

/-- SYS_REQUEST: M writes 1 to RESET_REQUEST (R464). -/
def execSysRequest (acc : Access) (s : State) : Host.Outcome State Fault Refusal :=
  .next (s.write acc (fun k v => isKey Ob.RESET_REQUEST k v && leNat v = 1) fun w _ s =>
    (none, (s.respond w.reply .ok).txDone.sysReset 0x11 3))

/-- CORE_REQUEST: M writes 2 to RESET_REQUEST (R464). -/
def execCoreRequest (acc : Access) (s : State) : Host.Outcome State Fault Refusal :=
  .next (s.write acc (fun k v => isKey Ob.RESET_REQUEST k v && leNat v = 2) fun w _ s =>
    (none, (s.respond w.reply .ok).coreReset 0x20))

/-- The PLL has relocked after a loss of lock (Table 19.4). -/
def State.pllReset (s : State) : State := if s.clk.pllLost then s.sysReset 0x13 3 else s

/-- The hold sequence ends once a source is qualified (R460). -/
def State.holdReset (s : State) : State :=
  if s.clk.hold && (s.clk.xoOk || s.clk.ioscOk) then s.sysReset 0x12 3 else s

/-- RESET_ASSERT (R464, R465). -/
def execResetAssert (src : ResetSource) (s : State) : Host.Outcome State Fault Refusal :=
  .next (match src with
    | .powerOn => s.sysReset 0x01 4
    | .brownout => s.sysReset 0x02 4
    | .inputLow => s.sysReset 0x03 4
    | .tempTrip => s.sysReset 0x04 4
    | .watchdog => if s.boot.released then s.sysReset 0x10 3 else s
    | .pllRelock => s.pllReset
    | .holdRelock => s.holdReset
    | .jtag => s.sysReset 0x14 3)

/-! ### Events at a host port (R133, R134, Table 5.11) -/

/-- A host holds the port in one of the first three rows of Table 5.11. -/
def HostPort.inReset (x : HostPort) : Bool := x.perst || x.hotReset || x.disabled

/-- What an event of the first three rows does to the partition: with SHARED 0 it resets; with SHARED 1 the host's flows
close, and P0 resets once both ports are in such a row (R134).  The commands were discarded before. -/
def State.hostReset (s : State) (p cause : Nat) : State :=
  let join (s : State) (q : Nat) : State := (s.joinReset { cause := cause, reach := 1, part := q }).enterPart q
  if !s.boot.released || 3 ≤ ((s.resets.map (·.reach)).foldl max 0) then
    { s with resets := s.resets ++ [{ cause := cause, reach := 1, part := p }] }
  else if s.div.shared then
    let s := s.closeOwned p
    if (s.port (1 - p)).inReset then join s 0 else s
  else join s p

/-- PERST_ASSERT. -/
def execPerstAssert (port : PortNo) (s : State) : Host.Outcome State Fault Refusal :=
  let p := port.val
  .next (if (s.port p).perst then s
  else
    let s := (s.dropLink p).clearPort p
    (s.setPort p { s.port p with perst := true, hotReset := false, disabled := false }).hostReset p 0x30)

/-- PERST_RELEASE (R109, R135): REFCLK_MODE applies and link training starts. -/
def execPerstRelease (port : PortNo) (s : State) : Host.Outcome State Fault Refusal :=
  let p := port.val
  .next (if (s.port p).perst then
    s.setPort p { s.port p with perst := false, retry := true, refclk := s.get (at_ Ob.REFCLK_MODE p) } else s)

/-- HOT_RESET. -/
def execHotReset (port : PortNo) (s : State) : Host.Outcome State Fault Refusal :=
  let p := port.val
  .next (if (s.port p).linkUp then
    let s := (s.dropLink p).clearPort p
    (s.setPort p { s.port p with hotReset := true }).hostReset p 0x31
  else s)

/-- LINK_DISABLE. -/
def execLinkDisable (port : PortNo) (s : State) : Host.Outcome State Fault Refusal :=
  let p := port.val
  .next (if (s.port p).linkUp then
    let s := (s.dropLink p).clearPort p
    (s.setPort p { s.port p with disabled := true }).hostReset p 0x33
  else s)

/-- FLR: the link stays up. -/
def execFlr (port : PortNo) (s : State) : Host.Outcome State Fault Refusal :=
  let p := port.val
  .next (if (s.port p).linkUp then (s.clearPort p).hostReset p 0x32 else s)

/-- LINK_DOWN: a link loss without a reset leaves the partition. -/
def execLinkDown (port : PortNo) (s : State) : Host.Outcome State Fault Refusal :=
  let p := port.val
  .next (if (s.port p).linkUp then ((s.dropLink p).clearPort p).closeOwned p else s)

/-- A 4 B register of configuration space as R110 gives it; every other one is PCIe's own, and its value is left free. -/
def State.configRead (s : State) (reg : Nat) : Nat × State :=
  match reg with
  | 0x00 => (0x00201F6A, s)
  | 0x08 => (0x12000001, s)
  | 0x10 =>
    let r := s.free
    (r.1 % 2 ^ 12 * 2 ^ 20 + 4, r.2)
  | _ =>
    let r := s.free
    (r.1 % 2 ^ 32, r.2)

/-- CONFIG_REQUEST (R108, R110, R135): while Request Retry Status holds, nothing else happens. -/
def execConfigRequest (port : PortNo) (req : ConfigReq) (s : State) : Host.Outcome State Fault Refusal :=
  let p := port.val
  let x := s.port p
  .next (
    if !x.linkUp then s
    else if x.retry then s.emit (.configAnswer p true)
    else match req with
      | .read reg =>
        let r := s.configRead reg
        (r.2.emit (.configAnswer p false)).emit (.readData p r.1)
      | .setD0 d0 => (s.setPort p { x with d0 := d0 }).emit (.configAnswer p false)
      | .setMsix enable mask =>
        ((s.setPort p { x with msixEnable := enable, msixMask := mask }).emit (.configAnswer p false)).sendPending p
      | .setDevCtl mps mrrs tags =>
        (s.setPort p { x with mps := 128 * 2 ^ mps.val, mrrs := 128 * 2 ^ mrrs.val,
                              tagBits := ([8, 10, 14][tags.val]?).getD 8 }).emit (.configAnswer p false))

/-! ### The division (R21, R25, R26, R78, R106) -/

/-- The division that the pending objects give (Table 1.6). -/
def State.pendingDivision (s : State) : Division :=
  { split := s.get Ob.PART_SPLIT_PENDING, shared := s.get Ob.SHARED_PENDING = 1, me := s.get Ob.ME_P0, rd := s.get Ob.RD_P0,
    pe := s.get Ob.PE_P0, chipD := s.get Ob.CHIP_D_P0, chipC := s.get Ob.CHIP_C_P0, flows := s.get Ob.FLOWS_P0,
    lat := s.get Ob.LAT_P0, lbuf := s.get Ob.LBUF_P0, net0 := s.get Ob.NET_N0, net1 := s.get Ob.NET_N1,
    window := s.get Ob.SPREAD_WINDOW, seed0 := s.get Ob.SPREAD_SEED_P0, seed1 := s.get Ob.SPREAD_SEED_P1,
    pool0 := s.get Ob.ITEM_POOL_P0, pool1 := s.get Ob.ITEM_POOL_P1, yardMib := s.get Ob.YARD_ITEM_MIB }

/-- What a partition receives of each kind, beside stands and network ports. -/
def Division.receives (d : Division) (p : Nat) : List Nat :=
  [(shareOf 8 d.me p).2, (shareOf 32 d.rd p).2, (shareOf 16 d.pe p).2, (shareOf 8 d.chipD p).2, (shareOf 4 d.chipC p).2,
    (shareOf 64 d.flows p).2, (shareOf 16 d.lat p).2, (shareOf 2048 d.lbuf p).2]

/-- The checks of R25, R78 and R106 on a partition. -/
def Division.partOk (d : Division) (p : Nat) : Bool :=
  d.pool p ≤ (shareOf 2048 d.lbuf p).2 &&
    (if d.stands p = 0 then (d.receives p).all (· == 0) && d.net0 != p && d.net1 != p
     else (shareOf 16 d.lat p).2 < (shareOf 64 d.flows p).2 && (shareOf 16 d.lat p).2 < d.pool p)

/-- The checks of an APPLY (R25, R78, R106). -/
def State.applyOk (s : State) : Bool :=
  let d := s.pendingDivision
  d.split ≤ 20 && d.me ≤ 8 && d.rd ≤ 32 && d.pe ≤ 16 && d.chipD ≤ 8 && d.chipC ≤ 4 && d.flows ≤ 64 && d.lat ≤ 16 &&
    d.lbuf ≤ 2048 && d.net0 ≤ 1 && d.net1 ≤ 1 && s.get Ob.SHARED_PENDING ≤ 1 && (!d.shared || d.split = 20) &&
    d.partOk 0 && d.partOk 1

/-- An APPLY whose turn has come (R25, R26): its checks, then the reset of both partitions. -/
def State.startApply (s : State) (r : Reply) : State :=
  if s.applyOk then
    let s := s.await .apply 0 r
    let s := s.joinReset { cause := 0x35, reach := 1, part := 0 }
    let s := { s with resets := s.resets ++ [({ cause := 0x35, reach := 1, part := 1 } : ResetMember)] }
    let s := (s.abortPart 0 none).abortPart 1 none
    let s := ((s.enterPart 0).enterPart 1)
    { s with regions := [], boot := { s.boot with applying := some s.pendingDivision } }
  else (s.put Ob.APPLY_STATUS Status.badDescriptor.code).respond r .badDescriptor

/-- An APPLY is executing. -/
def State.applying (s : State) : Bool := s.mgmt.waiters.any fun w => w.what == .apply && w.arg == 0

/-- The APPLYs that wait for an earlier one start in arrival order, until one of them resets (R27). -/
def State.nextApply : Nat → State → State
  | 0, s => s
  | n + 1, s =>
    if s.applying then s
    else match s.mgmt.waiters.find? fun w => w.what == .apply && w.arg == 1 with
      | none => s
      | some w => State.nextApply n
          (({ s with mgmt := { s.mgmt with waiters := s.mgmt.waiters.erase w } }).startApply w.reply)

/-- APPLY (R25–R27). -/
def execApply (acc : Access) (s : State) : Host.Outcome State Fault Refusal :=
  .next (s.write acc (isKey Ob.APPLY) (numOp fun w v s =>
    if v ≠ 1 then (some .badDescriptor, s)
    else if s.applying then (none, s.await .apply 1 w.reply)
    else (none, s.startApply w.reply)))

/-- What a write of ITEM_POOL_P0, ITEM_POOL_P1 or YARD_ITEM_MIB does (R106). -/
def opItemPool (w : Writer) (v : Nat) (s : State) : Ans :=
    let k := w.idx * 256 + w.sub
    let limit := if k = Ob.ITEM_POOL_P0 then s.get Ob.LBUF_P0
      else if k = Ob.ITEM_POOL_P1 then 2048 - s.get Ob.LBUF_P0 else 1024
    if limit < v then (some .badDescriptor, s) else (some .ok, s.put k v)

/-- ITEM_POOL (R106): writes of ITEM_POOL_P0, ITEM_POOL_P1 and YARD_ITEM_MIB. -/
def execItemPool (acc : Access) (s : State) : Host.Outcome State Fault Refusal :=
  .next (s.write acc (fun k v => isKey Ob.ITEM_POOL_P0 k v || isKey Ob.ITEM_POOL_P1 k v || isKey Ob.YARD_ITEM_MIB k v)
    (numOp opItemPool))

/-- PART_RESET (R136). -/
def execPartReset (acc : Access) (s : State) : Host.Outcome State Fault Refusal :=
  .next (s.write acc (isKey Ob.PART_RESET) (numOp fun w v s =>
    if 1 < v then (some .badDescriptor, s)
    else if !(w.who == .m || (!s.div.shared && w.part = v)) then (some .notPermitted, s)
    else if s.resets.any fun m => 2 ≤ m.reach || m.part == v then (none, s.await .partReset v w.reply)
    else match w.reply with
      | .ring id => (none, s.partReset v 0x34 (some id))
      | r => (none, (s.await .partReset v r).partReset v 0x34 none)))

/-! ### Release (R466, R468, R470, Tables 19.10 and 19.11) -/

/-- A level still holds a partition's group: its port's, or with SHARED 1 either port's where a host event is a member. -/
def State.levelHeld (s : State) (p : Nat) : Bool :=
  if s.div.shared then
    (s.resets.any fun m => 0x30 ≤ m.cause && m.cause ≤ 0x33) && ((s.port 0).inReset || (s.port 1).inReset)
  else (s.port p).inReset

/-- Claim the item pools of a partition from its lowest region (R106, R399). -/
def State.claimPool (s : State) (p : Nat) : State :=
  let d := s.div
  ((s.claim (span (d.regionRange p).1 (min (d.pool p) (d.regionRange p).2)) 1 p).getD s)

/-- Copy the noted cause values of a group into the boot log (R467). -/
def State.logCauses (s : State) (mine : Nat → Bool) : State :=
  let l := s.boot.causes.filter mine
  let s : State := { s with boot := { s.boot with causes := s.boot.causes.filter fun v => !mine v } }
  l.foldl (fun (t : State) v => t.bootLog 0x09 0 (leBytes 4 v)) s

/-- Debug access opens when the CORE reset that it asked for ends (R427). -/
def State.openDebug (s : State) : State :=
  if s.boot.debugPending then
    let s : State := { s with boot := { s.boot with debugPending := false, debugOpened := true } }
    ((s.put Ob.DEBUG_STATE 1).bootLog 0x08 0 []).answer .debugOpen 0 .ok
  else s

/-- A partition leaves reset: its item pool is claimed, and its ports hear of it. -/
def State.releasePart (s : State) (p : Nat) (narrow : Bool) : State :=
  let s := (s.setPart p { s.part p with resetting := false }).claimPool p
  let s := s.partEvent p evPartReset
  let s := if narrow then s.occur (3 + p) p 0 else s
  s.answer .partReset p .ok

/-- CORE_RELEASE (R470): the wipe has ended and the last source of the group has released. -/
def execCoreRelease (part : PartNo) (s : State) : Host.Outcome State Fault Refusal :=
  let p := part.val
  let group := s.resets.filter fun m => 2 ≤ m.reach || m.part == p
  let apply := group.any (·.cause == 0x35)
  let wide := group.any (·.reach == 2)
  let ps : List Nat := if apply || wide then [0, 1] else [p]
  let wiping := s.wipes.any fun w => ps.any fun q => bitOf w.1 q
  .next (
    if group.isEmpty || group.any (3 ≤ ·.reach) || wiping || ps.any s.levelHeld then s
    else
      let left := s.resets.filter fun m => !(2 ≤ m.reach || ps.contains m.part)
      let s := { s with resets := left, div := if apply then s.boot.applying.getD s.div else s.div,
                        boot := { s.boot with applying := if apply then none else s.boot.applying } }
      let s := ps.foldl (fun (t : State) q => t.releasePart q (!wide)) s
      let s := s.logCauses fun v => if bitsOf v 10 8 = 1 then ps.contains (bitsOf v 11 11) else bitsOf v 10 8 = 2
      let s := if apply then (s.put Ob.APPLY_STATUS 0).answer .apply 0 .ok else s
      let s := if wide then s.openDebug else s
      State.nextApply (s.mgmt.waiters.length + 1) s.settleRetry)

/-- CFG_CODE of a strap reading (R492). -/
def strapCode (adc : Nat) : Nat := if adc < 1024 && 4 ≤ adc % 64 && adc % 64 ≤ 59 then adc / 64 else 0xFF

/-- POR_RELEASE (R466, R468, R469): the last source of a POR or SYS reset is released; a POR samples the strap; a clock
source is qualified; the domains are released and the wipe begins. -/
def execPorRelease (adc : Nat) (s : State) : Host.Outcome State Fault Refusal :=
  .next (
    if !(s.resets.any (3 ≤ ·.reach)) || !s.pwr.closed || (s.port 0).perst || (s.port 1).perst || 1024 ≤ adc then s
    else
      let por := s.resets.any (·.reach == 4)
      let s := if por then (s.put Ob.CFG_CODE (strapCode adc)).put Ob.CFG_ADC adc else s
      let clk := { s.clk with ioscOk := s.clk.ioscOk || por || !s.clk.xoOk, refXo := s.clk.refXo && s.clk.xoOk }
      let s := { s with boot := { s.boot with released := true }, clk := clk, resets := [], ticks := Ticks.reset }
      s.wipe 3 (2 ^ 20 - 1) fun _ => true)

end Sys2Proof.Machine
end

