-- ==== Sys2Proof/Machine/Power.lean ====
section
/-!
DEFINITION. The input stage, the duty, capping, PWR_BRAKE#, thermal limits and the FRU EEPROM (R477–R486, R494).
-/
namespace Sys2Proof.Machine

/-! ### Duty and ALERT# (R480, R484) -/

/-- THROTTLE_SRC (Table 20.11). -/
def State.throttleSrc (s : State) : Nat :=
  b2n (s.pwr.capDuty < 16) + 2 * b2n (s.pwr.fastDuty < 16) + 4 * b2n (s.pwr.brakeDuty < 16) +
    8 * b2n (s.pwr.thermalDuty < 16)

/-- ALERT# is asserted while DUTY is below 16 and in the hold sequence (R460, R484). -/
def State.setAlert (s : State) : State :=
  let a := s.duty < 16 || s.clk.hold
  if s.pwr.alert = a then s else { s with pwr := { s.pwr with alert := a } }.emit (.alert a)

/-- Change the duties: where throttling starts the ports and M hear of it, and where it ends M does (R484, Table 15.6). -/
def State.setPower (s : State) (x : Power) : State :=
  let old := s.duty
  let s := { s with pwr := x }
  let new := s.duty
  let s := if old = 16 && new < 16 then
      ((s.portEvent 0 evThrottle).portEvent 1 evThrottle).occur 5 0xFF new
    else if old < 16 && new = 16 then s.occur 5 0xFF new else s
  s.setAlert

/-! ### The limit (R481, R482, R494) -/

/-- PWR_LIMIT_ACTIVE (R481, R494). -/
def State.powerLimit (s : State) : Nat :=
  min (s.get Ob.PWR_LIMIT_W) (if s.pwr.fruRead then s.get Ob.CARRIER_MAX_W else 600)

/-- POWER_SAMPLE (R481): the input power of one millisecond. -/
def execPowerSample (mw : Nat) (s : State) : Host.Outcome State Fault Refusal :=
  .next (
    if s.boot.mode ≠ .running || !s.clocked then s
    else
      let samples := (mw :: s.pwr.samples).take 10
      let sum := samples.sum
      let limit := s.powerLimit * 1000 * samples.length
      let cap := s.pwr.capDuty
      let s := s.put Ob.PIN_W (min 65535 (mw / 1000))
      let s := if limit < sum && cap = 1 then s.bump Ob.LIMIT_UNMET else s
      let cap' := if limit < sum then max 1 (cap * limit / sum)
        else if 20 * sum ≤ 19 * limit then min 16 (cap + 1) else cap
      s.setPower { s.pwr with samples := samples, capDuty := cap' })

/-- FAST_LIMITER (R482): the 1 ms average exceeds the active limit by 150 W. -/
def execFastLimiter (mw : Nat) (s : State) : Host.Outcome State Fault Refusal :=
  .next (if s.pwr.closed && (s.powerLimit + 150) * 1000 < mw then
    s.setPower { s.pwr with fastDuty := s.get Ob.BRAKE_DUTY } else s)

/-- FAST_LIMITER_RELEASE (R482): the average has been back below that level for the hold time. -/
def execFastLimiterRelease (mw : Nat) (s : State) : Host.Outcome State Fault Refusal :=
  .next (if mw < (s.powerLimit + 150) * 1000 then s.setPower { s.pwr with fastDuty := 16 } else s)

/-- PWR_BRAKE (R483). -/
def execPwrBrake (asserted : Bool) (s : State) : Host.Outcome State Fault Refusal :=
  .next (s.setPower { s.pwr with brakeDuty := if asserted then s.get Ob.BRAKE_DUTY else 16 })

/-! ### Thermal limits (R485, R486, Table 20.3) -/

/-- Readings with their throttle thresholds: each stand's DRAM and logic, and the landing's logic. -/
def State.readings (s : State) : List (Nat × Nat) :=
  ((List.range 20).flatMap fun n => [((s.stand n).temp, 90), (s.get (Ob.TEMP_STAND + n) / 256 % 256, 100)]) ++
    [(s.get Ob.TEMP_LANDING, 100)]

/-- THERMAL_THROTTLE (R485): firmware's adjustment of one millisecond. -/
def execThermalThrottle (s : State) : Host.Outcome State Fault Refusal :=
  .next (
    if s.boot.mode ≠ .running || !s.clocked then s
    else
      let hot := s.readings.any fun r => r.2 ≤ r.1
      let cool := s.readings.all fun r => r.1 + 3 ≤ r.2
      let d := s.pwr.thermalDuty
      let s := if hot && !s.pwr.hotReading then s.occur 6 0xFF 0 else s
      s.setPower { s.pwr with
        hotReading := hot, thermalDuty := if hot then max 1 (d - 2) else if cool then min 16 (d + 1) else d })

/-- The hot-swap switch opens: the main rails are gone, and a POR with a cause follows (R477). -/
def State.openSwitch (s : State) (cause : Nat) : State :=
  if s.pwr.closed then
    ({ s with pwr := { s.pwr with closed := false } }).sysReset cause 4 else s

/-- THERM_TRIP (R486): dies 0–19 are the stands' DRAM, 20–39 their logic, 40 the landing.  A third trip within
3,600 s of the first latches. -/
def execThermTrip (die reading : Nat) (s : State) : Host.Outcome State Fault Refusal :=
  .next (
    if !s.pwr.standby || s.pwr.tripped || 40 < die || reading < (if die < 20 then 100 else 110) then s
    else
      let now := s.scl.scalerS
      let trips := now :: s.pwr.trips.filter fun t => now < t + 3600
      let s := s.bump Ob.THERMAL_TRIPS
      let s := ({ s with pwr := { s.pwr with tripped := true, trips := trips, latched := 3 ≤ trips.length } }).emit
        (.thermTrip true)
      s.openSwitch 0x04)

/-- TRIP_RELEASE (R486). -/
def execTripRelease (s : State) : Host.Outcome State Fault Refusal :=
  .next (if s.pwr.tripped && !s.pwr.latched then
    ({ s with pwr := { s.pwr with tripped := false } }).emit (.thermTrip false) else s)

/-! ### The input stage (R477–R479, Table 20.1) -/

/-- STANDBY_ON: VIN reaches 20 V; the reset controller starts in a POR with cause POWER_ON. -/
def execStandbyOn (s : State) : Host.Outcome State Fault Refusal :=
  .next (if s.pwr.standby then s
  else ({ s with pwr := { s.pwr with standby := true }, resets := [] }).sysReset 0x01 4)

/-- STANDBY_LOSS: VIN falls below 20 V; the trip latch and THERMAL_TRIPS clear (R486, R496). -/
def execStandbyLoss (s : State) : Host.Outcome State Fault Refusal :=
  .next (if !s.pwr.standby then s
  else
    let s := s.openSwitch 0x03
    let s := if s.pwr.tripped then s.emit (.thermTrip false) else s
    ({ s with pwr := { s.pwr with standby := false, tripped := false, latched := false, trips := [], brakeDuty := 16,
                                  fastDuty := 16 } }).put Ob.THERMAL_TRIPS 0)

/-- SWITCH_CLOSE: MATE and VIN have held for 100 ms. -/
def execSwitchClose (s : State) : Host.Outcome State Fault Refusal :=
  .next (if s.pwr.standby && !s.pwr.closed && !s.pwr.tripped then
    { s with pwr := { s.pwr with closed := true, mate := true } } else s)

/-- UNDERVOLTAGE: VIN below 28 V. -/
def execUndervoltage (s : State) : Host.Outcome State Fault Refusal := .next (s.openSwitch 0x03)

/-- OVERVOLTAGE: VIN above 42 V for 10 µs. -/
def execOvervoltage (s : State) : Host.Outcome State Fault Refusal := .next (s.openSwitch 0x02)

/-- BREAKER: the slow or the fast current limit. -/
def execBreaker (s : State) : Host.Outcome State Fault Refusal := .next (s.openSwitch 0x02)

/-- MATE breaks (R478).  Table 20.1 gives no cause of its own; the main rails fall, which is BROWNOUT. -/
def execMate (s : State) : Host.Outcome State Fault Refusal :=
  .next (({ s with pwr := { s.pwr with mate := false } }).openSwitch 0x02)

/-! ### The FRU EEPROM (R494) -/

/-- The 36 V limit of the first Gloaz record in the MultiRecord area, with fuel. -/
def fruRecord (b : Bytes) : Nat → Nat → Option Nat
  | 0, _ => none
  | fuel + 1, off =>
    if 2048 < off + 5 then none
    else
      let len := leAt b (off + 2) 1
      let d := off + 5
      if leAt b off 1 = 0xC0 && 6 ≤ len && leAt b d 3 = Config.gloazFruId % 2 ^ 24 && leAt b (d + 3) 1 = 1 then
        some (leAt b (d + 4) 2)
      else if 128 ≤ leAt b (off + 1) 1 then none
      else fruRecord b fuel (d + len)

/-- The IPMI FRU common header checks: its eight bytes sum to zero. -/
def fruHeaderOk (b : Bytes) : Bool := ((span 0 8).map fun i => leAt b i 1).sum % 256 = 0

/-- FRU_READ (R494): the result of the read that follows the pin configuration. -/
def execFruRead (fru : Bytes) (answered : Bool) (s : State) : Host.Outcome State Fault Refusal :=
  .next (
    if s.boot.mode ≠ .running || s.pwr.fruRead then s
    else
      let s := { s with pwr := { s.pwr with fruRead := true } }
      if !answered then s
      else
        let b := fitB 2048 fru
        let s := s.dput Ob.FRU_IMAGE b
        if !fruHeaderOk b then s.put Ob.FRU_STATUS 2
        else
          let s := s.put Ob.FRU_STATUS 1
          let off := 8 * leAt b 5 1
          match (if off = 0 then none else fruRecord b 410 off) with
          | some w => s.put Ob.CARRIER_MAX_W (min 1500 (max 300 w))
          | none => s)

end Sys2Proof.Machine
end

