-- ==== Sys2Proof/Machine/Clock.lean ====
section
/-!
DEFINITION. Clocks: source qualification, the reference multiplexer, the monitors, the dividers, the modes and the gates
(R453–R463).
-/
namespace Sys2Proof.Machine

/-! ### Sources and the reference (R454, R455, R457–R460) -/

/-- The multiplexer switches the reference.  A source that has lost its qualification may have stopped, which is left
open: the switch is then forced (R459). -/
def State.switchRef (s : State) (xo : Bool) : State :=
  if s.clk.refXo = xo then s
  else
    let oldOk := if xo then s.clk.ioscOk else s.clk.xoOk
    if oldOk then { s with clk := { s.clk with refXo := xo } }
    else
      let r := s.free
      let s := { r.2 with clk := { r.2.clk with refXo := xo } }
      if r.1 % 2 = 1 then { s with clk := { s.clk with forced := true } }.bump Ob.FORCED_SWITCHES else s

/-- XO_QUALIFIED (R454): network ports and M may run again (R457); in the hold sequence the reference switches (R460). -/
def execXoQualified (s : State) : Host.Outcome State Fault Refusal :=
  .next (if s.clk.xoOk || !s.boot.released then s
  else
    let s := if s.clk.hold then s.switchRef true else s
    { s with clk := { s.clk with xoOk := true } })

/-- IOSC_QUALIFIED (R454): it is stopped in DEEP_SLEEP, unless the hold sequence needs it. -/
def execIoscQualified (s : State) : Host.Outcome State Fault Refusal :=
  .next (if s.clk.ioscOk || !s.boot.released || (s.clk.asleep && !s.clk.hold) then s
  else
    let s := if s.clk.hold then s.switchRef false else s
    { s with clk := { s.clk with ioscOk := true } })

/-- REFERENCE_SWITCH (R455): at the tick edge after the XO's qualification. -/
def execReferenceSwitch (s : State) : Host.Outcome State Fault Refusal :=
  .next (if s.clocked && s.clk.xoOk then s.switchRef true else s)

/-- Without the XO each running network port reads LINK_DOWN, and M falls silent until the next BEACON (R457). -/
def State.loseXo (s : State) : State :=
  let s := [0, 1].foldl (fun (t : State) n => if t.portRuns n then (t.loseLinks n).setPortState n psLinkDown else t) s
  ({ s with mgmt := { s.mgmt with tx := [] } }).put Ob.PLCA_STATUS 0

/-- The hold sequence begins (R460). -/
def State.enterHold (s : State) : State := ({ s with clk := { s.clk with hold := true } }).setAlert

/-- MONITOR_TRIP (Table 19.4): every trip counts; a trip during a source's count only restarts the count. -/
def execMonitorTrip (source : ClockSource) (s : State) : Host.Outcome State Fault Refusal :=
  .next (if !s.boot.released then s
  else match source with
    | .xo =>
      let s := s.bump Ob.XO_FAULTS
      if !s.clk.xoOk then s
      else
        let s := { s with clk := { s.clk with xoOk := false } }.loseXo
        if s.clk.ioscOk then s.switchRef false else s.enterHold
    | .iosc =>
      if s.clk.asleep then s
      else
        let s := s.bump Ob.IOSC_FAULTS
        if !s.clk.ioscOk then s
        else
          let s := { s with clk := { s.clk with ioscOk := false } }
          if s.clk.xoOk then s.switchRef true else s.enterHold)

/-- PLL_UNLOCK (Table 19.4): every PLL domain is gated. -/
def execPllUnlock (s : State) : Host.Outcome State Fault Refusal :=
  .next (if s.clocked then { s with clk := { s.clk with pllLost := true } } else s)

/-- PLL_RELOCK (Table 19.4): the SYS reset follows. -/
def execPllRelock (s : State) : Host.Outcome State Fault Refusal := .next s.pllReset

/-! ### Dividers (R456) -/

/-- What a write of MCLK_DIV or PCLK_DIV does (R456). -/
def opDivider (w : Writer) (v : Nat) (s : State) : Ans :=
  let k := w.idx * 256 + w.sub
  let m := if k = Ob.MCLK_DIV then v else s.get Ob.MCLK_DIV
  let q := if k = Ob.PCLK_DIV then v else s.get Ob.PCLK_DIV
  if 2 ≤ m && m ≤ 16 && 4 ≤ q && q ≤ 16 && m * q ≤ 32 then
    (some .ok, { s.put k v with clk := { s.clk with divs := s.clk.divs ++ [(m, q, 2)] } })
  else (some .badDescriptor, s)

/-- MCLK_DIV: writes of MCLK_DIV and PCLK_DIV.  A permitted value applies at the second tick edge. -/
def execMclkDiv (acc : Access) (s : State) : Host.Outcome State Fault Refusal :=
  .next (s.write acc (fun k v => isKey Ob.MCLK_DIV k v || isKey Ob.PCLK_DIV k v) (numOp opDivider))

/-! ### Gates (R463, Table 19.6) -/

/-- The units of each gate bit, by unit code; 8 × 2,048 + n is the MAC and PCS of network port n. -/
def gateUnits (bit : Nat) : List Nat :=
  if bit < 8 then [unitCode .me bit]
  else if bit < 16 then (span (4 * (bit - 8)) 4).map (unitCode .rd)
  else if bit < 20 then (span (4 * (bit - 16)) 4).map (unitCode .pe)
  else if bit < 28 then [unitCode .chipD (bit - 20)]
  else if bit < 32 then [unitCode .chipC (bit - 28)]
  else if bit = 32 then [unitCode .copyEngine 0]
  else if bit < 35 then [8 * 2048 + (bit - 33)]
  else []

/-- The enable bits of the mode in force. -/
def State.gateMask (s : State) : Nat := if s.get Ob.POWER_MODE = 0 then s.get Ob.GATE_RUN else s.get Ob.GATE_SLEEP

/-- A unit's bit is 0: it takes no new item, and will be gated. -/
def State.gateOff (s : State) (u : Nat) : State :=
  if s.clk.gated.contains u || s.clk.gating.any (·.1 == u) then
    { s with clk := { s.clk with ungating := s.clk.ungating.filter (· != u) } }
  else { s with clk := { s.clk with gating := s.clk.gating ++ [(u, s.now)] },
                down := if s.down.contains u then s.down else u :: s.down }

/-- A unit's bit is 1: it is ungated at the next edge, or, not gated yet, goes on at once. -/
def State.gateOn (s : State) (u : Nat) : State :=
  if s.clk.gated.contains u then
    { s with clk := { s.clk with ungating := if s.clk.ungating.contains u then s.clk.ungating else u :: s.clk.ungating } }
  else if s.clk.gating.any (·.1 == u) then
    { s with clk := { s.clk with gating := s.clk.gating.filter (·.1 != u) },
             down := if s.blockResets.any (·.unit == u) then s.down else s.down.filter (· != u) }
  else s

/-- Bring the gates to the bits of the mode in force. -/
def State.applyGates (s : State) : State :=
  (List.range 35).foldl (fun (t : State) b =>
    (gateUnits b).foldl (fun (t : State) u => if bitOf s.gateMask b then t.gateOn u else t.gateOff u) t) s

/-- What a write of GATE_RUN or GATE_SLEEP does (R463). -/
def opGate (w : Writer) (v : Nat) (s : State) : Ans :=
  if 2 ^ 35 ≤ v then (some .badDescriptor, s)
  else (some .ok, (s.put (w.idx * 256 + w.sub) v).applyGates)

/-- GATE_RUN: writes of GATE_RUN and GATE_SLEEP (R463). -/
def execGateRun (acc : Access) (s : State) : Host.Outcome State Fault Refusal :=
  .next (s.write acc (fun k v => isKey Ob.GATE_RUN k v || isKey Ob.GATE_SLEEP k v) (numOp opGate))

/-- UNIT_GATED (R463): at an edge the unit has no item in flight, or QUIESCE_TICKS ticks have passed and it is cut off. -/
def execUnitGated (unit : Nat) (s : State) : Host.Outcome State Fault Refusal :=
  .next (match s.clk.gating.find? (·.1 == unit) with
    | none => s
    | some g =>
      let k := unitKind unit
      let u := unit % 2048
      let mac := 8 * 2048 ≤ unit
      let idle := mac || s.unitIdle k u
      if idle || s.get Ob.QUIESCE_TICKS ≤ s.since g.2 then
        let s := if idle then s else s.isolateUnit k u
        { s with clk := { s.clk with gating := s.clk.gating.filter (·.1 != unit), gated := unit :: s.clk.gated } }
      else s)

/-! ### Modes (R461, R462) -/

/-- The access writes a value to POWER_MODE. -/
def isMode (v : Nat) : Nat × Nat → Bytes → Bool := fun k b => isKey Ob.POWER_MODE k b && leNat b = v

/-- RUN: POWER_MODE written 0. -/
def execRun (acc : Access) (s : State) : Host.Outcome State Fault Refusal :=
  .next (s.write acc (isMode 0) fun _ _ s => (some .ok, (s.put Ob.POWER_MODE 0).applyGates))

/-- SLEEP: POWER_MODE written 1. -/
def execSleep (acc : Access) (s : State) : Host.Outcome State Fault Refusal :=
  .next (s.write acc (isMode 1) fun _ _ s => (some .ok, (s.put Ob.POWER_MODE 1).applyGates))

/-- DEEP_SLEEP: POWER_MODE written 2; admission stops and the module drains. -/
def execDeepSleep (acc : Access) (s : State) : Host.Outcome State Fault Refusal :=
  .next (s.write acc (isMode 2) fun w _ s =>
    (none, ({ s with clk := { s.clk with draining := some (s.clk.draining.getD s.now) } }).await .deepSleep 0 w.reply))

/-- Nothing is outstanding on either port, and no flow has an item in flight. -/
def State.drained (s : State) : Bool :=
  s.outstanding 0 = 0 && s.outstanding 1 = 0 &&
    [0, 1].all fun p => (s.part p).flows.all fun f => f.2.running.isEmpty && !f.2.slow.any (!·.stopped)

/-- DEEP_SLEEP_ENTRY (R461): both host links go down as in Table 5.11, the PLL and the IOSC stop. -/
def execDeepSleepEntry (s : State) : Host.Outcome State Fault Refusal :=
  .next (if s.clk.draining.isSome && s.drained then
    let s := s.answer .deepSleep 0 .ok
    let s := [0, 1].foldl (fun (t : State) p => ((t.dropLink p).clearPort p).closeOwned p) s
    ({ s with clk := { s.clk with draining := none, asleep := true, ioscOk := false } }).put Ob.POWER_MODE 2
  else s)

/-- DEEP_SLEEP_REFUSED (R461): the wait of 4,000 ticks ends first. -/
def execDeepSleepRefused (s : State) : Host.Outcome State Fault Refusal :=
  .next (match s.clk.draining with
    | some t => if !s.drained && 4000 ≤ s.since t then
        ({ s with clk := { s.clk with draining := none } }).answer .deepSleep 0 .resourceHeld else s
    | none => s)

/-- A wake source is enabled (R462): 0 the timer, 1 a frame on M, 2 and 3 PERST# of PA and PB. -/
def State.wakes (s : State) (source : Nat) : Bool :=
  source < 4 && bitOf (s.get Ob.WAKE_SOURCES) source && (source ≠ 0 || s.get Ob.WAKE_MS ≠ 0) &&
    (source ≠ 1 || (bitOf (s.get Ob.GATE_DEEP) 0 && s.clk.xoOk))

/-- WAKE (R74, R462): the exit of Table 19.5 up to the moment firmware resumes; the IOSC qualifies later. -/
def execWake (source : Nat) (s : State) : Host.Outcome State Fault Refusal :=
  .next (if s.clk.asleep && !s.clk.hold && s.wakes source then
    let vaults := s.vaults.map fun (e : Nat × Vault) => (e.1, { e.2 with owed := 0 })
    (({ s with clk := { s.clk with asleep := false, refXo := true }, vaults := vaults }).put
      Ob.POWER_MODE 0).applyGates
  else s)

end Sys2Proof.Machine
end

