-- ==== Sys2Proof/Machine/Params.lean ====
section
/-!
DEFINITION. The parameter store in flash: records, compaction, STORE and RESTORE_DEFAULTS, and the key slots
(R378, R379, R383, R403–R411).
-/
namespace Sys2Proof.Machine

/-! ### Stored values -/

/-- The bytes of an object held as a plain value: a setting, a counter or a string of bytes (R389). -/
def State.heldBytes (s : State) (k : Nat) : Bytes :=
  match odFind (k / 256) (k % 256) with
  | none => []
  | some r => if r.ty = 7 || r.ty = 8 then s.dget k else leBytes (tyBytes r.ty) (s.get k)

/-- The keys that a row of the dictionary stands for. -/
def OdRow.keys (r : OdRow) : List Nat :=
  (span r.idx r.nIdx).flatMap fun i => (span r.sub r.nSub).map fun j => i * 256 + j

/-- The object is a key slot. -/
def isKeySlot (k : Nat) : Bool := (keySlot? (k / 256) (k % 256)).isSome

/-- The index area of a key. -/
def areaOf (k : Nat) : Nat := k / 0x100000

/-- The objects that a STORE of an area writes, in ascending index and subindex (R404); the key slots have records of
their own. -/
def storedKeys (area : Nat) : List Nat :=
  sortBy (fun a b => decide (a < b)) ((odRows.filter (·.store)).flatMap OdRow.keys |>.filter fun k =>
    !isKeySlot k && (area = 0 || areaOf k = area))

/-! ### Records (R403, R406) -/

/-- Bytes of a record: header, body and commit word. -/
def entriesSize (es : List (Nat × Bytes)) : Nat := (es.map fun e => 8 + divUp e.2.length 8 * 8).sum
def StoreRec.size (r : StoreRec) : Nat := 40 + entriesSize r.entries

/-- Every valid record of the store, oldest first (R406). -/
def Nv.records (n : Nv) : List StoreRec := (n.store.flatMap (·.recs)).filter (·.valid)

/-- STORE_INVALID of a boot: the records that do not check (R406). -/
def Nv.invalid (n : Nv) : Nat := ((n.store.flatMap (·.recs)).filter fun r => !r.valid).length

/-- STORE_SEQ: the SEQ of the newest committed record (R411). -/
def Nv.newestSeq (n : Nv) : Nat := n.records.foldl (fun m r => max m r.seq) 0

/-- A record speaks for an area: KIND 0 and 1, of the area or of every area. -/
def StoreRec.speaks (r : StoreRec) (area : Nat) : Bool := r.kind != 2 && (r.area == area || r.area == 0)

/-- The record of the highest SEQ among some. -/
def newestRec (l : List StoreRec) : Option StoreRec :=
  l.foldl (fun (b : Option StoreRec) r => match b with
    | some x => if x.seq < r.seq then some r else b
    | none => some r) none

/-- The winning record of an area, and of a key slot. -/
def areaWinner (l : List StoreRec) (area : Nat) : Option StoreRec := newestRec (l.filter (·.speaks area))
def slotWinner (l : List StoreRec) (k : Nat) : Option StoreRec :=
  newestRec (l.filter fun r => r.kind == 2 && r.entries.any (·.1 == k))

/-- The SEQ of every winning record, each once. -/
def winners (l : List StoreRec) : List Nat :=
  (((span 1 10).filterMap fun a => (areaWinner l a).map (·.seq)) ++
    ((span Ob.MGMT_KEY0 6).filterMap fun k => (slotWinner l k).map (·.seq))).dedup

/-- Bytes that the winning records hold together. -/
def winnerBytes (l : List StoreRec) : Nat :=
  ((winners l).map fun q => ((l.find? (·.seq == q)).map StoreRec.size).getD 0).sum

/-! ### The log in flash (R403, R404, R408) -/

/-- Sectors of the store. -/
def storeSectors : Nat := 16

/-- Where the next record of `n` bytes goes in the log: sector and offset (R403).  It is the newest sector where it fits from the next
64 B boundary, else the next erased one. -/
def nextPlace (l : List StoreSector) (n : Nat) : Nat × Nat :=
  match l.getLast? with
  | some x => if divUp x.used 64 * 64 + n ≤ 65536 then (l.length - 1, divUp x.used 64 * 64) else (l.length, 0)
  | none => (0, 0)

/-- The log with a record programmed at its next place. -/
def placeRec (l : List StoreSector) (r : StoreRec) : List StoreSector :=
  let p := nextPlace l r.size
  if p.1 = l.length then l ++ [{ recs := [r], used := r.size }]
  else match l.getLast? with
    | some x => l.dropLast ++ [{ recs := x.recs ++ [r], used := p.2 + r.size }]
    | none => l

/-- The read-back of a record at the next place checks (R404). -/
def Nv.readsBack (n : Nv) (r : StoreRec) : Bool :=
  let p := nextPlace n.store r.size
  let at0 := (n.storeBase + p.1) % storeSectors * 65536 + p.2
  !(n.storeBad.any fun b => at0 / 64 ≤ b && b ≤ (at0 + r.size - 1) / 64)

/-- Program a record: committed where its read-back checks, else left uncommitted (R404 steps 2 to 4). -/
def Nv.program (n : Nv) (r : StoreRec) : Bool × Nv :=
  let ok := n.readsBack r
  (ok, { n with store := placeRec n.store { r with valid := ok } })

/-- Commit a record, with one retry at the next boundary (R404); STORE_WRITES counts it.  False where both attempts fail. -/
def State.commitRec (s : State) (r : StoreRec) : Bool × State :=
  let a := s.nv.program r
  let b := if a.1 then a else a.2.program r
  let s : State := { s with nv := b.2 }
  (b.1, if b.1 then s.bump Ob.STORE_WRITES else s)

/-- Commit copies of records in turn, until one fails. -/
def State.commitAll (s : State) : List StoreRec → Bool × State
  | [] => (true, s)
  | r :: rs =>
    let x := s.commitRec r
    if x.1 then State.commitAll x.2 rs else x

/-- Compaction (R408): while fewer than 4 sectors are erased, the winning records of the oldest sector are copied to the
end and the sector is erased.  False where a copy cannot be committed: the sector then stays. -/
def State.compact : Nat → State → Bool × State
  | 0, s => (true, s)
  | fuel + 1, s =>
    if storeSectors < s.nv.store.length + 4 then
      match s.nv.store with
      | [] => (true, s)
      | x :: _ =>
        let w := winners s.nv.records
        let r := s.commitAll (x.recs.filter fun r => r.valid && w.contains r.seq)
        if !r.1 then r
        else
          let n := r.2.nv
          State.compact fuel (({ r.2 with nv := { n with
            store := n.store.drop 1, storeBase := (n.storeBase + 1) % storeSectors } }).bump Ob.STORE_ERASES)
    else (true, s)

/-- Write a new record with the next SEQ (R405): false where it cannot be committed (R404). -/
def State.writeRec (s : State) (kind area : Nat) (entries : List (Nat × Bytes)) : Bool × State :=
  let c := State.compact storeSectors s
  if !c.1 then c
  else
    let n := c.2.nv
    let t : State := { c.2 with nv := { n with storeSeq := n.storeSeq + 1 } }
    t.commitRec { kind := kind, area := area, seq := n.storeSeq + 1, entries := entries, valid := true }

/-- STORE_FREE: bytes left in the newest sector and in the erased sectors above 4. -/
def Nv.storeFree (n : Nv) : Nat :=
  65536 * (storeSectors - 4 - n.store.length) +
    (match n.store.getLast? with
      | some x => if n.store.length + 4 ≤ storeSectors then 65536 - divUp x.used 64 * 64 else 0
      | none => 0)

/-- The flash user area is erased at a life-cycle transition (Table 17.3 step 3); SEQ starts again from 1. -/
def Nv.eraseUser (n : Nv) : Nv := { n with store := [], storeSeq := 0, storeBase := 0, wipeLc := n.lc }

/-! ### STORE and RESTORE_DEFAULTS (R383, R403, R405, R420) -/

/-- The checks of a record: the area, a firmware write under way, the limits of a body and of the winning records, SEQ. -/
def State.recCheck (s : State) (kind area : Nat) (entries : List (Nat × Bytes)) : Status :=
  let r : StoreRec := { kind := kind, area := area, seq := s.nv.storeSeq + 1, entries := entries, valid := true }
  firstFail [(10 < area, .badDescriptor), (s.boot.writing.isSome, .resourceHeld),
    (61440 < entriesSize entries || 196608 < winnerBytes (s.nv.records ++ [r]) || 0xFFFFFFFE ≤ s.nv.storeSeq,
      .noResource)]

/-- Write a record that a request asks for, and answer: NO_RESOURCE where it cannot be committed (R404). -/
def State.storeRecord (s : State) (w : Writer) (kind area : Nat) (entries : List (Nat × Bytes)) : State :=
  let r := s.writeRec kind area entries
  r.2.respond w.reply (if r.1 then .ok else .noResource)

/-- Check and write a record that a request asks for. -/
def State.storeRequest (s : State) (w : Writer) (kind area : Nat) (entries : List (Nat × Bytes)) : State :=
  let st := s.recCheck kind area entries
  if st = .ok then s.storeRecord w kind area entries else s.respond w.reply st

/-- STORE. -/
def execStore (msg : BopMsg) (s : State) : Host.Outcome State Fault Refusal :=
  .next (s.serve msg (· = 0x20) fun w x t =>
    let area := leAt x.payload 0 1
    t.storeRequest w 0 area ((storedKeys area).map fun k => (k, t.heldBytes k)))

/-- RESTORE_DEFAULTS. -/
def execRestoreDefaults (msg : BopMsg) (s : State) : Host.Outcome State Fault Refusal :=
  .next (s.serve msg (· = 0x21) fun w x t => t.storeRequest w 1 (leAt x.payload 0 1) [])

/-! ### Key slots (R376, R378, R379, R410, R420) -/

/-- The key that a write carries: wrapped where a session carries it (R379). -/
def Writer.unwrap (w : Writer) (v : Bytes) : Bytes :=
  if w.slot.isSome then
    xorB v (hmac w.ks (ascii "BOPWRAP" ++ beBytes 4 w.ctr ++ beBytes 2 w.idx ++ beBytes 1 w.sub))
  else v

/-- R378: the write meets the rule of the slot's life-cycle state. -/
def State.keyWriteCheck (s : State) (w : Writer) (slot : Nat) : Status :=
  if 3 ≤ s.nv.lc then .locked
  else if s.nv.lc = 2 then
    if w.slot = some 0 || (4 ≤ slot && w.slot = some slot) then .ok else .notPermitted
  else if s.keyEmpty slot then (if slotOwner slot == w.who then .ok else .notPermitted)
  else if (match w.slot with | some k => slotOwner k == slotOwner slot && !s.keyEmpty k | none => false) then .ok
  else .notPermitted

/-- Store a key: the sessions of its slot end, and a KIND 2 record follows. -/
def State.storeKey (s : State) (slot : Nat) (key : Bytes) : State :=
  let k := Ob.MGMT_KEY0 + slot
  let s := s.dput k key
  let s := ((s.mgmt.sessions.filter fun v => v.slot == slot).map (·.id)).foldl (fun (t : State) i => t.endSession i) s
  (s.writeRec 2 8 [(k, key)]).2

/-- What a write of a key slot does: the answer leaves before the key is stored. -/
def opKeySlot (w : Writer) (v : Bytes) (s : State) : Ans :=
  let slot := (keySlot? w.idx w.sub).getD 0
  let st := firstFail [(s.keyWriteCheck w slot ≠ .ok, s.keyWriteCheck w slot), (s.boot.writing.isSome, .resourceHeld)]
  if st ≠ .ok then (some st, s)
  else (none, (s.respond w.reply .ok).storeKey slot (w.unwrap v))

/-- KEY_SLOT_WRITE. -/
def execKeySlotWrite (acc : Access) (s : State) : Host.Outcome State Fault Refusal :=
  .next (s.write acc (fun k _ => (keySlot? k.1 k.2).isSome) opKeySlot)

end Sys2Proof.Machine
end

