-- ==== Sys2Proof/Machine/Firmware.lean ====
section
/-!
DEFINITION. Firmware images, the life cycle, debug access and attestation (R413–R416, R418–R425, R427–R432).
-/
namespace Sys2Proof.Machine

/-! ### Signatures (R414–R416) -/

/-- A public key and signature of Gloaz over a message (R414). -/
def vendorSigned (key sig msg : Bytes) : Bool :=
  sha256 key == leBytes 32 Config.vendorKeyHash && Config.slhVerify key msg sig

/-- A component of an image lies inside its signed bytes, aligned to 64 B. -/
def componentOk (img : Bytes) (off len : Nat) : Bool := off % 64 = 0 && off + len ≤ leAt img 12 4

/-- The header of a firmware image is well formed (Table 17.2). -/
def imageForm (img : Bytes) : Bool :=
  let flags := leAt img 6 2
  let signed := leAt img 12 4
  let fw := (leAt img 32 4, leAt img 36 4)
  let kl := (leAt img 40 4, leAt img 44 4)
  leAt img 0 4 = 0x57464D52 && leAt img 4 2 = 1 && flags ≤ 1 && leAt img 8 4 = signed + 7888 * (1 + flags) &&
    leAt img 8 4 ≤ 33554424 && img.length = leAt img 8 4 && signed % 64 = 0 && leAt img 24 1 ≤ 63 &&
    allZero (sliceB img 25 7) && allZero (sliceB img 48 80) && componentOk img fw.1 fw.2 && componentOk img kl.1 kl.2 &&
    (fw.1 + fw.2 ≤ kl.1 || kl.1 + kl.2 ≤ fw.1)

/-- The owner's signature is asked for (R415). -/
def Nv.needsOwner (n : Nv) : Bool := n.lc = 2 && !allZero n.ownerHash

/-- The checks of an image, in the order R414, R415, R416. -/
def Nv.checkImage (n : Nv) (img : Bytes) : Status :=
  let signed := leAt img 12 4
  let msg := sha256 (img.take signed)
  let own := signed + 7888
  firstFail [
    (!imageForm img, .badDescriptor),
    (!vendorSigned (sliceB img signed 32) (sliceB img (signed + 32) 7856) msg, .signatureBad),
    (n.needsOwner && !(leAt img 6 2 = 1 && sha256 (sliceB img own 32) == n.ownerHash &&
      Config.slhVerify (sliceB img own 32) msg (sliceB img (own + 32) 7856)), .signatureBad),
    (leAt img 24 1 < n.svnMin, .locked)]

/-- A Gloaz token: key and signature over the digest of a label, SERIAL, TARGET and LC_NONCE (R424, R427). -/
def State.tokenOk (s : State) (label : String) (target : Nat) (token : Bytes) : Bool :=
  vendorSigned (token.take 32) (token.drop 32) (sha256 (ascii label ++ leBytes 8 Config.serial ++ leBytes 1 target ++
    leBytes 16 (Config.lcNonce s.nv.bootCount s.boot.nonce)))

/-! ### Firmware update (R419–R422) -/

/-- What a commit of FW_IMAGE does: the checks, and the start of the flash write, whose first erase leaves no image. -/
def opFirmware (w : Writer) (v : Bytes) (s : State) : Ans :=
  let st := if s.boot.writing.isSome then .resourceHeld else s.nv.checkImage v
  if st ≠ .ok then (some st, s)
  else
    let s : State := { s with boot := { s.boot with writing := some v }, nv := { s.nv with image := [], committed := false } }
    (none, (s.put Ob.FW_UPDATE_STATE 1).await .firmware 0 w.reply)

/-- The boot-log entries that waited are written after the commit word (R420). -/
def State.flushLog (s : State) : State :=
  let l := s.boot.logWaiting
  let s : State := { s with boot := { s.boot with logWaiting := [] } }
  l.foldl (fun (t : State) e =>
    let u := t.bootLog e.kind e.status e.detail
    { u with nv := { u.nv with log := match u.nv.log with
        | x :: r => { x with tick := e.tick, bootCount := e.bootCount } :: r
        | [] => [] } }) s

/-- FIRMWARE_WRITTEN (R419, R422): the flash write ends; in recovery a SYS reset follows the answer. -/
def execFirmwareWritten (committed : Bool) (s : State) : Host.Outcome State Fault Refusal :=
  .next (match s.boot.writing with
    | none => s
    | some img =>
      let s : State := { s with boot := { s.boot with writing := none } }
      if committed then
        let s : State := { s with nv := { s.nv with image := img, committed := true } }
        let s := (s.put Ob.FW_UPDATE_STATE 2).bootLog 0x04 0 (sliceB img 16 4 ++ sliceB img 24 1)
        let s := s.flushLog.answer .firmware 0 .ok
        if s.boot.mode = .recovery then s.txDone.sysReset 0x15 3 else s
      else ((s.put Ob.FW_UPDATE_STATE 3).flushLog).answer .firmware 0 .noResource)

/-! ### Security version (R416) -/

/-- SVN_COMMIT. -/
def execSvnCommit (acc : Access) (s : State) : Host.Outcome State Fault Refusal :=
  .next (s.write acc (isKey Ob.SVN_COMMIT) (numOp fun _ v s =>
    if 63 < v || s.boot.svn < v then (some .badDescriptor, s)
    else (some .ok, { s with nv := { s.nv with svnMin := max s.nv.svnMin v } })))

/-! ### Life cycle (R423–R425) -/

/-- Bytes after the first 4 of an allowed transition; none where Table 17.5 has none. -/
def transitionLen (lc target : Nat) : Option Nat :=
  if target = 1 && lc = 0 then some 15808
  else if target = 2 && lc = 1 then some 64
  else if target = 3 && lc = 2 then some 0
  else if target = 4 && lc ≤ 3 then some 0
  else none

/-- The new MGMT_KEY0 of a transition to DEPLOYED. -/
def Writer.newKey (w : Writer) (v : Bytes) : Bytes := w.unwrap (sliceB v 4 32)

/-- The checks of LC_REQUEST, in the order of R424. -/
def State.transitionCheck (s : State) (w : Writer) (v : Bytes) : Status :=
  let target := leAt v 0 1
  firstFail [
    (leAt v 1 3 ≠ 0 || transitionLen s.nv.lc target ≠ some (v.length - 4) || v.length < 4 ||
      (target = 2 && allZero (w.newKey v)), .badDescriptor),
    (s.nv.lc = 2 && w.slot ≠ some 0, .authFail),
    (target = 1 && !s.tokenOk "RMY-LC" 1 (sliceB v 4 7888), .signatureBad),
    (s.boot.writing.isSome, .resourceHeld)]

/-- What a write of LC_REQUEST does (R424, R425): the data and the fuses, the answer, then a SYS reset. -/
def opTransition (w : Writer) (v : Bytes) (s : State) : Ans :=
  let st := s.transitionCheck w v
  if st ≠ .ok then (some st, s)
  else
    let target := leAt v 0 1
    let nv := { s.nv with
      lc := target
      deviceKey := if target = 1 then sliceB v 7892 7920 else s.nv.deviceKey
      ownerHash := if target = 2 then sliceB v 36 32 else s.nv.ownerHash }
    let boot := { s.boot with
      nonce := s.boot.nonce + 1
      oldLc := some s.nv.lc
      newKey := if target = 2 then some (w.newKey v) else none }
    let s : State := { s with nv := nv, boot := boot }
    (none, (s.respond w.reply .ok).txDone.sysReset 0x16 3)

/-- LC_REQUEST. -/
def execLcRequest (acc : Access) (s : State) : Host.Outcome State Fault Refusal :=
  .next (s.write acc (isKey Ob.LC_REQUEST) opTransition)

/-! ### Debug access (R427) -/

/-- Debug access was granted: a device-wide CORE reset, at whose end it opens. -/
def State.grantDebug (s : State) (r : Reply) : State :=
  let s := s.await .debugOpen 0 r
  ({ s with boot := { s.boot with debugPending := true } }).coreReset 0x21

/-- DEBUG_UNLOCK: in DEPLOYED, by a session on MGMT_KEY0. -/
def execDebugUnlock (acc : Access) (s : State) : Host.Outcome State Fault Refusal :=
  .next (s.write acc (isKey Ob.DEBUG_UNLOCK) (numOp fun w v s =>
    let st := firstFail [(v ≠ 1, .badDescriptor), (s.nv.lc ≠ 2, .locked), (w.slot ≠ some 0, .authFail)]
    if st ≠ .ok then (some st, s) else (none, s.grantDebug w.reply)))

/-- What a write of DEBUG_TOKEN does: in RETURNED, by a token of Gloaz. -/
def opDebugToken (w : Writer) (v : Bytes) (s : State) : Ans :=
  let st := firstFail [(s.nv.lc ≠ 3, .locked), (!s.tokenOk "RMY-DBG" 0 v, .signatureBad)]
  if st ≠ .ok then (some st, s) else (none, s.grantDebug w.reply)

/-- DEBUG_TOKEN. -/
def execDebugToken (acc : Access) (s : State) : Host.Outcome State Fault Refusal :=
  .next (s.write acc (isKey Ob.DEBUG_TOKEN) opDebugToken)

/-! ### Attestation (R418, R430–R432) -/

/-- The objects of the security digest with their values (R418). -/
def State.securityObjects (s : State) : List (Nat × Bytes) :=
  sortBy (fun (a b : Nat × Bytes) => decide (a.1 < b.1))
    ([(Ob.LC_STATE, leBytes 1 s.nv.lc), (Ob.OWNER_KEY_HASH, s.nv.ownerHash), (Ob.SVN_MIN, leBytes 1 s.nv.svnMin),
      (Ob.IMAGE_SIG_POLICY, leBytes 1 (s.get Ob.IMAGE_SIG_POLICY)), (Ob.KEY_STATE, leBytes 2 s.keyState),
      (Ob.DEBUG_STATE, leBytes 1 (s.get Ob.DEBUG_STATE)), (Ob.PART_SPLIT, leBytes 1 s.div.split),
      (Ob.SHARED, leBytes 1 (b2n s.div.shared))] ++
      (span Ob.IMAGE_KEY_HASH0 4).map fun k => (k, s.dget k))

/-- The security-object digest (R418). -/
def State.securityDigest (s : State) : Bytes :=
  sha256 (s.securityObjects.flatMap fun e =>
    leBytes 2 (e.1 / 256) ++ leBytes 1 (e.1 % 256) ++ leBytes 1 0 ++ leBytes 4 e.2.length ++ e.2)

/-- One entry of a report (R431). -/
def reportEntry (kind part handle : Nat) (hash : Bytes) : Bytes :=
  leBytes 1 kind ++ leBytes 1 part ++ leBytes 1 handle ++ leBytes 13 0 ++ fitB 32 hash

/-- The image entries of a scope, by partition and handle. -/
def State.imageEntries (s : State) (scope : Nat) : List Bytes :=
  ([0, 1].filter fun p => scope = 2 || scope = p).flatMap fun p =>
    (List.range 8).filterMap fun h => (look (s.part p).images h).map fun im => reportEntry 4 p h im.hash

/-- A report (R431, Table 17.8).  PART and HANDLE of the first three entries are left open. -/
def State.report (s : State) (scope : Nat) (nonce : Bytes) : Bytes × State :=
  let f := s.free
  let open_ (i : Nat) : Nat := f.1 / 256 ^ i % 256
  let entries := [reportEntry 1 (open_ 0) (open_ 1) s.boot.fwHash, reportEntry 2 (open_ 2) (open_ 3) s.boot.klibHash,
    reportEntry 3 (open_ 4) (open_ 5) s.securityDigest] ++ s.imageEntries scope
  let header := leBytes 4 0x54535441 ++ leBytes 2 1 ++ leBytes 1 s.nv.lc ++ leBytes 1 scope ++ leBytes 2 entries.length ++
    leBytes 2 (b2n s.boot.debugOpened) ++ leBytes 4 s.nv.bootCount ++ leBytes 8 Config.serial ++ leBytes 6 s.now ++
    leBytes 2 0 ++ leBytes 4 s.boot.fwVersion ++ leBytes 4 s.boot.klibVersion ++ leBytes 1 s.boot.svn ++
    leBytes 1 s.nv.svnMin ++ leBytes 6 0 ++ fitB 32 nonce ++ List.replicate 48 0
  let body := header ++ entries.flatten
  (body ++ fitB 17088 (Config.attestSign (sha256 body)), f.2)

/-- ATTEST (R430). -/
def execAttest (id : Nat) (s : State) : Host.Outcome State Fault Refusal :=
  .next (match s.control id 0x60 with
    | none => s
    | some c =>
      let st := firstFail [(c.f 511 416 ≠ 0 || c.f 415 384 < 18128, .badDescriptor),
        (s.nv.lc = 0 || s.nv.lc = 4, .locked)]
      if st ≠ .ok then s.finish id st 0
      else
        let r := s.report c.part (leBytes 32 (c.f 319 64))
        (r.2.dmaWrite id c.port (c.f 383 320) r.1).finish id .ok r.1.length)

/-- What a write of ATTEST_NONCE does (R432). -/
def opAttestNonce (_ : Writer) (v : Bytes) (s : State) : Ans :=
  let r := s.report 2 v
  (some .ok, r.2.dput Ob.ATTEST_REPORT r.1)

/-- ATTEST_NONCE. -/
def execAttestNonce (acc : Access) (s : State) : Host.Outcome State Fault Refusal :=
  .next (s.write acc (isKey Ob.ATTEST_NONCE) opAttestNonce)

end Sys2Proof.Machine
end

