-- ==== Sys2Proof/Machine/Objects.lean ====
section
/-!
DEFINITION. The values objects read as, READ and OD_READ, the directory, and every write: WRITE, OD_WRITE, BLOCK_COMMIT
and the settings with a row of their own (R37x–R40x, Tables 2.7, 16.6, 16.8, 16.10, 18.5, 19.13, 20.5).
-/
namespace Sys2Proof.Machine

/-! ### Values that other state gives (RO objects) -/

/-- LAT_CYCLES (R38), LAT_BOUND_TICKS (R48), LAT_ARRIVAL_LIMIT and LAT_ACCESS_LIMIT (R49). -/
def State.latCycles (s : State) : Nat := divUp (s.period * s.ticks.share) 100
def State.latBound (s : State) : Nat := if 219 ≤ s.period then 4 else 8
def State.latArrivalLimit (s : State) : Nat := 400 * s.period / 940
def State.latAccessLimit (s : State) : Nat := min 48 (s.latCycles - 11)

/-- SCRUB_GAP_TICKS (R67). -/
def State.scrubGap (s : State) : Nat := max 1 (s.get Ob.SCRUB_PERIOD_H * 3600 * 940000000 / (s.period * 33554432))

/-- CLK_STATUS (Table 19.13). -/
def State.clkStatus (s : State) : Nat :=
  b2n s.clk.xoOk + 2 * b2n s.clk.ioscOk + 4 * b2n s.clk.refXo + 8 * b2n s.clk.forced + 16 * b2n s.clk.hold

/-- IMAGES_LOADED (Table 9.5). -/
def State.imagesLoaded (s : State) : Nat :=
  [0, 1].foldl (fun (v : Nat) p => (s.part p).images.foldl (fun (v : Nat) e => setBit v (8 * p + e.1) true) v) 0

/-- SCL_STATUS with LINK_OK: a status frame arrived in the last 2 s, counted in ticks (Table 18.5). -/
def State.sclStatus (s : State) : Nat :=
  setBit (s.get Ob.SCL_STATUS) 4 (match s.statusAt with
    | some t => decide (s.since t ≤ 1880000000 / s.period)
    | none => false)

/-- SET_STATE (Table 7.5): state and entries. -/
def State.setState (s : State) (p n : Nat) : Nat :=
  let x := s.set? p n
  (if x.state = 0 then b2n (x.count != 0) else x.state) + 4 * x.count

/-- A computed object of a fixed width: its value, or none where the object is held as a plain value. -/
def State.computed (s : State) (k : Nat) : Option Nat :=
  if k = Ob.SERIAL then some Config.serial
  else if k = Ob.FW_VERSION then some s.boot.fwVersion
  else if k = Ob.BOOT_COUNT then some s.nv.bootCount
  else if k = Ob.KLIB_VERSION then some s.boot.klibVersion
  else if k = Ob.STORE_SEQ then some s.nv.newestSeq
  else if k = Ob.STORE_FREE then some s.nv.storeFree
  else if k = Ob.TICK_COUNT then some s.now
  else if k = Ob.LAT_CYCLES then some s.latCycles
  else if k = Ob.MAINT_CYCLES then some s.maintCycles
  else if k = Ob.LAT_BOUND_TICKS then some s.latBound
  else if k = Ob.LAT_ARRIVAL_LIMIT then some s.latArrivalLimit
  else if k = Ob.LAT_ACCESS_LIMIT then some s.latAccessLimit
  else if k = Ob.PART_SPLIT then some s.div.split
  else if k = Ob.SHARED then some (b2n s.div.shared)
  else if Ob.CORE_FUSE_MAP ≤ k && k < Ob.CORE_FUSE_MAP + 20 then some (fuseMask (k - Ob.CORE_FUSE_MAP))
  else if k = Ob.SPREAD_WINDOW_ACTIVE then some s.div.window
  else if k = Ob.SPREAD_SEED_P0_ACTIVE then some s.div.seed0
  else if k = Ob.SPREAD_SEED_P1_ACTIVE then some s.div.seed1
  else if k = Ob.SCRUB_GAP_TICKS then some s.scrubGap
  else if k = Ob.MAC_BASE then some firstMac
  else if k = Ob.MGMT_MAC then some (Config.mgmtMac % 2 ^ 48)
  else if Ob.SET_STATE ≤ k && k < Ob.SET_STATE + 16 then some (s.setState 0 (k - Ob.SET_STATE))
  else if at_ Ob.SET_STATE 1 ≤ k && k < at_ Ob.SET_STATE 1 + 16 then some (s.setState 1 (k - at_ Ob.SET_STATE 1))
  else if k = Ob.LC_STATE then some s.nv.lc
  else if k = Ob.SVN_MIN then some s.nv.svnMin
  else if k = Ob.IMAGES_LOADED then some s.imagesLoaded
  else if k = Ob.KEY_STATE then some s.keyState
  else if k = Ob.BOOT_LOG_HEAD then some (s.nv.logNext % 65536)
  else if k = Ob.SCL_STATUS then some s.sclStatus
  else if k = Ob.SCL_SW_VERSION then some (Config.scalerSwVersion % 2 ^ 16)
  else if k = Ob.CLK_STATUS then some s.clkStatus
  else if k = Ob.PWR_LIMIT_ACTIVE then some s.powerLimit
  else if k = Ob.DUTY then some s.duty
  else if k = Ob.THROTTLE_SRC then some s.throttleSrc
  else none

/-! ### Byte strings -/

/-- REGION_HOLDERS for a reader: the holder codes, 0xFF for a host in the other partition's regions (R400). -/
def State.regionHolders (s : State) (who : Principal) : Bytes :=
  (List.range 2048).map fun r =>
    let p := if inRange (s.div.regionRange 0) r then 0 else 1
    if s.ownPart who p then BitVec.ofNat 8 (s.holder r) else 0xFF

/-- ERR_LOG (R76): the ring with the newest entry just below ERR_LOG_HEAD. -/
def State.errLogBytes (s : State) : Bytes :=
  let h := s.get Ob.ERR_LOG_HEAD
  (List.range 1024).flatMap fun i =>
    match s.errLog[(h + 1023 - i) % 1024]? with
    | some e => e.bytes
    | none => List.replicate 32 0

/-- REPAIR_MAP of a stand (Table 3.7). -/
def State.repairMap (s : State) (n : Nat) : Bytes :=
  (List.range 1024).map fun i =>
    match s.repairEntry (1024 * n + i) with
    | some r => BitVec.ofNat 8 (r.pos + 128 * b2n r.soft)
    | none => 0x7F

/-- The 64 B of a boot-log entry (Table 17.9). -/
def BootEntry.bytes (e : BootEntry) : Bytes :=
  let b := leBytes 4 e.seq ++ leBytes 1 e.kind ++ leBytes 1 e.status ++ leBytes 2 0 ++ leBytes 4 e.bootCount ++
    leBytes 6 e.tick ++ leBytes 2 0 ++ fitB 36 e.detail
  b ++ leBytes 4 (crc32c b) ++ leBytes 4 0x59414B4F

/-- BOOT_LOG: the ring of 65,536 entries, entry SEQ at index SEQ mod 65,536. -/
def Nv.logBytes (n : Nv) : Bytes :=
  (List.range 65536).flatMap fun i =>
    match n.log.find? fun e => e.seq % 65536 == i with
    | some e => e.bytes
    | none => List.replicate 64 Config.erasedByte

/-- DICT_LIST (Table 14.10): the dictionaries of the reader's partition. -/
def State.dictList (s : State) (p : Nat) : Bytes :=
  fitB 128 ((s.part p).dicts.flatMap fun d => leBytes 4 d.1 ++ leBytes 4 d.2.bytes.length)

/-- The partition that a reader's own objects show: P0 for M. -/
def State.readerPart (s : State) (who : Principal) : Nat := if who == .b && !s.div.shared then 1 else 0

/-- Number of a principal's own copy of a selection object. -/
def peekKey (k : Nat) (who : Principal) : Nat :=
  k * 4 + (match who with | .m => 0 | .a => 1 | .b => 2 | .k => 3)

/-- A principal's own selection. -/
def State.selection (s : State) (k : Nat) (who : Principal) : Nat := lookD s.mgmt.selected (peekKey k who) 0

/-- FLOW_PEEK, STREAM_PEEK and TABLE_PEEK (Table 4.7, R154, R304). -/
def State.peekFlow (s : State) (who : Principal) : Status × Bytes :=
  let f := s.selection Ob.FLOW_PEEK_SEL who
  if 262144 ≤ f then (.badDescriptor, [])
  else if !s.ownPart who (s.div.flowPart f) then (.notPermitted, [])
  else (.ok, s.contextBytes (s.div.flowPart f) f)

def State.peekStream (s : State) (who : Principal) : Status × Bytes :=
  let f := s.selection Ob.STREAM_PEEK_SEL who
  if 4096 ≤ f then (.badDescriptor, [])
  else if !s.ownPart who (s.div.streamPart f) then (.notPermitted, [])
  else (.ok, s.streamBytes (s.div.streamPart f) f)

def State.peekTable (s : State) (who : Principal) : Status × Bytes :=
  let v := s.selection Ob.TABLE_PEEK_SEL who
  let p := if who == .m then v / 2 ^ 32 % 2 else s.readerPart who
  match s.table? p (v % 2 ^ 32) with
  | some t => (.ok, s.tableRecord p t)
  | none => (.badDescriptor, [])

/-! ### The directory (R396) -/

/-- Largest length of a STR or DOMAIN object. -/
def longest (k : Nat) : Nat :=
  if k = Ob.DEVICE_NAME then 12
  else if k = Ob.ORDER_CODE then 7
  else if k = Ob.REGION_HOLDERS || k = Ob.FRU_IMAGE || k = Ob.SCL_AUDIT_LOG then 2048
  else if k = Ob.ERR_LOG then 32768
  else if Ob.REPAIR_MAP ≤ k && k < Ob.REPAIR_MAP + 20 then 1024
  else if k = Ob.FLOW_PEEK || k = Ob.STREAM_PEEK || k = Ob.TABLE_PEEK then 64
  else if k = Ob.MODULE_INFO || k = at_ Ob.MODULE_INFO 1 then 384
  else if k = Ob.DICT_LOAD then 262152
  else if k = Ob.DICT_LIST then 128
  else if k = Ob.LC_NONCE then 16
  else if k = Ob.LC_REQUEST then 15812
  else if k = Ob.OWNER_KEY_HASH || k = Ob.SCL_CAL then 32
  else if k = Ob.DEVICE_KEY_RECORD || k = Ob.SCL_KEY_RECORD then 7920
  else if k = Ob.ATTEST_REPORT then 18128
  else if k = Ob.FW_IMAGE then 33554424
  else if k = Ob.BOOT_LOG then 4194304
  else if k = Ob.OD_DIRECTORY then 8 * (odRows.map fun r => r.nIdx * r.nSub).sum
  else if Ob.SCL_RECORD / 256 ≤ k / 256 && k / 256 < Ob.SCL_RING / 256 + 512 then 17344
  else (domLimits k).2

/-- RIGHTS and SHARED_B of a directory entry. -/
def OdRow.rights (r : OdRow) (k : Nat) : Nat :=
  match r.right with
  | .fixed m a b kk => b2n m + 2 * b2n a + 4 * b2n b + 8 * b2n kk
  | .sharedB => 7 + 16
  | .part per => if (k / 256 - r.idx) / per = 0 then 7 + 16 else 5
  | .port => if k / 256 = r.idx then 3 else 5
  | .net => 7

/-- A directory entry (Table 16.6). -/
def directoryEntry (k : Nat) : Bytes :=
  match odFind (k / 256) (k % 256) with
  | none => []
  | some r =>
    let acc := match r.acc with | .ro => 0 | .rw => 1 | .wo => 2 | .const => 3
    let size := if r.ty = 7 || r.ty = 8 then longest k else tyBytes r.ty
    leBytes 8 (k / 256 + k % 256 * 2 ^ 16 + r.ty * 2 ^ 24 + acc * 2 ^ 28 + b2n r.store * 2 ^ 31 + r.rights k * 2 ^ 32 +
      size * 2 ^ 37)

/-- OD_DIRECTORY. -/
def directory : Bytes :=
  (sortBy (fun a b => decide (a < b)) (odRows.flatMap OdRow.keys)).flatMap directoryEntry

/-! ### Reading an object (R388, R391) -/

/-- The value of a STR or DOMAIN object for a reader, and a status where its own rule refuses. -/
def State.bytesOf (s : State) (who : Principal) (k : Nat) : Status × Bytes :=
  if k = Ob.DEVICE_NAME then (.ok, ascii "Ramyth RMY20")
  else if k = Ob.ORDER_CODE then (.ok, ascii "RMY20-A")
  else if k = Ob.OD_DIRECTORY then (.ok, directory)
  else if k = Ob.REGION_HOLDERS then (.ok, s.regionHolders who)
  else if k = Ob.ERR_LOG then (.ok, s.errLogBytes)
  else if Ob.REPAIR_MAP ≤ k && k < Ob.REPAIR_MAP + 20 then (.ok, s.repairMap (k - Ob.REPAIR_MAP))
  else if k = Ob.FLOW_PEEK then s.peekFlow who
  else if k = Ob.STREAM_PEEK then s.peekStream who
  else if k = Ob.TABLE_PEEK then s.peekTable who
  else if k = Ob.DICT_LIST then (.ok, s.dictList (s.readerPart who))
  else if k = Ob.LC_NONCE then (.ok, leBytes 16 (Config.lcNonce s.nv.bootCount s.boot.nonce))
  else if k = Ob.OWNER_KEY_HASH then (.ok, s.nv.ownerHash)
  else if k = Ob.DEVICE_KEY_RECORD then (.ok, s.nv.deviceKey)
  else if k = Ob.BOOT_LOG then (.ok, s.nv.logBytes)
  else if k = Ob.FRU_IMAGE || k = Ob.SCL_AUDIT_LOG then (.ok, fitB 2048 (s.dget k))
  else if k = Ob.SCL_KEY_RECORD then (.ok, fitB 7920 Config.scalerKeyRecord)
  else if Ob.SCL_RECORD / 256 ≤ k / 256 && k / 256 < Ob.SCL_RECORD / 256 + 256 then
    (.ok, lookD s.mirror (k / 256 - Ob.SCL_RECORD / 256) (List.replicate 4 0))
  else (.ok, s.dget k)

/-- What a reader with the right on an object reads: status and bytes.  VIN_MV and IIN_MA are measurements of the
moment. -/
def State.objectBytes (s : State) (who : Principal) (k : Nat) : (Status × Bytes) × State :=
  if k % 256 = 0 then ((.ok, leBytes 1 ((odHighest (k / 256)).getD 0)), s)
  else match odFind (k / 256) (k % 256) with
    | none => ((.badDescriptor, []), s)
    | some r =>
      if r.ty = 7 || r.ty = 8 then (s.bytesOf who k, s)
      else if k = Ob.VIN_MV || k = Ob.IIN_MA then
        let f := s.free
        ((.ok, leBytes 4 (f.1 % 2 ^ 32)), f.2)
      else if k = Ob.FLOW_PEEK_SEL || k = Ob.STREAM_PEEK_SEL || k = Ob.TABLE_PEEK_SEL then
        ((.ok, leBytes (tyBytes r.ty) (s.selection k who)), s)
      else ((.ok, leBytes (tyBytes r.ty) ((s.computed k).getD (s.get k))), s)

/-- Bytes that a response on a path can carry beside its header and tag. -/
def roomFor (path : BopPath) (session : Nat) : Nat :=
  (match path with | .m => 1452 | .mbox _ => 4096) - 16 - (if session = 0 then 0 else 16)

/-- READ (R380): an object that does not exist reads as no bytes. -/
def execRead (msg : BopMsg) (s : State) : Host.Outcome State Fault Refusal :=
  .next (s.serve msg (· = 0x10) fun w x t =>
    let k := bopTarget x
    let off := leAt x.payload 4 4
    let len := leAt x.payload 8 2
    let known := if k.2 = 0 then (odHighest k.1).isSome else (odFind k.1 k.2).isSome
    let st := if w.rom then .ok else t.mayRead w.who k.1 k.2
    if !known then t.respond w.reply .ok
    else if st ≠ .ok then t.respond w.reply st
    else
      let r := t.objectBytes w.who (k.1 * 256 + k.2)
      let v := r.1.2
      if r.1.1 ≠ .ok then r.2.respond w.reply r.1.1
      else if 0 < off && v.length ≤ off then r.2.respond w.reply .badDescriptor
      else
        let want := if len = 0 then v.length - off else min len (v.length - off)
        let room := roomFor (msgPath msg) x.session
        r.2.respond w.reply (if room < want then .partialOk else .ok) ((v.drop off).take (min want room)))

/-- OD_READ's own checks (R394 steps 1 and 2, Table 16.4). -/
def State.odReadCheck (s : State) (c : Cmd) : Status :=
  firstFail [
    (c.f 95 88 ≠ 0 || c.f 191 160 ≠ 0 || c.f 511 288 ≠ 0 || 67108864 < c.f 159 128 || c.f 287 256 = 0 ||
      67108864 < c.f 287 256, .badDescriptor),
    (!(s.keyEmpty (4 + c.port) || c.f 79 64 / 0x1000 = 1), .authFail)]

/-- OD_READ (R394, R395). -/
def execOdRead (id : Nat) (s : State) : Host.Outcome State Fault Refusal :=
  .next (match s.control id 0x50 with
    | none => s
    | some c =>
      let who := hostPrincipal c.port
      let idx := c.f 79 64
      let sub := c.f 87 80
      let st := if s.odReadCheck c ≠ .ok then s.odReadCheck c else s.mayRead who idx sub
      if st ≠ .ok then s.finish id st 0
      else
        let r := s.objectBytes who (idx * 256 + sub)
        let v := r.1.2
        let off := c.f 127 96
        let len := c.f 159 128
        if r.1.1 ≠ .ok then r.2.finish id r.1.1 0
        else if 0 < off && v.length ≤ off then r.2.finish id .badDescriptor 0
        else
          let want := if len = 0 then v.length - off else min len (v.length - off)
          let n := min want (c.f 287 256)
          let s := if n = 0 then r.2 else r.2.dmaWrite id c.port (c.f 255 192) ((v.drop off).take n)
          s.finish id (if n < want then .partialOk else .ok) n)

/-! ### Settings with a row of their own -/

/-- What a write of LAT_SHARE does: the value comes into force at the second tick edge (R40). -/
def opLatShare (_ : Writer) (v : Nat) (s : State) : Ans :=
  if 50 < v then (some .badDescriptor, s)
  else (some .ok, { s.put Ob.LAT_SHARE v with ticks := { s.ticks with latShare := s.ticks.latShare ++ [(2, v)] } })

/-- LAT_SHARE. -/
def execLatShare (acc : Access) (s : State) : Host.Outcome State Fault Refusal :=
  .next (s.write acc (isKey Ob.LAT_SHARE) (numOp opLatShare))

/-- LAT_SHARE_APPLY: at the second tick edge after the write. -/
def execLatShareApply (s : State) : Host.Outcome State Fault Refusal :=
  .next (match s.ticks.latShare with
    | (0, v) :: rest => { s with ticks := { s.ticks with share := v, latShare := rest } }
    | _ => s)

/-- What a write of SCRUB_PERIOD_H does (R67, R75); SCRUB_GAP_TICKS follows from it. -/
def opScrubPeriod (_ : Writer) (v : Nat) (s : State) : Ans :=
  if 1 ≤ v && v ≤ 720 then (some .ok, s.put Ob.SCRUB_PERIOD_H v) else (some .badDescriptor, s)

/-- SCRUB_PERIOD_H. -/
def execScrubPeriodH (acc : Access) (s : State) : Host.Outcome State Fault Refusal :=
  .next (s.write acc (isKey Ob.SCRUB_PERIOD_H) (numOp opScrubPeriod))

/-- What a write of TELEMETRY_PERIOD does (R399, R401). -/
def opTelemetry (_ : Writer) (v : Nat) (s : State) : Ans :=
  if v ≠ 0 && !(16 ≤ v && v ≤ 4000000) then (some .badDescriptor, s)
  else if v ≠ 0 && s.get Ob.TIMER_HOLDER = 2 then (some .resourceHeld, s.bump Ob.CLAIMS_REFUSED)
  else
    let held := s.get Ob.TIMER_HOLDER
    let s := s.put Ob.TELEMETRY_PERIOD v
    (some .ok, if v ≠ 0 then (if held = 1 then s else (s.put Ob.TIMER_HOLDER 1).setTimer v)
      else if held = 1 then (s.put Ob.TIMER_HOLDER 0).setTimer 0 else s)

/-- TELEMETRY_PERIOD. -/
def execTelemetryPeriod (acc : Access) (s : State) : Host.Outcome State Fault Refusal :=
  .next (s.write acc (isKey Ob.TELEMETRY_PERIOD) (numOp opTelemetry))

/-- What a write of DEBUG_UART_ENABLE does (R399, R402). -/
def opDebugUart (_ : Writer) (v : Nat) (s : State) : Ans :=
  if 1 < v then (some .badDescriptor, s)
  else if v = 1 && s.get Ob.PIN_HOLDER = 2 then (some .resourceHeld, s.bump Ob.CLAIMS_REFUSED)
  else
    let s := s.put Ob.DEBUG_UART_ENABLE v
    (some .ok, if v = 1 then s.put Ob.PIN_HOLDER 1
      else if s.get Ob.PIN_HOLDER = 1 then s.put Ob.PIN_HOLDER 0 else s)

/-- DEBUG_UART_ENABLE. -/
def execDebugUartEnable (acc : Access) (s : State) : Host.Outcome State Fault Refusal :=
  .next (s.write acc (isKey Ob.DEBUG_UART_ENABLE) (numOp opDebugUart))

/-! ### Plain writes (R381, R392) -/

/-- The principal that writes, numbered as its own copy of a selection. -/
def opSelect (w : Writer) (k v : Nat) (s : State) : Ans :=
  if k = Ob.TABLE_PEEK_SEL && 2 ^ 33 ≤ v then (some .badDescriptor, s)
  else (some .ok, { s with mgmt := { s.mgmt with selected := setAt s.mgmt.selected (peekKey k w.who) v } })

/-- In DEPLOYED the signing policy does not fall, and a slot that holds a hash keeps it (R240). -/
def State.signingLocked (s : State) (k : Nat) (v : Bytes) : Bool :=
  s.nv.lc = 2 && ((k = Ob.IMAGE_SIG_POLICY && leNat v < s.get k) ||
    (Ob.IMAGE_KEY_HASH0 ≤ k && k < Ob.IMAGE_KEY_HASH0 + 4 && !allZero (s.dget k) && s.dget k ≠ v))

/-- A write of a number to an object with no row of its own. -/
def opNumber (w : Writer) (k v : Nat) (s : State) : Ans :=
  if k = Ob.FLOW_PEEK_SEL || k = Ob.STREAM_PEEK_SEL || k = Ob.TABLE_PEEK_SEL then opSelect w k v s
  else if k = Ob.RESET_REQUEST || k = Ob.POWER_MODE then (some .badDescriptor, s)
  else if !valueOk k v then (some .badDescriptor, s)
  else if k = Ob.CLK_FLAG_CLEAR then (some .ok, { s with clk := { s.clk with forced := false } })
  else if k = Ob.BRAKE_DUTY && s.pwr.brakeDuty ≠ 16 then
    (some .ok, (s.put k v).setPower { s.pwr with brakeDuty := v })
  else (some .ok, s.put k v)

/-- What a write of an object with no row of its own does. -/
def opPlain (w : Writer) (v : Bytes) (s : State) : Ans :=
  let k := w.idx * 256 + w.sub
  if k = Ob.FW_IMAGE then opFirmware w v s
  else if s.signingLocked k v then (some .locked, s)
  else if (odFind w.idx w.sub).any fun r => r.ty = 8 then (some .ok, s.dput k v)
  else opNumber w k (leNat v) s

/-- The restore of PORT_ENABLE: the enable itself runs at the end of the boot (R146, R407). -/
def opPortRestore (w : Writer) (v : Nat) (s : State) : Ans :=
  if 1 < v then (some .badDescriptor, s) else (some .ok, s.put (at_ Ob.PORT_ENABLE (netOf w.idx)) v)

/-- The own rule of an object that a block or a stored record can hold (R382, R407). -/
def opObject (w : Writer) (v : Bytes) (s : State) : Ans :=
  let k := w.idx * 256 + w.sub
  if isKeySlot k then opKeySlot w v s
  else if k = Ob.FLOW_OPEN then opFlowOpen w v s
  else if k = Ob.STREAM_OPEN then opStreamOpen w v s
  else if k = Ob.DICT_LOAD then opDictLoad w v s
  else if k = Ob.LC_REQUEST then opTransition w v s
  else if k = Ob.ATTEST_NONCE then opAttestNonce w v s
  else if k = Ob.DEBUG_TOKEN then opDebugToken w v s
  else if k = Ob.LAT_SHARE then numOp opLatShare w v s
  else if k = Ob.SCRUB_PERIOD_H then numOp opScrubPeriod w v s
  else if k = Ob.TELEMETRY_PERIOD then numOp opTelemetry w v s
  else if k = Ob.DEBUG_UART_ENABLE then numOp opDebugUart w v s
  else if k = Ob.NACK_PERIOD then numOp opNackPeriod w v s
  else if k = Ob.ITEM_POOL_P0 || k = Ob.ITEM_POOL_P1 || k = Ob.YARD_ITEM_MIB then numOp opItemPool w v s
  else if k = Ob.MCLK_DIV || k = Ob.PCLK_DIV then numOp opDivider w v s
  else if k = Ob.GATE_RUN || k = Ob.GATE_SLEEP then numOp opGate w v s
  else if k = Ob.PORT_ENABLE || k = at_ Ob.PORT_ENABLE 1 then numOp opPortRestore w v s
  else opPlain w v s

/-- Objects whose writes have a row of their own; the values of RESET_REQUEST and POWER_MODE that name an operation are
theirs too. -/
def ownedKeys : List Nat :=
  [Ob.LAT_SHARE, Ob.APPLY, Ob.PART_RESET, Ob.TELEMETRY_PERIOD, Ob.SCRUB_PERIOD_H, Ob.ITEM_POOL_P0, Ob.ITEM_POOL_P1,
    Ob.YARD_ITEM_MIB, Ob.FLOW_OPEN, Ob.FLOW_CLOSE, Ob.PORT_ENABLE, at_ Ob.PORT_ENABLE 1, Ob.STREAM_OPEN, Ob.STREAM_CLOSE,
    Ob.NACK_PERIOD, Ob.DICT_LOAD, Ob.DICT_UNLOAD, Ob.SET_SEAL, Ob.SET_CLEAR, Ob.LC_REQUEST, Ob.SVN_COMMIT,
    Ob.ATTEST_NONCE, Ob.MCLK_DIV, Ob.PCLK_DIV, Ob.GATE_RUN, Ob.GATE_SLEEP, Ob.BLOCK_RESET, Ob.DEBUG_UART_ENABLE,
    Ob.DEBUG_UNLOCK, Ob.DEBUG_TOKEN]

/-- The object, with the value, has no row of its own. -/
def unowned : Nat × Nat → Bytes → Bool := fun x v =>
  let k := x.1 * 256 + x.2
  !(ownedKeys.contains k || isKeySlot k || (k = Ob.RESET_REQUEST && (leNat v = 1 || leNat v = 2)) ||
    (k = Ob.POWER_MODE && leNat v ≤ 2))

/-- WRITE (R381): a BOP WRITE of an object that has no row of its own. -/
def execWrite (msg : BopMsg) (s : State) : Host.Outcome State Fault Refusal :=
  .next (if (parseBop (s.msgBytes msg)).op = 0x11 then s.write (.bop msg) unowned opPlain else s)

/-- OD_WRITE (R394, R395): a ring's write of an object that has no row of its own. -/
def execOdWrite (id : Nat) (data : Bytes) (s : State) : Host.Outcome State Fault Refusal :=
  .next (s.write (.ring id data) unowned opPlain)

/-- BLOCK_COMMIT (R382): the block is checked and written as one WRITE of its object. -/
def execBlockCommit (msg : BopMsg) (s : State) : Host.Outcome State Fault Refusal :=
  let x := parseBop (s.msgBytes msg)
  .next (
    if x.op ≠ 0x1A then s
    else if (look s.mgmt.blocks (blockHolder (msgPath msg) x.session)).isNone then
      s.serve msg (· = 0x1A) fun w _ t => t.respond w.reply .badDescriptor
    else s.write (.bop msg) (fun _ _ => true) opObject)

end Sys2Proof.Machine
end

