-- ==== Sys2Proof/Machine/Boot.lean ====
section
/-!
DEFINITION. The boot: the strap, the boot ROM's steps, recovery, and the restore of the object dictionary (R21, R31,
R364, R406, R407, R417, R418, R421, R425, R467, R469, R490, R492).
-/
namespace Sys2Proof.Machine

/-! ### The strap (Table 20.7) -/

/-- What a code selects: recovery, PART_SPLIT_PENDING, coordinator, node-ID base. -/
structure Strap where
  recovery : Bool
  split : Nat
  coordinator : Bool
  base : Nat
deriving DecidableEq, Repr

/-- The strap settings of a code; a coordinator has no base. -/
def strapOf (code : Nat) : Strap :=
  if code = 0 then { recovery := true, split := 20, coordinator := false, base := 1 }
  else if code = 1 then { recovery := false, split := 20, coordinator := true, base := 0 }
  else if code ≤ 9 then { recovery := false, split := 20, coordinator := false, base := code - 1 }
  else if code ≤ 13 then { recovery := false, split := 10, coordinator := false, base := code - 9 }
  else if code = 14 then { recovery := false, split := 10, coordinator := true, base := 0 }
  else if code = 15 then { recovery := false, split := 10, coordinator := false, base := 5 }
  else { recovery := true, split := 20, coordinator := false, base := 1 }

/-- The pending division that a split gives (Table 1.6). -/
def State.strapDivision (s : State) (n : Nat) : State :=
  ([(Ob.PART_SPLIT_PENDING, n), (Ob.ME_P0, 8 * n / 20), (Ob.RD_P0, 32 * n / 20), (Ob.PE_P0, 16 * n / 20),
    (Ob.CHIP_D_P0, 8 * n / 20), (Ob.CHIP_C_P0, 4 * n / 20), (Ob.FLOWS_P0, 64 * n / 20), (Ob.LAT_P0, 16 * n / 20),
    (Ob.LBUF_P0, 2048 * n / 20), (Ob.NET_N1, b2n (n < 20))] : List (Nat × Nat)).foldl
      (fun (t : State) e => t.put e.1 e.2) s

/-- The strap's values are applied before the stored ones (R407); the base of a coordinator is left open. -/
def State.applyStrap (s : State) (x : Strap) : State :=
  let s := (s.strapDivision x.split).put Ob.PLCA_ROLE (b2n x.coordinator)
  if x.coordinator then
    let f := s.free
    f.2.put Ob.PLCA_NODE_BASE (f.1 % 256)
  else s.put Ob.PLCA_NODE_BASE x.base

/-- The PLCA objects come into use with the values they hold (R364). -/
def State.startPlca (s : State) : State :=
  let role := s.get Ob.PLCA_ROLE
  let sum := s.get Ob.PLCA_NODE_BASE + s.get Ob.PLCA_NODE_OFFSET
  let id := if role = 1 then 0 else if sum = 0 || 254 < sum then 255 else sum
  let mgmt := { s.mgmt with
    role := role, nodeCount := s.get Ob.PLCA_NODE_COUNT, toTimer := s.get Ob.PLCA_TO_TIMER,
    maxBc := s.get Ob.PLCA_MAX_BC, burstTmr := s.get Ob.PLCA_BURST_TMR }
  ({ s with mgmt := mgmt }).put Ob.PLCA_NODE_ID id

/-! ### The restore (R406, R407) -/

/-- The winning values, in ascending index and subindex, the key slots apart. -/
def Nv.winningValues (n : Nv) : List (Nat × Bytes) :=
  sortBy (fun (a b : Nat × Bytes) => decide (a.1 < b.1))
    ((span 1 10).flatMap fun a => match areaWinner n.records a with
      | some r => if r.kind = 0 then r.entries.filter fun e => areaOf e.1 = a else []
      | none => [])

/-- The write of a winning value: as principal M, under the object's own rules. -/
def restoreWriter (k : Nat) : Writer :=
  { who := .m, port := 0, part := 0, session := 0, slot := none, ks := [], ctr := 0, idx := k / 256, sub := k % 256,
    reply := .nobody, restore := true, rom := false }

/-- A refusal during the restore is counted and logged (R407). -/
def State.refuseRestore (s : State) (k : Nat) (st : Status) : State :=
  (s.bump Ob.RESTORE_REFUSED).bootLog 0x07 st.code (leBytes 2 (k / 256) ++ leBytes 1 (k % 256))

/-- Write one winning value; a refusal leaves the default, is counted, and is logged. -/
def State.restoreOne (s : State) (k : Nat) (v : Bytes) : State :=
  if !((odFind (k / 256) (k % 256)).any (·.store)) then s.bump Ob.RESTORE_REFUSED
  else
    let st := s.writeCheck .m (k / 256) (k % 256) v.length
    let r : Ans := if st = .ok then opObject (restoreWriter k) v s else (some st, s)
    match r.1 with
    | some .ok => r.2
    | none => r.2
    | some st => r.2.refuseRestore k st

/-- Key slots take their winning values directly. -/
def State.restoreKeys (s : State) : State :=
  (span Ob.MGMT_KEY0 6).foldl (fun (t : State) k =>
    match (slotWinner t.nv.records k).bind fun r => look r.entries k with
    | some v => t.dput k v
    | none => t) s

/-- The port enables deferred to the end of the boot (R146, R407): one that is refused leaves PORT_ENABLE at its default, and counts
as a refused value (DESIGN CHOICE, log 50). -/
def State.startPort (s : State) (n : Nat) : State :=
  let k := at_ Ob.PORT_ENABLE n
  if s.get k ≠ 1 then s
  else
    let r := (s.put k 0).restorePort n
    if r.1 = .ok then r.2 else r.2.refuseRestore k r.1

/-- Restore the object dictionary: stored values over the defaults, the pending division active, the item pools claimed,
and the tick period due at the next edge. -/
def State.restore (s : State) : State :=
  let s := (s.put Ob.STORE_INVALID s.nv.invalid).put Ob.RESTORE_REFUSED 0
  let s := s.nv.winningValues.foldl (fun (t : State) e => t.restoreOne e.1 e.2) s.restoreKeys
  let s : State := { s with div := s.pendingDivision, ticks := { s.ticks with periodPending := true } }
  (((s.claimPool 0).claimPool 1).startPlca.startPort 0).startPort 1

/-! ### The boot ROM (Table 17.3) -/

/-- The kernels of a library, by number (R79). -/
def klibOf (lib : Bytes) : List (Nat × Kernel) :=
  let kinds : List Kernel := [.tableWrite, .lookup, .update, .copy, .compress, .decompress, .topk, .argmax, .matchK, .matmul,
    .decode, .operator, .assembly]
  (List.range 65536).filterMap fun n =>
    if Config.kernelCode lib n = 0 then none else (kinds[Config.kernelCode lib n - 1]?).map fun k => (n, k)

/-- Step 3: a stale wipe record erases the user area; SEQ goes on from the highest in any header (R405); the boot entry. -/
def State.bootStart (s : State) : State :=
  let nv := if s.nv.wipeLc ≠ s.nv.lc then s.nv.eraseUser else s.nv
  let nv := { nv with storeSeq := ((nv.store.flatMap (·.recs)).map (·.seq)).foldl max 0, bootCount := satAdd 0xFFFFFFFF nv.bootCount 1 }
  ({ s with nv := nv }).bootLog 0x01 0 []

/-- Partitions that no reset holds leave it with the boot, and the ports stop asking for a retry. -/
def State.freeParts (s : State) : State :=
  ([0, 1].foldl (fun (t : State) p =>
    if t.resets.any fun m => 2 ≤ m.reach || m.part == p then t
    else t.setPart p { t.part p with resetting := false }) s).settleRetry

/-- Recovery (R421): the boot ROM brings up the ports. -/
def State.enterRecovery (s : State) : State :=
  let s := (({ s with boot := { s.boot with mode := .recovery } }).bootLog 0x03 0 []).startPlca
  ({ s with div := s.pendingDivision }).freeParts

/-- Step 6: the measurements, and the firmware and kernel library of the image. -/
def State.loadFirmware (s : State) (img : Bytes) : State :=
  let lib := sliceB img (leAt img 40 4) (leAt img 44 4)
  let boot := { s.boot with
    mode := .running, fwVersion := leAt img 16 4, klibVersion := leAt img 20 4, svn := leAt img 24 1,
    fwHash := sha256 (sliceB img (leAt img 32 4) (leAt img 36 4)), klibHash := sha256 lib, nonce := s.boot.nonce + 1 }
  { s with boot := boot, klib := klibOf lib }

/-- Firmware ends a life-cycle transition (R425 step 5): the new MGMT_KEY0 and its record, and the log entry. -/
def State.endTransition (s : State) : State :=
  let s := match s.boot.newKey with
    | some k => s.storeKey 0 k
    | none => s
  let s := match s.boot.oldLc with
    | some lc => s.bootLog 0x05 0 (leBytes 1 lc ++ leBytes 1 s.nv.lc)
    | none => s
  { s with boot := { s.boot with newKey := none, oldLc := none } }

/-- Firmware configures the J1 pins, which ends the reset gap (R490): each cage's ResetL low and LPMode high. -/
def State.configurePins (s : State) : State := (s.cage 0 true true).cage 1 true true

/-- Firmware starts: the pins before the first restored object value (R407, R425, R467, R490). -/
def State.startFirmware (s : State) : State :=
  (((s.configurePins.restore.endTransition).logCauses fun _ => true).freeParts)

/-- BOOT (R417): the steps of Table 17.3 in order. -/
def execBoot (s : State) : Host.Outcome State Fault Refusal :=
  .next (
    if !s.boot.released || s.boot.mode ≠ .off then s
    else
      let x := strapOf (s.get Ob.CFG_CODE)
      if s.nv.lc = 4 then ({ s with boot := { s.boot with mode := .stopped } }.applyStrap x).startPlca
      else
      let s := s.bootStart.applyStrap x
      if x.recovery then s.enterRecovery
      else if !s.nv.committed then
        let f := s.free
        (f.2.bootLog 0x02 (f.1 % 256) (leBytes 1 5)).enterRecovery
      else
        let img := s.nv.image
        let st := s.nv.checkImage img
        if st ≠ .ok then (s.bootLog 0x02 st.code (leBytes 1 5)).enterRecovery
        else (s.loadFirmware img).startFirmware)

end Sys2Proof.Machine
end

