-- ==== Sys2Proof/Machine/Scaler.lean ====
section
/-!
DEFINITION. The scaler: metering, interval records, the audit log, the service port, and the work and record links
(R435–R452).
-/
namespace Sys2Proof.Machine

/-- The state with the scaler changed. -/
def State.setScl (s : State) (x : Scaler) : State := { s with scl := x }

/-! ### Measurement (R437–R439) -/

/-- E_TOTAL: whole millijoules of the accumulator (R437). -/
def Scaler.eTotal (x : Scaler) : Nat := x.acc / 65536

/-- CAL_ID: CRC-32C of the calibration (R439). -/
def Scaler.calId (x : Scaler) : Nat := crc32c x.cal

/-- A signed 32-bit field of a byte string. -/
def i32At (b : Bytes) (off : Nat) : Int :=
  let v := leAt b off 4
  if v < 2 ^ 31 then v else (v : Int) - 2 ^ 32

/-- Calibrated voltage in µV and current in µA of a raw sample (R439). -/
def Scaler.calibrate (x : Scaler) (rawV rawI degC : Int) : Fr × Fr :=
  let v := ((fpVal fp32 (leAt x.cal 0 4)).mul (Fr.ofInt rawV)).add (Fr.ofInt (i32At x.cal 4))
  let i0 := ((fpVal fp32 (leAt x.cal 8 4)).mul (Fr.ofInt rawI)).add (Fr.ofInt (i32At x.cal 12))
  let t := (Fr.ofInt 1).sub (((fpVal fp32 (leAt x.cal 16 4)).mul (Fr.ofInt (degC - 25))).mul ⟨1, 1000000⟩)
  (v, i0.mul t)

/-- Full scale of the channels in µV and µA (R437). -/
def fullV : Fr := Fr.ofInt 48000000
def fullI : Fr := Fr.ofInt 62500000

/-- A whole number of thousandths, 0 below 0. -/
def milli (x : Fr) : Nat := ((x.mul ⟨1, 1000⟩).floor).toNat

/-- Close the running interval at a time and energy, build its record and begin the next one (R440, R443). -/
def Scaler.body (x : Scaler) (endS : Nat) (flags : Nat) : Bytes :=
  let v := x.interval
  let is := 60 * x.intervalMin
  let short := b2n (endS - v.startS < is || bitOf flags 0)
  let noWork := b2n (v.frames = 0)
  leBytes 4 0x43455253 ++ leBytes 2 1 ++
    leBytes 2 (setBit (setBit flags 0 (short = 1)) 8 (noWork = 1)) ++ leBytes 4 x.recNo ++ leBytes 4 x.audit ++
    leBytes 2 is ++ leBytes 2 Config.scalerSwVersion ++ leBytes 4 x.calId ++ leBytes 8 v.startS ++ leBytes 8 endS ++
    leBytes 8 (x.eTotal - v.eOpen) ++ leBytes 8 x.eTotal ++ leBytes 4 (v.vMin.getD 0) ++ leBytes 4 v.vMax ++
    leBytes 4 v.iMax ++ leBytes 4 v.frames ++ leBytes 6 (if v.frames = 0 then 0 else v.tickEnd) ++ leBytes 2 0 ++
    leBytes 4 v.mainBoot ++ List.replicate 44 0 ++ (v.work.flatMap (leBytes 8))

/-- The signature of a record body (R444). -/
def recordSig (body : Bytes) : Bytes := fitB 17088 (Config.scalerSign (sha256 body))

/-- Close the running interval with added flags; the next begins with flags of its own. -/
def Scaler.close (x : Scaler) (endS add nextFlags : Nat) : Scaler :=
  let body := x.body endS (x.interval.flags ||| add)
  { x with
    signed := x.signed ++ [(x.recNo, body ++ recordSig body)], recNo := x.recNo + 1, due := false,
    interval := { Interval.start x.scalerS x.eTotal nextFlags with mainBoot := x.interval.mainBoot } }

/-- An interval whose end has been reached closes before anything of the next one. -/
def Scaler.closeDue (x : Scaler) : Scaler := if x.due then x.close x.scalerS 0 0 else x

/-- SAMPLE (R437–R440): the energy of one sample, the interval's extremes and flags, and the second count. -/
def execSample (rawV rawI degC : Int) (s : State) : Host.Outcome State Fault Refusal :=
  .next (
    if !s.scl.powered then s
    else
      let x := s.scl.closeDue
      let c := x.calibrate rawV rawI degC
      let ovr := fullV.le c.1 || fullI.le c.2
      let v := if fullV.le c.1 then fullV else c.1
      let i := if fullI.le c.2 then fullI else c.2
      let p := v.mul i
      let rev := p.n < 0
      -- µV × µA × 250 µs in units of 2^−16 mJ
      let e := if rev then 0 else ((p.mul ⟨16384, 1000000000000⟩).floor).toNat
      let n := x.interval
      let under := i.lt (Fr.ofInt 5000000)
      let flags := n.flags ||| b2n x.sealOpen * 8 ||| b2n ovr * 16 ||| b2n under * 32 ||| b2n rev * 64
      let mv := milli v
      let ma := milli i
      let n := { n with
        flags := flags, vMin := some (min mv (n.vMin.getD mv)), vMax := max mv n.vMax, iMax := max ma n.iMax }
      let whole := x.sub + 1 = 4000
      let sec := if whole then x.scalerS + 1 else x.scalerS
      let x := { x with
        acc := (x.acc + e) % 2 ^ 64, overNow := ovr, interval := n, scalerS := sec,
        sub := if whole then 0 else x.sub + 1,
        vSum := if whole then 0 else x.vSum + mv, iSum := if whole then 0 else x.iSum + ma,
        vNow := if whole then (x.vSum + mv) / 4000 else x.vNow,
        iNow := if whole then (x.iSum + ma) / 4000 else x.iNow,
        due := whole && sec % (60 * x.intervalMin) = 0 }
      s.setScl x)

/-- INTERVAL_CLOSE (R440). -/
def execIntervalClose (s : State) : Host.Outcome State Fault Refusal :=
  .next (if s.scl.powered then s.setScl s.scl.closeDue else s)

/-! ### Frames of the scaler's links (R441, R442, R452) -/

/-- A link frame: a kind byte, its content and a CRC-32C. -/
def linkFrame (kind : Nat) (b : Bytes) : Bytes :=
  let x := leBytes 1 kind ++ b
  x ++ leBytes 4 (crc32c x)

/-- A frame whose CRC checks: its kind and content. -/
def readLink (f : Bytes) : Option (Nat × Bytes) :=
  if f.length < 5 then none
  else
    let x := f.take (f.length - 4)
    if leAt f (f.length - 4) 4 = crc32c x then some (leAt x 0 1, x.drop 1) else none

/-- SCL_STATUS bits the scaler itself knows. -/
def Scaler.statusBits (x : Scaler) : Nat := b2n x.sealOpen + 2 * b2n x.powered + 4 * b2n x.overNow

/-- The content of a status frame: the live objects of Table 18.5. -/
def Scaler.statusContent (x : Scaler) : Bytes :=
  leBytes 4 x.statusBits ++ leBytes 4 x.audit ++ leBytes 1 x.intervalMin ++ x.cal ++ leBytes 4 x.calId ++
    leBytes 8 x.eTotal ++ leBytes 4 x.vNow ++ leBytes 4 x.iNow ++ leBytes 8 x.scalerS

/-- Send record frames of the given record numbers that the ring holds. -/
def State.sendRecords (s : State) (ns : List Nat) : State :=
  ns.foldl (fun t n => match look t.scl.ring (n % 65536) with
    | some r => if r.1 = n then t.emit (.scalerFrame (linkFrame 2 r.2)) else t
    | none => t) s

/-- STATUS_FRAME (R452): once a second the live objects, and the records due to be sent again. -/
def execStatusFrame (s : State) : Host.Outcome State Fault Refusal :=
  let x := s.scl
  .next (if x.powered && x.lastStatus < x.scalerS then
    let now := x.resends.filter fun r => r.2 ≤ x.scalerS
    let s := s.setScl { x with lastStatus := x.scalerS, resends := x.resends.filter fun r => x.scalerS < r.2 }
    (s.emit (.scalerFrame (linkFrame 1 x.statusContent))).sendRecords (now.map (·.1))
  else s)

/-- RECORD_COMMIT (R445, R452): the oldest signed record goes to its slot, and its first frame leaves. -/
def execRecordCommit (s : State) : Host.Outcome State Fault Refusal :=
  .next (match s.scl.signed with
    | [] => s
    | (n, b) :: rest =>
      if !s.scl.powered then s
      else
        let x := s.scl
        (s.setScl { x with
          signed := rest, ring := setAt x.ring (n % 65536) (n, b),
          resends := x.resends ++ [(n, x.scalerS + 1), (n, x.scalerS + 10)] }).sendRecords [n])

/-- The checkpoint of the running scaler (R446). -/
def Scaler.snap (x : Scaler) (final : Bool) : Checkpoint :=
  { acc := x.acc, scalerS := x.scalerS, recNo := x.recNo, interval := x.interval, final := final }

/-- CHECKPOINT (R446): every 10 s. -/
def execCheckpoint (s : State) : Host.Outcome State Fault Refusal :=
  let x := s.scl
  .next (if x.powered && x.lastCheckpoint + 10 ≤ x.scalerS then
    s.setScl { x with checkpoint := some (x.snap false), lastCheckpoint := x.scalerS } else s)

/-- FINAL_CHECKPOINT (R446): the input fell below 27 V; sampling stops. -/
def execFinalCheckpoint (s : State) : Host.Outcome State Fault Refusal :=
  let x := s.scl
  .next (if x.powered then s.setScl { x with checkpoint := some (x.snap true), powered := false } else s)

/-- SCALER_POWER_UP (R446). -/
def execScalerPowerUp (s : State) : Host.Outcome State Fault Refusal :=
  let x := s.scl
  .next (
    if x.powered then s
    else
      let x := { x with powered := true, sub := 0, vSum := 0, iSum := 0, signed := [], resends := [], due := false,
                        lastFrame := none, overNow := false }
      match x.checkpoint with
      | none => s.setScl { x with interval := Interval.start x.scalerS x.eTotal 2 }
      | some c =>
        let x := { x with acc := c.acc, scalerS := c.scalerS, recNo := c.recNo, interval := c.interval,
                          lastCheckpoint := c.scalerS, lastStatus := c.scalerS }
        s.setScl (x.close c.scalerS 1 (3 + (if c.final then 0 else 4))))

/-! ### Work counts (R441, R442) -/

/-- WORK_FRAME_SEND (R441): every 4,000 ticks.  The cycle counts of slot 0, which ticks do not give, are free values. -/
def execWorkFrameSend (s : State) : Host.Outcome State Fault Refusal :=
  .next (
    if s.boot.mode ≠ .running || s.clk.asleep || s.since s.workAt < 4000 then s
    else
      let counts := (List.range 16).map fun i =>
        if s.div.stands (i / 8) = 0 then 0
        else if [0, 1, 5, 6].contains (i % 8) then Config.free (s.fresh + i) % 2 ^ 64 else lookD s.work i 0
      let b := leBytes 2 s.workSeq ++ leBytes 4 s.nv.bootCount ++ leBytes 6 s.now ++ counts.flatMap (leBytes 8)
      ({ s with work := [], workSeq := (s.workSeq + 1) % 65536, workAt := s.now, fresh := s.fresh + 16 }).emit
        (.scalerFrame (b ++ leBytes 4 (crc32c b))))

/-- The newest records of the ring, oldest of them first: at most 256 numbers below the next one. -/
def Scaler.newest (x : Scaler) : List Nat := span (x.recNo - min 256 x.recNo) (min 256 x.recNo)

/-- WORK_FRAME (R442, R452): a frame reaches the scaler.  One that arrives after the sample that ends an interval and before
the next sample still belongs to that interval, unless INTERVAL_CLOSE has closed it. -/
def execWorkFrame (frame : Bytes) (s : State) : Host.Outcome State Fault Refusal :=
  .next (
    if !s.scl.powered then s
    else
      let x := s.scl
      let gap (y : Scaler) : Scaler := { y with interval := { y.interval with flags := y.interval.flags ||| 128 } }
      if frame.length ≠ 144 || leAt frame 140 4 ≠ crc32c (frame.take 140) then s.setScl (gap x)
      else
        let seq := leAt frame 0 2
        let boot := leAt frame 2 4
        let isNew := match x.lastFrame with | some (b, _) => b != boot | none => true
        let skip := match x.lastFrame with
          | some (b, q) => b == boot && seq != (q + 1) % 65536
          | none => false
        let x := if skip then gap x else x
        let n := x.interval
        let n := { n with
          frames := n.frames + 1, tickEnd := leAt frame 6 6, mainBoot := boot,
          work := (n.work.zipIdx).map fun w => (w.1 + leAt frame (12 + 8 * w.2) 8) % 2 ^ 64 }
        let s := s.setScl { x with interval := n, lastFrame := some (boot, seq) }
        if isNew then
          let s := s.sendRecords x.newest
          ((x.auditLog.take 64).reverse).foldl (fun t e => t.emit (.scalerFrame (linkFrame 3 e))) s
        else s)

/-! ### Seal, audit and the service port (R447–R450) -/

/-- Write an audit entry (R449) and send it (R452). -/
def State.audit (s : State) (kind old new : Nat) : State :=
  let x := s.scl
  let e := leBytes 4 x.audit ++ leBytes 1 kind ++ leBytes 3 0 ++ leBytes 8 x.scalerS ++ leBytes 4 old ++
    leBytes 4 new ++ leBytes 4 0 ++ leBytes 4 0x59414B4F
  (s.setScl { x with auditLog := (e :: x.auditLog).take 4096 }).emit (.scalerFrame (linkFrame 3 e))

/-- SEAL_CHANGE (R447): the debounced level has changed. -/
def execSealChange (s : State) : Host.Outcome State Fault Refusal :=
  .next (if s.scl.powered then
    (s.setScl { s.scl with sealOpen := !s.scl.sealOpen }).audit (if s.scl.sealOpen then 2 else 1) 0 0
  else s)

/-- A change of a legally relevant quantity, at one sample (R448). -/
def State.sealedChange (s : State) (kind old new : Nat) (apply : Scaler → Scaler) : State :=
  let x := s.scl.closeDue
  let x := x.close x.scalerS 1 0
  let x := { x with audit := satAdd 0xFFFFFFFF x.audit 1 }
  let s := (s.setScl x).audit kind old new
  let x := apply s.scl
  s.setScl x

/-- The gain fields of a calibration are finite and its RSVD bytes zero (Table 18.5). -/
def calOk (b : Bytes) : Bool :=
  !fpSpecial fp32 (leAt b 0 4) && !fpSpecial fp32 (leAt b 8 4) && allZero (sliceB b 20 12)

/-- SERVICE_WRITE (R448, R450): a WRITE of principal K. -/
def execServiceWrite (index sub : Nat) (value : Bytes) (s : State) : Host.Outcome State Fault Refusal :=
  let k := index * 256 + sub
  let x := s.scl
  let st := firstFail [
    ((odFind index sub).isNone, .badDescriptor),
    (k ≠ Ob.SCL_INTERVAL_MIN && k ≠ Ob.SCL_CAL, .notPermitted),
    (value.length ≠ (if k = Ob.SCL_CAL then 32 else 1), .badDescriptor),
    (!x.sealOpen, .locked),
    (k = Ob.SCL_INTERVAL_MIN && !(1 ≤ leNat value && leNat value ≤ 60), .badDescriptor),
    (k = Ob.SCL_CAL && !calOk value, .badDescriptor)]
  .next (
    if !x.powered then s
    else
      let s' :=
        if st ≠ .ok then s
        else if k = Ob.SCL_INTERVAL_MIN then
          if leNat value = x.intervalMin then s
          else s.sealedChange 3 x.intervalMin (leNat value) fun y => { y with intervalMin := leNat value }
        else if value = x.cal then s
        else s.sealedChange 4 x.calId (crc32c value) fun y => { y with cal := value }
      s'.emit (.serviceAnswer st.code []))

/-- A record slot as SCL_RING reads it. -/
def Scaler.slot (x : Scaler) (n : Nat) : Bytes :=
  match look x.ring n with | some r => r.2 | none => List.replicate 4 0

/-- The newest record whose REC_NO mod 256 is `i` (R451). -/
def Scaler.recent (x : Scaler) (i : Nat) : Bytes :=
  match (x.newest.reverse).find? fun n => n % 256 = i && ((look x.ring (n % 65536)).any (·.1 == n)) with
  | some n => x.slot (n % 65536)
  | none => List.replicate 4 0

/-- The value of one of the scaler's own objects (R450); none where K holds no right on it. -/
def Scaler.value (x : Scaler) (index sub : Nat) : Option Bytes :=
  let k := index * 256 + sub
  if k = Ob.SCL_STATUS then some (leBytes 4 x.statusBits)
  else if k = Ob.SCL_SW_VERSION then some (leBytes 2 Config.scalerSwVersion)
  else if k = Ob.SCL_KEY_RECORD then some (fitB 7920 Config.scalerKeyRecord)
  else if k = Ob.SCL_AUDIT then some (leBytes 4 x.audit)
  else if k = Ob.SCL_INTERVAL_MIN then some (leBytes 1 x.intervalMin)
  else if k = Ob.SCL_CAL then some x.cal
  else if k = Ob.SCL_CAL_ID then some (leBytes 4 x.calId)
  else if k = Ob.SCL_E_TOTAL then some (leBytes 8 x.eTotal)
  else if k = Ob.SCL_V_NOW then some (leBytes 4 x.vNow)
  else if k = Ob.SCL_I_NOW then some (leBytes 4 x.iNow)
  else if k = Ob.SCL_TIME then some (leBytes 8 x.scalerS)
  else if sub = 0 && (odRows.any fun r => r.idx ≤ index && index < r.idx + r.nIdx && r.ownedByK) then
    some (leBytes 1 ((odHighest index).getD 0))
  else if k = Ob.SCL_REC_NEWEST then
    some (leBytes 4 (((x.newest.reverse).find? fun n => (look x.ring (n % 65536)).any (·.1 == n)).getD 0xFFFFFFFF))
  else if k = Ob.SCL_AUDIT_LOG then some (fitB 2048 (x.auditLog.take 64).flatten)
  else if Ob.SCL_RECORD / 256 ≤ index && index < Ob.SCL_RECORD / 256 + 256 && sub = 1 then
    some (x.recent (index - Ob.SCL_RECORD / 256))
  else if Ob.SCL_RING / 256 ≤ index && index < Ob.SCL_RING / 256 + 512 && 1 ≤ sub && sub ≤ 128 then
    some (x.slot ((index - Ob.SCL_RING / 256) * 128 + (sub - 1)))
  else none

/-- SERVICE_READ (R380, R450): LENGTH 0 reads to the end of the object. -/
def execServiceRead (index sub off len : Nat) (s : State) : Host.Outcome State Fault Refusal :=
  .next (
    if !s.scl.powered then s
    else match s.scl.value index sub with
      | none => s.emit (.serviceAnswer
          (if (odFind index sub).isNone then Status.badDescriptor.code else Status.notPermitted.code) [])
      | some v =>
        if 0 < off && v.length ≤ off then s.emit (.serviceAnswer Status.badDescriptor.code [])
        else s.emit (.serviceAnswer Status.ok.code (if len = 0 then v.drop off else (v.drop off).take len)))

/-! ### The mirror (R451, R452) -/

/-- Take a status frame's live objects into the mirror; a seal change or a new audit count sends the SCALER event. -/
def State.mirrorStatus (s : State) (b : Bytes) : State :=
  let old := (s.get Ob.SCL_STATUS % 2, s.get Ob.SCL_AUDIT)
  let s' := ((((((((s.put Ob.SCL_STATUS (leAt b 0 4)).put Ob.SCL_AUDIT (leAt b 4 4)).put Ob.SCL_INTERVAL_MIN
    (leAt b 8 1)).dput Ob.SCL_CAL (sliceB b 9 32)).put Ob.SCL_CAL_ID (leAt b 41 4)).put Ob.SCL_E_TOTAL
    (leAt b 45 8)).put Ob.SCL_V_NOW (leAt b 53 4)).put Ob.SCL_I_NOW (leAt b 57 4)).put Ob.SCL_TIME (leAt b 61 8)
  let s' := { s' with statusAt := some s.now }
  if old ≠ (leAt b 0 4 % 2, leAt b 4 4) then s'.occur 10 0xFF 0 else s'

/-- RECORD_LINK_FRAME (R452): a frame with a failing CRC is discarded. -/
def execRecordLinkFrame (frame : Bytes) (s : State) : Host.Outcome State Fault Refusal :=
  .next (
    if s.boot.mode ≠ .running then s
    else match readLink frame with
      | none => s
      | some (1, b) => if b.length = 69 then s.mirrorStatus b else s
      | some (2, b) =>
        if b.length ≠ 17344 then s
        else
          let n := leAt b 8 4
          let newest := s.get Ob.SCL_REC_NEWEST
          ({ s with mirror := setAt s.mirror (n % 256) b }).put Ob.SCL_REC_NEWEST
            (if newest = 0xFFFFFFFF then n else max n newest)
      | some (3, b) =>
        if b.length ≠ 32 then s
        else s.dput Ob.SCL_AUDIT_LOG (fitB 2048 (b ++ s.dget Ob.SCL_AUDIT_LOG))
      | some _ => s)

end Sys2Proof.Machine
end

