-- ==== Sys2Proof/Machine/Tick.lean ====
section
/-!
DEFINITION. The tick edge and what happens at it, the deadline edge of LAT requests, and failed DMA reads
(R31, R33–R37, R46–R52, R130, R191, R244, R352, R484).
-/
namespace Sys2Proof.Machine

/-! ### The tick edge -/

/-- The counter steps on, and TICK_WRAPS counts its wrap (R33). -/
def State.stepCounter (s : State) : State :=
  let n := (s.now + 1) % 2 ^ 48
  let s : State := { s with ticks := { s.ticks with count := n } }
  if n = 0 then s.bump Ob.TICK_WRAPS else s

/-- The look-up bound's per-tick counts are judged and begin again (R49, R50, Table 2.4). -/
def State.rollLookups (s : State) : State :=
  let s := if s.latArrivalLimit < s.ticks.latArrivals then (s.bump Ob.OVERLOAD_TICKS).noteBreak 0 0 else s
  let s := s.ticks.latAccesses.foldl (fun (t : State) e =>
    if t.latAccessLimit < e.2 then (t.bump Ob.VAULT_OVER_TICKS).noteBreak 1 e.1 else t) s
  { s with ticks := { s.ticks with latArrivals := 0, latAccesses := [], latRows := [] } }

/-- The restored TICK_PERIOD comes into use at the first edge after the restore; commands are admitted from then on, once
the wipe has ended (R31, R417). -/
def State.stepPeriod (s : State) : State :=
  let s := if s.ticks.periodPending then
      { s.put Ob.TICK_PERIOD_ACTIVE (s.get Ob.TICK_PERIOD) with ticks := { s.ticks with periodPending := false } }
    else s
  if s.boot.mode == .running && s.wipes.isEmpty then { s with ticks := { s.ticks with admitting := true } } else s

/-- A written LAT_SHARE and written dividers come one edge nearer; BOP_UDP_PORT and SESSION_IDLE are in use as they stand (R40,
R387, R456). -/
def State.stepDelays (s : State) : State :=
  let use := (s.clk.divs.filter (·.2.2 ≤ 1)).getLast?.getD (s.clk.mclk, s.clk.pclk, 0)
  { s with
    ticks := { s.ticks with latShare := s.ticks.latShare.map fun x => (x.1 - 1, x.2) }
    mgmt := { s.mgmt with idle := s.get Ob.SESSION_IDLE, udpPort := s.get Ob.BOP_UDP_PORT }
    clk := { s.clk with
      mclk := use.1, pclk := use.2.1
      divs := (s.clk.divs.filter (1 < ·.2.2)).map fun x => (x.1, x.2.1, x.2.2 - 1) } }

/-- Units to be ungated go on at the edge (R463). -/
def State.stepGates (s : State) : State :=
  let on (u : Nat) : Bool := s.clk.ungating.contains u
  { s with
    clk := { s.clk with gated := s.clk.gated.filter fun u => !on u, ungating := [] }
    down := s.down.filter fun u => !on u || s.blockResets.any (·.unit == u) }

/-- Every bolt that runs stops with its continuation state kept; cores take waiting LAT items, in ascending core number, and change
their work; and each decompression lane's turn is noted (R36, R87, R88, R352). -/
def State.stepUnits (s : State) : State :=
  let heads := (List.range 8).filterMap fun l => (s.engine .chipD l).head?.map fun x => (l, x)
  let s := s.stopBolts
  let s := (s.cores.map (·.1)).foldl (fun (t : State) c => t.edgeTake c) s
  { s with cores := s.cores.map fun e => (e.1, s.edgeSlots e.2), laneHeads := heads }

/-- The event of the interval timer, at the edge that ends a period of its holder (R161, R401). -/
def State.stepTimer (s : State) : State :=
  match s.ticks.timerNext with
  | none => s
  | some t =>
    let period := if s.get Ob.TIMER_HOLDER = 1 then s.get Ob.TELEMETRY_PERIOD else s.get Ob.NACK_PERIOD
    if s.since t < 2 ^ 47 then
      { s with ticks := { s.ticks with timerNext := some ((t + max 1 period) % 2 ^ 48), timerDue := true } }
    else s

/-- BATCH_LOW (R191): an armed alarm fires while the feeder has positions left. -/
def State.stepEpochs (s : State) (p : Nat) : State :=
  (s.part p).epochs.foldl (fun (t : State) e =>
    if e.2.armed && e.2.prepared.length < e.2.lowWater && e.2.nextFeed < e.2.n && !e.2.ending then
      let t := (t.setEpoch p e.1 { e.2 with armed := false }).bump (epochKey Ob.BATCH_LOW_COUNT p e.1)
      (t.partEvent p evBatchLow).occur (12 + p) p 0
    else t) s

/-- Ticks that counters count: enqueue waits, fetching stopped at 4,096 outstanding, and throttling (Tables 4.8, 5.13,
R484). -/
def State.stepCounts (s : State) : State :=
  let s := [0, 1].foldl (fun (t : State) p =>
    let n := (t.part p).stalled.length + (t.part p).waits.length + (t.part p).blocked.length
    if n = 0 then t else t.bump (at_ Ob.ENQUEUE_STALL_TICKS p) n) s
  let s := [0, 1].foldl (fun (t : State) q =>
    if 4096 ≤ t.outstanding q && (t.port q).cmdRings.any (·.2.fetchable) then t.bump (at_ Ob.FETCH_STALLS q) else t) s
  if s.duty < 16 then ((s.bump Ob.THROTTLE_TICKS).portEvent 0 evThrottle).portEvent 1 evThrottle else s

/-- Every SCRUB_GAP_TICKS ticks each vault owes one more scrub access, up to 65,535 (R67).  DESIGN CHOICE (log 174): SCRUB_LAG_MAX
is the highest lag that any vault has had, and does not fall with it. -/
def State.stepScrub (s : State) : State :=
  if s.now % s.scrubGap ≠ 0 then s
  else
    let owe (x : Vault) : Vault := { x with lag := min 65535 (x.lag + 1) }
    let vs := (List.range 1280).map fun v => (v, owe (s.vault v))
    let top := vs.foldl (fun (m : Nat) e => max m e.2.lag) (s.get Ob.SCRUB_LAG_MAX)
    { s with vaults := vs }.put Ob.SCRUB_LAG_MAX top

/-- TICK_EDGE (R33). -/
def execTickEdge (s : State) : Host.Outcome State Fault Refusal :=
  .next (
    if !s.clocked then s
    else
      let s := s.rollLookups.stepCounter.stepPeriod.stepDelays.stepGates.stepMaint.stepRetrains.stepTimer.stepUnits
      let s := (s.setNet 0 { s.net 0 with errorSent := [] }).setNet 1 { s.net 1 with errorSent := [] }
      ((s.stepEpochs 0).stepEpochs 1).stepCounts.stepScrub)

/-! ### The deadline edge (R46–R51) -/

/-- Events of a kind on a unit in the window of R49 of a request that arrived in tick `ta`. -/
def State.breaksIn (s : State) (ta kind : Nat) (unit : Nat → Bool) : Nat :=
  (s.ticks.breaks.filter fun b => b.1 == kind && unit b.2.1 && decide (s.since b.2.2 ≤ s.since ta + 1)).length

/-- Every condition of R49 held for a request of a partition that touched these stands; `port` is a host port, or 2 + 4 ×
net + sub-port.  DESIGN CHOICE (log 175): RUN mode, condition 7, is judged when the DEADLINE row acts. -/
def State.boundHeld (s : State) (p ta port : Nat) (stands : List Nat) : Bool :=
  let all (kind : Nat) : Nat := s.breaksIn ta kind fun _ => true
  25 ≤ s.ticks.share && all 0 = 0 && all 1 = 0 &&
    stands.all (fun n => s.breaksIn ta 2 (· == n) ≤ 1 && s.breaksIn ta 4 (· == n) = 0 && s.breaksIn ta 7 (· == n) = 0) &&
    (if port < 2 then s.breaksIn ta 3 (· == port) ≤ 1 && s.breaksIn ta 5 (· == port) = 0
     else s.breaksIn ta 8 (· == port - 2) = 0) &&
    s.breaksIn ta 6 (· == p) = 0 && !(s.blockResets.any fun b => s.div.holds p b.unit) && s.get Ob.POWER_MODE = 0

/-- The completion of a command is held: it has not left. -/
def State.relabel (s : State) (c : Cmd) : State :=
  let late (k : Cpl) : Cpl := if k.id = c.id && k.status.good then { k with status := .deadline } else k
  let x := s.port c.port
  let cpls := x.cplRings.map fun (r : Nat × CplRing) => (r.1, { r.2 with held := r.2.held.map late })
  let wait := x.waiting.map fun (e : Nat × Cpl) => (e.1, late e.2)
  s.setPort c.port { x with cplRings := cpls, waiting := wait }

/-- Count a request whose completion was ready before its deadline edge and has not left. -/
def State.countLate (s : State) (p : Nat) (inBound : Bool) : State :=
  let s := s.bump (if p = 0 then Ob.DEADLINE_P0 else Ob.DEADLINE_P1)
  if inBound then s.bump (if p = 0 then Ob.DEADLINE_IN_BOUND_P0 else Ob.DEADLINE_IN_BOUND_P1) else s

/-- Mark one host request late. -/
def State.markCmd (s : State) (c : Cmd) : State :=
  let ids := words 8 (min 32 (c.f 287 256)) c.extBytes
  let held := s.boundHeld c.part c.tick c.port (s.touched c.part (c.f 95 64) ids)
  let c' := { c with late := true, inBound := held }
  if c.stage = .held then ((s.setCmd c').relabel c').countLate c.part held else s.setCmd c'

/-- Mark one request that arrived over RLT late. -/
def State.markReq (s : State) (i : Nat) (r : RltReq) : State :=
  let p := s.div.netPart r.net
  let held := s.boundHeld p r.tick (2 + 4 * r.net + r.sub) (s.touched p r.table r.ids)
  { s with rltReqs := setAt s.rltReqs i { r with late := true, inBound := held } }

/-- DEADLINE (R51): every LAT request at its deadline whose response has not left is marked late. -/
def execDeadline (s : State) : Host.Outcome State Fault Refusal :=
  let due (t : Nat) : Bool := s.latBound ≤ s.since t
  .next (
    let s := (s.cmds.filter fun c => c.opcode == 0x28 && !c.late && s.cmdLat c && due c.tick).foldl
      (fun (t : State) c => t.markCmd c) s
    (s.rltReqs.filter fun r => !r.2.late && due r.2.tick).foldl (fun (t : State) r => t.markReq r.1 r.2) s)

/-! ### A DMA read that fails (R130) -/

/-- The host ranges that a command reads: base and bytes. -/
def State.readRanges (s : State) (c : Cmd) : List (Nat × Nat) :=
  if c.opcode = 0x29 || c.opcode = 0x21 then
    match s.anyTable c.part (c.f 95 64) with
    | some t => [(c.f 191 128, c.f 223 192 * (if c.opcode = 0x29 then gradBytes (c.f 99 96) t.dim else
        rowBytes (c.f 107 104) t.dim))]
    | none => []
  else (c.hostRanges.filter fun r => !r.1).map (·.2)

/-- The records of an UPDATE or TABLE_WRITE_ROWS that lie below the failing address take effect; the rest are not read
(R297, R320). -/
def State.routeRead (s : State) (c : Cmd) (addr : Nat) : State :=
  match s.anyTable c.part (c.f 95 64) with
  | none => s
  | some t =>
    if !s.routesNext c then s
    else
      let size := if c.opcode = 0x29 then gradBytes (c.f 99 96) t.dim else rowBytes (c.f 107 104) t.dim
      let n := min (c.f 223 192) ((addr - c.f 191 128) / size)
      let op : LaneOp := if c.opcode = 0x29 then .update else .write (if c.f 98 97 = 3 then t.firstGrade else c.f 98 97)
      let c := { c with status := .linkRetryExhausted }
      if n = 0 then (s.setCmd c).workDone c .linkRetryExhausted 0
      else s.routeSome c t op size n (c.hostBytes [] (n * size))

/-- What a failed read does to the command that made it. -/
def State.readFails (s : State) (c : Cmd) (addr : Nat) : State :=
  match c.opcode with
  | 0x10 => s.finish c.id (if s.loadEarly c = .ok then .linkRetryExhausted else s.loadEarly c) 0xFFFF
  | 0x30 => s.copyWork c [] (some addr)
  | 0x35 => (s.undefinedOut c (c.f 99 99 = 1) (c.f 319 256) (c.f 351 320)).workDone c .linkRetryExhausted 0
  | 0x21 => s.routeRead c addr
  | 0x29 => s.routeRead c addr
  | 0x51 => s.finish c.id .linkRetryExhausted 0
  | _ => s.workDone c .linkRetryExhausted 0

/-- DMA_READ_FAILED (R130): the port records and reports the fault, and the command ends with LINK_RETRY_EXHAUSTED. -/
def execDmaReadFailed (id addr : Nat) (s : State) : Host.Outcome State Fault Refusal :=
  .next (match s.cmd? id with
    | none => s
    | some c =>
      let runs := [0x21, 0x28, 0x29, 0x30, 0x34, 0x35].contains c.opcode && (s.atWork id c.opcode).isSome
      let reads := [0x10, 0x51].contains c.opcode && (s.control id c.opcode).isSome
      if (runs || reads) && (s.readRanges c).any fun r => inRange r addr then
        ((s.dmaFault c.port addr .linkRetryExhausted c.ring c.tag).emit (.aer c.port)).readFails c addr
      else s)

end Sys2Proof.Machine
end

