-- ==== Sys2Proof/Machine/Dispatch.lean ====
section
/-!
DEFINITION. One arm per command: the command's meaning, which acts on everything but the queue.
-/
namespace Sys2Proof.Machine

def exec (i : Instr) (s : State) : Host.Outcome State Fault Refusal :=
  match i with
  | .nop id => Sys2Proof.Machine.execNop id s
  | .fence id => Sys2Proof.Machine.execFence id s
  | .pipeLoad id image parsed => Sys2Proof.Machine.execPipeLoad id image parsed s
  | .pipeRunGraph id data => Sys2Proof.Machine.execPipeRunGraph id data s
  | .pipeRunEpoch id data => Sys2Proof.Machine.execPipeRunEpoch id data s
  | .pipeStop id => Sys2Proof.Machine.execPipeStop id s
  | .pipeStopEdge part => Sys2Proof.Machine.execPipeStopEdge part s
  | .tableCreate id data => Sys2Proof.Machine.execTableCreate id data s
  | .tableWriteRows id data => Sys2Proof.Machine.execTableWriteRows id data s
  | .tableVersionOpen id => Sys2Proof.Machine.execTableVersionOpen id s
  | .tableVersionSwitch id => Sys2Proof.Machine.execTableVersionSwitch id s
  | .switchEdge part table => Sys2Proof.Machine.execSwitchEdge part table s
  | .tableDrop id => Sys2Proof.Machine.execTableDrop id s
  | .tableDropEdge part table => Sys2Proof.Machine.execTableDropEdge part table s
  | .lookup id data => Sys2Proof.Machine.execLookup id data s
  | .update id data => Sys2Proof.Machine.execUpdate id data s
  | .regradePolicy id => Sys2Proof.Machine.execRegradePolicy id s
  | .copy id data => Sys2Proof.Machine.execCopy id data s
  | .compress id data => Sys2Proof.Machine.execCompress id data s
  | .decompress id data => Sys2Proof.Machine.execDecompress id data s
  | .topk id data => Sys2Proof.Machine.execTopk id data s
  | .argmax id data => Sys2Proof.Machine.execArgmax id data s
  | .matchCmd id data => Sys2Proof.Machine.execMatchCmd id data s
  | .matmul id data => Sys2Proof.Machine.execMatmul id data s
  | .odRead id => Sys2Proof.Machine.execOdRead id s
  | .odWrite id data => Sys2Proof.Machine.execOdWrite id data s
  | .attest id => Sys2Proof.Machine.execAttest id s
  | .fetchTurn port ring entries => Sys2Proof.Machine.execFetchTurn port ring entries s
  | .fetchReadFailed port ring addr => Sys2Proof.Machine.execFetchReadFailed port ring addr s
  | .dmaReadFailed id addr => Sys2Proof.Machine.execDmaReadFailed id addr s
  | .commandRingTableWrite port off size value => Sys2Proof.Machine.execCommandRingTableWrite port off size value s
  | .completionRingTableWrite port off size value => Sys2Proof.Machine.execCompletionRingTableWrite port off size value s
  | .tailDoorbell port ring value => Sys2Proof.Machine.execTailDoorbell port ring value s
  | .headDoorbell port ring value => Sys2Proof.Machine.execHeadDoorbell port ring value s
  | .tickLoRead port => Sys2Proof.Machine.execTickLoRead port s
  | .bar0Write port off size value => Sys2Proof.Machine.execBar0Write port off size value s
  | .modTicks port ring => Sys2Proof.Machine.execModTicks port ring s
  | .configRequest port req => Sys2Proof.Machine.execConfigRequest port req s
  | .perstAssert port => Sys2Proof.Machine.execPerstAssert port s
  | .perstRelease port => Sys2Proof.Machine.execPerstRelease port s
  | .hotReset port => Sys2Proof.Machine.execHotReset port s
  | .flr port => Sys2Proof.Machine.execFlr port s
  | .linkDisable port => Sys2Proof.Machine.execLinkDisable port s
  | .linkDown port => Sys2Proof.Machine.execLinkDown port s
  | .busMasterEnable port on => Sys2Proof.Machine.execBusMasterEnable port on s
  | .pcieReplay port => Sys2Proof.Machine.execPcieReplay port s
  | .itemDispatch flow seq unit => Sys2Proof.Machine.execItemDispatch flow seq unit s
  | .itemCompletion what => Sys2Proof.Machine.execItemCompletion what s
  | .boltEnd core => Sys2Proof.Machine.execBoltEnd core s
  | .contextRefill flow => Sys2Proof.Machine.execContextRefill flow s
  | .itemRefill flow => Sys2Proof.Machine.execItemRefill flow s
  | .enqueueResume part => Sys2Proof.Machine.execEnqueueResume part s
  | .flowOpen acc => Sys2Proof.Machine.execFlowOpen acc s
  | .flowClose acc => Sys2Proof.Machine.execFlowClose acc s
  | .slowLane flow seq => Sys2Proof.Machine.execSlowLane flow seq s
  | .lateDrop flow seq => Sys2Proof.Machine.execLateDrop flow seq s
  | .hold flow => Sys2Proof.Machine.execHold flow s
  | .tickEdge => Sys2Proof.Machine.execTickEdge s
  | .deadline => Sys2Proof.Machine.execDeadline s
  | .latShare acc => Sys2Proof.Machine.execLatShare acc s
  | .latShareApply => Sys2Proof.Machine.execLatShareApply s
  | .maintAnnounce stand lead => Sys2Proof.Machine.execMaintAnnounce stand lead s
  | .maintPeriod => Sys2Proof.Machine.execMaintPeriod s
  | .refreshInterval stand vault => Sys2Proof.Machine.execRefreshInterval stand vault s
  | .forcedRefresh stand vault => Sys2Proof.Machine.execForcedRefresh stand vault s
  | .sliceRefresh stand vault => Sys2Proof.Machine.execSliceRefresh stand vault s
  | .temperatureReading stand readings => Sys2Proof.Machine.execTemperatureReading stand readings s
  | .sensorTimeout stand => Sys2Proof.Machine.execSensorTimeout stand s
  | .scrubAccess stand vault => Sys2Proof.Machine.execScrubAccess stand vault s
  | .writeBack stand vault => Sys2Proof.Machine.execWriteBack stand vault s
  | .repairPassStart stand vault slice => Sys2Proof.Machine.execRepairPassStart stand vault slice s
  | .repairPassStep => Sys2Proof.Machine.execRepairPassStep s
  | .counterSample => Sys2Proof.Machine.execCounterSample s
  | .wipeComplete => Sys2Proof.Machine.execWipeComplete s
  | .flitFailure stand up => Sys2Proof.Machine.execFlitFailure stand up s
  | .linkRetrain stand up => Sys2Proof.Machine.execLinkRetrain stand up s
  | .retrainDone stand => Sys2Proof.Machine.execRetrainDone stand s
  | .apply acc => Sys2Proof.Machine.execApply acc s
  | .partReset acc => Sys2Proof.Machine.execPartReset acc s
  | .itemPool acc => Sys2Proof.Machine.execItemPool acc s
  | .scrubPeriodH acc => Sys2Proof.Machine.execScrubPeriodH acc s
  | .portEnable acc module => Sys2Proof.Machine.execPortEnable acc module s
  | .portDisable acc => Sys2Proof.Machine.execPortDisable acc s
  | .linkUp net subs => Sys2Proof.Machine.execLinkUp net subs s
  | .moduleRemoved net => Sys2Proof.Machine.execModuleRemoved net s
  | .modulePresent net module => Sys2Proof.Machine.execModulePresent net module s
  | .moduleFault net => Sys2Proof.Machine.execModuleFault net s
  | .rxDiscards net sub frame fcsOk => Sys2Proof.Machine.execRxDiscards net sub frame fcsOk s
  | .arpRequest net sub frame => Sys2Proof.Machine.execArpRequest net sub frame s
  | .neighborSolicitation path frame => Sys2Proof.Machine.execNeighborSolicitation path frame s
  | .echoRequest path frame => Sys2Proof.Machine.execEchoRequest path frame s
  | .malformed net sub packet => Sys2Proof.Machine.execMalformed net sub packet s
  | .data net sub packet => Sys2Proof.Machine.execData net sub packet s
  | .lookupReq net sub packet => Sys2Proof.Machine.execLookupReq net sub packet s
  | .credit part stream => Sys2Proof.Machine.execCredit part stream s
  | .nack part stream => Sys2Proof.Machine.execNack part stream s
  | .nackRepeat => Sys2Proof.Machine.execNackRepeat s
  | .gapLimit part stream => Sys2Proof.Machine.execGapLimit part stream s
  | .nackPeriod acc => Sys2Proof.Machine.execNackPeriod acc s
  | .streamOpen acc => Sys2Proof.Machine.execStreamOpen acc s
  | .streamClose acc => Sys2Proof.Machine.execStreamClose acc s
  | .streamCloseEdge part stream => Sys2Proof.Machine.execStreamCloseEdge part stream s
  | .walkRecords part stream => Sys2Proof.Machine.execWalkRecords part stream s
  | .compressedUnit part stream => Sys2Proof.Machine.execCompressedUnit part stream s
  | .setSeal acc => Sys2Proof.Machine.execSetSeal acc s
  | .setSortEnd part set => Sys2Proof.Machine.execSetSortEnd part set s
  | .setClear acc => Sys2Proof.Machine.execSetClear acc s
  | .feed part epoch => Sys2Proof.Machine.execFeed part epoch s
  | .augmentationRead part epoch data ok => Sys2Proof.Machine.execAugmentationRead part epoch data ok s
  | .ship part epoch => Sys2Proof.Machine.execShip part epoch s
  | .endNotice part epoch => Sys2Proof.Machine.execEndNotice part epoch s
  | .endMark part image stage => Sys2Proof.Machine.execEndMark part image stage s
  | .windowClose part table => Sys2Proof.Machine.execWindowClose part table s
  | .migrationHold core lane => Sys2Proof.Machine.execMigrationHold core lane s
  | .migrationSwap core lane written => Sys2Proof.Machine.execMigrationSwap core lane written s
  | .migrationAbandon core lane written => Sys2Proof.Machine.execMigrationAbandon core lane written s
  | .slotFree core => Sys2Proof.Machine.execSlotFree core s
  | .versionReclaim part table => Sys2Proof.Machine.execVersionReclaim part table s
  | .dictLoad acc => Sys2Proof.Machine.execDictLoad acc s
  | .dictUnload acc => Sys2Proof.Machine.execDictUnload acc s
  | .dictUnloadEdge part => Sys2Proof.Machine.execDictUnloadEdge part s
  | .hello msg => Sys2Proof.Machine.execHello msg s
  | .sessionInit msg => Sys2Proof.Machine.execSessionInit msg s
  | .sessionConfirm msg => Sys2Proof.Machine.execSessionConfirm msg s
  | .sessionClose msg => Sys2Proof.Machine.execSessionClose msg s
  | .read msg => Sys2Proof.Machine.execRead msg s
  | .write msg => Sys2Proof.Machine.execWrite msg s
  | .blockOpen msg => Sys2Proof.Machine.execBlockOpen msg s
  | .blockData msg => Sys2Proof.Machine.execBlockData msg s
  | .blockCommit msg => Sys2Proof.Machine.execBlockCommit msg s
  | .blockAbort msg => Sys2Proof.Machine.execBlockAbort msg s
  | .store msg => Sys2Proof.Machine.execStore msg s
  | .restoreDefaults msg => Sys2Proof.Machine.execRestoreDefaults msg s
  | .subscribe msg => Sys2Proof.Machine.execSubscribe msg s
  | .eventAck msg => Sys2Proof.Machine.execEventAck msg s
  | .event cause part detail => Sys2Proof.Machine.execEvent cause part detail s
  | .eventRetry number => Sys2Proof.Machine.execEventRetry number s
  | .bopMalformed msg => Sys2Proof.Machine.execBopMalformed msg s
  | .confirmTimeout session => Sys2Proof.Machine.execConfirmTimeout session s
  | .sessionIdle session => Sys2Proof.Machine.execSessionIdle session s
  | .lockExpiry slot => Sys2Proof.Machine.execLockExpiry slot s
  | .keySlotWrite acc => Sys2Proof.Machine.execKeySlotWrite acc s
  | .beacon => Sys2Proof.Machine.execBeacon s
  | .beaconTimeout => Sys2Proof.Machine.execBeaconTimeout s
  | .transmitOpportunity => Sys2Proof.Machine.execTransmitOpportunity s
  | .telemetryPeriod acc => Sys2Proof.Machine.execTelemetryPeriod acc s
  | .debugUartEnable acc => Sys2Proof.Machine.execDebugUartEnable acc s
  | .lcRequest acc => Sys2Proof.Machine.execLcRequest acc s
  | .svnCommit acc => Sys2Proof.Machine.execSvnCommit acc s
  | .attestNonce acc => Sys2Proof.Machine.execAttestNonce acc s
  | .debugUnlock acc => Sys2Proof.Machine.execDebugUnlock acc s
  | .debugToken acc => Sys2Proof.Machine.execDebugToken acc s
  | .boot => Sys2Proof.Machine.execBoot s
  | .fruRead fru answered => Sys2Proof.Machine.execFruRead fru answered s
  | .sample rawV rawI degC => Sys2Proof.Machine.execSample rawV rawI degC s
  | .intervalClose => Sys2Proof.Machine.execIntervalClose s
  | .recordCommit => Sys2Proof.Machine.execRecordCommit s
  | .checkpoint => Sys2Proof.Machine.execCheckpoint s
  | .finalCheckpoint => Sys2Proof.Machine.execFinalCheckpoint s
  | .scalerPowerUp => Sys2Proof.Machine.execScalerPowerUp s
  | .workFrameSend => Sys2Proof.Machine.execWorkFrameSend s
  | .workFrame frame => Sys2Proof.Machine.execWorkFrame frame s
  | .statusFrame => Sys2Proof.Machine.execStatusFrame s
  | .recordLinkFrame frame => Sys2Proof.Machine.execRecordLinkFrame frame s
  | .sealChange => Sys2Proof.Machine.execSealChange s
  | .serviceWrite index sub value => Sys2Proof.Machine.execServiceWrite index sub value s
  | .serviceRead index sub off len => Sys2Proof.Machine.execServiceRead index sub off len s
  | .xoQualified => Sys2Proof.Machine.execXoQualified s
  | .ioscQualified => Sys2Proof.Machine.execIoscQualified s
  | .referenceSwitch => Sys2Proof.Machine.execReferenceSwitch s
  | .monitorTrip source => Sys2Proof.Machine.execMonitorTrip source s
  | .pllUnlock => Sys2Proof.Machine.execPllUnlock s
  | .pllRelock => Sys2Proof.Machine.execPllRelock s
  | .watchdog => Sys2Proof.Machine.execWatchdog s
  | .sysRequest acc => Sys2Proof.Machine.execSysRequest acc s
  | .coreRequest acc => Sys2Proof.Machine.execCoreRequest acc s
  | .jtag => Sys2Proof.Machine.execJtag s
  | .resetAssert src => Sys2Proof.Machine.execResetAssert src s
  | .porRelease adc => Sys2Proof.Machine.execPorRelease adc s
  | .coreRelease part => Sys2Proof.Machine.execCoreRelease part s
  | .blockReset acc => Sys2Proof.Machine.execBlockReset acc s
  | .blockResetClean unit => Sys2Proof.Machine.execBlockResetClean unit s
  | .quiesceTicks unit => Sys2Proof.Machine.execQuiesceTicks unit s
  | .run acc => Sys2Proof.Machine.execRun acc s
  | .sleep acc => Sys2Proof.Machine.execSleep acc s
  | .deepSleep acc => Sys2Proof.Machine.execDeepSleep acc s
  | .deepSleepEntry => Sys2Proof.Machine.execDeepSleepEntry s
  | .deepSleepRefused => Sys2Proof.Machine.execDeepSleepRefused s
  | .wake source => Sys2Proof.Machine.execWake source s
  | .gateRun acc => Sys2Proof.Machine.execGateRun acc s
  | .unitGated unit => Sys2Proof.Machine.execUnitGated unit s
  | .mclkDiv acc => Sys2Proof.Machine.execMclkDiv acc s
  | .standbyOn => Sys2Proof.Machine.execStandbyOn s
  | .switchClose => Sys2Proof.Machine.execSwitchClose s
  | .undervoltage => Sys2Proof.Machine.execUndervoltage s
  | .overvoltage => Sys2Proof.Machine.execOvervoltage s
  | .breaker => Sys2Proof.Machine.execBreaker s
  | .mate => Sys2Proof.Machine.execMate s
  | .powerSample mw => Sys2Proof.Machine.execPowerSample mw s
  | .fastLimiter mw => Sys2Proof.Machine.execFastLimiter mw s
  | .pwrBrake asserted => Sys2Proof.Machine.execPwrBrake asserted s
  | .thermalThrottle => Sys2Proof.Machine.execThermalThrottle s
  | .thermTrip die reading => Sys2Proof.Machine.execThermTrip die reading s
  | .tripRelease => Sys2Proof.Machine.execTripRelease s
  | .mboxGo port value => Sys2Proof.Machine.execMboxGo port value s
  | .hostLinkUp port rate width => Sys2Proof.Machine.execHostLinkUp port rate width s
  | .subportLinkLoss net sub => Sys2Proof.Machine.execSubportLinkLoss net sub s
  | .standbyLoss => Sys2Proof.Machine.execStandbyLoss s
  | .fastLimiterRelease mw => Sys2Proof.Machine.execFastLimiterRelease mw s
  | .firmwareWritten committed => Sys2Proof.Machine.execFirmwareWritten committed s
  | .laneFrameEnd lane => Sys2Proof.Machine.execLaneFrameEnd lane s
  | .beaconTransmit => Sys2Proof.Machine.execBeaconTransmit s

end Sys2Proof.Machine
end

