-- ==== Sys2Proof/Safety.lean ====
section
/-!
DEFINITION. What statements about the block are made of: the canonical form of memory, and what one state keeps of an
earlier one.
-/
namespace Sys2Proof

/-- The events of the scaler die itself. -/
def Instr.ofScaler (i : Instr) : Bool :=
  match i with
  | .nop _ => false
  | .fence _ => false
  | .pipeLoad _ _ _ => false
  | .pipeRunGraph _ _ => false
  | .pipeRunEpoch _ _ => false
  | .pipeStop _ => false
  | .pipeStopEdge _ => false
  | .tableCreate _ _ => false
  | .tableWriteRows _ _ => false
  | .tableVersionOpen _ => false
  | .tableVersionSwitch _ => false
  | .switchEdge _ _ => false
  | .tableDrop _ => false
  | .tableDropEdge _ _ => false
  | .lookup _ _ => false
  | .update _ _ => false
  | .regradePolicy _ => false
  | .copy _ _ => false
  | .compress _ _ => false
  | .decompress _ _ => false
  | .topk _ _ => false
  | .argmax _ _ => false
  | .matchCmd _ _ => false
  | .matmul _ _ => false
  | .odRead _ => false
  | .odWrite _ _ => false
  | .attest _ => false
  | .fetchTurn _ _ _ => false
  | .fetchReadFailed _ _ _ => false
  | .dmaReadFailed _ _ => false
  | .commandRingTableWrite _ _ _ _ => false
  | .completionRingTableWrite _ _ _ _ => false
  | .tailDoorbell _ _ _ => false
  | .headDoorbell _ _ _ => false
  | .tickLoRead _ => false
  | .bar0Write _ _ _ _ => false
  | .modTicks _ _ => false
  | .configRequest _ _ => false
  | .perstAssert _ => false
  | .perstRelease _ => false
  | .hotReset _ => false
  | .flr _ => false
  | .linkDisable _ => false
  | .linkDown _ => false
  | .busMasterEnable _ _ => false
  | .pcieReplay _ => false
  | .itemDispatch _ _ _ => false
  | .itemCompletion _ => false
  | .boltEnd _ => false
  | .contextRefill _ => false
  | .itemRefill _ => false
  | .enqueueResume _ => false
  | .flowOpen _ => false
  | .flowClose _ => false
  | .slowLane _ _ => false
  | .lateDrop _ _ => false
  | .hold _ => false
  | .tickEdge => false
  | .deadline => false
  | .latShare _ => false
  | .latShareApply => false
  | .maintAnnounce _ _ => false
  | .maintPeriod => false
  | .refreshInterval _ _ => false
  | .forcedRefresh _ _ => false
  | .sliceRefresh _ _ => false
  | .temperatureReading _ _ => false
  | .sensorTimeout _ => false
  | .scrubAccess _ _ => false
  | .writeBack _ _ => false
  | .repairPassStart _ _ _ => false
  | .repairPassStep => false
  | .counterSample => false
  | .wipeComplete => false
  | .flitFailure _ _ => false
  | .linkRetrain _ _ => false
  | .retrainDone _ => false
  | .apply _ => false
  | .partReset _ => false
  | .itemPool _ => false
  | .scrubPeriodH _ => false
  | .portEnable _ _ => false
  | .portDisable _ => false
  | .linkUp _ _ => false
  | .moduleRemoved _ => false
  | .modulePresent _ _ => false
  | .moduleFault _ => false
  | .rxDiscards _ _ _ _ => false
  | .arpRequest _ _ _ => false
  | .neighborSolicitation _ _ => false
  | .echoRequest _ _ => false
  | .malformed _ _ _ => false
  | .data _ _ _ => false
  | .lookupReq _ _ _ => false
  | .credit _ _ => false
  | .nack _ _ => false
  | .nackRepeat => false
  | .gapLimit _ _ => false
  | .nackPeriod _ => false
  | .streamOpen _ => false
  | .streamClose _ => false
  | .streamCloseEdge _ _ => false
  | .walkRecords _ _ => false
  | .compressedUnit _ _ => false
  | .setSeal _ => false
  | .setSortEnd _ _ => false
  | .setClear _ => false
  | .feed _ _ => false
  | .augmentationRead _ _ _ _ => false
  | .ship _ _ => false
  | .endNotice _ _ => false
  | .endMark _ _ _ => false
  | .windowClose _ _ => false
  | .migrationHold _ _ => false
  | .migrationSwap _ _ _ => false
  | .migrationAbandon _ _ _ => false
  | .slotFree _ => false
  | .versionReclaim _ _ => false
  | .dictLoad _ => false
  | .dictUnload _ => false
  | .dictUnloadEdge _ => false
  | .hello _ => false
  | .sessionInit _ => false
  | .sessionConfirm _ => false
  | .sessionClose _ => false
  | .read _ => false
  | .write _ => false
  | .blockOpen _ => false
  | .blockData _ => false
  | .blockCommit _ => false
  | .blockAbort _ => false
  | .store _ => false
  | .restoreDefaults _ => false
  | .subscribe _ => false
  | .eventAck _ => false
  | .event _ _ _ => false
  | .eventRetry _ => false
  | .bopMalformed _ => false
  | .confirmTimeout _ => false
  | .sessionIdle _ => false
  | .lockExpiry _ => false
  | .keySlotWrite _ => false
  | .beacon => false
  | .beaconTimeout => false
  | .transmitOpportunity => false
  | .telemetryPeriod _ => false
  | .debugUartEnable _ => false
  | .lcRequest _ => false
  | .svnCommit _ => false
  | .attestNonce _ => false
  | .debugUnlock _ => false
  | .debugToken _ => false
  | .boot => false
  | .fruRead _ _ => false
  | .sample _ _ _ => true
  | .intervalClose => true
  | .recordCommit => true
  | .checkpoint => true
  | .finalCheckpoint => true
  | .scalerPowerUp => true
  | .workFrameSend => false
  | .workFrame _ => true
  | .statusFrame => true
  | .recordLinkFrame _ => false
  | .sealChange => true
  | .serviceWrite _ _ _ => true
  | .serviceRead _ _ _ _ => false
  | .xoQualified => false
  | .ioscQualified => false
  | .referenceSwitch => false
  | .monitorTrip _ => false
  | .pllUnlock => false
  | .pllRelock => false
  | .watchdog => false
  | .sysRequest _ => false
  | .coreRequest _ => false
  | .jtag => false
  | .resetAssert _ => false
  | .porRelease _ => false
  | .coreRelease _ => false
  | .blockReset _ => false
  | .blockResetClean _ => false
  | .quiesceTicks _ => false
  | .run _ => false
  | .sleep _ => false
  | .deepSleep _ => false
  | .deepSleepEntry => false
  | .deepSleepRefused => false
  | .wake _ => false
  | .gateRun _ => false
  | .unitGated _ => false
  | .mclkDiv _ => false
  | .standbyOn => false
  | .switchClose => false
  | .undervoltage => false
  | .overvoltage => false
  | .breaker => false
  | .mate => false
  | .powerSample _ => false
  | .fastLimiter _ => false
  | .pwrBrake _ => false
  | .thermalThrottle => false
  | .thermTrip _ _ => false
  | .tripRelease => false
  | .mboxGo _ _ => false
  | .hostLinkUp _ _ _ => false
  | .subportLinkLoss _ _ => false
  | .standbyLoss => false
  | .fastLimiterRelease _ => false
  | .firmwareWritten _ => false
  | .laneFrameEnd _ => false
  | .beaconTransmit => false

/-- The commands that may write vault memory or the landing buffer, or wipe them. -/
def Instr.mayStore (i : Instr) : Bool :=
  match i with
  | .nop _ => false
  | .fence _ => false
  | .pipeLoad _ _ _ => true
  | .pipeRunGraph _ _ => true
  | .pipeRunEpoch _ _ => false
  | .pipeStop _ => false
  | .pipeStopEdge _ => true
  | .tableCreate _ _ => true
  | .tableWriteRows _ _ => false
  | .tableVersionOpen _ => true
  | .tableVersionSwitch _ => false
  | .switchEdge _ _ => true
  | .tableDrop _ => false
  | .tableDropEdge _ _ => true
  | .lookup _ _ => true
  | .update _ _ => false
  | .regradePolicy _ => false
  | .copy _ _ => true
  | .compress _ _ => true
  | .decompress _ _ => true
  | .topk _ _ => true
  | .argmax _ _ => true
  | .matchCmd _ _ => true
  | .matmul _ _ => true
  | .odRead _ => false
  | .odWrite _ _ => false
  | .attest _ => false
  | .fetchTurn _ _ _ => false
  | .fetchReadFailed _ _ _ => false
  | .dmaReadFailed _ _ => true
  | .commandRingTableWrite _ _ _ _ => false
  | .completionRingTableWrite _ _ _ _ => false
  | .tailDoorbell _ _ _ => false
  | .headDoorbell _ _ _ => false
  | .tickLoRead _ => false
  | .bar0Write _ _ _ _ => false
  | .modTicks _ _ => false
  | .configRequest _ _ => false
  | .perstAssert _ => true
  | .perstRelease _ => false
  | .hotReset _ => true
  | .flr _ => true
  | .linkDisable _ => true
  | .linkDown _ => true
  | .busMasterEnable _ _ => false
  | .pcieReplay _ => false
  | .itemDispatch _ _ _ => false
  | .itemCompletion _ => true
  | .boltEnd _ => false
  | .contextRefill _ => true
  | .itemRefill _ => false
  | .enqueueResume _ => false
  | .flowOpen _ => false
  | .flowClose _ => true
  | .slowLane _ _ => false
  | .lateDrop _ _ => true
  | .hold _ => false
  | .tickEdge => false
  | .deadline => false
  | .latShare _ => false
  | .latShareApply => false
  | .maintAnnounce _ _ => false
  | .maintPeriod => false
  | .refreshInterval _ _ => false
  | .forcedRefresh _ _ => false
  | .sliceRefresh _ _ => false
  | .temperatureReading _ _ => false
  | .sensorTimeout _ => false
  | .scrubAccess _ _ => false
  | .writeBack _ _ => true
  | .repairPassStart _ _ _ => false
  | .repairPassStep => true
  | .counterSample => false
  | .wipeComplete => false
  | .flitFailure _ _ => false
  | .linkRetrain _ _ => false
  | .retrainDone _ => false
  | .apply _ => true
  | .partReset _ => true
  | .itemPool _ => false
  | .scrubPeriodH _ => false
  | .portEnable _ _ => false
  | .portDisable _ => false
  | .linkUp _ _ => false
  | .moduleRemoved _ => false
  | .modulePresent _ _ => false
  | .moduleFault _ => false
  | .rxDiscards _ _ _ _ => false
  | .arpRequest _ _ _ => false
  | .neighborSolicitation _ _ => false
  | .echoRequest _ _ => false
  | .malformed _ _ _ => false
  | .data _ _ _ => true
  | .lookupReq _ _ _ => false
  | .credit _ _ => false
  | .nack _ _ => false
  | .nackRepeat => false
  | .gapLimit _ _ => false
  | .nackPeriod _ => false
  | .streamOpen _ => false
  | .streamClose _ => false
  | .streamCloseEdge _ _ => false
  | .walkRecords _ _ => false
  | .compressedUnit _ _ => false
  | .setSeal _ => false
  | .setSortEnd _ _ => true
  | .setClear _ => false
  | .feed _ _ => false
  | .augmentationRead _ _ _ _ => false
  | .ship _ _ => true
  | .endNotice _ _ => false
  | .endMark _ _ _ => true
  | .windowClose _ _ => true
  | .migrationHold _ _ => true
  | .migrationSwap _ _ _ => true
  | .migrationAbandon _ _ _ => true
  | .slotFree _ => false
  | .versionReclaim _ _ => false
  | .dictLoad _ => true
  | .dictUnload _ => false
  | .dictUnloadEdge _ => false
  | .hello _ => false
  | .sessionInit _ => false
  | .sessionConfirm _ => false
  | .sessionClose _ => false
  | .read _ => false
  | .write _ => false
  | .blockOpen _ => false
  | .blockData _ => false
  | .blockCommit _ => true
  | .blockAbort _ => false
  | .store _ => false
  | .restoreDefaults _ => false
  | .subscribe _ => false
  | .eventAck _ => false
  | .event _ _ _ => false
  | .eventRetry _ => false
  | .bopMalformed _ => false
  | .confirmTimeout _ => false
  | .sessionIdle _ => false
  | .lockExpiry _ => false
  | .keySlotWrite _ => false
  | .beacon => false
  | .beaconTimeout => false
  | .transmitOpportunity => false
  | .telemetryPeriod _ => false
  | .debugUartEnable _ => false
  | .lcRequest _ => true
  | .svnCommit _ => false
  | .attestNonce _ => false
  | .debugUnlock _ => true
  | .debugToken _ => true
  | .boot => true
  | .fruRead _ _ => false
  | .sample _ _ _ => false
  | .intervalClose => false
  | .recordCommit => false
  | .checkpoint => false
  | .finalCheckpoint => false
  | .scalerPowerUp => false
  | .workFrameSend => false
  | .workFrame _ => false
  | .statusFrame => false
  | .recordLinkFrame _ => false
  | .sealChange => false
  | .serviceWrite _ _ _ => false
  | .serviceRead _ _ _ _ => false
  | .xoQualified => false
  | .ioscQualified => false
  | .referenceSwitch => false
  | .monitorTrip _ => false
  | .pllUnlock => false
  | .pllRelock => true
  | .watchdog => true
  | .sysRequest _ => true
  | .coreRequest _ => true
  | .jtag => true
  | .resetAssert _ => true
  | .porRelease _ => true
  | .coreRelease _ => true
  | .blockReset _ => false
  | .blockResetClean _ => false
  | .quiesceTicks _ => true
  | .run _ => false
  | .sleep _ => false
  | .deepSleep _ => false
  | .deepSleepEntry => true
  | .deepSleepRefused => false
  | .wake _ => false
  | .gateRun _ => false
  | .unitGated _ => true
  | .mclkDiv _ => false
  | .standbyOn => true
  | .switchClose => false
  | .undervoltage => true
  | .overvoltage => true
  | .breaker => true
  | .mate => true
  | .powerSample _ => false
  | .fastLimiter _ => false
  | .pwrBrake _ => false
  | .thermalThrottle => false
  | .thermTrip _ _ => true
  | .tripRelease => false
  | .mboxGo _ _ => false
  | .hostLinkUp _ _ _ => false
  | .subportLinkLoss _ _ => false
  | .standbyLoss => true
  | .fastLimiterRelease _ => false
  | .firmwareWritten _ => true
  | .laneFrameEnd _ => false
  | .beaconTransmit => false

end Sys2Proof

namespace Sys2Proof.Machine

/-- The canonical form of a memory: addresses strictly rising, and no entry equal to what an unlisted address reads as. -/
abbrev Memory.wf (m : List Host.Cell) : Prop := m.Pairwise (fun a b => a.1 < b.1) ∧ ∀ c ∈ m, c.2 ≠ 0

/-- Vault memory and the landing buffer are in canonical form. -/
def State.Canon (s : State) : Prop := Memory.wf s.mem ∧ Memory.wf s.lbuf

/-- What every command leaves: the queue as it was, memory in canonical form if it was, no output taken back, no free value
used twice, and a minimum security version that has not fallen. -/
def State.Keeps (r t : State) : Prop :=
  t.pending = r.pending ∧ (r.Canon → t.Canon) ∧ r.out <:+ t.out ∧ r.fresh ≤ t.fresh ∧ r.nv.svnMin ≤ t.nv.svnMin

/-- What every command leaves, with the scaler untouched. -/
def State.Steady (r t : State) : Prop := r.Keeps t ∧ t.scl = r.scl

/-- What every command leaves, with every byte of vault memory and of the landing buffer untouched. -/
def State.Fixed (r t : State) : Prop := r.Keeps t ∧ t.mem = r.mem ∧ t.lbuf = r.lbuf

/-- All of these. -/
def State.Still (r t : State) : Prop := r.Steady t ∧ t.mem = r.mem ∧ t.lbuf = r.lbuf

/-- The counters that sending an answer or writing a completion may raise. -/
def answerKey (k : Nat) : Prop :=
  k = Ob.PLCA_FALLBACKS ∨ ∃ p, k = at_ Ob.LOST_COMPLETIONS p ∨ k = at_ Ob.HELD_COMPLETIONS p

/-- What an answer or a completion may change: the ports, the outstanding commands with the staging regions they give up,
the management port, what has left the module, and the counters of `answerKey`. -/
def State.Told (r t : State) : Prop :=
  t = { r with od := t.od, ports := t.ports, cmds := t.cmds, regions := t.regions, mgmt := t.mgmt, out := t.out } ∧
    ∀ k, ¬ answerKey k → t.get k = r.get k

end Sys2Proof.Machine
end

