-- ==== Sys2Proof/WellFormed.lean ====
section
/-!
DEFINITION. Which commands exist: the operands of a command fit the fields and units they stand for.
-/
namespace Sys2Proof

/-- The command's operands are such as the module can meet: at most 8 entries in a fetch turn (R115), a value no wider
than its access or register (R111, R114, R122, R132), a PCIe rate and width that exist (Table 5.3), sub-ports 0–3 (R144), at
most four readings of 8 bits (R64), a 10-bit strap median (Table 20.7), a die with a trip sensor (R486), a wake source of
Table 19.5, a decompression lane of the eight, an event cause of Table 15.6, and a 16-bit index with an 8-bit subindex
(R388). -/
def Instr.wf (i : Instr) : Bool :=
  match i with
  | .nop _ => true
  | .fence _ => true
  | .pipeLoad _ _ _ => true
  | .pipeRunGraph _ _ => true
  | .pipeRunEpoch _ _ => true
  | .pipeStop _ => true
  | .pipeStopEdge _ => true
  | .tableCreate _ _ => true
  | .tableWriteRows _ _ => true
  | .tableVersionOpen _ => true
  | .tableVersionSwitch _ => true
  | .switchEdge _ _ => true
  | .tableDrop _ => true
  | .tableDropEdge _ _ => true
  | .lookup _ _ => true
  | .update _ _ => true
  | .regradePolicy _ => true
  | .copy _ _ => true
  | .compress _ _ => true
  | .decompress _ _ => true
  | .topk _ _ => true
  | .argmax _ _ => true
  | .matchCmd _ _ => true
  | .matmul _ _ => true
  | .odRead _ => true
  | .odWrite _ _ => true
  | .attest _ => true
  | .fetchTurn _ _ entries => entries.length ≤ 8
  | .fetchReadFailed _ _ _ => true
  | .dmaReadFailed _ _ => true
  | .commandRingTableWrite _ _ size value => value < 2 ^ (8 * size)
  | .completionRingTableWrite _ _ size value => value < 2 ^ (8 * size)
  | .tailDoorbell _ _ value => value < 2 ^ 32
  | .headDoorbell _ _ value => value < 2 ^ 32
  | .tickLoRead _ => true
  | .bar0Write _ _ size value => value < 2 ^ (8 * size)
  | .modTicks _ _ => true
  | .configRequest _ _ => true
  | .perstAssert _ => true
  | .perstRelease _ => true
  | .hotReset _ => true
  | .flr _ => true
  | .linkDisable _ => true
  | .linkDown _ => true
  | .busMasterEnable _ _ => true
  | .pcieReplay _ => true
  | .itemDispatch _ _ _ => true
  | .itemCompletion _ => true
  | .boltEnd _ => true
  | .contextRefill _ => true
  | .itemRefill _ => true
  | .enqueueResume _ => true
  | .flowOpen _ => true
  | .flowClose _ => true
  | .slowLane _ _ => true
  | .lateDrop _ _ => true
  | .hold _ => true
  | .tickEdge => true
  | .deadline => true
  | .latShare _ => true
  | .latShareApply => true
  | .maintAnnounce _ _ => true
  | .maintPeriod => true
  | .refreshInterval _ _ => true
  | .forcedRefresh _ _ => true
  | .sliceRefresh _ _ => true
  | .temperatureReading _ readings => readings.length ≤ 4 && readings.all (· < 256)
  | .sensorTimeout _ => true
  | .scrubAccess _ _ => true
  | .writeBack _ _ => true
  | .repairPassStart _ _ _ => true
  | .repairPassStep => true
  | .counterSample => true
  | .wipeComplete => true
  | .flitFailure _ _ => true
  | .linkRetrain _ _ => true
  | .retrainDone _ => true
  | .apply _ => true
  | .partReset _ => true
  | .itemPool _ => true
  | .scrubPeriodH _ => true
  | .portEnable _ _ => true
  | .portDisable _ => true
  | .linkUp _ subs => subs < 16
  | .moduleRemoved _ => true
  | .modulePresent _ _ => true
  | .moduleFault _ => true
  | .rxDiscards _ _ _ _ => true
  | .arpRequest _ _ _ => true
  | .neighborSolicitation _ _ => true
  | .echoRequest _ _ => true
  | .malformed _ _ _ => true
  | .data _ _ _ => true
  | .lookupReq _ _ _ => true
  | .credit _ _ => true
  | .nack _ _ => true
  | .nackRepeat => true
  | .gapLimit _ _ => true
  | .nackPeriod _ => true
  | .streamOpen _ => true
  | .streamClose _ => true
  | .streamCloseEdge _ _ => true
  | .walkRecords _ _ => true
  | .compressedUnit _ _ => true
  | .setSeal _ => true
  | .setSortEnd _ _ => true
  | .setClear _ => true
  | .feed _ _ => true
  | .augmentationRead _ _ _ _ => true
  | .ship _ _ => true
  | .endNotice _ _ => true
  | .endMark _ _ _ => true
  | .windowClose _ _ => true
  | .migrationHold _ _ => true
  | .migrationSwap _ _ _ => true
  | .migrationAbandon _ _ _ => true
  | .slotFree _ => true
  | .versionReclaim _ _ => true
  | .dictLoad _ => true
  | .dictUnload _ => true
  | .dictUnloadEdge _ => true
  | .hello _ => true
  | .sessionInit _ => true
  | .sessionConfirm _ => true
  | .sessionClose _ => true
  | .read _ => true
  | .write _ => true
  | .blockOpen _ => true
  | .blockData _ => true
  | .blockCommit _ => true
  | .blockAbort _ => true
  | .store _ => true
  | .restoreDefaults _ => true
  | .subscribe _ => true
  | .eventAck _ => true
  | .event cause _ _ => cause < 14
  | .eventRetry _ => true
  | .bopMalformed _ => true
  | .confirmTimeout _ => true
  | .sessionIdle _ => true
  | .lockExpiry _ => true
  | .keySlotWrite _ => true
  | .beacon => true
  | .beaconTimeout => true
  | .transmitOpportunity => true
  | .telemetryPeriod _ => true
  | .debugUartEnable _ => true
  | .lcRequest _ => true
  | .svnCommit _ => true
  | .attestNonce _ => true
  | .debugUnlock _ => true
  | .debugToken _ => true
  | .boot => true
  | .fruRead _ _ => true
  | .sample _ _ _ => true
  | .intervalClose => true
  | .recordCommit => true
  | .checkpoint => true
  | .finalCheckpoint => true
  | .scalerPowerUp => true
  | .workFrameSend => true
  | .workFrame _ => true
  | .statusFrame => true
  | .recordLinkFrame _ => true
  | .sealChange => true
  | .serviceWrite index sub _ => index < 2 ^ 16 && sub < 2 ^ 8
  | .serviceRead index sub _ _ => index < 2 ^ 16 && sub < 2 ^ 8
  | .xoQualified => true
  | .ioscQualified => true
  | .referenceSwitch => true
  | .monitorTrip _ => true
  | .pllUnlock => true
  | .pllRelock => true
  | .watchdog => true
  | .sysRequest _ => true
  | .coreRequest _ => true
  | .jtag => true
  | .resetAssert _ => true
  | .porRelease adc => adc < 1024
  | .coreRelease _ => true
  | .blockReset _ => true
  | .blockResetClean _ => true
  | .quiesceTicks _ => true
  | .run _ => true
  | .sleep _ => true
  | .deepSleep _ => true
  | .deepSleepEntry => true
  | .deepSleepRefused => true
  | .wake source => source < 4
  | .gateRun _ => true
  | .unitGated _ => true
  | .mclkDiv _ => true
  | .standbyOn => true
  | .switchClose => true
  | .undervoltage => true
  | .overvoltage => true
  | .breaker => true
  | .mate => true
  | .powerSample _ => true
  | .fastLimiter _ => true
  | .pwrBrake _ => true
  | .thermalThrottle => true
  | .thermTrip die _ => die ≤ 40
  | .tripRelease => true
  | .mboxGo _ value => value < 2 ^ 32
  | .hostLinkUp _ rate width => 1 ≤ rate && rate ≤ 6 && [1, 2, 4, 8].contains width
  | .subportLinkLoss _ _ => true
  | .standbyLoss => true
  | .fastLimiterRelease _ => true
  | .firmwareWritten _ => true
  | .laneFrameEnd lane => lane < 8
  | .beaconTransmit => true

end Sys2Proof
end

