-- ==== Sys2Proof/Certificates/Slice0/Obligations.lean ====
section
/-!
DEFINITION. The statements about the block.
-/
open Sys2Proof Sys2Proof.Machine

/-! ### The queue -/

/-- A step runs the command at the front of the queue on the state with the queue's rest. -/
def Obligations.StepRunsTheFrontCommand : Prop :=
  ∀ (c : Instr) (rest : List Instr) (s : State), step { s with pending := c :: rest } = exec c { s with pending := rest }

/-- With no command waiting the block idles: the model's own choice (log entry 1). -/
def Obligations.EmptyQueueIdles : Prop := ∀ s : State, s.pending = [] → step s = .next s

/-- Every command that can exist completes with a next state; the one that cannot is a fetch turn of more than 8
entries. -/
def Obligations.WellFormedCommandsComplete : Prop :=
  (∀ (c : Instr) (s : State), c.wf = true → ∃ t, exec c s = .next t) ∧
  (∀ (p : PortNo) (r : RingNo) (es : List Entry) (s : State), 8 < es.length → exec (.fetchTurn p r es) s = .fault .illFormed)

/-! ### Invariants of every step -/

/-- Every step keeps vault memory and the landing buffer in canonical form. -/
def Obligations.StepKeepsMemoryCanonical : Prop := ∀ s t : State, s.Canon → step s = .next t → t.Canon

/-- Memory is in canonical form at reset, where nothing is listed. -/
def Obligations.ResetMemoryCanonical : Prop :=
  State.reset.Canon ∧ (∀ a, State.reset.byte a = 0) ∧ State.reset.pending = [] ∧ State.reset.now = 0

/-- A step takes the front command from the queue and leaves the rest as it stands: no command commands another. -/
def Obligations.StepTakesOnlyTheFront : Prop := ∀ s t : State, step s = .next t → t.pending = s.pending.tail

/-- Nothing that has left the module is taken back, and no free value is used twice: the log of output only grows, and so
does the count of free values. -/
def Obligations.OutputIsNeverTakenBack : Prop :=
  ∀ s t : State, step s = .next t → (∃ new, t.out = new ++ s.out) ∧ s.fresh ≤ t.fresh

/-- Fuses do not unburn: no command lowers SVN_MIN. -/
def Obligations.SecurityVersionNeverFalls : Prop := ∀ s t : State, step s = .next t → s.nv.svnMin ≤ t.nv.svnMin

/-- Only the scaler's own events change the scaler: no command of a host, of the network, of port M or of a reset of the
main die does. -/
def Obligations.ScalerStandsApart : Prop :=
  ∀ (c : Instr) (s t : State), c.ofScaler = false → exec c s = .next t → t.scl = s.scl

/-- The commands that store nothing leave every byte of vault memory and of the landing buffer as it was. -/
def Obligations.OthersLeaveMemoryAlone : Prop :=
  ∀ (c : Instr) (s t : State), c.mayStore = false → exec c s = .next t →
    (∀ a, t.byte a = s.byte a) ∧ ∀ a, lookD t.lbuf a 0 = lookD s.lbuf a 0

/-! ### What an answer changes -/

/-- A completion and an answer change the ports, the outstanding commands, the management port, what has left the module
and three counters; nothing else. -/
def Obligations.AnswersChangeOnlyTheirPath : Prop :=
  (∀ (s : State) (id : Nat) (st : Status) (r : Nat), s.Told (s.finish id st r)) ∧
  (∀ (s : State) (r : Reply) (st : Status) (b : Bytes), s.Told (s.respond r st b)) ∧
  (∀ (s : State) (what : Await) (arg : Nat) (st : Status), s.Told (s.answer what arg st))

/-- A request that is carried out, and a write that comes to its object, have changed only the management port so far; the
object is one that the row owns. -/
def Obligations.AcceptedRequestsTouchOnlyTheirSession : Prop :=
  (∀ (s t : State) (m : BopMsg) (op : Nat → Bool) (w : Writer) (x : Bop), s.intake m op = .go w x t →
    t = { s with mgmt := t.mgmt } ∧ op x.op = true) ∧
  (∀ (s t : State) (acc : Access) (own : Nat × Nat → Bytes → Bool) (w : Writer) (v : Bytes), s.arrive acc own = .go w v t →
    t = { s with mgmt := t.mgmt } ∧ own (w.idx, w.sub) v = true)

/-! ### Host ports -/

/-- NOP and FENCE.  R126: an all-zero body completes with OK and RESULT 0, any other with BAD_DESCRIPTOR, and no queue of a
partition is entered.  A FENCE with commands before it in its scope waits for exactly those; with none it completes. -/
def Obligations.NopAndFence : Prop :=
  (∀ (s : State) (id : Nat) (c : Cmd), s.cmd? id = some c → c.opcode = 1 → c.stage = .fetched →
    ∃ t, exec (.nop id) s = .next t ∧ t = s.finish id (if c.f 511 64 = 0 then .ok else .badDescriptor) 0 ∧
      t.parts = s.parts ∧ t.engines = s.engines ∧ t.cores = s.cores) ∧
  (∀ (s : State) (id : Nat) (c : Cmd), s.cmd? id = some c → c.opcode = 2 → c.stage = .fetched →
    c.f 65 64 ≠ 3 → c.f 511 66 = 0 →
    exec (.fence id) s = .next (if s.fenceScope c (c.f 65 64) = [] then s.finish id .ok 0
      else s.setCmd { c with stage := .waiting, waits := s.fenceScope c (c.f 65 64),
                             waited := (s.fenceScope c (c.f 65 64)).length }))

/-- Doorbells.  A tail in range makes the entries up to it pending, one out of range sets ERROR and RING_ERROR, and one to a
ring that is disabled or in ERROR is discarded and counted.  A head in range, with nothing held, moves HEAD.
It rests, in part, on R114, R122. -/
def Obligations.DoorbellsMoveTheirRings : Prop :=
  (∀ (s : State) (p : PortNo) (r : RingNo) (v : Nat),
    ((s.port p.val).cmdRing r.val).enable = true → ((s.port p.val).cmdRing r.val).error = false →
    v < 2 ^ ((s.port p.val).cmdRing r.val).sizeLog2 →
    exec (.tailDoorbell p r v) s =
      .next (s.setRing p.val r.val { (s.port p.val).cmdRing r.val with tail := v, stalled := none })) ∧
  (∀ (s : State) (p : PortNo) (r : RingNo) (v : Nat),
    ((s.port p.val).cmdRing r.val).enable = true → ((s.port p.val).cmdRing r.val).error = false →
    2 ^ ((s.port p.val).cmdRing r.val).sizeLog2 ≤ v →
    exec (.tailDoorbell p r v) s =
      .next ((s.setRing p.val r.val { (s.port p.val).cmdRing r.val with error := true }).portEvent p.val evRingError)) ∧
  (∀ (s : State) (p bit : Nat), bit < 32 → bitOf ((s.portEvent p bit).port p).eventCause bit = true) ∧
  (∀ (s : State) (p : PortNo) (r : RingNo) (v : Nat),
    ((s.port p.val).cmdRing r.val).enable = false ∨ ((s.port p.val).cmdRing r.val).error = true →
    exec (.tailDoorbell p r v) s =
      .next (s.setPort p.val { s.port p.val with barDiscards := satAdd 0xFFFFFFFF (s.port p.val).barDiscards 1 })) ∧
  (∀ (s : State) (p : PortNo) (r : RingNo) (v : Nat),
    ((s.port p.val).cplRing r.val).enable = true → ((s.port p.val).cplRing r.val).held = [] →
    v < 2 ^ ((s.port p.val).cplRing r.val).sizeLog2 →
    exec (.headDoorbell p r v) s = .next (s.setCpl p.val r.val { (s.port p.val).cplRing r.val with
      head := v,
      consumed := ((s.port p.val).cplRing r.val).consumed +
        (v + 2 ^ ((s.port p.val).cplRing r.val).sizeLog2 - ((s.port p.val).cplRing r.val).head) %
          2 ^ ((s.port p.val).cplRing r.val).sizeLog2 }))

/-- BAR0.  A read of TICK_LO latches the tick counter and returns its low half; a 4-byte write of EVENT_MASK takes effect;
a ring table takes the words a write covers; enabling a ring with fields in range starts it at index 0, a completion ring
with PHASE 1; GO of an idle mailbox queues its message.
It rests, in part, on R111, R112, R113, R122, R132. -/
def Obligations.PortRegistersTakeTheirWrites : Prop :=
  (∀ (s : State) (p : PortNo), exec (.tickLoRead p) s =
    .next ((s.setPort p.val { s.port p.val with tickLatch := s.now }).emit (.readData p.val (s.now % 2 ^ 32)))) ∧
  (∀ (s : State) (p : PortNo) (v : Nat), v < 2 ^ 32 →
    exec (.bar0Write p 0x01C 4 v) s = .next (s.setPort p.val { s.port p.val with eventMask := v })) ∧
  (∀ (s : State) (p : PortNo) (off size v : Nat), barAccess off size = true → 0x4000 ≤ off → off < 0x6000 →
    exec (.commandRingTableWrite p off size v) s =
      .next (s.writeCmdRing p.val ((off - 0x4000) / 32) (coveredWords off size v))) ∧
  (∀ (s : State) (p r v : Nat), ((s.port p).cmdRing r).enable = false → ((s.port p).cmdRing r).error = false →
    ((s.port p).cmdRing r).base % 4096 = 0 → bitOf v 16 = true → 4 ≤ bitsOf v 7 0 → bitsOf v 7 0 ≤ 16 →
    ((s.port p).cplRing (bitsOf v 15 8)).enable = true →
    s.writeCmdRing p r [(2, v)] = s.setRing p r { (s.port p).cmdRing r with
      sizeLog2 := bitsOf v 7 0, cq := bitsOf v 15 8, latFetch := bitOf v 17, enable := true, head := 0, tail := 0,
      fetched := 0, stalled := none }) ∧
  (∀ (s : State) (p : PortNo) (off size v : Nat), barAccess off size = true → 0x6000 ≤ off → off < 0x8000 →
    exec (.completionRingTableWrite p off size v) s =
      .next (s.writeCplRing p.val ((off - 0x6000) / 32) (coveredWords off size v))) ∧
  (∀ (s : State) (p r v : Nat), ((s.port p).cplRing r).enable = false → ((s.port p).cplRing r).error = false →
    ((s.port p).cplRing r).base % 4096 = 0 → ((s.port p).cplRing r).modCount ≤ 4096 → bitOf v 8 = true → bitOf v 10 = false →
    8 ≤ bitsOf v 7 0 → bitsOf v 7 0 ≤ 16 →
    s.writeCplRing p r [(2, v)] = s.setCpl p r { (s.port p).cplRing r with
      sizeLog2 := bitsOf v 7 0, timerEn := false, vector := bitsOf v 26 16, enable := true, tail := 0, head := 0,
      phase := true, since := 0, oldest := none, written := 0, consumed := 0 }) ∧
  (∀ (s : State) (p : PortNo) (v : Nat), (s.port p.val).mboxBusy = false → bitOf v 0 = true →
    exec (.mboxGo p v) s = .next { s.setPort p.val { s.port p.val with mboxDone := false, mboxBusy := true } with
      mgmt := { s.mgmt with mailboxes := s.mgmt.mailboxes ++ [.mbox p] } })

/-- Fetching.  The ring whose turn it is takes the entries read, one after another; a failed read of entries, and one of a
command's data, set the fault registers, count and report.
It rests, in part, on R115, R130. -/
def Obligations.FetchingAndItsFaults : Prop :=
  (∀ (s : State) (p : PortNo) (r : RingNo) (es : List Entry), es.length ≤ 8 → s.mayFetch p.val = true →
    (s.port p.val).turn = some r.val → ((s.port p.val).cmdRing r.val).latFetch = false →
    exec (.fetchTurn p r es) s = .next (State.takeTurn 8 (s.setPort p.val { s.port p.val with lastRing := r.val }) p.val r.val
      (es.take ((s.port p.val).cmdRing r.val).pending))) ∧
  (∀ (s : State) (p ring : Nat) (e : Entry), bitsOf e.toNat 7 0 ≠ 0x28 → s.outstanding p < 4096 →
    1 ≤ ((s.port p).cmdRing ring).pending → State.takeTurn 8 s p ring [e] = s.take p ring e []) ∧
  (∀ (s : State) (p : PortNo) (r : RingNo) (a : Nat), s.mayFetch p.val = true →
    ((s.port p.val).cmdRing r.val).fetchable = true →
    exec (.fetchReadFailed p r a) s = .next ((((s.setRing p.val r.val { (s.port p.val).cmdRing r.val with error := true }).dmaFault
      p.val a .linkRetryExhausted r.val 0).portEvent p.val evRingError).emit (.aer p.val))) ∧
  (∀ (s : State) (id a : Nat) (c : Cmd), s.control id 0x10 = some c → inRange (c.f 127 64, c.f 159 128) a = true →
    c.hostRanges = [(false, c.f 127 64, c.f 159 128)] → s.loadEarly c = .ok →
    exec (.dmaReadFailed id a) s = .next ((((s.dmaFault c.port a .linkRetryExhausted c.ring c.tag).emit
      (.aer c.port)).finish c.id .linkRetryExhausted 0xFFFF)))

/-- Moderation, replays, Bus Master Enable, configuration requests and the end of link training.
It rests, in part, on R124, R131, R135, R138. -/
def Obligations.PortEventsHaveTheirEffect : Prop :=
  (∀ (s : State) (p : PortNo) (r : RingNo) (t : Nat), ((s.port p.val).cplRing r.val).oldest = some t →
    ((s.port p.val).cplRing r.val).enable = true → ((s.port p.val).cplRing r.val).timerEn = true →
    ((s.port p.val).cplRing r.val).modTicks ≤ s.since t →
    exec (.modTicks p r) s = .next ((s.setCpl p.val r.val { (s.port p.val).cplRing r.val with since := 0, oldest := none }).msix
      p.val ((s.port p.val).cplRing r.val).vector)) ∧
  (∀ (s : State) (p v : Nat), (s.port p).canSend v = true → s.msix p v = s.emit (.msix p v)) ∧
  (∀ (s : State) (p : PortNo), exec (.pcieReplay p) s =
    .next ((s.bump (at_ Ob.REPLAYS p.val)).noteBreak 3 p.val)) ∧
  (∀ (s : State) (p : PortNo), exec (.busMasterEnable p false) s = .next (s.setPort p.val { s.port p.val with bme := false })) ∧
  (∀ (s : State) (p : PortNo), (s.port p.val).waiting = [] → (s.port p.val).cplRings = [] → (s.port p.val).msixPending = [] →
    exec (.busMasterEnable p true) s = .next (s.setPort p.val { s.port p.val with bme := true, waiting := [] })) ∧
  (∀ (s : State) (p : PortNo) (q : ConfigReq), (s.port p.val).linkUp = true → (s.port p.val).retry = true →
    exec (.configRequest p q) s = .next (s.emit (.configAnswer p.val true))) ∧
  (∀ (s : State) (p : PortNo) (b : Bool), (s.port p.val).linkUp = true → (s.port p.val).retry = false →
    exec (.configRequest p (.setD0 b)) s = .next ((s.setPort p.val { s.port p.val with d0 := b }).emit (.configAnswer p.val false))) ∧
  (∀ (s : State) (p : PortNo) (rate width : Nat), (s.port p.val).perst = false → s.boot.released = true →
    s.clk.asleep = false → (s.port p.val).linkUp = false → 1 ≤ rate → rate ≤ 6 → [1, 2, 4, 8].contains width = true →
    exec (.hostLinkUp p rate width) s = .next
      (if s.get (at_ Ob.LINK_RATE p.val) = rate
        then (((s.setPort p.val { s.port p.val with linkUp := true, hotReset := false, disabled := false }).put
          (at_ Ob.LINK_RATE p.val) rate).put (at_ Ob.LINK_WIDTH p.val) width).settleRetry
        else ((((s.setPort p.val { s.port p.val with linkUp := true, hotReset := false, disabled := false }).put
          (at_ Ob.LINK_RATE p.val) rate).put (at_ Ob.LINK_WIDTH p.val) width).occur 8 0xFF rate).settleRetry))

/-- The events of Table 5.11 that PERST#, hot reset, link disable, FLR and a link loss are: the link drops where it does, the
port's registers and commands are cleared, and the partition resets or keeps its work.
It rests, in part, on R133, R135. -/
def Obligations.PortResetsFollowTheirTable : Prop :=
  (∀ (s : State) (p : PortNo), (s.port p.val).perst = false →
    exec (.perstAssert p) s = .next ((((s.dropLink p.val).clearPort p.val).setPort p.val
      { ((s.dropLink p.val).clearPort p.val).port p.val with perst := true, hotReset := false, disabled := false }).hostReset
        p.val 0x30)) ∧
  (∀ (s : State) (p : PortNo), (s.port p.val).perst = true →
    exec (.perstRelease p) s = .next (s.setPort p.val { s.port p.val with
      perst := false, retry := true, refclk := s.get (at_ Ob.REFCLK_MODE p.val) })) ∧
  (∀ (s : State) (p : PortNo), (s.port p.val).linkUp = true →
    exec (.hotReset p) s = .next ((((s.dropLink p.val).clearPort p.val).setPort p.val
      { ((s.dropLink p.val).clearPort p.val).port p.val with hotReset := true }).hostReset p.val 0x31)) ∧
  (∀ (s : State) (p : PortNo), (s.port p.val).linkUp = true →
    exec (.linkDisable p) s = .next ((((s.dropLink p.val).clearPort p.val).setPort p.val
      { ((s.dropLink p.val).clearPort p.val).port p.val with disabled := true }).hostReset p.val 0x33)) ∧
  (∀ (s : State) (p : PortNo), (s.port p.val).linkUp = true →
    exec (.flr p) s = .next ((s.clearPort p.val).hostReset p.val 0x32)) ∧
  (∀ (s : State) (p : PortNo), (s.port p.val).linkUp = true →
    exec (.linkDown p) s = .next (((s.dropLink p.val).clearPort p.val).closeOwned p.val)) ∧
  (∀ (s : State) (p : Nat), (s.port p).linkUp = true → p < 2 →
    ((s.dropLink p).port p).linkUp = false ∧ (s.dropLink p).get (at_ Ob.LINK_RATE p) = 0 ∧
      (s.dropLink p).get (at_ Ob.LINK_WIDTH p) = 0) ∧
  (∀ (s : State) (p : Nat), ((s.clearPort p).port p).cmdRings = [] ∧ ((s.clearPort p).port p).cplRings = [] ∧
    ((s.clearPort p).port p).windows = [] ∧ ((s.clearPort p).port p).eventCause = 0)

/-! ### Flows -/

/-- Opening and closing.  A FLOW_OPEN that passes the checks of R82 opens its flow where a context can be resident, with the
owner, class and kernel its image names and no items; an image within the rules passes the checks.  A FLOW_CLOSE marks the
flow and releases its queue; a closing flow that holds nothing is gone.
It rests, in part, on R82, R83. -/
def Obligations.FlowsOpenAndClose : Prop :=
  (∀ (s t : State) (acc : Access) (w : Writer) (v : Bytes) (p : Nat), s.arrive acc (isKey Ob.FLOW_OPEN) = .go w v t →
    t.div.flowPart (leAt v 0 4) = p → t.openCheck w.owner w.part v = .ok → t.canRefill p = true →
    exec (.flowOpen acc) s =
      .next ((t.openFlow p (leAt v 0 4) (leNat (sliceB v 4 64)) w.owner false).respond w.reply .ok)) ∧
  (∀ (s : State) (id v p : Nat) (b : Bytes), leAt b 0 4 = id → leNat (sliceB b 4 64) = v → id < 262144 →
    s.div.flowPart id = p → ctxField v 4 3 ≠ 2 → s.ctxForm p id v = true → ctxModes v = true → s.flow? p id = none →
    (∀ e ∈ (s.part p).waits, e.1 ≠ id) → s.openCheck 0 0 b = .ok) ∧
  (∀ (v owner now : Nat) (hold : Bool), (flowOf v owner hold now).items = [] ∧ (flowOf v owner hold now).owner = owner ∧
    (flowOf v owner hold now).hold = hold ∧ (flowOf v owner hold now).closing = false ∧
    (flowOf v owner hold now).cls = classOf (ctxField v 4 3) ∧ (flowOf v owner hold now).kernel = ctxField v 55 40) ∧
  (∀ (s t u : State) (acc : Access) (w : Writer) (v : Bytes) (x : Flow) (p : Nat),
    s.arrive acc (isKey Ob.FLOW_CLOSE) = .go w v t → w.isHost = false → t.div.flowPart (leNat v) = p →
    (t.flow? p (leNat v)).isSome = true → t.touch p (leNat v) = some u → u.flow? p (leNat v) = some x →
    x.closing = false → x.queued = [] →
    exec (.flowClose acc) s = .next (((u.setFlow p (leNat v) { x with closing := true }).closeIfDrained p
      (leNat v)).respond w.reply .ok)) ∧
  (∀ (s : State) (p f : Nat) (x : Flow), s.flow? p f = some x → x.closing = true → x.isDrained = true →
    s.closeIfDrained p f = (s.setPart p { s.part p with flows := dropAt (s.part p).flows f }).flowGauges p)

/-- Contexts and items come back.  A context that is not resident is refilled into a free entry of the store; up to 64 items
of the yard move to the pool, in SEQ order; the first stalled enqueue that finds space goes in at its flow's end.
It rests, in part, on R99, R101, R102. -/
def Obligations.ContextsAndItemsRefill : Prop :=
  (∀ (s : State) (f : FlowNo) (x : Flow) (p : Nat), s.div.flowPart f.val = p → (∀ e ∈ (s.part p).waits, e.1 ≠ f.val) →
    s.flow? p f.val = some x → x.resident = false →
    ((s.part p).flows.filter (·.2.resident)).length < s.div.residentMax p →
    (s.free.2.vaultRead srcBulk (s.free.2.div.homeAddr p f.val) 64).1.isSome = true →
    ∃ (t : State) (i : Nat), exec (.contextRefill f) s = .next t ∧
      t.flow? p f.val = some { x with resident := true, store := i, lastUse := s.now }) ∧
  (∀ (s : State) (f : FlowNo) (x : Flow) (p : Nat), s.div.flowPart f.val = p → s.flow? p f.val = some x →
    (x.queued.filter (·.place == .pool)).length < 32 → x.queued.any (·.place == .yard) = true →
    exec (.itemRefill f) s = .next ((((x.queued.filter (·.place == .yard)).take
      (min 64 (s.div.generalPool p - (s.part p).inPlace .pool))).foldl (fun t it => t.moveEntry p f.val it.seq) s).flowGauges p)) ∧
  (∀ (s : State) (p f seq : Nat) (x : Flow) (it : Item), s.flow? p f = some x → x.queued.find? (·.seq == seq) = some it →
    (s.readEntry p it).1 = true → ∃ e, (s.moveEntry p f seq).flow? p f =
      some { x with queued := x.queued.map fun y => if y.seq = seq then { it with place := .pool, entry := e } else y }) ∧
  (∀ (s t : State) (p : PartNo) (e : Nat × Item) (rest : List (Nat × Item)), (s.part p.val).stalled = e :: rest →
    (s.setPart p.val { s.part p.val with stalled := rest }).enqueueNow p.val e.1 e.2 = (some .ok, t) →
    exec (.enqueueResume p) s = .next t) ∧
  (∀ (s t : State) (p f : Nat) (it : Item) (x y : Flow), s.flow? p f = some x → x.closing = false → s.touch p f = some t →
    t.flow? p f = some y → y.closing = false → t.placeFor p y = some .pool → ∃ (e : Nat) (u : State), s.enqueueNow p f it = (some .ok, u) ∧
      u.flow? p f = some { y with queued := y.queued ++ [{ it with seq := y.nextSeq, place := .pool, entry := e }],
                                  nextSeq := (y.nextSeq + 1) % 2 ^ 32, lastTick := t.now % 65536 })

/-- Dispatch.  The oldest item that a unit may run is issued to it where the rules of dispatch let the flow be served, and
leaves its flow's queue for the items in flight; an idle core starts it, a busy core holds it loaded, and an engine queues it.
It rests, in part, on R86. -/
def Obligations.DispatchIssuesTheOfferedItem : Prop :=
  (∀ (s t u : State) (f : FlowNo) (seq unit p : Nat) (x y : Flow) (kn : Kernel) (it : Item),
    s.div.flowPart f.val = p → s.flow? p f.val = some x → s.kernelOf x = some kn → s.offer p x kn.kind = some it →
    it.seq = seq → it.stopped = false → s.fits p x kn.kind it unit = true →
    s.mayServe p kn.kind unit f.val x.cls x.prio = true → s.touch p f.val = some t → t.flow? p f.val = some y →
    y.failed = false → t.readEntry p it = (true, u) →
    exec (.itemDispatch f seq unit) s = .next (
      (if y.cls = .bulk then u.noteTurn p kn.kind unit f.val y.prio else u).dispatch p f.val y kn.kind unit
        ((if y.cls = .bulk then u.noteTurn p kn.kind unit f.val y.prio else u).withVersions p it))) ∧
  (∀ (s : State) (p f u : Nat) (x : Flow) (k : UnitKind) (it : Item), it.begun = false →
    (s.issue p f x k u it).flow? p f = some { x with
      queued := x.queued.filter (·.seq != it.seq),
      running := x.running ++ [{ it with start := s.now % 65536, begun := true, unit := u }],
      lastTick := s.now % 65536, lastUse := s.now }) ∧
  (∀ (s : State) (p u f q : Nat), s.slots u = (.empty, .empty) →
    s.place p .core u f q = s.setSlots u (.running f q, .empty)) ∧
  (∀ (s : State) (p u f q g r : Nat), s.slots u = (.running g r, .empty) →
    s.place p .core u f q = (s.setSlots u (.running g r, .loaded f q)).prefetch u 1 p f q) ∧
  (∀ (s : State) (p : Nat) (k : UnitKind) (u f q : Nat), k ≠ .core →
    s.place p k u f q = s.setEngine k u (s.engine k u ++ [(f, q)])) ∧
  (∀ (s : State) (p : Nat) (x : Flow) (k : UnitKind) (it : Item), s.offer p x k = some it → x.mode = .strict →
    x.queued.head? = some it)

/-- Completion and release.  An item whose work is done leaves its unit and its flow.  An unordered flow releases it at
once; an ordered-release flow releases it in its place, with every held item that follows it in unbroken order, and holds one
whose turn has not come.  The record at the front of an update lane that runs leaves it and is applied.
It rests, in part, on R92. -/
def Obligations.CompletionReleasesInOrder : Prop :=
  (∀ (s t u : State) (f : FlowNo) (seq p : Nat) (x y : Flow), s.div.flowPart f.val = p → s.flow? p f.val = some x →
    (s.completeNow p f.val seq x).isSome = true → s.touch p f.val = some t → t.flow? p f.val = some y →
    t.completeNow p f.val seq y = some u → exec (.itemCompletion (.item f seq)) s = .next u) ∧
  (∀ (s t u : State) (p f seq : Nat) (x : Flow) (kn : Kernel) (it it' : Item), x.failed = false →
    (∀ y ∈ x.queued, y.seq ≠ seq) → x.inFlight? seq = some it → s.kernelOf x = some kn → it.seq = seq →
    s.onUnit kn.kind it.unit p f seq = true → it.status = .ok → s.workServed p x it = true → s.nextFlow p f x = none →
    s.readScratch p kn it.unit = (true, t) → t.itemWork p f x kn it = some (it', u) →
    s.completeNow p f seq x = some (u.endItem p f it' true)) ∧
  (∀ (s : State) (core : CoreNo) (lane : LaneNo) (r : LaneRec) (rest : List LaneRec),
    (s.lane core.val lane.val).queue = r :: rest → (s.lane core.val lane.val).hold = none →
    s.laneRuns core.val (s.lane core.val lane.val) = true →
    exec (.itemCompletion (.lane core lane)) s =
      .next ((s.setLane core.val lane.val { s.lane core.val lane.val with queue := rest, hold := none }).applyRec r)) ∧
  (∀ (x : Flow) (it : Item), x.mode = .unordered → x.complete it = ([it.released], (x.remove it.seq).count it)) ∧
  (∀ (x : Flow) (it : Item), x.mode = .ordered → x.held = [] → it.seq = x.releaseSeq → x.complete it =
    ([it.released], ({ x.remove it.seq with held := [], releaseSeq := (x.releaseSeq + 1) % 2 ^ 32 } : Flow).count it)) ∧
  (∀ (x : Flow) (it : Item), x.mode = .ordered → it.seq ≠ x.releaseSeq → (∀ y ∈ x.held, y.seq ≠ x.releaseSeq) →
    x.complete it = ([], { x.remove it.seq with held := x.held ++ [it] }))

/-- Slots, the slow lane and late items.  A bolt's end frees its slot and the core changes to its other one, parked before
loaded; an in-flight item at its soft budget goes to the slow lane and gives up its unit; one at its hard limit becomes a hole
with LATE; a pending change of HOLD is made.
It rests, in part, on R89, R93, R94, R96. -/
def Obligations.BoltsSlowItemsAndHolds : Prop :=
  (∀ (s : State) (c : CoreNo) (f q : Nat) (y : Slot), s.slots c.val = (.running f q, y) → s.alive (.running f q) = false →
    exec (.boltEnd c) s = .next (s.setSlots c.val (switchSlots (.empty, y)))) ∧
  (∀ f q : Nat, switchSlots (.empty, .parked f q) = (.empty, .running f q) ∧
    switchSlots (.empty, .loaded f q) = (.empty, .running f q) ∧ switchSlots (.empty, .empty) = (.empty, .empty)) ∧
  (∀ (s : State) (f : FlowNo) (seq p : Nat) (x : Flow) (it : Item) (kn : Kernel), s.div.flowPart f.val = p →
    s.flow? p f.val = some x → x.running.find? (·.seq == seq) = some it → s.kernelOf x = some kn → kn.kind ≠ .core →
    x.mode = .ordered → x.softBudget ≤ s.age it →
    exec (.slowLane f seq) s = .next (((s.setFlow p f.val { x with
      running := x.running.filter (·.seq != seq),
      slow := x.slow ++ [{ it with slow := true, stopped := true, spilled := false }] }).unplace kn.kind it.unit f.val seq).bump
        (at_ Ob.SLOW_ENTRIES p))) ∧
  (∀ (s : State) (f : FlowNo) (seq p : Nat) (x : Flow) (it : Item) (kn : Kernel), s.div.flowPart f.val = p →
    s.flow? p f.val = some x → x.running.find? (·.seq == seq) = some it → s.kernelOf x = some kn → kn.kind = .core →
    s.notStarted it.unit f.val seq = false → x.mode = .ordered → x.softBudget ≤ s.age it →
    exec (.slowLane f seq) s = .next (((((s.setFlow p f.val { x with
      running := x.running.filter (·.seq != seq),
      slow := x.slow ++ [{ it with slow := true, stopped := true, spilled := true }] }).unplace .core it.unit f.val seq).bump
        (at_ Ob.SLOW_ENTRIES p)).freshen (s.div.slotSpill p it.unit) slotSpillBytes).bump (at_ Ob.SLOT_SPILLS p))) ∧
  (∀ (s : State) (f : FlowNo) (seq p : Nat) (x : Flow) (it : Item), s.div.flowPart f.val = p → s.flow? p f.val = some x →
    (x.queued.filter (·.begun) ++ x.running ++ x.slow).find? (·.seq == seq) = some it → x.mode = .ordered →
    x.hardLimit ≤ s.age it →
    exec (.lateDrop f seq) s = .next ((s.bump (at_ Ob.LATE_DROPS p)).endItem p f.val { it with status := .late } false)) ∧
  (∀ (s t : State) (f : FlowNo) (p : Nat) (e : Nat × Bool × Nat) (x : Flow), s.div.flowPart f.val = p →
    (s.part p).holds.find? (fun e => e.1 == f.val && decide (s.since e.2.2 < 2 ^ 47)) = some e →
    s.touch p f.val = some t → t.flow? p f.val = some x →
    exec (.hold f) s = .next (((t.setPart p { t.part p with holds := (t.part p).holds.erase e }).unblock p f.val
      (2 ^ 32)).setFlow p f.val { x with hold := e.2.1 }))

/-- Ends of work.  A stage whose marks have all come, with its flow clear, passes on, and the last sink's end completes the
run.  The edge of a PIPE_STOP ends the work of its image, whose operator state is gone, and completes the command with the
number of items its flows held; where the image is absent it completes with 0.  The edge of a TABLE_DROP leaves no version in
service and completes the command.
It rests, in part, on R242, R246, R303. -/
def Obligations.StagesImagesAndTablesEnd : Prop :=
  (∀ (s : State) (p : PartNo) (h : HandleNo) (stage : Nat) (im : Image) (r : GraphRun) (g : Graph) (st : GraphStage)
      (y : StageRun) (x : Flow),
    look (s.part p.val).images h.val = some im →
    (s.part p.val).runs.find? (fun r => r.handle == h.val && r.index == stage / 256) = some r →
    im.content.graphs.find? (fun g => g.index == stage / 256) = some g → g.stages[stage % 256]? = some st →
    r.stages[stage % 256]? = some y → s.flow? p.val (im.flowBase + st.inFlow) = some x → x.clearBefore y.last = true →
    x.hold = false → y.ended = false → s.marksDue p.val im g r st ≤ y.marks →
    exec (.endMark p h stage) s =
      .next (s.passStage p.val (im.flowBase + st.inFlow) h.val im g (stage / 256) (stage % 256) st y)) ∧
  (∀ (s : State) (p : Nat) (im : Image) (g : Graph) (r : GraphRun),
    ((g.stages.zip r.stages).filter fun y => isSink im g y.1).all (·.2.ended) = true →
    s.endRun p im g r = ((s.setPart p { s.part p with
      runs := (s.part p).runs.filter fun x => !(x.handle == r.handle && x.index == r.index) }).finish r.cmd .ok
        ((g.stages.zip r.stages).filter fun y => isSink im g y.1).length).askHold p
          (s.graphFlows p im g) true) ∧
  (∀ (s : State) (p : PartNo) (id h : Nat) (b : Bool), (s.part p.val).stop = some (id, h, b) →
    look (s.part p.val).images h = none →
    exec (.pipeStopEdge p) s = .next ((s.setPart p.val { s.part p.val with stop := none }).finish id .ok 0)) ∧
  (∀ (s : State) (p : PartNo) (id h : Nat) (im : Image), (s.part p.val).stop = some (id, h, false) →
    look (s.part p.val).images h = some im → (∀ e ∈ (s.part p.val).epochs, e.2.handle ≠ h) →
    ∃ t : State, exec (.pipeStopEdge p) s = .next (t.finish id .ok (min (((span im.flowBase im.nFlows).filter
        fun f => (s.flow? p.val f).isSome).map (s.flowLoad p.val)).sum 0x7FFFFFFF)) ∧
      ∀ o ∈ (t.part p.val).ops, o.handle ≠ h) ∧
  (∀ (s : State) (p : PartNo) (table id : Nat) (t : Table), s.table? p.val table = some t → t.drop = some id →
    ∃ (u : State) (x : Table), exec (.tableDropEdge p table) s = .next ((u.setTable p.val x).finish id .ok 0) ∧
      x.dropped = true ∧ x.drop = none ∧ ∀ v ∈ x.versions, v.state = .retiring)

/-! ### Time -/

/-- The tick edge, the look-up share and the deadline.  An edge of a device whose clocks run brings every part of the block one
tick on: the counter goes up by one modulo 2^48, the look-up counts begin again, and SESSION_IDLE and BOP_UDP_PORT are in use as
they stand.  LAT_SHARE takes a value of 0 to 50, which
comes into force at the second edge: at 0 the share applies.  At the deadline edge the due requests are marked, one whose
completion is held with DEADLINE in its place, and counted.
It rests, in part, on R33, R40, R51. -/
def Obligations.TickEdgesSharesAndDeadlines : Prop :=
  (∀ s t : State, s.clocked = true →
    s.rollLookups.stepCounter.stepPeriod.stepDelays.stepGates.stepMaint.stepRetrains.stepTimer.stepUnits = t →
    exec .tickEdge s = .next (((((t.setNet 0 { t.net 0 with errorSent := [] }).setNet 1
      { t.net 1 with errorSent := [] }).stepEpochs 0).stepEpochs 1).stepCounts.stepScrub)) ∧
  (∀ s : State, s.stepCounter.now = (s.now + 1) % 2 ^ 48) ∧
  (∀ s : State, s.stepDelays.mgmt.idle = s.get Ob.SESSION_IDLE ∧ s.stepDelays.mgmt.udpPort = s.get Ob.BOP_UDP_PORT) ∧
  (∀ s : State, s.rollLookups.ticks.latArrivals = 0 ∧ s.rollLookups.ticks.latAccesses = []) ∧
  (∀ (s t : State) (acc : Access) (w : Writer) (v : Bytes), s.arrive acc (isKey Ob.LAT_SHARE) = .go w v t → leNat v ≤ 50 →
    exec (.latShare acc) s =
      .next (({ t.put Ob.LAT_SHARE (leNat v) with
        ticks := { t.ticks with latShare := t.ticks.latShare ++ [(2, leNat v)] } } : State).respond w.reply .ok)) ∧
  (∀ (s : State) (v : Nat) (rest : List (Nat × Nat)), s.ticks.latShare = (0, v) :: rest →
    exec .latShareApply s = .next { s with ticks := { s.ticks with share := v, latShare := rest } }) ∧
  (∀ s : State, exec .deadline s = .next (
    let u := (s.cmds.filter fun c => c.opcode == 0x28 && !c.late && s.cmdLat c && s.latBound ≤ s.since c.tick).foldl
      (fun (t : State) c => t.markCmd c) s
    (u.rltReqs.filter fun r => !r.2.late && s.latBound ≤ s.since r.2.tick).foldl
      (fun (t : State) r => t.markReq r.1 r.2) u)) ∧
  (∀ (s : State) (i : Nat) (r : RltReq), ∃ q, look (s.markReq i r).rltReqs i = some q ∧ q.late = true) ∧
  (∀ (s : State) (c : Cmd), c.stage = .held → c.part = 0 →
    (s.markCmd c).get Ob.DEADLINE_P0 = satAdd (odMax Ob.DEADLINE_P0) (s.get Ob.DEADLINE_P0) 1)

/-! ### Vaults and stands -/

/-- Refresh.  An interval raises the owed count and MAX_OWED; a forced refresh brings 8 or more owed down to 7 and counts the
difference; a slice refresh moves the rotation on, and the sixteenth of a round pays one interval.
It rests, in part, on R43, R64, R65. -/
def Obligations.RefreshKeepsItsBooks : Prop :=
  (∀ (s : State) (n : StandNo) (v : VaultNo), s.clocked = true →
    exec (.refreshInterval n v) s = .next ((s.setVault (vaultNo n v) { s.vault (vaultNo n v) with
      owed := (s.vault (vaultNo n v)).owed + 1 }).put Ob.MAX_OWED
        (max (s.get Ob.MAX_OWED) ((s.vault (vaultNo n v)).owed + 1).toNat))) ∧
  (∀ (s : State) (n : StandNo) (v : VaultNo), s.upkeepRuns n.val = true → 8 ≤ (s.vault (vaultNo n v)).owed →
    exec (.forcedRefresh n v) s = .next ((s.setVault (vaultNo n v) { s.vault (vaultNo n v) with owed := 7 }).bump
      Ob.FORCED_REFRESH ((s.vault (vaultNo n v)).owed - 7).toNat)) ∧
  (∀ (s : State) (n : StandNo) (v : VaultNo), s.maintRuns n.val 2 = true → -2 < (s.vault (vaultNo n v)).owed →
    exec (.sliceRefresh n v) s = .next (s.setVault (vaultNo n v) { s.vault (vaultNo n v) with
      slice := ((s.vault (vaultNo n v)).slice + 1) % 16,
      owed := if (s.vault (vaultNo n v)).slice = 15 then (s.vault (vaultNo n v)).owed - 1 else (s.vault (vaultNo n v)).owed })) ∧
  (∀ (s : State) (n : StandNo) (v : VaultNo), (s.vault (vaultNo n v)).owed ≤ -2 →
    exec (.sliceRefresh n v) s = .next s)

/-- Temperatures.  A stand takes its highest reading: it is hot from 84 °C and cool again at 81 °C or below, and between them as
it was; without a reading for 1,024 ticks it counts as hot.
It rests, in part, on R64. -/
def Obligations.StandsFollowTheirTemperature : Prop :=
  (∀ (s : State) (n : StandNo) (l : List Nat), s.clocked = true → l ≠ [] → ∃ t, exec (.temperatureReading n l) s = .next t ∧
    (t.stand n.val).temp = l.foldl max 0 ∧ (t.stand n.val).lastReading = s.now ∧
    (84 ≤ l.foldl max 0 → (t.stand n.val).hot = true) ∧ (l.foldl max 0 ≤ 81 → (t.stand n.val).hot = false) ∧
    (81 < l.foldl max 0 → l.foldl max 0 < 84 → (t.stand n.val).hot = (s.stand n.val).hot) ∧
    (∀ m, m ≠ n.val → t.stand m = s.stand m)) ∧
  (∀ (s : State) (n : StandNo), s.clocked = true → 1024 ≤ s.since (s.stand n.val).lastReading →
    exec (.sensorTimeout n) s = .next (s.setHot n.val true)) ∧
  (∀ (s : State) (n : Nat) (b : Bool), ((s.setHot n b).stand n).hot = b)

/-- Scrub and write-back.  A vault that owes an access and has no stored error in it pays it and moves its cursor on, changing
no byte; the oldest queued write-back is written as a fresh codeword.
It rests, in part, on R60, R67. -/
def Obligations.ScrubsAndWriteBacks : Prop :=
  (∀ (s : State) (n : StandNo) (v : VaultNo), s.maintRuns n.val 1 = true → s.get Ob.SCRUB_ENABLE ≠ 0 → (s.vault (vaultNo n v)).lag ≠ 0 →
    s.flips = [] → (s.vault (vaultNo n v)).cursor + 1 ≠ vaultAccesses →
    exec (.scrubAccess n v) s = .next (s.setVault (vaultNo n v) { s.vault (vaultNo n v) with
      lag := (s.vault (vaultNo n v)).lag - 1, cursor := (s.vault (vaultNo n v)).cursor + 1 })) ∧
  (∀ (s : State) (n : StandNo) (v : VaultNo), s.maintRuns n.val 1 = true → s.get Ob.SCRUB_ENABLE ≠ 0 → (s.vault (vaultNo n v)).lag ≠ 0 →
    s.flips = [] → (s.vault (vaultNo n v)).cursor + 1 = vaultAccesses →
    ∃ t, exec (.scrubAccess n v) s = .next t ∧ t.vault (vaultNo n v) = { s.vault (vaultNo n v) with
      lag := (s.vault (vaultNo n v)).lag - 1, cursor := 0, passes := (s.vault (vaultNo n v)).passes + 1, seen := [] } ∧
      t.mem = s.mem) ∧
  (∀ (s : State) (n : StandNo) (v : VaultNo) (wa : Nat) (d : BitVec 64) (rest : List (Nat × BitVec 64)), s.maintRuns n.val 1 = true →
    (s.vault (vaultNo n v)).writeBacks = (wa, d) :: rest → ∃ t, exec (.writeBack n v) s = .next t ∧
      t = { (s.setVault (vaultNo n v) { s.vault (vaultNo n v) with writeBacks := rest }).poke (wa * 8) (leBytes 8 d.toNat) with
        flips := s.flips.filter (·.1 != wa) })

/-- Repair.  A slice with evidence and no entry starts its pass, or waits behind the one that runs; a step of a pass that meets
no stored error moves on by one access, and the last one makes the soft entry active.
It rests, in part, on R62, R63. -/
def Obligations.RepairPassesRun : Prop :=
  (∀ (s : State) (n : StandNo) (v : VaultNo) (sl : SliceNo) (pos : Nat), s.clocked = true →
    s.repairPos (vaultNo n v) sl.val = some pos → s.repairEntry (1024 * n.val + 16 * v.val + sl.val) = none →
    s.repairQueue.any (·.1 == 1024 * n.val + 16 * v.val + sl.val) = false → s.repairPass = none →
    exec (.repairPassStart n v sl) s = .next (({ s with
      repairPass := some { unit := 1024 * n.val + 16 * v.val + sl.val, pos := pos, cursor := 0 } } : State).put
        Ob.REPAIR_ACTIVE (1024 * n.val + 16 * v.val + sl.val))) ∧
  (∀ (s : State) (n : StandNo) (v : VaultNo) (sl : SliceNo) (pos : Nat) (r : RepairPass), s.clocked = true →
    s.repairPos (vaultNo n v) sl.val = some pos → s.repairEntry (1024 * n.val + 16 * v.val + sl.val) = none →
    s.repairQueue.any (·.1 == 1024 * n.val + 16 * v.val + sl.val) = false → s.repairPass = some r →
    r.unit ≠ 1024 * n.val + 16 * v.val + sl.val →
    exec (.repairPassStart n v sl) s =
      .next { s with repairQueue := s.repairQueue ++ [(1024 * n.val + 16 * v.val + sl.val, pos)] }) ∧
  (∀ (s : State) (r : RepairPass), s.maintRuns (r.unit / 1024) 2 = true → s.repairPass = some r → s.flips = [] → r.cursor + 1 ≠ sliceAccesses →
    exec .repairPassStep s = .next { s with repairPass := some { r with cursor := r.cursor + 1 } }) ∧
  (∀ (s : State) (r : RepairPass), s.maintRuns (r.unit / 1024) 2 = true → s.repairPass = some r → s.flips = [] → r.cursor + 1 = sliceAccesses →
    s.repairQueue = [] → ∃ t, exec .repairPassStep s = .next t ∧ t.repairPass = none ∧ t.get Ob.REPAIR_ACTIVE = 0xFFFFFFFF ∧
      t.repairEntry r.unit = some { pos := r.pos, soft := true })

/-- Maintenance and wipes.  An announcement far enough ahead, for a stand that is due, fills the four registers; the period
begins at the announced tick, lasts MAINT_LENGTH ticks, and its last edge calibrates its stands and counts; the oldest wipe's
end is recorded; a write of SCRUB_PERIOD_H takes 1 to 720; a due counter sample is taken and carries its tick.
It rests, in part, on R45, R67, R69, R71, R73. -/
def Obligations.MaintenanceIsAnnouncedAndKept : Prop :=
  (∀ (s : State) (n : StandNo) (lead : Nat), s.boot.mode = .running → s.clk.asleep = false → s.get Ob.MAINT_FIRST_TICK = 0 →
    s.ticks.maint = none → divUp 940000 (s.get Ob.TICK_PERIOD_ACTIVE) ≤ lead → (s.now + lead) % 2 ^ 48 ≠ 0 →
    s.calDue n.val lead = true → ∃ t, exec (.maintAnnounce n lead) s = .next t ∧
      t.get Ob.MAINT_FIRST_TICK = (s.now + lead) % 2 ^ 48 ∧ t.get Ob.MAINT_SCOPE = 2 ^ n.val ∧
      t.get Ob.MAINT_ANNOUNCED_AT = s.now ∧ t.get Ob.MAINT_LENGTH = divUp 18800 (s.get Ob.TICK_PERIOD_ACTIVE) + 1) ∧
  (∀ s : State, s.get Ob.MAINT_FIRST_TICK ≠ 0 → s.since (s.get Ob.MAINT_FIRST_TICK) < 2 ^ 47 → s.clk.asleep = false →
    ∃ t, exec .maintPeriod s = .next t ∧ t.get Ob.MAINT_FIRST_TICK = 0 ∧
      t.ticks.maint = some (s.get Ob.MAINT_SCOPE, (s.now + s.get Ob.MAINT_LENGTH) % 2 ^ 48) ∧ t.vaults = s.vaults) ∧
  (∀ (s : State) (scope : Nat), s.ticks.maint = some (scope, s.now) →
    s.stepMaint.ticks.maint = none ∧
    s.stepMaint.get Ob.CAL_COUNT = satAdd (odMax Ob.CAL_COUNT) (s.get Ob.CAL_COUNT) 1) ∧
  (∀ (s : State) (n : Nat), ((s.calibrated n).stand n).calTemp = (s.stand n).temp ∧
    bitOf ((s.calibrated n).get Ob.CAL_STALE) n = false) ∧
  (∀ (s : State) (ps scope : Nat) (rest : List (Nat × Nat)), s.wipes = (ps, scope) :: rest →
    ∃ t, exec .wipeComplete s = .next t ∧ t.wipes = rest ∧ t.get Ob.WIPE_LAST_TICK = s.now ∧
      t.get Ob.WIPE_LAST_SCOPE = scope ∧
      t.get Ob.WIPE_COUNT = satAdd (odMax Ob.WIPE_COUNT) (s.get Ob.WIPE_COUNT) 1) ∧
  (∀ (s t : State) (acc : Access) (w : Writer) (v : Bytes), s.arrive acc (isKey Ob.SCRUB_PERIOD_H) = .go w v t →
    1 ≤ leNat v → leNat v ≤ 720 →
    exec (.scrubPeriodH acc) s = .next ((t.put Ob.SCRUB_PERIOD_H (leNat v)).respond w.reply .ok)) ∧
  (∀ s : State, s.clocked = true → s.ticks.timerDue = true → s.get Ob.TELEMETRY_PERIOD ≠ 0 →
    exec .counterSample s = .next { s with ticks := { s.ticks with timerDue := false, sampledAt := some s.now } })

/-- Stand links.  A failed flit of a link that is not retraining is replayed and counts in its direction; at four failures of
one flit in a row the link retrains, which is counted, its transfers having failed; then it runs again.
It rests, in part, on R16, R17. -/
def Obligations.StandLinksReplayAndRetrain : Prop :=
  (∀ (s : State) (n : StandNo) (up : Bool), (s.stand n.val).retraining = false → ((s.stand n.val).link up).fails < 4 →
    exec (.flitFailure n up) s = .next ((s.free.2.setStand n.val ((s.stand n.val).setLink up
      (((s.stand n.val).link up).fail s.free.1))).noteBreak 2 n.val)) ∧
  (∀ (l : Link) (pick : Nat) (e : Nat × Nat × Nat), l.buffer[pick % max 1 l.buffer.length]? = some e →
    (l.fail pick).failing = e.1 ∧ (l.fail pick).buffer.head? = some e ∧
    (l.fail pick).fails = if l.fails ≠ 0 ∧ l.failing = e.1 then l.fails + 1 else 1) ∧
  (∀ (s : State) (n : StandNo) (up : Bool), (s.stand n.val).retraining = false → 4 ≤ ((s.stand n.val).link up).fails →
    ((s.stand n.val).link up).buffer = [] → ∃ t, exec (.linkRetrain n up) s = .next t ∧
      (t.stand n.val).retraining = true ∧ ((t.stand n.val).link up).fails = 0 ∧
      t.get (Ob.LINK_RETRAIN + n.val) = satAdd (odMax (Ob.LINK_RETRAIN + n.val)) (s.get (Ob.LINK_RETRAIN + n.val)) 1 ∧
      t.mem = s.mem) ∧
  (∀ (s : State) (n : StandNo) (up : Bool), (s.stand n.val).retraining = false → 4 ≤ ((s.stand n.val).link up).fails →
    exec (.linkRetrain n up) s = .next ((((((s.stand n.val).link up).buffer.foldl (fun (t : State) e => t.cutItem e.2.1 e.2.2)
      s).setStand n.val { ((s.stand n.val).setLink up { (s.stand n.val).link up with buffer := [], fails := 0 }) with
        retraining := true }).bump (Ob.LINK_RETRAIN + n.val)).noteBreak 4 n.val)) ∧
  (∀ (s : State) (n : StandNo),
    exec (.retrainDone n) s = .next (s.setStand n.val { s.stand n.val with retraining := false }))

/-! ### Network ports -/

/-- Modules and links.  A write of 1 to PORT_ENABLE of a disabled port runs the enable procedure, and a write of 0 disables an
enabled one; a module that answers every step ends in LINK_DOWN with its memory recorded; links come and go by sub-port, and a
module that is removed, faulty or back moves PORT_STATE.
It rests, in part, on R144, R147, R148. -/
def Obligations.NetworkPortsFollowTheirModules : Prop :=
  (∀ (s t : State) (acc : Access) (m : ModuleScript) (w : Writer) (v : Bytes),
    s.arrive acc (isPortEnable (· = 1)) = .go w v t → t.get (at_ Ob.PORT_ENABLE (netOf w.idx)) ≠ 1 → w.restore = false →
    exec (.portEnable acc m) s = .next ((t.enablePort (netOf w.idx) m).2.respond w.reply (t.enablePort (netOf w.idx) m).1)) ∧
  (∀ (s : State) (m : ModuleScript) (app : Nat), m.present = true → stepOk m 3 = true → moduleSupported m = true →
    stepOk m 5 = true → moduleApp m (s.get Ob.BREAKOUT) = some app → stepOk m 7 = true → stepOk m 8 = true →
    (s.enablePort 0 m).1 = .ok ∧ (s.enablePort 0 m).2.get Ob.PORT_STATE = psLinkDown ∧
      (s.enablePort 0 m).2.get Ob.PORT_ENABLE = 1 ∧ (s.enablePort 0 m).2.dget Ob.MODULE_INFO = moduleInfo m ∧
      ((s.enablePort 0 m).2.net 0).inUse = s.netConfig 0) ∧
  (∀ (s t : State) (acc : Access) (w : Writer) (v : Bytes), s.arrive acc (isPortEnable (· ≠ 1)) = .go w v t → leNat v = 0 →
    t.get (at_ Ob.PORT_ENABLE (netOf w.idx)) ≠ 0 →
    exec (.portDisable acc) s = .next ((t.disablePort (netOf w.idx)).respond w.reply .ok)) ∧
  (∀ (s : State) (n : Nat), n < 2 → (s.disablePort n).get (at_ Ob.PORT_ENABLE n) = 0 ∧
    (s.disablePort n).get (at_ Ob.SUBPORT_UP n) = 0 ∧ (s.disablePort n).get (at_ Ob.PORT_STATE n) = psDisabled) ∧
  (∀ (s : State) (n : NetNo) (subs : Nat), s.portRuns n.val = true → s.macRuns n.val = true →
    exec (.linkUp n subs) s = .next (
      let u := s.put (at_ Ob.SUBPORT_UP n.val) (s.get (at_ Ob.SUBPORT_UP n.val) ||| subs % 2 ^ subPorts (s.net n.val).inUse.breakout)
      if u.allUp n.val then u.setPortState n.val psUp else u)) ∧
  (∀ (s : State) (n : NetNo) (sub : SubNo), s.portRuns n.val = true → s.subUp n.val sub.val = true →
    exec (.subportLinkLoss n sub) s = .next (((s.put (at_ Ob.SUBPORT_UP n.val)
      (setBit (s.get (at_ Ob.SUBPORT_UP n.val)) sub.val false)).noteBreak 8 (4 * n.val + sub.val)).setPortState n.val psLinkDown)) ∧
  (∀ (s : State) (n : NetNo), s.get (at_ Ob.PORT_ENABLE n.val) = 1 →
    exec (.moduleRemoved n) s = .next (((s.setNet n.val { s.net n.val with modPresent := false }).loseLinks n.val).setPortState
      n.val psAbsent)) ∧
  (∀ (s : State) (n : NetNo) (m : ModuleScript), s.get (at_ Ob.PORT_ENABLE n.val) = 1 → m.present = true →
    s.get (at_ Ob.PORT_STATE n.val) < psLinkDown →
    exec (.modulePresent n m) s = .next ((s.setNet n.val { s.net n.val with modPresent := true }).enablePort n.val m).2) ∧
  (∀ (s : State) (n : NetNo), s.portRuns n.val = true →
    exec (.moduleFault n) s = .next ((s.loseLinks n.val).setPortState n.val psFault))

/-- Frames.  A sub-port that hears discards and counts a frame that fails acceptance; it answers an ARP request for its own
address, a Neighbor Solicitation and an echo request with one frame to their sender, and port M answers the last two.
It rests, in part, on R139, R141. -/
def Obligations.SubPortsAnswerTheirNeighbours : Prop :=
  (∀ (s : State) (n : NetNo) (sub : SubNo) (f : Bytes) (ok : Bool), s.netHears n.val sub.val = true →
    s.accept n.val sub.val f ok = none →
    exec (.rxDiscards n sub f ok) s = .next (s.bump (at_ Ob.RX_DISCARDS n.val))) ∧
  (∀ (s : State) (n : NetNo) (sub : SubNo) (f : Bytes) (mac ip : Nat), s.netHears n.val sub.val = true →
    s.accept n.val sub.val f true = some (.arp mac ip) →
    exec (.arpRequest n sub f) s = .next (s.answerFrame n.val sub.val f 0x0806
      (beBytes 8 0x0001080006040002 ++ beBytes 6 (subMac n.val sub.val) ++ beBytes 4 ((s.net n.val).inUse.ip4 sub.val) ++
        beBytes 6 mac ++ beBytes 4 ip))) ∧
  (∀ (s : State) (n : NetNo) (sub : SubNo) (f : Bytes) (src target : Nat), s.netHears n.val sub.val = true →
    s.accept n.val sub.val f true = some (.solicit src target) →
    exec (.neighborSolicitation (.net n sub) f) s = .next (s.answerFrame n.val sub.val f 0x86DD
      (neighborAdvert (subMac n.val sub.val) target src 64))) ∧
  (∀ (s : State) (f : Bytes) (src target : Nat), s.mHears = true → s.acceptM f = some (.solicit src target) →
    exec (.neighborSolicitation .m f) s =
      .next (s.answerM f (neighborAdvert (Config.mgmtMac % 2 ^ 48) target src 255))) ∧
  (∀ (s : State) (n : NetNo) (sub : SubNo) (f : Bytes) (src : Nat) (icmp : Bytes), s.netHears n.val sub.val = true →
    s.accept n.val sub.val f true = some (.echo4 src icmp) →
    exec (.echoRequest (.net n sub) f) s = .next (s.answerFrame n.val sub.val f 0x0800
      (echoReply4 ((s.net n.val).inUse.ip4 sub.val) src icmp))) ∧
  (∀ (s : State) (f : Bytes) (src dst : Nat) (icmp : Bytes), s.mHears = true → s.acceptM f = some (.echo6 src dst icmp) →
    exec (.echoRequest .m f) s = .next (s.answerM f (echoReply6 dst src 255 icmp))) ∧
  (∀ (s : State) (n sub e : Nat) (f b : Bytes), s.subUp n sub = true → s.macRuns n = true →
    s.answerFrame n sub f e b = ((s.bump (at_ Ob.RX_FRAMES n)).emit (.neighbour n sub (buildFrame (parseFrame f).src
      (subMac n sub) (s.net n).inUse.vlan e b))).bump (at_ Ob.TX_FRAMES n))

/-- RLT packets.  A malformed packet is counted; a DATA packet within the window goes into its slot and is counted; a
LOOKUP_REQ that its flow takes becomes an item, and one that fails its checks is answered at once.
It rests, in part, on R152, R158, R165. -/
def Obligations.PacketsAreTakenOrCounted : Prop :=
  (∀ (s t : State) (n : NetNo) (sub : SubNo) (k : RltPacket), s.netHears n.val sub.val = true →
    s.rltIntake n.val sub.val k = (none, t) → exec (.malformed n sub k) s = .next t) ∧
  (∀ (s : State) (n sub : Nat) (k : RltPacket), s.datagramOk n sub k = true → (parseRlt k.bytes).crcOk = true →
    rltMalformed k.bytes = true →
    s.rltIntake n sub k = (none, (s.bump (at_ Ob.RX_FRAMES n)).bump (s.rltKey Ob.MALFORMED n))) ∧
  (∀ (s t : State) (n : NetNo) (sub : SubNo) (k : RltPacket) (r : Rlt), s.netHears n.val sub.val = true →
    s.rltIntake n.val sub.val k = (some r, t) → r.kind = 1 →
    exec (.data n sub k) s = .next (t.rltData n.val sub.val k r)) ∧
  (∀ (s : State) (n sub : Nat) (k : RltPacket) (r : Rlt) (x : Stream), s.stream? (s.div.netPart n) r.stream = some x →
    x.port = n → x.subport = sub → x.refuses k = false → x.sstate = 1 → seqDist x.ack r.seq < 2 ^ 31 →
    (∀ h ∈ x.held, h.1 ≠ r.seq) → seqDist x.freed r.seq < x.slots →
    s.rltData n sub k r = ((s.setStream (s.div.netPart n) r.stream (x.accept k r s.now)).lbufWrite (x.slotAddr r.seq)
      r.payload).bump (at_ Ob.DATA_ACCEPTED (s.div.netPart n))) ∧
  (∀ (s t u : State) (n : NetNo) (sub : SubNo) (k : RltPacket) (x : Rlt), s.netHears n.val sub.val = true →
    (parseRlt k.bytes).kind = 4 → s.rltIntake n.val sub.val k = (some x, t) →
    u = (t.bump (t.rltKey Ob.LOOKUP_REQS n.val)).latArrive → u.reqCheck (rltRequest u n.val sub.val k x) x ≠ .ok →
    u.latFlow (rltRequest u n.val sub.val k x).flow = false →
    exec (.lookupReq n sub k) s =
      .next (u.sendRsp (rltRequest u n.val sub.val k x) (u.reqCheck (rltRequest u n.val sub.val k x) x) [])) ∧
  (∀ (s t u v : State) (n : NetNo) (sub : SubNo) (k : RltPacket) (x : Rlt) (r : RltReq), s.netHears n.val sub.val = true →
    (parseRlt k.bytes).kind = 4 → s.rltIntake n.val sub.val k = (some x, t) →
    u = (t.bump (t.rltKey Ob.LOOKUP_REQS n.val)).latArrive → u.reqCheck (rltRequest u n.val sub.val k x) x = .ok →
    r = { rltRequest u n.val sub.val k x with
      version := ((u.table? (u.div.netPart n.val) (rltRequest u n.val sub.val k x).table).map (·.current)).getD 0 } →
    u.enqueue (u.div.netPart n.val) r.flow (mkItem 0x7FF 0 0 0 0 .ok (.rlt u.nextReq)) = (.ok, v) →
    exec (.lookupReq n sub k) s =
      .next { v with rltReqs := setAt v.rltReqs u.nextReq r, nextReq := u.nextReq + 1 })

/-- Credit and gaps.  A live stream whose KEEPALIVE has run sends a CREDIT; one whose gap has reached NACK_DELAY sends a NACK,
and the interval timer repeats it; at GAP_LIMIT the stream fails with an ERROR and an end mark.  NACK_PERIOD claims the
timer.
It rests, in part, on R159, R160, R161, R162. -/
def Obligations.StreamsAskForWhatIsMissing : Prop :=
  (∀ (s : State) (p : PartNo) (id : StreamNo) (x : Stream), s.liveStream p.val id.val = some x →
    s.get Ob.KEEPALIVE ≤ s.since x.lastSent →
    exec (.credit p id) s = .next (s.sendCredit p.val id.val x true)) ∧
  (∀ (s : State) (p : PartNo) (id : StreamNo) (x : Stream), s.liveStream p.val id.val = some x →
    s.since x.lastSent < s.get Ob.KEEPALIVE → (x.ack, x.limit) ≠ (x.sentAck, x.sentLimit) →
    s.get Ob.CREDIT_GAP ≤ s.since x.lastSent →
    exec (.credit p id) s = .next (s.sendCredit p.val id.val x false)) ∧
  (∀ (s : State) (p : PartNo) (id : StreamNo) (x : Stream) (t : Nat), s.liveStream p.val id.val = some x →
    x.gapOpen = some t → x.nackSent = none → s.get Ob.NACK_DELAY ≤ s.since t →
    exec (.nack p id) s = .next (s.sendNack p.val id.val x false)) ∧
  (∀ (s t : State), s.get Ob.TIMER_HOLDER = 2 → s.ticks.timerDue = true →
    t = { s with ticks := { s.ticks with timerDue := false } } →
    exec .nackRepeat s = .next ([0, 1].foldl (fun (t : State) p => ((t.part p).streams.map (·.1)).foldl
      (fun (u : State) id => u.renewNack p id) t) t)) ∧
  (∀ (s : State) (p id k t : Nat) (x : Stream), s.liveStream p id = some x → x.gapOpen = some t → x.nackSent = some k →
    s.get Ob.NACK_PERIOD ≤ s.since k → s.renewNack p id = s.sendNack p id x true) ∧
  (∀ (s : State) (p : PartNo) (id : StreamNo) (x : Stream) (t : Nat), s.stream? p.val id.val = some x → x.gapOpen = some t →
    x.sstate = 1 → s.get Ob.GAP_LIMIT ≤ s.since t → x.inObject = false →
    exec (.gapLimit p id) s = .next ((((s.sendError x.peer 1 id.val x.ack .linkRetryExhausted x.object).setStream p.val id.val
      { x with sstate := 2, held := [], taken := x.ack, freed := x.ack, gapOpen := none, nackSent := none }).bump (at_ Ob.STREAMS_FAILED p.val)).streamMark
        p.val x)) ∧
  (∀ (s t : State) (acc : Access) (w : Writer) (v : Bytes), s.arrive acc (isKey Ob.NACK_PERIOD) = .go w v t → leNat v ≠ 0 →
    t.get Ob.TIMER_HOLDER = 0 → exec (.nackPeriod acc) s =
      .next ((((t.put Ob.NACK_PERIOD (leNat v)).put Ob.TIMER_HOLDER 2).setTimer (leNat v)).respond w.reply .ok)) ∧
  (∀ (s t : State) (acc : Access) (w : Writer) (v : Bytes), s.arrive acc (isKey Ob.NACK_PERIOD) = .go w v t → leNat v = 0 →
    t.get Ob.TIMER_HOLDER = 2 → exec (.nackPeriod acc) s =
      .next ((((t.put Ob.NACK_PERIOD 0).put Ob.TIMER_HOLDER 0).setTimer 0).respond w.reply .ok))

/-- Streams open, are walked and close.  A checked image whose regions are free claims them and begins its sequence numbers at 0; a close
waits for the tick edge, where everything at hand is walked, the regions are released and the access is
answered.  A turn of the walker goes on while there is something to walk; a line of a JSON object becomes one record item; a unit
at hand joins the chipper ingest flow at the priority of that moment, and once a lane takes it and it decompresses it is staged and
counted.
It rests, in part, on R154, R155, R167, R168. -/
def Obligations.StreamsOpenWalkAndClose : Prop :=
  (∀ (s t u : State) (acc : Access) (w : Writer) (v : Bytes), s.arrive acc (isKey Ob.STREAM_OPEN) = .go w v t →
    opStreamOpen w v t = (some .ok, u) → exec (.streamOpen acc) s = .next (u.respond w.reply .ok)) ∧
  (∀ (s t : State) (w : Writer) (b : Bytes) (p id : Nat), leAt b 0 4 = id →
    p = s.div.netPart (bitsOf (leNat (sliceB b 4 64)) 6 6) → s.streamCheck w id (leNat (sliceB b 4 64)) = .ok →
    s.stream? p id = none →
    s.claim (streamOf (leNat (sliceB b 4 64)) w.owner (lookD (s.part p).opens id 0) s.now).regions 2 id = some t →
    ∃ u x, opStreamOpen w b s = (some .ok, u) ∧ u.stream? p id = some x ∧ x.ack = 0 ∧ x.freed = 0 ∧ x.held = [] ∧
      x.sstate = 1 ∧ lookD (u.part p).opens id 0 = lookD (s.part p).opens id 0 + 1 ∧ u.regions = t.regions) ∧
  (∀ (s t : State) (acc : Access) (w : Writer) (v : Bytes) (x : Stream), s.arrive acc (isKey Ob.STREAM_CLOSE) = .go w v t →
    w.isHost = false → t.stream? (t.div.streamPart (leNat v)) (leNat v) = some x →
    exec (.streamClose acc) s = .next ((t.setStream (t.div.streamPart (leNat v)) (leNat v) { x with closing := true }).await
      .streamClose (leNat v) w.reply)) ∧
  (∀ (s : State) (p : PartNo) (id : StreamNo) (x y : Stream), s.stream? p.val id.val = some x → x.closing = true →
    (State.walkAll 4194304 s p.val id.val).stream? p.val id.val = some y →
    exec (.streamCloseEdge p id) s =
      .next (((State.walkAll 4194304 s p.val id.val).closeStream p.val id.val y).answer .streamClose id.val .ok)) ∧
  (∀ (s : State) (p id : Nat) (x : Stream), ∀ e ∈ (s.closeStream p id x).regions, e.2 ≠ (2, id)) ∧
  (∀ (s t : State) (p : PartNo) (id : StreamNo), (s.walk p.val id.val).isSome = true → s.walkTurnOf p.val id.val = true →
    State.walkTurn 131072 s p.val id.val 0 = t →
    exec (.walkRecords p id) s = .next (t.setPart p.val { t.part p.val with
      walkers := setAt (t.part p.val).walkers (s.walkerOf p.val id.val) id.val })) ∧
  (∀ (fuel : Nat) (s t : State) (p id done : Nat), s.walk p id = some (true, t) →
    State.walkTurn (fuel + 1) s p id done = t) ∧
  (∀ (fuel : Nat) (s t : State) (p id done : Nat), s.walk p id = some (false, t) →
    done + (s.walkLeft p id - t.walkLeft p id) < 65536 →
    State.walkTurn (fuel + 1) s p id done = State.walkTurn fuel t p id (done + (s.walkLeft p id - t.walkLeft p id))) ∧
  (∀ (s : State) (p id : Nat) (x : Stream) (line rest : Bytes), x.source = line ++ 0x0A :: rest → (0x0A : Byte) ∉ line →
    line ≠ [] → line.getLast? ≠ some 0x0D → line.length ≤ 1048576 → x.lineBroken = false →
    s.walkJson p id x = some ((s.setStream p id { x.eat (line.length + 1) with lineBroken := false }).frameRecord p id x
      (x.addrAt 0) line)) ∧
  (∀ (s : State) (p : PartNo) (id : StreamNo) (x : Stream) (b : Bytes) (d : Dst), s.stream? p.val id.val = some x → x.sstate = 1 →
    x.inObject = true → s.isStalled p.val x.decodeFlow = false → x.format = 1 → x.codec ≠ 0 → x.phase ≠ .skipObject →
    x.unit = some b → s.decodeUnit p.val (x.codec == 2) x.stageLimit b = .ok d → (s.div.units .chipD p.val).2 ≠ 0 →
    ((s.part p.val).chipUnits.find? (·.1 == id.val) = none →
      exec (.compressedUnit p id) s = .next (s.setPart p.val { s.part p.val with
        chipUnits := (s.part p.val).chipUnits ++ [(id.val, s.get Ob.CHIP_INGEST_PRIO)] })) ∧
    (∀ q u : Nat, (s.part p.val).chipUnits.find? (·.1 == id.val) = some (id.val, q) → s.unitLane p.val q = some u →
      exec (.compressedUnit p id) s = .next (
        (((s.noteTurn p.val .chipD u (ingestFlow p.val) q).dropUnit p.val id.val).countUnit p.val (.ok d)).setStream p.val id.val
          { x.dropBuffer b.length with staged := (x.dropBuffer b.length).staged ++ d.bytes })))

/-! ### Sample sets, epochs and images -/

/-- Sets.  Sealing an open set begins its sort; the sort's end orders its entries and reads SEALED; clearing a set that no epoch
uses empties it and opens it.
It rests, in part, on R179. -/
def Obligations.SetsSealSortAndClear : Prop :=
  (∀ (s t : State) (acc : Access) (w : Writer) (v : Bytes), s.arrive acc (isKey Ob.SET_SEAL) = .go w v t →
    t.setArg w (leNat v) = .ok → (t.set? (bitsOf (leNat v) 8 8) (bitsOf (leNat v) 7 0)).state = 0 →
    exec (.setSeal acc) s = .next ((t.setSet (bitsOf (leNat v) 8 8) (bitsOf (leNat v) 7 0)
      { t.set? (bitsOf (leNat v) 8 8) (bitsOf (leNat v) 7 0) with state := 2 }).respond w.reply .ok)) ∧
  (∀ (s : State) (p : PartNo) (n : SetNo), (s.set? p.val n.val).state = 2 →
    exec (.setSortEnd p n) s = .next ((((s.setEntries p.val (s.set? p.val n.val)).2.setSet p.val n.val
      { s.set? p.val n.val with state := 3 }).devWrite p.val ((s.set? p.val n.val).entryAddr 0)
        ((sortBy (fun (a b : SetEntry) => ltList a.key b.key) (s.setEntries p.val (s.set? p.val n.val)).1).flatMap
          SetEntry.bytes)).2)) ∧
  (∀ l : List SetEntry, (sortBy (fun (a b : SetEntry) => ltList a.key b.key) l).Perm l ∧
    (sortBy (fun (a b : SetEntry) => ltList a.key b.key) l).Pairwise (fun a b => ltList b.key a.key = false)) ∧
  (∀ (s t : State) (acc : Access) (w : Writer) (v : Bytes), s.arrive acc (isKey Ob.SET_CLEAR) = .go w v t →
    t.setArg w (leNat v) = .ok → (t.part (bitsOf (leNat v) 8 8)).setInUse (bitsOf (leNat v) 7 0) = false →
    exec (.setClear acc) s = .next (
      let u := t.setSet (bitsOf (leNat v) 8 8) (bitsOf (leNat v) 7 0)
        { t.set? (bitsOf (leNat v) 8 8) (bitsOf (leNat v) 7 0) with state := 0, count := 0, rows := [] }
      (u.setPart (bitsOf (leNat v) 8 8) { u.part (bitsOf (leNat v) 8 8) with
        openBase := (u.part (bitsOf (leNat v) 8 8)).clearBase (bitsOf (leNat v) 7 0) }).respond w.reply .ok))

/-- The shuffle of an epoch draws every sample of its set once: the map of positions to samples stays below N and meets no
sample twice. -/
def Obligations.ShuffleIsAPermutation : Prop :=
  ∀ seed epoch n : Nat, 0 < n → (∀ j, j < n → sigma (roundKeys seed epoch) j n < n) ∧
    ∀ i j, i < n → j < n → sigma (roundKeys seed epoch) i n = sigma (roundKeys seed epoch) j n → i = j

/-- Without SHUFFLE the order is that of the positions, whatever SEED and EPOCH. -/
def Obligations.UnshuffledOrderIsPositionOrder : Prop := ∀ (e : Epoch) (j : Nat), e.shuffle = false → e.index j = j

/-- Epochs.  PIPE_RUN of a batch plan that passes its checks starts the lowest free epoch; the feeder gives the assembly flow one
position at a time; augmentation entries are read 4 KiB ahead; a prepared batch whose frame slot is free ships; and an ended
epoch with a free entry writes its END notice and is free.
It rests, in part, on R183, R185, R190, R192, R193. -/
def Obligations.EpochsFeedShipAndEnd : Prop :=
  (∀ (s : State) (id : Nat) (data : Bytes) (c : Cmd) (h : Nat) (im : Image) (q : BatchPlan), s.control id 0x11 = some c →
    c.f 83 80 = 2 → (s.augRange c).bind (fun r => s.lateRange c r.1 r.2) = none → s.planOf c.part (c.f 95 64) = some (h, im, q) →
    s.epochCheck c = .ok → exec (.pipeRunEpoch id data) s = .next (s.startEpoch c h im q)) ∧
  (∀ (s : State) (c : Cmd) (h e : Nat) (im : Image) (q : BatchPlan),
    (List.range 4).find? (fun e => (s.epoch? c.part e).isNone) = some e →
    ∃ x, (s.startEpoch c h im q).epoch? c.part e = some x ∧ x.plan = q ∧ x.handle = h ∧ x.nextFeed = c.f 255 192 ∧
      x.prepared = [] ∧ x.ending = false) ∧
  (∀ (s t u : State) (p : PartNo) (e : EpochNo) (x : Epoch) (im : Image) (hole : Bool) (row len : Nat),
    s.epoch? p.val e.val = some x → x.ending = false → x.nextFeed < x.n → x.prepared.length < x.plan.prepDepth →
    x.augBase = 0 → s.feedEntry p.val x x.nextFeed = ((.ok, hole, row, len), t) →
    look (t.part p.val).images x.handle = some im →
    t.enqueue p.val (im.flowBase + x.plan.asmFlow) (mkItem 0x7FF 0 len (x.nextFeed % 2 ^ 48) e.val .ok
      (.position e.val x.nextFeed hole row len [])) = (.ok, u) →
    exec (.feed p e) s = .next (u.setEpoch p.val e.val { x with nextFeed := x.nextFeed + 1 })) ∧
  (∀ (s : State) (p : PartNo) (e : EpochNo) (x : Epoch) (data : Bytes) (ok : Bool), s.epoch? p.val e.val = some x →
    x.augBase ≠ 0 → x.ending = false → x.augNext < x.n → (s.port x.port).bme = true →
    ∃ u y, exec (.augmentationRead p e data ok) s = .next (if ok then u
        else (u.dmaFault x.port (x.augBase + x.augNext * x.augSize) .linkRetryExhausted x.ring x.frameTag).emit (.aer x.port)) ∧
      u = s.setEpoch p.val e.val y ∧ y = { x with aug := y.aug, augNext := y.augNext } ∧
      y.augNext = x.augNext + min (4096 / x.augSize) (x.n - x.augNext) ∧
      y.aug.length = x.aug.length + min (4096 / x.augSize) (x.n - x.augNext)) ∧
  (∀ (s : State) (p : PartNo) (e : EpochNo) (x : Epoch) (b : Batch) (rest : List Batch), s.epoch? p.val e.val = some x →
    x.prepared = b :: rest → x.aborted = false → (s.port x.port).bme = true →
    s.slotFree x (x.batchNo % 2 ^ x.slotsLog2) = true →
    exec (.ship p e) s = .next (s.shipBatch p.val e.val x b rest)) ∧
  (∀ (s : State) (p e : Nat) (x : Epoch) (b : Batch) (rest : List Batch), x.released = [] → ∃ y,
    (s.shipBatch p e x b rest).epoch? p e = some y ∧ y.prepared.length = rest.length ∧ y.batchNo = x.batchNo + 1) ∧
  (∀ (s : State) (p : PartNo) (e : EpochNo) (x : Epoch), s.epoch? p.val e.val = some x → x.ending = true →
    (x.aborted = true ∨ x.prepared = []) → (s.port x.port).bme = true → ((s.port x.port).cplRing x.frameCq).blocked = false →
    ((s.port x.port).cplRing x.frameCq).held = [] →
    exec (.endNotice p e) s = .next ((s.deliverCpl x.port x.frameCq (x.notice s.now 4096
      (if x.aborted then .aborted else .ok) [])).2.freeEpoch p.val e.val))

/-- Images and runs.  PIPE_LOAD of a length in range, with a handle free, loads an image that passes its checks under the lowest
free handle and completes with that handle; one that fails completes with the first check that fails and its section.  A graph
that is free to run gets its run, its operators start afresh and its command waits.  PIPE_STOP of a loaded image waits for the
edge.
It rests, in part, on R243, R244, R245. -/
def Obligations.ImagesLoadRunAndStop : Prop :=
  (∀ (s : State) (id h k : Nat) (image b : Bytes) (parsed : ImageContent) (c : Cmd) (im : Image), s.control id 0x10 = some c →
    4096 ≤ c.f 159 128 → c.f 159 128 ≤ 268435456 → c.f 191 178 = 0 → c.f 511 203 = 0 → (s.part c.part).images.length < 8 →
    c.hostBytes image (c.f 159 128) = b → imageOf b parsed (c.f 177 160) (c.f 202 192) = im →
    s.loadCheck c.part b (c.f 159 128) im = (.ok, k) → s.canRefill c.part = true →
    (List.range 8).find? (fun h => (look (s.part c.part).images h).isNone) = some h →
    exec (.pipeLoad id image parsed) s =
      .next (((s.unblock c.part im.flowBase (2 ^ 32)).loadImage c.part h b im).finish id .ok h)) ∧
  (∀ (s : State) (p h : Nat) (b : Bytes) (im : Image),
    ∃ a, look ((s.loadImage p h b im).part p).images h = some { im with areaBase := a }) ∧
  (∀ (s : State) (id k : Nat) (st : Status) (image b : Bytes) (parsed : ImageContent) (c : Cmd) (im : Image),
    s.control id 0x10 = some c → s.loadEarly c = .ok → c.hostBytes image (c.f 159 128) = b →
    imageOf b parsed (c.f 177 160) (c.f 202 192) = im → s.loadCheck c.part b (c.f 159 128) im = (st, k) → st ≠ .ok →
    exec (.pipeLoad id image parsed) s = .next ((s.unblock c.part im.flowBase (2 ^ 32)).finish id st k)) ∧
  (∀ (s : State) (id : Nat) (data : Bytes) (c : Cmd) (h : Nat) (im : Image) (g : Graph), s.control id 0x11 = some c →
    c.f 83 80 ≠ 2 → s.graphOf c.part (c.f 95 64) = some (h, im, g) → c.f 511 128 = 0 → 1 ≤ c.f 127 96 → c.f 127 96 ≤ 4096 →
    (s.part c.part).runs.length < 8 → (s.part c.part).runs.any (fun r => r.handle == h && r.index == g.index) = false →
    exec (.pipeRunGraph id data) s = .next (s.startGraph c h im g)) ∧
  (∀ (s : State) (c : Cmd) (h : Nat) (im : Image) (g : Graph), ∃ r, r ∈ ((s.startGraph c h im g).part c.part).runs ∧
    r.handle = h ∧ r.index = g.index ∧ r.cmd = c.id ∧ r.sources = c.f 127 96 ∧ r.stages.length = g.stages.length) ∧
  (∀ (s : State) (id : Nat) (c : Cmd) (im : Image), s.control id 0x12 = some c →
    look (s.part c.part).images (c.f 66 64) = some im → c.f 71 67 = 0 → c.f 511 73 = 0 →
    (c.f 72 72 = 1 → (s.part c.part).epochs.any (fun e => e.2.handle != c.f 66 64 && im.sets.any fun x => x.1 == e.2.plan.set)
      = false) →
    exec (.pipeStop id) s = .next ((s.setPart c.part { s.part c.part with stop := some (id, c.f 66 64, c.f 72 72 = 1) }).setCmd
      { c with stage := .waiting }))

/-! ### Tables -/

/-- Tables and versions.  A table that passes R273 exists with version 1 current and empty; a version opens under the next number,
empty or, where the lanes hold no record of the table, as a clone; a switch is registered and at its edge makes the open version
current and the current one retire; a drop waits for its edge; a retired version that nothing can still read is reclaimed.  Where
a version's memory lies is the model's free choice.
It rests, in part, on R274, R296, R299, R301, R303. -/
def Obligations.TablesAndTheirVersions : Prop :=
  (∀ (s : State) (id : Nat) (data : Bytes) (c : Cmd), s.control id 0x20 = some c → s.tableCreateCheck c = .ok →
    exec (.tableCreate id data) s = .next ((s.addVersion c.part (c.newTable s.now) .current).finish id .ok 1)) ∧
  (∀ (c : Cmd) (now : Nat), (c.newTable now).id = c.f 95 64 ∧ (c.newTable now).dim = c.f 111 96 ∧
    (c.newTable now).versions = [] ∧ (c.newTable now).nextVersion = 1 ∧ (c.newTable now).dropped = false) ∧
  (∀ (s : State) (p : Nat) (t : Table) (st : VersionState), ∃ v : Version, (s.addVersion p t st).anyTable p t.id =
    some { t with versions := t.versions ++ [v], nextVersion := t.nextVersion + 1 } ∧
      v.number = t.nextVersion ∧ v.state = st ∧ v.dirs = []) ∧
  (∀ (s : State) (id : Nat) (c : Cmd) (t : Table), s.control id 0x22 = some c → s.versionOpenCheck c = .ok →
    s.table? c.part (c.f 95 64) = some t → c.f 96 96 = 0 → exec (.tableVersionOpen id) s =
      .next ((s.addVersion c.part t .opened).finish id .ok t.nextVersion)) ∧
  (∀ (s u : State) (id : Nat) (c : Cmd) (t : Table) (cur : Version), s.control id 0x22 = some c →
    s.versionOpenCheck c = .ok → s.table? c.part (c.f 95 64) = some t → c.f 96 96 ≠ 0 → s.lanesIdle c.part t.id = true →
    t.version? t.current = some cur → (s.addVersion c.part t .opened).cloneAll c.part t cur t.nextVersion = (.done, u) →
    exec (.tableVersionOpen id) s = .next (u.finish id .ok t.nextVersion)) ∧
  (∀ (s : State) (id : Nat) (c : Cmd) (t : Table), s.control id 0x23 = some c → s.table? c.part (c.f 95 64) = some t →
    c.f 511 128 = 0 → c.f 127 96 ≠ 0 → c.f 127 96 = t.inState .opened → t.inState .retiring = 0 → t.switch = none →
    exec (.tableVersionSwitch id) s =
      .next ((s.setTable c.part { t with switch := some id }).setCmd { c with stage := .waiting })) ∧
  (∀ (s : State) (p : PartNo) (table id : Nat) (t : Table), s.table? p.val table = some t → t.switch = some id →
    s.openWrites p.val table id = false → s.lanes = [] → exec (.switchEdge p table) s = .next ((s.setTable p.val { t with
      versions := t.versions.map (fun v => if v.state = .current then { v with state := .retiring, since := s.now }
        else if v.state = .opened then { v with state := .current } else v),
      switch := none, windows := 0, windowStart := s.now, closeLate := false }).finish id .ok (t.inState .opened))) ∧
  (∀ (s : State) (id : Nat) (c : Cmd) (t : Table), s.control id 0x24 = some c → s.table? c.part (c.f 95 64) = some t →
    c.f 511 96 = 0 →
    exec (.tableDrop id) s = .next ((s.setTable c.part { t with drop := some id }).setCmd { c with stage := .waiting })) ∧
  (∀ (s : State) (p : PartNo) (table : Nat) (t : Table) (v : Version), s.anyTable p.val table = some t → t.versions = [v] →
    v.state = .retiring → 4 ≤ s.since v.since → s.captured p.val table v.number = false →
    exec (.versionReclaim p table) s = .next (s.reclaim p.val table v.number))

/-- Rows.  A LOOKUP that passes its checks captures the current version and joins its flow, and at its unit it writes one output
row for each ID or bag, or ends BAD_DESCRIPTOR where its offsets break R307; UPDATE and TABLE_WRITE_ROWS capture a version, join
their flow, and then queue one record for each row on the lanes of the rows' home cores, where the front record of a lane that is
not held is taken off and applied.
It rests, in part, on R297, R308, R316, R381. -/
def Obligations.RowsAreReadAndWritten : Prop :=
  (∀ (s : State) (id : Nat) (data : Bytes) (c : Cmd), s.admitting id 0x28 = some c → s.lookupCheck c = .ok →
    exec (.lookup id data) s = .next (
      let c' := { c with version := ((s.table? c.part (c.f 95 64)).map (·.current)).getD 0 }
      ((s.setCmd c').admitItem c').countRefused c' (s.cmdLat c'))) ∧
  (∀ (s : State) (id : Nat) (data : Bytes) (c : Cmd) (bags : List (List (Nat × Nat))) (t : Table),
    s.admitting id 0x28 = none → s.atWork id 0x28 = some c → c.bags data = some bags →
    s.anyTable c.part (c.f 95 64) = some t → s.rowsServed c.part t.id (bags.flatten.map (·.1)) = true →
    exec (.lookup id data) s = .next (s.lookupBags c t bags)) ∧
  (∀ (s : State) (id : Nat) (data : Bytes) (c : Cmd), s.admitting id 0x28 = none → s.atWork id 0x28 = some c →
    c.bags data = none → exec (.lookup id data) s = .next (s.workDone c .badDescriptor 0)) ∧
  (∀ (s : State) (id : Nat) (data : Bytes) (c : Cmd) (t : Table), s.admitting id 0x29 = some c → s.updateCheck c = .ok →
    s.table? c.part (c.f 95 64) = some t →
    (s.port c.port).rangeOk false (c.f 191 128) (c.f 223 192 * gradBytes (c.f 99 96) t.dim) = true →
    exec (.update id data) s =
      .next ((s.setCmd { c with version := t.current }).admitItem { c with version := t.current })) ∧
  (∀ (s : State) (id : Nat) (data : Bytes) (c : Cmd) (t : Table), s.admitting id 0x29 = none → s.atWork id 0x29 = some c →
    s.anyTable c.part (c.f 95 64) = some t → s.routesNext c = true → exec (.update id data) s = .next
      (s.routeAll c t .update (gradBytes (c.f 99 96) t.dim) (c.hostBytes data (c.f 223 192 * gradBytes (c.f 99 96) t.dim)))) ∧
  (∀ (s : State) (id : Nat) (data : Bytes) (c : Cmd) (t : Table), s.admitting id 0x21 = some c →
    s.table? c.part (c.f 95 64) = some t → c.f 103 99 = 0 → c.f 127 108 = 0 → c.f 511 224 = 0 →
    (c.f 96 96 = 1 → t.inState .opened ≠ 0) → (c.f 98 97 = 3 ∨ c.f 98 97 ≤ t.coarsest) → c.f 107 104 ≤ 2 →
    1 ≤ c.f 223 192 → c.f 223 192 ≤ 65536 →
    (s.port c.port).rangeOk false (c.f 191 128) (c.f 223 192 * rowBytes (c.f 107 104) t.dim) = true →
    exec (.tableWriteRows id data) s = .next (
      let c' := { c with version := if c.f 96 96 = 1 then t.inState .opened else t.current }
      (s.setCmd c').admitItem c')) ∧
  (∀ (s : State) (id : Nat) (data : Bytes) (c : Cmd) (t : Table), s.admitting id 0x21 = none → s.atWork id 0x21 = some c →
    s.anyTable c.part (c.f 95 64) = some t → s.routesNext c = true → exec (.tableWriteRows id data) s = .next
      (s.routeAll c t (.write (if c.f 98 97 = 3 then t.firstGrade else c.f 98 97)) (rowBytes (c.f 107 104) t.dim)
        (c.hostBytes data (c.f 223 192 * rowBytes (c.f 107 104) t.dim)))) ∧
  (∀ (s : State) (t : Table) (r : LaneRec), ((s.route t r).lane (s.rowCore r.part t r.id) (t.laneOf r.id)).queue =
    (s.lane (s.rowCore r.part t r.id) (t.laneOf r.id)).queue ++ [r]) ∧
  (∀ (s : State) (core lane : Nat) (r : LaneRec) (rest : List LaneRec), (s.lane core lane).queue = r :: rest →
    (s.lane core lane).hold = none → s.laneRuns core (s.lane core lane) = true →
    s.laneItem core lane = (s.setLane core lane { s.lane core lane with queue := rest }).applyRec r) ∧
  (∀ (s : State) (c : Cmd) (r : LaneRec) (t : Table) (v : Version) (g : Nat), s.cmd? r.cmd = some c →
    s.versionOf r.part r.table r.version = some (t, v) → r.op = .write g →
    s.applyRec r = (s.applyWrite c r g t v).2.recordDone r.cmd (s.applyWrite c r g t v).1)

/-- Regrading.  A policy in range is taken for the next window close; a due window closes, or waits and is counted while a pass
runs; a lane that has rested takes its next batch and holds it from that edge, its rows' new slots allocated; one edge later the
rows that are complete swap, and the hold ends where no row is left; two edges later the rest are abandoned and it ends in any
case; given-up slots whose time has come are freed.
It rests, in part, on R285, R286, R290, R291, R293. -/
def Obligations.RegradingMovesRowsInBatches : Prop :=
  (∀ (s : State) (id : Nat) (c : Cmd) (t : Table), s.control id 0x2A = some c → s.regradeCheck c = .ok →
    s.table? c.part (c.f 95 64) = some t → c.f 96 96 ≠ 1 → exec (.regradePolicy id) s =
      .next ((s.setTable c.part { t with closeNow := t.closeNow || c.f 97 97 = 1 }).finish id .ok 0)) ∧
  (∀ (s : State) (id : Nat) (c : Cmd) (t : Table), s.control id 0x2A = some c → s.regradeCheck c = .ok →
    s.table? c.part (c.f 95 64) = some t → c.f 96 96 = 1 → exec (.regradePolicy id) s = .next ((s.setTable c.part { t with
      nextPolicy := some
        { popShift := c.f 107 104, hyst := c.f 115 108, migBatch := c.f 119 116, regradePrio := c.f 122 120,
          windowTicks := c.f 159 128, thG0 := c.f 175 160, thG1 := c.f 191 176, thReady := c.f 207 192,
          readyLimit := c.f 239 208 },
      closeNow := t.closeNow || c.f 97 97 = 1 }).finish id .ok 0)) ∧
  (∀ (s : State) (p : PartNo) (table : Nat) (t : Table), s.table? p.val table = some t → s.closeDue t = true →
    s.passRuns p.val t = false → exec (.windowClose p table) s = .next (s.closeWindow p.val t)) ∧
  (∀ (s : State) (p : Nat) (t : Table), t.version? t.current = none →
    (s.closeWindow p t).anyTable p t.id = some { t with
      policy := t.nextPolicy.getD t.policy, nextPolicy := none, windows := t.windows + 1, windowStart := s.now,
      closeNow := false, closeLate := false }) ∧
  (∀ (s : State) (p : PartNo) (table : Nat) (t : Table), s.table? p.val table = some t → s.closeDue t = true →
    s.passRuns p.val t = true → t.closeLate = false → exec (.windowClose p table) s =
      .next ((s.setTable p.val { t with closeLate := true, closeNow := false }).bump (at_ Ob.REGRADE_LATE p.val))) ∧
  (∀ (s : State) (c : CoreNo) (l : LaneNo) (m x : Migration) (t : Table) (u : State), (s.lane c.val l.val).migrations = [m] →
    (∀ k, k < 8 → (s.lane c.val k).hold = none) → (s.lane c.val l.val).lastEnd = none → s.table? m.part m.table = some t →
    1 ≤ t.policy.migBatch → s.moveSlot m c.val = (some x, u) → (u.lane c.val l.val).queue = [] →
    (u.lane c.val l.val).migrations = [m] →
    exec (.migrationHold c l) s = .next ((u.setLane c.val l.val { u.lane c.val l.val with
      migrations := [], hold := some { edge := s.now, batch := [x], inFlight := false } }).setMoving x c.val)) ∧
  (∀ (s : State) (c : CoreNo) (l : LaneNo) (written : Nat) (h : LaneHold), (s.lane c.val l.val).hold = some h →
    s.since h.edge = 1 → h.inFlight = false → (State.moveRows c.val h.batch written s).1 = [] →
    exec (.migrationSwap c l written) s = .next (
      let u := (State.moveRows c.val h.batch written s).2
      u.setLane c.val l.val { u.lane c.val l.val with hold := none, lastEnd := some s.now })) ∧
  (∀ (s u : State) (core written : Nat) (m : Migration) (t : Table) (v : Version) (x : Nat × RowEntry × Bytes × Bytes),
    s.migrant m = some (t, v) → s.readMove m t v core = (some x, u) →
    State.moveRows core [m] (written + 1) s = ([], u.swapRow m t v core x)) ∧
  (∀ (s : State) (c : CoreNo) (l : LaneNo) (written : Nat) (h : LaneHold), (s.lane c.val l.val).hold = some h →
    2 ≤ s.since h.edge → s.since h.edge < 2 ^ 47 → exec (.migrationAbandon c l written) s = .next (
      let r := if h.inFlight then (h.batch, s) else State.moveRows c.val h.batch written s
      let u := r.1.foldl (fun (t : State) m => t.abandonRow m c.val true) r.2
      u.setLane c.val l.val { u.lane c.val l.val with hold := none, lastEnd := some s.now })) ∧
  (∀ (s : State) (c : CoreNo) (f : Freed), s.freed = [f] → f.core = c.val → 4 ≤ s.since f.edge →
    s.earlier f.part f.upTo = false → exec (.slotFree c) s = .next { s.freeSlot f with freed := [] })

/-! ### Engines, lanes and dictionaries -/

/-- A command for an engine that its checks pass joins its flow as an item and is queued; one that they refuse completes with
that status and RESULT 0 and joins no flow, and a refused selection is counted as one that has completed (the model's choice, log
entry 200).  COMPRESS also claims its staging regions first, and a region that another holder has refuses it with
RESOURCE_HELD.
It rests, in part, on R260, R327, R333, R339, R349, R354, R358. -/
def Obligations.EngineCommandsJoinTheirFlow : Prop :=
  (∀ (row : Nat → Bytes → Instr) (op : Nat) (check : State → Cmd → Status),
    (row, op, check) ∈ [(Instr.topk, 0x38, State.topkCheck), (.argmax, 0x39, State.argmaxCheck),
      (.matchCmd, 0x3C, State.matchCheck), (.copy, 0x30, State.copyAdmit), (.decompress, 0x35, State.decompressCheck),
      (.matmul, 0x40, State.matmulCheck)] →
    ∀ (s : State) (id : Nat) (data : Bytes) (c : Cmd), s.admitting id op = some c →
      (∀ t, check s c = .ok → s.enqueue c.part c.flow (mkItem 0x7FF c.tag 0 0 0 .ok (.cmd c.id)) = (.ok, t) →
        exec (row id data) s = .next (t.setCmd { c with stage := .queued })) ∧
      (check s c ≠ .ok → exec (row id data) s = .next (
        let t := s.finish c.id (check s c) 0
        if op = 0x38 ∨ op = 0x39 then t.bump (at_ Ob.TOPK_DONE c.part) else t))) ∧
  (∀ (s : State) (id : Nat) (data : Bytes) (c : Cmd) (t u : State), s.admitting id 0x34 = some c → s.compressCheck c = .ok →
    (∀ r ∈ c.staging, s.holder r = 0) → s.claim c.staging 4 c.id = some t →
    t.enqueue c.part c.flow (mkItem 0x7FF c.tag 0 0 0 .ok (.cmd c.id)) = (.ok, u) →
    exec (.compress id data) s = .next (u.setCmd { c with stage := .queued })) ∧
  (∀ (s : State) (id : Nat) (data : Bytes) (c : Cmd) (r : Nat), s.admitting id 0x34 = some c → s.compressCheck c = .ok →
    r ∈ c.staging → s.holder r ≠ 0 →
    exec (.compress id data) s = .next ((s.bump Ob.CLAIMS_REFUSED).finish c.id .resourceHeld 0))

/-- The work of an engine's command once its item runs on its unit.  MATMUL and COPY both read every descriptor first and stop at the first that
fails its check, before anything is written, with its number as RESULT; MATMUL then runs its jobs in order and its RESULT is the
number that ran; COPY writes every padding position, then the data of each descriptor in order, and its RESULT is the number
copied in full.  The copy of a descriptor keeps within its data, and a permutation sends no two elements to one place.  An input
that decodes is written, and its length is RESULT; a frame that is not smaller than its input is not written and is counted; a
selection holds no more than K entries, in the order of R322; MATCH stops at the first string descriptor that fails its check,
else its RESULT is the number of strings with a match.
It rests, in part, on R260, R327, R333, R339, R349, R354, R358. -/
def Obligations.EngineCommandsDoTheirWork : Prop :=
  (∀ (s t : State) (id : Nat) (data : Bytes) (c : Cmd) (ds : List (Option Bytes)) (d : Option Bytes) (i : Nat),
    s.admitting id 0x40 = none → s.atWork id 0x40 = some c → s.matJobs c.part (c.f 127 64) (c.f 136 128) = (ds, t) →
    ds.zipIdx.find? (fun x => t.matCheck c.part x.1 [(c.f 127 64, 128 * c.f 136 128)] != .ok) = some (d, i) →
    exec (.matmul id data) s = .next (t.workDone c (t.matCheck c.part d [(c.f 127 64, 128 * c.f 136 128)]) i)) ∧
  (∀ (s t u : State) (id : Nat) (data : Bytes) (c : Cmd) (ds : List (Option Bytes)) (it : Item) (done : Nat) (ok : Bool),
    s.admitting id 0x40 = none → s.atWork id 0x40 = some c → s.cmdItem c = some it →
    s.matJobs c.part (c.f 127 64) (c.f 136 128) = (ds, t) →
    (∀ d ∈ ds, t.matCheck c.part d [(c.f 127 64, 128 * c.f 136 128)] = .ok) →
    State.runJobs c.part it.unit t 0 (ds.filterMap fun d => d.map matJob) = ((done, ok), u) →
    exec (.matmul id data) s = .next (u.workDone c (if ok then .ok else .uncorrectable) done)) ∧
  (∀ (s t : State) (p e k n : Nat) (j : MatJob) (js : List MatJob), s.runJob p e j = ((true, k), t) →
    State.runJobs p e s n (j :: js) = State.runJobs p e ((t.matCycles p).bump (at_ Ob.ME_JOBS p)) (n + 1) js) ∧
  (∀ (s t : State) (id : Nat) (data : Bytes) (c : Cmd) (ds : List (Option Bytes)) (d : Option Bytes) (i : Nat),
    s.admitting id 0x30 = none → s.atWork id 0x30 = some c → s.matJobs c.part (c.f 127 64) (c.f 136 128) = (ds, t) →
    ds.zipIdx.find? (fun x => t.copyCheck c x.1 != .ok) = some (d, i) →
    exec (.copy id data) s = .next (
      (if t.copyCheck c d = .overlap then t.bump (at_ Ob.COPY_OVERLAP c.part) else t).workDone c (t.copyCheck c d) i)) ∧
  (∀ (s t : State) (id : Nat) (data : Bytes) (c : Cmd) (ds : List (Option Bytes)) (k l : Copying) (n : Nat) (ok : Bool),
    s.admitting id 0x30 = none → s.atWork id 0x30 = some c → s.matJobs c.part (c.f 127 64) (c.f 136 128) = (ds, t) →
    (∀ d ∈ ds, t.copyCheck c d = .ok) →
    Copying.pads { st := t, laid := [] } c data (ds.filterMap fun d => d.map copyDesc) = (true, k) →
    k.copies c data none 0 (ds.filterMap fun d => d.map copyDesc) = ((n, ok), l) →
    exec (.copy id data) s = .next (l.st.workDone c (if ok then .ok else .uncorrectable) n)) ∧
  (∀ (d : CopyDesc), ∀ i ∈ d.srcIdx, d.isData (d.outIdx i) = true) ∧
  (∀ (d : CopyDesc), d.permOk = true → ∀ i ∈ d.srcIdx, ∀ j ∈ d.srcIdx, d.outIdx i = d.outIdx j → i = j) ∧
  (∀ (s t u v : State) (id : Nat) (data b : Bytes) (c : Cmd) (l : List (Nat × Bytes)) (d : Dst), s.admitting id 0x35 = none →
    s.atWork id 0x35 = some c → c.f 98 98 = 0 → c.hostBytes data (c.f 223 192) = b →
    s.readDicts c.part c.dict (c.dictIds (if c.f 97 96 = 1 then [] else frameDicts (b.length + 1) b)) = (some l, t) →
    decodeInput (dictsOf l (c.f 95 64)) (c.f 97 96 = 1) (c.f 351 320) b = .ok d →
    t.readWindow c.part (t.unitOf c) d.far = (true, u) →
    (u.countUnit c.part (.ok d)).putOut c (c.f 99 99 = 1) (c.f 319 256) d.bytes = (true, v) →
    exec (.decompress id data) s = .next (v.workDone c .ok d.n)) ∧
  (∀ (s t v : State) (id : Nat) (data b f : Bytes) (c : Cmd) (l : List (Nat × Bytes)), s.admitting id 0x34 = none →
    s.atWork id 0x34 = some c → c.f 104 104 = 0 → c.hostBytes data (c.f 223 192) = b →
    s.readDicts c.part c.dict (c.dictIds []) = (some l, t) →
    zstdFrame (dictsOf l (c.f 95 64)) (c.f 97 96) (c.f 102 98) (c.f 95 64) (c.f 103 103 = 1) b = f →
    ((t.bump (at_ Ob.CHIP_IN_BYTES c.part) (c.f 223 192)).addWork c.part 4 (c.f 223 192)).lbufWrite (c.f 234 224 * 65536)
      (f.take (c.f 223 192 - 1)) = v →
    exec (.compress id data) s = .next (
      if c.f 223 192 ≤ f.length then (v.bump (at_ Ob.CHIP_NOT_SMALLER c.part)).workDone c .notSmaller 0
      else match v.lbufRead (c.f 234 224 * 65536) f.length with
        | (none, u) => u.workDone c .uncorrectable 0
        | (some out, u) =>
          let w := u.putOut c (c.f 105 105 = 1) (c.f 319 256) out
          if w.1 then w.2.workDone c .ok f.length else w.2.workDone c .uncorrectable 0)) ∧
  (∀ (s : State) (id : Nat) (data : Bytes) (c : Cmd), s.admitting id 0x38 = none → s.atWork id 0x38 = some c →
    s.topMerges c = true → ∃ (t : State) (st : Status) (n : Nat), exec (.topk id data) s = .next (t.workDone c st n) ∧
      n < 2 ^ 31 ∧ (c.topMode ≠ 2 → n ≤ c.topK)) ∧
  (∀ (c : Cmd) (es : List SelEntry), (topSelect c es).length ≤ c.topK ∧
    (topSelect c es).Pairwise (fun x y => y.above x = false)) ∧
  (∀ (s : State) (id : Nat) (data : Bytes) (c : Cmd), s.admitting id 0x39 = none → s.atWork id 0x39 = some c →
    ∃ (t : State) (st : Status) (n : Nat), exec (.argmax id data) s = .next (t.workDone c st n) ∧ n < 2 ^ 31 ∧
      (st = .ok ∨ st = .badDescriptor ∨ st = .uncorrectable)) ∧
  (∀ (s t : State) (id : Nat) (data : Bytes) (c : Cmd) (a : Bytes) (ds : List Bytes) (d : Bytes),
    s.admitting id 0x3C = none → s.atWork id 0x3C = some c → s.autoOf c.part (c.f 95 64) = some a →
    s.matchStrings c = (some ds, t) → ds.find? (fun d => t.stringCheck c.part d != .ok) = some d →
    exec (.matchCmd id data) s = .next (t.workDone c (t.stringCheck c.part d) 0)) ∧
  (∀ (s t : State) (id : Nat) (data : Bytes) (c : Cmd) (a : Bytes) (ds : List Bytes),
    s.admitting id 0x3C = none → s.atWork id 0x3C = some c → s.autoOf c.part (c.f 95 64) = some a →
    s.matchStrings c = (some ds, t) → (∀ d ∈ ds, t.stringCheck c.part d = .ok) →
    ∃ (u : State) (n : Nat) (ok : Bool), exec (.matchCmd id data) s =
      .next (u.workDone c (if ok then .ok else .uncorrectable) (if ok then n else 0)) ∧ n ≤ ds.length)

/-- Lanes and dictionaries.  Between Zstandard frames, with another item waiting and an edge passed, the running item goes to the
back of its lane's queue.  DICT_LOAD adds a dictionary that is well formed, fits and is new; DICT_UNLOAD of one that is held is
refused, else it waits for its edge, where the dictionary goes and the write is answered OK; a command admitted meanwhile keeps the
one it captured.  Where a dictionary lies, and
NO_RESOURCE where no vault has room, are the model's choices (log entry 170).
It rests, in part, on R352, R360, R361. -/
def Obligations.LanesAndDictionaries : Prop :=
  (∀ (s : State) (lane : Nat) (f q : Nat) (x : Nat × Nat) (rest : List (Nat × Nat)) (fl : Flow) (it : Item) (c : Cmd) (id : Nat),
    s.engine .chipD lane = (f, q) :: x :: rest → s.flow? (s.div.flowPart f) f = some fl →
    fl.running.find? (·.seq == q) = some it → it.work = .cmd id → s.cmd? id = some c → c.opcode = 0x35 → c.f 97 96 = 0 →
    c.stage = .running → look s.laneHeads lane = some (f, q) →
    exec (.laneFrameEnd lane) s =
      .next { s.setEngine .chipD lane (x :: rest ++ [(f, q)]) with laneHeads := dropAt s.laneHeads lane }) ∧
  (∀ (s : State) (lane : Nat) (f q : Nat), s.engine .chipD lane = [(f, q)] → exec (.laneFrameEnd lane) s = .next s) ∧
  (∀ (s : State) (acc : Access) (w : Writer) (v : Bytes) (t : State), s.arrive acc (isKey Ob.DICT_LOAD) = .go w v t →
    exec (.dictLoad acc) s = .next ((opDictLoad w v t).2.respond w.reply ((opDictLoad w v t).1.getD .ok))) ∧
  (∀ (w : Writer) (v b : Bytes) (p id : Nat) (s : State), leAt v 0 1 = p → leAt v 4 4 = id → v.drop 8 = b →
    opDictLoad w v s = (
      let st : Status :=
        if w.isHost ∧ w.part ≠ p then .notPermitted
        else if 1 < p ∨ id = 0 ∨ b.length = 0 ∨ 262144 < b.length ∨ leAt v 1 3 ≠ 0 ∨ dictOk id b = false then .badDescriptor
        else if 16 ≤ (s.part p).dicts.length ∨ 1048576 < (s.part p).dictBytes + b.length then .noResource
        else if (look (s.part p).dicts id).isSome then .resourceHeld else .ok
      if st ≠ .ok then (some st, s)
      else match s.placeDict p b with
        | (some d, t) => (some .ok, t.setPart p { t.part p with dicts := setAt (t.part p).dicts id d })
        | (none, _) => (some .noResource, s))) ∧
  (∀ (s : State) (p : Nat) (b : Bytes) (d : Dict) (t : State), s.placeDict p b = (some d, t) → d.bytes = b) ∧
  (∀ (s : State) (acc : Access) (w : Writer) (v : Bytes) (p id : Nat) (t : State),
    s.arrive acc (isKey Ob.DICT_UNLOAD) = .go w v t → bitsOf (leNat v) 7 0 = p → bitsOf (leNat v) 63 32 = id →
    (w.isHost = true → w.part = p) → p ≤ 1 → bitsOf (leNat v) 31 8 = 0 → (look (t.part p).dicts id).isSome = true →
    exec (.dictUnload acc) s = .next (
      if t.dictHeld p id then t.respond w.reply .resourceHeld
      else (t.setPart p { t.part p with dictUnload := (t.part p).dictUnload ++ [id] }).await .dictUnload
        (p * 2 ^ 32 + id) w.reply)) ∧
  (∀ (s : State) (p : PartNo) (id : Nat), (s.part p.val).dictUnload = [id] →
    exec (.dictUnloadEdge p) s = .next (({ s.setPart p.val { s.part p.val with
      dicts := dropAt (s.part p.val).dicts id, dictUnload := [] } with
        cmds := s.cmds.map fun c => if c.holdsDict p.val id then { c with dict := look (s.part p.val).dicts id } else c } :
          State).answer .dictUnload (p.val * 2 ^ 32 + id) .ok))

/-! ### Sessions, blocks and events -/

/-- A request in a session is carried out only in a session that exists on its path and with the session's own tag over header
and payload; in a confirmed session its counter is also higher than that of every request before it, so no recorded message can
be carried out again. -/
def Obligations.SessionRequestsCarryTheirTag : Prop :=
  ∀ (s t : State) (m : BopMsg) (op : Nat → Bool) (w : Writer) (x : Bop), s.intake m op = .go w x t → x.session ≠ 0 →
    ∃ v, s.session? x.session = some v ∧ v.path = msgPath m ∧ bopTag v.ks 1 (x.header ++ x.payload) = x.tag ∧
      (v.confirmed = true → v.lastCtr < x.ctr) ∧ (v.confirmed = false → x.op = 0x03 ∧ x.ctr = 1)

/-- Sessions and blocks.  HELLO answers; SESSION_INIT with a present, unlocked key of its own path opens a session that is not
confirmed, under the lowest free ID; SESSION_CONFIRM confirms it and clears the key's failures; SESSION_CLOSE ends it with its
block, its events and its subscription, as the two timeouts do; a lock expires after a second of ticks.  A block opens, takes its
bytes in order, and is dropped or written as one value.  A message without a form is counted, an unknown OP is refused.  Messages are taken in the order they come: one of M that comes while
others wait joins them, and the seventeenth to wait is discarded (how a message waits is the model's choice, log entry 176).
It rests, in part, on R369, R370, R373, R376, R377, R382. -/
def Obligations.SessionsAndBlocksFollowTheirRequests : Prop :=
  (∀ (s t : State) (m : BopMsg) (w : Writer) (x : Bop), s.intake m (· = 0x01) = .go w x t →
    exec (.hello m) s = .next (t.respond w.reply .ok t.helloPayload)) ∧
  (∀ (s t : State) (m : BopMsg) (w : Writer) (x : Bop), s.intake m (· = 0x02) = .go w x t →
    exec (.sessionInit m) s = .next (
      let slot := leAt x.payload 0 1
      let nd := leBytes 16 (Config.sessionNonce t.nv.bootCount t.mgmt.nonces)
      if 5 < slot then t.respond w.reply .badDescriptor
      else if slotInPath (msgPath m) slot = false ∨ t.keyEmpty slot = true ∨ t.keyLocked slot = true then
        t.respond w.reply .authFail
      else if (match msgPath m with | .m => 8 | .mbox _ => 1) ≤
          (t.mgmt.sessions.filter fun y => y.path == msgPath m).length then t.respond w.reply .noResource
      else
        let v : Session := { id := t.freeSession, path := msgPath m, slot := slot,
                             ks := hmac (t.key slot) (ascii "BOP1" ++ sliceB x.payload 4 16 ++ nd ++ beBytes 2 t.freeSession),
                             confirmed := false, since := t.now, lastCtr := 0, lastTag := [], cached := none,
                             eventCtr := 0, sub := none }
        ({ t with mgmt := { t.mgmt with nonces := t.mgmt.nonces + 1, sessions := t.mgmt.sessions ++ [v] } }).respond
          w.reply .ok (leBytes 2 t.freeSession ++ leBytes 6 0 ++ nd))) ∧
  (∀ (s : State), s.session? s.freeSession = none ∧ 1 ≤ s.freeSession) ∧
  (∀ (s t : State) (m : BopMsg) (w : Writer) (x : Bop) (v : Session), s.intake m (· = 0x03) = .go w x t →
    badRequest x = false → t.session? x.session = some v →
    exec (.sessionConfirm m) s = .next (
      let u := t.setSession { v with confirmed := true, since := t.now, lastCtr := max v.lastCtr x.ctr, lastTag := x.tag }
      ({ u with mgmt := { u.mgmt with fails := dropAt u.mgmt.fails v.slot } }).respond w.reply .ok)) ∧
  (∀ (s t : State) (m : BopMsg) (w : Writer) (x : Bop), s.intake m (· = 0x04) = .go w x t →
    exec (.sessionClose m) s = .next ((t.respond w.reply .ok).endSession x.session)) ∧
  (∀ (s : State) (id : Nat), (s.endSession id).session? id = none ∧ (∀ e ∈ (s.endSession id).mgmt.events, e.session ≠ id) ∧
    (s.endSession id).mgmt.blocks = dropAt s.mgmt.blocks id) ∧
  (∀ (s : State) (id : Nat) (v : Session), s.session? id = some v → v.confirmed = false → 4000000 ≤ s.since v.since →
    exec (.confirmTimeout id) s = .next (s.endSession id)) ∧
  (∀ (s : State) (id : Nat) (v : Session), s.session? id = some v → v.confirmed = true →
    s.mgmt.idle ≤ s.since v.since → exec (.sessionIdle id) s = .next (s.endSession id)) ∧
  (∀ (s : State) (slot : KeySlotNo) (t : Nat), look s.mgmt.locks slot.val = some t → 4000000 ≤ s.since t →
    exec (.lockExpiry slot) s = .next { s with mgmt := { s.mgmt with locks := dropAt s.mgmt.locks slot.val } }) ∧
  (∀ (s t : State) (m : BopMsg) (w : Writer) (x : Bop), s.intake m (· = 0x18) = .go w x t →
    exec (.blockOpen m) s = .next (
      let who := blockHolder (msgPath m) x.session
      let k := bopTarget x
      let total := leAt x.payload 4 4
      let st : Status := if w.rom = false ∧ t.mayWrite w.who k.1 k.2 ≠ .ok then t.mayWrite w.who k.1 k.2
        else if (odFind k.1 k.2).any (fun r => r.ty = 8) = false ∨ total = 0 ∨ 67108864 < total then .badDescriptor
        else if (look t.mgmt.blocks who).isSome ∨ (w.rom = true ∧ t.mgmt.blocks.isEmpty = false) ∨
          (t.mgmt.blocks.any fun b => (b.2.idx, b.2.sub) == k) = true then .resourceHeld
        else if 67108864 < t.blockBytes + total then .noResource else .ok
      if st = .ok then ({ t with mgmt := { t.mgmt with
        blocks := setAt t.mgmt.blocks who { idx := k.1, sub := k.2, total := total, bytes := [] } } }).respond w.reply .ok
      else t.respond w.reply st)) ∧
  (∀ (s t : State) (m : BopMsg) (w : Writer) (x : Bop), s.intake m (· = 0x19) = .go w x t →
    exec (.blockData m) s = .next (
      let who := blockHolder (msgPath m) x.session
      match look t.mgmt.blocks who with
      | none => t.respond w.reply .badDescriptor
      | some b =>
        if leAt x.payload 0 4 = b.bytes.length ∧ b.bytes.length + (x.payload.drop 4).length ≤ b.total then
          ({ t with mgmt := { t.mgmt with
            blocks := setAt t.mgmt.blocks who { b with bytes := b.bytes ++ x.payload.drop 4 } } }).respond w.reply .ok
        else t.respond w.reply .badDescriptor)) ∧
  (∀ (s t : State) (m : BopMsg) (w : Writer) (x : Bop), s.intake m (· = 0x1B) = .go w x t →
    exec (.blockAbort m) s = .next (
      let who := blockHolder (msgPath m) x.session
      if (look t.mgmt.blocks who).isSome then
        ({ t with mgmt := { t.mgmt with blocks := dropAt t.mgmt.blocks who } }).respond w.reply .ok
      else t.respond w.reply .badDescriptor)) ∧
  (∀ (s t : State) (m : BopMsg) (w : Writer) (v : Bytes), (parseBop (s.msgBytes m)).op = 0x1A →
    (look s.mgmt.blocks (blockHolder (msgPath m) (parseBop (s.msgBytes m)).session)).isSome = true →
    s.arrive (.bop m) (fun _ _ => true) = .go w v t →
    exec (.blockCommit m) s = .next (match opObject w v t with
      | (some st, u) => u.respond w.reply st
      | (none, u) => u)) ∧
  (∀ (s t : State) (m : BopMsg) (w : Writer) (x : Bop), (parseBop (s.msgBytes m)).op = 0x1A →
    (look s.mgmt.blocks (blockHolder (msgPath m) (parseBop (s.msgBytes m)).session)).isSome = false →
    s.intake m (· = 0x1A) = .go w x t → exec (.blockCommit m) s = .next (t.respond w.reply .badDescriptor)) ∧
  (∀ (s : State) (q r : BopMsg) (rest : List BopMsg), s.mgmt.mailboxes = q :: rest →
    (s.takeMessage q = some { s with mgmt := { s.mgmt with mailboxes := rest } } ∧ (r ≠ q → s.takeMessage r = none))) ∧
  (∀ (s : State) (m : BopMsg), onM m = true → s.mgmt.mailboxes.contains m = false → s.lineUp m =
    if 16 ≤ (s.mgmt.mailboxes.filter onM).length then s.bump Ob.BOP_QUEUE_DROPS
    else { s with mgmt := { s.mgmt with mailboxes := s.mgmt.mailboxes ++ [m] } }) ∧
  (∀ (s : State) (src srcPort : Nat) (multi : Bool) (b : Bytes), s.hears (.m src srcPort multi b) = true →
    s.malformed (.m src srcPort multi b) = true →
    exec (.bopMalformed (.m src srcPort multi b)) s = .next (s.bump Ob.BOP_MALFORMED)) ∧
  (∀ (s t : State) (p : PortNo), s.hears (.mbox p) = true → s.malformed (.mbox p) = true →
    s.takeMessage (.mbox p) = some t → exec (.bopMalformed (.mbox p)) s =
      .next ((t.bump Ob.BOP_MALFORMED).mboxAnswer p.val Status.badDescriptor.code [])) ∧
  (∀ (s t : State) (src srcPort : Nat) (multi : Bool) (b : Bytes), s.hears (.m src srcPort multi b) = true →
    s.malformed (.m src srcPort multi b) = false → (bopOps.contains (parseBop b).op = false ∨ (parseBop b).op = 0x31) →
    (parseBop b).kind = 1 → (parseBop b).session = 0 → frameOk src multi (parseBop b).op = true →
    s.takeMessage (.m src srcPort multi b) = some t → exec (.bopMalformed (.m src srcPort multi b)) s = .next (t.respond
      (.bop .m src srcPort 0 [] (parseBop b).seq (parseBop b).ctr (parseBop b).op) .badDescriptor)) ∧
  (∀ (s t : State) (p : PortNo) (x : Bop), s.hears (.mbox p) = true → s.malformed (.mbox p) = false →
    parseBop (s.msgBytes (.mbox p)) = x → (bopOps.contains x.op = false ∨ x.op = 0x31) → x.kind = 1 → x.session = 0 →
    s.takeMessage (.mbox p) = some t → exec (.bopMalformed (.mbox p)) s =
      .next (t.respond (.bop (.mbox p) 0 0 0 [] x.seq x.ctr x.op) .badDescriptor))

/-- Reads, writes, the store, events and the single-pair bus.  READ answers the bytes of its object from the offset on, cut to
what a response carries; a WRITE of an object without a row of its own writes it; STORE and RESTORE_DEFAULTS write one record;
SUBSCRIBE keeps the mask, and one that ends the subscription ends its events (the model's choice, log entry 105); an occurrence reaches every session that subscribes to it, an event is sent again or given up, and an
acknowledgement clears it.  Frames on M leave at a transmit opportunity, and a follower without beacons falls back.
It rests, in part, on R364, R365, R366, R380, R381, R383, R384, R385. -/
def Obligations.ReadsStoresAndEvents : Prop :=
  (∀ (s t : State) (m : BopMsg) (w : Writer) (x : Bop) (r : OdRow), s.intake m (· = 0x10) = .go w x t → w.rom = false →
    odFind (bopTarget x).1 (bopTarget x).2 = some r → (bopTarget x).2 ≠ 0 →
    t.mayRead w.who (bopTarget x).1 (bopTarget x).2 = .ok →
    (t.objectBytes w.who ((bopTarget x).1 * 256 + (bopTarget x).2)).1.1 = .ok → leAt x.payload 4 4 = 0 →
    exec (.read m) s = .next (
      let u := t.objectBytes w.who ((bopTarget x).1 * 256 + (bopTarget x).2)
      let n := if leAt x.payload 8 2 = 0 then u.1.2.length else min (leAt x.payload 8 2) u.1.2.length
      let room := roomFor (msgPath m) x.session
      u.2.respond w.reply (if room < n then .partialOk else .ok) (u.1.2.take (min n room)))) ∧
  (∀ (s t : State) (m : BopMsg) (w : Writer) (v : Bytes), (parseBop (s.msgBytes m)).op = 0x11 →
    s.arrive (.bop m) unowned = .go w v t →
    exec (.write m) s = .next (match opPlain w v t with
      | (some st, u) => u.respond w.reply st
      | (none, u) => u)) ∧
  (∀ (s t : State) (m : BopMsg) (w : Writer) (x : Bop), s.intake m (· = 0x20) = .go w x t →
    exec (.store m) s = .next (
      let area := leAt x.payload 0 1
      let es := (storedKeys area).map fun k => (k, t.heldBytes k)
      if t.recCheck 0 area es = .ok then
        (t.writeRec 0 area es).2.respond w.reply (if (t.writeRec 0 area es).1 then .ok else .noResource)
      else t.respond w.reply (t.recCheck 0 area es))) ∧
  (∀ (s t : State) (m : BopMsg) (w : Writer) (x : Bop), s.intake m (· = 0x21) = .go w x t →
    exec (.restoreDefaults m) s = .next (
      let area := leAt x.payload 0 1
      if t.recCheck 1 area [] = .ok then
        (t.writeRec 1 area []).2.respond w.reply (if (t.writeRec 1 area []).1 then .ok else .noResource)
      else t.respond w.reply (t.recCheck 1 area []))) ∧
  (∀ (s t : State) (src srcPort : Nat) (multi : Bool) (b : Bytes) (w : Writer) (x : Bop) (v : Session),
    s.intake (.m src srcPort multi b) (· = 0x30) = .go w x t → t.session? x.session = some v →
    exec (.subscribe (.m src srcPort multi b)) s = .next (
      let mask := leAt x.payload 0 4
      if 2 ^ 14 ≤ mask then t.respond w.reply .badDescriptor
      else (({ t with mgmt := { t.mgmt with
          events := t.mgmt.events.filter fun e => mask != 0 || e.session != v.id } } : State).setSession { v with
        sub := if mask = 0 then none else some { mask := mask, src := src, srcPort := srcPort } }).respond w.reply .ok)) ∧
  (∀ (s : State) (cause part detail : Nat) (o : Occurrence),
    s.mgmt.occurred.find? (fun o => o.cause == cause && o.part == part && o.detail == detail) = some o →
    exec (.event cause part detail) s = .next (s.mgmt.sessions.foldl (fun t v => t.hearEvent o v)
      { s with mgmt := { s.mgmt with occurred := s.mgmt.occurred.erase o } })) ∧
  (∀ (s : State) (o : Occurrence) (v : Session) (u : Subscription), v.sub = some u → bitOf u.mask o.cause = false →
    s.hearEvent o v = s) ∧
  (∀ (s : State) (n : Nat) (e : EventRec), s.mgmt.events.find? (·.number == n) = some e → 400000 ≤ s.since e.sent →
    8 ≤ e.resends → exec (.eventRetry n) s =
      .next (({ s with mgmt := { s.mgmt with events := s.mgmt.events.filter (·.number != n) } }).bump Ob.EVENTS_LOST)) ∧
  (∀ (s : State) (n : Nat) (e : EventRec), s.mgmt.events.find? (·.number == n) = some e → 400000 ≤ s.since e.sent →
    e.resends < 8 → exec (.eventRetry n) s = .next (
      let e' := { e with sent := s.now, resends := e.resends + 1 }
      (({ s with mgmt := { s.mgmt with
        events := s.mgmt.events.map fun (y : EventRec) => if y.number = n then e' else y } }).bump
          Ob.EVENT_RETRIES).sendEvent e')) ∧
  (∀ (s t : State) (src srcPort : Nat) (multi : Bool) (b : Bytes) (v : Session), s.hears (.m src srcPort multi b) = true →
    s.malformed (.m src srcPort multi b) = false → (parseBop b).op = 0x32 → (parseBop b).kind = 4 →
    frameOk src multi 0x32 = true → s.takeMessage (.m src srcPort multi b) = some t →
    t.session? (parseBop b).session = some v → v.confirmed = true →
    bopTag v.ks 1 ((parseBop b).header ++ (parseBop b).payload) = (parseBop b).tag →
    exec (.eventAck (.m src srcPort multi b)) s = .next { t with mgmt := { t.mgmt with
      events := t.mgmt.events.filter fun e => !(e.session == v.id && e.number == (parseBop b).seq) } }) ∧
  (∀ (s : State), s.get Ob.PLCA_STATUS = 1 → s.clk.xoOk = true →
    exec .transmitOpportunity s = .next (s.flushTx (1 + s.mgmt.maxBc))) ∧
  (∀ (s : State) (n : Nat), (s.flushTx n).out = (s.mgmt.tx.take n).reverse ++ s.out ∧ (s.flushTx n).mgmt.tx = s.mgmt.tx.drop n) ∧
  (∀ (s : State), s.mgmt.role = 0 → s.get Ob.PLCA_NODE_ID ≠ 255 → s.clk.xoOk = true → s.boot.mode ≠ .off →
    exec .beacon s = .next (s.put Ob.PLCA_STATUS 1)) ∧
  (∀ (s : State), s.mgmt.role = 0 → s.get Ob.PLCA_STATUS = 1 →
    exec .beaconTimeout s = .next (((s.put Ob.PLCA_STATUS 0).bump Ob.PLCA_FALLBACKS).flushTx s.mgmt.tx.length)) ∧
  (∀ (s : State), s.mgmt.role = 1 → s.clk.xoOk = true → s.boot.mode ≠ .off →
    exec .beaconTransmit s = .next ((s.put Ob.PLCA_STATUS 1).emit .beacon))

/-! ### Objects, division and security -/

/-- Objects and the division.  OD_READ writes the bytes of its object to the host, cut to the room given; OD_WRITE of an object
without a row of its own writes it; the telemetry timer and the debug pins are claimed and given up by the values written; a pool
above its limit is refused, else it waits for an APPLY; a key slot takes its key after the answer; an APPLY whose pending division
passes holds both partitions in reset, and PART_RESET the one it names.
It rests, in part, on R26, R106, R136, R378, R395, R401, R402. -/
def Obligations.ObjectsAnswerTheirWriters : Prop :=
  (∀ (s : State) (id : Nat) (c : Cmd), s.control id 0x50 = some c → s.odReadCheck c = .ok →
    s.mayRead (hostPrincipal c.port) (c.f 79 64) (c.f 87 80) = .ok →
    (s.objectBytes (hostPrincipal c.port) (c.f 79 64 * 256 + c.f 87 80)).1.1 = .ok → c.f 127 96 = 0 →
    exec (.odRead id) s = .next (
      let r := s.objectBytes (hostPrincipal c.port) (c.f 79 64 * 256 + c.f 87 80)
      let want := if c.f 159 128 = 0 then r.1.2.length else min (c.f 159 128) r.1.2.length
      let n := min want (c.f 287 256)
      (if n = 0 then r.2 else r.2.dmaWrite id c.port (c.f 255 192) (r.1.2.take n)).finish id
        (if n < want then .partialOk else .ok) n)) ∧
  (∀ (s t : State) (id : Nat) (data : Bytes) (w : Writer) (v : Bytes), s.arrive (.ring id data) unowned = .go w v t →
    exec (.odWrite id data) s = .next (match opPlain w v t with
      | (some st, u) => u.respond w.reply st
      | (none, u) => u)) ∧
  (∀ (s t : State) (acc : Access) (w : Writer) (v : Bytes), s.arrive acc (isKey Ob.TELEMETRY_PERIOD) = .go w v t →
    exec (.telemetryPeriod acc) s = .next (
      let n := leNat v
      if n ≠ 0 ∧ (n < 16 ∨ 4000000 < n) then t.respond w.reply .badDescriptor
      else if n ≠ 0 ∧ t.get Ob.TIMER_HOLDER = 2 then (t.bump Ob.CLAIMS_REFUSED).respond w.reply .resourceHeld
      else
        let u := t.put Ob.TELEMETRY_PERIOD n
        (if n ≠ 0 then (if t.get Ob.TIMER_HOLDER = 1 then u else (u.put Ob.TIMER_HOLDER 1).setTimer n)
          else if t.get Ob.TIMER_HOLDER = 1 then (u.put Ob.TIMER_HOLDER 0).setTimer 0 else u).respond w.reply .ok)) ∧
  (∀ (s t : State) (acc : Access) (w : Writer) (v : Bytes), s.arrive acc (isKey Ob.DEBUG_UART_ENABLE) = .go w v t →
    exec (.debugUartEnable acc) s = .next (
      let n := leNat v
      if 1 < n then t.respond w.reply .badDescriptor
      else if n = 1 ∧ t.get Ob.PIN_HOLDER = 2 then (t.bump Ob.CLAIMS_REFUSED).respond w.reply .resourceHeld
      else
        let u := t.put Ob.DEBUG_UART_ENABLE n
        (if n = 1 then u.put Ob.PIN_HOLDER 1 else if u.get Ob.PIN_HOLDER = 1 then u.put Ob.PIN_HOLDER 0 else u).respond
          w.reply .ok)) ∧
  (∀ (s t : State) (acc : Access) (w : Writer) (v : Bytes), s.arrive acc (fun k v => isKey Ob.ITEM_POOL_P0 k v ||
      isKey Ob.ITEM_POOL_P1 k v || isKey Ob.YARD_ITEM_MIB k v) = .go w v t →
    exec (.itemPool acc) s = .next (
      let k := w.idx * 256 + w.sub
      let limit := if k = Ob.ITEM_POOL_P0 then t.get Ob.LBUF_P0 else if k = Ob.ITEM_POOL_P1 then 2048 - t.get Ob.LBUF_P0
        else 1024
      if limit < leNat v then t.respond w.reply .badDescriptor else (t.put k (leNat v)).respond w.reply .ok)) ∧
  (∀ (s t : State) (acc : Access) (w : Writer) (v : Bytes),
    s.arrive acc (fun k _ => (keySlot? k.1 k.2).isSome) = .go w v t →
    exec (.keySlotWrite acc) s = .next (
      let slot := (keySlot? w.idx w.sub).getD 0
      if t.keyWriteCheck w slot ≠ .ok then t.respond w.reply (t.keyWriteCheck w slot)
      else if t.boot.writing.isSome then t.respond w.reply .resourceHeld
      else (t.respond w.reply .ok).storeKey slot (w.unwrap v))) ∧
  (∀ (s t : State) (acc : Access) (w : Writer) (v : Bytes), s.arrive acc (isKey Ob.APPLY) = .go w v t → leNat v = 1 →
    t.applying = false → t.applyOk = false → exec (.apply acc) s =
      .next ((t.put Ob.APPLY_STATUS Status.badDescriptor.code).respond w.reply .badDescriptor)) ∧
  (∀ (s t : State) (acc : Access) (w : Writer) (v : Bytes), s.arrive acc (isKey Ob.APPLY) = .go w v t → leNat v = 1 →
    t.applying = false → t.applyOk = true → ∃ u, exec (.apply acc) s = .next u ∧ u.regions = [] ∧
      (u.part 0).resetting = true ∧ (u.part 1).resetting = true) ∧
  (∀ (s t : State) (acc : Access) (w : Writer) (v : Bytes), s.arrive acc (isKey Ob.APPLY) = .go w v t → leNat v = 1 →
    t.applying = true → exec (.apply acc) s = .next (t.await .apply 1 w.reply)) ∧
  (∀ (s t : State) (acc : Access) (w : Writer) (v : Bytes), s.arrive acc (isKey Ob.PART_RESET) = .go w v t → leNat v ≤ 1 →
    (w.who == .m || (!t.div.shared && w.part = leNat v)) = true →
    (t.resets.any fun m => 2 ≤ m.reach || m.part == leNat v) = true →
    exec (.partReset acc) s = .next (t.await .partReset (leNat v) w.reply)) ∧
  (∀ (s t : State) (acc : Access) (w : Writer) (v : Bytes), s.arrive acc (isKey Ob.PART_RESET) = .go w v t → leNat v ≤ 1 →
    (w.who == .m || (!t.div.shared && w.part = leNat v)) = true →
    (t.resets.any fun m => 2 ≤ m.reach || m.part == leNat v) = false →
    ∃ u, exec (.partReset acc) s = .next u ∧ (u.part (leNat v)).resetting = true ∧
      ∃ m ∈ u.resets, m.cause = 0x34 ∧ m.part = leNat v) ∧
  (∀ (s t : State) (acc : Access) (w : Writer) (v : Bytes), s.arrive acc (isKey Ob.PART_RESET) = .go w v t →
    1 < leNat v → exec (.partReset acc) s = .next (t.respond w.reply .badDescriptor))

/-- Security.  SVN_COMMIT raises SVN_MIN up to the value and never above the running image; a life-cycle request, a debug
request and a debug token are checked in order and change nothing where they fail, and one that passes resets the part; a new
image is checked before the first erase; ATTEST writes its report to the host and ATTEST_NONCE keeps one to be read.
It rests, in part, on R416, R419, R424, R427, R430, R432. -/
def Obligations.SecurityRequestsAreChecked : Prop :=
  (∀ (s t : State) (acc : Access) (w : Writer) (v : Bytes), s.arrive acc (isKey Ob.SVN_COMMIT) = .go w v t →
    exec (.svnCommit acc) s = .next (
      if 63 < leNat v ∨ t.boot.svn < leNat v then t.respond w.reply .badDescriptor
      else ({ t with nv := { t.nv with svnMin := max t.nv.svnMin (leNat v) } }).respond w.reply .ok)) ∧
  (∀ (s t : State) (acc : Access) (w : Writer) (v : Bytes), s.arrive acc (isKey Ob.LC_REQUEST) = .go w v t →
    t.transitionCheck w v ≠ .ok → exec (.lcRequest acc) s = .next (t.respond w.reply (t.transitionCheck w v))) ∧
  (∀ (s t : State) (acc : Access) (w : Writer) (v : Bytes), s.arrive acc (isKey Ob.LC_REQUEST) = .go w v t →
    t.transitionCheck w v = .ok → ∃ u, exec (.lcRequest acc) s = .next u ∧ u.nv.lc = leAt v 0 1 ∧
      u.boot.released = false ∧ u.boot.oldLc = some t.nv.lc ∧ u.nv.svnMin = t.nv.svnMin) ∧
  (∀ (lc target n : Nat), transitionLen lc target = some n → lc < target ∧ target ≤ 4 ∧ (target ≠ 4 → target = lc + 1)) ∧
  (∀ (s t : State) (acc : Access) (w : Writer) (v : Bytes), s.arrive acc (isKey Ob.DEBUG_UNLOCK) = .go w v t →
    exec (.debugUnlock acc) s = .next (
      if leNat v ≠ 1 then t.respond w.reply .badDescriptor
      else if t.nv.lc ≠ 2 then t.respond w.reply .locked
      else if w.slot ≠ some 0 then t.respond w.reply .authFail
      else t.grantDebug w.reply)) ∧
  (∀ (s t : State) (acc : Access) (w : Writer) (v : Bytes), s.arrive acc (isKey Ob.DEBUG_TOKEN) = .go w v t →
    exec (.debugToken acc) s = .next (
      if t.nv.lc ≠ 3 then t.respond w.reply .locked
      else if t.tokenOk "RMY-DBG" 0 v = false then t.respond w.reply .signatureBad
      else t.grantDebug w.reply)) ∧
  (∀ (n : Nv) (img : Bytes), n.checkImage img = .ok → n.svnMin ≤ leAt img 24 1 ∧ imageForm img = true) ∧
  (∀ (w : Writer) (v : Bytes) (s : State), s.boot.writing = none → s.nv.checkImage v ≠ .ok →
    opFirmware w v s = (some (s.nv.checkImage v), s)) ∧
  (∀ (s : State) (img : Bytes), s.boot.writing = some img → exec (.firmwareWritten false) s = .next (
    (((({ s with boot := { s.boot with writing := none } } : State).put Ob.FW_UPDATE_STATE 3).flushLog).answer
      .firmware 0 .noResource))) ∧
  (∀ (s : State) (img : Bytes), s.boot.writing = some img → s.boot.mode = .running →
    ∃ u, exec (.firmwareWritten true) s = .next u ∧ u.nv.image = img ∧ u.nv.committed = true ∧ u.boot.writing = none) ∧
  (∀ (s : State) (id : Nat) (c : Cmd), s.control id 0x60 = some c → exec (.attest id) s = .next (
    if c.f 511 416 ≠ 0 ∨ c.f 415 384 < 18128 then s.finish id .badDescriptor 0
    else if s.nv.lc = 0 ∨ s.nv.lc = 4 then s.finish id .locked 0
    else
      let r := s.report c.part (leBytes 32 (c.f 319 64))
      (r.2.dmaWrite id c.port (c.f 383 320) r.1).finish id .ok r.1.length)) ∧
  (∀ (s t : State) (acc : Access) (w : Writer) (v : Bytes), s.arrive acc (isKey Ob.ATTEST_NONCE) = .go w v t →
    exec (.attestNonce acc) s =
      .next (((t.report 2 v).2.dput Ob.ATTEST_REPORT (t.report 2 v).1).respond w.reply .ok))

/-- The boot.  A scrapped part stays stopped, with the strap's settings on its management port; a strap that asks for recovery, a part without a committed image and an image that
fails its checks enter recovery; an image that passes runs, with its measurements.  While the part is in reset, or once it has
booted, BOOT does nothing.  Every boot that is not of a scrapped part counts itself.
It rests, in part, on R417. -/
def Obligations.BootRunsOrRecovers : Prop :=
  (∀ (s : State), s.boot.released = false ∨ s.boot.mode ≠ .off → exec .boot s = .next s) ∧
  (∀ (s : State), s.boot.released = true → s.boot.mode = .off → s.nv.lc = 4 →
    exec .boot s = .next (({ s with boot := { s.boot with mode := .stopped } }.applyStrap
      (strapOf (s.get Ob.CFG_CODE))).startPlca)) ∧
  (∀ (s : State), s.boot.released = true → s.boot.mode = .off → s.nv.lc ≠ 4 →
    ((strapOf (s.get Ob.CFG_CODE)).recovery = true ∨ s.nv.committed = false) →
    ∃ t, exec .boot s = .next t ∧ t.boot.mode = .recovery ∧ t.nv.bootCount = satAdd 0xFFFFFFFF s.nv.bootCount 1) ∧
  (∀ (s : State), s.boot.released = true → s.boot.mode = .off → s.nv.lc ≠ 4 →
    (strapOf (s.get Ob.CFG_CODE)).recovery = false → s.nv.committed = true →
    ∃ t, exec .boot s = .next t ∧ t.nv.bootCount = satAdd 0xFFFFFFFF s.nv.bootCount 1 ∧
      (s.nv.checkImage s.nv.image ≠ .ok → t.boot.mode = .recovery) ∧
      (s.nv.checkImage s.nv.image = .ok → t.boot.mode = .running ∧ t.boot.svn = leAt s.nv.image 24 1 ∧
        t.boot.fwVersion = leAt s.nv.image 16 4 ∧
        t.boot.fwHash = sha256 (sliceB s.nv.image (leAt s.nv.image 32 4) (leAt s.nv.image 36 4))))

/-! ### The scaler -/

/-- Metering.  A sample advances the scaler's time by one four-thousandth of a second and never lowers the energy unless its
64-bit sum wraps; a sample whose power is below zero adds nothing.  The interval whose last sample has been taken closes into one
signed record, which the flash then takes into the slot of its number; a checkpoint holds what a power-up restores, and a power-up
closes the interval it was taken in.
It rests, in part, on R437, R440, R445, R446. -/
def Obligations.ScalerMetersAndRecords : Prop :=
  (∀ (s : State) (v i d : Int), s.scl.powered = true → s.scl.sub < 4000 →
    ∃ t, exec (.sample v i d) s = .next t ∧ t.scl.sub < 4000 ∧
      4000 * t.scl.scalerS + t.scl.sub = 4000 * s.scl.scalerS + s.scl.sub + 1 ∧
      (s.scl.due = false → t.scl.recNo = s.scl.recNo ∧ t.scl.signed = s.scl.signed) ∧
      (s.scl.due = true → t.scl.recNo = s.scl.recNo + 1 ∧ t.scl.signed.length = s.scl.signed.length + 1)) ∧
  (∀ (s : State) (v i d : Int), s.scl.powered = true →
    ∃ t e, exec (.sample v i d) s = .next t ∧ t.scl.acc = (s.scl.acc + e) % 2 ^ 64 ∧
      (((s.scl.closeDue.calibrate v i d).1.mul (s.scl.closeDue.calibrate v i d).2).n < 0 →
        fullV.le (s.scl.closeDue.calibrate v i d).1 = false → fullI.le (s.scl.closeDue.calibrate v i d).2 = false →
        e = 0 ∧ bitOf t.scl.interval.flags 6 = true)) ∧
  (∀ (s : State) (v i d : Int), s.scl.powered = false → exec (.sample v i d) s = .next s) ∧
  (∀ (s : State), s.scl.powered = true → s.scl.due = true →
    exec .intervalClose s = .next (s.setScl (s.scl.close s.scl.scalerS 0 0))) ∧
  (∀ (x : Scaler) (endS add nf : Nat), (x.close endS add nf).recNo = x.recNo + 1 ∧ (x.close endS add nf).acc = x.acc ∧
    (x.close endS add nf).audit = x.audit ∧ (x.close endS add nf).due = false ∧
    (x.close endS add nf).signed.map (·.1) = x.signed.map (·.1) ++ [x.recNo]) ∧
  (∀ (s : State) (n : Nat) (b : Bytes) (rest : List (Nat × Bytes)), s.scl.signed = (n, b) :: rest → s.scl.powered = true →
    exec .recordCommit s = .next ((s.setScl { s.scl with
      signed := rest, ring := setAt s.scl.ring (n % 65536) (n, b),
      resends := s.scl.resends ++ [(n, s.scl.scalerS + 1), (n, s.scl.scalerS + 10)] }).sendRecords [n])) ∧
  (∀ (s : State), s.scl.powered = true → s.scl.lastCheckpoint + 10 ≤ s.scl.scalerS → exec .checkpoint s = .next (s.setScl
    { s.scl with checkpoint := some (s.scl.snap false), lastCheckpoint := s.scl.scalerS })) ∧
  (∀ (s : State), s.scl.powered = true → exec .finalCheckpoint s = .next (s.setScl
    { s.scl with checkpoint := some (s.scl.snap true), powered := false })) ∧
  (∀ (s : State) (c : Checkpoint), s.scl.powered = false → s.scl.checkpoint = some c →
    ∃ t, exec .scalerPowerUp s = .next t ∧ t.scl.powered = true ∧ t.scl.acc = c.acc ∧ t.scl.scalerS = c.scalerS ∧
      t.scl.recNo = c.recNo + 1 ∧ bitOf t.scl.interval.flags 0 = true ∧ bitOf t.scl.interval.flags 1 = true ∧
      bitOf t.scl.interval.flags 2 = !c.final)

/-- The scaler's links, seal and service port.  A work frame leaves every 4,000 ticks; one that checks adds its increments to the
running interval and one that does not marks a gap; status frames leave once a second; a frame of the record link that checks is
taken into the mirror.  Only a write on the service port with the seal open changes the interval length or the calibration: it
closes the running interval, counts itself and is audited.  The FRU is read once.
It rests, in part, on R441, R442, R447, R448, R450, R452, R494. -/
def Obligations.ScalerLinksAndService : Prop :=
  (∀ (s : State), s.boot.mode = .running → s.clk.asleep = false → 4000 ≤ s.since s.workAt →
    ∃ t f, exec .workFrameSend s = .next t ∧ t.out = .scalerFrame f :: s.out ∧ t.work = [] ∧ t.workAt = s.now ∧
      t.workSeq = (s.workSeq + 1) % 65536 ∧ f.length = 144 ∧ leAt f 140 4 = crc32c (f.take 140)) ∧
  (∀ (s : State) (f : Bytes), s.scl.powered = true → (f.length ≠ 144 ∨ leAt f 140 4 ≠ crc32c (f.take 140)) →
    exec (.workFrame f) s = .next (s.setScl { s.scl with
      interval := { s.scl.interval with flags := s.scl.interval.flags ||| 128 } })) ∧
  (∀ (s : State) (f : Bytes) (q : Nat), s.scl.powered = true → f.length = 144 → leAt f 140 4 = crc32c (f.take 140) →
    s.scl.lastFrame = some (leAt f 2 4, q) → leAt f 0 2 = (q + 1) % 65536 →
    exec (.workFrame f) s = .next (s.setScl { s.scl with
      lastFrame := some (leAt f 2 4, leAt f 0 2)
      interval := { s.scl.interval with
        frames := s.scl.interval.frames + 1, tickEnd := leAt f 6 6, mainBoot := leAt f 2 4,
        work := (s.scl.interval.work.zipIdx).map fun w => (w.1 + leAt f (12 + 8 * w.2) 8) % 2 ^ 64 } })) ∧
  (∀ (s : State) (f : Bytes) (t : State), exec (.workFrame f) s = .next t →
    t.scl.acc = s.scl.acc ∧ t.scl.cal = s.scl.cal ∧ t.scl.intervalMin = s.scl.intervalMin ∧ t.scl.audit = s.scl.audit) ∧
  (∀ (s : State), s.scl.powered = true → s.scl.lastStatus < s.scl.scalerS → exec .statusFrame s = .next (
    ((s.setScl { s.scl with lastStatus := s.scl.scalerS, resends := s.scl.resends.filter fun r => s.scl.scalerS < r.2 }).emit
      (.scalerFrame (linkFrame 1 s.scl.statusContent))).sendRecords
        ((s.scl.resends.filter fun r => r.2 ≤ s.scl.scalerS).map (·.1)))) ∧
  (∀ (kind : Nat) (b : Bytes), kind < 256 → readLink (linkFrame kind b) = some (kind, b)) ∧
  (∀ (s : State) (f : Bytes), s.boot.mode = .running → readLink f = none → exec (.recordLinkFrame f) s = .next s) ∧
  (∀ (s : State) (f b : Bytes), s.boot.mode = .running → readLink f = some (1, b) → b.length = 69 →
    exec (.recordLinkFrame f) s = .next (s.mirrorStatus b)) ∧
  (∀ (s : State) (f b : Bytes), s.boot.mode = .running → readLink f = some (2, b) → b.length = 17344 →
    exec (.recordLinkFrame f) s = .next (({ s with mirror := setAt s.mirror (leAt b 8 4 % 256) b }).put Ob.SCL_REC_NEWEST
      (if s.get Ob.SCL_REC_NEWEST = 0xFFFFFFFF then leAt b 8 4 else max (leAt b 8 4) (s.get Ob.SCL_REC_NEWEST)))) ∧
  (∀ (s : State), s.scl.powered = true → exec .sealChange s = .next (
    (s.setScl { s.scl with sealOpen := !s.scl.sealOpen }).audit (if s.scl.sealOpen then 2 else 1) 0 0)) ∧
  (∀ (s : State) (v : Bytes), s.scl.powered = true → s.scl.sealOpen = true → v.length = 1 → 1 ≤ leNat v → leNat v ≤ 60 →
    leNat v ≠ s.scl.intervalMin →
    ∃ t, exec (.serviceWrite (Ob.SCL_INTERVAL_MIN / 256) (Ob.SCL_INTERVAL_MIN % 256) v) s = .next t ∧
      t.scl.intervalMin = leNat v ∧ t.scl.audit = satAdd 0xFFFFFFFF s.scl.audit 1 ∧ t.scl.acc = s.scl.acc ∧
      t.scl.recNo = s.scl.recNo + (if s.scl.due then 2 else 1)) ∧
  (∀ (s t : State) (k sub : Nat) (v : Bytes), s.scl.sealOpen = false → exec (.serviceWrite k sub v) s = .next t →
    t.scl = s.scl) ∧
  (∀ (s : State) (k sub off len : Nat) (v : Bytes), s.scl.powered = true → s.scl.value k sub = some v →
    exec (.serviceRead k sub off len) s = .next (s.emit (if 0 < off ∧ v.length ≤ off then
        .serviceAnswer Status.badDescriptor.code []
      else .serviceAnswer Status.ok.code (if len = 0 then v.drop off else (v.drop off).take len)))) ∧
  (∀ (s : State) (fru : Bytes) (answered : Bool), s.boot.mode = .running → s.pwr.fruRead = false →
    ∃ t, exec (.fruRead fru answered) s = .next t ∧ t.pwr = { s.pwr with fruRead := true } ∧
      (answered = false → t.get Ob.FRU_STATUS = s.get Ob.FRU_STATUS) ∧
      (answered = true → t.get Ob.FRU_STATUS = if fruHeaderOk (fitB 2048 fru) then 1 else 2))

/-! ### Resets, clocks and power -/

/-- Resets.  A SYS reset and a POR take the main die back to its state after reset: the boot ROM is held, vault memory is empty and
no command is outstanding, while the scaler, the fuses and flash and the commands still waiting stay.  Each source asserts its own
cause; the release at the end of a POR samples the strap and begins the wipe.  A partition leaves its reset once no wipe and no
level holds it.  A BLOCK reset takes a unit out of service until the unit is clean or its wait ends.
It rests, in part, on R464, R465, R468, R470, R473, R474. -/
def Obligations.ResetsJoinAndRelease : Prop :=
  (∀ (s : State) (cause reach : Nat), (s.sysReset cause reach).boot.released = false ∧
    (s.sysReset cause reach).boot.mode = .off ∧ (s.sysReset cause reach).mem = [] ∧ (s.sysReset cause reach).cmds = [] ∧
    (s.sysReset cause reach).scl = s.scl ∧ (s.sysReset cause reach).pending = s.pending ∧
    (s.sysReset cause reach).nv.lc = s.nv.lc ∧ (s.sysReset cause reach).nv.svnMin = s.nv.svnMin ∧
    (s.sysReset cause reach).resets = s.resets ++ [{ cause := cause, reach := reach, part := 0 }]) ∧
  (∀ (s : State), s.boot.released = true → exec .watchdog s = .next (s.sysReset 0x10 3)) ∧
  (∀ (s : State), exec .jtag s = .next (s.sysReset 0x14 3)) ∧
  (∀ (s t : State) (acc : Access) (w : Writer) (v : Bytes),
    s.arrive acc (fun k v => isKey Ob.RESET_REQUEST k v && leNat v = 1) = .go w v t →
    exec (.sysRequest acc) s = .next ((t.respond w.reply .ok).txDone.sysReset 0x11 3)) ∧
  (∀ (s t : State) (acc : Access) (w : Writer) (v : Bytes),
    s.arrive acc (fun k v => isKey Ob.RESET_REQUEST k v && leNat v = 2) = .go w v t →
    exec (.coreRequest acc) s = .next ((t.respond w.reply .ok).coreReset 0x20)) ∧
  (∀ (s : State), exec (.resetAssert .powerOn) s = .next (s.sysReset 0x01 4) ∧
    exec (.resetAssert .brownout) s = .next (s.sysReset 0x02 4) ∧ exec (.resetAssert .inputLow) s = .next (s.sysReset 0x03 4) ∧
    exec (.resetAssert .tempTrip) s = .next (s.sysReset 0x04 4) ∧ exec (.resetAssert .jtag) s = .next (s.sysReset 0x14 3) ∧
    (s.boot.released = true → exec (.resetAssert .watchdog) s = .next (s.sysReset 0x10 3)) ∧
    (s.clk.pllLost = true → exec (.resetAssert .pllRelock) s = .next (s.sysReset 0x13 3)) ∧
    (s.clk.hold = true → (s.clk.xoOk || s.clk.ioscOk) = true →
      exec (.resetAssert .holdRelock) s = .next (s.sysReset 0x12 3))) ∧
  (∀ (s : State) (adc : Nat), (s.resets.any (3 ≤ ·.reach)) = true → s.pwr.closed = true → (s.port 0).perst = false →
    (s.port 1).perst = false → adc < 1024 → ∃ t, exec (.porRelease adc) s = .next t ∧ t.boot.released = true ∧ t.resets = [] ∧
      (t.clk.xoOk || t.clk.ioscOk) = true ∧ (∀ c ∈ t.mem, 20 ≤ daStand c.1) ∧
      (s.resets.any (·.reach == 4) = true → t.get Ob.CFG_CODE = strapCode adc)) ∧
  (∀ (s : State) (p : PartNo) (cause : Nat), s.resets = [{ cause := cause, reach := 1, part := p.val }] → cause ≠ 0x35 →
    s.wipes = [] → s.levelHeld p.val = false → s.mgmt.waiters = [] →
    ∃ t, exec (.coreRelease p) s = .next t ∧ t.resets = [] ∧ (t.part p.val).resetting = false) ∧
  (∀ (s t : State) (acc : Access) (w : Writer) (v : Bytes) (k : UnitKind) (u : Nat),
    s.arrive acc (isKey Ob.BLOCK_RESET) = .go w v t → blockUnit (leNat v) = some (k, u) → w.who = .m →
    ∃ r, exec (.blockReset acc) s = .next r ∧ unitCode k u ∈ r.down ∧
      ({ unit := unitCode k u, since := t.now, reply := w.reply } : BlockReset) ∈ r.blockResets) ∧
  (∀ (s t : State) (acc : Access) (w : Writer) (v : Bytes), s.arrive acc (isKey Ob.BLOCK_RESET) = .go w v t →
    blockUnit (leNat v) = none → exec (.blockReset acc) s = .next (t.respond w.reply .badDescriptor)) ∧
  (∀ (s : State) (u : Nat) (b : BlockReset), s.blockOf u = some b → s.unitIdle (unitKind u) (u % 2048) = true →
    exec (.blockResetClean u) s = .next (s.blockDone b .ok)) ∧
  (∀ (s : State) (u : Nat) (b : BlockReset), s.blockOf u = some b → s.unitIdle (unitKind u) (u % 2048) = false →
    s.get Ob.QUIESCE_TICKS ≤ s.since b.since →
    exec (.quiesceTicks u) s = .next ((s.isolateUnit (unitKind u) (u % 2048)).blockDone b .isolated))

/-- Clocks.  A source qualifies and the reference switches to the XO at the next edge; a source that trips is counted, and the
module goes on with the other or holds; a lost PLL ends in a SYS reset once it has relocked.  A permitted divider pair waits for its
edge; a gated unit takes no item and is gated once it is idle.  RUN and SLEEP put their gates in force; DEEP_SLEEP drains first, is
entered or refused, and ends with a wake from an enabled source.
It rests, in part, on R454, R455, R456, R458, R461, R462, R463. -/
def Obligations.ClocksQualifySwitchAndGate : Prop :=
  (∀ (s : State), s.clk.xoOk = false → s.boot.released = true → ∃ t, exec .xoQualified s = .next t ∧ t.clk.xoOk = true ∧
    (s.clk.hold = true → t.clk.refXo = true) ∧ (s.clk.hold = false → t.clk.refXo = s.clk.refXo)) ∧
  (∀ (s : State), s.clk.ioscOk = false → s.boot.released = true → (s.clk.asleep = false ∨ s.clk.hold = true) →
    ∃ t, exec .ioscQualified s = .next t ∧ t.clk.ioscOk = true ∧ (s.clk.hold = true → t.clk.refXo = false) ∧
      (s.clk.hold = false → t.clk.refXo = s.clk.refXo)) ∧
  (∀ (s : State), s.clocked = true → s.clk.xoOk = true →
    ∃ t, exec .referenceSwitch s = .next t ∧ t.clk.refXo = true ∧ t.clk.xoOk = true ∧
      (s.clk.ioscOk = true → t = { s with clk := { s.clk with refXo := true } })) ∧
  (∀ (s : State), s.boot.released = true → s.clk.xoOk = true → s.clk.ioscOk = true → s.clk.refXo = true →
    ∃ t, exec (.monitorTrip .xo) s = .next t ∧ t.clk.xoOk = false ∧ t.clk.refXo = false ∧ t.mgmt.tx = [] ∧
      t.clk.hold = s.clk.hold) ∧
  (∀ (s : State), s.boot.released = true → s.clk.asleep = false → s.clk.ioscOk = true → s.clk.xoOk = false →
    ∃ t, exec (.monitorTrip .iosc) s = .next t ∧ t.clk.ioscOk = false ∧ t.clk.hold = true ∧ t.pwr.alert = true) ∧
  (∀ (s : State), s.clocked = true → exec .pllUnlock s = .next { s with clk := { s.clk with pllLost := true } }) ∧
  (∀ (s : State), s.clk.pllLost = true → exec .pllRelock s = .next (s.sysReset 0x13 3)) ∧
  (∀ (s t : State) (acc : Access) (w : Writer) (v : Bytes),
    s.arrive acc (fun k v => isKey Ob.MCLK_DIV k v || isKey Ob.PCLK_DIV k v) = .go w v t →
    exec (.mclkDiv acc) s = .next (match opDivider w (leNat v) t with
      | (some st, u) => u.respond w.reply st
      | (none, u) => u)) ∧
  (∀ (s t : State) (acc : Access) (w : Writer) (v : Bytes),
    s.arrive acc (fun k v => isKey Ob.GATE_RUN k v || isKey Ob.GATE_SLEEP k v) = .go w v t →
    exec (.gateRun acc) s = .next (if 2 ^ 35 ≤ leNat v then t.respond w.reply .badDescriptor
      else ((t.put (w.idx * 256 + w.sub) (leNat v)).applyGates).respond w.reply .ok)) ∧
  (∀ (s : State) (u since : Nat), s.clk.gating.find? (·.1 == u) = some (u, since) →
    s.unitIdle (unitKind u) (u % 2048) = true →
    exec (.unitGated u) s = .next { s with clk := { s.clk with
      gating := s.clk.gating.filter (·.1 != u), gated := u :: s.clk.gated } }) ∧
  (∀ (s t : State) (acc : Access) (w : Writer) (v : Bytes), s.arrive acc (isMode 0) = .go w v t →
    exec (.run acc) s = .next (((t.put Ob.POWER_MODE 0).applyGates).respond w.reply .ok)) ∧
  (∀ (s t : State) (acc : Access) (w : Writer) (v : Bytes), s.arrive acc (isMode 1) = .go w v t →
    exec (.sleep acc) s = .next (((t.put Ob.POWER_MODE 1).applyGates).respond w.reply .ok)) ∧
  (∀ (s t : State) (acc : Access) (w : Writer) (v : Bytes), s.arrive acc (isMode 2) = .go w v t →
    exec (.deepSleep acc) s = .next (({ t with clk := { t.clk with
      draining := some (t.clk.draining.getD t.now) } }).await .deepSleep 0 w.reply)) ∧
  (∀ (s : State), s.clk.draining.isSome = true → s.drained = true →
    ∃ t, exec .deepSleepEntry s = .next t ∧ t.clk.asleep = true ∧ t.clk.draining = none ∧ t.clk.ioscOk = false ∧
      t.get Ob.POWER_MODE = 2 ∧ (t.port 0).linkUp = false ∧ (t.port 1).linkUp = false) ∧
  (∀ (s : State) (t0 : Nat), s.clk.draining = some t0 → s.drained = false → 4000 ≤ s.since t0 →
    exec .deepSleepRefused s =
      .next (({ s with clk := { s.clk with draining := none } }).answer .deepSleep 0 .resourceHeld)) ∧
  (∀ (s : State) (n : Nat), s.clk.asleep = true → s.clk.hold = false → s.wakes n = true →
    ∃ t, exec (.wake n) s = .next t ∧ t.clk.asleep = false ∧ t.get Ob.POWER_MODE = 0 ∧ t.clk.refXo = true) ∧
  (∀ (s : State) (n : Nat), s.wakes n = false → exec (.wake n) s = .next s)

/-- Power.  The duty is the lowest that anything asks for, and at 0 no BULK work is taken or goes on; ALERT# follows it and the hold sequence; capping lowers it while the
average exceeds the limit and raises it step by step well below, between 1 and 16.  A rail or current fault opens the switch and
resets the main die; a temperature at its limit trips, and the third trip within the hour latches until standby power is lost.
It rests, in part, on R477, R478, R481, R482, R483, R485, R486. -/
def Obligations.PowerStaysWithinItsLimits : Prop :=
  (∀ (s : State) (x : Power), (s.setPower x).pwr = { x with
      alert := decide ((s.setPower x).duty < 16) || s.clk.hold } ∧
    (s.setPower x).duty = min (min x.capDuty x.fastDuty) (min x.brakeDuty x.thermalDuty)) ∧
  (∀ (s : State) (p u core id op : Nat) (k : UnitKind) (x : Lane) (c : Cmd), s.duty = 0 → s.takes p k u .bulk = false ∧
    s.laneRuns core x = false ∧ (s.cmdLat c = false → s.atWork id op ≠ some c)) ∧
  (∀ (s : State) (mw : Nat), s.boot.mode = .running → s.clocked = true → 1 ≤ s.pwr.capDuty → s.pwr.capDuty ≤ 16 →
    ∃ t, exec (.powerSample mw) s = .next t ∧ 1 ≤ t.pwr.capDuty ∧ t.pwr.capDuty ≤ 16 ∧
      t.pwr.samples = (mw :: s.pwr.samples).take 10 ∧
      (s.powerLimit * 1000 * ((mw :: s.pwr.samples).take 10).length < ((mw :: s.pwr.samples).take 10).sum →
        t.pwr.capDuty ≤ s.pwr.capDuty ∧ (1 < s.pwr.capDuty → t.pwr.capDuty < s.pwr.capDuty))) ∧
  (∀ (s : State) (mw : Nat), s.pwr.closed = true → (s.powerLimit + 150) * 1000 < mw →
    exec (.fastLimiter mw) s = .next (s.setPower { s.pwr with fastDuty := s.get Ob.BRAKE_DUTY })) ∧
  (∀ (s : State) (mw : Nat), mw < (s.powerLimit + 150) * 1000 →
    exec (.fastLimiterRelease mw) s = .next (s.setPower { s.pwr with fastDuty := 16 })) ∧
  (∀ (s : State), exec (.pwrBrake true) s = .next (s.setPower { s.pwr with brakeDuty := s.get Ob.BRAKE_DUTY }) ∧
    exec (.pwrBrake false) s = .next (s.setPower { s.pwr with brakeDuty := 16 })) ∧
  (∀ (s : State), s.boot.mode = .running → s.clocked = true → 1 ≤ s.pwr.thermalDuty → s.pwr.thermalDuty ≤ 16 →
    ∃ t, exec .thermalThrottle s = .next t ∧ 1 ≤ t.pwr.thermalDuty ∧ t.pwr.thermalDuty ≤ 16 ∧
      ((s.readings.any fun r => r.2 ≤ r.1) = true → t.pwr.thermalDuty = max 1 (s.pwr.thermalDuty - 2)) ∧
      ((s.readings.all fun r => r.1 + 3 ≤ r.2) = true → t.pwr.thermalDuty = min 16 (s.pwr.thermalDuty + 1))) ∧
  (∀ (s : State) (cause : Nat), s.pwr.closed = true → (s.openSwitch cause).pwr.closed = false ∧
    (s.openSwitch cause).boot.released = false ∧
    (s.openSwitch cause).resets = s.resets ++ [{ cause := cause, reach := 4, part := 0 }]) ∧
  (∀ (s : State), exec .undervoltage s = .next (s.openSwitch 0x03) ∧ exec .overvoltage s = .next (s.openSwitch 0x02) ∧
    exec .breaker s = .next (s.openSwitch 0x02) ∧
    exec .mate s = .next (({ s with pwr := { s.pwr with mate := false } }).openSwitch 0x02)) ∧
  (∀ (s : State) (die reading : Nat), s.pwr.standby = true → s.pwr.tripped = false → die ≤ 40 →
    (if die < 20 then 100 else 110) ≤ reading → s.pwr.closed = true →
    ∃ t, exec (.thermTrip die reading) s = .next t ∧ t.pwr.tripped = true ∧ t.pwr.closed = false ∧
      t.pwr.trips = s.scl.scalerS :: s.pwr.trips.filter (fun u => s.scl.scalerS < u + 3600) ∧
      (t.pwr.latched = true ↔ 3 ≤ t.pwr.trips.length)) ∧
  (∀ (s : State), s.pwr.tripped = true → s.pwr.latched = false → exec .tripRelease s =
    .next (({ s with pwr := { s.pwr with tripped := false } }).emit (.thermTrip false))) ∧
  (∀ (s : State), s.pwr.latched = true → exec .tripRelease s = .next s) ∧
  (∀ (s : State), s.pwr.standby = false → exec .standbyOn s =
    .next (({ s with pwr := { s.pwr with standby := true }, resets := [] }).sysReset 0x01 4)) ∧
  (∀ (s : State), s.pwr.standby = true → ∃ t, exec .standbyLoss s = .next t ∧ t.pwr.standby = false ∧
    t.pwr.tripped = false ∧ t.pwr.latched = false ∧ t.pwr.trips = [] ∧ t.get Ob.THERMAL_TRIPS = 0 ∧
    (s.pwr.closed = true → t.pwr.closed = false)) ∧
  (∀ (s : State), s.pwr.standby = true → s.pwr.closed = false → s.pwr.tripped = false → exec .switchClose s =
    .next { s with pwr := { s.pwr with closed := true, mate := true } })

/-! ### Rules of the placement and of hashing -/

/-- R22: with PART_SPLIT n, from 0 to 20, P0 holds stands S0 to S(n−1) and P1 holds stands Sn to S19; each stand belongs to
exactly one partition.  PART_SPLIT reads the division that is active. -/
def Obligations.StandsBelongToOnePartition : Prop :=
  (∀ (s : State) (n : Nat), s.div.split ≤ 20 → n < 20 →
    (bitOf (s.div.standMask 0) n = true ↔ n < s.div.split) ∧ (bitOf (s.div.standMask 1) n = true ↔ s.div.split ≤ n) ∧
    (bitOf (s.div.standMask 0) n = !bitOf (s.div.standMask 1) n) ∧
    s.div.standPart n = if n < s.div.split then 0 else 1) ∧
  (∀ (s : State) (who : Principal), s.objectBytes who Ob.PART_SPLIT = ((.ok, leBytes 1 s.div.split), s))

/-- R212: a hash h maps to OFFSET + ((h × M) >> 64), the product formed in 128 bits and the sum wrapping modulo 2^64; so every hash
maps below the modulus, and a modulus of one maps every hash to OFFSET. -/
def Obligations.HashesMapBelowTheirModulus : Prop :=
  ∀ (off h m : Nat), off < 2 ^ 64 → h < 2 ^ 64 → 1 ≤ m → m ≤ 2 ^ 48 →
    hashId off h m = (off + (h * m) >>> 64) % 2 ^ 64 ∧ (h * m) >>> 64 < m ∧ h * m < 2 ^ 128 ∧ (m = 1 → hashId off h m = off)
end

