-- ==== Sys2Proof/Laws/Tables.lean ====
section
/-!
SUPPORT. Sorted tables: what is read after an entry is set or dropped, and that rising order is kept.
-/
namespace Sys2Proof.Machine

variable {α : Type}

@[simp] theorem look_setAt_self (t : List (Nat × α)) (k : Nat) (x : α) : look (setAt t k x) k = some x := by
  induction t with
  | nil => simp [setAt, look]
  | cons e r ih =>
    obtain ⟨j, y⟩ := e
    simp only [setAt]
    split
    · simp [look]
    · split
      · simp [look]
      · rename_i h1 h2
        simp only [look]
        rw [if_neg (fun h => h2 h.symm), ih]

theorem look_setAt_ne (t : List (Nat × α)) {k j : Nat} (x : α) (h : j ≠ k) : look (setAt t k x) j = look t j := by
  induction t with
  | nil => simp [setAt, look, h.symm]
  | cons e r ih =>
    obtain ⟨i, y⟩ := e
    simp only [setAt]
    split
    · simp [look, h.symm]
    · split
      · rename_i h1 h2
        subst h2
        simp [look, h.symm]
      · simp only [look, ih]

theorem look_dropAt_ne (t : List (Nat × α)) {k j : Nat} (h : j ≠ k) : look (dropAt t k) j = look t j := by
  induction t with
  | nil => rfl
  | cons e r ih =>
    obtain ⟨i, y⟩ := e
    simp only [dropAt]
    split
    · rename_i h1
      subst h1
      simp [look, h.symm]
    · simp only [look, ih]

theorem lookD_setAt (t : List (Nat × α)) (k j : Nat) (x d : α) :
    lookD (setAt t k x) j d = if j = k then x else lookD t j d := by
  unfold lookD
  split
  · rename_i h
    subst h
    simp
  · rename_i h
    rw [look_setAt_ne t x h]

theorem lookD_putD_ne [DecidableEq α] (t : List (Nat × α)) {k j : Nat} (d x : α) (h : j ≠ k) :
    lookD (putD t k d x) j d = lookD t j d := by
  unfold putD lookD
  split
  · rw [look_dropAt_ne t h]
  · rw [look_setAt_ne t x h]

theorem mem_setAt {t : List (Nat × α)} {k : Nat} {x : α} {c : Nat × α} (h : c ∈ setAt t k x) :
    c = (k, x) ∨ c ∈ t := by
  induction t with
  | nil => simpa [setAt] using h
  | cons e r ih =>
    obtain ⟨j, y⟩ := e
    simp only [setAt] at h
    split at h
    · simpa using h
    · split at h
      · rcases List.mem_cons.1 h with h | h
        · exact .inl h
        · exact .inr (List.mem_cons_of_mem _ h)
      · rcases List.mem_cons.1 h with h | h
        · exact .inr (h ▸ List.mem_cons_self)
        · exact (ih h).imp id (List.mem_cons_of_mem _)

theorem dropAt_sublist (t : List (Nat × α)) (k : Nat) : (dropAt t k).Sublist t := by
  induction t with
  | nil => exact List.Sublist.refl _
  | cons e r ih =>
    obtain ⟨j, y⟩ := e
    simp only [dropAt]
    split
    · exact List.sublist_cons_self _ _
    · exact ih.cons_cons _

/-- Rising order of the numbers of a table. -/
abbrev Rising (t : List (Nat × α)) : Prop := t.Pairwise (fun a b => a.1 < b.1)

theorem setAt_rising {t : List (Nat × α)} (h : Rising t) (k : Nat) (x : α) : Rising (setAt t k x) := by
  induction t with
  | nil => simp [setAt, Rising]
  | cons e r ih =>
    obtain ⟨j, y⟩ := e
    obtain ⟨h1, h2⟩ := List.pairwise_cons.1 h
    simp only [setAt]
    split
    · rename_i hk
      refine List.pairwise_cons.2 ⟨fun c hc => ?_, h⟩
      rcases List.mem_cons.1 hc with hc | hc
      · subst hc; exact hk
      · exact Nat.lt_trans hk (h1 c hc)
    · split
      · rename_i hk hj
        subst hj
        exact List.pairwise_cons.2 ⟨h1, h2⟩
      · rename_i hk hj
        refine List.pairwise_cons.2 ⟨fun c hc => ?_, ih h2⟩
        rcases mem_setAt hc with hc | hc
        · subst hc
          exact Nat.lt_of_le_of_ne (Nat.le_of_not_lt hk) (fun e => hj e.symm)
        · exact h1 c hc

theorem dropAt_rising {t : List (Nat × α)} (h : Rising t) (k : Nat) : Rising (dropAt t k) :=
  List.Pairwise.sublist (dropAt_sublist t k) h

theorem look_eq_none_of_lt {t : List (Nat × α)} {k : Nat} (h : ∀ c ∈ t, k < c.1) : look t k = none := by
  induction t with
  | nil => rfl
  | cons e r ih =>
    obtain ⟨j, y⟩ := e
    have hj : k < j := h (j, y) List.mem_cons_self
    simp only [look]
    rw [if_neg (by omega)]
    exact ih fun c hc => h c (List.mem_cons_of_mem _ hc)

/-- Of a table in rising order a dropped entry reads as unlisted. -/
theorem look_dropAt_self {t : List (Nat × α)} (h : Rising t) (k : Nat) : look (dropAt t k) k = none := by
  induction t with
  | nil => rfl
  | cons e r ih =>
    obtain ⟨j, y⟩ := e
    obtain ⟨h1, h2⟩ := List.pairwise_cons.1 h
    simp only [dropAt]
    split
    · rename_i hj
      subst hj
      exact look_eq_none_of_lt h1
    · rename_i hj
      simp only [look, if_neg hj]
      exact ih h2

theorem lookD_putD_self [DecidableEq α] {t : List (Nat × α)} (h : Rising t) (k : Nat) (d x : α) :
    lookD (putD t k d x) k d = x := by
  unfold putD lookD
  split
  · rename_i e
    rw [look_dropAt_self h, e]
    rfl
  · simp

theorem putD_rising [DecidableEq α] {t : List (Nat × α)} (h : Rising t) (k : Nat) (d x : α) : Rising (putD t k d x) := by
  unfold putD
  split
  · exact dropAt_rising h k
  · exact setAt_rising h k x

theorem putD_listed [DecidableEq α] {t : List (Nat × α)} {d : α} (h : ∀ c ∈ t, c.2 ≠ d) (k : Nat) (x : α) :
    ∀ c ∈ putD t k d x, c.2 ≠ d := by
  unfold putD
  split
  · exact fun c hc => h c ((dropAt_sublist t k).subset hc)
  · rename_i hx
    intro c hc
    rcases mem_setAt hc with hc | hc
    · subst hc; exact hx
    · exact h c hc

end Sys2Proof.Machine
end

