-- ==== Sys2Proof/Laws/Relations.lean ====
section
/-!
SUPPORT. The relations Keeps, Steady, Fixed and Still: reflexive, transitive, closed under updates of other fields and under folds.
-/
namespace Sys2Proof.Machine

theorem State.Keeps.refl (s : State) : s.Keeps s :=
  ⟨rfl, id, List.suffix_refl _, Nat.le_refl _, Nat.le_refl _⟩

theorem State.Keeps.trans {r s t : State} (a : r.Keeps s) (b : s.Keeps t) : r.Keeps t :=
  ⟨b.1.trans a.1, fun c => b.2.1 (a.2.1 c), a.2.2.1.trans b.2.2.1, Nat.le_trans a.2.2.2.1 b.2.2.2.1,
    Nat.le_trans a.2.2.2.2 b.2.2.2.2⟩

theorem State.Steady.refl (s : State) : s.Steady s := ⟨State.Keeps.refl s, rfl⟩

theorem State.Steady.trans {r s t : State} (a : r.Steady s) (b : s.Steady t) : r.Steady t :=
  ⟨a.1.trans b.1, b.2.trans a.2⟩

theorem State.Steady.keeps {r s : State} (a : r.Steady s) : r.Keeps s := a.1

theorem State.Still.refl (s : State) : s.Still s := ⟨State.Steady.refl s, rfl, rfl⟩

theorem State.Still.trans {r s t : State} (a : r.Still s) (b : s.Still t) : r.Still t :=
  ⟨a.1.trans b.1, b.2.1.trans a.2.1, b.2.2.trans a.2.2⟩

theorem State.Still.steady {r s : State} (a : r.Still s) : r.Steady s := a.1

theorem State.Fixed.refl (s : State) : s.Fixed s := ⟨State.Keeps.refl s, rfl, rfl⟩

theorem State.Fixed.trans {r s t : State} (a : r.Fixed s) (b : s.Fixed t) : r.Fixed t :=
  ⟨a.1.trans b.1, b.2.1.trans a.2.1, b.2.2.trans a.2.2⟩

theorem State.Fixed.keeps {r s : State} (a : r.Fixed s) : r.Keeps s := a.1

theorem State.Still.fixed {r s : State} (a : r.Still s) : r.Fixed s := ⟨a.1.1, a.2⟩

theorem State.Still.keeps {r s : State} (a : r.Still s) : r.Keeps s := a.1.1

/-- An update of fields that the relations do not name. -/
theorem State.mk_still (s : State) {ticks_ : Ticks} {od_ : List (Nat × Nat)} {dom_ : List (Nat × Bytes)} {div_ : Division} {flips_ : List (Nat ×
    BitVec 80)} {sram_ : List (Nat × Bool)} {vaults_ : List (Nat × Vault)} {stands_ : List (Nat × Stand)}
    {repairs_ : List (Nat × RepairEntry)} {repairPass_ : Option RepairPass} {repairQueue_ : List (Nat × Nat)}
    {errLog_ : List ErrEntry} {wipes_ : List (Nat × Nat)} {ports_ : Vector HostPort 2} {cmds_ : List Cmd}
    {nextId_ : Nat} {parts_ : Vector Part 2} {rltReqs_ : List (Nat × RltReq)} {nextReq_ : Nat} {cores_ : List
    (Nat × (Slot × Slot))} {prefetched_ : List (Nat × Prefetch)} {nextBorn_ : Nat} {engines_ : List (Nat ×
    List (Nat × Nat))} {laneHeads_ : List (Nat × (Nat × Nat))} {down_ : List Nat} {lanes_ : List (Nat × Lane)}
    {freed_ : List Freed} {klib_ : List (Nat × Kernel)} {nets_ : Vector NetPort 2} {regions_ : List (Nat ×
    (Nat × Nat))} {mgmt_ : Mgmt} {boot_ : Boot} {resets_ : List ResetMember} {blockResets_ : List BlockReset}
    {clk_ : Clocks} {pwr_ : Power} {mirror_ : List (Nat × Bytes)} {work_ : List (Nat × Nat)} {workSeq_ : Nat}
    {workAt_ : Nat} {statusAt_ : Option Nat} :
    s.Still (State.mk ticks_ od_ dom_ div_ s.mem flips_ s.lbuf sram_ vaults_ stands_ repairs_ repairPass_ repairQueue_ errLog_
    wipes_ ports_ cmds_ nextId_ parts_ rltReqs_ nextReq_ cores_ prefetched_ nextBorn_ engines_ laneHeads_
    down_ lanes_ freed_ klib_ nets_ regions_ mgmt_ s.nv boot_ resets_ blockResets_ clk_ pwr_ s.scl mirror_
    work_ workSeq_ workAt_ statusAt_ s.fresh s.out s.pending) :=
  ⟨⟨⟨rfl, id, List.suffix_refl _, Nat.le_refl _, Nat.le_refl _⟩, rfl⟩, rfl, rfl⟩

/-- An update of the scaler. -/
theorem State.scl_fixed (s : State) (x : Scaler) : s.Fixed { s with scl := x } :=
  ⟨⟨rfl, id, List.suffix_refl _, Nat.le_refl _, Nat.le_refl _⟩, rfl, rfl⟩

/-- An update of the fuses and flash that leaves the minimum security version. -/
theorem State.mkNv_still (s : State) {ticks_ : Ticks} {od_ : List (Nat × Nat)} {dom_ : List (Nat × Bytes)} {div_ : Division} {flips_ : List (Nat ×
    BitVec 80)} {sram_ : List (Nat × Bool)} {vaults_ : List (Nat × Vault)} {stands_ : List (Nat × Stand)}
    {repairs_ : List (Nat × RepairEntry)} {repairPass_ : Option RepairPass} {repairQueue_ : List (Nat × Nat)}
    {errLog_ : List ErrEntry} {wipes_ : List (Nat × Nat)} {ports_ : Vector HostPort 2} {cmds_ : List Cmd}
    {nextId_ : Nat} {parts_ : Vector Part 2} {rltReqs_ : List (Nat × RltReq)} {nextReq_ : Nat} {cores_ : List
    (Nat × (Slot × Slot))} {prefetched_ : List (Nat × Prefetch)} {nextBorn_ : Nat} {engines_ : List (Nat ×
    List (Nat × Nat))} {laneHeads_ : List (Nat × (Nat × Nat))} {down_ : List Nat} {lanes_ : List (Nat × Lane)}
    {freed_ : List Freed} {klib_ : List (Nat × Kernel)} {nets_ : Vector NetPort 2} {regions_ : List (Nat ×
    (Nat × Nat))} {mgmt_ : Mgmt} {nv_ : Nv} {boot_ : Boot} {resets_ : List ResetMember} {blockResets_ : List
    BlockReset} {clk_ : Clocks} {pwr_ : Power} {mirror_ : List (Nat × Bytes)} {work_ : List (Nat × Nat)}
    {workSeq_ : Nat} {workAt_ : Nat} {statusAt_ : Option Nat} (h : s.nv.svnMin ≤ nv_.svnMin) :
    s.Still (State.mk ticks_ od_ dom_ div_ s.mem flips_ s.lbuf sram_ vaults_ stands_ repairs_ repairPass_ repairQueue_ errLog_
    wipes_ ports_ cmds_ nextId_ parts_ rltReqs_ nextReq_ cores_ prefetched_ nextBorn_ engines_ laneHeads_
    down_ lanes_ freed_ klib_ nets_ regions_ mgmt_ nv_ boot_ resets_ blockResets_ clk_ pwr_ s.scl mirror_
    work_ workSeq_ workAt_ statusAt_ s.fresh s.out s.pending) :=
  ⟨⟨⟨rfl, id, List.suffix_refl _, Nat.le_refl _, h⟩, rfl⟩, rfl, rfl⟩

/-- An update that uses free values. -/
theorem State.mkFresh_still (s : State) {ticks_ : Ticks} {od_ : List (Nat × Nat)} {dom_ : List (Nat × Bytes)} {div_ : Division} {flips_ : List (Nat ×
    BitVec 80)} {sram_ : List (Nat × Bool)} {vaults_ : List (Nat × Vault)} {stands_ : List (Nat × Stand)}
    {repairs_ : List (Nat × RepairEntry)} {repairPass_ : Option RepairPass} {repairQueue_ : List (Nat × Nat)}
    {errLog_ : List ErrEntry} {wipes_ : List (Nat × Nat)} {ports_ : Vector HostPort 2} {cmds_ : List Cmd}
    {nextId_ : Nat} {parts_ : Vector Part 2} {rltReqs_ : List (Nat × RltReq)} {nextReq_ : Nat} {cores_ : List
    (Nat × (Slot × Slot))} {prefetched_ : List (Nat × Prefetch)} {nextBorn_ : Nat} {engines_ : List (Nat ×
    List (Nat × Nat))} {laneHeads_ : List (Nat × (Nat × Nat))} {down_ : List Nat} {lanes_ : List (Nat × Lane)}
    {freed_ : List Freed} {klib_ : List (Nat × Kernel)} {nets_ : Vector NetPort 2} {regions_ : List (Nat ×
    (Nat × Nat))} {mgmt_ : Mgmt} {boot_ : Boot} {resets_ : List ResetMember} {blockResets_ : List BlockReset}
    {clk_ : Clocks} {pwr_ : Power} {mirror_ : List (Nat × Bytes)} {work_ : List (Nat × Nat)} {workSeq_ : Nat}
    {workAt_ : Nat} {statusAt_ : Option Nat} {fresh_ : Nat} (h : s.fresh ≤ fresh_) :
    s.Still (State.mk ticks_ od_ dom_ div_ s.mem flips_ s.lbuf sram_ vaults_ stands_ repairs_ repairPass_ repairQueue_ errLog_
    wipes_ ports_ cmds_ nextId_ parts_ rltReqs_ nextReq_ cores_ prefetched_ nextBorn_ engines_ laneHeads_
    down_ lanes_ freed_ klib_ nets_ regions_ mgmt_ s.nv boot_ resets_ blockResets_ clk_ pwr_ s.scl mirror_
    work_ workSeq_ workAt_ statusAt_ fresh_ s.out s.pending) :=
  ⟨⟨⟨rfl, id, List.suffix_refl _, h, Nat.le_refl _⟩, rfl⟩, rfl, rfl⟩

theorem State.Still.after {r s t : State} (b : s.Still t) (a : r.Still s) : r.Still t := a.trans b

theorem State.ite_still {c : Prop} [Decidable c] {s a b : State} (ha : s.Still a) (hb : s.Still b) : s.Still (if c then a else b) := by
  split
  · exact ha
  · exact hb

theorem State.ite2_still {α : Type} {c : Prop} [Decidable c] {s : State} {a b : α × State} (ha : s.Still a.2) (hb : s.Still b.2) :
    s.Still (if c then a else b).2 := by
  split
  · exact ha
  · exact hb

theorem State.cut_still {s x t : State} (a : s.Still x) (b : s.Still x → s.Still t) : s.Still t := b a

theorem State.getD_still {r s d : State} {o : Option State} (h : ∀ t, o = some t → s.Still t) (hs : r.Still s) (hd : r.Still d) :
    r.Still (o.getD d) := by
  cases o with
  | none => exact hd
  | some t => exact hs.trans (h t rfl)

theorem State.next_still {s u : State} (h : s.Still u) :
    ∀ t, (Host.Outcome.next u : Host.Outcome State Fault Refusal) = .next t → s.Still t := by
  intro t e
  injection e with e
  exact e ▸ h

theorem State.pair_still {α : Type} {s t : State} {a : α} {p : α × State} (h : s.Still p.2) (e : p = (a, t)) : s.Still t := by
  subst e
  exact h

theorem State.foldl_still {α : Type} {g : State → α → State} (h : ∀ (t : State) (x : α), t.Still (g t x)) (l : List α)
    (s : State) : s.Still (l.foldl g s) := by
  induction l generalizing s with
  | nil => exact State.Still.refl s
  | cons x l ih => exact (h s x).trans (ih (g s x))

theorem State.foldl2_still {α β : Type} {g : β × State → α → β × State} (h : ∀ (a : β × State) (x : α), a.2.Still (g a x).2)
    (l : List α) (a : β × State) : a.2.Still (l.foldl g a).2 := by
  induction l generalizing a with
  | nil => exact State.Still.refl _
  | cons x l ih => exact (h a x).trans (ih (g a x))

theorem State.foldlBy_still {α σ : Type} (p : σ → State) {g : σ → α → σ} (h : ∀ (a : σ) (x : α), (p a).Still (p (g a x)))
    (l : List α) (a : σ) : (p a).Still (p (l.foldl g a)) := by
  induction l generalizing a with
  | nil => exact State.Still.refl _
  | cons x l ih => exact (h a x).trans (ih (g a x))

theorem State.Steady.after {r s t : State} (b : s.Steady t) (a : r.Steady s) : r.Steady t := a.trans b

theorem State.ite_steady {c : Prop} [Decidable c] {s a b : State} (ha : s.Steady a) (hb : s.Steady b) : s.Steady (if c then a else b) := by
  split
  · exact ha
  · exact hb

theorem State.ite2_steady {α : Type} {c : Prop} [Decidable c] {s : State} {a b : α × State} (ha : s.Steady a.2) (hb : s.Steady b.2) :
    s.Steady (if c then a else b).2 := by
  split
  · exact ha
  · exact hb

theorem State.cut_steady {s x t : State} (a : s.Steady x) (b : s.Steady x → s.Steady t) : s.Steady t := b a

theorem State.getD_steady {r s d : State} {o : Option State} (h : ∀ t, o = some t → s.Steady t) (hs : r.Steady s) (hd : r.Steady d) :
    r.Steady (o.getD d) := by
  cases o with
  | none => exact hd
  | some t => exact hs.trans (h t rfl)

theorem State.next_steady {s u : State} (h : s.Steady u) :
    ∀ t, (Host.Outcome.next u : Host.Outcome State Fault Refusal) = .next t → s.Steady t := by
  intro t e
  injection e with e
  exact e ▸ h

theorem State.pair_steady {α : Type} {s t : State} {a : α} {p : α × State} (h : s.Steady p.2) (e : p = (a, t)) : s.Steady t := by
  subst e
  exact h

theorem State.foldl_steady {α : Type} {g : State → α → State} (h : ∀ (t : State) (x : α), t.Steady (g t x)) (l : List α)
    (s : State) : s.Steady (l.foldl g s) := by
  induction l generalizing s with
  | nil => exact State.Steady.refl s
  | cons x l ih => exact (h s x).trans (ih (g s x))

theorem State.foldl2_steady {α β : Type} {g : β × State → α → β × State} (h : ∀ (a : β × State) (x : α), a.2.Steady (g a x).2)
    (l : List α) (a : β × State) : a.2.Steady (l.foldl g a).2 := by
  induction l generalizing a with
  | nil => exact State.Steady.refl _
  | cons x l ih => exact (h a x).trans (ih (g a x))

theorem State.foldlBy_steady {α σ : Type} (p : σ → State) {g : σ → α → σ} (h : ∀ (a : σ) (x : α), (p a).Steady (p (g a x)))
    (l : List α) (a : σ) : (p a).Steady (p (l.foldl g a)) := by
  induction l generalizing a with
  | nil => exact State.Steady.refl _
  | cons x l ih => exact (h a x).trans (ih (g a x))

theorem State.Fixed.after {r s t : State} (b : s.Fixed t) (a : r.Fixed s) : r.Fixed t := a.trans b

theorem State.ite_fixed {c : Prop} [Decidable c] {s a b : State} (ha : s.Fixed a) (hb : s.Fixed b) : s.Fixed (if c then a else b) := by
  split
  · exact ha
  · exact hb

theorem State.ite2_fixed {α : Type} {c : Prop} [Decidable c] {s : State} {a b : α × State} (ha : s.Fixed a.2) (hb : s.Fixed b.2) :
    s.Fixed (if c then a else b).2 := by
  split
  · exact ha
  · exact hb

theorem State.cut_fixed {s x t : State} (a : s.Fixed x) (b : s.Fixed x → s.Fixed t) : s.Fixed t := b a

theorem State.getD_fixed {r s d : State} {o : Option State} (h : ∀ t, o = some t → s.Fixed t) (hs : r.Fixed s) (hd : r.Fixed d) :
    r.Fixed (o.getD d) := by
  cases o with
  | none => exact hd
  | some t => exact hs.trans (h t rfl)

theorem State.next_fixed {s u : State} (h : s.Fixed u) :
    ∀ t, (Host.Outcome.next u : Host.Outcome State Fault Refusal) = .next t → s.Fixed t := by
  intro t e
  injection e with e
  exact e ▸ h

theorem State.pair_fixed {α : Type} {s t : State} {a : α} {p : α × State} (h : s.Fixed p.2) (e : p = (a, t)) : s.Fixed t := by
  subst e
  exact h

theorem State.foldl_fixed {α : Type} {g : State → α → State} (h : ∀ (t : State) (x : α), t.Fixed (g t x)) (l : List α)
    (s : State) : s.Fixed (l.foldl g s) := by
  induction l generalizing s with
  | nil => exact State.Fixed.refl s
  | cons x l ih => exact (h s x).trans (ih (g s x))

theorem State.foldl2_fixed {α β : Type} {g : β × State → α → β × State} (h : ∀ (a : β × State) (x : α), a.2.Fixed (g a x).2)
    (l : List α) (a : β × State) : a.2.Fixed (l.foldl g a).2 := by
  induction l generalizing a with
  | nil => exact State.Fixed.refl _
  | cons x l ih => exact (h a x).trans (ih (g a x))

theorem State.foldlBy_fixed {α σ : Type} (p : σ → State) {g : σ → α → σ} (h : ∀ (a : σ) (x : α), (p a).Fixed (p (g a x)))
    (l : List α) (a : σ) : (p a).Fixed (p (l.foldl g a)) := by
  induction l generalizing a with
  | nil => exact State.Fixed.refl _
  | cons x l ih => exact (h a x).trans (ih (g a x))

theorem State.Keeps.after {r s t : State} (b : s.Keeps t) (a : r.Keeps s) : r.Keeps t := a.trans b

theorem State.ite_keeps {c : Prop} [Decidable c] {s a b : State} (ha : s.Keeps a) (hb : s.Keeps b) : s.Keeps (if c then a else b) := by
  split
  · exact ha
  · exact hb

theorem State.ite2_keeps {α : Type} {c : Prop} [Decidable c] {s : State} {a b : α × State} (ha : s.Keeps a.2) (hb : s.Keeps b.2) :
    s.Keeps (if c then a else b).2 := by
  split
  · exact ha
  · exact hb

theorem State.cut_keeps {s x t : State} (a : s.Keeps x) (b : s.Keeps x → s.Keeps t) : s.Keeps t := b a

theorem State.getD_keeps {r s d : State} {o : Option State} (h : ∀ t, o = some t → s.Keeps t) (hs : r.Keeps s) (hd : r.Keeps d) :
    r.Keeps (o.getD d) := by
  cases o with
  | none => exact hd
  | some t => exact hs.trans (h t rfl)

theorem State.next_keeps {s u : State} (h : s.Keeps u) :
    ∀ t, (Host.Outcome.next u : Host.Outcome State Fault Refusal) = .next t → s.Keeps t := by
  intro t e
  injection e with e
  exact e ▸ h

theorem State.pair_keeps {α : Type} {s t : State} {a : α} {p : α × State} (h : s.Keeps p.2) (e : p = (a, t)) : s.Keeps t := by
  subst e
  exact h

theorem State.foldl_keeps {α : Type} {g : State → α → State} (h : ∀ (t : State) (x : α), t.Keeps (g t x)) (l : List α)
    (s : State) : s.Keeps (l.foldl g s) := by
  induction l generalizing s with
  | nil => exact State.Keeps.refl s
  | cons x l ih => exact (h s x).trans (ih (g s x))

theorem State.foldl2_keeps {α β : Type} {g : β × State → α → β × State} (h : ∀ (a : β × State) (x : α), a.2.Keeps (g a x).2)
    (l : List α) (a : β × State) : a.2.Keeps (l.foldl g a).2 := by
  induction l generalizing a with
  | nil => exact State.Keeps.refl _
  | cons x l ih => exact (h a x).trans (ih (g a x))

theorem State.foldlBy_keeps {α σ : Type} (p : σ → State) {g : σ → α → σ} (h : ∀ (a : σ) (x : α), (p a).Keeps (p (g a x)))
    (l : List α) (a : σ) : (p a).Keeps (p (l.foldl g a)) := by
  induction l generalizing a with
  | nil => exact State.Keeps.refl _
  | cons x l ih => exact (h a x).trans (ih (g a x))

end Sys2Proof.Machine
end

