-- ==== Sys2Proof/Laws/KeepOps.lean ====
section
/-!
SUPPORT. What the operations and meanings of Machine/Ops.lean keep of a state.
-/
set_option linter.unusedVariables false
set_option linter.unreachableTactic false
set_option linter.unusedTactic false
namespace Sys2Proof.Machine

theorem Memory.wf_put {m : List Host.Cell} (h : Memory.wf m) (a : Nat) (b : Byte) : Memory.wf (putD m a 0 b) :=
  ⟨putD_rising h.1 a 0 b, putD_listed h.2 a b⟩

theorem Memory.wf_filter {m : List Host.Cell} (h : Memory.wf m) (q : Host.Cell → Bool) : Memory.wf (m.filter q) :=
  ⟨h.1.filter q, fun c hc => h.2 c (List.mem_of_mem_filter hc)⟩

/-- One byte of the landing buffer written. -/
theorem State.lbufByte_steady (s : State) (a : Nat) (b : Byte) : s.Steady { s with lbuf := putD s.lbuf a 0 b } :=
  ⟨⟨rfl, fun c => ⟨c.1, Memory.wf_put c.2 a b⟩, List.suffix_refl _, Nat.le_refl _, Nat.le_refl _⟩, rfl⟩

theorem State.put_still (s : State) (k v : Nat) :
    s.Still (State.put s k v) := by
  unfold State.put
  repeat' first
    | with_reducible exact State.Still.refl _
    | with_reducible assumption
    | intro _
    | split
    | with_reducible fail_if_no_progress apply State.Still.after (State.mk_still _)
    | dsimp only

theorem State.bump_still (s : State) (k : Nat) (n : Nat) :
    s.Still (State.bump s k n) := by
  unfold State.bump
  repeat' first
    | with_reducible exact State.Still.refl _
    | with_reducible assumption
    | with_reducible apply State.Still.after (State.put_still _ _ _)
    | intro _
    | split
    | dsimp only

theorem State.dput_still (s : State) (k : Nat) (b : Bytes) :
    s.Still (State.dput s k b) := by
  unfold State.dput
  repeat' first
    | with_reducible exact State.Still.refl _
    | with_reducible assumption
    | intro _
    | split
    | with_reducible fail_if_no_progress apply State.Still.after (State.mk_still _)
    | dsimp only

theorem State.setTimer_still (s : State) (period : Nat) :
    s.Still (State.setTimer s period) := by
  unfold State.setTimer
  repeat' first
    | with_reducible refine State.ite_still ?_ ?_
    | with_reducible refine State.ite2_still ?_ ?_
    | with_reducible exact State.Still.refl _
    | with_reducible assumption
    | intro _
    | split
    | with_reducible fail_if_no_progress apply State.Still.after (State.mk_still _)
    | dsimp only

theorem State.free_still (s : State) :
    s.Still (State.free s).2 := by
  exact ⟨⟨⟨rfl, id, List.suffix_refl _, Nat.le_succ _, Nat.le_refl _⟩, rfl⟩, rfl, rfl⟩

theorem State.noteBreak_still (s : State) (kind unit : Nat) :
    s.Still (State.noteBreak s kind unit) := by
  unfold State.noteBreak
  repeat' first
    | with_reducible exact State.Still.refl _
    | with_reducible assumption
    | intro _
    | split
    | with_reducible fail_if_no_progress apply State.Still.after (State.mk_still _)
    | dsimp only

theorem State.latArrive_still (s : State) :
    s.Still (State.latArrive s) := by
  unfold State.latArrive
  repeat' first
    | with_reducible exact State.Still.refl _
    | with_reducible assumption
    | intro _
    | split
    | with_reducible fail_if_no_progress apply State.Still.after (State.mk_still _)
    | dsimp only

theorem State.emit_still (s : State) (o : Output) :
    s.Still (State.emit s o) := by
  exact ⟨⟨⟨rfl, id, List.suffix_cons _ _, Nat.le_refl _, Nat.le_refl _⟩, rfl⟩, rfl, rfl⟩

theorem State.occur_still (s : State) (cause part detail : Nat) :
    s.Still (State.occur s cause part detail) := by
  unfold State.occur
  repeat' first
    | with_reducible refine State.ite_still ?_ ?_
    | with_reducible refine State.ite2_still ?_ ?_
    | with_reducible exact State.Still.refl _
    | with_reducible assumption
    | intro _
    | split
    | with_reducible fail_if_no_progress apply State.Still.after (State.mk_still _)
    | dsimp only

theorem State.addWork_still (s : State) (p slot n : Nat) :
    s.Still (State.addWork s p slot n) := by
  unfold State.addWork
  repeat' first
    | with_reducible exact State.Still.refl _
    | with_reducible assumption
    | intro _
    | split
    | with_reducible fail_if_no_progress apply State.Still.after (State.mk_still _)
    | dsimp only

theorem State.setPort_still (s : State) (p : Nat) (x : HostPort) :
    s.Still (State.setPort s p x) := by
  unfold State.setPort
  repeat' first
    | with_reducible refine State.ite_still ?_ ?_
    | with_reducible refine State.ite2_still ?_ ?_
    | with_reducible exact State.Still.refl _
    | with_reducible assumption
    | intro _
    | split
    | with_reducible fail_if_no_progress apply State.Still.after (State.mk_still _)
    | dsimp only

theorem State.setPart_still (s : State) (p : Nat) (x : Part) :
    s.Still (State.setPart s p x) := by
  unfold State.setPart
  repeat' first
    | with_reducible refine State.ite_still ?_ ?_
    | with_reducible refine State.ite2_still ?_ ?_
    | with_reducible exact State.Still.refl _
    | with_reducible assumption
    | intro _
    | split
    | with_reducible fail_if_no_progress apply State.Still.after (State.mk_still _)
    | dsimp only

theorem State.setNet_still (s : State) (n : Nat) (x : NetPort) :
    s.Still (State.setNet s n x) := by
  unfold State.setNet
  repeat' first
    | with_reducible refine State.ite_still ?_ ?_
    | with_reducible refine State.ite2_still ?_ ?_
    | with_reducible exact State.Still.refl _
    | with_reducible assumption
    | intro _
    | split
    | with_reducible fail_if_no_progress apply State.Still.after (State.mk_still _)
    | dsimp only

theorem State.setVault_still (s : State) (v : Nat) (x : Vault) :
    s.Still (State.setVault s v x) := by
  unfold State.setVault
  repeat' first
    | with_reducible exact State.Still.refl _
    | with_reducible assumption
    | intro _
    | split
    | with_reducible fail_if_no_progress apply State.Still.after (State.mk_still _)
    | dsimp only

theorem State.setStand_still (s : State) (n : Nat) (x : Stand) :
    s.Still (State.setStand s n x) := by
  unfold State.setStand
  repeat' first
    | with_reducible exact State.Still.refl _
    | with_reducible assumption
    | intro _
    | split
    | with_reducible fail_if_no_progress apply State.Still.after (State.mk_still _)
    | dsimp only

theorem State.msix_still (s : State) (p v : Nat) :
    s.Still (State.msix s p v) := by
  unfold State.msix
  repeat' first
    | with_reducible refine State.ite_still ?_ ?_
    | with_reducible refine State.ite2_still ?_ ?_
    | with_reducible exact State.Still.refl _
    | with_reducible assumption
    | with_reducible apply State.Still.after (State.emit_still _ _)
    | with_reducible apply State.Still.after (State.setPort_still _ _ _)
    | ((try lift_lets); intro x; refine State.cut_still (x := x) ?_ ?_; (on_goal 1 => unfold x); (on_goal 2 => (clear_value x; intro _)))
    | ((try lift_lets); intro x; refine State.cut_still (x := x.2) ?_ ?_; (on_goal 1 => unfold x); (on_goal 2 => (clear_value x; intro _)))
    | ((try lift_lets); intro x; try clear_value x)
    | intro _
    | split
    | with_reducible fail_if_no_progress apply State.Still.after (State.mk_still _)
    | dsimp only

theorem State.portEvent_still (s : State) (p bit : Nat) :
    s.Still (State.portEvent s p bit) := by
  unfold State.portEvent
  repeat' first
    | with_reducible refine State.ite_still ?_ ?_
    | with_reducible refine State.ite2_still ?_ ?_
    | with_reducible exact State.Still.refl _
    | with_reducible assumption
    | with_reducible apply State.Still.after (State.setPort_still _ _ _)
    | with_reducible apply State.Still.after (State.msix_still _ _ _)
    | ((try lift_lets); intro x; refine State.cut_still (x := x) ?_ ?_; (on_goal 1 => unfold x); (on_goal 2 => (clear_value x; intro _)))
    | ((try lift_lets); intro x; refine State.cut_still (x := x.2) ?_ ?_; (on_goal 1 => unfold x); (on_goal 2 => (clear_value x; intro _)))
    | ((try lift_lets); intro x; try clear_value x)
    | intro _
    | split
    | with_reducible fail_if_no_progress apply State.Still.after (State.mk_still _)
    | dsimp only

theorem State.partEvent_still (s : State) (p bit : Nat) :
    s.Still (State.partEvent s p bit) := by
  unfold State.partEvent
  repeat' first
    | with_reducible exact State.Still.refl _
    | with_reducible assumption
    | with_reducible apply State.Still.after (State.portEvent_still _ _ _)
    | with_reducible apply State.Still.after (State.foldl_still ?_ _ _)
    | with_reducible apply State.Still.after (State.foldl2_still ?_ _ _)
    | intro _
    | split
    | dsimp only

theorem State.claim_still (s : State) (rs : List Nat) (code who : Nat) :
    ∀ t_, State.claim s rs code who = some t_ → s.Still t_ := by
  intro t_ h
  unfold State.claim at h
  try dsimp only at h
  repeat' split at h
  all_goals try contradiction
  all_goals try first
    | (injection h with h; subst h)
    | (obtain ⟨z_, hz_, h⟩ := Option.map_eq_some_iff.1 h; subst h)
  all_goals repeat' first
    | with_reducible refine State.ite_still ?_ ?_
    | with_reducible refine State.ite2_still ?_ ?_
    | with_reducible exact State.Still.refl _
    | with_reducible assumption
    | with_reducible apply State.Still.after (State.foldl_still ?_ _ _)
    | with_reducible apply State.Still.after (State.foldl2_still ?_ _ _)
    | intro _
    | split
    | with_reducible fail_if_no_progress apply State.Still.after (State.mk_still _)
    | dsimp only

theorem State.release_still (s : State) (code who : Nat) :
    s.Still (State.release s code who) := by
  unfold State.release
  repeat' first
    | with_reducible exact State.Still.refl _
    | with_reducible assumption
    | intro _
    | split
    | with_reducible fail_if_no_progress apply State.Still.after (State.mk_still _)
    | dsimp only

theorem State.logError_still (s : State) (e : ErrEntry) :
    s.Still (State.logError s e) := by
  unfold State.logError
  repeat' first
    | with_reducible refine State.ite_still ?_ ?_
    | with_reducible refine State.ite2_still ?_ ?_
    | with_reducible exact State.Still.refl _
    | with_reducible assumption
    | with_reducible apply State.Still.after (State.put_still _ _ _)
    | with_reducible apply State.Still.after (State.bump_still _ _ _)
    | ((try lift_lets); intro x; refine State.cut_still (x := x) ?_ ?_; (on_goal 1 => unfold x); (on_goal 2 => (clear_value x; intro _)))
    | ((try lift_lets); intro x; refine State.cut_still (x := x.2) ?_ ?_; (on_goal 1 => unfold x); (on_goal 2 => (clear_value x; intro _)))
    | ((try lift_lets); intro x; try clear_value x)
    | intro _
    | split
    | with_reducible fail_if_no_progress apply State.Still.after (State.mk_still _)
    | dsimp only

theorem State.bootLog_still (s : State) (kind status : Nat) (detail : Bytes) :
    s.Still (State.bootLog s kind status detail) := by
  unfold State.bootLog
  dsimp only
  split
  · exact State.mk_still s
  · refine State.mkNv_still s ?_
    exact Nat.le_refl _

theorem State.setByte_steady (s : State) (da : Nat) (b : Byte) :
    s.Steady (State.setByte s da b) := by
  exact ⟨⟨rfl, fun c => ⟨Memory.wf_put c.1 da b, c.2⟩, List.suffix_refl _, Nat.le_refl _, Nat.le_refl _⟩, rfl⟩

theorem State.poke_steady (s : State) (da : Nat) (bs : Bytes) : s.Steady (s.poke da bs) := by
  induction bs generalizing s da with
  | nil => exact State.Steady.refl s
  | cons b bs ih => exact (State.setByte_steady s da b).trans (ih _ _)

theorem State.queueWriteBack_still (s : State) (wa : Nat) (v : BitVec 64) :
    s.Still (State.queueWriteBack s wa v) := by
  unfold State.queueWriteBack
  repeat' first
    | with_reducible refine State.ite_still ?_ ?_
    | with_reducible refine State.ite2_still ?_ ?_
    | with_reducible exact State.Still.refl _
    | with_reducible assumption
    | with_reducible apply State.Still.after (State.bump_still _ _ _)
    | with_reducible apply State.Still.after (State.setVault_still _ _ _)
    | ((try lift_lets); intro x; refine State.cut_still (x := x) ?_ ?_; (on_goal 1 => unfold x); (on_goal 2 => (clear_value x; intro _)))
    | ((try lift_lets); intro x; refine State.cut_still (x := x.2) ?_ ?_; (on_goal 1 => unfold x); (on_goal 2 => (clear_value x; intro _)))
    | ((try lift_lets); intro x; try clear_value x)
    | intro _
    | split
    | with_reducible fail_if_no_progress apply State.Still.after (State.mk_still _)
    | dsimp only

theorem State.cancelWriteBack_still (s : State) (wa : Nat) :
    s.Still (State.cancelWriteBack s wa) := by
  unfold State.cancelWriteBack
  repeat' first
    | with_reducible refine State.ite_still ?_ ?_
    | with_reducible refine State.ite2_still ?_ ?_
    | with_reducible exact State.Still.refl _
    | with_reducible assumption
    | with_reducible apply State.Still.after (State.bump_still _ _ _)
    | with_reducible apply State.Still.after (State.setVault_still _ _ _)
    | ((try lift_lets); intro x; refine State.cut_still (x := x) ?_ ?_; (on_goal 1 => unfold x); (on_goal 2 => (clear_value x; intro _)))
    | ((try lift_lets); intro x; refine State.cut_still (x := x.2) ?_ ?_; (on_goal 1 => unfold x); (on_goal 2 => (clear_value x; intro _)))
    | ((try lift_lets); intro x; try clear_value x)
    | intro _
    | split
    | with_reducible fail_if_no_progress apply State.Still.after (State.mk_still _)
    | dsimp only

theorem State.noteCe_still (s : State) (wa source kind pos1 pos2 : Nat) (e : Nat) :
    s.Still (State.noteCe s wa source kind pos1 pos2 e) := by
  unfold State.noteCe
  repeat' first
    | with_reducible refine State.ite_still ?_ ?_
    | with_reducible refine State.ite2_still ?_ ?_
    | with_reducible exact State.Still.refl _
    | with_reducible assumption
    | with_reducible apply State.Still.after (State.bump_still _ _ _)
    | with_reducible apply State.Still.after (State.logError_still _ _)
    | with_reducible apply State.Still.after (State.foldl_still ?_ _ _)
    | with_reducible apply State.Still.after (State.foldl2_still ?_ _ _)
    | ((try lift_lets); intro x; refine State.cut_still (x := x) ?_ ?_; (on_goal 1 => unfold x); (on_goal 2 => (clear_value x; intro _)))
    | ((try lift_lets); intro x; refine State.cut_still (x := x.2) ?_ ?_; (on_goal 1 => unfold x); (on_goal 2 => (clear_value x; intro _)))
    | ((try lift_lets); intro x; try clear_value x)
    | intro _
    | split
    | dsimp only

theorem State.noteUe_still (s : State) (wa source : Nat) (e : Nat) :
    s.Still (State.noteUe s wa source e) := by
  unfold State.noteUe
  repeat' first
    | with_reducible refine State.ite_still ?_ ?_
    | with_reducible refine State.ite2_still ?_ ?_
    | with_reducible exact State.Still.refl _
    | with_reducible assumption
    | with_reducible apply State.Still.after (State.bump_still _ _ _)
    | with_reducible apply State.Still.after (State.occur_still _ _ _ _)
    | with_reducible apply State.Still.after (State.partEvent_still _ _ _)
    | with_reducible apply State.Still.after (State.logError_still _ _)
    | with_reducible apply State.Still.after (State.bootLog_still _ _ _ _)
    | with_reducible apply State.Still.after (State.foldl_still ?_ _ _)
    | with_reducible apply State.Still.after (State.foldl2_still ?_ _ _)
    | ((try lift_lets); intro x; refine State.cut_still (x := x) ?_ ?_; (on_goal 1 => unfold x); (on_goal 2 => (clear_value x; intro _)))
    | ((try lift_lets); intro x; refine State.cut_still (x := x.2) ?_ ?_; (on_goal 1 => unfold x); (on_goal 2 => (clear_value x; intro _)))
    | ((try lift_lets); intro x; try clear_value x)
    | intro _
    | split
    | dsimp only

theorem State.countRepair_still (s : State) (wa : Nat) (ps : List Nat) :
    s.Still (State.countRepair s wa ps) := by
  unfold State.countRepair
  repeat' first
    | with_reducible exact State.Still.refl _
    | with_reducible assumption
    | with_reducible apply State.Still.after (State.setVault_still _ _ _)
    | ((try lift_lets); intro x; refine State.cut_still (x := x) ?_ ?_; (on_goal 1 => unfold x); (on_goal 2 => (clear_value x; intro _)))
    | ((try lift_lets); intro x; refine State.cut_still (x := x.2) ?_ ?_; (on_goal 1 => unfold x); (on_goal 2 => (clear_value x; intro _)))
    | ((try lift_lets); intro x; try clear_value x)
    | intro _
    | split
    | with_reducible fail_if_no_progress apply State.Still.after (State.mk_still _)
    | dsimp only

theorem State.readWord_still (s : State) (wa source : Nat) :
    s.Still (State.readWord s wa source).2 := by
  unfold State.readWord
  repeat' first
    | with_reducible refine State.ite_still ?_ ?_
    | with_reducible refine State.ite2_still ?_ ?_
    | with_reducible exact State.Still.refl _
    | with_reducible assumption
    | with_reducible apply State.Still.after (State.queueWriteBack_still _ _ _)
    | with_reducible apply State.Still.after (State.noteCe_still _ _ _ _ _ _ _)
    | with_reducible apply State.Still.after (State.noteUe_still _ _ _ _)
    | with_reducible apply State.Still.after (State.countRepair_still _ _ _)
    | ((try lift_lets); intro x; refine State.cut_still (x := x) ?_ ?_; (on_goal 1 => unfold x); (on_goal 2 => (clear_value x; intro _)))
    | ((try lift_lets); intro x; refine State.cut_still (x := x.2) ?_ ?_; (on_goal 1 => unfold x); (on_goal 2 => (clear_value x; intro _)))
    | ((try lift_lets); intro x; try clear_value x)
    | intro _
    | split
    | dsimp only

theorem State.vaultRead_still (s : State) (source da n : Nat) :
    s.Still (State.vaultRead s source da n).2 := by
  unfold State.vaultRead
  repeat' first
    | with_reducible refine State.ite_still ?_ ?_
    | with_reducible refine State.ite2_still ?_ ?_
    | with_reducible exact State.Still.refl _
    | with_reducible assumption
    | with_reducible apply State.Still.after (State.readWord_still _ _ _)
    | with_reducible apply State.Still.after (State.pair_still (State.readWord_still _ _ _) (by assumption))
    | with_reducible apply State.Still.after (State.foldl_still ?_ _ _)
    | with_reducible apply State.Still.after (State.foldl2_still ?_ _ _)
    | ((try lift_lets); intro x; refine State.cut_still (x := x) ?_ ?_; (on_goal 1 => unfold x); (on_goal 2 => (clear_value x; intro _)))
    | ((try lift_lets); intro x; refine State.cut_still (x := x.2) ?_ ?_; (on_goal 1 => unfold x); (on_goal 2 => (clear_value x; intro _)))
    | ((try lift_lets); intro x; try clear_value x)
    | intro _
    | split
    | dsimp only

theorem State.writeAccess_steady (s : State) (da : Nat) (bs : Bytes) :
    s.Steady (State.writeAccess s da bs).2 := by
  unfold State.writeAccess
  repeat' first
    | with_reducible refine State.ite_steady ?_ ?_
    | with_reducible refine State.ite2_steady ?_ ?_
    | with_reducible exact State.Steady.refl _
    | with_reducible assumption
    | with_reducible apply State.Steady.after (State.poke_steady _ _ _)
    | with_reducible apply State.Steady.after ((State.cancelWriteBack_still _ _).steady)
    | with_reducible apply State.Steady.after ((State.readWord_still _ _ _).steady)
    | with_reducible apply State.Steady.after (State.pair_steady ((State.readWord_still _ _ _).steady) (by assumption))
    | with_reducible apply State.Steady.after (State.foldl_steady ?_ _ _)
    | with_reducible apply State.Steady.after (State.foldl2_steady ?_ _ _)
    | ((try lift_lets); intro x; refine State.cut_steady (x := x) ?_ ?_; (on_goal 1 => unfold x); (on_goal 2 => (clear_value x; intro _)))
    | ((try lift_lets); intro x; refine State.cut_steady (x := x.2) ?_ ?_; (on_goal 1 => unfold x); (on_goal 2 => (clear_value x; intro _)))
    | ((try lift_lets); intro x; try clear_value x)
    | intro _
    | split
    | with_reducible fail_if_no_progress apply State.Steady.after ((State.mk_still _).steady)
    | dsimp only

theorem State.vaultWrite_steady (s : State) (da : Nat) (bs : Bytes) :
    s.Steady (State.vaultWrite s da bs).2 := by
  unfold State.vaultWrite
  repeat' first
    | with_reducible exact State.Steady.refl _
    | with_reducible assumption
    | with_reducible apply State.Steady.after (State.writeAccess_steady _ _ _)
    | with_reducible apply State.Steady.after (State.pair_steady (State.writeAccess_steady _ _ _) (by assumption))
    | with_reducible apply State.Steady.after (State.foldl_steady ?_ _ _)
    | with_reducible apply State.Steady.after (State.foldl2_steady ?_ _ _)
    | ((try lift_lets); intro x; refine State.cut_steady (x := x) ?_ ?_; (on_goal 1 => unfold x); (on_goal 2 => (clear_value x; intro _)))
    | ((try lift_lets); intro x; refine State.cut_steady (x := x.2) ?_ ?_; (on_goal 1 => unfold x); (on_goal 2 => (clear_value x; intro _)))
    | ((try lift_lets); intro x; try clear_value x)
    | intro _
    | split
    | dsimp only

theorem State.noteSram_still (s : State) (unit part addr : Nat) (double : Bool) :
    s.Still (State.noteSram s unit part addr double) := by
  unfold State.noteSram
  repeat' first
    | with_reducible refine State.ite_still ?_ ?_
    | with_reducible refine State.ite2_still ?_ ?_
    | with_reducible exact State.Still.refl _
    | with_reducible assumption
    | with_reducible apply State.Still.after (State.bump_still _ _ _)
    | with_reducible apply State.Still.after (State.logError_still _ _)
    | intro _
    | split
    | dsimp only

theorem State.sramRead_still (s : State) (unit part a n : Nat) :
    s.Still (State.sramRead s unit part a n).2 := by
  unfold State.sramRead
  repeat' first
    | with_reducible refine State.ite_still ?_ ?_
    | with_reducible refine State.ite2_still ?_ ?_
    | with_reducible exact State.Still.refl _
    | with_reducible assumption
    | with_reducible apply State.Still.after (State.noteSram_still _ _ _ _ _)
    | with_reducible apply State.Still.after (State.foldl_still ?_ _ _)
    | with_reducible apply State.Still.after (State.foldl2_still ?_ _ _)
    | ((try lift_lets); intro x; refine State.cut_still (x := x) ?_ ?_; (on_goal 1 => unfold x); (on_goal 2 => (clear_value x; intro _)))
    | ((try lift_lets); intro x; refine State.cut_still (x := x.2) ?_ ?_; (on_goal 1 => unfold x); (on_goal 2 => (clear_value x; intro _)))
    | ((try lift_lets); intro x; try clear_value x)
    | intro _
    | split
    | with_reducible fail_if_no_progress apply State.Still.after (State.mk_still _)
    | dsimp only

theorem State.sramWrite_still (s : State) (unit a n : Nat) :
    s.Still (State.sramWrite s unit a n) := by
  unfold State.sramWrite
  repeat' first
    | with_reducible exact State.Still.refl _
    | with_reducible assumption
    | intro _
    | split
    | with_reducible fail_if_no_progress apply State.Still.after (State.mk_still _)
    | dsimp only

theorem State.lbufRead_still (s : State) (a n : Nat) :
    s.Still (State.lbufRead s a n).2 := by
  unfold State.lbufRead
  repeat' first
    | with_reducible refine State.ite_still ?_ ?_
    | with_reducible refine State.ite2_still ?_ ?_
    | with_reducible exact State.Still.refl _
    | with_reducible assumption
    | with_reducible apply State.Still.after (State.sramRead_still _ _ _ _ _)
    | with_reducible apply State.Still.after (State.pair_still (State.sramRead_still _ _ _ _ _) (by assumption))
    | ((try lift_lets); intro x; refine State.cut_still (x := x) ?_ ?_; (on_goal 1 => unfold x); (on_goal 2 => (clear_value x; intro _)))
    | ((try lift_lets); intro x; refine State.cut_still (x := x.2) ?_ ?_; (on_goal 1 => unfold x); (on_goal 2 => (clear_value x; intro _)))
    | ((try lift_lets); intro x; try clear_value x)
    | intro _
    | split
    | dsimp only

theorem State.lbufWrite_steady (s : State) (a : Nat) (bs : Bytes) :
    s.Steady (State.lbufWrite s a bs) := by
  unfold State.lbufWrite
  repeat' first
    | with_reducible exact State.Steady.refl _
    | with_reducible assumption
    | with_reducible apply State.Steady.after ((State.sramWrite_still _ _ _ _).steady)
    | with_reducible apply State.Steady.after (State.lbufByte_steady _ _ _)
    | with_reducible apply State.Steady.after (State.foldl_steady ?_ _ _)
    | with_reducible apply State.Steady.after (State.foldl2_steady ?_ _ _)
    | intro _
    | split
    | with_reducible fail_if_no_progress apply State.Steady.after ((State.mk_still _).steady)
    | dsimp only

end Sys2Proof.Machine
end

