-- ==== Sys2Proof/Laws/KeepFlags.lean ====
section
/-!
SUPPORT. What the operations and meanings of Machine/Flags.lean keep of a state.
-/
set_option linter.unusedVariables false
set_option linter.unreachableTactic false
set_option linter.unusedTactic false
namespace Sys2Proof.Machine

theorem State.setCmd_still (s : State) (c : Cmd) :
    s.Still (State.setCmd s c) := by
  unfold State.setCmd
  repeat' first
    | with_reducible refine State.ite_still ?_ ?_
    | with_reducible refine State.ite2_still ?_ ?_
    | with_reducible exact State.Still.refl _
    | with_reducible assumption
    | intro _
    | split
    | with_reducible fail_if_no_progress apply State.Still.after (State.mk_still _)
    | dsimp only

theorem State.dmaFault_still (s : State) (p addr : Nat) (st : Status) (ring tag : Nat) :
    s.Still (State.dmaFault s p addr st ring tag) := by
  unfold State.dmaFault
  repeat' first
    | with_reducible exact State.Still.refl _
    | with_reducible assumption
    | with_reducible apply State.Still.after (State.bump_still _ _ _)
    | with_reducible apply State.Still.after (State.setPort_still _ _ _)
    | with_reducible apply State.Still.after (State.portEvent_still _ _ _)
    | ((try lift_lets); intro x; refine State.cut_still (x := x) ?_ ?_; (on_goal 1 => unfold x); (on_goal 2 => (clear_value x; intro _)))
    | ((try lift_lets); intro x; refine State.cut_still (x := x.2) ?_ ?_; (on_goal 1 => unfold x); (on_goal 2 => (clear_value x; intro _)))
    | ((try lift_lets); intro x; try clear_value x)
    | intro _
    | split
    | with_reducible fail_if_no_progress apply State.Still.after (State.mk_still _)
    | dsimp only

theorem State.hostOut_still (s : State) (p addr : Nat) (bs : Bytes) :
    s.Still (State.hostOut s p addr bs) := by
  unfold State.hostOut
  repeat' first
    | with_reducible exact State.Still.refl _
    | with_reducible assumption
    | with_reducible apply State.Still.after (State.emit_still _ _)
    | with_reducible apply State.Still.after (State.foldl_still ?_ _ _)
    | with_reducible apply State.Still.after (State.foldl2_still ?_ _ _)
    | intro _
    | split
    | dsimp only

theorem State.dmaWrite_still (s : State) (id p addr : Nat) (bs : Bytes) :
    s.Still (State.dmaWrite s id p addr bs) := by
  unfold State.dmaWrite
  repeat' first
    | with_reducible refine State.ite_still ?_ ?_
    | with_reducible refine State.ite2_still ?_ ?_
    | with_reducible exact State.Still.refl _
    | with_reducible assumption
    | with_reducible apply State.Still.after (State.setCmd_still _ _)
    | with_reducible apply State.Still.after (State.hostOut_still _ _ _ _)
    | ((try lift_lets); intro x; refine State.cut_still (x := x) ?_ ?_; (on_goal 1 => unfold x); (on_goal 2 => (clear_value x; intro _)))
    | ((try lift_lets); intro x; refine State.cut_still (x := x.2) ?_ ?_; (on_goal 1 => unfold x); (on_goal 2 => (clear_value x; intro _)))
    | ((try lift_lets); intro x; try clear_value x)
    | intro _
    | split
    | with_reducible fail_if_no_progress apply State.Still.after (State.mk_still _)
    | dsimp only

theorem State.setCpl_still (s : State) (p r : Nat) (x : CplRing) :
    s.Still (State.setCpl s p r x) := by
  unfold State.setCpl
  repeat' first
    | with_reducible exact State.Still.refl _
    | with_reducible assumption
    | with_reducible apply State.Still.after (State.setPort_still _ _ _)
    | intro _
    | split
    | with_reducible fail_if_no_progress apply State.Still.after (State.mk_still _)
    | dsimp only

theorem State.setRing_still (s : State) (p r : Nat) (x : CmdRing) :
    s.Still (State.setRing s p r x) := by
  unfold State.setRing
  repeat' first
    | with_reducible exact State.Still.refl _
    | with_reducible assumption
    | with_reducible apply State.Still.after (State.setPort_still _ _ _)
    | intro _
    | split
    | with_reducible fail_if_no_progress apply State.Still.after (State.mk_still _)
    | dsimp only

theorem State.ringMessage_still (s : State) (p r : Nat) :
    s.Still (State.ringMessage s p r) := by
  unfold State.ringMessage
  repeat' first
    | with_reducible exact State.Still.refl _
    | with_reducible assumption
    | with_reducible apply State.Still.after (State.msix_still _ _ _)
    | with_reducible apply State.Still.after (State.setCpl_still _ _ _ _)
    | ((try lift_lets); intro x; refine State.cut_still (x := x) ?_ ?_; (on_goal 1 => unfold x); (on_goal 2 => (clear_value x; intro _)))
    | ((try lift_lets); intro x; refine State.cut_still (x := x.2) ?_ ?_; (on_goal 1 => unfold x); (on_goal 2 => (clear_value x; intro _)))
    | ((try lift_lets); intro x; try clear_value x)
    | intro _
    | split
    | with_reducible fail_if_no_progress apply State.Still.after (State.mk_still _)
    | dsimp only

theorem State.writeEntry_still (s : State) (p r : Nat) (c : Cpl) :
    s.Still (State.writeEntry s p r c) := by
  unfold State.writeEntry
  repeat' first
    | with_reducible refine State.ite_still ?_ ?_
    | with_reducible refine State.ite2_still ?_ ?_
    | with_reducible exact State.Still.refl _
    | with_reducible assumption
    | with_reducible apply State.Still.after (State.emit_still _ _)
    | with_reducible apply State.Still.after (State.hostOut_still _ _ _ _)
    | with_reducible apply State.Still.after (State.setCpl_still _ _ _ _)
    | with_reducible apply State.Still.after (State.ringMessage_still _ _ _)
    | with_reducible apply State.Still.after (State.foldl_still ?_ _ _)
    | with_reducible apply State.Still.after (State.foldl2_still ?_ _ _)
    | ((try lift_lets); intro x; refine State.cut_still (x := x) ?_ ?_; (on_goal 1 => unfold x); (on_goal 2 => (clear_value x; intro _)))
    | ((try lift_lets); intro x; refine State.cut_still (x := x.2) ?_ ?_; (on_goal 1 => unfold x); (on_goal 2 => (clear_value x; intro _)))
    | ((try lift_lets); intro x; try clear_value x)
    | intro _
    | split
    | with_reducible fail_if_no_progress apply State.Still.after (State.mk_still _)
    | dsimp only

theorem State.deliverCpl_still (s : State) (p r : Nat) (c : Cpl) :
    s.Still (State.deliverCpl s p r c).2 := by
  unfold State.deliverCpl
  repeat' first
    | with_reducible refine State.ite_still ?_ ?_
    | with_reducible refine State.ite2_still ?_ ?_
    | with_reducible exact State.Still.refl _
    | with_reducible assumption
    | with_reducible apply State.Still.after (State.bump_still _ _ _)
    | with_reducible apply State.Still.after (State.setPort_still _ _ _)
    | with_reducible apply State.Still.after (State.setCpl_still _ _ _ _)
    | with_reducible apply State.Still.after (State.writeEntry_still _ _ _ _)
    | ((try lift_lets); intro x; refine State.cut_still (x := x) ?_ ?_; (on_goal 1 => unfold x); (on_goal 2 => (clear_value x; intro _)))
    | ((try lift_lets); intro x; refine State.cut_still (x := x.2) ?_ ?_; (on_goal 1 => unfold x); (on_goal 2 => (clear_value x; intro _)))
    | ((try lift_lets); intro x; try clear_value x)
    | intro _
    | split
    | with_reducible fail_if_no_progress apply State.Still.after (State.mk_still _)
    | dsimp only

theorem State.retire_still (s : State) (id : Nat) :
    s.Still (State.retire s id).2 := by
  unfold State.retire
  repeat' first
    | with_reducible exact State.Still.refl _
    | with_reducible assumption
    | ((try lift_lets); intro x; refine State.cut_still (x := x) ?_ ?_; (on_goal 1 => unfold x); (on_goal 2 => (clear_value x; intro _)))
    | ((try lift_lets); intro x; refine State.cut_still (x := x.2) ?_ ?_; (on_goal 1 => unfold x); (on_goal 2 => (clear_value x; intro _)))
    | ((try lift_lets); intro x; try clear_value x)
    | intro _
    | split
    | with_reducible fail_if_no_progress apply State.Still.after (State.mk_still _)
    | dsimp only

theorem State.unfence_still (s : State) (id : Nat) :
    s.Still (State.unfence s id) := by
  unfold State.unfence
  repeat' first
    | with_reducible refine State.ite_still ?_ ?_
    | with_reducible refine State.ite2_still ?_ ?_
    | with_reducible exact State.Still.refl _
    | with_reducible assumption
    | with_reducible apply State.Still.after (State.setRing_still _ _ _ _)
    | ((try lift_lets); intro x; refine State.cut_still (x := x) ?_ ?_; (on_goal 1 => unfold x); (on_goal 2 => (clear_value x; intro _)))
    | ((try lift_lets); intro x; refine State.cut_still (x := x.2) ?_ ?_; (on_goal 1 => unfold x); (on_goal 2 => (clear_value x; intro _)))
    | ((try lift_lets); intro x; try clear_value x)
    | intro _
    | split
    | with_reducible fail_if_no_progress apply State.Still.after (State.mk_still _)
    | dsimp only

theorem State.settle_still (a0 : Nat) (s : State) (a2 : List Nat) :
    s.Still (State.settle a0 s a2) := by
  induction a0 generalizing s a2 with
  | zero => exact State.Still.refl s
  | succ n ih =>
    unfold State.settle
    repeat' first
      | with_reducible refine State.ite_still ?_ ?_
      | with_reducible refine State.ite2_still ?_ ?_
      | cases (by assumption : n + 1 = Nat.succ _)
      | with_reducible apply State.Still.after (ih _ _)
      | with_reducible exact State.Still.refl _
      | with_reducible assumption
      | with_reducible apply State.Still.after (State.setCmd_still _ _)
      | with_reducible apply State.Still.after (State.deliverCpl_still _ _ _ _)
      | with_reducible apply State.Still.after (State.pair_still (State.deliverCpl_still _ _ _ _) (by assumption))
      | with_reducible apply State.Still.after (State.retire_still _ _)
      | with_reducible apply State.Still.after (State.pair_still (State.retire_still _ _) (by assumption))
      | with_reducible apply State.Still.after (State.unfence_still _ _)
      | with_reducible apply State.Still.after (State.foldl_still ?_ _ _)
      | with_reducible apply State.Still.after (State.foldl2_still ?_ _ _)
      | ((try lift_lets); intro x; refine State.cut_still (x := x) ?_ ?_; (on_goal 1 => unfold x); (on_goal 2 => (clear_value x; intro _)))
      | ((try lift_lets); intro x; refine State.cut_still (x := x.2) ?_ ?_; (on_goal 1 => unfold x); (on_goal 2 => (clear_value x; intro _)))
      | ((try lift_lets); intro x; try clear_value x)
      | intro _
      | split
      | with_reducible fail_if_no_progress apply State.Still.after (State.mk_still _)
      | dsimp only

theorem State.finish_still (s : State) (id : Nat) (st : Status) (result : Nat) :
    s.Still (State.finish s id st result) := by
  unfold State.finish
  repeat' first
    | with_reducible refine State.ite_still ?_ ?_
    | with_reducible refine State.ite2_still ?_ ?_
    | with_reducible exact State.Still.refl _
    | with_reducible assumption
    | with_reducible apply State.Still.after (State.setCmd_still _ _)
    | with_reducible apply State.Still.after (State.deliverCpl_still _ _ _ _)
    | with_reducible apply State.Still.after (State.pair_still (State.deliverCpl_still _ _ _ _) (by assumption))
    | with_reducible apply State.Still.after (State.settle_still _ _ _)
    | ((try lift_lets); intro x; refine State.cut_still (x := x) ?_ ?_; (on_goal 1 => unfold x); (on_goal 2 => (clear_value x; intro _)))
    | ((try lift_lets); intro x; refine State.cut_still (x := x.2) ?_ ?_; (on_goal 1 => unfold x); (on_goal 2 => (clear_value x; intro _)))
    | ((try lift_lets); intro x; try clear_value x)
    | intro _
    | split
    | with_reducible fail_if_no_progress apply State.Still.after (State.mk_still _)
    | dsimp only

theorem State.drain_still (a0 : Nat) (s : State) (a2 : Nat) (a3 : Nat) :
    s.Still (State.drain a0 s a2 a3) := by
  induction a0 generalizing s a2 a3 with
  | zero => exact State.Still.refl s
  | succ n ih =>
    unfold State.drain
    repeat' first
      | with_reducible refine State.ite_still ?_ ?_
      | with_reducible refine State.ite2_still ?_ ?_
      | cases (by assumption : n + 1 = Nat.succ _)
      | with_reducible apply State.Still.after (ih _ _ _)
      | with_reducible exact State.Still.refl _
      | with_reducible assumption
      | with_reducible apply State.Still.after (State.setCpl_still _ _ _ _)
      | with_reducible apply State.Still.after (State.writeEntry_still _ _ _ _)
      | with_reducible apply State.Still.after (State.settle_still _ _ _)
      | ((try lift_lets); intro x; refine State.cut_still (x := x) ?_ ?_; (on_goal 1 => unfold x); (on_goal 2 => (clear_value x; intro _)))
      | ((try lift_lets); intro x; refine State.cut_still (x := x.2) ?_ ?_; (on_goal 1 => unfold x); (on_goal 2 => (clear_value x; intro _)))
      | ((try lift_lets); intro x; try clear_value x)
      | intro _
      | split
      | with_reducible fail_if_no_progress apply State.Still.after (State.mk_still _)
      | dsimp only

theorem State.loseHeld_still (s : State) (p r : Nat) :
    s.Still (State.loseHeld s p r) := by
  unfold State.loseHeld
  repeat' first
    | with_reducible exact State.Still.refl _
    | with_reducible assumption
    | with_reducible apply State.Still.after (State.bump_still _ _ _)
    | with_reducible apply State.Still.after (State.setCpl_still _ _ _ _)
    | with_reducible apply State.Still.after (State.settle_still _ _ _)
    | with_reducible apply State.Still.after (State.foldl_still ?_ _ _)
    | with_reducible apply State.Still.after (State.foldl2_still ?_ _ _)
    | ((try lift_lets); intro x; refine State.cut_still (x := x) ?_ ?_; (on_goal 1 => unfold x); (on_goal 2 => (clear_value x; intro _)))
    | ((try lift_lets); intro x; refine State.cut_still (x := x.2) ?_ ?_; (on_goal 1 => unfold x); (on_goal 2 => (clear_value x; intro _)))
    | ((try lift_lets); intro x; try clear_value x)
    | intro _
    | split
    | with_reducible fail_if_no_progress apply State.Still.after (State.mk_still _)
    | dsimp only

theorem State.ringError_still (s : State) (p : Nat) :
    s.Still (State.ringError s p) := by
  unfold State.ringError
  repeat' first
    | with_reducible exact State.Still.refl _
    | with_reducible assumption
    | with_reducible apply State.Still.after (State.portEvent_still _ _ _)
    | intro _
    | split
    | dsimp only

theorem State.barDiscard_still (s : State) (p : Nat) :
    s.Still (State.barDiscard s p) := by
  unfold State.barDiscard
  repeat' first
    | with_reducible exact State.Still.refl _
    | with_reducible assumption
    | with_reducible apply State.Still.after (State.setPort_still _ _ _)
    | intro _
    | split
    | with_reducible fail_if_no_progress apply State.Still.after (State.mk_still _)
    | dsimp only

theorem State.finishAll_still (s : State) (ids : List Nat) (st : Status) :
    s.Still (State.finishAll s ids st) := by
  unfold State.finishAll
  repeat' first
    | with_reducible exact State.Still.refl _
    | with_reducible assumption
    | with_reducible apply State.Still.after (State.finish_still _ _ _ _)
    | with_reducible apply State.Still.after (State.foldl_still ?_ _ _)
    | with_reducible apply State.Still.after (State.foldl2_still ?_ _ _)
    | intro _
    | split
    | dsimp only

theorem State.discardAll_still (s : State) (ids : List Nat) :
    s.Still (State.discardAll s ids) := by
  unfold State.discardAll
  repeat' first
    | with_reducible exact State.Still.refl _
    | with_reducible assumption
    | with_reducible apply State.Still.after (State.settle_still _ _ _)
    | with_reducible apply State.Still.after (State.foldl_still ?_ _ _)
    | with_reducible apply State.Still.after (State.foldl2_still ?_ _ _)
    | ((try lift_lets); intro x; refine State.cut_still (x := x) ?_ ?_; (on_goal 1 => unfold x); (on_goal 2 => (clear_value x; intro _)))
    | ((try lift_lets); intro x; refine State.cut_still (x := x.2) ?_ ?_; (on_goal 1 => unfold x); (on_goal 2 => (clear_value x; intro _)))
    | ((try lift_lets); intro x; try clear_value x)
    | intro _
    | split
    | with_reducible fail_if_no_progress apply State.Still.after (State.mk_still _)
    | dsimp only

end Sys2Proof.Machine
end

