-- ==== Sys2Proof/Laws/KeepOperands.lean ====
section
/-!
SUPPORT. What the operations and meanings of Machine/Operands.lean keep of a state.
-/
set_option linter.unusedVariables false
set_option linter.unreachableTactic false
set_option linter.unusedTactic false
namespace Sys2Proof.Machine

theorem State.devRead_still (s : State) (source p v n : Nat) :
    s.Still (State.devRead s source p v n).2 := by
  unfold State.devRead
  repeat' first
    | with_reducible exact State.Still.refl _
    | with_reducible assumption
    | with_reducible apply State.Still.after (State.vaultRead_still _ _ _ _)
    | with_reducible apply State.Still.after (State.pair_still (State.vaultRead_still _ _ _ _) (by assumption))
    | with_reducible apply State.Still.after (State.lbufRead_still _ _ _)
    | with_reducible apply State.Still.after (State.pair_still (State.lbufRead_still _ _ _) (by assumption))
    | with_reducible apply State.Still.after (State.foldl_still ?_ _ _)
    | with_reducible apply State.Still.after (State.foldl2_still ?_ _ _)
    | ((try lift_lets); intro x; refine State.cut_still (x := x) ?_ ?_; (on_goal 1 => unfold x); (on_goal 2 => (clear_value x; intro _)))
    | ((try lift_lets); intro x; refine State.cut_still (x := x.2) ?_ ?_; (on_goal 1 => unfold x); (on_goal 2 => (clear_value x; intro _)))
    | ((try lift_lets); intro x; try clear_value x)
    | intro _
    | split
    | dsimp only

theorem State.devWrite_steady (s : State) (p v : Nat) (bs : Bytes) :
    s.Steady (State.devWrite s p v bs).2 := by
  unfold State.devWrite
  repeat' first
    | with_reducible exact State.Steady.refl _
    | with_reducible assumption
    | with_reducible apply State.Steady.after (State.vaultWrite_steady _ _ _)
    | with_reducible apply State.Steady.after (State.pair_steady (State.vaultWrite_steady _ _ _) (by assumption))
    | with_reducible apply State.Steady.after (State.lbufWrite_steady _ _ _)
    | with_reducible apply State.Steady.after (State.foldl_steady ?_ _ _)
    | with_reducible apply State.Steady.after (State.foldl2_steady ?_ _ _)
    | ((try lift_lets); intro x; refine State.cut_steady (x := x) ?_ ?_; (on_goal 1 => unfold x); (on_goal 2 => (clear_value x; intro _)))
    | ((try lift_lets); intro x; refine State.cut_steady (x := x.2) ?_ ?_; (on_goal 1 => unfold x); (on_goal 2 => (clear_value x; intro _)))
    | ((try lift_lets); intro x; try clear_value x)
    | intro _
    | split
    | dsimp only

end Sys2Proof.Machine
end

