-- ==== Sys2Proof/Laws/KeepHost.lean ====
section
/-!
SUPPORT. What the operations and meanings of Machine/Host.lean keep of a state.
-/
set_option linter.unusedVariables false
set_option linter.unreachableTactic false
set_option linter.unusedTactic false
namespace Sys2Proof.Machine

theorem State.barWord_still (s : State) (p off v : Nat) :
    s.Still (State.barWord s p off v).2 := by
  unfold State.barWord
  dsimp only
  repeat' first
    | with_reducible refine State.ite2_still ?_ ?_
    | exact State.Still.refl _
    | exact State.setPort_still _ _ _
    | with_reducible apply State.Still.after (State.setPort_still _ _ _)
    | with_reducible apply State.Still.after (State.msix_still _ _ _)
    | split

theorem State.barWrite_still (s : State) (p off size v : Nat) :
    s.Still (State.barWrite s p off size v) := by
  unfold State.barWrite
  repeat' first
    | with_reducible refine State.ite_still ?_ ?_
    | with_reducible refine State.ite2_still ?_ ?_
    | with_reducible exact State.Still.refl _
    | with_reducible assumption
    | with_reducible apply State.Still.after (State.barDiscard_still _ _)
    | with_reducible apply State.Still.after (State.barWord_still _ _ _ _)
    | with_reducible apply State.Still.after (State.pair_still (State.barWord_still _ _ _ _) (by assumption))
    | ((try lift_lets); intro x; refine State.cut_still (x := x) ?_ ?_; (on_goal 1 => unfold x); (on_goal 2 => (clear_value x; intro _)))
    | ((try lift_lets); intro x; refine State.cut_still (x := x.2) ?_ ?_; (on_goal 1 => unfold x); (on_goal 2 => (clear_value x; intro _)))
    | ((try lift_lets); intro x; try clear_value x)
    | intro _
    | split
    | dsimp only

theorem execBar0Write_still (port : PortNo) (off size value : Nat) (s : State) :
    ∀ t_, execBar0Write port off size value s = .next t_ → s.Still t_ := by
  unfold execBar0Write
  refine State.next_still ?_
  repeat' first
    | with_reducible refine State.ite_still ?_ ?_
    | with_reducible refine State.ite2_still ?_ ?_
    | with_reducible exact State.Still.refl _
    | with_reducible assumption
    | with_reducible apply State.Still.after (State.barWrite_still _ _ _ _ _)
    | intro _
    | split
    | dsimp only

theorem execTickLoRead_still (port : PortNo) (s : State) :
    ∀ t_, execTickLoRead port s = .next t_ → s.Still t_ := by
  unfold execTickLoRead
  refine State.next_still ?_
  repeat' first
    | with_reducible exact State.Still.refl _
    | with_reducible assumption
    | with_reducible apply State.Still.after (State.emit_still _ _)
    | with_reducible apply State.Still.after (State.setPort_still _ _ _)
    | intro _
    | split
    | with_reducible fail_if_no_progress apply State.Still.after (State.mk_still _)
    | dsimp only

theorem State.writeCmdRing_still (s : State) (p ring : Nat) (ws : List (Nat × Nat)) :
    s.Still (State.writeCmdRing s p ring ws) := by
  unfold State.writeCmdRing
  repeat' first
    | with_reducible refine State.ite_still ?_ ?_
    | with_reducible refine State.ite2_still ?_ ?_
    | with_reducible exact State.Still.refl _
    | with_reducible assumption
    | with_reducible apply State.Still.after (State.setRing_still _ _ _ _)
    | with_reducible apply State.Still.after (State.ringError_still _ _)
    | with_reducible apply State.Still.after (State.barDiscard_still _ _)
    | ((try lift_lets); intro x; refine State.cut_still (x := x) ?_ ?_; (on_goal 1 => unfold x); (on_goal 2 => (clear_value x; intro _)))
    | ((try lift_lets); intro x; refine State.cut_still (x := x.2) ?_ ?_; (on_goal 1 => unfold x); (on_goal 2 => (clear_value x; intro _)))
    | ((try lift_lets); intro x; try clear_value x)
    | intro _
    | split
    | with_reducible fail_if_no_progress apply State.Still.after (State.mk_still _)
    | dsimp only

theorem execCommandRingTableWrite_still (port : PortNo) (off size value : Nat) (s : State) :
    ∀ t_, execCommandRingTableWrite port off size value s = .next t_ → s.Still t_ := by
  unfold execCommandRingTableWrite
  refine State.next_still ?_
  repeat' first
    | with_reducible refine State.ite_still ?_ ?_
    | with_reducible refine State.ite2_still ?_ ?_
    | with_reducible exact State.Still.refl _
    | with_reducible assumption
    | with_reducible apply State.Still.after (State.barDiscard_still _ _)
    | with_reducible apply State.Still.after (State.writeCmdRing_still _ _ _ _)
    | intro _
    | split
    | dsimp only

theorem State.writeCplRing_still (s : State) (p ring : Nat) (ws : List (Nat × Nat)) :
    s.Still (State.writeCplRing s p ring ws) := by
  unfold State.writeCplRing
  repeat' first
    | with_reducible refine State.ite_still ?_ ?_
    | with_reducible refine State.ite2_still ?_ ?_
    | with_reducible exact State.Still.refl _
    | with_reducible assumption
    | with_reducible apply State.Still.after (State.setCpl_still _ _ _ _)
    | with_reducible apply State.Still.after (State.loseHeld_still _ _ _)
    | with_reducible apply State.Still.after (State.ringError_still _ _)
    | with_reducible apply State.Still.after (State.barDiscard_still _ _)
    | ((try lift_lets); intro x; refine State.cut_still (x := x) ?_ ?_; (on_goal 1 => unfold x); (on_goal 2 => (clear_value x; intro _)))
    | ((try lift_lets); intro x; refine State.cut_still (x := x.2) ?_ ?_; (on_goal 1 => unfold x); (on_goal 2 => (clear_value x; intro _)))
    | ((try lift_lets); intro x; try clear_value x)
    | intro _
    | split
    | with_reducible fail_if_no_progress apply State.Still.after (State.mk_still _)
    | dsimp only

theorem execCompletionRingTableWrite_still (port : PortNo) (off size value : Nat) (s : State) :
    ∀ t_, execCompletionRingTableWrite port off size value s = .next t_ → s.Still t_ := by
  unfold execCompletionRingTableWrite
  refine State.next_still ?_
  repeat' first
    | with_reducible refine State.ite_still ?_ ?_
    | with_reducible refine State.ite2_still ?_ ?_
    | with_reducible exact State.Still.refl _
    | with_reducible assumption
    | with_reducible apply State.Still.after (State.barDiscard_still _ _)
    | with_reducible apply State.Still.after (State.writeCplRing_still _ _ _ _)
    | intro _
    | split
    | dsimp only

theorem execTailDoorbell_still (port : PortNo) (ring : RingNo) (value : Nat) (s : State) :
    ∀ t_, execTailDoorbell port ring value s = .next t_ → s.Still t_ := by
  unfold execTailDoorbell
  refine State.next_still ?_
  repeat' first
    | with_reducible refine State.ite_still ?_ ?_
    | with_reducible refine State.ite2_still ?_ ?_
    | with_reducible exact State.Still.refl _
    | with_reducible assumption
    | with_reducible apply State.Still.after (State.setRing_still _ _ _ _)
    | with_reducible apply State.Still.after (State.ringError_still _ _)
    | with_reducible apply State.Still.after (State.barDiscard_still _ _)
    | ((try lift_lets); intro x; refine State.cut_still (x := x) ?_ ?_; (on_goal 1 => unfold x); (on_goal 2 => (clear_value x; intro _)))
    | ((try lift_lets); intro x; refine State.cut_still (x := x.2) ?_ ?_; (on_goal 1 => unfold x); (on_goal 2 => (clear_value x; intro _)))
    | ((try lift_lets); intro x; try clear_value x)
    | intro _
    | split
    | with_reducible fail_if_no_progress apply State.Still.after (State.mk_still _)
    | dsimp only

theorem execHeadDoorbell_still (port : PortNo) (ring : RingNo) (value : Nat) (s : State) :
    ∀ t_, execHeadDoorbell port ring value s = .next t_ → s.Still t_ := by
  unfold execHeadDoorbell
  refine State.next_still ?_
  repeat' first
    | with_reducible refine State.ite_still ?_ ?_
    | with_reducible refine State.ite2_still ?_ ?_
    | with_reducible exact State.Still.refl _
    | with_reducible assumption
    | with_reducible apply State.Still.after (State.setCpl_still _ _ _ _)
    | with_reducible apply State.Still.after (State.drain_still _ _ _ _)
    | with_reducible apply State.Still.after (State.ringError_still _ _)
    | ((try lift_lets); intro x; refine State.cut_still (x := x) ?_ ?_; (on_goal 1 => unfold x); (on_goal 2 => (clear_value x; intro _)))
    | ((try lift_lets); intro x; refine State.cut_still (x := x.2) ?_ ?_; (on_goal 1 => unfold x); (on_goal 2 => (clear_value x; intro _)))
    | ((try lift_lets); intro x; try clear_value x)
    | intro _
    | split
    | with_reducible fail_if_no_progress apply State.Still.after (State.mk_still _)
    | dsimp only

theorem execModTicks_still (port : PortNo) (ring : RingNo) (s : State) :
    ∀ t_, execModTicks port ring s = .next t_ → s.Still t_ := by
  unfold execModTicks
  refine State.next_still ?_
  repeat' first
    | with_reducible refine State.ite_still ?_ ?_
    | with_reducible refine State.ite2_still ?_ ?_
    | with_reducible exact State.Still.refl _
    | with_reducible assumption
    | with_reducible apply State.Still.after (State.ringMessage_still _ _ _)
    | ((try lift_lets); intro x; refine State.cut_still (x := x) ?_ ?_; (on_goal 1 => unfold x); (on_goal 2 => (clear_value x; intro _)))
    | ((try lift_lets); intro x; refine State.cut_still (x := x.2) ?_ ?_; (on_goal 1 => unfold x); (on_goal 2 => (clear_value x; intro _)))
    | ((try lift_lets); intro x; try clear_value x)
    | intro _
    | split
    | dsimp only

theorem State.take_still (s : State) (p ring : Nat) (e : Entry) (ext : List Entry) :
    s.Still (State.take s p ring e ext) := by
  unfold State.take
  repeat' first
    | with_reducible refine State.ite_still ?_ ?_
    | with_reducible refine State.ite2_still ?_ ?_
    | with_reducible exact State.Still.refl _
    | with_reducible assumption
    | with_reducible apply State.Still.after (State.put_still _ _ _)
    | with_reducible apply State.Still.after (State.latArrive_still _)
    | with_reducible apply State.Still.after (State.dmaFault_still _ _ _ _ _ _)
    | with_reducible apply State.Still.after (State.setRing_still _ _ _ _)
    | with_reducible apply State.Still.after (State.finish_still _ _ _ _)
    | ((try lift_lets); intro x; refine State.cut_still (x := x) ?_ ?_; (on_goal 1 => unfold x); (on_goal 2 => (clear_value x; intro _)))
    | ((try lift_lets); intro x; refine State.cut_still (x := x.2) ?_ ?_; (on_goal 1 => unfold x); (on_goal 2 => (clear_value x; intro _)))
    | ((try lift_lets); intro x; try clear_value x)
    | intro _
    | split
    | with_reducible fail_if_no_progress apply State.Still.after (State.mk_still _)
    | dsimp only

theorem State.takeTurn_still (a0 : Nat) (s : State) (a2 : Nat) (a3 : Nat) (a4 : List Entry) :
    s.Still (State.takeTurn a0 s a2 a3 a4) := by
  induction a0 generalizing s a2 a3 a4 with
  | zero => exact State.Still.refl s
  | succ n ih =>
    unfold State.takeTurn
    repeat' first
      | with_reducible refine State.ite_still ?_ ?_
      | with_reducible refine State.ite2_still ?_ ?_
      | cases (by assumption : n + 1 = Nat.succ _)
      | with_reducible apply State.Still.after (ih _ _ _ _)
      | with_reducible exact State.Still.refl _
      | with_reducible assumption
      | with_reducible apply State.Still.after (State.setRing_still _ _ _ _)
      | with_reducible apply State.Still.after (State.take_still _ _ _ _ _)
      | ((try lift_lets); intro x; refine State.cut_still (x := x) ?_ ?_; (on_goal 1 => unfold x); (on_goal 2 => (clear_value x; intro _)))
      | ((try lift_lets); intro x; refine State.cut_still (x := x.2) ?_ ?_; (on_goal 1 => unfold x); (on_goal 2 => (clear_value x; intro _)))
      | ((try lift_lets); intro x; try clear_value x)
      | intro _
      | split
      | with_reducible fail_if_no_progress apply State.Still.after (State.mk_still _)
      | dsimp only

theorem execFetchTurn_still (port : PortNo) (ring : RingNo) (entries : List Entry) (s : State) :
    ∀ t_, execFetchTurn port ring entries s = .next t_ → s.Still t_ := by
  intro t h
  unfold execFetchTurn at h
  dsimp only at h
  split at h
  · contradiction
  · split at h
    · injection h with h
      subst h
      exact State.Still.trans (State.setPort_still _ _ _) (State.takeTurn_still _ _ _ _ _)
    · injection h with h
      subst h
      exact State.Still.refl _

theorem execFetchReadFailed_still (port : PortNo) (ring : RingNo) (addr : Nat) (s : State) :
    ∀ t_, execFetchReadFailed port ring addr s = .next t_ → s.Still t_ := by
  unfold execFetchReadFailed
  refine State.next_still ?_
  repeat' first
    | with_reducible refine State.ite_still ?_ ?_
    | with_reducible refine State.ite2_still ?_ ?_
    | with_reducible exact State.Still.refl _
    | with_reducible assumption
    | with_reducible apply State.Still.after (State.emit_still _ _)
    | with_reducible apply State.Still.after (State.dmaFault_still _ _ _ _ _ _)
    | with_reducible apply State.Still.after (State.setRing_still _ _ _ _)
    | with_reducible apply State.Still.after (State.ringError_still _ _)
    | ((try lift_lets); intro x; refine State.cut_still (x := x) ?_ ?_; (on_goal 1 => unfold x); (on_goal 2 => (clear_value x; intro _)))
    | ((try lift_lets); intro x; refine State.cut_still (x := x.2) ?_ ?_; (on_goal 1 => unfold x); (on_goal 2 => (clear_value x; intro _)))
    | ((try lift_lets); intro x; try clear_value x)
    | intro _
    | split
    | with_reducible fail_if_no_progress apply State.Still.after (State.mk_still _)
    | dsimp only

theorem execNop_still (id : Nat) (s : State) :
    ∀ t_, execNop id s = .next t_ → s.Still t_ := by
  unfold execNop
  refine State.next_still ?_
  repeat' first
    | with_reducible refine State.ite_still ?_ ?_
    | with_reducible refine State.ite2_still ?_ ?_
    | with_reducible exact State.Still.refl _
    | with_reducible assumption
    | with_reducible apply State.Still.after (State.finish_still _ _ _ _)
    | intro _
    | split
    | dsimp only

theorem execFence_still (id : Nat) (s : State) :
    ∀ t_, execFence id s = .next t_ → s.Still t_ := by
  unfold execFence
  refine State.next_still ?_
  repeat' first
    | with_reducible refine State.ite_still ?_ ?_
    | with_reducible refine State.ite2_still ?_ ?_
    | with_reducible exact State.Still.refl _
    | with_reducible assumption
    | with_reducible apply State.Still.after (State.setCmd_still _ _)
    | with_reducible apply State.Still.after (State.finish_still _ _ _ _)
    | ((try lift_lets); intro x; refine State.cut_still (x := x) ?_ ?_; (on_goal 1 => unfold x); (on_goal 2 => (clear_value x; intro _)))
    | ((try lift_lets); intro x; refine State.cut_still (x := x.2) ?_ ?_; (on_goal 1 => unfold x); (on_goal 2 => (clear_value x; intro _)))
    | ((try lift_lets); intro x; try clear_value x)
    | intro _
    | split
    | with_reducible fail_if_no_progress apply State.Still.after (State.mk_still _)
    | dsimp only

theorem State.flushWaiting_still (s : State) (p : Nat) (l : List (Nat × Cpl)) :
    s.Still (State.flushWaiting s p l) := by
  unfold State.flushWaiting
  repeat' first
    | with_reducible refine State.ite_still ?_ ?_
    | with_reducible refine State.ite2_still ?_ ?_
    | with_reducible exact State.Still.refl _
    | with_reducible assumption
    | with_reducible apply State.Still.after (State.deliverCpl_still _ _ _ _)
    | with_reducible apply State.Still.after (State.pair_still (State.deliverCpl_still _ _ _ _) (by assumption))
    | with_reducible apply State.Still.after (State.settle_still _ _ _)
    | with_reducible apply State.Still.after (State.foldl_still ?_ _ _)
    | with_reducible apply State.Still.after (State.foldl2_still ?_ _ _)
    | ((try lift_lets); intro x; refine State.cut_still (x := x) ?_ ?_; (on_goal 1 => unfold x); (on_goal 2 => (clear_value x; intro _)))
    | ((try lift_lets); intro x; refine State.cut_still (x := x.2) ?_ ?_; (on_goal 1 => unfold x); (on_goal 2 => (clear_value x; intro _)))
    | ((try lift_lets); intro x; try clear_value x)
    | intro _
    | split
    | dsimp only

theorem State.sendPending_still (s : State) (p : Nat) :
    s.Still (State.sendPending s p) := by
  unfold State.sendPending
  repeat' first
    | with_reducible refine State.ite_still ?_ ?_
    | with_reducible refine State.ite2_still ?_ ?_
    | with_reducible exact State.Still.refl _
    | with_reducible assumption
    | with_reducible apply State.Still.after (State.emit_still _ _)
    | with_reducible apply State.Still.after (State.setPort_still _ _ _)
    | with_reducible apply State.Still.after (State.msix_still _ _ _)
    | with_reducible apply State.Still.after (State.foldl_still ?_ _ _)
    | with_reducible apply State.Still.after (State.foldl2_still ?_ _ _)
    | intro _
    | split
    | with_reducible fail_if_no_progress apply State.Still.after (State.mk_still _)
    | dsimp only

theorem execBusMasterEnable_still (port : PortNo) (on : Bool) (s : State) :
    ∀ t_, execBusMasterEnable port on s = .next t_ → s.Still t_ := by
  unfold execBusMasterEnable
  refine State.next_still ?_
  repeat' first
    | with_reducible refine State.ite_still ?_ ?_
    | with_reducible refine State.ite2_still ?_ ?_
    | with_reducible exact State.Still.refl _
    | with_reducible assumption
    | with_reducible apply State.Still.after (State.setPort_still _ _ _)
    | with_reducible apply State.Still.after (State.drain_still _ _ _ _)
    | with_reducible apply State.Still.after (State.flushWaiting_still _ _ _)
    | with_reducible apply State.Still.after (State.sendPending_still _ _)
    | with_reducible apply State.Still.after (State.foldl_still ?_ _ _)
    | with_reducible apply State.Still.after (State.foldl2_still ?_ _ _)
    | ((try lift_lets); intro x; refine State.cut_still (x := x) ?_ ?_; (on_goal 1 => unfold x); (on_goal 2 => (clear_value x; intro _)))
    | ((try lift_lets); intro x; refine State.cut_still (x := x.2) ?_ ?_; (on_goal 1 => unfold x); (on_goal 2 => (clear_value x; intro _)))
    | ((try lift_lets); intro x; try clear_value x)
    | intro _
    | split
    | with_reducible fail_if_no_progress apply State.Still.after (State.mk_still _)
    | dsimp only

theorem execPcieReplay_still (port : PortNo) (s : State) :
    ∀ t_, execPcieReplay port s = .next t_ → s.Still t_ := by
  unfold execPcieReplay
  refine State.next_still ?_
  repeat' first
    | with_reducible exact State.Still.refl _
    | with_reducible assumption
    | with_reducible apply State.Still.after (State.bump_still _ _ _)
    | with_reducible apply State.Still.after (State.noteBreak_still _ _ _)
    | intro _
    | split
    | dsimp only

theorem State.settleRetry_still (s : State) :
    s.Still (State.settleRetry s) := by
  unfold State.settleRetry
  repeat' first
    | with_reducible refine State.ite_still ?_ ?_
    | with_reducible refine State.ite2_still ?_ ?_
    | with_reducible exact State.Still.refl _
    | with_reducible assumption
    | with_reducible apply State.Still.after (State.setPort_still _ _ _)
    | with_reducible apply State.Still.after (State.foldl_still ?_ _ _)
    | with_reducible apply State.Still.after (State.foldl2_still ?_ _ _)
    | ((try lift_lets); intro x; refine State.cut_still (x := x) ?_ ?_; (on_goal 1 => unfold x); (on_goal 2 => (clear_value x; intro _)))
    | ((try lift_lets); intro x; refine State.cut_still (x := x.2) ?_ ?_; (on_goal 1 => unfold x); (on_goal 2 => (clear_value x; intro _)))
    | ((try lift_lets); intro x; try clear_value x)
    | intro _
    | split
    | with_reducible fail_if_no_progress apply State.Still.after (State.mk_still _)
    | dsimp only

theorem execHostLinkUp_still (port : PortNo) (rate width : Nat) (s : State) :
    ∀ t_, execHostLinkUp port rate width s = .next t_ → s.Still t_ := by
  unfold execHostLinkUp
  refine State.next_still ?_
  repeat' first
    | with_reducible refine State.ite_still ?_ ?_
    | with_reducible refine State.ite2_still ?_ ?_
    | with_reducible exact State.Still.refl _
    | with_reducible assumption
    | with_reducible apply State.Still.after (State.put_still _ _ _)
    | with_reducible apply State.Still.after (State.noteBreak_still _ _ _)
    | with_reducible apply State.Still.after (State.occur_still _ _ _ _)
    | with_reducible apply State.Still.after (State.setPort_still _ _ _)
    | with_reducible apply State.Still.after (State.settleRetry_still _)
    | ((try lift_lets); intro x; refine State.cut_still (x := x) ?_ ?_; (on_goal 1 => unfold x); (on_goal 2 => (clear_value x; intro _)))
    | ((try lift_lets); intro x; refine State.cut_still (x := x.2) ?_ ?_; (on_goal 1 => unfold x); (on_goal 2 => (clear_value x; intro _)))
    | ((try lift_lets); intro x; try clear_value x)
    | intro _
    | split
    | with_reducible fail_if_no_progress apply State.Still.after (State.mk_still _)
    | dsimp only

end Sys2Proof.Machine
end

