-- ==== Sys2Proof/Laws/KeepFlow.lean ====
section
/-!
SUPPORT. What the operations and meanings of Machine/Flow.lean keep of a state.
-/
set_option linter.unusedVariables false
set_option linter.unreachableTactic false
set_option linter.unusedTactic false
namespace Sys2Proof.Machine

theorem State.setFlow_still (s : State) (p f : Nat) (x : Flow) :
    s.Still (State.setFlow s p f x) := by
  unfold State.setFlow
  repeat' first
    | with_reducible exact State.Still.refl _
    | with_reducible assumption
    | with_reducible apply State.Still.after (State.setPart_still _ _ _)
    | intro _
    | split
    | with_reducible fail_if_no_progress apply State.Still.after (State.mk_still _)
    | dsimp only

theorem State.entryFor_still (s : State) (p f : Nat) (x : Flow) (pl : Place) :
    s.Still (State.entryFor s p f x pl).2 := by
  unfold State.entryFor
  repeat' first
    | with_reducible exact State.Still.refl _
    | with_reducible assumption
    | with_reducible apply State.Still.after (State.free_still _)
    | with_reducible apply State.Still.after (State.pair_still (State.free_still _) (by assumption))
    | ((try lift_lets); intro x; refine State.cut_still (x := x) ?_ ?_; (on_goal 1 => unfold x); (on_goal 2 => (clear_value x; intro _)))
    | ((try lift_lets); intro x; refine State.cut_still (x := x.2) ?_ ?_; (on_goal 1 => unfold x); (on_goal 2 => (clear_value x; intro _)))
    | ((try lift_lets); intro x; try clear_value x)
    | intro _
    | split
    | dsimp only

theorem State.readEntry_still (s : State) (p : Nat) (it : Item) :
    s.Still (State.readEntry s p it).2 := by
  unfold State.readEntry
  repeat' first
    | with_reducible exact State.Still.refl _
    | with_reducible assumption
    | with_reducible apply State.Still.after (State.vaultRead_still _ _ _ _)
    | with_reducible apply State.Still.after (State.pair_still (State.vaultRead_still _ _ _ _) (by assumption))
    | with_reducible apply State.Still.after (State.sramRead_still _ _ _ _ _)
    | with_reducible apply State.Still.after (State.pair_still (State.sramRead_still _ _ _ _ _) (by assumption))
    | ((try lift_lets); intro x; refine State.cut_still (x := x) ?_ ?_; (on_goal 1 => unfold x); (on_goal 2 => (clear_value x; intro _)))
    | ((try lift_lets); intro x; refine State.cut_still (x := x.2) ?_ ?_; (on_goal 1 => unfold x); (on_goal 2 => (clear_value x; intro _)))
    | ((try lift_lets); intro x; try clear_value x)
    | intro _
    | split
    | dsimp only

theorem State.flowGauges_still (s : State) (p : Nat) :
    s.Still (State.flowGauges s p) := by
  unfold State.flowGauges
  repeat' first
    | with_reducible exact State.Still.refl _
    | with_reducible assumption
    | with_reducible apply State.Still.after (State.put_still _ _ _)
    | intro _
    | split
    | dsimp only

theorem State.closeIfDrained_still (s : State) (p f : Nat) :
    s.Still (State.closeIfDrained s p f) := by
  unfold State.closeIfDrained
  repeat' first
    | with_reducible refine State.ite_still ?_ ?_
    | with_reducible refine State.ite2_still ?_ ?_
    | with_reducible exact State.Still.refl _
    | with_reducible assumption
    | with_reducible apply State.Still.after (State.setPart_still _ _ _)
    | with_reducible apply State.Still.after (State.flowGauges_still _ _)
    | intro _
    | split
    | with_reducible fail_if_no_progress apply State.Still.after (State.mk_still _)
    | dsimp only

theorem State.failFlow_still (s : State) (p f : Nat) :
    s.Still (State.failFlow s p f) := by
  unfold State.failFlow
  repeat' first
    | with_reducible exact State.Still.refl _
    | with_reducible assumption
    | with_reducible apply State.Still.after (State.setFlow_still _ _ _ _)
    | with_reducible apply State.Still.after (State.closeIfDrained_still _ _ _)
    | ((try lift_lets); intro x; refine State.cut_still (x := x) ?_ ?_; (on_goal 1 => unfold x); (on_goal 2 => (clear_value x; intro _)))
    | ((try lift_lets); intro x; refine State.cut_still (x := x.2) ?_ ?_; (on_goal 1 => unfold x); (on_goal 2 => (clear_value x; intro _)))
    | ((try lift_lets); intro x; try clear_value x)
    | intro _
    | split
    | with_reducible fail_if_no_progress apply State.Still.after (State.mk_still _)
    | dsimp only

theorem State.readContext_still (s : State) (p f i : Nat) :
    s.Still (State.readContext s p f i) := by
  unfold State.readContext
  repeat' first
    | with_reducible refine State.ite_still ?_ ?_
    | with_reducible refine State.ite2_still ?_ ?_
    | with_reducible exact State.Still.refl _
    | with_reducible assumption
    | with_reducible apply State.Still.after (State.sramRead_still _ _ _ _ _)
    | with_reducible apply State.Still.after (State.pair_still (State.sramRead_still _ _ _ _ _) (by assumption))
    | with_reducible apply State.Still.after (State.failFlow_still _ _ _)
    | ((try lift_lets); intro x; refine State.cut_still (x := x) ?_ ?_; (on_goal 1 => unfold x); (on_goal 2 => (clear_value x; intro _)))
    | ((try lift_lets); intro x; refine State.cut_still (x := x.2) ?_ ?_; (on_goal 1 => unfold x); (on_goal 2 => (clear_value x; intro _)))
    | ((try lift_lets); intro x; try clear_value x)
    | intro _
    | split
    | dsimp only

theorem State.freshen_still (s : State) (da n : Nat) :
    s.Still (State.freshen s da n) := by
  unfold State.freshen
  repeat' first
    | with_reducible exact State.Still.refl _
    | with_reducible assumption
    | intro _
    | split
    | with_reducible fail_if_no_progress apply State.Still.after (State.mk_still _)
    | dsimp only

theorem State.spill_still (s : State) (p v : Nat) (y : Flow) :
    s.Still (State.spill s p v y) := by
  unfold State.spill
  repeat' first
    | with_reducible exact State.Still.refl _
    | with_reducible assumption
    | with_reducible apply State.Still.after (State.bump_still _ _ _)
    | with_reducible apply State.Still.after (State.setFlow_still _ _ _ _)
    | with_reducible apply State.Still.after (State.freshen_still _ _ _)
    | intro _
    | split
    | with_reducible fail_if_no_progress apply State.Still.after (State.mk_still _)
    | dsimp only

theorem State.refill_still (s : State) (p f i : Nat) (x : Flow) :
    s.Still (State.refill s p f i x) := by
  unfold State.refill
  repeat' first
    | with_reducible refine State.ite_still ?_ ?_
    | with_reducible refine State.ite2_still ?_ ?_
    | with_reducible exact State.Still.refl _
    | with_reducible assumption
    | with_reducible apply State.Still.after (State.bump_still _ _ _)
    | with_reducible apply State.Still.after (State.vaultRead_still _ _ _ _)
    | with_reducible apply State.Still.after (State.pair_still (State.vaultRead_still _ _ _ _) (by assumption))
    | with_reducible apply State.Still.after (State.sramWrite_still _ _ _ _)
    | with_reducible apply State.Still.after (State.setFlow_still _ _ _ _)
    | with_reducible apply State.Still.after (State.flowGauges_still _ _)
    | with_reducible apply State.Still.after (State.failFlow_still _ _ _)
    | ((try lift_lets); intro x; refine State.cut_still (x := x) ?_ ?_; (on_goal 1 => unfold x); (on_goal 2 => (clear_value x; intro _)))
    | ((try lift_lets); intro x; refine State.cut_still (x := x.2) ?_ ?_; (on_goal 1 => unfold x); (on_goal 2 => (clear_value x; intro _)))
    | ((try lift_lets); intro x; try clear_value x)
    | intro _
    | split
    | with_reducible fail_if_no_progress apply State.Still.after (State.mk_still _)
    | dsimp only

theorem State.touch_still (s : State) (p f : Nat) :
    ∀ t_, State.touch s p f = some t_ → s.Still t_ := by
  intro t_ h
  unfold State.touch at h
  dsimp only at h
  split at h
  · injection h with h; subst h; exact State.Still.refl _
  · split at h
    · injection h with h; subst h
      exact State.Still.after (State.readContext_still _ _ _ _) (State.setFlow_still _ _ _ _)
    · split at h
      · injection h with h; subst h
        exact State.Still.after (State.refill_still _ _ _ _ _) (State.free_still _)
      · obtain ⟨v, -, h⟩ := Option.bind_eq_some_iff.1 h
        obtain ⟨y, -, h⟩ := Option.map_eq_some_iff.1 h
        subst h
        exact State.Still.after (State.refill_still _ _ _ _ _) (State.spill_still _ _ _ _)

theorem State.block_still (s : State) (p f q : Nat) :
    s.Still (State.block s p f q) := by
  unfold State.block
  repeat' first
    | with_reducible refine State.ite_still ?_ ?_
    | with_reducible refine State.ite2_still ?_ ?_
    | with_reducible exact State.Still.refl _
    | with_reducible assumption
    | with_reducible apply State.Still.after (State.setPart_still _ _ _)
    | intro _
    | split
    | with_reducible fail_if_no_progress apply State.Still.after (State.mk_still _)
    | dsimp only

theorem State.unblock_still (s : State) (p f q : Nat) :
    s.Still (State.unblock s p f q) := by
  unfold State.unblock
  repeat' first
    | with_reducible refine State.ite_still ?_ ?_
    | with_reducible refine State.ite2_still ?_ ?_
    | with_reducible exact State.Still.refl _
    | with_reducible assumption
    | with_reducible apply State.Still.after (State.setPart_still _ _ _)
    | intro _
    | split
    | with_reducible fail_if_no_progress apply State.Still.after (State.mk_still _)
    | dsimp only

theorem State.enqueueNow_still (s : State) (p f : Nat) (it : Item) :
    s.Still (State.enqueueNow s p f it).2 := by
  unfold State.enqueueNow
  repeat' first
    | with_reducible refine State.ite_still ?_ ?_
    | with_reducible refine State.ite2_still ?_ ?_
    | with_reducible exact State.Still.refl _
    | with_reducible assumption
    | with_reducible apply State.Still.after (State.bump_still _ _ _)
    | with_reducible apply State.Still.after (State.setFlow_still _ _ _ _)
    | with_reducible apply State.Still.after (State.entryFor_still _ _ _ _ _)
    | with_reducible apply State.Still.after (State.pair_still (State.entryFor_still _ _ _ _ _) (by assumption))
    | with_reducible apply State.Still.after (State.flowGauges_still _ _)
    | with_reducible apply State.Still.after (State.touch_still _ _ _ _ (by assumption))
    | ((try lift_lets); intro x; refine State.cut_still (x := x) ?_ ?_; (on_goal 1 => unfold x); (on_goal 2 => (clear_value x; intro _)))
    | ((try lift_lets); intro x; refine State.cut_still (x := x.2) ?_ ?_; (on_goal 1 => unfold x); (on_goal 2 => (clear_value x; intro _)))
    | ((try lift_lets); intro x; try clear_value x)
    | intro _
    | split
    | with_reducible fail_if_no_progress apply State.Still.after (State.mk_still _)
    | dsimp only

theorem State.stall_still (s : State) (p f : Nat) (it : Item) :
    s.Still (State.stall s p f it) := by
  unfold State.stall
  repeat' first
    | with_reducible exact State.Still.refl _
    | with_reducible assumption
    | with_reducible apply State.Still.after (State.setPart_still _ _ _)
    | intro _
    | split
    | with_reducible fail_if_no_progress apply State.Still.after (State.mk_still _)
    | dsimp only

theorem State.numbered_still (s : State) :
    s.Still (State.numbered s) := by
  unfold State.numbered
  repeat' first
    | with_reducible exact State.Still.refl _
    | with_reducible assumption
    | intro _
    | split
    | with_reducible fail_if_no_progress apply State.Still.after (State.mk_still _)
    | dsimp only

theorem State.enqueue_still (s : State) (p f : Nat) (it : Item) :
    s.Still (State.enqueue s p f it).2 := by
  unfold State.enqueue
  repeat' first
    | with_reducible refine State.ite_still ?_ ?_
    | with_reducible refine State.ite2_still ?_ ?_
    | with_reducible exact State.Still.refl _
    | with_reducible assumption
    | with_reducible apply State.Still.after (State.enqueueNow_still _ _ _ _)
    | with_reducible apply State.Still.after (State.pair_still (State.enqueueNow_still _ _ _ _) (by assumption))
    | with_reducible apply State.Still.after (State.stall_still _ _ _ _)
    | with_reducible apply State.Still.after (State.numbered_still _)
    | ((try lift_lets); intro x; refine State.cut_still (x := x) ?_ ?_; (on_goal 1 => unfold x); (on_goal 2 => (clear_value x; intro _)))
    | ((try lift_lets); intro x; refine State.cut_still (x := x.2) ?_ ?_; (on_goal 1 => unfold x); (on_goal 2 => (clear_value x; intro _)))
    | ((try lift_lets); intro x; try clear_value x)
    | intro _
    | split
    | with_reducible fail_if_no_progress apply State.Still.after (State.mk_still _)
    | dsimp only

theorem State.enqueueBolt_still (s : State) (p f : Nat) (it : Item) :
    s.Still (State.enqueueBolt s p f it).2 := by
  unfold State.enqueueBolt
  repeat' first
    | with_reducible refine State.ite_still ?_ ?_
    | with_reducible refine State.ite2_still ?_ ?_
    | with_reducible exact State.Still.refl _
    | with_reducible assumption
    | with_reducible apply State.Still.after (State.enqueueNow_still _ _ _ _)
    | with_reducible apply State.Still.after (State.pair_still (State.enqueueNow_still _ _ _ _) (by assumption))
    | with_reducible apply State.Still.after (State.stall_still _ _ _ _)
    | with_reducible apply State.Still.after (State.numbered_still _)
    | ((try lift_lets); intro x; refine State.cut_still (x := x) ?_ ?_; (on_goal 1 => unfold x); (on_goal 2 => (clear_value x; intro _)))
    | ((try lift_lets); intro x; refine State.cut_still (x := x.2) ?_ ?_; (on_goal 1 => unfold x); (on_goal 2 => (clear_value x; intro _)))
    | ((try lift_lets); intro x; try clear_value x)
    | intro _
    | split
    | with_reducible fail_if_no_progress apply State.Still.after (State.mk_still _)
    | dsimp only

theorem State.moveEntry_still (s : State) (p f seq : Nat) :
    s.Still (State.moveEntry s p f seq) := by
  unfold State.moveEntry
  repeat' first
    | with_reducible refine State.ite_still ?_ ?_
    | with_reducible refine State.ite2_still ?_ ?_
    | with_reducible exact State.Still.refl _
    | with_reducible assumption
    | with_reducible apply State.Still.after (State.setFlow_still _ _ _ _)
    | with_reducible apply State.Still.after (State.entryFor_still _ _ _ _ _)
    | with_reducible apply State.Still.after (State.pair_still (State.entryFor_still _ _ _ _ _) (by assumption))
    | with_reducible apply State.Still.after (State.readEntry_still _ _ _)
    | with_reducible apply State.Still.after (State.pair_still (State.readEntry_still _ _ _) (by assumption))
    | ((try lift_lets); intro x; refine State.cut_still (x := x) ?_ ?_; (on_goal 1 => unfold x); (on_goal 2 => (clear_value x; intro _)))
    | ((try lift_lets); intro x; refine State.cut_still (x := x.2) ?_ ?_; (on_goal 1 => unfold x); (on_goal 2 => (clear_value x; intro _)))
    | ((try lift_lets); intro x; try clear_value x)
    | intro _
    | split
    | with_reducible fail_if_no_progress apply State.Still.after (State.mk_still _)
    | dsimp only

theorem execItemRefill_still (flow : FlowNo) (s : State) :
    ∀ t_, execItemRefill flow s = .next t_ → s.Still t_ := by
  unfold execItemRefill
  refine State.next_still ?_
  repeat' first
    | with_reducible refine State.ite_still ?_ ?_
    | with_reducible refine State.ite2_still ?_ ?_
    | with_reducible exact State.Still.refl _
    | with_reducible assumption
    | with_reducible apply State.Still.after (State.take_still _ _ _ _ _)
    | with_reducible apply State.Still.after (State.flowGauges_still _ _)
    | with_reducible apply State.Still.after (State.moveEntry_still _ _ _ _)
    | with_reducible apply State.Still.after (State.foldl_still ?_ _ _)
    | with_reducible apply State.Still.after (State.foldl2_still ?_ _ _)
    | ((try lift_lets); intro x; refine State.cut_still (x := x) ?_ ?_; (on_goal 1 => unfold x); (on_goal 2 => (clear_value x; intro _)))
    | ((try lift_lets); intro x; refine State.cut_still (x := x.2) ?_ ?_; (on_goal 1 => unfold x); (on_goal 2 => (clear_value x; intro _)))
    | ((try lift_lets); intro x; try clear_value x)
    | intro _
    | split
    | dsimp only

theorem State.setSlots_still (s : State) (c : Nat) (x : Slot × Slot) :
    s.Still (State.setSlots s c x) := by
  unfold State.setSlots
  repeat' first
    | with_reducible exact State.Still.refl _
    | with_reducible assumption
    | intro _
    | split
    | with_reducible fail_if_no_progress apply State.Still.after (State.mk_still _)
    | dsimp only

theorem State.setEngine_still (s : State) (k : UnitKind) (u : Nat) (l : List (Nat × Nat)) :
    s.Still (State.setEngine s k u l) := by
  unfold State.setEngine
  repeat' first
    | with_reducible exact State.Still.refl _
    | with_reducible assumption
    | intro _
    | split
    | with_reducible fail_if_no_progress apply State.Still.after (State.mk_still _)
    | dsimp only

theorem State.noteTurn_still (s : State) (p : Nat) (k : UnitKind) (u f prio : Nat) :
    s.Still (State.noteTurn s p k u f prio) := by
  unfold State.noteTurn
  repeat' first
    | with_reducible refine State.ite_still ?_ ?_
    | with_reducible refine State.ite2_still ?_ ?_
    | with_reducible exact State.Still.refl _
    | with_reducible assumption
    | with_reducible apply State.Still.after (State.setPart_still _ _ _)
    | ((try lift_lets); intro x; refine State.cut_still (x := x) ?_ ?_; (on_goal 1 => unfold x); (on_goal 2 => (clear_value x; intro _)))
    | ((try lift_lets); intro x; refine State.cut_still (x := x.2) ?_ ?_; (on_goal 1 => unfold x); (on_goal 2 => (clear_value x; intro _)))
    | ((try lift_lets); intro x; try clear_value x)
    | intro _
    | split
    | with_reducible fail_if_no_progress apply State.Still.after (State.mk_still _)
    | dsimp only

theorem State.crossLink_still (s : State) (k : UnitKind) (u f q : Nat) :
    s.Still (State.crossLink s k u f q) := by
  unfold State.crossLink
  repeat' first
    | with_reducible exact State.Still.refl _
    | with_reducible assumption
    | with_reducible apply State.Still.after (State.setStand_still _ _ _)
    | ((try lift_lets); intro x; refine State.cut_still (x := x) ?_ ?_; (on_goal 1 => unfold x); (on_goal 2 => (clear_value x; intro _)))
    | ((try lift_lets); intro x; refine State.cut_still (x := x.2) ?_ ?_; (on_goal 1 => unfold x); (on_goal 2 => (clear_value x; intro _)))
    | ((try lift_lets); intro x; try clear_value x)
    | intro _
    | split
    | with_reducible fail_if_no_progress apply State.Still.after (State.mk_still _)
    | dsimp only

theorem State.leaveUnit_still (s : State) (k : UnitKind) (u f q : Nat) :
    s.Still (State.leaveUnit s k u f q) := by
  unfold State.leaveUnit
  repeat' first
    | with_reducible refine State.ite_still ?_ ?_
    | with_reducible refine State.ite2_still ?_ ?_
    | with_reducible exact State.Still.refl _
    | with_reducible assumption
    | with_reducible apply State.Still.after (State.setStand_still _ _ _)
    | ((try lift_lets); intro x; refine State.cut_still (x := x) ?_ ?_; (on_goal 1 => unfold x); (on_goal 2 => (clear_value x; intro _)))
    | ((try lift_lets); intro x; refine State.cut_still (x := x.2) ?_ ?_; (on_goal 1 => unfold x); (on_goal 2 => (clear_value x; intro _)))
    | ((try lift_lets); intro x; try clear_value x)
    | intro _
    | split
    | with_reducible fail_if_no_progress apply State.Still.after (State.mk_still _)
    | dsimp only

theorem State.returnLoaded_still (s : State) (c : Nat) :
    s.Still (State.returnLoaded s c) := by
  unfold State.returnLoaded
  dsimp only
  repeat' first
    | with_reducible refine State.ite_still ?_ ?_
    | with_reducible refine State.ite2_still ?_ ?_
    | with_reducible exact State.Still.refl _
    | with_reducible assumption
    | with_reducible apply State.Still.after (State.bump_still _ _ _)
    | with_reducible apply State.Still.after (State.setFlow_still _ _ _ _)
    | with_reducible apply State.Still.after (State.setSlots_still _ _ _)
    | with_reducible apply State.Still.after (State.leaveUnit_still _ _ _ _ _)
    | ((try lift_lets); intro x; refine State.cut_still (x := x) ?_ ?_; (on_goal 1 => unfold x); (on_goal 2 => (clear_value x; intro _)))
    | ((try lift_lets); intro x; refine State.cut_still (x := x.2) ?_ ?_; (on_goal 1 => unfold x); (on_goal 2 => (clear_value x; intro _)))
    | ((try lift_lets); intro x; try clear_value x)
    | intro _
    | split
    | with_reducible fail_if_no_progress apply State.Still.after (State.mk_still _)
    | dsimp only

theorem State.prefetch_still (s : State) (core slot : Nat) (p f q : Nat) :
    s.Still (State.prefetch s core slot p f q) := by
  unfold State.prefetch
  repeat' first
    | with_reducible refine State.ite_still ?_ ?_
    | with_reducible refine State.ite2_still ?_ ?_
    | with_reducible exact State.Still.refl _
    | with_reducible assumption
    | with_reducible apply State.Still.after (State.vaultRead_still _ _ _ _)
    | with_reducible apply State.Still.after (State.pair_still (State.vaultRead_still _ _ _ _) (by assumption))
    | with_reducible apply State.Still.after (State.sramWrite_still _ _ _ _)
    | ((try lift_lets); intro x; refine State.cut_still (x := x) ?_ ?_; (on_goal 1 => unfold x); (on_goal 2 => (clear_value x; intro _)))
    | ((try lift_lets); intro x; refine State.cut_still (x := x.2) ?_ ?_; (on_goal 1 => unfold x); (on_goal 2 => (clear_value x; intro _)))
    | ((try lift_lets); intro x; try clear_value x)
    | intro _
    | split
    | with_reducible fail_if_no_progress apply State.Still.after (State.mk_still _)
    | dsimp only

theorem State.loadSlot_still (s : State) (p core f q : Nat) :
    s.Still (State.loadSlot s p core f q) := by
  unfold State.loadSlot
  repeat' first
    | with_reducible exact State.Still.refl _
    | with_reducible assumption
    | with_reducible apply State.Still.after (State.setSlots_still _ _ _)
    | with_reducible apply State.Still.after (State.prefetch_still _ _ _ _ _ _)
    | intro _
    | split
    | dsimp only

theorem State.place_still (s : State) (p : Nat) (k : UnitKind) (u f q : Nat) :
    s.Still (State.place s p k u f q) := by
  unfold State.place
  repeat' first
    | with_reducible refine State.ite_still ?_ ?_
    | with_reducible refine State.ite2_still ?_ ?_
    | with_reducible exact State.Still.refl _
    | with_reducible assumption
    | with_reducible apply State.Still.after (State.setSlots_still _ _ _)
    | with_reducible apply State.Still.after (State.setEngine_still _ _ _ _)
    | with_reducible apply State.Still.after (State.loadSlot_still _ _ _ _ _)
    | intro _
    | split
    | dsimp only

theorem State.startWork_still (s : State) (w : Work) :
    s.Still (State.startWork s w) := by
  unfold State.startWork
  repeat' first
    | with_reducible refine State.ite_still ?_ ?_
    | with_reducible refine State.ite2_still ?_ ?_
    | with_reducible exact State.Still.refl _
    | with_reducible assumption
    | with_reducible apply State.Still.after (State.setCmd_still _ _)
    | intro _
    | split
    | with_reducible fail_if_no_progress apply State.Still.after (State.mk_still _)
    | dsimp only

theorem State.issue_still (s : State) (p f : Nat) (x : Flow) (k : UnitKind) (u : Nat) (it : Item) :
    s.Still (State.issue s p f x k u it) := by
  unfold State.issue
  repeat' first
    | with_reducible refine State.ite_still ?_ ?_
    | with_reducible refine State.ite2_still ?_ ?_
    | with_reducible exact State.Still.refl _
    | with_reducible assumption
    | with_reducible apply State.Still.after (State.setFlow_still _ _ _ _)
    | with_reducible apply State.Still.after (State.unblock_still _ _ _ _)
    | with_reducible apply State.Still.after (State.crossLink_still _ _ _ _ _)
    | ((try lift_lets); intro x; refine State.cut_still (x := x) ?_ ?_; (on_goal 1 => unfold x); (on_goal 2 => (clear_value x; intro _)))
    | ((try lift_lets); intro x; refine State.cut_still (x := x.2) ?_ ?_; (on_goal 1 => unfold x); (on_goal 2 => (clear_value x; intro _)))
    | ((try lift_lets); intro x; try clear_value x)
    | intro _
    | split
    | with_reducible fail_if_no_progress apply State.Still.after (State.mk_still _)
    | dsimp only

theorem State.dispatch_still (s : State) (p f : Nat) (x : Flow) (k : UnitKind) (u : Nat) (it : Item) :
    s.Still (State.dispatch s p f x k u it) := by
  unfold State.dispatch
  repeat' first
    | with_reducible exact State.Still.refl _
    | with_reducible assumption
    | with_reducible apply State.Still.after (State.place_still _ _ _ _ _ _)
    | with_reducible apply State.Still.after (State.startWork_still _ _)
    | with_reducible apply State.Still.after (State.issue_still _ _ _ _ _ _ _)
    | intro _
    | split
    | dsimp only

theorem State.resume_still (s : State) (p f : Nat) (x : Flow) (k : UnitKind) (u : Nat) (it : Item) :
    s.Still (State.resume s p f x k u it) := by
  unfold State.resume
  repeat' first
    | with_reducible refine State.ite_still ?_ ?_
    | with_reducible refine State.ite2_still ?_ ?_
    | with_reducible exact State.Still.refl _
    | with_reducible assumption
    | with_reducible apply State.Still.after (State.vaultRead_still _ _ _ _)
    | with_reducible apply State.Still.after (State.pair_still (State.vaultRead_still _ _ _ _) (by assumption))
    | with_reducible apply State.Still.after (State.setFlow_still _ _ _ _)
    | with_reducible apply State.Still.after (State.unblock_still _ _ _ _)
    | with_reducible apply State.Still.after (State.crossLink_still _ _ _ _ _)
    | with_reducible apply State.Still.after (State.place_still _ _ _ _ _ _)
    | ((try lift_lets); intro x; refine State.cut_still (x := x) ?_ ?_; (on_goal 1 => unfold x); (on_goal 2 => (clear_value x; intro _)))
    | ((try lift_lets); intro x; refine State.cut_still (x := x.2) ?_ ?_; (on_goal 1 => unfold x); (on_goal 2 => (clear_value x; intro _)))
    | ((try lift_lets); intro x; try clear_value x)
    | intro _
    | split
    | with_reducible fail_if_no_progress apply State.Still.after (State.mk_still _)
    | dsimp only

theorem execBoltEnd_still (core : CoreNo) (s : State) :
    ∀ t_, execBoltEnd core s = .next t_ → s.Still t_ := by
  unfold execBoltEnd
  refine State.next_still ?_
  repeat' first
    | with_reducible refine State.ite_still ?_ ?_
    | with_reducible refine State.ite2_still ?_ ?_
    | with_reducible exact State.Still.refl _
    | with_reducible assumption
    | with_reducible apply State.Still.after (State.setSlots_still _ _ _)
    | ((try lift_lets); intro x; refine State.cut_still (x := x) ?_ ?_; (on_goal 1 => unfold x); (on_goal 2 => (clear_value x; intro _)))
    | ((try lift_lets); intro x; refine State.cut_still (x := x.2) ?_ ?_; (on_goal 1 => unfold x); (on_goal 2 => (clear_value x; intro _)))
    | ((try lift_lets); intro x; try clear_value x)
    | intro _
    | split
    | dsimp only

theorem State.edgeTake_still (s : State) (core : Nat) :
    s.Still (State.edgeTake s core) := by
  unfold State.edgeTake
  repeat' first
    | with_reducible refine State.ite_still ?_ ?_
    | with_reducible refine State.ite2_still ?_ ?_
    | with_reducible exact State.Still.refl _
    | with_reducible assumption
    | with_reducible apply State.Still.after (State.returnLoaded_still _ _)
    | with_reducible apply State.Still.after (State.loadSlot_still _ _ _ _ _)
    | with_reducible apply State.Still.after (State.startWork_still _ _)
    | with_reducible apply State.Still.after (State.issue_still _ _ _ _ _ _ _)
    | with_reducible apply State.Still.after (State.foldl_still ?_ _ _)
    | with_reducible apply State.Still.after (State.foldl2_still ?_ _ _)
    | ((try lift_lets); intro x; refine State.cut_still (x := x) ?_ ?_; (on_goal 1 => unfold x); (on_goal 2 => (clear_value x; intro _)))
    | ((try lift_lets); intro x; refine State.cut_still (x := x.2) ?_ ?_; (on_goal 1 => unfold x); (on_goal 2 => (clear_value x; intro _)))
    | ((try lift_lets); intro x; try clear_value x)
    | intro _
    | split
    | dsimp only

theorem State.stopBolt_still (s : State) (k : UnitKind) (f q : Nat) :
    s.Still (State.stopBolt s k f q) := by
  unfold State.stopBolt
  repeat' first
    | with_reducible refine State.ite_still ?_ ?_
    | with_reducible refine State.ite2_still ?_ ?_
    | with_reducible exact State.Still.refl _
    | with_reducible assumption
    | with_reducible apply State.Still.after (State.setFlow_still _ _ _ _)
    | ((try lift_lets); intro x; refine State.cut_still (x := x) ?_ ?_; (on_goal 1 => unfold x); (on_goal 2 => (clear_value x; intro _)))
    | ((try lift_lets); intro x; refine State.cut_still (x := x.2) ?_ ?_; (on_goal 1 => unfold x); (on_goal 2 => (clear_value x; intro _)))
    | ((try lift_lets); intro x; try clear_value x)
    | intro _
    | split
    | with_reducible fail_if_no_progress apply State.Still.after (State.mk_still _)
    | with_reducible fail_if_no_progress apply State.Still.after (State.mkFresh_still _ ?_)
    | with_reducible exact Nat.le_add_right _ _
    | dsimp only

theorem State.stopBolts_still (s : State) :
    s.Still (State.stopBolts s) := by
  unfold State.stopBolts
  repeat' first
    | with_reducible exact State.Still.refl _
    | with_reducible assumption
    | with_reducible apply State.Still.after (State.stopBolt_still _ _ _ _)
    | with_reducible apply State.Still.after (State.foldl_still ?_ _ _)
    | with_reducible apply State.Still.after (State.foldl2_still ?_ _ _)
    | ((try lift_lets); intro x; refine State.cut_still (x := x) ?_ ?_; (on_goal 1 => unfold x); (on_goal 2 => (clear_value x; intro _)))
    | ((try lift_lets); intro x; refine State.cut_still (x := x.2) ?_ ?_; (on_goal 1 => unfold x); (on_goal 2 => (clear_value x; intro _)))
    | ((try lift_lets); intro x; try clear_value x)
    | intro _
    | split
    | with_reducible fail_if_no_progress apply State.Still.after (State.mk_still _)
    | dsimp only

theorem State.unplace_still (s : State) (k : UnitKind) (u f q : Nat) :
    s.Still (State.unplace s k u f q) := by
  unfold State.unplace
  repeat' first
    | with_reducible refine State.ite_still ?_ ?_
    | with_reducible refine State.ite2_still ?_ ?_
    | with_reducible exact State.Still.refl _
    | with_reducible assumption
    | with_reducible apply State.Still.after (State.setSlots_still _ _ _)
    | with_reducible apply State.Still.after (State.setEngine_still _ _ _ _)
    | with_reducible apply State.Still.after (State.leaveUnit_still _ _ _ _ _)
    | ((try lift_lets); intro x; refine State.cut_still (x := x) ?_ ?_; (on_goal 1 => unfold x); (on_goal 2 => (clear_value x; intro _)))
    | ((try lift_lets); intro x; refine State.cut_still (x := x.2) ?_ ?_; (on_goal 1 => unfold x); (on_goal 2 => (clear_value x; intro _)))
    | ((try lift_lets); intro x; try clear_value x)
    | intro _
    | split
    | dsimp only

theorem execSlowLane_still (flow : FlowNo) (seq : Nat) (s : State) :
    ∀ t_, execSlowLane flow seq s = .next t_ → s.Still t_ := by
  unfold execSlowLane
  refine State.next_still ?_
  repeat' first
    | with_reducible refine State.ite_still ?_ ?_
    | with_reducible refine State.ite2_still ?_ ?_
    | with_reducible exact State.Still.refl _
    | with_reducible assumption
    | with_reducible apply State.Still.after (State.bump_still _ _ _)
    | with_reducible apply State.Still.after (State.setFlow_still _ _ _ _)
    | with_reducible apply State.Still.after (State.freshen_still _ _ _)
    | with_reducible apply State.Still.after (State.unplace_still _ _ _ _ _)
    | ((try lift_lets); intro x; refine State.cut_still (x := x) ?_ ?_; (on_goal 1 => unfold x); (on_goal 2 => (clear_value x; intro _)))
    | ((try lift_lets); intro x; refine State.cut_still (x := x.2) ?_ ?_; (on_goal 1 => unfold x); (on_goal 2 => (clear_value x; intro _)))
    | ((try lift_lets); intro x; try clear_value x)
    | intro _
    | split
    | with_reducible fail_if_no_progress apply State.Still.after (State.mk_still _)
    | dsimp only

theorem State.openFlow_still (s : State) (p id v owner : Nat) (hold : Bool) :
    s.Still (State.openFlow s p id v owner hold) := by
  unfold State.openFlow
  repeat' first
    | with_reducible exact State.Still.refl _
    | with_reducible assumption
    | with_reducible apply State.Still.after (State.setPart_still _ _ _)
    | with_reducible apply State.Still.after (State.flowGauges_still _ _)
    | with_reducible apply State.Still.after (State.freshen_still _ _ _)
    | with_reducible apply State.Still.after (State.touch_still _ _ _ _ (by assumption))
    | with_reducible refine State.getD_still (State.touch_still _ _ _) ?_ ?_
    | ((try lift_lets); intro x; refine State.cut_still (x := x) ?_ ?_; (on_goal 1 => unfold x); (on_goal 2 => (clear_value x; intro _)))
    | ((try lift_lets); intro x; refine State.cut_still (x := x.2) ?_ ?_; (on_goal 1 => unfold x); (on_goal 2 => (clear_value x; intro _)))
    | ((try lift_lets); intro x; try clear_value x)
    | intro _
    | split
    | with_reducible fail_if_no_progress apply State.Still.after (State.mk_still _)
    | dsimp only

theorem execHold_still (flow : FlowNo) (s : State) :
    ∀ t_, execHold flow s = .next t_ → s.Still t_ := by
  unfold execHold
  refine State.next_still ?_
  repeat' first
    | with_reducible exact State.Still.refl _
    | with_reducible assumption
    | with_reducible apply State.Still.after (State.setPart_still _ _ _)
    | with_reducible apply State.Still.after (State.setFlow_still _ _ _ _)
    | with_reducible apply State.Still.after (State.touch_still _ _ _ _ (by assumption))
    | with_reducible apply State.Still.after (State.block_still _ _ _ _)
    | with_reducible apply State.Still.after (State.unblock_still _ _ _ _)
    | ((try lift_lets); intro x; refine State.cut_still (x := x) ?_ ?_; (on_goal 1 => unfold x); (on_goal 2 => (clear_value x; intro _)))
    | ((try lift_lets); intro x; refine State.cut_still (x := x.2) ?_ ?_; (on_goal 1 => unfold x); (on_goal 2 => (clear_value x; intro _)))
    | ((try lift_lets); intro x; try clear_value x)
    | intro _
    | split
    | with_reducible fail_if_no_progress apply State.Still.after (State.mk_still _)
    | dsimp only

theorem State.admitItem_still (s : State) (c : Cmd) :
    s.Still (State.admitItem s c) := by
  unfold State.admitItem
  repeat' first
    | with_reducible refine State.ite_still ?_ ?_
    | with_reducible refine State.ite2_still ?_ ?_
    | with_reducible exact State.Still.refl _
    | with_reducible assumption
    | with_reducible apply State.Still.after (State.setCmd_still _ _)
    | with_reducible apply State.Still.after (State.finish_still _ _ _ _)
    | with_reducible apply State.Still.after (State.enqueue_still _ _ _ _)
    | with_reducible apply State.Still.after (State.pair_still (State.enqueue_still _ _ _ _) (by assumption))
    | ((try lift_lets); intro x; refine State.cut_still (x := x) ?_ ?_; (on_goal 1 => unfold x); (on_goal 2 => (clear_value x; intro _)))
    | ((try lift_lets); intro x; refine State.cut_still (x := x.2) ?_ ?_; (on_goal 1 => unfold x); (on_goal 2 => (clear_value x; intro _)))
    | ((try lift_lets); intro x; try clear_value x)
    | intro _
    | split
    | with_reducible fail_if_no_progress apply State.Still.after (State.mk_still _)
    | dsimp only

theorem State.admitIf_still (s : State) (c : Cmd) (st : Status) :
    s.Still (State.admitIf s c st) := by
  unfold State.admitIf
  repeat' first
    | with_reducible refine State.ite_still ?_ ?_
    | with_reducible refine State.ite2_still ?_ ?_
    | with_reducible exact State.Still.refl _
    | with_reducible assumption
    | with_reducible apply State.Still.after (State.finish_still _ _ _ _)
    | with_reducible apply State.Still.after (State.admitItem_still _ _)
    | intro _
    | split
    | dsimp only

theorem State.workDone_still (s : State) (c : Cmd) (st : Status) (result : Nat) :
    s.Still (State.workDone s c st result) := by
  unfold State.workDone
  repeat' first
    | with_reducible exact State.Still.refl _
    | with_reducible assumption
    | with_reducible apply State.Still.after (State.setCmd_still _ _)
    | intro _
    | split
    | with_reducible fail_if_no_progress apply State.Still.after (State.mk_still _)
    | dsimp only

theorem State.putPiece_steady (s : State) (c : Cmd) (dev : Bool) (addr : Nat) (bs : Bytes) :
    s.Steady (State.putPiece s c dev addr bs).2 := by
  unfold State.putPiece
  repeat' first
    | with_reducible refine State.ite_steady ?_ ?_
    | with_reducible refine State.ite2_steady ?_ ?_
    | with_reducible exact State.Steady.refl _
    | with_reducible assumption
    | with_reducible apply State.Steady.after ((State.dmaWrite_still _ _ _ _ _).steady)
    | with_reducible apply State.Steady.after (State.devWrite_steady _ _ _ _)
    | with_reducible apply State.Steady.after (State.pair_steady (State.devWrite_steady _ _ _ _) (by assumption))
    | intro _
    | split
    | dsimp only

theorem State.putOut_steady (s : State) (c : Cmd) (dev : Bool) (addr : Nat) (bs : Bytes) :
    s.Steady (State.putOut s c dev addr bs).2 := by
  unfold State.putOut
  refine State.ite2_steady (State.putPiece_steady _ _ _ _ _) ?_
  refine State.foldl2_steady (fun a x => ?_) _ (true, s)
  dsimp only
  refine State.ite2_steady ?_ (State.free_still _).steady
  exact (State.free_still _).steady.trans (State.putPiece_steady _ _ _ _ _)

end Sys2Proof.Machine
end

