-- ==== Sys2Proof/Laws/KeepMatrix.lean ====
section
/-!
SUPPORT. What the operations and meanings of Machine/Matrix.lean keep of a state.
-/
set_option linter.unusedVariables false
set_option linter.unreachableTactic false
set_option linter.unusedTactic false
namespace Sys2Proof.Machine

theorem State.matRow_still (s : State) (p addr fmt q row : Nat) :
    s.Still (State.matRow s p addr fmt q row).2 := by
  unfold State.matRow
  repeat' first
    | with_reducible exact State.Still.refl _
    | with_reducible assumption
    | with_reducible apply State.Still.after (State.devRead_still _ _ _ _ _)
    | with_reducible apply State.Still.after (State.pair_still (State.devRead_still _ _ _ _ _) (by assumption))
    | with_reducible apply State.Still.after (State.foldl_still ?_ _ _)
    | with_reducible apply State.Still.after (State.foldl2_still ?_ _ _)
    | ((try lift_lets); intro x; refine State.cut_still (x := x) ?_ ?_; (on_goal 1 => unfold x); (on_goal 2 => (clear_value x; intro _)))
    | ((try lift_lets); intro x; refine State.cut_still (x := x.2) ?_ ?_; (on_goal 1 => unfold x); (on_goal 2 => (clear_value x; intro _)))
    | ((try lift_lets); intro x; try clear_value x)
    | intro _
    | split
    | dsimp only

theorem State.matRows_still (s : State) (p addr fmt q first n : Nat) :
    s.Still (State.matRows s p addr fmt q first n).2 := by
  unfold State.matRows
  repeat' first
    | with_reducible exact State.Still.refl _
    | with_reducible assumption
    | with_reducible apply State.Still.after (State.matRow_still _ _ _ _ _ _)
    | with_reducible apply State.Still.after (State.pair_still (State.matRow_still _ _ _ _ _ _) (by assumption))
    | with_reducible apply State.Still.after (State.foldl_still ?_ _ _)
    | with_reducible apply State.Still.after (State.foldl2_still ?_ _ _)
    | ((try lift_lets); intro x; refine State.cut_still (x := x) ?_ ?_; (on_goal 1 => unfold x); (on_goal 2 => (clear_value x; intro _)))
    | ((try lift_lets); intro x; refine State.cut_still (x := x.2) ?_ ?_; (on_goal 1 => unfold x); (on_goal 2 => (clear_value x; intro _)))
    | ((try lift_lets); intro x; try clear_value x)
    | intro _
    | split
    | dsimp only

theorem State.bandSram_still (s : State) (p engine : Nat) (j : MatJob) (n : Nat) :
    s.Still (State.bandSram s p engine j n).2 := by
  unfold State.bandSram
  repeat' first
    | with_reducible exact State.Still.refl _
    | with_reducible assumption
    | with_reducible apply State.Still.after (State.sramRead_still _ _ _ _ _)
    | with_reducible apply State.Still.after (State.pair_still (State.sramRead_still _ _ _ _ _) (by assumption))
    | with_reducible apply State.Still.after (State.sramWrite_still _ _ _ _)
    | with_reducible apply State.Still.after (State.foldl_still ?_ _ _)
    | with_reducible apply State.Still.after (State.foldl2_still ?_ _ _)
    | ((try lift_lets); intro x; refine State.cut_still (x := x) ?_ ?_; (on_goal 1 => unfold x); (on_goal 2 => (clear_value x; intro _)))
    | ((try lift_lets); intro x; refine State.cut_still (x := x.2) ?_ ?_; (on_goal 1 => unfold x); (on_goal 2 => (clear_value x; intro _)))
    | ((try lift_lets); intro x; try clear_value x)
    | intro _
    | split
    | dsimp only

theorem State.matWrite_steady (s : State) (p : Nat) (ws : List MatWrite) :
    s.Steady (State.matWrite s p ws).2 := by
  unfold State.matWrite
  repeat' first
    | with_reducible exact State.Steady.refl _
    | with_reducible assumption
    | with_reducible apply State.Steady.after ((State.bump_still _ _ _).steady)
    | with_reducible apply State.Steady.after (State.devWrite_steady _ _ _ _)
    | with_reducible apply State.Steady.after (State.pair_steady (State.devWrite_steady _ _ _ _) (by assumption))
    | with_reducible apply State.Steady.after (State.foldl_steady ?_ _ _)
    | with_reducible apply State.Steady.after (State.foldl2_steady ?_ _ _)
    | ((try lift_lets); intro x; refine State.cut_steady (x := x) ?_ ?_; (on_goal 1 => unfold x); (on_goal 2 => (clear_value x; intro _)))
    | ((try lift_lets); intro x; refine State.cut_steady (x := x.2) ?_ ?_; (on_goal 1 => unfold x); (on_goal 2 => (clear_value x; intro _)))
    | ((try lift_lets); intro x; try clear_value x)
    | intro _
    | split
    | dsimp only

theorem State.matBias_still (s : State) (p : Nat) (j : MatJob) :
    s.Still (State.matBias s p j).2 := by
  unfold State.matBias
  repeat' first
    | with_reducible refine State.ite_still ?_ ?_
    | with_reducible refine State.ite2_still ?_ ?_
    | with_reducible exact State.Still.refl _
    | with_reducible assumption
    | with_reducible apply State.Still.after (State.devRead_still _ _ _ _ _)
    | with_reducible apply State.Still.after (State.pair_still (State.devRead_still _ _ _ _ _) (by assumption))
    | ((try lift_lets); intro x; refine State.cut_still (x := x) ?_ ?_; (on_goal 1 => unfold x); (on_goal 2 => (clear_value x; intro _)))
    | ((try lift_lets); intro x; refine State.cut_still (x := x.2) ?_ ?_; (on_goal 1 => unfold x); (on_goal 2 => (clear_value x; intro _)))
    | ((try lift_lets); intro x; try clear_value x)
    | intro _
    | split
    | dsimp only

theorem State.matBand_still (s : State) (p engine r : Nat) (j : MatJob) (bias : Option (List Nat)) (bs : List (Option (List FVal))) (row : Nat) :
    s.Still (State.matBand s p engine r j bias bs row).2 := by
  unfold State.matBand
  repeat' first
    | with_reducible refine State.ite_still ?_ ?_
    | with_reducible refine State.ite2_still ?_ ?_
    | with_reducible exact State.Still.refl _
    | with_reducible assumption
    | with_reducible apply State.Still.after (State.block_still _ _ _ _)
    | with_reducible apply State.Still.after (State.matRows_still _ _ _ _ _ _ _)
    | with_reducible apply State.Still.after (State.pair_still (State.matRows_still _ _ _ _ _ _ _) (by assumption))
    | with_reducible apply State.Still.after (State.bandSram_still _ _ _ _ _)
    | with_reducible apply State.Still.after (State.pair_still (State.bandSram_still _ _ _ _ _) (by assumption))
    | with_reducible apply State.Still.after (State.foldl_still ?_ _ _)
    | with_reducible apply State.Still.after (State.foldl2_still ?_ _ _)
    | ((try lift_lets); intro x; refine State.cut_still (x := x) ?_ ?_; (on_goal 1 => unfold x); (on_goal 2 => (clear_value x; intro _)))
    | ((try lift_lets); intro x; refine State.cut_still (x := x.2) ?_ ?_; (on_goal 1 => unfold x); (on_goal 2 => (clear_value x; intro _)))
    | ((try lift_lets); intro x; try clear_value x)
    | intro _
    | split
    | dsimp only

theorem State.runJob_steady (s : State) (p engine : Nat) (j : MatJob) :
    s.Steady (State.runJob s p engine j).2 := by
  have h0 : s.Still ((s.matBias p j).2.matRows p j.b j.bFmt j.k 0 j.n).2 :=
    (State.matBias_still s p j).trans (State.matRows_still _ _ _ _ _ _ _)
  unfold State.runJob
  extract_lets r bias b0 out u v
  have h1 : s.Still b0.2 := h0
  have h2 : b0.2.Still out.2.2 := by
    refine State.foldlBy_still (fun a : (List (List MatWrite) × Bool) × (List (Option (List FVal)) × State) => a.2.2) ?_ _ _
    intro a i
    dsimp only
    split
    · exact State.Still.refl _
    · with_reducible apply State.Still.after (State.matBand_still _ _ _ _ _ _ _ _)
      exact State.ite2_still (State.Still.refl _) (State.matRows_still _ _ _ _ _ _ _)
  have h3 : s.Steady out.2.2 := (h1.trans h2).steady
  refine State.ite2_steady ?_ ?_
  · exact h3.trans (State.matWrite_steady _ _ _)
  · exact (h3.trans (State.free_still _).steady).trans (State.matWrite_steady _ _ _)

theorem State.matJobs_still (s : State) (p addr n : Nat) :
    s.Still (State.matJobs s p addr n).2 := by
  unfold State.matJobs
  repeat' first
    | with_reducible exact State.Still.refl _
    | with_reducible assumption
    | with_reducible apply State.Still.after (State.devRead_still _ _ _ _ _)
    | with_reducible apply State.Still.after (State.pair_still (State.devRead_still _ _ _ _ _) (by assumption))
    | with_reducible apply State.Still.after (State.foldl_still ?_ _ _)
    | with_reducible apply State.Still.after (State.foldl2_still ?_ _ _)
    | ((try lift_lets); intro x; refine State.cut_still (x := x) ?_ ?_; (on_goal 1 => unfold x); (on_goal 2 => (clear_value x; intro _)))
    | ((try lift_lets); intro x; refine State.cut_still (x := x.2) ?_ ?_; (on_goal 1 => unfold x); (on_goal 2 => (clear_value x; intro _)))
    | ((try lift_lets); intro x; try clear_value x)
    | intro _
    | split
    | dsimp only

theorem State.matCycles_still (s : State) (p : Nat) :
    s.Still (State.matCycles s p) := by
  unfold State.matCycles
  repeat' first
    | with_reducible exact State.Still.refl _
    | with_reducible assumption
    | with_reducible apply State.Still.after (State.bump_still _ _ _)
    | with_reducible apply State.Still.after (State.free_still _)
    | with_reducible apply State.Still.after (State.pair_still (State.free_still _) (by assumption))
    | with_reducible apply State.Still.after (State.addWork_still _ _ _ _)
    | ((try lift_lets); intro x; refine State.cut_still (x := x) ?_ ?_; (on_goal 1 => unfold x); (on_goal 2 => (clear_value x; intro _)))
    | ((try lift_lets); intro x; refine State.cut_still (x := x.2) ?_ ?_; (on_goal 1 => unfold x); (on_goal 2 => (clear_value x; intro _)))
    | ((try lift_lets); intro x; try clear_value x)
    | intro _
    | split
    | dsimp only

theorem State.countedJob_steady (s : State) (p engine : Nat) (j : MatJob) :
    s.Steady (State.countedJob s p engine j).2 := by
  unfold State.countedJob
  repeat' first
    | with_reducible refine State.ite_steady ?_ ?_
    | with_reducible refine State.ite2_steady ?_ ?_
    | with_reducible exact State.Steady.refl _
    | with_reducible assumption
    | with_reducible apply State.Steady.after ((State.bump_still _ _ _).steady)
    | with_reducible apply State.Steady.after (State.runJob_steady _ _ _ _)
    | with_reducible apply State.Steady.after (State.pair_steady (State.runJob_steady _ _ _ _) (by assumption))
    | with_reducible apply State.Steady.after ((State.matCycles_still _ _).steady)
    | ((try lift_lets); intro x; refine State.cut_steady (x := x) ?_ ?_; (on_goal 1 => unfold x); (on_goal 2 => (clear_value x; intro _)))
    | ((try lift_lets); intro x; refine State.cut_steady (x := x.2) ?_ ?_; (on_goal 1 => unfold x); (on_goal 2 => (clear_value x; intro _)))
    | ((try lift_lets); intro x; try clear_value x)
    | intro _
    | split
    | dsimp only

theorem State.runJobs_steady (p engine : Nat) (s : State) (a1 : Nat) (a2 : List MatJob) :
    s.Steady (State.runJobs p engine s a1 a2).2 := by
  induction a2 generalizing s a1 with
  | nil =>
    unfold State.runJobs
    repeat' first
      | with_reducible refine State.ite_steady ?_ ?_
      | with_reducible refine State.ite2_steady ?_ ?_
      | with_reducible exact State.Steady.refl _
      | with_reducible assumption
      | with_reducible apply State.Steady.after (State.countedJob_steady _ _ _ _)
      | with_reducible apply State.Steady.after (State.pair_steady (State.countedJob_steady _ _ _ _) (by assumption))
      | ((try lift_lets); intro x; refine State.cut_steady (x := x) ?_ ?_; (on_goal 1 => unfold x); (on_goal 2 => (clear_value x; intro _)))
      | ((try lift_lets); intro x; refine State.cut_steady (x := x.2) ?_ ?_; (on_goal 1 => unfold x); (on_goal 2 => (clear_value x; intro _)))
      | ((try lift_lets); intro x; try clear_value x)
      | intro _
      | split
      | dsimp only
  | cons _ _ ih =>
    unfold State.runJobs
    repeat' first
      | with_reducible refine State.ite_steady ?_ ?_
      | with_reducible refine State.ite2_steady ?_ ?_
      | with_reducible apply State.Steady.after (ih _ _)
      | with_reducible apply State.Steady.after (State.pair_steady (ih _ _) (by assumption))
      | with_reducible exact State.Steady.refl _
      | with_reducible assumption
      | with_reducible apply State.Steady.after (State.countedJob_steady _ _ _ _)
      | with_reducible apply State.Steady.after (State.pair_steady (State.countedJob_steady _ _ _ _) (by assumption))
      | ((try lift_lets); intro x; refine State.cut_steady (x := x) ?_ ?_; (on_goal 1 => unfold x); (on_goal 2 => (clear_value x; intro _)))
      | ((try lift_lets); intro x; refine State.cut_steady (x := x.2) ?_ ?_; (on_goal 1 => unfold x); (on_goal 2 => (clear_value x; intro _)))
      | ((try lift_lets); intro x; try clear_value x)
      | intro _
      | split
      | dsimp only

theorem State.matmulWork_steady (s : State) (c : Cmd) :
    s.Steady (State.matmulWork s c) := by
  unfold State.matmulWork
  repeat' first
    | with_reducible refine State.ite_steady ?_ ?_
    | with_reducible refine State.ite2_steady ?_ ?_
    | with_reducible exact State.Steady.refl _
    | with_reducible assumption
    | with_reducible apply State.Steady.after ((State.workDone_still _ _ _ _).steady)
    | with_reducible apply State.Steady.after ((State.matJobs_still _ _ _ _).steady)
    | with_reducible apply State.Steady.after (State.pair_steady ((State.matJobs_still _ _ _ _).steady) (by assumption))
    | with_reducible apply State.Steady.after (State.runJobs_steady _ _ _ _ _)
    | with_reducible apply State.Steady.after (State.pair_steady (State.runJobs_steady _ _ _ _ _) (by assumption))
    | ((try lift_lets); intro x; refine State.cut_steady (x := x) ?_ ?_; (on_goal 1 => unfold x); (on_goal 2 => (clear_value x; intro _)))
    | ((try lift_lets); intro x; refine State.cut_steady (x := x.2) ?_ ?_; (on_goal 1 => unfold x); (on_goal 2 => (clear_value x; intro _)))
    | ((try lift_lets); intro x; try clear_value x)
    | intro _
    | split
    | dsimp only

theorem execMatmul_steady (id : Nat) (_data : Bytes) (s : State) :
    ∀ t_, execMatmul id _data s = .next t_ → s.Steady t_ := by
  unfold execMatmul
  refine State.next_steady ?_
  repeat' first
    | with_reducible exact State.Steady.refl _
    | with_reducible assumption
    | with_reducible apply State.Steady.after ((State.admitIf_still _ _ _).steady)
    | with_reducible apply State.Steady.after (State.matmulWork_steady _ _)
    | intro _
    | split
    | dsimp only

end Sys2Proof.Machine
end

