-- ==== Sys2Proof/Laws/KeepBop.lean ====
section
/-!
SUPPORT. What the operations and meanings of Machine/Bop.lean keep of a state.
-/
set_option linter.unusedVariables false
set_option linter.unreachableTactic false
set_option linter.unusedTactic false
namespace Sys2Proof.Machine

theorem State.mgmtSend_still (s : State) (o : Output) :
    s.Still (State.mgmtSend s o) := by
  unfold State.mgmtSend
  repeat' first
    | with_reducible refine State.ite_still ?_ ?_
    | with_reducible refine State.ite2_still ?_ ?_
    | with_reducible exact State.Still.refl _
    | with_reducible assumption
    | with_reducible apply State.Still.after (State.bump_still _ _ _)
    | with_reducible apply State.Still.after (State.emit_still _ _)
    | intro _
    | split
    | with_reducible fail_if_no_progress apply State.Still.after (State.mk_still _)
    | dsimp only

theorem State.flushTx_still (s : State) (n : Nat) :
    s.Still (State.flushTx s n) := by
  unfold State.flushTx
  repeat' first
    | with_reducible exact State.Still.refl _
    | with_reducible assumption
    | with_reducible apply State.Still.after (State.emit_still _ _)
    | with_reducible apply State.Still.after (State.take_still _ _ _ _ _)
    | with_reducible apply State.Still.after (State.foldl_still ?_ _ _)
    | with_reducible apply State.Still.after (State.foldl2_still ?_ _ _)
    | intro _
    | split
    | with_reducible fail_if_no_progress apply State.Still.after (State.mk_still _)
    | dsimp only

theorem State.txDone_still (s : State) :
    s.Still (State.txDone s) := by
  unfold State.txDone
  repeat' first
    | with_reducible exact State.Still.refl _
    | with_reducible assumption
    | with_reducible apply State.Still.after (State.flushTx_still _ _)
    | intro _
    | split
    | dsimp only

theorem execTransmitOpportunity_still (s : State) :
    ∀ t_, execTransmitOpportunity s = .next t_ → s.Still t_ := by
  unfold execTransmitOpportunity
  refine State.next_still ?_
  repeat' first
    | with_reducible refine State.ite_still ?_ ?_
    | with_reducible refine State.ite2_still ?_ ?_
    | with_reducible exact State.Still.refl _
    | with_reducible assumption
    | with_reducible apply State.Still.after (State.flushTx_still _ _)
    | intro _
    | split
    | dsimp only

theorem execBeacon_still (s : State) :
    ∀ t_, execBeacon s = .next t_ → s.Still t_ := by
  unfold execBeacon
  refine State.next_still ?_
  repeat' first
    | with_reducible refine State.ite_still ?_ ?_
    | with_reducible refine State.ite2_still ?_ ?_
    | with_reducible exact State.Still.refl _
    | with_reducible assumption
    | with_reducible apply State.Still.after (State.put_still _ _ _)
    | intro _
    | split
    | dsimp only

theorem execBeaconTimeout_still (s : State) :
    ∀ t_, execBeaconTimeout s = .next t_ → s.Still t_ := by
  unfold execBeaconTimeout
  refine State.next_still ?_
  repeat' first
    | with_reducible refine State.ite_still ?_ ?_
    | with_reducible refine State.ite2_still ?_ ?_
    | with_reducible exact State.Still.refl _
    | with_reducible assumption
    | with_reducible apply State.Still.after (State.put_still _ _ _)
    | with_reducible apply State.Still.after (State.bump_still _ _ _)
    | with_reducible apply State.Still.after (State.txDone_still _)
    | ((try lift_lets); intro x; refine State.cut_still (x := x) ?_ ?_; (on_goal 1 => unfold x); (on_goal 2 => (clear_value x; intro _)))
    | ((try lift_lets); intro x; refine State.cut_still (x := x.2) ?_ ?_; (on_goal 1 => unfold x); (on_goal 2 => (clear_value x; intro _)))
    | ((try lift_lets); intro x; try clear_value x)
    | intro _
    | split
    | dsimp only

theorem execBeaconTransmit_still (s : State) :
    ∀ t_, execBeaconTransmit s = .next t_ → s.Still t_ := by
  unfold execBeaconTransmit
  refine State.next_still ?_
  repeat' first
    | with_reducible refine State.ite_still ?_ ?_
    | with_reducible refine State.ite2_still ?_ ?_
    | with_reducible exact State.Still.refl _
    | with_reducible assumption
    | with_reducible apply State.Still.after (State.put_still _ _ _)
    | with_reducible apply State.Still.after (State.emit_still _ _)
    | intro _
    | split
    | dsimp only

theorem State.setSession_still (s : State) (x : Session) :
    s.Still (State.setSession s x) := by
  unfold State.setSession
  repeat' first
    | with_reducible refine State.ite_still ?_ ?_
    | with_reducible refine State.ite2_still ?_ ?_
    | with_reducible exact State.Still.refl _
    | with_reducible assumption
    | intro _
    | split
    | with_reducible fail_if_no_progress apply State.Still.after (State.mk_still _)
    | dsimp only

theorem State.mboxAnswer_still (s : State) (p : Nat) (st : Nat) (bytes : Bytes) :
    s.Still (State.mboxAnswer s p st bytes) := by
  unfold State.mboxAnswer
  repeat' first
    | with_reducible exact State.Still.refl _
    | with_reducible assumption
    | with_reducible apply State.Still.after (State.setPort_still _ _ _)
    | with_reducible apply State.Still.after (State.portEvent_still _ _ _)
    | ((try lift_lets); intro x; refine State.cut_still (x := x) ?_ ?_; (on_goal 1 => unfold x); (on_goal 2 => (clear_value x; intro _)))
    | ((try lift_lets); intro x; refine State.cut_still (x := x.2) ?_ ?_; (on_goal 1 => unfold x); (on_goal 2 => (clear_value x; intro _)))
    | ((try lift_lets); intro x; try clear_value x)
    | intro _
    | split
    | with_reducible fail_if_no_progress apply State.Still.after (State.mk_still _)
    | dsimp only

theorem State.sendBop_still (s : State) (path : BopPath) (src srcPort st : Nat) (bytes : Bytes) :
    s.Still (State.sendBop s path src srcPort st bytes) := by
  unfold State.sendBop
  repeat' first
    | with_reducible exact State.Still.refl _
    | with_reducible assumption
    | with_reducible apply State.Still.after (State.mgmtSend_still _ _)
    | with_reducible apply State.Still.after (State.mboxAnswer_still _ _ _ _)
    | intro _
    | split
    | dsimp only

theorem State.respond_still (s : State) (r : Reply) (st : Status) (payload : Bytes) :
    s.Still (State.respond s r st payload) := by
  unfold State.respond
  repeat' first
    | with_reducible refine State.ite_still ?_ ?_
    | with_reducible refine State.ite2_still ?_ ?_
    | with_reducible exact State.Still.refl _
    | with_reducible assumption
    | with_reducible apply State.Still.after (State.finish_still _ _ _ _)
    | with_reducible apply State.Still.after (State.setSession_still _ _)
    | with_reducible apply State.Still.after (State.sendBop_still _ _ _ _ _ _)
    | ((try lift_lets); intro x; refine State.cut_still (x := x) ?_ ?_; (on_goal 1 => unfold x); (on_goal 2 => (clear_value x; intro _)))
    | ((try lift_lets); intro x; refine State.cut_still (x := x.2) ?_ ?_; (on_goal 1 => unfold x); (on_goal 2 => (clear_value x; intro _)))
    | ((try lift_lets); intro x; try clear_value x)
    | intro _
    | split
    | with_reducible fail_if_no_progress apply State.Still.after (State.mk_still _)
    | dsimp only

theorem State.answer_still (s : State) (what : Await) (arg : Nat) (st : Status) :
    s.Still (State.answer s what arg st) := by
  unfold State.answer
  repeat' first
    | with_reducible exact State.Still.refl _
    | with_reducible assumption
    | with_reducible apply State.Still.after (State.respond_still _ _ _ _)
    | with_reducible apply State.Still.after (State.foldl_still ?_ _ _)
    | with_reducible apply State.Still.after (State.foldl2_still ?_ _ _)
    | ((try lift_lets); intro x; refine State.cut_still (x := x) ?_ ?_; (on_goal 1 => unfold x); (on_goal 2 => (clear_value x; intro _)))
    | ((try lift_lets); intro x; refine State.cut_still (x := x.2) ?_ ?_; (on_goal 1 => unfold x); (on_goal 2 => (clear_value x; intro _)))
    | ((try lift_lets); intro x; try clear_value x)
    | intro _
    | split
    | with_reducible fail_if_no_progress apply State.Still.after (State.mk_still _)
    | dsimp only

theorem State.await_still (s : State) (what : Await) (arg : Nat) (r : Reply) :
    s.Still (State.await s what arg r) := by
  unfold State.await
  repeat' first
    | with_reducible exact State.Still.refl _
    | with_reducible assumption
    | with_reducible apply State.Still.after (State.setCmd_still _ _)
    | ((try lift_lets); intro x; refine State.cut_still (x := x) ?_ ?_; (on_goal 1 => unfold x); (on_goal 2 => (clear_value x; intro _)))
    | ((try lift_lets); intro x; refine State.cut_still (x := x.2) ?_ ?_; (on_goal 1 => unfold x); (on_goal 2 => (clear_value x; intro _)))
    | ((try lift_lets); intro x; try clear_value x)
    | intro _
    | split
    | with_reducible fail_if_no_progress apply State.Still.after (State.mk_still _)
    | dsimp only

theorem State.endSession_still (s : State) (id : Nat) :
    s.Still (State.endSession s id) := by
  unfold State.endSession
  repeat' first
    | with_reducible exact State.Still.refl _
    | with_reducible assumption
    | intro _
    | split
    | with_reducible fail_if_no_progress apply State.Still.after (State.mk_still _)
    | dsimp only

theorem State.authFailed_still (s : State) (slot : Nat) :
    s.Still (State.authFailed s slot) := by
  unfold State.authFailed
  repeat' first
    | with_reducible refine State.ite_still ?_ ?_
    | with_reducible refine State.ite2_still ?_ ?_
    | with_reducible exact State.Still.refl _
    | with_reducible assumption
    | ((try lift_lets); intro x; refine State.cut_still (x := x) ?_ ?_; (on_goal 1 => unfold x); (on_goal 2 => (clear_value x; intro _)))
    | ((try lift_lets); intro x; refine State.cut_still (x := x.2) ?_ ?_; (on_goal 1 => unfold x); (on_goal 2 => (clear_value x; intro _)))
    | ((try lift_lets); intro x; try clear_value x)
    | intro _
    | split
    | with_reducible fail_if_no_progress apply State.Still.after (State.mk_still _)
    | dsimp only

theorem State.authRefuse_still (s : State) (path : BopPath) (src srcPort : Nat) (x : Bop) :
    s.Still (State.authRefuse s path src srcPort x) := by
  unfold State.authRefuse
  repeat' first
    | with_reducible refine State.ite_still ?_ ?_
    | with_reducible refine State.ite2_still ?_ ?_
    | with_reducible exact State.Still.refl _
    | with_reducible assumption
    | with_reducible apply State.Still.after (State.bump_still _ _ _)
    | with_reducible apply State.Still.after (State.mgmtSend_still _ _)
    | with_reducible apply State.Still.after (State.mboxAnswer_still _ _ _ _)
    | ((try lift_lets); intro x; refine State.cut_still (x := x) ?_ ?_; (on_goal 1 => unfold x); (on_goal 2 => (clear_value x; intro _)))
    | ((try lift_lets); intro x; refine State.cut_still (x := x.2) ?_ ?_; (on_goal 1 => unfold x); (on_goal 2 => (clear_value x; intro _)))
    | ((try lift_lets); intro x; try clear_value x)
    | intro _
    | split
    | with_reducible fail_if_no_progress apply State.Still.after (State.mk_still _)
    | dsimp only

/-- The state that an intake leaves. -/
def Intake.state : Intake → State
  | .dealt s => s
  | .go _ _ s => s

theorem State.intakePlain_still (s : State) (path : BopPath) (src srcPort : Nat) (x : Bop) :
    s.Still (s.intakePlain path src srcPort x).state := by
  unfold State.intakePlain
  dsimp only
  repeat' first
    | split
    | exact State.Still.refl _
    | (dsimp only [Intake.state])
    | with_reducible apply State.Still.after (State.respond_still _ _ _ _)
    | with_reducible apply State.Still.after (State.authRefuse_still _ _ _ _ _)
    | with_reducible apply State.Still.after (State.authFailed_still _ _)
    | with_reducible apply State.Still.after (State.endSession_still _ _)
    | with_reducible apply State.Still.after (State.sendBop_still _ _ _ _ _ _)
    | with_reducible apply State.Still.after (State.setSession_still _ _)
    | with_reducible apply State.Still.after (State.bump_still _ _ _)

theorem State.intakeSession_still (s : State) (path : BopPath) (src srcPort : Nat) (x : Bop) :
    s.Still (s.intakeSession path src srcPort x).state := by
  unfold State.intakeSession
  dsimp only
  repeat' first
    | split
    | exact State.Still.refl _
    | (dsimp only [Intake.state])
    | with_reducible apply State.Still.after (State.respond_still _ _ _ _)
    | with_reducible apply State.Still.after (State.authRefuse_still _ _ _ _ _)
    | with_reducible apply State.Still.after (State.authFailed_still _ _)
    | with_reducible apply State.Still.after (State.endSession_still _ _)
    | with_reducible apply State.Still.after (State.sendBop_still _ _ _ _ _ _)
    | with_reducible apply State.Still.after (State.setSession_still _ _)
    | with_reducible apply State.Still.after (State.bump_still _ _ _)

theorem State.takeMessage_still (s : State) (m : BopMsg) :
    ∀ t_, State.takeMessage s m = some t_ → s.Still t_ := by
  intro t_ h
  unfold State.takeMessage at h
  try dsimp only at h
  repeat' split at h
  all_goals try contradiction
  all_goals try first
    | (injection h with h; subst h)
    | (obtain ⟨z_, hz_, h⟩ := Option.map_eq_some_iff.1 h; subst h)
  all_goals repeat' first
    | with_reducible refine State.ite_still ?_ ?_
    | with_reducible refine State.ite2_still ?_ ?_
    | with_reducible exact State.Still.refl _
    | with_reducible assumption
    | intro _
    | split
    | with_reducible fail_if_no_progress apply State.Still.after (State.mk_still _)
    | dsimp only

theorem State.lineUp_still (s : State) (m : BopMsg) :
    s.Still (State.lineUp s m) := by
  unfold State.lineUp
  repeat' first
    | with_reducible refine State.ite_still ?_ ?_
    | with_reducible refine State.ite2_still ?_ ?_
    | with_reducible exact State.Still.refl _
    | with_reducible assumption
    | with_reducible apply State.Still.after (State.bump_still _ _ _)
    | intro _
    | split
    | with_reducible fail_if_no_progress apply State.Still.after (State.mk_still _)
    | dsimp only

theorem State.intake_still (s : State) (m : BopMsg) (op : Nat → Bool) : s.Still (s.intake m op).state := by
  unfold State.intake
  dsimp only
  split
  · exact State.Still.refl _
  split
  · exact State.bump_still _ _ _
  · split
    · exact State.lineUp_still _ _
    · rename_i u hu
      refine State.Still.after ?_ (State.takeMessage_still _ _ _ hu)
      split
      · repeat' first
          | split
          | exact State.Still.refl _
          | exact State.bump_still _ _ _
          | exact State.intakePlain_still _ _ _ _ _
          | exact State.intakeSession_still _ _ _ _ _
      · repeat' first
          | split
          | exact State.mboxAnswer_still _ _ _ _
          | exact State.intakePlain_still _ _ _ _ _
          | exact State.intakeSession_still _ _ _ _ _


/-- Serving a message keeps what its operation keeps. -/
theorem State.serve_still (s : State) (m : BopMsg) (op : Nat → Bool) {act : Writer → Bop → State → State}
    (h : ∀ (w : Writer) (x : Bop) (t : State), t.Still (act w x t)) : s.Still (s.serve m op act) := by
  unfold State.serve
  have h0 := State.intake_still s m op
  revert h0
  cases s.intake m op with
  | dealt t => exact fun h0 => h0
  | go w x t => exact fun h0 => State.Still.trans h0 (h w x t)

/-- Serving a message keeps what its operation keeps. -/
theorem State.serve_steady (s : State) (m : BopMsg) (op : Nat → Bool) {act : Writer → Bop → State → State}
    (h : ∀ (w : Writer) (x : Bop) (t : State), t.Steady (act w x t)) : s.Steady (s.serve m op act) := by
  unfold State.serve
  have h0 := State.intake_still s m op
  revert h0
  cases s.intake m op with
  | dealt t => exact fun h0 => h0.steady
  | go w x t => exact fun h0 => State.Steady.trans h0.steady (h w x t)

/-- Serving a message keeps what its operation keeps. -/
theorem State.serve_fixed (s : State) (m : BopMsg) (op : Nat → Bool) {act : Writer → Bop → State → State}
    (h : ∀ (w : Writer) (x : Bop) (t : State), t.Fixed (act w x t)) : s.Fixed (s.serve m op act) := by
  unfold State.serve
  have h0 := State.intake_still s m op
  revert h0
  cases s.intake m op with
  | dealt t => exact fun h0 => h0.fixed
  | go w x t => exact fun h0 => State.Fixed.trans h0.fixed (h w x t)

/-- Serving a message keeps what its operation keeps. -/
theorem State.serve_keeps (s : State) (m : BopMsg) (op : Nat → Bool) {act : Writer → Bop → State → State}
    (h : ∀ (w : Writer) (x : Bop) (t : State), t.Keeps (act w x t)) : s.Keeps (s.serve m op act) := by
  unfold State.serve
  have h0 := State.intake_still s m op
  revert h0
  cases s.intake m op with
  | dealt t => exact fun h0 => h0.keeps
  | go w x t => exact fun h0 => State.Keeps.trans h0.keeps (h w x t)


theorem execBopMalformed_still (msg : BopMsg) (s : State) :
    ∀ t_, execBopMalformed msg s = .next t_ → s.Still t_ := by
  unfold execBopMalformed
  refine State.next_still ?_
  repeat' first
    | with_reducible refine State.ite_still ?_ ?_
    | with_reducible refine State.ite2_still ?_ ?_
    | with_reducible exact State.Still.refl _
    | with_reducible assumption
    | with_reducible apply State.Still.after (State.bump_still _ _ _)
    | with_reducible apply State.Still.after (State.mboxAnswer_still _ _ _ _)
    | with_reducible apply State.Still.after (State.respond_still _ _ _ _)
    | with_reducible apply State.Still.after (State.takeMessage_still _ _ _ (by assumption))
    | with_reducible apply State.Still.after (State.serve_still _ _ _ ?_)
    | intro _
    | split
    | dsimp only

theorem execHello_still (msg : BopMsg) (s : State) :
    ∀ t_, execHello msg s = .next t_ → s.Still t_ := by
  unfold execHello
  refine State.next_still ?_
  repeat' first
    | with_reducible exact State.Still.refl _
    | with_reducible assumption
    | with_reducible apply State.Still.after (State.respond_still _ _ _ _)
    | with_reducible apply State.Still.after (State.serve_still _ _ _ ?_)
    | intro _
    | split
    | dsimp only

theorem execSessionInit_still (msg : BopMsg) (s : State) :
    ∀ t_, execSessionInit msg s = .next t_ → s.Still t_ := by
  unfold execSessionInit
  refine State.next_still ?_
  repeat' first
    | with_reducible refine State.ite_still ?_ ?_
    | with_reducible refine State.ite2_still ?_ ?_
    | with_reducible exact State.Still.refl _
    | with_reducible assumption
    | with_reducible apply State.Still.after (State.respond_still _ _ _ _)
    | with_reducible apply State.Still.after (State.serve_still _ _ _ ?_)
    | ((try lift_lets); intro x; refine State.cut_still (x := x) ?_ ?_; (on_goal 1 => unfold x); (on_goal 2 => (clear_value x; intro _)))
    | ((try lift_lets); intro x; refine State.cut_still (x := x.2) ?_ ?_; (on_goal 1 => unfold x); (on_goal 2 => (clear_value x; intro _)))
    | ((try lift_lets); intro x; try clear_value x)
    | intro _
    | split
    | with_reducible fail_if_no_progress apply State.Still.after (State.mk_still _)
    | dsimp only

theorem execSessionConfirm_still (msg : BopMsg) (s : State) :
    ∀ t_, execSessionConfirm msg s = .next t_ → s.Still t_ := by
  unfold execSessionConfirm
  refine State.next_still ?_
  repeat' first
    | with_reducible refine State.ite_still ?_ ?_
    | with_reducible refine State.ite2_still ?_ ?_
    | with_reducible exact State.Still.refl _
    | with_reducible assumption
    | with_reducible apply State.Still.after (State.setSession_still _ _)
    | with_reducible apply State.Still.after (State.respond_still _ _ _ _)
    | with_reducible apply State.Still.after (State.serve_still _ _ _ ?_)
    | ((try lift_lets); intro x; refine State.cut_still (x := x) ?_ ?_; (on_goal 1 => unfold x); (on_goal 2 => (clear_value x; intro _)))
    | ((try lift_lets); intro x; refine State.cut_still (x := x.2) ?_ ?_; (on_goal 1 => unfold x); (on_goal 2 => (clear_value x; intro _)))
    | ((try lift_lets); intro x; try clear_value x)
    | intro _
    | split
    | with_reducible fail_if_no_progress apply State.Still.after (State.mk_still _)
    | dsimp only

theorem execSessionClose_still (msg : BopMsg) (s : State) :
    ∀ t_, execSessionClose msg s = .next t_ → s.Still t_ := by
  unfold execSessionClose
  refine State.next_still ?_
  repeat' first
    | with_reducible exact State.Still.refl _
    | with_reducible assumption
    | with_reducible apply State.Still.after (State.respond_still _ _ _ _)
    | with_reducible apply State.Still.after (State.endSession_still _ _)
    | with_reducible apply State.Still.after (State.serve_still _ _ _ ?_)
    | intro _
    | split
    | dsimp only

theorem execConfirmTimeout_still (session : Nat) (s : State) :
    ∀ t_, execConfirmTimeout session s = .next t_ → s.Still t_ := by
  unfold execConfirmTimeout
  refine State.next_still ?_
  repeat' first
    | with_reducible refine State.ite_still ?_ ?_
    | with_reducible refine State.ite2_still ?_ ?_
    | with_reducible exact State.Still.refl _
    | with_reducible assumption
    | with_reducible apply State.Still.after (State.endSession_still _ _)
    | intro _
    | split
    | dsimp only

theorem execSessionIdle_still (session : Nat) (s : State) :
    ∀ t_, execSessionIdle session s = .next t_ → s.Still t_ := by
  unfold execSessionIdle
  refine State.next_still ?_
  repeat' first
    | with_reducible refine State.ite_still ?_ ?_
    | with_reducible refine State.ite2_still ?_ ?_
    | with_reducible exact State.Still.refl _
    | with_reducible assumption
    | with_reducible apply State.Still.after (State.endSession_still _ _)
    | intro _
    | split
    | dsimp only

theorem execLockExpiry_still (slot : KeySlotNo) (s : State) :
    ∀ t_, execLockExpiry slot s = .next t_ → s.Still t_ := by
  unfold execLockExpiry
  refine State.next_still ?_
  repeat' first
    | with_reducible refine State.ite_still ?_ ?_
    | with_reducible refine State.ite2_still ?_ ?_
    | with_reducible exact State.Still.refl _
    | with_reducible assumption
    | intro _
    | split
    | with_reducible fail_if_no_progress apply State.Still.after (State.mk_still _)
    | dsimp only

theorem execMboxGo_still (port : PortNo) (value : Nat) (s : State) :
    ∀ t_, execMboxGo port value s = .next t_ → s.Still t_ := by
  unfold execMboxGo
  refine State.next_still ?_
  repeat' first
    | with_reducible refine State.ite_still ?_ ?_
    | with_reducible refine State.ite2_still ?_ ?_
    | with_reducible exact State.Still.refl _
    | with_reducible assumption
    | with_reducible apply State.Still.after (State.setPort_still _ _ _)
    | with_reducible apply State.Still.after (State.barDiscard_still _ _)
    | ((try lift_lets); intro x; refine State.cut_still (x := x) ?_ ?_; (on_goal 1 => unfold x); (on_goal 2 => (clear_value x; intro _)))
    | ((try lift_lets); intro x; refine State.cut_still (x := x.2) ?_ ?_; (on_goal 1 => unfold x); (on_goal 2 => (clear_value x; intro _)))
    | ((try lift_lets); intro x; try clear_value x)
    | intro _
    | split
    | with_reducible fail_if_no_progress apply State.Still.after (State.mk_still _)
    | dsimp only

theorem execSubscribe_still (msg : BopMsg) (s : State) :
    ∀ t_, execSubscribe msg s = .next t_ → s.Still t_ := by
  unfold execSubscribe
  refine State.next_still ?_
  repeat' first
    | with_reducible refine State.ite_still ?_ ?_
    | with_reducible refine State.ite2_still ?_ ?_
    | with_reducible exact State.Still.refl _
    | with_reducible assumption
    | with_reducible apply State.Still.after (State.setSession_still _ _)
    | with_reducible apply State.Still.after (State.respond_still _ _ _ _)
    | with_reducible apply State.Still.after (State.serve_still _ _ _ ?_)
    | ((try lift_lets); intro x; refine State.cut_still (x := x) ?_ ?_; (on_goal 1 => unfold x); (on_goal 2 => (clear_value x; intro _)))
    | ((try lift_lets); intro x; refine State.cut_still (x := x.2) ?_ ?_; (on_goal 1 => unfold x); (on_goal 2 => (clear_value x; intro _)))
    | ((try lift_lets); intro x; try clear_value x)
    | intro _
    | split
    | with_reducible fail_if_no_progress apply State.Still.after (State.mk_still _)
    | dsimp only

theorem State.sendEvent_still (s : State) (e : EventRec) :
    s.Still (State.sendEvent s e) := by
  unfold State.sendEvent
  repeat' first
    | with_reducible exact State.Still.refl _
    | with_reducible assumption
    | with_reducible apply State.Still.after (State.mgmtSend_still _ _)
    | with_reducible apply State.Still.after (State.setSession_still _ _)
    | ((try lift_lets); intro x; refine State.cut_still (x := x) ?_ ?_; (on_goal 1 => unfold x); (on_goal 2 => (clear_value x; intro _)))
    | ((try lift_lets); intro x; refine State.cut_still (x := x.2) ?_ ?_; (on_goal 1 => unfold x); (on_goal 2 => (clear_value x; intro _)))
    | ((try lift_lets); intro x; try clear_value x)
    | intro _
    | split
    | with_reducible fail_if_no_progress apply State.Still.after (State.mk_still _)
    | dsimp only

theorem State.hearEvent_still (s : State) (o : Occurrence) (v : Session) :
    s.Still (State.hearEvent s o v) := by
  unfold State.hearEvent
  repeat' first
    | with_reducible refine State.ite_still ?_ ?_
    | with_reducible refine State.ite2_still ?_ ?_
    | with_reducible exact State.Still.refl _
    | with_reducible assumption
    | with_reducible apply State.Still.after (State.sendEvent_still _ _)
    | ((try lift_lets); intro x; refine State.cut_still (x := x) ?_ ?_; (on_goal 1 => unfold x); (on_goal 2 => (clear_value x; intro _)))
    | ((try lift_lets); intro x; refine State.cut_still (x := x.2) ?_ ?_; (on_goal 1 => unfold x); (on_goal 2 => (clear_value x; intro _)))
    | ((try lift_lets); intro x; try clear_value x)
    | intro _
    | split
    | with_reducible fail_if_no_progress apply State.Still.after (State.mk_still _)
    | dsimp only

theorem execEvent_still (cause part detail : Nat) (s : State) :
    ∀ t_, execEvent cause part detail s = .next t_ → s.Still t_ := by
  unfold execEvent
  refine State.next_still ?_
  repeat' first
    | with_reducible exact State.Still.refl _
    | with_reducible assumption
    | with_reducible apply State.Still.after (State.hearEvent_still _ _ _)
    | with_reducible apply State.Still.after (State.foldl_still ?_ _ _)
    | with_reducible apply State.Still.after (State.foldl2_still ?_ _ _)
    | ((try lift_lets); intro x; refine State.cut_still (x := x) ?_ ?_; (on_goal 1 => unfold x); (on_goal 2 => (clear_value x; intro _)))
    | ((try lift_lets); intro x; refine State.cut_still (x := x.2) ?_ ?_; (on_goal 1 => unfold x); (on_goal 2 => (clear_value x; intro _)))
    | ((try lift_lets); intro x; try clear_value x)
    | intro _
    | split
    | with_reducible fail_if_no_progress apply State.Still.after (State.mk_still _)
    | dsimp only

theorem execEventRetry_still (number : Nat) (s : State) :
    ∀ t_, execEventRetry number s = .next t_ → s.Still t_ := by
  unfold execEventRetry
  refine State.next_still ?_
  repeat' first
    | with_reducible refine State.ite_still ?_ ?_
    | with_reducible refine State.ite2_still ?_ ?_
    | with_reducible exact State.Still.refl _
    | with_reducible assumption
    | with_reducible apply State.Still.after (State.bump_still _ _ _)
    | with_reducible apply State.Still.after (State.sendEvent_still _ _)
    | ((try lift_lets); intro x; refine State.cut_still (x := x) ?_ ?_; (on_goal 1 => unfold x); (on_goal 2 => (clear_value x; intro _)))
    | ((try lift_lets); intro x; refine State.cut_still (x := x.2) ?_ ?_; (on_goal 1 => unfold x); (on_goal 2 => (clear_value x; intro _)))
    | ((try lift_lets); intro x; try clear_value x)
    | intro _
    | split
    | with_reducible fail_if_no_progress apply State.Still.after (State.mk_still _)
    | dsimp only

theorem execEventAck_still (msg : BopMsg) (s : State) :
    ∀ t_, execEventAck msg s = .next t_ → s.Still t_ := by
  unfold execEventAck
  refine State.next_still ?_
  repeat' first
    | with_reducible refine State.ite_still ?_ ?_
    | with_reducible refine State.ite2_still ?_ ?_
    | with_reducible exact State.Still.refl _
    | with_reducible assumption
    | with_reducible apply State.Still.after (State.bump_still _ _ _)
    | with_reducible apply State.Still.after (State.mboxAnswer_still _ _ _ _)
    | with_reducible apply State.Still.after (State.respond_still _ _ _ _)
    | with_reducible apply State.Still.after (State.takeMessage_still _ _ _ (by assumption))
    | with_reducible apply State.Still.after (State.lineUp_still _ _)
    | with_reducible apply State.Still.after (State.serve_still _ _ _ ?_)
    | ((try lift_lets); intro x; refine State.cut_still (x := x) ?_ ?_; (on_goal 1 => unfold x); (on_goal 2 => (clear_value x; intro _)))
    | ((try lift_lets); intro x; refine State.cut_still (x := x.2) ?_ ?_; (on_goal 1 => unfold x); (on_goal 2 => (clear_value x; intro _)))
    | ((try lift_lets); intro x; try clear_value x)
    | intro _
    | split
    | with_reducible fail_if_no_progress apply State.Still.after (State.mk_still _)
    | dsimp only

theorem execBlockOpen_still (msg : BopMsg) (s : State) :
    ∀ t_, execBlockOpen msg s = .next t_ → s.Still t_ := by
  unfold execBlockOpen
  refine State.next_still ?_
  repeat' first
    | with_reducible refine State.ite_still ?_ ?_
    | with_reducible refine State.ite2_still ?_ ?_
    | with_reducible exact State.Still.refl _
    | with_reducible assumption
    | with_reducible apply State.Still.after (State.respond_still _ _ _ _)
    | with_reducible apply State.Still.after (State.serve_still _ _ _ ?_)
    | ((try lift_lets); intro x; refine State.cut_still (x := x) ?_ ?_; (on_goal 1 => unfold x); (on_goal 2 => (clear_value x; intro _)))
    | ((try lift_lets); intro x; refine State.cut_still (x := x.2) ?_ ?_; (on_goal 1 => unfold x); (on_goal 2 => (clear_value x; intro _)))
    | ((try lift_lets); intro x; try clear_value x)
    | intro _
    | split
    | with_reducible fail_if_no_progress apply State.Still.after (State.mk_still _)
    | dsimp only

theorem execBlockData_still (msg : BopMsg) (s : State) :
    ∀ t_, execBlockData msg s = .next t_ → s.Still t_ := by
  unfold execBlockData
  refine State.next_still ?_
  repeat' first
    | with_reducible refine State.ite_still ?_ ?_
    | with_reducible refine State.ite2_still ?_ ?_
    | with_reducible exact State.Still.refl _
    | with_reducible assumption
    | with_reducible apply State.Still.after (State.respond_still _ _ _ _)
    | with_reducible apply State.Still.after (State.serve_still _ _ _ ?_)
    | ((try lift_lets); intro x; refine State.cut_still (x := x) ?_ ?_; (on_goal 1 => unfold x); (on_goal 2 => (clear_value x; intro _)))
    | ((try lift_lets); intro x; refine State.cut_still (x := x.2) ?_ ?_; (on_goal 1 => unfold x); (on_goal 2 => (clear_value x; intro _)))
    | ((try lift_lets); intro x; try clear_value x)
    | intro _
    | split
    | with_reducible fail_if_no_progress apply State.Still.after (State.mk_still _)
    | dsimp only

theorem execBlockAbort_still (msg : BopMsg) (s : State) :
    ∀ t_, execBlockAbort msg s = .next t_ → s.Still t_ := by
  unfold execBlockAbort
  refine State.next_still ?_
  repeat' first
    | with_reducible exact State.Still.refl _
    | with_reducible assumption
    | with_reducible apply State.Still.after (State.respond_still _ _ _ _)
    | with_reducible apply State.Still.after (State.serve_still _ _ _ ?_)
    | ((try lift_lets); intro x; refine State.cut_still (x := x) ?_ ?_; (on_goal 1 => unfold x); (on_goal 2 => (clear_value x; intro _)))
    | ((try lift_lets); intro x; refine State.cut_still (x := x.2) ?_ ?_; (on_goal 1 => unfold x); (on_goal 2 => (clear_value x; intro _)))
    | ((try lift_lets); intro x; try clear_value x)
    | intro _
    | split
    | with_reducible fail_if_no_progress apply State.Still.after (State.mk_still _)
    | dsimp only

theorem answerNow_still (w : Writer) {s : State} {a : Ans} (h : s.Still a.2) : s.Still (answerNow w a) := by
  unfold answerNow
  split
  · exact State.Still.after (State.respond_still _ _ _ _) h
  · exact h

theorem answerNow_steady (w : Writer) {s : State} {a : Ans} (h : s.Steady a.2) : s.Steady (answerNow w a) := by
  unfold answerNow
  split
  · exact State.Steady.after (State.respond_still _ _ _ _).steady h
  · exact h

theorem answerNow_keeps (w : Writer) {s : State} {a : Ans} (h : s.Keeps a.2) : s.Keeps (answerNow w a) := by
  unfold answerNow
  split
  · exact State.Keeps.after (State.respond_still _ _ _ _).keeps h
  · exact h

theorem answerNow_fixed (w : Writer) {s : State} {a : Ans} (h : s.Fixed a.2) : s.Fixed (answerNow w a) := by
  unfold answerNow
  split
  · exact State.Fixed.after (State.respond_still _ _ _ _).fixed h
  · exact h


/-- The state that an arrival leaves. -/
def Arrival.state : Arrival → State
  | .dealt s => s
  | .go _ _ s => s


theorem State.arriveObject_still (s : State) (w : Writer) (idx sub : Nat) (v : Bytes) :
    s.Still (s.arriveObject w idx sub v).state := by
  unfold State.arriveObject
  dsimp only
  generalize (if w.rom then Status.ok else s.writeCheck w.who idx sub v.length) = st
  split
  · exact State.respond_still _ _ _ _
  · exact State.Still.refl _


theorem State.arriveRing_still (s : State) (c : Cmd) (v : Bytes) : s.Still (s.arriveRing c v).state := by
  unfold State.arriveRing
  dsimp only
  split
  · exact State.finish_still _ _ _ _
  · exact State.arriveObject_still _ _ _ _ _


theorem State.arrive_still (s : State) (acc : Access) (own : Nat × Nat → Bytes → Bool) : s.Still (s.arrive acc own).state := by
  unfold State.arrive
  split
  · exact State.Still.refl _
  · split
    · exact State.Still.refl _
    · split
      · split
        · exact State.arriveRing_still _ _ _
        · exact State.Still.refl _
      · rename_i msg _
        have h0 := State.intake_still s msg (fun o => o = 0x11 || o = 0x1A)
        revert h0
        cases s.intake msg (fun o => o = 0x11 || o = 0x1A) with
        | dealt t => exact id
        | go w x t =>
          intro h0
          refine State.Still.after ?_ h0
          dsimp only
          repeat' first
            | split
            | exact State.arriveObject_still _ _ _ _ _
            | exact State.respond_still _ _ _ _
            | exact State.Still.after (State.arriveObject_still _ _ _ _ _) (State.mk_still _)


/-- A write access keeps what the object's own rule keeps. -/
theorem State.write_still (s : State) (acc : Access) (own : Nat × Nat → Bytes → Bool) {op : Writer → Bytes → State → Ans}
    (h : ∀ (w : Writer) (v : Bytes) (t : State), t.Still (op w v t).2) : s.Still (s.write acc own op) := by
  unfold State.write
  have h0 := State.arrive_still s acc own
  revert h0
  cases s.arrive acc own with
  | dealt t => exact fun h0 => h0
  | go w v t => exact fun h0 => State.Still.trans h0 (answerNow_still w (h w v t))

/-- A write access keeps what the object's own rule keeps. -/
theorem State.write_steady (s : State) (acc : Access) (own : Nat × Nat → Bytes → Bool) {op : Writer → Bytes → State → Ans}
    (h : ∀ (w : Writer) (v : Bytes) (t : State), t.Steady (op w v t).2) : s.Steady (s.write acc own op) := by
  unfold State.write
  have h0 := State.arrive_still s acc own
  revert h0
  cases s.arrive acc own with
  | dealt t => exact fun h0 => h0.steady
  | go w v t => exact fun h0 => State.Steady.trans h0.steady (answerNow_steady w (h w v t))

/-- A write access keeps what the object's own rule keeps. -/
theorem State.write_fixed (s : State) (acc : Access) (own : Nat × Nat → Bytes → Bool) {op : Writer → Bytes → State → Ans}
    (h : ∀ (w : Writer) (v : Bytes) (t : State), t.Fixed (op w v t).2) : s.Fixed (s.write acc own op) := by
  unfold State.write
  have h0 := State.arrive_still s acc own
  revert h0
  cases s.arrive acc own with
  | dealt t => exact fun h0 => h0.fixed
  | go w v t => exact fun h0 => State.Fixed.trans h0.fixed (answerNow_fixed w (h w v t))

/-- A write access keeps what the object's own rule keeps. -/
theorem State.write_keeps (s : State) (acc : Access) (own : Nat × Nat → Bytes → Bool) {op : Writer → Bytes → State → Ans}
    (h : ∀ (w : Writer) (v : Bytes) (t : State), t.Keeps (op w v t).2) : s.Keeps (s.write acc own op) := by
  unfold State.write
  have h0 := State.arrive_still s acc own
  revert h0
  cases s.arrive acc own with
  | dealt t => exact fun h0 => h0.keeps
  | go w v t => exact fun h0 => State.Keeps.trans h0.keeps (answerNow_keeps w (h w v t))


theorem numOp_still {op : Writer → Nat → State → Ans} (h : ∀ (w : Writer) (v : Nat) (t : State), t.Still (op w v t).2) (w : Writer) (v : Bytes) (s : State) :
    s.Still (numOp op w v s).2 := h w (leNat v) s

theorem numOp_steady {op : Writer → Nat → State → Ans} (h : ∀ (w : Writer) (v : Nat) (t : State), t.Steady (op w v t).2) (w : Writer) (v : Bytes) (s : State) :
    s.Steady (numOp op w v s).2 := h w (leNat v) s

theorem numOp_keeps {op : Writer → Nat → State → Ans} (h : ∀ (w : Writer) (v : Nat) (t : State), t.Keeps (op w v t).2) (w : Writer) (v : Bytes) (s : State) :
    s.Keeps (numOp op w v s).2 := h w (leNat v) s

theorem numOp_fixed {op : Writer → Nat → State → Ans} (h : ∀ (w : Writer) (v : Nat) (t : State), t.Fixed (op w v t).2) (w : Writer) (v : Bytes) (s : State) :
    s.Fixed (numOp op w v s).2 := h w (leNat v) s


end Sys2Proof.Machine
end

