-- ==== Sys2Proof/Laws/KeepVault.lean ====
section
/-!
SUPPORT. What the operations and meanings of Machine/Vault.lean keep of a state.
-/
set_option linter.unusedVariables false
set_option linter.unreachableTactic false
set_option linter.unusedTactic false
namespace Sys2Proof.Machine

theorem execRefreshInterval_still (stand : StandNo) (vault : VaultNo) (s : State) :
    ∀ t_, execRefreshInterval stand vault s = .next t_ → s.Still t_ := by
  unfold execRefreshInterval
  refine State.next_still ?_
  repeat' first
    | with_reducible refine State.ite_still ?_ ?_
    | with_reducible refine State.ite2_still ?_ ?_
    | with_reducible exact State.Still.refl _
    | with_reducible assumption
    | with_reducible apply State.Still.after (State.put_still _ _ _)
    | with_reducible apply State.Still.after (State.setVault_still _ _ _)
    | ((try lift_lets); intro x; refine State.cut_still (x := x) ?_ ?_; (on_goal 1 => unfold x); (on_goal 2 => (clear_value x; intro _)))
    | ((try lift_lets); intro x; refine State.cut_still (x := x.2) ?_ ?_; (on_goal 1 => unfold x); (on_goal 2 => (clear_value x; intro _)))
    | ((try lift_lets); intro x; try clear_value x)
    | intro _
    | split
    | with_reducible fail_if_no_progress apply State.Still.after (State.mk_still _)
    | dsimp only

theorem execForcedRefresh_still (stand : StandNo) (vault : VaultNo) (s : State) :
    ∀ t_, execForcedRefresh stand vault s = .next t_ → s.Still t_ := by
  unfold execForcedRefresh
  refine State.next_still ?_
  repeat' first
    | with_reducible refine State.ite_still ?_ ?_
    | with_reducible refine State.ite2_still ?_ ?_
    | with_reducible exact State.Still.refl _
    | with_reducible assumption
    | with_reducible apply State.Still.after (State.bump_still _ _ _)
    | with_reducible apply State.Still.after (State.setVault_still _ _ _)
    | ((try lift_lets); intro x; refine State.cut_still (x := x) ?_ ?_; (on_goal 1 => unfold x); (on_goal 2 => (clear_value x; intro _)))
    | ((try lift_lets); intro x; refine State.cut_still (x := x.2) ?_ ?_; (on_goal 1 => unfold x); (on_goal 2 => (clear_value x; intro _)))
    | ((try lift_lets); intro x; try clear_value x)
    | intro _
    | split
    | with_reducible fail_if_no_progress apply State.Still.after (State.mk_still _)
    | dsimp only

theorem execSliceRefresh_still (stand : StandNo) (vault : VaultNo) (s : State) :
    ∀ t_, execSliceRefresh stand vault s = .next t_ → s.Still t_ := by
  unfold execSliceRefresh
  refine State.next_still ?_
  repeat' first
    | with_reducible refine State.ite_still ?_ ?_
    | with_reducible refine State.ite2_still ?_ ?_
    | with_reducible exact State.Still.refl _
    | with_reducible assumption
    | with_reducible apply State.Still.after (State.setVault_still _ _ _)
    | ((try lift_lets); intro x; refine State.cut_still (x := x) ?_ ?_; (on_goal 1 => unfold x); (on_goal 2 => (clear_value x; intro _)))
    | ((try lift_lets); intro x; refine State.cut_still (x := x.2) ?_ ?_; (on_goal 1 => unfold x); (on_goal 2 => (clear_value x; intro _)))
    | ((try lift_lets); intro x; try clear_value x)
    | intro _
    | split
    | with_reducible fail_if_no_progress apply State.Still.after (State.mk_still _)
    | dsimp only

theorem State.setHot_still (s : State) (n : Nat) (hot : Bool) :
    s.Still (State.setHot s n hot) := by
  unfold State.setHot
  repeat' first
    | with_reducible refine State.ite_still ?_ ?_
    | with_reducible refine State.ite2_still ?_ ?_
    | with_reducible exact State.Still.refl _
    | with_reducible assumption
    | with_reducible apply State.Still.after (State.put_still _ _ _)
    | with_reducible apply State.Still.after (State.occur_still _ _ _ _)
    | with_reducible apply State.Still.after (State.setStand_still _ _ _)
    | intro _
    | split
    | with_reducible fail_if_no_progress apply State.Still.after (State.mk_still _)
    | dsimp only

theorem State.checkStale_still (s : State) (n : Nat) :
    s.Still (State.checkStale s n) := by
  unfold State.checkStale
  repeat' first
    | with_reducible refine State.ite_still ?_ ?_
    | with_reducible refine State.ite2_still ?_ ?_
    | with_reducible exact State.Still.refl _
    | with_reducible assumption
    | with_reducible apply State.Still.after (State.put_still _ _ _)
    | with_reducible apply State.Still.after (State.logError_still _ _)
    | intro _
    | split
    | dsimp only

theorem execTemperatureReading_still (stand : StandNo) (readings : List Nat) (s : State) :
    ∀ t_, execTemperatureReading stand readings s = .next t_ → s.Still t_ := by
  unfold execTemperatureReading
  refine State.next_still ?_
  repeat' first
    | with_reducible refine State.ite_still ?_ ?_
    | with_reducible refine State.ite2_still ?_ ?_
    | with_reducible exact State.Still.refl _
    | with_reducible assumption
    | with_reducible apply State.Still.after (State.put_still _ _ _)
    | with_reducible apply State.Still.after (State.setStand_still _ _ _)
    | with_reducible apply State.Still.after (State.setHot_still _ _ _)
    | with_reducible apply State.Still.after (State.checkStale_still _ _)
    | with_reducible apply State.Still.after (State.foldl_still ?_ _ _)
    | with_reducible apply State.Still.after (State.foldl2_still ?_ _ _)
    | ((try lift_lets); intro x; refine State.cut_still (x := x) ?_ ?_; (on_goal 1 => unfold x); (on_goal 2 => (clear_value x; intro _)))
    | ((try lift_lets); intro x; refine State.cut_still (x := x.2) ?_ ?_; (on_goal 1 => unfold x); (on_goal 2 => (clear_value x; intro _)))
    | ((try lift_lets); intro x; try clear_value x)
    | intro _
    | split
    | with_reducible fail_if_no_progress apply State.Still.after (State.mk_still _)
    | dsimp only

theorem execSensorTimeout_still (stand : StandNo) (s : State) :
    ∀ t_, execSensorTimeout stand s = .next t_ → s.Still t_ := by
  unfold execSensorTimeout
  refine State.next_still ?_
  repeat' first
    | with_reducible refine State.ite_still ?_ ?_
    | with_reducible refine State.ite2_still ?_ ?_
    | with_reducible exact State.Still.refl _
    | with_reducible assumption
    | with_reducible apply State.Still.after (State.setHot_still _ _ _)
    | ((try lift_lets); intro x; refine State.cut_still (x := x) ?_ ?_; (on_goal 1 => unfold x); (on_goal 2 => (clear_value x; intro _)))
    | ((try lift_lets); intro x; refine State.cut_still (x := x.2) ?_ ?_; (on_goal 1 => unfold x); (on_goal 2 => (clear_value x; intro _)))
    | ((try lift_lets); intro x; try clear_value x)
    | intro _
    | split
    | dsimp only

theorem execScrubAccess_still (stand : StandNo) (vault : VaultNo) (s : State) :
    ∀ t_, execScrubAccess stand vault s = .next t_ → s.Still t_ := by
  unfold execScrubAccess
  refine State.next_still ?_
  repeat' first
    | with_reducible refine State.ite_still ?_ ?_
    | with_reducible refine State.ite2_still ?_ ?_
    | with_reducible exact State.Still.refl _
    | with_reducible assumption
    | with_reducible apply State.Still.after (State.put_still _ _ _)
    | with_reducible apply State.Still.after (State.setVault_still _ _ _)
    | with_reducible apply State.Still.after (State.vaultRead_still _ _ _ _)
    | with_reducible apply State.Still.after (State.pair_still (State.vaultRead_still _ _ _ _) (by assumption))
    | ((try lift_lets); intro x; refine State.cut_still (x := x) ?_ ?_; (on_goal 1 => unfold x); (on_goal 2 => (clear_value x; intro _)))
    | ((try lift_lets); intro x; refine State.cut_still (x := x.2) ?_ ?_; (on_goal 1 => unfold x); (on_goal 2 => (clear_value x; intro _)))
    | ((try lift_lets); intro x; try clear_value x)
    | intro _
    | split
    | with_reducible fail_if_no_progress apply State.Still.after (State.mk_still _)
    | dsimp only

theorem execWriteBack_steady (stand : StandNo) (vault : VaultNo) (s : State) :
    ∀ t_, execWriteBack stand vault s = .next t_ → s.Steady t_ := by
  unfold execWriteBack
  refine State.next_steady ?_
  repeat' first
    | with_reducible refine State.ite_steady ?_ ?_
    | with_reducible refine State.ite2_steady ?_ ?_
    | with_reducible exact State.Steady.refl _
    | with_reducible assumption
    | with_reducible apply State.Steady.after ((State.setVault_still _ _ _).steady)
    | with_reducible apply State.Steady.after (State.poke_steady _ _ _)
    | ((try lift_lets); intro x; refine State.cut_steady (x := x) ?_ ?_; (on_goal 1 => unfold x); (on_goal 2 => (clear_value x; intro _)))
    | ((try lift_lets); intro x; refine State.cut_steady (x := x.2) ?_ ?_; (on_goal 1 => unfold x); (on_goal 2 => (clear_value x; intro _)))
    | ((try lift_lets); intro x; try clear_value x)
    | intro _
    | split
    | with_reducible fail_if_no_progress apply State.Steady.after ((State.mk_still _).steady)
    | dsimp only

theorem State.startRepair_still (s : State) (unit pos : Nat) :
    s.Still (State.startRepair s unit pos) := by
  unfold State.startRepair
  repeat' first
    | with_reducible exact State.Still.refl _
    | with_reducible assumption
    | with_reducible apply State.Still.after (State.put_still _ _ _)
    | intro _
    | split
    | with_reducible fail_if_no_progress apply State.Still.after (State.mk_still _)
    | dsimp only

theorem execRepairPassStart_still (stand : StandNo) (vault : VaultNo) (slice : SliceNo) (s : State) :
    ∀ t_, execRepairPassStart stand vault slice s = .next t_ → s.Still t_ := by
  unfold execRepairPassStart
  refine State.next_still ?_
  repeat' first
    | with_reducible refine State.ite_still ?_ ?_
    | with_reducible refine State.ite2_still ?_ ?_
    | with_reducible exact State.Still.refl _
    | with_reducible assumption
    | with_reducible apply State.Still.after (State.startRepair_still _ _ _)
    | ((try lift_lets); intro x; refine State.cut_still (x := x) ?_ ?_; (on_goal 1 => unfold x); (on_goal 2 => (clear_value x; intro _)))
    | ((try lift_lets); intro x; refine State.cut_still (x := x.2) ?_ ?_; (on_goal 1 => unfold x); (on_goal 2 => (clear_value x; intro _)))
    | ((try lift_lets); intro x; try clear_value x)
    | intro _
    | split
    | with_reducible fail_if_no_progress apply State.Still.after (State.mk_still _)
    | dsimp only

theorem State.steer_steady (s : State) (da : Nat) :
    s.Steady (State.steer s da) := by
  unfold State.steer
  repeat' first
    | with_reducible refine State.ite_steady ?_ ?_
    | with_reducible refine State.ite2_steady ?_ ?_
    | with_reducible exact State.Steady.refl _
    | with_reducible assumption
    | with_reducible apply State.Steady.after (State.poke_steady _ _ _)
    | with_reducible apply State.Steady.after ((State.readWord_still _ _ _).steady)
    | with_reducible apply State.Steady.after (State.pair_steady ((State.readWord_still _ _ _).steady) (by assumption))
    | with_reducible apply State.Steady.after ((State.freshen_still _ _ _).steady)
    | with_reducible apply State.Steady.after (State.foldl_steady ?_ _ _)
    | with_reducible apply State.Steady.after (State.foldl2_steady ?_ _ _)
    | ((try lift_lets); intro x; refine State.cut_steady (x := x) ?_ ?_; (on_goal 1 => unfold x); (on_goal 2 => (clear_value x; intro _)))
    | ((try lift_lets); intro x; refine State.cut_steady (x := x.2) ?_ ?_; (on_goal 1 => unfold x); (on_goal 2 => (clear_value x; intro _)))
    | ((try lift_lets); intro x; try clear_value x)
    | intro _
    | split
    | dsimp only

theorem State.activateRepair_still (s : State) (r : RepairPass) :
    s.Still (State.activateRepair s r) := by
  unfold State.activateRepair
  repeat' first
    | with_reducible exact State.Still.refl _
    | with_reducible assumption
    | with_reducible apply State.Still.after (State.put_still _ _ _)
    | with_reducible apply State.Still.after (State.logError_still _ _)
    | ((try lift_lets); intro x; refine State.cut_still (x := x) ?_ ?_; (on_goal 1 => unfold x); (on_goal 2 => (clear_value x; intro _)))
    | ((try lift_lets); intro x; refine State.cut_still (x := x.2) ?_ ?_; (on_goal 1 => unfold x); (on_goal 2 => (clear_value x; intro _)))
    | ((try lift_lets); intro x; try clear_value x)
    | intro _
    | split
    | with_reducible fail_if_no_progress apply State.Still.after (State.mk_still _)
    | dsimp only

theorem State.nextRepair_still (s : State) :
    s.Still (State.nextRepair s) := by
  unfold State.nextRepair
  repeat' first
    | with_reducible exact State.Still.refl _
    | with_reducible assumption
    | with_reducible apply State.Still.after (State.startRepair_still _ _ _)
    | intro _
    | split
    | with_reducible fail_if_no_progress apply State.Still.after (State.mk_still _)
    | dsimp only

theorem execRepairPassStep_steady (s : State) :
    ∀ t_, execRepairPassStep s = .next t_ → s.Steady t_ := by
  unfold execRepairPassStep
  refine State.next_steady ?_
  repeat' first
    | with_reducible refine State.ite_steady ?_ ?_
    | with_reducible refine State.ite2_steady ?_ ?_
    | with_reducible exact State.Steady.refl _
    | with_reducible assumption
    | with_reducible apply State.Steady.after (State.steer_steady _ _)
    | with_reducible apply State.Steady.after ((State.activateRepair_still _ _).steady)
    | with_reducible apply State.Steady.after ((State.nextRepair_still _).steady)
    | ((try lift_lets); intro x; refine State.cut_steady (x := x) ?_ ?_; (on_goal 1 => unfold x); (on_goal 2 => (clear_value x; intro _)))
    | ((try lift_lets); intro x; refine State.cut_steady (x := x.2) ?_ ?_; (on_goal 1 => unfold x); (on_goal 2 => (clear_value x; intro _)))
    | ((try lift_lets); intro x; try clear_value x)
    | intro _
    | split
    | with_reducible fail_if_no_progress apply State.Steady.after ((State.mk_still _).steady)
    | dsimp only

theorem execCounterSample_still (s : State) :
    ∀ t_, execCounterSample s = .next t_ → s.Still t_ := by
  unfold execCounterSample
  refine State.next_still ?_
  repeat' first
    | with_reducible refine State.ite_still ?_ ?_
    | with_reducible refine State.ite2_still ?_ ?_
    | with_reducible exact State.Still.refl _
    | with_reducible assumption
    | intro _
    | split
    | with_reducible fail_if_no_progress apply State.Still.after (State.mk_still _)
    | dsimp only

theorem State.calibrated_still (s : State) (n : Nat) :
    s.Still (State.calibrated s n) := by
  unfold State.calibrated
  repeat' first
    | with_reducible exact State.Still.refl _
    | with_reducible assumption
    | with_reducible apply State.Still.after (State.put_still _ _ _)
    | with_reducible apply State.Still.after (State.setStand_still _ _ _)
    | intro _
    | split
    | with_reducible fail_if_no_progress apply State.Still.after (State.mk_still _)
    | dsimp only

theorem execMaintAnnounce_still (stand : StandNo) (lead : Nat) (s : State) :
    ∀ t_, execMaintAnnounce stand lead s = .next t_ → s.Still t_ := by
  unfold execMaintAnnounce
  refine State.next_still ?_
  repeat' first
    | with_reducible refine State.ite_still ?_ ?_
    | with_reducible refine State.ite2_still ?_ ?_
    | with_reducible exact State.Still.refl _
    | with_reducible assumption
    | with_reducible apply State.Still.after (State.put_still _ _ _)
    | with_reducible apply State.Still.after (State.occur_still _ _ _ _)
    | with_reducible apply State.Still.after (State.portEvent_still _ _ _)
    | with_reducible apply State.Still.after (State.foldl_still ?_ _ _)
    | with_reducible apply State.Still.after (State.foldl2_still ?_ _ _)
    | ((try lift_lets); intro x; refine State.cut_still (x := x) ?_ ?_; (on_goal 1 => unfold x); (on_goal 2 => (clear_value x; intro _)))
    | ((try lift_lets); intro x; refine State.cut_still (x := x.2) ?_ ?_; (on_goal 1 => unfold x); (on_goal 2 => (clear_value x; intro _)))
    | ((try lift_lets); intro x; try clear_value x)
    | intro _
    | split
    | dsimp only

theorem State.noteMaint_still (s : State) (scope : Nat) :
    s.Still (State.noteMaint s scope) := by
  unfold State.noteMaint
  repeat' first
    | with_reducible refine State.ite_still ?_ ?_
    | with_reducible refine State.ite2_still ?_ ?_
    | with_reducible exact State.Still.refl _
    | with_reducible assumption
    | with_reducible apply State.Still.after (State.noteBreak_still _ _ _)
    | with_reducible apply State.Still.after (State.foldl_still ?_ _ _)
    | with_reducible apply State.Still.after (State.foldl2_still ?_ _ _)
    | intro _
    | split
    | dsimp only

theorem execMaintPeriod_still (s : State) :
    ∀ t_, execMaintPeriod s = .next t_ → s.Still t_ := by
  unfold execMaintPeriod
  refine State.next_still ?_
  repeat' first
    | with_reducible refine State.ite_still ?_ ?_
    | with_reducible refine State.ite2_still ?_ ?_
    | with_reducible exact State.Still.refl _
    | with_reducible assumption
    | with_reducible apply State.Still.after (State.put_still _ _ _)
    | with_reducible apply State.Still.after (State.noteMaint_still _ _)
    | ((try lift_lets); intro x; refine State.cut_still (x := x) ?_ ?_; (on_goal 1 => unfold x); (on_goal 2 => (clear_value x; intro _)))
    | ((try lift_lets); intro x; refine State.cut_still (x := x.2) ?_ ?_; (on_goal 1 => unfold x); (on_goal 2 => (clear_value x; intro _)))
    | ((try lift_lets); intro x; try clear_value x)
    | intro _
    | split
    | with_reducible fail_if_no_progress apply State.Still.after (State.mk_still _)
    | dsimp only

theorem State.stepMaint_still (s : State) :
    s.Still (State.stepMaint s) := by
  unfold State.stepMaint
  repeat' first
    | with_reducible refine State.ite_still ?_ ?_
    | with_reducible refine State.ite2_still ?_ ?_
    | with_reducible exact State.Still.refl _
    | with_reducible assumption
    | with_reducible apply State.Still.after (State.bump_still _ _ _)
    | with_reducible apply State.Still.after (State.settle_still _ _ _)
    | with_reducible apply State.Still.after (State.calibrated_still _ _)
    | with_reducible apply State.Still.after (State.noteMaint_still _ _)
    | with_reducible apply State.Still.after (State.foldl_still ?_ _ _)
    | with_reducible apply State.Still.after (State.foldl2_still ?_ _ _)
    | ((try lift_lets); intro x; refine State.cut_still (x := x) ?_ ?_; (on_goal 1 => unfold x); (on_goal 2 => (clear_value x; intro _)))
    | ((try lift_lets); intro x; refine State.cut_still (x := x.2) ?_ ?_; (on_goal 1 => unfold x); (on_goal 2 => (clear_value x; intro _)))
    | ((try lift_lets); intro x; try clear_value x)
    | intro _
    | split
    | with_reducible fail_if_no_progress apply State.Still.after (State.mk_still _)
    | dsimp only

theorem execWipeComplete_still (s : State) :
    ∀ t_, execWipeComplete s = .next t_ → s.Still t_ := by
  unfold execWipeComplete
  refine State.next_still ?_
  repeat' first
    | with_reducible refine State.ite_still ?_ ?_
    | with_reducible refine State.ite2_still ?_ ?_
    | with_reducible exact State.Still.refl _
    | with_reducible assumption
    | with_reducible apply State.Still.after (State.put_still _ _ _)
    | with_reducible apply State.Still.after (State.bump_still _ _ _)
    | with_reducible apply State.Still.after (State.calibrated_still _ _)
    | with_reducible apply State.Still.after (State.foldl_still ?_ _ _)
    | with_reducible apply State.Still.after (State.foldl2_still ?_ _ _)
    | ((try lift_lets); intro x; refine State.cut_still (x := x) ?_ ?_; (on_goal 1 => unfold x); (on_goal 2 => (clear_value x; intro _)))
    | ((try lift_lets); intro x; refine State.cut_still (x := x.2) ?_ ?_; (on_goal 1 => unfold x); (on_goal 2 => (clear_value x; intro _)))
    | ((try lift_lets); intro x; try clear_value x)
    | intro _
    | split
    | with_reducible fail_if_no_progress apply State.Still.after (State.mk_still _)
    | dsimp only

theorem execFlitFailure_still (stand : StandNo) (up : Bool) (s : State) :
    ∀ t_, execFlitFailure stand up s = .next t_ → s.Still t_ := by
  unfold execFlitFailure
  refine State.next_still ?_
  repeat' first
    | with_reducible refine State.ite_still ?_ ?_
    | with_reducible refine State.ite2_still ?_ ?_
    | with_reducible exact State.Still.refl _
    | with_reducible assumption
    | with_reducible apply State.Still.after (State.free_still _)
    | with_reducible apply State.Still.after (State.pair_still (State.free_still _) (by assumption))
    | with_reducible apply State.Still.after (State.noteBreak_still _ _ _)
    | with_reducible apply State.Still.after (State.setStand_still _ _ _)
    | ((try lift_lets); intro x; refine State.cut_still (x := x) ?_ ?_; (on_goal 1 => unfold x); (on_goal 2 => (clear_value x; intro _)))
    | ((try lift_lets); intro x; refine State.cut_still (x := x.2) ?_ ?_; (on_goal 1 => unfold x); (on_goal 2 => (clear_value x; intro _)))
    | ((try lift_lets); intro x; try clear_value x)
    | intro _
    | split
    | dsimp only

theorem State.cutItem_still (s : State) (f q : Nat) :
    s.Still (State.cutItem s f q) := by
  unfold State.cutItem
  repeat' first
    | with_reducible refine State.ite_still ?_ ?_
    | with_reducible refine State.ite2_still ?_ ?_
    | with_reducible exact State.Still.refl _
    | with_reducible assumption
    | with_reducible apply State.Still.after (State.setCmd_still _ _)
    | with_reducible apply State.Still.after (State.setFlow_still _ _ _ _)
    | ((try lift_lets); intro x; refine State.cut_still (x := x) ?_ ?_; (on_goal 1 => unfold x); (on_goal 2 => (clear_value x; intro _)))
    | ((try lift_lets); intro x; refine State.cut_still (x := x.2) ?_ ?_; (on_goal 1 => unfold x); (on_goal 2 => (clear_value x; intro _)))
    | ((try lift_lets); intro x; try clear_value x)
    | intro _
    | split
    | with_reducible fail_if_no_progress apply State.Still.after (State.mk_still _)
    | dsimp only

theorem execLinkRetrain_still (stand : StandNo) (up : Bool) (s : State) :
    ∀ t_, execLinkRetrain stand up s = .next t_ → s.Still t_ := by
  unfold execLinkRetrain
  refine State.next_still ?_
  repeat' first
    | with_reducible refine State.ite_still ?_ ?_
    | with_reducible refine State.ite2_still ?_ ?_
    | with_reducible exact State.Still.refl _
    | with_reducible assumption
    | with_reducible apply State.Still.after (State.bump_still _ _ _)
    | with_reducible apply State.Still.after (State.noteBreak_still _ _ _)
    | with_reducible apply State.Still.after (State.setStand_still _ _ _)
    | with_reducible apply State.Still.after (State.cutItem_still _ _ _)
    | with_reducible apply State.Still.after (State.foldl_still ?_ _ _)
    | with_reducible apply State.Still.after (State.foldl2_still ?_ _ _)
    | ((try lift_lets); intro x; refine State.cut_still (x := x) ?_ ?_; (on_goal 1 => unfold x); (on_goal 2 => (clear_value x; intro _)))
    | ((try lift_lets); intro x; refine State.cut_still (x := x.2) ?_ ?_; (on_goal 1 => unfold x); (on_goal 2 => (clear_value x; intro _)))
    | ((try lift_lets); intro x; try clear_value x)
    | intro _
    | split
    | with_reducible fail_if_no_progress apply State.Still.after (State.mk_still _)
    | dsimp only

theorem State.stepRetrains_still (s : State) :
    s.Still (State.stepRetrains s) := by
  unfold State.stepRetrains
  repeat' first
    | with_reducible exact State.Still.refl _
    | with_reducible assumption
    | with_reducible apply State.Still.after (State.noteBreak_still _ _ _)
    | with_reducible apply State.Still.after (State.foldl_still ?_ _ _)
    | with_reducible apply State.Still.after (State.foldl2_still ?_ _ _)
    | intro _
    | split
    | dsimp only

theorem execRetrainDone_still (stand : StandNo) (s : State) :
    ∀ t_, execRetrainDone stand s = .next t_ → s.Still t_ := by
  unfold execRetrainDone
  refine State.next_still ?_
  repeat' first
    | with_reducible exact State.Still.refl _
    | with_reducible assumption
    | with_reducible apply State.Still.after (State.setStand_still _ _ _)
    | intro _
    | split
    | with_reducible fail_if_no_progress apply State.Still.after (State.mk_still _)
    | dsimp only

end Sys2Proof.Machine
end

