-- ==== Sys2Proof/Laws/KeepNet.lean ====
section
/-!
SUPPORT. What the operations and meanings of Machine/Net.lean keep of a state.
-/
set_option linter.unusedVariables false
set_option linter.unreachableTactic false
set_option linter.unusedTactic false
namespace Sys2Proof.Machine

theorem State.setPortState_still (s : State) (n v : Nat) :
    s.Still (State.setPortState s n v) := by
  unfold State.setPortState
  repeat' first
    | with_reducible refine State.ite_still ?_ ?_
    | with_reducible refine State.ite2_still ?_ ?_
    | with_reducible exact State.Still.refl _
    | with_reducible assumption
    | with_reducible apply State.Still.after (State.put_still _ _ _)
    | with_reducible apply State.Still.after (State.occur_still _ _ _ _)
    | intro _
    | split
    | dsimp only

theorem State.loseLinks_still (s : State) (n : Nat) :
    s.Still (State.loseLinks s n) := by
  unfold State.loseLinks
  repeat' first
    | with_reducible exact State.Still.refl _
    | with_reducible assumption
    | with_reducible apply State.Still.after (State.put_still _ _ _)
    | with_reducible apply State.Still.after (State.noteBreak_still _ _ _)
    | with_reducible apply State.Still.after (State.foldl_still ?_ _ _)
    | with_reducible apply State.Still.after (State.foldl2_still ?_ _ _)
    | intro _
    | split
    | dsimp only

theorem State.releasePins_still (s : State) (n : Nat) :
    s.Still (State.releasePins s n) := by
  unfold State.releasePins
  repeat' first
    | with_reducible refine State.ite_still ?_ ?_
    | with_reducible refine State.ite2_still ?_ ?_
    | with_reducible exact State.Still.refl _
    | with_reducible assumption
    | with_reducible apply State.Still.after (State.put_still _ _ _)
    | intro _
    | split
    | dsimp only

theorem State.cage_still (s : State) (n : Nat) (resetLow lpModeHigh : Bool) :
    s.Still (State.cage s n resetLow lpModeHigh) := by
  unfold State.cage
  repeat' first
    | with_reducible exact State.Still.refl _
    | with_reducible assumption
    | with_reducible apply State.Still.after (State.emit_still _ _)
    | with_reducible apply State.Still.after (State.setNet_still _ _ _)
    | intro _
    | split
    | with_reducible fail_if_no_progress apply State.Still.after (State.mk_still _)
    | dsimp only

theorem State.enableFails_still (s : State) (n state : Nat) :
    s.Still (State.enableFails s n state) := by
  unfold State.enableFails
  repeat' first
    | with_reducible exact State.Still.refl _
    | with_reducible assumption
    | with_reducible apply State.Still.after (State.put_still _ _ _)
    | with_reducible apply State.Still.after (State.setPortState_still _ _ _)
    | with_reducible apply State.Still.after (State.releasePins_still _ _)
    | with_reducible apply State.Still.after (State.cage_still _ _ _ _)
    | intro _
    | split
    | dsimp only

theorem State.enablePort_still (s : State) (n : Nat) (m : ModuleScript) :
    s.Still (State.enablePort s n m).2 := by
  unfold State.enablePort
  repeat' first
    | with_reducible refine State.ite_still ?_ ?_
    | with_reducible refine State.ite2_still ?_ ?_
    | with_reducible exact State.Still.refl _
    | with_reducible assumption
    | with_reducible apply State.Still.after (State.put_still _ _ _)
    | with_reducible apply State.Still.after (State.bump_still _ _ _)
    | with_reducible apply State.Still.after (State.dput_still _ _ _)
    | with_reducible apply State.Still.after (State.emit_still _ _)
    | with_reducible apply State.Still.after (State.setNet_still _ _ _)
    | with_reducible apply State.Still.after (State.setPortState_still _ _ _)
    | with_reducible apply State.Still.after (State.cage_still _ _ _ _)
    | with_reducible apply State.Still.after (State.enableFails_still _ _ _)
    | with_reducible apply State.Still.after (State.foldl_still ?_ _ _)
    | with_reducible apply State.Still.after (State.foldl2_still ?_ _ _)
    | ((try lift_lets); intro x; refine State.cut_still (x := x) ?_ ?_; (on_goal 1 => unfold x); (on_goal 2 => (clear_value x; intro _)))
    | ((try lift_lets); intro x; refine State.cut_still (x := x.2) ?_ ?_; (on_goal 1 => unfold x); (on_goal 2 => (clear_value x; intro _)))
    | ((try lift_lets); intro x; try clear_value x)
    | intro _
    | split
    | with_reducible fail_if_no_progress apply State.Still.after (State.mk_still _)
    | dsimp only

theorem State.restorePort_still (s : State) (n : Nat) :
    s.Still (State.restorePort s n).2 := by
  unfold State.restorePort
  repeat' first
    | with_reducible refine State.ite_still ?_ ?_
    | with_reducible refine State.ite2_still ?_ ?_
    | with_reducible exact State.Still.refl _
    | with_reducible assumption
    | with_reducible apply State.Still.after (State.put_still _ _ _)
    | with_reducible apply State.Still.after (State.setNet_still _ _ _)
    | with_reducible apply State.Still.after (State.setPortState_still _ _ _)
    | with_reducible apply State.Still.after (State.cage_still _ _ _ _)
    | with_reducible apply State.Still.after (State.enablePort_still _ _ _)
    | with_reducible apply State.Still.after (State.pair_still (State.enablePort_still _ _ _) (by assumption))
    | ((try lift_lets); intro x; refine State.cut_still (x := x) ?_ ?_; (on_goal 1 => unfold x); (on_goal 2 => (clear_value x; intro _)))
    | ((try lift_lets); intro x; refine State.cut_still (x := x.2) ?_ ?_; (on_goal 1 => unfold x); (on_goal 2 => (clear_value x; intro _)))
    | ((try lift_lets); intro x; try clear_value x)
    | intro _
    | split
    | with_reducible fail_if_no_progress apply State.Still.after (State.mk_still _)
    | dsimp only

theorem execPortEnable_still (acc : Access) (module : ModuleScript) (s : State) :
    ∀ t_, execPortEnable acc module s = .next t_ → s.Still t_ := by
  unfold execPortEnable
  refine State.next_still ?_
  repeat' first
    | with_reducible refine State.ite_still ?_ ?_
    | with_reducible refine State.ite2_still ?_ ?_
    | with_reducible exact State.Still.refl _
    | with_reducible assumption
    | with_reducible apply State.Still.after (State.write_still _ _ _ ?_)
    | with_reducible apply State.Still.after (numOp_still ?_ _ _ _)
    | with_reducible apply State.Still.after (State.enablePort_still _ _ _)
    | with_reducible apply State.Still.after (State.pair_still (State.enablePort_still _ _ _) (by assumption))
    | ((try lift_lets); intro x; refine State.cut_still (x := x) ?_ ?_; (on_goal 1 => unfold x); (on_goal 2 => (clear_value x; intro _)))
    | ((try lift_lets); intro x; refine State.cut_still (x := x.2) ?_ ?_; (on_goal 1 => unfold x); (on_goal 2 => (clear_value x; intro _)))
    | ((try lift_lets); intro x; try clear_value x)
    | intro _
    | split
    | dsimp only

theorem State.disablePort_still (s : State) (n : Nat) :
    s.Still (State.disablePort s n) := by
  unfold State.disablePort
  repeat' first
    | with_reducible exact State.Still.refl _
    | with_reducible assumption
    | with_reducible apply State.Still.after (State.put_still _ _ _)
    | with_reducible apply State.Still.after (State.setPortState_still _ _ _)
    | with_reducible apply State.Still.after (State.loseLinks_still _ _)
    | with_reducible apply State.Still.after (State.releasePins_still _ _)
    | with_reducible apply State.Still.after (State.cage_still _ _ _ _)
    | ((try lift_lets); intro x; refine State.cut_still (x := x) ?_ ?_; (on_goal 1 => unfold x); (on_goal 2 => (clear_value x; intro _)))
    | ((try lift_lets); intro x; refine State.cut_still (x := x.2) ?_ ?_; (on_goal 1 => unfold x); (on_goal 2 => (clear_value x; intro _)))
    | ((try lift_lets); intro x; try clear_value x)
    | intro _
    | split
    | dsimp only

theorem execPortDisable_still (acc : Access) (s : State) :
    ∀ t_, execPortDisable acc s = .next t_ → s.Still t_ := by
  unfold execPortDisable
  refine State.next_still ?_
  repeat' first
    | with_reducible refine State.ite_still ?_ ?_
    | with_reducible refine State.ite2_still ?_ ?_
    | with_reducible exact State.Still.refl _
    | with_reducible assumption
    | with_reducible apply State.Still.after (State.write_still _ _ _ ?_)
    | with_reducible apply State.Still.after (numOp_still ?_ _ _ _)
    | with_reducible apply State.Still.after (State.disablePort_still _ _)
    | ((try lift_lets); intro x; refine State.cut_still (x := x) ?_ ?_; (on_goal 1 => unfold x); (on_goal 2 => (clear_value x; intro _)))
    | ((try lift_lets); intro x; refine State.cut_still (x := x.2) ?_ ?_; (on_goal 1 => unfold x); (on_goal 2 => (clear_value x; intro _)))
    | ((try lift_lets); intro x; try clear_value x)
    | intro _
    | split
    | dsimp only

theorem execLinkUp_still (net : NetNo) (subs : Nat) (s : State) :
    ∀ t_, execLinkUp net subs s = .next t_ → s.Still t_ := by
  unfold execLinkUp
  refine State.next_still ?_
  repeat' first
    | with_reducible refine State.ite_still ?_ ?_
    | with_reducible refine State.ite2_still ?_ ?_
    | with_reducible exact State.Still.refl _
    | with_reducible assumption
    | with_reducible apply State.Still.after (State.put_still _ _ _)
    | with_reducible apply State.Still.after (State.setPortState_still _ _ _)
    | ((try lift_lets); intro x; refine State.cut_still (x := x) ?_ ?_; (on_goal 1 => unfold x); (on_goal 2 => (clear_value x; intro _)))
    | ((try lift_lets); intro x; refine State.cut_still (x := x.2) ?_ ?_; (on_goal 1 => unfold x); (on_goal 2 => (clear_value x; intro _)))
    | ((try lift_lets); intro x; try clear_value x)
    | intro _
    | split
    | dsimp only

theorem execSubportLinkLoss_still (net : NetNo) (sub : SubNo) (s : State) :
    ∀ t_, execSubportLinkLoss net sub s = .next t_ → s.Still t_ := by
  unfold execSubportLinkLoss
  refine State.next_still ?_
  repeat' first
    | with_reducible refine State.ite_still ?_ ?_
    | with_reducible refine State.ite2_still ?_ ?_
    | with_reducible exact State.Still.refl _
    | with_reducible assumption
    | with_reducible apply State.Still.after (State.put_still _ _ _)
    | with_reducible apply State.Still.after (State.noteBreak_still _ _ _)
    | with_reducible apply State.Still.after (State.setPortState_still _ _ _)
    | ((try lift_lets); intro x; refine State.cut_still (x := x) ?_ ?_; (on_goal 1 => unfold x); (on_goal 2 => (clear_value x; intro _)))
    | ((try lift_lets); intro x; refine State.cut_still (x := x.2) ?_ ?_; (on_goal 1 => unfold x); (on_goal 2 => (clear_value x; intro _)))
    | ((try lift_lets); intro x; try clear_value x)
    | intro _
    | split
    | dsimp only

theorem execModuleRemoved_still (net : NetNo) (s : State) :
    ∀ t_, execModuleRemoved net s = .next t_ → s.Still t_ := by
  unfold execModuleRemoved
  refine State.next_still ?_
  repeat' first
    | with_reducible refine State.ite_still ?_ ?_
    | with_reducible refine State.ite2_still ?_ ?_
    | with_reducible exact State.Still.refl _
    | with_reducible assumption
    | with_reducible apply State.Still.after (State.setNet_still _ _ _)
    | with_reducible apply State.Still.after (State.setPortState_still _ _ _)
    | with_reducible apply State.Still.after (State.loseLinks_still _ _)
    | ((try lift_lets); intro x; refine State.cut_still (x := x) ?_ ?_; (on_goal 1 => unfold x); (on_goal 2 => (clear_value x; intro _)))
    | ((try lift_lets); intro x; refine State.cut_still (x := x.2) ?_ ?_; (on_goal 1 => unfold x); (on_goal 2 => (clear_value x; intro _)))
    | ((try lift_lets); intro x; try clear_value x)
    | intro _
    | split
    | with_reducible fail_if_no_progress apply State.Still.after (State.mk_still _)
    | dsimp only

theorem execModulePresent_still (net : NetNo) (module : ModuleScript) (s : State) :
    ∀ t_, execModulePresent net module s = .next t_ → s.Still t_ := by
  unfold execModulePresent
  refine State.next_still ?_
  repeat' first
    | with_reducible refine State.ite_still ?_ ?_
    | with_reducible refine State.ite2_still ?_ ?_
    | with_reducible exact State.Still.refl _
    | with_reducible assumption
    | with_reducible apply State.Still.after (State.setNet_still _ _ _)
    | with_reducible apply State.Still.after (State.enablePort_still _ _ _)
    | with_reducible apply State.Still.after (State.pair_still (State.enablePort_still _ _ _) (by assumption))
    | ((try lift_lets); intro x; refine State.cut_still (x := x) ?_ ?_; (on_goal 1 => unfold x); (on_goal 2 => (clear_value x; intro _)))
    | ((try lift_lets); intro x; refine State.cut_still (x := x.2) ?_ ?_; (on_goal 1 => unfold x); (on_goal 2 => (clear_value x; intro _)))
    | ((try lift_lets); intro x; try clear_value x)
    | intro _
    | split
    | with_reducible fail_if_no_progress apply State.Still.after (State.mk_still _)
    | dsimp only

theorem execModuleFault_still (net : NetNo) (s : State) :
    ∀ t_, execModuleFault net s = .next t_ → s.Still t_ := by
  unfold execModuleFault
  refine State.next_still ?_
  repeat' first
    | with_reducible refine State.ite_still ?_ ?_
    | with_reducible refine State.ite2_still ?_ ?_
    | with_reducible exact State.Still.refl _
    | with_reducible assumption
    | with_reducible apply State.Still.after (State.setPortState_still _ _ _)
    | with_reducible apply State.Still.after (State.loseLinks_still _ _)
    | ((try lift_lets); intro x; refine State.cut_still (x := x) ?_ ?_; (on_goal 1 => unfold x); (on_goal 2 => (clear_value x; intro _)))
    | ((try lift_lets); intro x; refine State.cut_still (x := x.2) ?_ ?_; (on_goal 1 => unfold x); (on_goal 2 => (clear_value x; intro _)))
    | ((try lift_lets); intro x; try clear_value x)
    | intro _
    | split
    | dsimp only

theorem State.netSend_still (s : State) (n sub : Nat) (o : Output) :
    s.Still (State.netSend s n sub o) := by
  unfold State.netSend
  repeat' first
    | with_reducible refine State.ite_still ?_ ?_
    | with_reducible refine State.ite2_still ?_ ?_
    | with_reducible exact State.Still.refl _
    | with_reducible assumption
    | with_reducible apply State.Still.after (State.bump_still _ _ _)
    | with_reducible apply State.Still.after (State.emit_still _ _)
    | intro _
    | split
    | dsimp only

theorem execRxDiscards_still (net : NetNo) (sub : SubNo) (frame : Bytes) (fcsOk : Bool) (s : State) :
    ∀ t_, execRxDiscards net sub frame fcsOk s = .next t_ → s.Still t_ := by
  unfold execRxDiscards
  refine State.next_still ?_
  repeat' first
    | with_reducible refine State.ite_still ?_ ?_
    | with_reducible refine State.ite2_still ?_ ?_
    | with_reducible exact State.Still.refl _
    | with_reducible assumption
    | with_reducible apply State.Still.after (State.bump_still _ _ _)
    | intro _
    | split
    | dsimp only

theorem State.answerFrame_still (s : State) (n sub : Nat) (frame : Bytes) (ethertype : Nat) (payload : Bytes) :
    s.Still (State.answerFrame s n sub frame ethertype payload) := by
  unfold State.answerFrame
  repeat' first
    | with_reducible exact State.Still.refl _
    | with_reducible assumption
    | with_reducible apply State.Still.after (State.bump_still _ _ _)
    | with_reducible apply State.Still.after (State.netSend_still _ _ _ _)
    | ((try lift_lets); intro x; refine State.cut_still (x := x) ?_ ?_; (on_goal 1 => unfold x); (on_goal 2 => (clear_value x; intro _)))
    | ((try lift_lets); intro x; refine State.cut_still (x := x.2) ?_ ?_; (on_goal 1 => unfold x); (on_goal 2 => (clear_value x; intro _)))
    | ((try lift_lets); intro x; try clear_value x)
    | intro _
    | split
    | dsimp only

theorem State.hear_still (s : State) (n sub : Nat) (frame : Bytes) :
    s.Still (State.hear s n sub frame) := by
  unfold State.hear
  repeat' first
    | with_reducible refine State.ite_still ?_ ?_
    | with_reducible refine State.ite2_still ?_ ?_
    | with_reducible exact State.Still.refl _
    | with_reducible assumption
    | with_reducible apply State.Still.after (State.bump_still _ _ _)
    | with_reducible apply State.Still.after (State.answerFrame_still _ _ _ _ _ _)
    | intro _
    | split
    | dsimp only

theorem execArpRequest_still (net : NetNo) (sub : SubNo) (frame : Bytes) (s : State) :
    ∀ t_, execArpRequest net sub frame s = .next t_ → s.Still t_ := by
  unfold execArpRequest
  refine State.next_still ?_
  repeat' first
    | with_reducible exact State.Still.refl _
    | with_reducible assumption
    | with_reducible apply State.Still.after (State.hear_still _ _ _ _)
    | intro _
    | split
    | dsimp only

theorem State.answerM_still (s : State) (frame payload : Bytes) :
    s.Still (State.answerM s frame payload) := by
  unfold State.answerM
  repeat' first
    | with_reducible exact State.Still.refl _
    | with_reducible assumption
    | with_reducible apply State.Still.after (State.mgmtSend_still _ _)
    | intro _
    | split
    | dsimp only

theorem State.hearM_still (s : State) (frame : Bytes) :
    s.Still (State.hearM s frame) := by
  unfold State.hearM
  repeat' first
    | with_reducible refine State.ite_still ?_ ?_
    | with_reducible refine State.ite2_still ?_ ?_
    | with_reducible exact State.Still.refl _
    | with_reducible assumption
    | with_reducible apply State.Still.after (State.bump_still _ _ _)
    | with_reducible apply State.Still.after (State.answerM_still _ _ _)
    | intro _
    | split
    | dsimp only

theorem execNeighborSolicitation_still (path : NdPath) (frame : Bytes) (s : State) :
    ∀ t_, execNeighborSolicitation path frame s = .next t_ → s.Still t_ := by
  unfold execNeighborSolicitation
  refine State.next_still ?_
  repeat' first
    | with_reducible exact State.Still.refl _
    | with_reducible assumption
    | with_reducible apply State.Still.after (State.hear_still _ _ _ _)
    | with_reducible apply State.Still.after (State.hearM_still _ _)
    | intro _
    | split
    | dsimp only

theorem execEchoRequest_still (path : NdPath) (frame : Bytes) (s : State) :
    ∀ t_, execEchoRequest path frame s = .next t_ → s.Still t_ := by
  unfold execEchoRequest
  refine State.next_still ?_
  repeat' first
    | with_reducible exact State.Still.refl _
    | with_reducible assumption
    | with_reducible apply State.Still.after (State.hear_still _ _ _ _)
    | with_reducible apply State.Still.after (State.hearM_still _ _)
    | intro _
    | split
    | dsimp only

end Sys2Proof.Machine
end

