-- ==== Sys2Proof/Laws/KeepRlt.lean ====
section
/-!
SUPPORT. What the operations and meanings of Machine/Rlt.lean keep of a state.
-/
set_option linter.unusedVariables false
set_option linter.unreachableTactic false
set_option linter.unusedTactic false
namespace Sys2Proof.Machine

theorem State.rltIntake_still (s : State) (n sub : Nat) (k : RltPacket) :
    s.Still (State.rltIntake s n sub k).2 := by
  unfold State.rltIntake
  repeat' first
    | with_reducible refine State.ite_still ?_ ?_
    | with_reducible refine State.ite2_still ?_ ?_
    | with_reducible exact State.Still.refl _
    | with_reducible assumption
    | with_reducible apply State.Still.after (State.bump_still _ _ _)
    | ((try lift_lets); intro x; refine State.cut_still (x := x) ?_ ?_; (on_goal 1 => unfold x); (on_goal 2 => (clear_value x; intro _)))
    | ((try lift_lets); intro x; refine State.cut_still (x := x.2) ?_ ?_; (on_goal 1 => unfold x); (on_goal 2 => (clear_value x; intro _)))
    | ((try lift_lets); intro x; try clear_value x)
    | intro _
    | split
    | dsimp only

theorem execMalformed_still (net : NetNo) (sub : SubNo) (packet : RltPacket) (s : State) :
    ∀ t_, execMalformed net sub packet s = .next t_ → s.Still t_ := by
  unfold execMalformed
  refine State.next_still ?_
  repeat' first
    | with_reducible refine State.ite_still ?_ ?_
    | with_reducible refine State.ite2_still ?_ ?_
    | with_reducible exact State.Still.refl _
    | with_reducible assumption
    | with_reducible apply State.Still.after (State.rltIntake_still _ _ _ _)
    | with_reducible apply State.Still.after (State.pair_still (State.rltIntake_still _ _ _ _) (by assumption))
    | ((try lift_lets); intro x; refine State.cut_still (x := x) ?_ ?_; (on_goal 1 => unfold x); (on_goal 2 => (clear_value x; intro _)))
    | ((try lift_lets); intro x; refine State.cut_still (x := x.2) ?_ ?_; (on_goal 1 => unfold x); (on_goal 2 => (clear_value x; intro _)))
    | ((try lift_lets); intro x; try clear_value x)
    | intro _
    | split
    | dsimp only

theorem State.sendRlt_still (s : State) (d : Peer) (pcp : Nat) (b : Bytes) :
    s.Still (State.sendRlt s d pcp b) := by
  unfold State.sendRlt
  repeat' first
    | with_reducible exact State.Still.refl _
    | with_reducible assumption
    | with_reducible apply State.Still.after (State.netSend_still _ _ _ _)
    | intro _
    | split
    | dsimp only

theorem State.sendCounted_still (s : State) (key : Nat) (d : Peer) (b : Bytes) :
    s.Still (State.sendCounted s key d b) := by
  unfold State.sendCounted
  repeat' first
    | with_reducible refine State.ite_still ?_ ?_
    | with_reducible refine State.ite2_still ?_ ?_
    | with_reducible exact State.Still.refl _
    | with_reducible assumption
    | with_reducible apply State.Still.after (State.bump_still _ _ _)
    | with_reducible apply State.Still.after (State.sendRlt_still _ _ _ _)
    | intro _
    | split
    | dsimp only

theorem State.sendError_still (s : State) (d : Peer) (kind stream seq : Nat) (st : Status) (object : Nat) :
    s.Still (State.sendError s d kind stream seq st object) := by
  unfold State.sendError
  repeat' first
    | with_reducible refine State.ite_still ?_ ?_
    | with_reducible refine State.ite2_still ?_ ?_
    | with_reducible exact State.Still.refl _
    | with_reducible assumption
    | with_reducible apply State.Still.after (State.bump_still _ _ _)
    | with_reducible apply State.Still.after (State.setNet_still _ _ _)
    | with_reducible apply State.Still.after (State.sendRlt_still _ _ _ _)
    | with_reducible apply State.Still.after (State.sendCounted_still _ _ _ _)
    | ((try lift_lets); intro x; refine State.cut_still (x := x) ?_ ?_; (on_goal 1 => unfold x); (on_goal 2 => (clear_value x; intro _)))
    | ((try lift_lets); intro x; refine State.cut_still (x := x.2) ?_ ?_; (on_goal 1 => unfold x); (on_goal 2 => (clear_value x; intro _)))
    | ((try lift_lets); intro x; try clear_value x)
    | intro _
    | split
    | with_reducible fail_if_no_progress apply State.Still.after (State.mk_still _)
    | dsimp only

theorem State.setStream_still (s : State) (p id : Nat) (x : Stream) :
    s.Still (State.setStream s p id x) := by
  unfold State.setStream
  repeat' first
    | with_reducible exact State.Still.refl _
    | with_reducible assumption
    | with_reducible apply State.Still.after (State.setPart_still _ _ _)
    | intro _
    | split
    | with_reducible fail_if_no_progress apply State.Still.after (State.mk_still _)
    | dsimp only

theorem State.rltData_steady (s : State) (n sub : Nat) (k : RltPacket) (r : Rlt) :
    s.Steady (State.rltData s n sub k r) := by
  unfold State.rltData
  repeat' first
    | with_reducible refine State.ite_steady ?_ ?_
    | with_reducible refine State.ite2_steady ?_ ?_
    | with_reducible exact State.Steady.refl _
    | with_reducible assumption
    | with_reducible apply State.Steady.after ((State.bump_still _ _ _).steady)
    | with_reducible apply State.Steady.after (State.lbufWrite_steady _ _ _)
    | with_reducible apply State.Steady.after ((State.sendError_still _ _ _ _ _ _ _).steady)
    | with_reducible apply State.Steady.after ((State.setStream_still _ _ _ _).steady)
    | ((try lift_lets); intro x; refine State.cut_steady (x := x) ?_ ?_; (on_goal 1 => unfold x); (on_goal 2 => (clear_value x; intro _)))
    | ((try lift_lets); intro x; refine State.cut_steady (x := x.2) ?_ ?_; (on_goal 1 => unfold x); (on_goal 2 => (clear_value x; intro _)))
    | ((try lift_lets); intro x)
    | intro _
    | split
    | dsimp only

theorem execData_steady (net : NetNo) (sub : SubNo) (packet : RltPacket) (s : State) :
    ∀ t_, execData net sub packet s = .next t_ → s.Steady t_ := by
  unfold execData
  refine State.next_steady ?_
  repeat' first
    | with_reducible refine State.ite_steady ?_ ?_
    | with_reducible refine State.ite2_steady ?_ ?_
    | with_reducible exact State.Steady.refl _
    | with_reducible assumption
    | with_reducible apply State.Steady.after ((State.rltIntake_still _ _ _ _).steady)
    | with_reducible apply State.Steady.after (State.pair_steady ((State.rltIntake_still _ _ _ _).steady) (by assumption))
    | with_reducible apply State.Steady.after (State.rltData_steady _ _ _ _ _)
    | intro _
    | split
    | dsimp only

theorem State.sendCredit_still (s : State) (p id : Nat) (x : Stream) (keepalive : Bool) :
    s.Still (State.sendCredit s p id x keepalive) := by
  unfold State.sendCredit
  repeat' first
    | with_reducible exact State.Still.refl _
    | with_reducible assumption
    | with_reducible apply State.Still.after (State.sendRlt_still _ _ _ _)
    | with_reducible apply State.Still.after (State.setStream_still _ _ _ _)
    | intro _
    | split
    | with_reducible fail_if_no_progress apply State.Still.after (State.mk_still _)
    | dsimp only

theorem execCredit_still (part : PartNo) (stream : StreamNo) (s : State) :
    ∀ t_, execCredit part stream s = .next t_ → s.Still t_ := by
  unfold execCredit
  refine State.next_still ?_
  repeat' first
    | with_reducible refine State.ite_still ?_ ?_
    | with_reducible refine State.ite2_still ?_ ?_
    | with_reducible exact State.Still.refl _
    | with_reducible assumption
    | with_reducible apply State.Still.after (State.sendCredit_still _ _ _ _ _)
    | ((try lift_lets); intro x; refine State.cut_still (x := x) ?_ ?_; (on_goal 1 => unfold x); (on_goal 2 => (clear_value x; intro _)))
    | ((try lift_lets); intro x; refine State.cut_still (x := x.2) ?_ ?_; (on_goal 1 => unfold x); (on_goal 2 => (clear_value x; intro _)))
    | ((try lift_lets); intro x; try clear_value x)
    | intro _
    | split
    | dsimp only

theorem State.sendNack_still (s : State) (p id : Nat) (x : Stream) (again : Bool) :
    s.Still (State.sendNack s p id x again) := by
  unfold State.sendNack
  repeat' first
    | with_reducible exact State.Still.refl _
    | with_reducible assumption
    | with_reducible apply State.Still.after (State.sendCounted_still _ _ _ _)
    | with_reducible apply State.Still.after (State.setStream_still _ _ _ _)
    | ((try lift_lets); intro x; refine State.cut_still (x := x) ?_ ?_; (on_goal 1 => unfold x); (on_goal 2 => (clear_value x; intro _)))
    | ((try lift_lets); intro x; refine State.cut_still (x := x.2) ?_ ?_; (on_goal 1 => unfold x); (on_goal 2 => (clear_value x; intro _)))
    | ((try lift_lets); intro x; try clear_value x)
    | intro _
    | split
    | with_reducible fail_if_no_progress apply State.Still.after (State.mk_still _)
    | dsimp only

theorem execNack_still (part : PartNo) (stream : StreamNo) (s : State) :
    ∀ t_, execNack part stream s = .next t_ → s.Still t_ := by
  unfold execNack
  refine State.next_still ?_
  repeat' first
    | with_reducible refine State.ite_still ?_ ?_
    | with_reducible refine State.ite2_still ?_ ?_
    | with_reducible exact State.Still.refl _
    | with_reducible assumption
    | with_reducible apply State.Still.after (State.sendNack_still _ _ _ _ _)
    | ((try lift_lets); intro x; refine State.cut_still (x := x) ?_ ?_; (on_goal 1 => unfold x); (on_goal 2 => (clear_value x; intro _)))
    | ((try lift_lets); intro x; refine State.cut_still (x := x.2) ?_ ?_; (on_goal 1 => unfold x); (on_goal 2 => (clear_value x; intro _)))
    | ((try lift_lets); intro x; try clear_value x)
    | intro _
    | split
    | dsimp only

theorem State.renewNack_still (s : State) (p id : Nat) :
    s.Still (State.renewNack s p id) := by
  unfold State.renewNack
  repeat' first
    | with_reducible refine State.ite_still ?_ ?_
    | with_reducible refine State.ite2_still ?_ ?_
    | with_reducible exact State.Still.refl _
    | with_reducible assumption
    | with_reducible apply State.Still.after (State.sendNack_still _ _ _ _ _)
    | intro _
    | split
    | dsimp only

theorem execNackRepeat_still (s : State) :
    ∀ t_, execNackRepeat s = .next t_ → s.Still t_ := by
  unfold execNackRepeat
  refine State.next_still ?_
  repeat' first
    | with_reducible refine State.ite_still ?_ ?_
    | with_reducible refine State.ite2_still ?_ ?_
    | with_reducible exact State.Still.refl _
    | with_reducible assumption
    | with_reducible apply State.Still.after (State.renewNack_still _ _ _)
    | with_reducible apply State.Still.after (State.foldl_still ?_ _ _)
    | with_reducible apply State.Still.after (State.foldl2_still ?_ _ _)
    | ((try lift_lets); intro x; refine State.cut_still (x := x) ?_ ?_; (on_goal 1 => unfold x); (on_goal 2 => (clear_value x; intro _)))
    | ((try lift_lets); intro x; refine State.cut_still (x := x.2) ?_ ?_; (on_goal 1 => unfold x); (on_goal 2 => (clear_value x; intro _)))
    | ((try lift_lets); intro x; try clear_value x)
    | intro _
    | split
    | with_reducible fail_if_no_progress apply State.Still.after (State.mk_still _)
    | dsimp only

theorem opNackPeriod_still (x1_ : Writer) (v : Nat) (s : State) :
    s.Still (opNackPeriod x1_ v s).2 := by
  unfold opNackPeriod
  repeat' first
    | with_reducible refine State.ite_still ?_ ?_
    | with_reducible refine State.ite2_still ?_ ?_
    | with_reducible exact State.Still.refl _
    | with_reducible assumption
    | with_reducible apply State.Still.after (State.put_still _ _ _)
    | with_reducible apply State.Still.after (State.bump_still _ _ _)
    | with_reducible apply State.Still.after (State.setTimer_still _ _)
    | ((try lift_lets); intro x; refine State.cut_still (x := x) ?_ ?_; (on_goal 1 => unfold x); (on_goal 2 => (clear_value x; intro _)))
    | ((try lift_lets); intro x; refine State.cut_still (x := x.2) ?_ ?_; (on_goal 1 => unfold x); (on_goal 2 => (clear_value x; intro _)))
    | ((try lift_lets); intro x; try clear_value x)
    | intro _
    | split
    | dsimp only

theorem execNackPeriod_still (acc : Access) (s : State) :
    ∀ t_, execNackPeriod acc s = .next t_ → s.Still t_ := by
  unfold execNackPeriod
  refine State.next_still ?_
  repeat' first
    | with_reducible exact State.Still.refl _
    | with_reducible assumption
    | with_reducible apply State.Still.after (State.write_still _ _ _ ?_)
    | with_reducible apply State.Still.after (numOp_still ?_ _ _ _)
    | with_reducible apply State.Still.after (opNackPeriod_still _ _ _)
    | with_reducible apply State.Still.after (State.pair_still (opNackPeriod_still _ _ _) (by assumption))
    | intro _
    | split
    | dsimp only

theorem State.countCut_still (s : State) (p : Nat) (x : Stream) :
    s.Still (State.countCut s p x) := by
  unfold State.countCut
  repeat' first
    | with_reducible refine State.ite_still ?_ ?_
    | with_reducible refine State.ite2_still ?_ ?_
    | with_reducible exact State.Still.refl _
    | with_reducible assumption
    | with_reducible apply State.Still.after (State.bump_still _ _ _)
    | intro _
    | split
    | dsimp only

theorem State.truncate_still (s : State) (p id : Nat) (x : Stream) :
    s.Still (State.truncate s p id x) := by
  unfold State.truncate
  repeat' first
    | with_reducible exact State.Still.refl _
    | with_reducible assumption
    | with_reducible apply State.Still.after (State.setStream_still _ _ _ _)
    | with_reducible apply State.Still.after (State.countCut_still _ _ _)
    | intro _
    | split
    | with_reducible fail_if_no_progress apply State.Still.after (State.mk_still _)
    | dsimp only

theorem State.streamMark_still (s : State) (p : Nat) (x : Stream) :
    s.Still (State.streamMark s p x) := by
  unfold State.streamMark
  repeat' first
    | with_reducible exact State.Still.refl _
    | with_reducible assumption
    | with_reducible apply State.Still.after (State.enqueueBolt_still _ _ _ _)
    | with_reducible apply State.Still.after (State.pair_still (State.enqueueBolt_still _ _ _ _) (by assumption))
    | intro _
    | split
    | dsimp only

theorem execGapLimit_still (part : PartNo) (stream : StreamNo) (s : State) :
    ∀ t_, execGapLimit part stream s = .next t_ → s.Still t_ := by
  unfold execGapLimit
  refine State.next_still ?_
  repeat' first
    | with_reducible refine State.ite_still ?_ ?_
    | with_reducible refine State.ite2_still ?_ ?_
    | with_reducible exact State.Still.refl _
    | with_reducible assumption
    | with_reducible apply State.Still.after (State.bump_still _ _ _)
    | with_reducible apply State.Still.after (State.sendError_still _ _ _ _ _ _ _)
    | with_reducible apply State.Still.after (State.setStream_still _ _ _ _)
    | with_reducible apply State.Still.after (State.truncate_still _ _ _ _)
    | with_reducible apply State.Still.after (State.streamMark_still _ _ _)
    | ((try lift_lets); intro x; refine State.cut_still (x := x) ?_ ?_; (on_goal 1 => unfold x); (on_goal 2 => (clear_value x; intro _)))
    | ((try lift_lets); intro x; refine State.cut_still (x := x.2) ?_ ?_; (on_goal 1 => unfold x); (on_goal 2 => (clear_value x; intro _)))
    | ((try lift_lets); intro x; try clear_value x)
    | intro _
    | split
    | with_reducible fail_if_no_progress apply State.Still.after (State.mk_still _)
    | dsimp only

theorem opStreamOpen_still (w : Writer) (b : Bytes) (s : State) :
    s.Still (opStreamOpen w b s).2 := by
  unfold opStreamOpen
  repeat' first
    | with_reducible refine State.ite_still ?_ ?_
    | with_reducible refine State.ite2_still ?_ ?_
    | with_reducible exact State.Still.refl _
    | with_reducible assumption
    | with_reducible apply State.Still.after (State.bump_still _ _ _)
    | with_reducible apply State.Still.after (State.setPart_still _ _ _)
    | with_reducible apply State.Still.after (State.claim_still _ _ _ _ _ (by assumption))
    | with_reducible apply State.Still.after (State.setStream_still _ _ _ _)
    | ((try lift_lets); intro x; refine State.cut_still (x := x) ?_ ?_; (on_goal 1 => unfold x); (on_goal 2 => (clear_value x; intro _)))
    | ((try lift_lets); intro x; refine State.cut_still (x := x.2) ?_ ?_; (on_goal 1 => unfold x); (on_goal 2 => (clear_value x; intro _)))
    | ((try lift_lets); intro x; try clear_value x)
    | intro _
    | split
    | with_reducible fail_if_no_progress apply State.Still.after (State.mk_still _)
    | dsimp only

theorem execStreamOpen_still (acc : Access) (s : State) :
    ∀ t_, execStreamOpen acc s = .next t_ → s.Still t_ := by
  unfold execStreamOpen
  refine State.next_still ?_
  repeat' first
    | with_reducible exact State.Still.refl _
    | with_reducible assumption
    | with_reducible apply State.Still.after (State.write_still _ _ _ ?_)
    | with_reducible apply State.Still.after (opStreamOpen_still _ _ _)
    | with_reducible apply State.Still.after (State.pair_still (opStreamOpen_still _ _ _) (by assumption))
    | intro _
    | split
    | dsimp only

theorem execStreamClose_still (acc : Access) (s : State) :
    ∀ t_, execStreamClose acc s = .next t_ → s.Still t_ := by
  unfold execStreamClose
  refine State.next_still ?_
  repeat' first
    | with_reducible refine State.ite_still ?_ ?_
    | with_reducible refine State.ite2_still ?_ ?_
    | with_reducible exact State.Still.refl _
    | with_reducible assumption
    | with_reducible apply State.Still.after (State.await_still _ _ _ _)
    | with_reducible apply State.Still.after (State.write_still _ _ _ ?_)
    | with_reducible apply State.Still.after (numOp_still ?_ _ _ _)
    | with_reducible apply State.Still.after (State.setStream_still _ _ _ _)
    | ((try lift_lets); intro x; refine State.cut_still (x := x) ?_ ?_; (on_goal 1 => unfold x); (on_goal 2 => (clear_value x; intro _)))
    | ((try lift_lets); intro x; refine State.cut_still (x := x.2) ?_ ?_; (on_goal 1 => unfold x); (on_goal 2 => (clear_value x; intro _)))
    | ((try lift_lets); intro x; try clear_value x)
    | intro _
    | split
    | with_reducible fail_if_no_progress apply State.Still.after (State.mk_still _)
    | dsimp only

end Sys2Proof.Machine
end

