-- ==== Sys2Proof/Laws/KeepStore.lean ====
section
/-!
SUPPORT. What the operations and meanings of Machine/Store.lean keep of a state.
-/
set_option linter.unusedVariables false
set_option linter.unreachableTactic false
set_option linter.unusedTactic false
namespace Sys2Proof.Machine

theorem State.setTable_still (s : State) (p : Nat) (t : Table) :
    s.Still (State.setTable s p t) := by
  unfold State.setTable
  repeat' first
    | with_reducible exact State.Still.refl _
    | with_reducible assumption
    | with_reducible apply State.Still.after (State.setPart_still _ _ _)
    | intro _
    | split
    | with_reducible fail_if_no_progress apply State.Still.after (State.mk_still _)
    | dsimp only

theorem State.chooseOf_still (s : State) (l : List Nat) :
    s.Still (State.chooseOf s l).2 := by
  unfold State.chooseOf
  repeat' first
    | with_reducible exact State.Still.refl _
    | with_reducible assumption
    | with_reducible apply State.Still.after (State.free_still _)
    | with_reducible apply State.Still.after (State.pair_still (State.free_still _) (by assumption))
    | intro _
    | split
    | dsimp only

theorem State.clearHome_steady (s : State) (p lo n : Nat) :
    s.Steady (State.clearHome s p lo n) := by
  exact ⟨⟨rfl, fun c => ⟨Memory.wf_filter c.1 _, c.2⟩, List.suffix_refl _, Nat.le_refl _, Nat.le_refl _⟩, rfl⟩

theorem State.search_still (v : Version) (core source buckets k : Nat) (a0 : Nat) (s : State) (a2 : Nat) :
    s.Still (State.search v core source buckets k a0 s a2).2 := by
  induction a0 generalizing s a2 with
  | zero => exact State.Still.refl s
  | succ n ih =>
    unfold State.search
    split
    · exact State.pair_still (State.vaultRead_still _ _ _ _) (by assumption)
    · rename_i e
      have h := State.pair_still (State.vaultRead_still _ _ _ _) e
      split
      · exact h
      · exact h.trans (ih _ _)

theorem State.resolve_still (s : State) (p : Nat) (t : Table) (v : Version) (source k : Nat) :
    s.Still (State.resolve s p t v source k).2 := by
  unfold State.resolve
  dsimp only
  exact State.search_still _ _ _ _ _ _ _ _

theorem State.putEntry_steady (s : State) (v : Version) (core pos : Nat) (e : RowEntry) :
    s.Steady (State.putEntry s v core pos e) := by
  exact State.Steady.trans (State.vaultWrite_steady s (v.entryDa core pos) (leBytes 8 e.id))
    (State.vaultWrite_steady _ (v.entryDa core pos + 8) (leBytes 8 e.upper))

theorem State.putUpper_steady (s : State) (v : Version) (core pos : Nat) (e : RowEntry) :
    s.Steady (State.putUpper s v core pos e) := by
  unfold State.putUpper
  repeat' first
    | with_reducible exact State.Steady.refl _
    | with_reducible assumption
    | with_reducible apply State.Steady.after (State.vaultWrite_steady _ _ _)
    | with_reducible apply State.Steady.after (State.pair_steady (State.vaultWrite_steady _ _ _) (by assumption))
    | intro _
    | split
    | dsimp only

theorem State.setDir_still (s : State) (p : Nat) (t : Table) (v : Version) (core : Nat) (d : CoreDir) :
    s.Still (State.setDir s p t v core d) := by
  unfold State.setDir
  repeat' first
    | with_reducible exact State.Still.refl _
    | with_reducible assumption
    | with_reducible apply State.Still.after (State.setTable_still _ _ _)
    | intro _
    | split
    | dsimp only

theorem State.readValues_still (s : State) (t : Table) (core source : Nat) (e : RowEntry) :
    s.Still (State.readValues s t core source e).2 := by
  unfold State.readValues
  repeat' first
    | with_reducible refine State.ite_still ?_ ?_
    | with_reducible refine State.ite2_still ?_ ?_
    | with_reducible exact State.Still.refl _
    | with_reducible assumption
    | with_reducible apply State.Still.after (State.vaultRead_still _ _ _ _)
    | with_reducible apply State.Still.after (State.pair_still (State.vaultRead_still _ _ _ _) (by assumption))
    | ((try lift_lets); intro x; refine State.cut_still (x := x) ?_ ?_; (on_goal 1 => unfold x); (on_goal 2 => (clear_value x; intro _)))
    | ((try lift_lets); intro x; refine State.cut_still (x := x.2) ?_ ?_; (on_goal 1 => unfold x); (on_goal 2 => (clear_value x; intro _)))
    | ((try lift_lets); intro x; try clear_value x)
    | intro _
    | split
    | dsimp only

theorem State.readSlot_still (s : State) (t : Table) (core : Nat) (e : RowEntry) :
    s.Still (State.readSlot s t core e).2 := by
  unfold State.readSlot
  repeat' first
    | with_reducible exact State.Still.refl _
    | with_reducible assumption
    | with_reducible apply State.Still.after (State.vaultRead_still _ _ _ _)
    | with_reducible apply State.Still.after (State.pair_still (State.vaultRead_still _ _ _ _) (by assumption))
    | with_reducible apply State.Still.after (State.take_still _ _ _ _ _)
    | ((try lift_lets); intro x; refine State.cut_still (x := x) ?_ ?_; (on_goal 1 => unfold x); (on_goal 2 => (clear_value x; intro _)))
    | ((try lift_lets); intro x; refine State.cut_still (x := x.2) ?_ ?_; (on_goal 1 => unfold x); (on_goal 2 => (clear_value x; intro _)))
    | ((try lift_lets); intro x; try clear_value x)
    | intro _
    | split
    | dsimp only

theorem State.allocSlot_still (s : State) (p : Nat) (t : Table) (v : Version) (core n : Nat) :
    s.Still (State.allocSlot s p t v core n).2 := by
  unfold State.allocSlot
  repeat' first
    | with_reducible exact State.Still.refl _
    | with_reducible assumption
    | with_reducible apply State.Still.after (State.chooseOf_still _ _)
    | with_reducible apply State.Still.after (State.pair_still (State.chooseOf_still _ _) (by assumption))
    | ((try lift_lets); intro x; refine State.cut_still (x := x) ?_ ?_; (on_goal 1 => unfold x); (on_goal 2 => (clear_value x; intro _)))
    | ((try lift_lets); intro x; refine State.cut_still (x := x.2) ?_ ?_; (on_goal 1 => unfold x); (on_goal 2 => (clear_value x; intro _)))
    | ((try lift_lets); intro x; try clear_value x)
    | intro _
    | split
    | dsimp only

theorem State.tally_still (s : State) (p : Nat) (t : Tally) :
    s.Still (State.tally s p t) := by
  unfold State.tally
  repeat' first
    | with_reducible exact State.Still.refl _
    | with_reducible assumption
    | with_reducible apply State.Still.after (State.bump_still _ _ _)
    | intro _
    | split
    | dsimp only

theorem State.freeLater_still (s : State) (p : Nat) (t : Table) (v : Version) (core slot : Nat) :
    s.Still (State.freeLater s p t v core slot) := by
  unfold State.freeLater
  repeat' first
    | with_reducible exact State.Still.refl _
    | with_reducible assumption
    | intro _
    | split
    | with_reducible fail_if_no_progress apply State.Still.after (State.mk_still _)
    | dsimp only

theorem State.store_steady (s : State) (p : Nat) (t : Table) (v : Version) (k grade : Nat) (ready : Bool) (row : Nat × Bytes) :
    s.Steady (State.store s p t v k grade ready row).2 := by
  unfold State.store
  repeat' first
    | with_reducible refine State.ite_steady ?_ ?_
    | with_reducible refine State.ite2_steady ?_ ?_
    | with_reducible exact State.Steady.refl _
    | with_reducible assumption
    | with_reducible apply State.Steady.after (State.vaultWrite_steady _ _ _)
    | with_reducible apply State.Steady.after (State.pair_steady (State.vaultWrite_steady _ _ _) (by assumption))
    | with_reducible apply State.Steady.after ((State.resolve_still _ _ _ _ _ _).steady)
    | with_reducible apply State.Steady.after (State.pair_steady ((State.resolve_still _ _ _ _ _ _).steady) (by assumption))
    | with_reducible apply State.Steady.after (State.putEntry_steady _ _ _ _ _)
    | with_reducible apply State.Steady.after ((State.setDir_still _ _ _ _ _ _).steady)
    | with_reducible apply State.Steady.after ((State.allocSlot_still _ _ _ _ _ _).steady)
    | with_reducible apply State.Steady.after (State.pair_steady ((State.allocSlot_still _ _ _ _ _ _).steady) (by assumption))
    | with_reducible apply State.Steady.after ((State.freeLater_still _ _ _ _ _ _).steady)
    | ((try lift_lets); intro x; refine State.cut_steady (x := x) ?_ ?_; (on_goal 1 => unfold x); (on_goal 2 => (clear_value x; intro _)))
    | ((try lift_lets); intro x; refine State.cut_steady (x := x.2) ?_ ?_; (on_goal 1 => unfold x); (on_goal 2 => (clear_value x; intro _)))
    | ((try lift_lets); intro x; try clear_value x)
    | intro _
    | split
    | dsimp only

theorem State.addVersion_steady (s : State) (p : Nat) (t : Table) (st : VersionState) :
    s.Steady (State.addVersion s p t st) := by
  unfold State.addVersion
  repeat' first
    | with_reducible exact State.Steady.refl _
    | with_reducible assumption
    | with_reducible apply State.Steady.after ((State.setTable_still _ _ _).steady)
    | with_reducible apply State.Steady.after ((State.chooseOf_still _ _).steady)
    | with_reducible apply State.Steady.after (State.pair_steady ((State.chooseOf_still _ _).steady) (by assumption))
    | with_reducible apply State.Steady.after (State.clearHome_steady _ _ _ _)
    | ((try lift_lets); intro x; refine State.cut_steady (x := x) ?_ ?_; (on_goal 1 => unfold x); (on_goal 2 => (clear_value x; intro _)))
    | ((try lift_lets); intro x; refine State.cut_steady (x := x.2) ?_ ?_; (on_goal 1 => unfold x); (on_goal 2 => (clear_value x; intro _)))
    | ((try lift_lets); intro x; try clear_value x)
    | intro _
    | split
    | with_reducible fail_if_no_progress apply State.Steady.after ((State.mk_still _).steady)
    | dsimp only

theorem execTableCreate_steady (id : Nat) (_data : Bytes) (s : State) :
    ∀ t_, execTableCreate id _data s = .next t_ → s.Steady t_ := by
  unfold execTableCreate
  refine State.next_steady ?_
  repeat' first
    | with_reducible refine State.ite_steady ?_ ?_
    | with_reducible refine State.ite2_steady ?_ ?_
    | with_reducible exact State.Steady.refl _
    | with_reducible assumption
    | with_reducible apply State.Steady.after ((State.finish_still _ _ _ _).steady)
    | with_reducible apply State.Steady.after (State.addVersion_steady _ _ _ _)
    | ((try lift_lets); intro x; refine State.cut_steady (x := x) ?_ ?_; (on_goal 1 => unfold x); (on_goal 2 => (clear_value x; intro _)))
    | ((try lift_lets); intro x; refine State.cut_steady (x := x.2) ?_ ?_; (on_goal 1 => unfold x); (on_goal 2 => (clear_value x; intro _)))
    | ((try lift_lets); intro x; try clear_value x)
    | intro _
    | split
    | dsimp only

theorem execRegradePolicy_still (id : Nat) (s : State) :
    ∀ t_, execRegradePolicy id s = .next t_ → s.Still t_ := by
  unfold execRegradePolicy
  refine State.next_still ?_
  repeat' first
    | with_reducible refine State.ite_still ?_ ?_
    | with_reducible refine State.ite2_still ?_ ?_
    | with_reducible exact State.Still.refl _
    | with_reducible assumption
    | with_reducible apply State.Still.after (State.finish_still _ _ _ _)
    | with_reducible apply State.Still.after (State.setTable_still _ _ _)
    | ((try lift_lets); intro x; refine State.cut_still (x := x) ?_ ?_; (on_goal 1 => unfold x); (on_goal 2 => (clear_value x; intro _)))
    | ((try lift_lets); intro x; refine State.cut_still (x := x.2) ?_ ?_; (on_goal 1 => unfold x); (on_goal 2 => (clear_value x; intro _)))
    | ((try lift_lets); intro x; try clear_value x)
    | intro _
    | split
    | with_reducible fail_if_no_progress apply State.Still.after (State.mk_still _)
    | dsimp only

theorem State.countPop_steady (s : State) (t : Table) (v : Version) (core pos : Nat) (e : RowEntry) (reader : Nat) :
    s.Steady (State.countPop s t v core pos e reader) := by
  unfold State.countPop
  repeat' first
    | with_reducible refine State.ite_steady ?_ ?_
    | with_reducible refine State.ite2_steady ?_ ?_
    | with_reducible exact State.Steady.refl _
    | with_reducible assumption
    | with_reducible apply State.Steady.after (State.putUpper_steady _ _ _ _ _)
    | intro _
    | split
    | with_reducible fail_if_no_progress apply State.Steady.after ((State.mk_still _).steady)
    | dsimp only

theorem State.setLane_still (s : State) (core lane : Nat) (x : Lane) :
    s.Still (State.setLane s core lane x) := by
  unfold State.setLane
  repeat' first
    | with_reducible exact State.Still.refl _
    | with_reducible assumption
    | intro _
    | split
    | with_reducible fail_if_no_progress apply State.Still.after (State.mk_still _)
    | dsimp only

theorem State.route_still (s : State) (t : Table) (r : LaneRec) :
    s.Still (State.route s t r) := by
  unfold State.route
  repeat' first
    | with_reducible exact State.Still.refl _
    | with_reducible assumption
    | with_reducible apply State.Still.after (State.setLane_still _ _ _ _)
    | ((try lift_lets); intro x; refine State.cut_still (x := x) ?_ ?_; (on_goal 1 => unfold x); (on_goal 2 => (clear_value x; intro _)))
    | ((try lift_lets); intro x; refine State.cut_still (x := x.2) ?_ ?_; (on_goal 1 => unfold x); (on_goal 2 => (clear_value x; intro _)))
    | ((try lift_lets); intro x; try clear_value x)
    | intro _
    | split
    | with_reducible fail_if_no_progress apply State.Still.after (State.mk_still _)
    | dsimp only

theorem State.readBucket_still (s : State) (v : Version) (core b : Nat) :
    s.Still (State.readBucket s v core b).2 := by
  unfold State.readBucket
  repeat' first
    | with_reducible exact State.Still.refl _
    | with_reducible assumption
    | with_reducible apply State.Still.after (State.vaultRead_still _ _ _ _)
    | with_reducible apply State.Still.after (State.pair_still (State.vaultRead_still _ _ _ _) (by assumption))
    | ((try lift_lets); intro x; refine State.cut_still (x := x) ?_ ?_; (on_goal 1 => unfold x); (on_goal 2 => (clear_value x; intro _)))
    | ((try lift_lets); intro x; refine State.cut_still (x := x.2) ?_ ?_; (on_goal 1 => unfold x); (on_goal 2 => (clear_value x; intro _)))
    | ((try lift_lets); intro x; try clear_value x)
    | intro _
    | split
    | dsimp only

theorem State.visit_steady (p : Nat) (t : Table) (v : Version) (core : Nat) (acc : Nat × State) (x : Nat × RowEntry) :
    acc.2.Steady (State.visit p t v core acc x).2 := by
  have h : ∀ (b : Bool), acc.2.Steady ((if b then acc.2.bump (at_ Ob.READY_DENIED p) else acc.2).putUpper v core x.1
      { x.2 with pop := 0 }) := fun b =>
    State.Steady.after (State.putUpper_steady _ _ _ _ _)
      (State.ite_steady (State.bump_still _ _ _).steady (State.Steady.refl _))
  unfold State.visit
  dsimp only
  split
  · exact State.Steady.after (State.setLane_still _ _ _ _).steady (h _)
  · exact h _

theorem State.passCore_steady (s : State) (p : Nat) (t : Table) (v : Version) (core : Nat) :
    s.Steady (State.passCore s p t v core) := by
  unfold State.passCore
  refine State.foldl2_steady (fun a b => ?_) _ (0, s)
  split
  · exact (State.pair_still (State.readBucket_still _ _ _ _) (by assumption)).steady
  · rename_i e
    exact (State.pair_still (State.readBucket_still _ _ _ _) e).steady.trans
      (State.foldl2_steady (State.visit_steady _ _ _ _) _ _)

theorem State.closeWindow_steady (s : State) (p : Nat) (t : Table) :
    s.Steady (State.closeWindow s p t) := by
  unfold State.closeWindow
  repeat' first
    | with_reducible exact State.Steady.refl _
    | with_reducible assumption
    | with_reducible apply State.Steady.after ((State.setTable_still _ _ _).steady)
    | with_reducible apply State.Steady.after (State.passCore_steady _ _ _ _ _)
    | with_reducible apply State.Steady.after (State.foldl_steady ?_ _ _)
    | with_reducible apply State.Steady.after (State.foldl2_steady ?_ _ _)
    | ((try lift_lets); intro x; refine State.cut_steady (x := x) ?_ ?_; (on_goal 1 => unfold x); (on_goal 2 => (clear_value x; intro _)))
    | ((try lift_lets); intro x; refine State.cut_steady (x := x.2) ?_ ?_; (on_goal 1 => unfold x); (on_goal 2 => (clear_value x; intro _)))
    | ((try lift_lets); intro x; try clear_value x)
    | intro _
    | split
    | with_reducible fail_if_no_progress apply State.Steady.after ((State.mk_still _).steady)
    | dsimp only

theorem execWindowClose_steady (part : PartNo) (table : Nat) (s : State) :
    ∀ t_, execWindowClose part table s = .next t_ → s.Steady t_ := by
  unfold execWindowClose
  refine State.next_steady ?_
  repeat' first
    | with_reducible refine State.ite_steady ?_ ?_
    | with_reducible refine State.ite2_steady ?_ ?_
    | with_reducible exact State.Steady.refl _
    | with_reducible assumption
    | with_reducible apply State.Steady.after ((State.bump_still _ _ _).steady)
    | with_reducible apply State.Steady.after ((State.setTable_still _ _ _).steady)
    | with_reducible apply State.Steady.after (State.closeWindow_steady _ _ _)
    | ((try lift_lets); intro x; refine State.cut_steady (x := x) ?_ ?_; (on_goal 1 => unfold x); (on_goal 2 => (clear_value x; intro _)))
    | ((try lift_lets); intro x; refine State.cut_steady (x := x.2) ?_ ?_; (on_goal 1 => unfold x); (on_goal 2 => (clear_value x; intro _)))
    | ((try lift_lets); intro x; try clear_value x)
    | intro _
    | split
    | with_reducible fail_if_no_progress apply State.Steady.after ((State.mk_still _).steady)
    | dsimp only

theorem State.moveSlot_still (s : State) (m : Migration) (core : Nat) :
    s.Still (State.moveSlot s m core).2 := by
  unfold State.moveSlot
  repeat' first
    | with_reducible exact State.Still.refl _
    | with_reducible assumption
    | with_reducible apply State.Still.after (State.bump_still _ _ _)
    | with_reducible apply State.Still.after (State.setDir_still _ _ _ _ _ _)
    | with_reducible apply State.Still.after (State.allocSlot_still _ _ _ _ _ _)
    | with_reducible apply State.Still.after (State.pair_still (State.allocSlot_still _ _ _ _ _ _) (by assumption))
    | ((try lift_lets); intro x; refine State.cut_still (x := x) ?_ ?_; (on_goal 1 => unfold x); (on_goal 2 => (clear_value x; intro _)))
    | ((try lift_lets); intro x; refine State.cut_still (x := x.2) ?_ ?_; (on_goal 1 => unfold x); (on_goal 2 => (clear_value x; intro _)))
    | ((try lift_lets); intro x; try clear_value x)
    | intro _
    | split
    | with_reducible fail_if_no_progress apply State.Still.after (State.mk_still _)
    | dsimp only

theorem State.setMoving_steady (s : State) (m : Migration) (core : Nat) :
    s.Steady (State.setMoving s m core) := by
  unfold State.setMoving
  repeat' first
    | with_reducible exact State.Steady.refl _
    | with_reducible assumption
    | with_reducible apply State.Steady.after ((State.resolve_still _ _ _ _ _ _).steady)
    | with_reducible apply State.Steady.after (State.pair_steady ((State.resolve_still _ _ _ _ _ _).steady) (by assumption))
    | with_reducible apply State.Steady.after (State.putUpper_steady _ _ _ _ _)
    | intro _
    | split
    | with_reducible fail_if_no_progress apply State.Steady.after ((State.mk_still _).steady)
    | dsimp only

theorem State.startMoves_steady (s : State) (batch : List Migration) (core : Nat) :
    s.Steady (State.startMoves s batch core) := by
  unfold State.startMoves
  repeat' first
    | with_reducible exact State.Steady.refl _
    | with_reducible assumption
    | with_reducible apply State.Steady.after (State.setMoving_steady _ _ _)
    | with_reducible apply State.Steady.after (State.foldl_steady ?_ _ _)
    | with_reducible apply State.Steady.after (State.foldl2_steady ?_ _ _)
    | intro _
    | split
    | dsimp only

theorem execMigrationHold_steady (core : CoreNo) (lane : LaneNo) (s : State) :
    ∀ t_, execMigrationHold core lane s = .next t_ → s.Steady t_ := by
  unfold execMigrationHold
  refine State.next_steady ?_
  repeat' first
    | with_reducible refine State.ite_steady ?_ ?_
    | with_reducible refine State.ite2_steady ?_ ?_
    | with_reducible exact State.Steady.refl _
    | with_reducible assumption
    | with_reducible apply State.Steady.after ((State.take_still _ _ _ _ _).steady)
    | with_reducible apply State.Steady.after ((State.setLane_still _ _ _ _).steady)
    | with_reducible apply State.Steady.after ((State.moveSlot_still _ _ _).steady)
    | with_reducible apply State.Steady.after (State.pair_steady ((State.moveSlot_still _ _ _).steady) (by assumption))
    | with_reducible apply State.Steady.after (State.startMoves_steady _ _ _)
    | with_reducible apply State.Steady.after (State.foldl_steady ?_ _ _)
    | with_reducible apply State.Steady.after (State.foldl2_steady ?_ _ _)
    | ((try lift_lets); intro x; refine State.cut_steady (x := x) ?_ ?_; (on_goal 1 => unfold x); (on_goal 2 => (clear_value x; intro _)))
    | ((try lift_lets); intro x; refine State.cut_steady (x := x.2) ?_ ?_; (on_goal 1 => unfold x); (on_goal 2 => (clear_value x; intro _)))
    | ((try lift_lets); intro x; try clear_value x)
    | intro _
    | split
    | with_reducible fail_if_no_progress apply State.Steady.after ((State.mk_still _).steady)
    | dsimp only

theorem State.readMove_still (s : State) (m : Migration) (t : Table) (v : Version) (core : Nat) :
    s.Still (State.readMove s m t v core).2 := by
  unfold State.readMove
  repeat' first
    | with_reducible exact State.Still.refl _
    | with_reducible assumption
    | with_reducible apply State.Still.after (State.resolve_still _ _ _ _ _ _)
    | with_reducible apply State.Still.after (State.pair_still (State.resolve_still _ _ _ _ _ _) (by assumption))
    | with_reducible apply State.Still.after (State.readSlot_still _ _ _ _)
    | with_reducible apply State.Still.after (State.pair_still (State.readSlot_still _ _ _ _) (by assumption))
    | ((try lift_lets); intro x; refine State.cut_still (x := x) ?_ ?_; (on_goal 1 => unfold x); (on_goal 2 => (clear_value x; intro _)))
    | ((try lift_lets); intro x; refine State.cut_still (x := x.2) ?_ ?_; (on_goal 1 => unfold x); (on_goal 2 => (clear_value x; intro _)))
    | ((try lift_lets); intro x; try clear_value x)
    | intro _
    | split
    | dsimp only

theorem State.swapRow_steady (s : State) (m : Migration) (t : Table) (v : Version) (core : Nat) (x : Nat × RowEntry × Bytes × Bytes) :
    s.Steady (State.swapRow s m t v core x) := by
  unfold State.swapRow
  repeat' first
    | with_reducible exact State.Steady.refl _
    | with_reducible assumption
    | with_reducible apply State.Steady.after ((State.bump_still _ _ _).steady)
    | with_reducible apply State.Steady.after (State.vaultWrite_steady _ _ _)
    | with_reducible apply State.Steady.after (State.pair_steady (State.vaultWrite_steady _ _ _) (by assumption))
    | with_reducible apply State.Steady.after (State.putUpper_steady _ _ _ _ _)
    | with_reducible apply State.Steady.after ((State.tally_still _ _ _).steady)
    | with_reducible apply State.Steady.after ((State.freeLater_still _ _ _ _ _ _).steady)
    | ((try lift_lets); intro x; refine State.cut_steady (x := x) ?_ ?_; (on_goal 1 => unfold x); (on_goal 2 => (clear_value x; intro _)))
    | ((try lift_lets); intro x; refine State.cut_steady (x := x.2) ?_ ?_; (on_goal 1 => unfold x); (on_goal 2 => (clear_value x; intro _)))
    | ((try lift_lets); intro x; try clear_value x)
    | intro _
    | split
    | with_reducible fail_if_no_progress apply State.Steady.after ((State.mk_still _).steady)
    | dsimp only

theorem State.abandonRow_steady (s : State) (m : Migration) (core : Nat) (counted : Bool) :
    s.Steady (State.abandonRow s m core counted) := by
  unfold State.abandonRow
  repeat' first
    | with_reducible refine State.ite_steady ?_ ?_
    | with_reducible refine State.ite2_steady ?_ ?_
    | with_reducible exact State.Steady.refl _
    | with_reducible assumption
    | with_reducible apply State.Steady.after ((State.bump_still _ _ _).steady)
    | with_reducible apply State.Steady.after ((State.resolve_still _ _ _ _ _ _).steady)
    | with_reducible apply State.Steady.after (State.pair_steady ((State.resolve_still _ _ _ _ _ _).steady) (by assumption))
    | with_reducible apply State.Steady.after (State.putUpper_steady _ _ _ _ _)
    | with_reducible apply State.Steady.after ((State.setDir_still _ _ _ _ _ _).steady)
    | ((try lift_lets); intro x; refine State.cut_steady (x := x) ?_ ?_; (on_goal 1 => unfold x); (on_goal 2 => (clear_value x; intro _)))
    | ((try lift_lets); intro x; refine State.cut_steady (x := x.2) ?_ ?_; (on_goal 1 => unfold x); (on_goal 2 => (clear_value x; intro _)))
    | ((try lift_lets); intro x; try clear_value x)
    | intro _
    | split
    | with_reducible fail_if_no_progress apply State.Steady.after ((State.mk_still _).steady)
    | dsimp only

theorem State.moveRows_steady (core : Nat) (a0 : List Migration) (a1 : Nat) (s : State) :
    s.Steady (State.moveRows core a0 a1 s).2 := by
  induction a0 generalizing a1 s with
  | nil =>
    unfold State.moveRows
    repeat' first
      | with_reducible refine State.ite_steady ?_ ?_
      | with_reducible refine State.ite2_steady ?_ ?_
      | with_reducible exact State.Steady.refl _
      | with_reducible assumption
      | with_reducible apply State.Steady.after ((State.readMove_still _ _ _ _ _).steady)
      | with_reducible apply State.Steady.after (State.pair_steady ((State.readMove_still _ _ _ _ _).steady) (by assumption))
      | with_reducible apply State.Steady.after (State.swapRow_steady _ _ _ _ _ _)
      | with_reducible apply State.Steady.after (State.abandonRow_steady _ _ _ _)
      | ((try lift_lets); intro x; refine State.cut_steady (x := x) ?_ ?_; (on_goal 1 => unfold x); (on_goal 2 => (clear_value x; intro _)))
      | ((try lift_lets); intro x; refine State.cut_steady (x := x.2) ?_ ?_; (on_goal 1 => unfold x); (on_goal 2 => (clear_value x; intro _)))
      | ((try lift_lets); intro x; try clear_value x)
      | intro _
      | split
      | dsimp only
  | cons _ _ ih =>
    unfold State.moveRows
    repeat' first
      | with_reducible refine State.ite_steady ?_ ?_
      | with_reducible refine State.ite2_steady ?_ ?_
      | with_reducible apply State.Steady.after (ih _ _)
      | with_reducible apply State.Steady.after (State.pair_steady (ih _ _) (by assumption))
      | with_reducible exact State.Steady.refl _
      | with_reducible assumption
      | with_reducible apply State.Steady.after ((State.readMove_still _ _ _ _ _).steady)
      | with_reducible apply State.Steady.after (State.pair_steady ((State.readMove_still _ _ _ _ _).steady) (by assumption))
      | with_reducible apply State.Steady.after (State.swapRow_steady _ _ _ _ _ _)
      | with_reducible apply State.Steady.after (State.abandonRow_steady _ _ _ _)
      | ((try lift_lets); intro x; refine State.cut_steady (x := x) ?_ ?_; (on_goal 1 => unfold x); (on_goal 2 => (clear_value x; intro _)))
      | ((try lift_lets); intro x; refine State.cut_steady (x := x.2) ?_ ?_; (on_goal 1 => unfold x); (on_goal 2 => (clear_value x; intro _)))
      | ((try lift_lets); intro x; try clear_value x)
      | intro _
      | split
      | dsimp only

theorem execMigrationSwap_steady (core : CoreNo) (lane : LaneNo) (written : Nat) (s : State) :
    ∀ t_, execMigrationSwap core lane written s = .next t_ → s.Steady t_ := by
  unfold execMigrationSwap
  refine State.next_steady ?_
  repeat' first
    | with_reducible refine State.ite_steady ?_ ?_
    | with_reducible refine State.ite2_steady ?_ ?_
    | with_reducible exact State.Steady.refl _
    | with_reducible assumption
    | with_reducible apply State.Steady.after ((State.setLane_still _ _ _ _).steady)
    | with_reducible apply State.Steady.after (State.moveRows_steady _ _ _ _)
    | with_reducible apply State.Steady.after (State.pair_steady (State.moveRows_steady _ _ _ _) (by assumption))
    | ((try lift_lets); intro x; refine State.cut_steady (x := x) ?_ ?_; (on_goal 1 => unfold x); (on_goal 2 => (clear_value x; intro _)))
    | ((try lift_lets); intro x; refine State.cut_steady (x := x.2) ?_ ?_; (on_goal 1 => unfold x); (on_goal 2 => (clear_value x; intro _)))
    | ((try lift_lets); intro x; try clear_value x)
    | intro _
    | split
    | with_reducible fail_if_no_progress apply State.Steady.after ((State.mk_still _).steady)
    | dsimp only

theorem execMigrationAbandon_steady (core : CoreNo) (lane : LaneNo) (written : Nat) (s : State) :
    ∀ t_, execMigrationAbandon core lane written s = .next t_ → s.Steady t_ := by
  unfold execMigrationAbandon
  refine State.next_steady ?_
  repeat' first
    | with_reducible refine State.ite_steady ?_ ?_
    | with_reducible refine State.ite2_steady ?_ ?_
    | with_reducible exact State.Steady.refl _
    | with_reducible assumption
    | with_reducible apply State.Steady.after ((State.setLane_still _ _ _ _).steady)
    | with_reducible apply State.Steady.after (State.abandonRow_steady _ _ _ _)
    | with_reducible apply State.Steady.after (State.moveRows_steady _ _ _ _)
    | with_reducible apply State.Steady.after (State.pair_steady (State.moveRows_steady _ _ _ _) (by assumption))
    | with_reducible apply State.Steady.after (State.foldl_steady ?_ _ _)
    | with_reducible apply State.Steady.after (State.foldl2_steady ?_ _ _)
    | ((try lift_lets); intro x; refine State.cut_steady (x := x) ?_ ?_; (on_goal 1 => unfold x); (on_goal 2 => (clear_value x; intro _)))
    | ((try lift_lets); intro x; refine State.cut_steady (x := x.2) ?_ ?_; (on_goal 1 => unfold x); (on_goal 2 => (clear_value x; intro _)))
    | ((try lift_lets); intro x; try clear_value x)
    | intro _
    | split
    | with_reducible fail_if_no_progress apply State.Steady.after ((State.mk_still _).steady)
    | dsimp only

theorem State.freeSlot_still (s : State) (f : Freed) :
    s.Still (State.freeSlot s f) := by
  unfold State.freeSlot
  repeat' first
    | with_reducible exact State.Still.refl _
    | with_reducible assumption
    | with_reducible apply State.Still.after (State.setDir_still _ _ _ _ _ _)
    | intro _
    | split
    | dsimp only

theorem execSlotFree_still (core : CoreNo) (s : State) :
    ∀ t_, execSlotFree core s = .next t_ → s.Still t_ := by
  unfold execSlotFree
  refine State.next_still ?_
  repeat' first
    | with_reducible exact State.Still.refl _
    | with_reducible assumption
    | with_reducible apply State.Still.after (State.freeSlot_still _ _)
    | with_reducible apply State.Still.after (State.foldl_still ?_ _ _)
    | with_reducible apply State.Still.after (State.foldl2_still ?_ _ _)
    | ((try lift_lets); intro x; refine State.cut_still (x := x) ?_ ?_; (on_goal 1 => unfold x); (on_goal 2 => (clear_value x; intro _)))
    | ((try lift_lets); intro x; refine State.cut_still (x := x.2) ?_ ?_; (on_goal 1 => unfold x); (on_goal 2 => (clear_value x; intro _)))
    | ((try lift_lets); intro x; try clear_value x)
    | intro _
    | split
    | with_reducible fail_if_no_progress apply State.Still.after (State.mk_still _)
    | dsimp only

theorem State.reclaim_still (s : State) (p table number : Nat) :
    s.Still (State.reclaim s p table number) := by
  unfold State.reclaim
  repeat' first
    | with_reducible refine State.ite_still ?_ ?_
    | with_reducible refine State.ite2_still ?_ ?_
    | with_reducible exact State.Still.refl _
    | with_reducible assumption
    | with_reducible apply State.Still.after (State.bump_still _ _ _)
    | with_reducible apply State.Still.after (State.setPart_still _ _ _)
    | with_reducible apply State.Still.after (State.setTable_still _ _ _)
    | ((try lift_lets); intro x; refine State.cut_still (x := x) ?_ ?_; (on_goal 1 => unfold x); (on_goal 2 => (clear_value x; intro _)))
    | ((try lift_lets); intro x; refine State.cut_still (x := x.2) ?_ ?_; (on_goal 1 => unfold x); (on_goal 2 => (clear_value x; intro _)))
    | ((try lift_lets); intro x; try clear_value x)
    | intro _
    | split
    | with_reducible fail_if_no_progress apply State.Still.after (State.mk_still _)
    | dsimp only

theorem execVersionReclaim_still (part : PartNo) (table : Nat) (s : State) :
    ∀ t_, execVersionReclaim part table s = .next t_ → s.Still t_ := by
  unfold execVersionReclaim
  refine State.next_still ?_
  repeat' first
    | with_reducible exact State.Still.refl _
    | with_reducible assumption
    | with_reducible apply State.Still.after (State.reclaim_still _ _ _ _)
    | with_reducible apply State.Still.after (State.foldl_still ?_ _ _)
    | with_reducible apply State.Still.after (State.foldl2_still ?_ _ _)
    | ((try lift_lets); intro x; refine State.cut_still (x := x) ?_ ?_; (on_goal 1 => unfold x); (on_goal 2 => (clear_value x; intro _)))
    | ((try lift_lets); intro x; refine State.cut_still (x := x.2) ?_ ?_; (on_goal 1 => unfold x); (on_goal 2 => (clear_value x; intro _)))
    | ((try lift_lets); intro x; try clear_value x)
    | intro _
    | split
    | dsimp only

theorem State.cloneRow_steady (s : State) (p : Nat) (t : Table) (n core : Nat) (e : RowEntry) :
    s.Steady (State.cloneRow s p t n core e).2 := by
  unfold State.cloneRow
  repeat' first
    | with_reducible exact State.Steady.refl _
    | with_reducible assumption
    | with_reducible apply State.Steady.after ((State.readSlot_still _ _ _ _).steady)
    | with_reducible apply State.Steady.after (State.pair_steady ((State.readSlot_still _ _ _ _).steady) (by assumption))
    | with_reducible apply State.Steady.after (State.store_steady _ _ _ _ _ _ _ _)
    | with_reducible apply State.Steady.after (State.pair_steady (State.store_steady _ _ _ _ _ _ _ _) (by assumption))
    | intro _
    | split
    | dsimp only

theorem State.cloneBucket_steady (s : State) (p : Nat) (t : Table) (v : Version) (n core b : Nat) :
    s.Steady (State.cloneBucket s p t v n core b).2 := by
  unfold State.cloneBucket
  repeat' first
    | with_reducible refine State.ite_steady ?_ ?_
    | with_reducible refine State.ite2_steady ?_ ?_
    | with_reducible exact State.Steady.refl _
    | with_reducible assumption
    | with_reducible apply State.Steady.after ((State.readBucket_still _ _ _ _).steady)
    | with_reducible apply State.Steady.after (State.pair_steady ((State.readBucket_still _ _ _ _).steady) (by assumption))
    | with_reducible apply State.Steady.after (State.cloneRow_steady _ _ _ _ _ _)
    | with_reducible apply State.Steady.after (State.pair_steady (State.cloneRow_steady _ _ _ _ _ _) (by assumption))
    | with_reducible apply State.Steady.after (State.foldl_steady ?_ _ _)
    | with_reducible apply State.Steady.after (State.foldl2_steady ?_ _ _)
    | intro _
    | split
    | dsimp only

theorem State.cloneAll_steady (s : State) (p : Nat) (t : Table) (v : Version) (n : Nat) :
    s.Steady (State.cloneAll s p t v n).2 := by
  unfold State.cloneAll
  repeat' first
    | with_reducible refine State.ite_steady ?_ ?_
    | with_reducible refine State.ite2_steady ?_ ?_
    | with_reducible exact State.Steady.refl _
    | with_reducible assumption
    | with_reducible apply State.Steady.after (State.cloneBucket_steady _ _ _ _ _ _ _)
    | with_reducible apply State.Steady.after (State.pair_steady (State.cloneBucket_steady _ _ _ _ _ _ _) (by assumption))
    | with_reducible apply State.Steady.after (State.foldl_steady ?_ _ _)
    | with_reducible apply State.Steady.after (State.foldl2_steady ?_ _ _)
    | ((try lift_lets); intro x; refine State.cut_steady (x := x) ?_ ?_; (on_goal 1 => unfold x); (on_goal 2 => (clear_value x; intro _)))
    | ((try lift_lets); intro x; refine State.cut_steady (x := x.2) ?_ ?_; (on_goal 1 => unfold x); (on_goal 2 => (clear_value x; intro _)))
    | ((try lift_lets); intro x; try clear_value x)
    | intro _
    | split
    | dsimp only

theorem State.dropVersion_still (s : State) (p table n : Nat) :
    s.Still (State.dropVersion s p table n) := by
  unfold State.dropVersion
  repeat' first
    | with_reducible exact State.Still.refl _
    | with_reducible assumption
    | with_reducible apply State.Still.after (State.setTable_still _ _ _)
    | intro _
    | split
    | with_reducible fail_if_no_progress apply State.Still.after (State.mk_still _)
    | dsimp only

theorem execTableVersionOpen_steady (id : Nat) (s : State) :
    ∀ t_, execTableVersionOpen id s = .next t_ → s.Steady t_ := by
  unfold execTableVersionOpen
  refine State.next_steady ?_
  repeat' first
    | with_reducible refine State.ite_steady ?_ ?_
    | with_reducible refine State.ite2_steady ?_ ?_
    | with_reducible exact State.Steady.refl _
    | with_reducible assumption
    | with_reducible apply State.Steady.after ((State.finish_still _ _ _ _).steady)
    | with_reducible apply State.Steady.after (State.addVersion_steady _ _ _ _)
    | with_reducible apply State.Steady.after (State.cloneAll_steady _ _ _ _ _)
    | with_reducible apply State.Steady.after (State.pair_steady (State.cloneAll_steady _ _ _ _ _) (by assumption))
    | with_reducible apply State.Steady.after ((State.dropVersion_still _ _ _ _).steady)
    | ((try lift_lets); intro x; refine State.cut_steady (x := x) ?_ ?_; (on_goal 1 => unfold x); (on_goal 2 => (clear_value x; intro _)))
    | ((try lift_lets); intro x; refine State.cut_steady (x := x.2) ?_ ?_; (on_goal 1 => unfold x); (on_goal 2 => (clear_value x; intro _)))
    | ((try lift_lets); intro x; try clear_value x)
    | intro _
    | split
    | dsimp only

theorem execTableVersionSwitch_still (id : Nat) (s : State) :
    ∀ t_, execTableVersionSwitch id s = .next t_ → s.Still t_ := by
  unfold execTableVersionSwitch
  refine State.next_still ?_
  repeat' first
    | with_reducible refine State.ite_still ?_ ?_
    | with_reducible refine State.ite2_still ?_ ?_
    | with_reducible exact State.Still.refl _
    | with_reducible assumption
    | with_reducible apply State.Still.after (State.setCmd_still _ _)
    | with_reducible apply State.Still.after (State.finish_still _ _ _ _)
    | with_reducible apply State.Still.after (State.setTable_still _ _ _)
    | ((try lift_lets); intro x; refine State.cut_still (x := x) ?_ ?_; (on_goal 1 => unfold x); (on_goal 2 => (clear_value x; intro _)))
    | ((try lift_lets); intro x; refine State.cut_still (x := x.2) ?_ ?_; (on_goal 1 => unfold x); (on_goal 2 => (clear_value x; intro _)))
    | ((try lift_lets); intro x; try clear_value x)
    | intro _
    | split
    | with_reducible fail_if_no_progress apply State.Still.after (State.mk_still _)
    | dsimp only

theorem State.endPass_steady (s : State) (p table version : Nat) :
    s.Steady (State.endPass s p table version) := by
  unfold State.endPass
  repeat' first
    | with_reducible refine State.ite_steady ?_ ?_
    | with_reducible refine State.ite2_steady ?_ ?_
    | with_reducible exact State.Steady.refl _
    | with_reducible assumption
    | with_reducible apply State.Steady.after ((State.setLane_still _ _ _ _).steady)
    | with_reducible apply State.Steady.after (State.abandonRow_steady _ _ _ _)
    | with_reducible apply State.Steady.after (State.foldl_steady ?_ _ _)
    | with_reducible apply State.Steady.after (State.foldl2_steady ?_ _ _)
    | ((try lift_lets); intro x; refine State.cut_steady (x := x) ?_ ?_; (on_goal 1 => unfold x); (on_goal 2 => (clear_value x; intro _)))
    | ((try lift_lets); intro x; refine State.cut_steady (x := x.2) ?_ ?_; (on_goal 1 => unfold x); (on_goal 2 => (clear_value x; intro _)))
    | ((try lift_lets); intro x; try clear_value x)
    | intro _
    | split
    | with_reducible fail_if_no_progress apply State.Steady.after ((State.mk_still _).steady)
    | dsimp only

theorem execSwitchEdge_steady (part : PartNo) (table : Nat) (s : State) :
    ∀ t_, execSwitchEdge part table s = .next t_ → s.Steady t_ := by
  unfold execSwitchEdge
  refine State.next_steady ?_
  repeat' first
    | with_reducible refine State.ite_steady ?_ ?_
    | with_reducible refine State.ite2_steady ?_ ?_
    | with_reducible exact State.Steady.refl _
    | with_reducible assumption
    | with_reducible apply State.Steady.after ((State.finish_still _ _ _ _).steady)
    | with_reducible apply State.Steady.after ((State.setTable_still _ _ _).steady)
    | with_reducible apply State.Steady.after (State.endPass_steady _ _ _ _)
    | ((try lift_lets); intro x; refine State.cut_steady (x := x) ?_ ?_; (on_goal 1 => unfold x); (on_goal 2 => (clear_value x; intro _)))
    | ((try lift_lets); intro x; refine State.cut_steady (x := x.2) ?_ ?_; (on_goal 1 => unfold x); (on_goal 2 => (clear_value x; intro _)))
    | ((try lift_lets); intro x; try clear_value x)
    | intro _
    | split
    | with_reducible fail_if_no_progress apply State.Steady.after ((State.mk_still _).steady)
    | dsimp only

theorem execTableDrop_still (id : Nat) (s : State) :
    ∀ t_, execTableDrop id s = .next t_ → s.Still t_ := by
  unfold execTableDrop
  refine State.next_still ?_
  repeat' first
    | with_reducible refine State.ite_still ?_ ?_
    | with_reducible refine State.ite2_still ?_ ?_
    | with_reducible exact State.Still.refl _
    | with_reducible assumption
    | with_reducible apply State.Still.after (State.setCmd_still _ _)
    | with_reducible apply State.Still.after (State.finish_still _ _ _ _)
    | with_reducible apply State.Still.after (State.setTable_still _ _ _)
    | intro _
    | split
    | with_reducible fail_if_no_progress apply State.Still.after (State.mk_still _)
    | dsimp only

end Sys2Proof.Machine
end

