-- ==== Sys2Proof/Laws/KeepLookup.lean ====
section
/-!
SUPPORT. What the operations and meanings of Machine/Lookup.lean keep of a state.
-/
set_option linter.unusedVariables false
set_option linter.unreachableTactic false
set_option linter.unusedTactic false
namespace Sys2Proof.Machine

theorem State.latAccess_still (s : State) (vault n : Nat) :
    s.Still (State.latAccess s vault n) := by
  unfold State.latAccess
  repeat' first
    | with_reducible exact State.Still.refl _
    | with_reducible assumption
    | intro _
    | split
    | with_reducible fail_if_no_progress apply State.Still.after (State.mk_still _)
    | dsimp only

theorem State.readResolved_steady (s : State) (p : Nat) (t : Table) (v : Version) (reader : Nat) (lat : Bool) (id : Nat) :
    s.Steady (State.readResolved s p t v reader lat id).2 := by
  unfold State.readResolved
  repeat' first
    | with_reducible refine State.ite_steady ?_ ?_
    | with_reducible refine State.ite2_steady ?_ ?_
    | with_reducible exact State.Steady.refl _
    | with_reducible assumption
    | with_reducible apply State.Steady.after ((State.bump_still _ _ _).steady)
    | with_reducible apply State.Steady.after ((State.resolve_still _ _ _ _ _ _).steady)
    | with_reducible apply State.Steady.after (State.pair_steady ((State.resolve_still _ _ _ _ _ _).steady) (by assumption))
    | with_reducible apply State.Steady.after ((State.readValues_still _ _ _ _ _).steady)
    | with_reducible apply State.Steady.after (State.pair_steady ((State.readValues_still _ _ _ _ _).steady) (by assumption))
    | with_reducible apply State.Steady.after (State.countPop_steady _ _ _ _ _ _ _)
    | with_reducible apply State.Steady.after ((State.latAccess_still _ _ _).steady)
    | ((try lift_lets); intro x; refine State.cut_steady (x := x) ?_ ?_; (on_goal 1 => unfold x); (on_goal 2 => (clear_value x; intro _)))
    | ((try lift_lets); intro x; refine State.cut_steady (x := x.2) ?_ ?_; (on_goal 1 => unfold x); (on_goal 2 => (clear_value x; intro _)))
    | ((try lift_lets); intro x; try clear_value x)
    | intro _
    | split
    | dsimp only

theorem State.readRow_steady (s : State) (p : Nat) (t : Table) (vn reader : Nat) (lat : Bool) (id : Nat) :
    s.Steady (State.readRow s p t vn reader lat id).2 := by
  unfold State.readRow
  repeat' first
    | with_reducible refine State.ite_steady ?_ ?_
    | with_reducible refine State.ite2_steady ?_ ?_
    | with_reducible exact State.Steady.refl _
    | with_reducible assumption
    | with_reducible apply State.Steady.after ((State.bump_still _ _ _).steady)
    | with_reducible apply State.Steady.after (State.readResolved_steady _ _ _ _ _ _ _)
    | with_reducible apply State.Steady.after (State.pair_steady (State.readResolved_steady _ _ _ _ _ _ _) (by assumption))
    | ((try lift_lets); intro x; refine State.cut_steady (x := x) ?_ ?_; (on_goal 1 => unfold x); (on_goal 2 => (clear_value x; intro _)))
    | ((try lift_lets); intro x; refine State.cut_steady (x := x.2) ?_ ?_; (on_goal 1 => unfold x); (on_goal 2 => (clear_value x; intro _)))
    | ((try lift_lets); intro x; try clear_value x)
    | intro _
    | split
    | with_reducible fail_if_no_progress apply State.Steady.after ((State.mk_still _).steady)
    | dsimp only

theorem State.shuffleFree_still {α : Type} (a0 : Nat) (s : State) (a2 : List α) :
    s.Still (State.shuffleFree a0 s a2).2 := by
  induction a0 generalizing s a2 with
  | zero => exact State.Still.refl s
  | succ n ih =>
    unfold State.shuffleFree
    repeat' first
      | with_reducible refine State.ite_still ?_ ?_
      | with_reducible refine State.ite2_still ?_ ?_
      | cases (by assumption : n + 1 = Nat.succ _)
      | with_reducible apply State.Still.after (ih _ _)
      | with_reducible apply State.Still.after (State.pair_still (ih _ _) (by assumption))
      | with_reducible exact State.Still.refl _
      | with_reducible assumption
      | with_reducible apply State.Still.after (State.free_still _)
      | with_reducible apply State.Still.after (State.pair_still (State.free_still _) (by assumption))
      | ((try lift_lets); intro x; refine State.cut_still (x := x) ?_ ?_; (on_goal 1 => unfold x); (on_goal 2 => (clear_value x; intro _)))
      | ((try lift_lets); intro x; refine State.cut_still (x := x.2) ?_ ?_; (on_goal 1 => unfold x); (on_goal 2 => (clear_value x; intro _)))
      | ((try lift_lets); intro x; try clear_value x)
      | intro _
      | split
      | dsimp only

theorem State.standPartial_steady (s : State) (p : Nat) (t : Table) (vn : Nat) (lat : Bool) (pool : Nat) (part : List (Nat × Nat)) :
    s.Steady (State.standPartial s p t vn lat pool part).2 := by
  unfold State.standPartial
  repeat' first
    | with_reducible refine State.ite_steady ?_ ?_
    | with_reducible refine State.ite2_steady ?_ ?_
    | with_reducible exact State.Steady.refl _
    | with_reducible assumption
    | with_reducible apply State.Steady.after (State.readRow_steady _ _ _ _ _ _ _)
    | with_reducible apply State.Steady.after (State.pair_steady (State.readRow_steady _ _ _ _ _ _ _) (by assumption))
    | with_reducible apply State.Steady.after (State.foldl_steady ?_ _ _)
    | with_reducible apply State.Steady.after (State.foldl2_steady ?_ _ _)
    | ((try lift_lets); intro x; refine State.cut_steady (x := x) ?_ ?_; (on_goal 1 => unfold x); (on_goal 2 => (clear_value x; intro _)))
    | ((try lift_lets); intro x; refine State.cut_steady (x := x.2) ?_ ?_; (on_goal 1 => unfold x); (on_goal 2 => (clear_value x; intro _)))
    | ((try lift_lets); intro x; try clear_value x)
    | intro _
    | split
    | dsimp only

theorem State.poolBag_steady (s : State) (p : Nat) (t : Table) (vn : Nat) (lat : Bool) (pool : Nat) (ids : List (Nat × Nat)) :
    s.Steady (State.poolBag s p t vn lat pool ids).2 := by
  unfold State.poolBag
  repeat' first
    | with_reducible refine State.ite_steady ?_ ?_
    | with_reducible refine State.ite2_steady ?_ ?_
    | with_reducible exact State.Steady.refl _
    | with_reducible assumption
    | with_reducible apply State.Steady.after ((State.shuffleFree_still _ _ _).steady)
    | with_reducible apply State.Steady.after (State.pair_steady ((State.shuffleFree_still _ _ _).steady) (by assumption))
    | with_reducible apply State.Steady.after (State.standPartial_steady _ _ _ _ _ _ _)
    | with_reducible apply State.Steady.after (State.pair_steady (State.standPartial_steady _ _ _ _ _ _ _) (by assumption))
    | with_reducible apply State.Steady.after (State.foldl_steady ?_ _ _)
    | with_reducible apply State.Steady.after (State.foldl2_steady ?_ _ _)
    | ((try lift_lets); intro x; refine State.cut_steady (x := x) ?_ ?_; (on_goal 1 => unfold x); (on_goal 2 => (clear_value x; intro _)))
    | ((try lift_lets); intro x; refine State.cut_steady (x := x.2) ?_ ?_; (on_goal 1 => unfold x); (on_goal 2 => (clear_value x; intro _)))
    | ((try lift_lets); intro x; try clear_value x)
    | intro _
    | split
    | dsimp only

theorem State.outRow_still (s : State) (p fmt : Nat) (row : List Nat) :
    s.Still (State.outRow s p fmt row).2 := by
  unfold State.outRow
  repeat' first
    | with_reducible exact State.Still.refl _
    | with_reducible assumption
    | with_reducible apply State.Still.after (State.tally_still _ _ _)
    | ((try lift_lets); intro x; refine State.cut_still (x := x) ?_ ?_; (on_goal 1 => unfold x); (on_goal 2 => (clear_value x; intro _)))
    | ((try lift_lets); intro x; refine State.cut_still (x := x.2) ?_ ?_; (on_goal 1 => unfold x); (on_goal 2 => (clear_value x; intro _)))
    | ((try lift_lets); intro x; try clear_value x)
    | intro _
    | split
    | dsimp only

theorem State.lookupRows_steady (s : State) (p : Nat) (t : Table) (vn : Nat) (lat : Bool) (pool fmt : Nat) (bags : List (List (Nat × Nat))) :
    s.Steady (State.lookupRows s p t vn lat pool fmt bags).2 := by
  unfold State.lookupRows
  repeat' first
    | with_reducible refine State.ite_steady ?_ ?_
    | with_reducible refine State.ite2_steady ?_ ?_
    | with_reducible exact State.Steady.refl _
    | with_reducible assumption
    | with_reducible apply State.Steady.after (State.readRow_steady _ _ _ _ _ _ _)
    | with_reducible apply State.Steady.after (State.pair_steady (State.readRow_steady _ _ _ _ _ _ _) (by assumption))
    | with_reducible apply State.Steady.after (State.poolBag_steady _ _ _ _ _ _ _)
    | with_reducible apply State.Steady.after (State.pair_steady (State.poolBag_steady _ _ _ _ _ _ _) (by assumption))
    | with_reducible apply State.Steady.after ((State.outRow_still _ _ _ _).steady)
    | with_reducible apply State.Steady.after (State.pair_steady ((State.outRow_still _ _ _ _).steady) (by assumption))
    | with_reducible apply State.Steady.after (State.foldl_steady ?_ _ _)
    | with_reducible apply State.Steady.after (State.foldl2_steady ?_ _ _)
    | ((try lift_lets); intro x; refine State.cut_steady (x := x) ?_ ?_; (on_goal 1 => unfold x); (on_goal 2 => (clear_value x; intro _)))
    | ((try lift_lets); intro x; refine State.cut_steady (x := x.2) ?_ ?_; (on_goal 1 => unfold x); (on_goal 2 => (clear_value x; intro _)))
    | ((try lift_lets); intro x; try clear_value x)
    | intro _
    | split
    | dsimp only

theorem State.lookupBags_steady (s : State) (c : Cmd) (t : Table) (bags : List (List (Nat × Nat))) :
    s.Steady (State.lookupBags s c t bags) := by
  unfold State.lookupBags
  repeat' first
    | with_reducible refine State.ite_steady ?_ ?_
    | with_reducible refine State.ite2_steady ?_ ?_
    | with_reducible exact State.Steady.refl _
    | with_reducible assumption
    | with_reducible apply State.Steady.after ((State.workDone_still _ _ _ _).steady)
    | with_reducible apply State.Steady.after (State.putOut_steady _ _ _ _ _)
    | with_reducible apply State.Steady.after (State.pair_steady (State.putOut_steady _ _ _ _ _) (by assumption))
    | with_reducible apply State.Steady.after (State.lookupRows_steady _ _ _ _ _ _ _ _)
    | with_reducible apply State.Steady.after (State.pair_steady (State.lookupRows_steady _ _ _ _ _ _ _ _) (by assumption))
    | with_reducible apply State.Steady.after (State.foldl_steady ?_ _ _)
    | with_reducible apply State.Steady.after (State.foldl2_steady ?_ _ _)
    | ((try lift_lets); intro x; refine State.cut_steady (x := x) ?_ ?_; (on_goal 1 => unfold x); (on_goal 2 => (clear_value x; intro _)))
    | ((try lift_lets); intro x; refine State.cut_steady (x := x.2) ?_ ?_; (on_goal 1 => unfold x); (on_goal 2 => (clear_value x; intro _)))
    | ((try lift_lets); intro x; try clear_value x)
    | intro _
    | split
    | dsimp only

theorem State.lookupWork_steady (s : State) (c : Cmd) (data : Bytes) :
    s.Steady (State.lookupWork s c data) := by
  unfold State.lookupWork
  repeat' first
    | with_reducible refine State.ite_steady ?_ ?_
    | with_reducible refine State.ite2_steady ?_ ?_
    | with_reducible exact State.Steady.refl _
    | with_reducible assumption
    | with_reducible apply State.Steady.after ((State.workDone_still _ _ _ _).steady)
    | with_reducible apply State.Steady.after (State.lookupBags_steady _ _ _ _)
    | intro _
    | split
    | dsimp only

theorem State.countLookup_still (s : State) (p : Nat) (lat late inBound : Bool) :
    s.Still (State.countLookup s p lat late inBound) := by
  unfold State.countLookup
  repeat' first
    | with_reducible refine State.ite_still ?_ ?_
    | with_reducible refine State.ite2_still ?_ ?_
    | with_reducible exact State.Still.refl _
    | with_reducible assumption
    | with_reducible apply State.Still.after (State.bump_still _ _ _)
    | with_reducible apply State.Still.after (State.addWork_still _ _ _ _)
    | ((try lift_lets); intro x; refine State.cut_still (x := x) ?_ ?_; (on_goal 1 => unfold x); (on_goal 2 => (clear_value x; intro _)))
    | ((try lift_lets); intro x; refine State.cut_still (x := x.2) ?_ ?_; (on_goal 1 => unfold x); (on_goal 2 => (clear_value x; intro _)))
    | ((try lift_lets); intro x; try clear_value x)
    | intro _
    | split
    | dsimp only

theorem State.countRefused_still (s : State) (c : Cmd) (lat : Bool) :
    s.Still (State.countRefused s c lat) := by
  unfold State.countRefused
  repeat' first
    | with_reducible refine State.ite_still ?_ ?_
    | with_reducible refine State.ite2_still ?_ ?_
    | with_reducible exact State.Still.refl _
    | with_reducible assumption
    | with_reducible apply State.Still.after (State.countLookup_still _ _ _ _ _)
    | intro _
    | split
    | dsimp only

theorem execLookup_steady (id : Nat) (data : Bytes) (s : State) :
    ∀ t_, execLookup id data s = .next t_ → s.Steady t_ := by
  unfold execLookup
  refine State.next_steady ?_
  repeat' first
    | with_reducible exact State.Steady.refl _
    | with_reducible assumption
    | with_reducible apply State.Steady.after ((State.setCmd_still _ _).steady)
    | with_reducible apply State.Steady.after ((State.admitIf_still _ _ _).steady)
    | with_reducible apply State.Steady.after (State.lookupWork_steady _ _ _)
    | with_reducible apply State.Steady.after ((State.countRefused_still _ _ _).steady)
    | ((try lift_lets); intro x; refine State.cut_steady (x := x) ?_ ?_; (on_goal 1 => unfold x); (on_goal 2 => (clear_value x; intro _)))
    | ((try lift_lets); intro x; refine State.cut_steady (x := x.2) ?_ ?_; (on_goal 1 => unfold x); (on_goal 2 => (clear_value x; intro _)))
    | ((try lift_lets); intro x; try clear_value x)
    | intro _
    | split
    | with_reducible fail_if_no_progress apply State.Steady.after ((State.mk_still _).steady)
    | dsimp only

theorem State.sendRsp_still (s : State) (r : RltReq) (st : Status) (out : Bytes) :
    s.Still (State.sendRsp s r st out) := by
  unfold State.sendRsp
  repeat' first
    | with_reducible refine State.ite_still ?_ ?_
    | with_reducible refine State.ite2_still ?_ ?_
    | with_reducible exact State.Still.refl _
    | with_reducible assumption
    | with_reducible apply State.Still.after (State.sendRlt_still _ _ _ _)
    | ((try lift_lets); intro x; refine State.cut_still (x := x) ?_ ?_; (on_goal 1 => unfold x); (on_goal 2 => (clear_value x; intro _)))
    | ((try lift_lets); intro x; refine State.cut_still (x := x.2) ?_ ?_; (on_goal 1 => unfold x); (on_goal 2 => (clear_value x; intro _)))
    | ((try lift_lets); intro x; try clear_value x)
    | intro _
    | split
    | dsimp only

theorem execLookupReq_still (net : NetNo) (sub : SubNo) (packet : RltPacket) (s : State) :
    ∀ t_, execLookupReq net sub packet s = .next t_ → s.Still t_ := by
  unfold execLookupReq
  refine State.next_still ?_
  repeat' first
    | with_reducible refine State.ite_still ?_ ?_
    | with_reducible refine State.ite2_still ?_ ?_
    | with_reducible exact State.Still.refl _
    | with_reducible assumption
    | with_reducible apply State.Still.after (State.bump_still _ _ _)
    | with_reducible apply State.Still.after (State.latArrive_still _)
    | with_reducible apply State.Still.after (State.enqueue_still _ _ _ _)
    | with_reducible apply State.Still.after (State.pair_still (State.enqueue_still _ _ _ _) (by assumption))
    | with_reducible apply State.Still.after (State.rltIntake_still _ _ _ _)
    | with_reducible apply State.Still.after (State.pair_still (State.rltIntake_still _ _ _ _) (by assumption))
    | with_reducible apply State.Still.after (State.countLookup_still _ _ _ _ _)
    | with_reducible apply State.Still.after (State.sendRsp_still _ _ _ _)
    | ((try lift_lets); intro x; refine State.cut_still (x := x) ?_ ?_; (on_goal 1 => unfold x); (on_goal 2 => (clear_value x; intro _)))
    | ((try lift_lets); intro x; refine State.cut_still (x := x.2) ?_ ?_; (on_goal 1 => unfold x); (on_goal 2 => (clear_value x; intro _)))
    | ((try lift_lets); intro x; try clear_value x)
    | intro _
    | split
    | with_reducible fail_if_no_progress apply State.Still.after (State.mk_still _)
    | dsimp only

theorem State.rltWork_steady (s : State) (r : RltReq) :
    s.Steady (State.rltWork s r).2 := by
  unfold State.rltWork
  repeat' first
    | with_reducible refine State.ite_steady ?_ ?_
    | with_reducible refine State.ite2_steady ?_ ?_
    | with_reducible exact State.Steady.refl _
    | with_reducible assumption
    | with_reducible apply State.Steady.after (State.lookupRows_steady _ _ _ _ _ _ _ _)
    | with_reducible apply State.Steady.after (State.pair_steady (State.lookupRows_steady _ _ _ _ _ _ _ _) (by assumption))
    | ((try lift_lets); intro x; refine State.cut_steady (x := x) ?_ ?_; (on_goal 1 => unfold x); (on_goal 2 => (clear_value x; intro _)))
    | ((try lift_lets); intro x; refine State.cut_steady (x := x.2) ?_ ?_; (on_goal 1 => unfold x); (on_goal 2 => (clear_value x; intro _)))
    | ((try lift_lets); intro x; try clear_value x)
    | intro _
    | split
    | dsimp only

theorem State.lateRange_still (s : State) (c : Cmd) (addr n : Nat) :
    ∀ t_, State.lateRange s c addr n = some t_ → s.Still t_ := by
  intro t_ h
  unfold State.lateRange at h
  try dsimp only at h
  repeat' split at h
  all_goals try contradiction
  all_goals try first
    | (injection h with h; subst h)
    | (obtain ⟨z_, hz_, h⟩ := Option.map_eq_some_iff.1 h; subst h)
  all_goals repeat' first
    | with_reducible refine State.ite_still ?_ ?_
    | with_reducible refine State.ite2_still ?_ ?_
    | with_reducible exact State.Still.refl _
    | with_reducible assumption
    | with_reducible apply State.Still.after (State.dmaFault_still _ _ _ _ _ _)
    | with_reducible apply State.Still.after (State.finish_still _ _ _ _)
    | intro _
    | split
    | dsimp only

theorem State.routeSome_still (s : State) (c : Cmd) (t : Table) (op : LaneOp) (size n : Nat) (b : Bytes) :
    s.Still (State.routeSome s c t op size n b) := by
  unfold State.routeSome
  repeat' first
    | with_reducible exact State.Still.refl _
    | with_reducible assumption
    | with_reducible apply State.Still.after (State.setCmd_still _ _)
    | with_reducible apply State.Still.after (State.numbered_still _)
    | with_reducible apply State.Still.after (State.route_still _ _ _)
    | with_reducible apply State.Still.after (State.foldl_still ?_ _ _)
    | with_reducible apply State.Still.after (State.foldl2_still ?_ _ _)
    | ((try lift_lets); intro x; refine State.cut_still (x := x) ?_ ?_; (on_goal 1 => unfold x); (on_goal 2 => (clear_value x; intro _)))
    | ((try lift_lets); intro x; refine State.cut_still (x := x.2) ?_ ?_; (on_goal 1 => unfold x); (on_goal 2 => (clear_value x; intro _)))
    | ((try lift_lets); intro x; try clear_value x)
    | intro _
    | split
    | with_reducible fail_if_no_progress apply State.Still.after (State.mk_still _)
    | dsimp only

theorem State.routeAll_still (s : State) (c : Cmd) (t : Table) (op : LaneOp) (size : Nat) (b : Bytes) :
    s.Still (State.routeAll s c t op size b) := by
  unfold State.routeAll
  repeat' first
    | with_reducible exact State.Still.refl _
    | with_reducible assumption
    | with_reducible apply State.Still.after (State.routeSome_still _ _ _ _ _ _ _)
    | intro _
    | split
    | dsimp only

theorem execUpdate_still (id : Nat) (data : Bytes) (s : State) :
    ∀ t_, execUpdate id data s = .next t_ → s.Still t_ := by
  unfold execUpdate
  refine State.next_still ?_
  repeat' first
    | with_reducible refine State.ite_still ?_ ?_
    | with_reducible refine State.ite2_still ?_ ?_
    | with_reducible exact State.Still.refl _
    | with_reducible assumption
    | with_reducible apply State.Still.after (State.setCmd_still _ _)
    | with_reducible apply State.Still.after (State.finish_still _ _ _ _)
    | with_reducible apply State.Still.after (State.admitItem_still _ _)
    | with_reducible apply State.Still.after (State.lateRange_still _ _ _ _ _ (by assumption))
    | with_reducible apply State.Still.after (State.routeAll_still _ _ _ _ _ _)
    | ((try lift_lets); intro x; refine State.cut_still (x := x) ?_ ?_; (on_goal 1 => unfold x); (on_goal 2 => (clear_value x; intro _)))
    | ((try lift_lets); intro x; refine State.cut_still (x := x.2) ?_ ?_; (on_goal 1 => unfold x); (on_goal 2 => (clear_value x; intro _)))
    | ((try lift_lets); intro x; try clear_value x)
    | intro _
    | split
    | with_reducible fail_if_no_progress apply State.Still.after (State.mk_still _)
    | dsimp only

theorem execTableWriteRows_still (id : Nat) (data : Bytes) (s : State) :
    ∀ t_, execTableWriteRows id data s = .next t_ → s.Still t_ := by
  unfold execTableWriteRows
  refine State.next_still ?_
  repeat' first
    | with_reducible refine State.ite_still ?_ ?_
    | with_reducible refine State.ite2_still ?_ ?_
    | with_reducible exact State.Still.refl _
    | with_reducible assumption
    | with_reducible apply State.Still.after (State.setCmd_still _ _)
    | with_reducible apply State.Still.after (State.finish_still _ _ _ _)
    | with_reducible apply State.Still.after (State.admitItem_still _ _)
    | with_reducible apply State.Still.after (State.write_still _ _ _ ?_)
    | with_reducible apply State.Still.after (State.lateRange_still _ _ _ _ _ (by assumption))
    | with_reducible apply State.Still.after (State.routeAll_still _ _ _ _ _ _)
    | ((try lift_lets); intro x; refine State.cut_still (x := x) ?_ ?_; (on_goal 1 => unfold x); (on_goal 2 => (clear_value x; intro _)))
    | ((try lift_lets); intro x; refine State.cut_still (x := x.2) ?_ ?_; (on_goal 1 => unfold x); (on_goal 2 => (clear_value x; intro _)))
    | ((try lift_lets); intro x; try clear_value x)
    | intro _
    | split
    | with_reducible fail_if_no_progress apply State.Still.after (State.mk_still _)
    | dsimp only

theorem State.readForUpdate_still (s : State) (t : Table) (core : Nat) (e : RowEntry) :
    s.Still (State.readForUpdate s t core e).2 := by
  unfold State.readForUpdate
  repeat' first
    | with_reducible refine State.ite_still ?_ ?_
    | with_reducible refine State.ite2_still ?_ ?_
    | with_reducible exact State.Still.refl _
    | with_reducible assumption
    | with_reducible apply State.Still.after (State.readValues_still _ _ _ _ _)
    | with_reducible apply State.Still.after (State.pair_still (State.readValues_still _ _ _ _ _) (by assumption))
    | with_reducible apply State.Still.after (State.readSlot_still _ _ _ _)
    | with_reducible apply State.Still.after (State.pair_still (State.readSlot_still _ _ _ _) (by assumption))
    | ((try lift_lets); intro x; refine State.cut_still (x := x) ?_ ?_; (on_goal 1 => unfold x); (on_goal 2 => (clear_value x; intro _)))
    | ((try lift_lets); intro x; refine State.cut_still (x := x.2) ?_ ?_; (on_goal 1 => unfold x); (on_goal 2 => (clear_value x; intro _)))
    | ((try lift_lets); intro x; try clear_value x)
    | intro _
    | split
    | dsimp only

theorem State.writeInPlace_steady (s : State) (p : Nat) (t : Table) (v : Version) (core pos : Nat) (e : RowEntry) (q : Bytes × Tally) (state : Bytes) :
    s.Steady (State.writeInPlace s p t v core pos e q state) := by
  unfold State.writeInPlace
  repeat' first
    | with_reducible refine State.ite_steady ?_ ?_
    | with_reducible refine State.ite2_steady ?_ ?_
    | with_reducible exact State.Steady.refl _
    | with_reducible assumption
    | with_reducible apply State.Steady.after ((State.bump_still _ _ _).steady)
    | with_reducible apply State.Steady.after (State.vaultWrite_steady _ _ _)
    | with_reducible apply State.Steady.after (State.pair_steady (State.vaultWrite_steady _ _ _) (by assumption))
    | with_reducible apply State.Steady.after (State.putUpper_steady _ _ _ _ _)
    | with_reducible apply State.Steady.after ((State.tally_still _ _ _).steady)
    | ((try lift_lets); intro x; refine State.cut_steady (x := x) ?_ ?_; (on_goal 1 => unfold x); (on_goal 2 => (clear_value x; intro _)))
    | ((try lift_lets); intro x; refine State.cut_steady (x := x.2) ?_ ?_; (on_goal 1 => unfold x); (on_goal 2 => (clear_value x; intro _)))
    | ((try lift_lets); intro x; try clear_value x)
    | intro _
    | split
    | with_reducible fail_if_no_progress apply State.Steady.after ((State.mk_still _).steady)
    | dsimp only

theorem State.updateRow_steady (s : State) (p : Nat) (t : Table) (v : Version) (c : Cmd) (r : LaneRec) (pos : Nat) (e : RowEntry) (g : List Nat) :
    s.Steady (State.updateRow s p t v c r pos e g).2 := by
  unfold State.updateRow
  repeat' first
    | with_reducible refine State.ite_steady ?_ ?_
    | with_reducible refine State.ite2_steady ?_ ?_
    | with_reducible exact State.Steady.refl _
    | with_reducible assumption
    | with_reducible apply State.Steady.after ((State.bump_still _ _ _).steady)
    | with_reducible apply State.Steady.after ((State.tally_still _ _ _).steady)
    | with_reducible apply State.Steady.after ((State.readForUpdate_still _ _ _ _).steady)
    | with_reducible apply State.Steady.after (State.pair_steady ((State.readForUpdate_still _ _ _ _).steady) (by assumption))
    | with_reducible apply State.Steady.after (State.writeInPlace_steady _ _ _ _ _ _ _ _ _)
    | ((try lift_lets); intro x; refine State.cut_steady (x := x) ?_ ?_; (on_goal 1 => unfold x); (on_goal 2 => (clear_value x; intro _)))
    | ((try lift_lets); intro x; refine State.cut_steady (x := x.2) ?_ ?_; (on_goal 1 => unfold x); (on_goal 2 => (clear_value x; intro _)))
    | ((try lift_lets); intro x; try clear_value x)
    | intro _
    | split
    | dsimp only

theorem State.materialise_steady (s : State) (p : Nat) (t : Table) (v : Version) (k : Nat) :
    s.Steady (State.materialise s p t v k).2 := by
  unfold State.materialise
  repeat' first
    | with_reducible exact State.Steady.refl _
    | with_reducible assumption
    | with_reducible apply State.Steady.after ((State.bump_still _ _ _).steady)
    | with_reducible apply State.Steady.after ((State.tally_still _ _ _).steady)
    | with_reducible apply State.Steady.after (State.store_steady _ _ _ _ _ _ _ _)
    | with_reducible apply State.Steady.after (State.pair_steady (State.store_steady _ _ _ _ _ _ _ _) (by assumption))
    | ((try lift_lets); intro x; refine State.cut_steady (x := x) ?_ ?_; (on_goal 1 => unfold x); (on_goal 2 => (clear_value x; intro _)))
    | ((try lift_lets); intro x; refine State.cut_steady (x := x.2) ?_ ?_; (on_goal 1 => unfold x); (on_goal 2 => (clear_value x; intro _)))
    | ((try lift_lets); intro x; try clear_value x)
    | intro _
    | split
    | dsimp only

theorem State.updateStored_steady (s : State) (c : Cmd) (r : LaneRec) (g : List Nat) :
    s.Steady (State.updateStored s c r g).2 := by
  unfold State.updateStored
  repeat' first
    | with_reducible exact State.Steady.refl _
    | with_reducible assumption
    | with_reducible apply State.Steady.after ((State.resolve_still _ _ _ _ _ _).steady)
    | with_reducible apply State.Steady.after (State.pair_steady ((State.resolve_still _ _ _ _ _ _).steady) (by assumption))
    | with_reducible apply State.Steady.after (State.updateRow_steady _ _ _ _ _ _ _ _ _)
    | with_reducible apply State.Steady.after (State.pair_steady (State.updateRow_steady _ _ _ _ _ _ _ _ _) (by assumption))
    | intro _
    | split
    | dsimp only

theorem State.applyUpdate_steady (s : State) (c : Cmd) (r : LaneRec) (t : Table) (v : Version) :
    s.Steady (State.applyUpdate s c r t v).2 := by
  unfold State.applyUpdate
  repeat' first
    | with_reducible refine State.ite_steady ?_ ?_
    | with_reducible refine State.ite2_steady ?_ ?_
    | with_reducible exact State.Steady.refl _
    | with_reducible assumption
    | with_reducible apply State.Steady.after ((State.bump_still _ _ _).steady)
    | with_reducible apply State.Steady.after ((State.resolve_still _ _ _ _ _ _).steady)
    | with_reducible apply State.Steady.after (State.pair_steady ((State.resolve_still _ _ _ _ _ _).steady) (by assumption))
    | with_reducible apply State.Steady.after (State.updateRow_steady _ _ _ _ _ _ _ _ _)
    | with_reducible apply State.Steady.after (State.pair_steady (State.updateRow_steady _ _ _ _ _ _ _ _ _) (by assumption))
    | with_reducible apply State.Steady.after (State.materialise_steady _ _ _ _ _)
    | with_reducible apply State.Steady.after (State.pair_steady (State.materialise_steady _ _ _ _ _) (by assumption))
    | with_reducible apply State.Steady.after (State.updateStored_steady _ _ _ _)
    | with_reducible apply State.Steady.after (State.pair_steady (State.updateStored_steady _ _ _ _) (by assumption))
    | ((try lift_lets); intro x; refine State.cut_steady (x := x) ?_ ?_; (on_goal 1 => unfold x); (on_goal 2 => (clear_value x; intro _)))
    | ((try lift_lets); intro x; refine State.cut_steady (x := x.2) ?_ ?_; (on_goal 1 => unfold x); (on_goal 2 => (clear_value x; intro _)))
    | ((try lift_lets); intro x; try clear_value x)
    | intro _
    | split
    | dsimp only

theorem State.applyWrite_steady (s : State) (c : Cmd) (r : LaneRec) (grade : Nat) (t : Table) (v : Version) :
    s.Steady (State.applyWrite s c r grade t v).2 := by
  unfold State.applyWrite
  repeat' first
    | with_reducible refine State.ite_steady ?_ ?_
    | with_reducible refine State.ite2_steady ?_ ?_
    | with_reducible exact State.Steady.refl _
    | with_reducible assumption
    | with_reducible apply State.Steady.after ((State.bump_still _ _ _).steady)
    | with_reducible apply State.Steady.after ((State.tally_still _ _ _).steady)
    | with_reducible apply State.Steady.after (State.store_steady _ _ _ _ _ _ _ _)
    | with_reducible apply State.Steady.after (State.pair_steady (State.store_steady _ _ _ _ _ _ _ _) (by assumption))
    | ((try lift_lets); intro x; refine State.cut_steady (x := x) ?_ ?_; (on_goal 1 => unfold x); (on_goal 2 => (clear_value x; intro _)))
    | ((try lift_lets); intro x; refine State.cut_steady (x := x.2) ?_ ?_; (on_goal 1 => unfold x); (on_goal 2 => (clear_value x; intro _)))
    | ((try lift_lets); intro x; try clear_value x)
    | intro _
    | split
    | dsimp only

theorem State.recordDone_still (s : State) (id : Nat) (a : Applied) :
    s.Still (State.recordDone s id a) := by
  unfold State.recordDone
  repeat' first
    | with_reducible refine State.ite_still ?_ ?_
    | with_reducible refine State.ite2_still ?_ ?_
    | with_reducible exact State.Still.refl _
    | with_reducible assumption
    | with_reducible apply State.Still.after (State.setCmd_still _ _)
    | with_reducible apply State.Still.after (State.workDone_still _ _ _ _)
    | ((try lift_lets); intro x; refine State.cut_still (x := x) ?_ ?_; (on_goal 1 => unfold x); (on_goal 2 => (clear_value x; intro _)))
    | ((try lift_lets); intro x; refine State.cut_still (x := x.2) ?_ ?_; (on_goal 1 => unfold x); (on_goal 2 => (clear_value x; intro _)))
    | ((try lift_lets); intro x; try clear_value x)
    | intro _
    | split
    | with_reducible fail_if_no_progress apply State.Still.after (State.mk_still _)
    | dsimp only

theorem State.applyRec_steady (s : State) (r : LaneRec) :
    s.Steady (State.applyRec s r) := by
  unfold State.applyRec
  repeat' first
    | with_reducible exact State.Steady.refl _
    | with_reducible assumption
    | with_reducible apply State.Steady.after (State.write_steady _ _ _ ?_)
    | with_reducible apply State.Steady.after (State.applyUpdate_steady _ _ _ _ _)
    | with_reducible apply State.Steady.after (State.pair_steady (State.applyUpdate_steady _ _ _ _ _) (by assumption))
    | with_reducible apply State.Steady.after (State.applyWrite_steady _ _ _ _ _ _)
    | with_reducible apply State.Steady.after (State.pair_steady (State.applyWrite_steady _ _ _ _ _ _) (by assumption))
    | with_reducible apply State.Steady.after ((State.recordDone_still _ _ _).steady)
    | ((try lift_lets); intro x; refine State.cut_steady (x := x) ?_ ?_; (on_goal 1 => unfold x); (on_goal 2 => (clear_value x; intro _)))
    | ((try lift_lets); intro x; refine State.cut_steady (x := x.2) ?_ ?_; (on_goal 1 => unfold x); (on_goal 2 => (clear_value x; intro _)))
    | ((try lift_lets); intro x; try clear_value x)
    | intro _
    | split
    | dsimp only

theorem State.laneItem_steady (s : State) (core lane : Nat) :
    s.Steady (State.laneItem s core lane) := by
  unfold State.laneItem
  repeat' first
    | with_reducible refine State.ite_steady ?_ ?_
    | with_reducible refine State.ite2_steady ?_ ?_
    | with_reducible exact State.Steady.refl _
    | with_reducible assumption
    | with_reducible apply State.Steady.after ((State.setLane_still _ _ _ _).steady)
    | with_reducible apply State.Steady.after (State.startMoves_steady _ _ _)
    | with_reducible apply State.Steady.after (State.applyRec_steady _ _)
    | ((try lift_lets); intro x; refine State.cut_steady (x := x) ?_ ?_; (on_goal 1 => unfold x); (on_goal 2 => (clear_value x; intro _)))
    | ((try lift_lets); intro x; refine State.cut_steady (x := x.2) ?_ ?_; (on_goal 1 => unfold x); (on_goal 2 => (clear_value x; intro _)))
    | ((try lift_lets); intro x; try clear_value x)
    | intro _
    | split
    | with_reducible fail_if_no_progress apply State.Steady.after ((State.mk_still _).steady)
    | dsimp only

end Sys2Proof.Machine
end

