-- ==== Sys2Proof/Laws/KeepOperators.lean ====
section
/-!
SUPPORT. What the operations and meanings of Machine/Operators.lean keep of a state.
-/
set_option linter.unusedVariables false
set_option linter.unreachableTactic false
set_option linter.unusedTactic false
namespace Sys2Proof.Machine

theorem OpCtx.count_still (x : OpCtx) (s : State) (k n : Nat) :
    s.Still (OpCtx.count x s k n) := by
  unfold OpCtx.count
  repeat' first
    | with_reducible refine State.ite_still ?_ ?_
    | with_reducible refine State.ite2_still ?_ ?_
    | with_reducible exact State.Still.refl _
    | with_reducible assumption
    | with_reducible apply State.Still.after (State.bump_still _ _ _)
    | intro _
    | split
    | dsimp only

theorem State.setOp_still (s : State) (p : Nat) (o : OpState) :
    s.Still (State.setOp s p o) := by
  unfold State.setOp
  repeat' first
    | with_reducible refine State.ite_still ?_ ?_
    | with_reducible refine State.ite2_still ?_ ?_
    | with_reducible exact State.Still.refl _
    | with_reducible assumption
    | with_reducible apply State.Still.after (State.setPart_still _ _ _)
    | ((try lift_lets); intro x; refine State.cut_still (x := x) ?_ ?_; (on_goal 1 => unfold x); (on_goal 2 => (clear_value x; intro _)))
    | ((try lift_lets); intro x; refine State.cut_still (x := x.2) ?_ ?_; (on_goal 1 => unfold x); (on_goal 2 => (clear_value x; intro _)))
    | ((try lift_lets); intro x; try clear_value x)
    | intro _
    | split
    | with_reducible fail_if_no_progress apply State.Still.after (State.mk_still _)
    | dsimp only

theorem opFilter_still (x : OpCtx) (r : Row) (s : State) :
    s.Still (opFilter x r s).2 := by
  unfold opFilter
  repeat' first
    | with_reducible refine State.ite_still ?_ ?_
    | with_reducible refine State.ite2_still ?_ ?_
    | with_reducible exact State.Still.refl _
    | with_reducible assumption
    | with_reducible apply State.Still.after (State.emit_still _ _)
    | with_reducible apply State.Still.after (State.tally_still _ _ _)
    | ((try lift_lets); intro x; refine State.cut_still (x := x) ?_ ?_; (on_goal 1 => unfold x); (on_goal 2 => (clear_value x; intro _)))
    | ((try lift_lets); intro x; refine State.cut_still (x := x.2) ?_ ?_; (on_goal 1 => unfold x); (on_goal 2 => (clear_value x; intro _)))
    | ((try lift_lets); intro x; try clear_value x)
    | intro _
    | split
    | dsimp only

theorem opExpr_still (x : OpCtx) (r : Row) (s : State) :
    s.Still (opExpr x r s).2 := by
  unfold opExpr
  repeat' first
    | with_reducible exact State.Still.refl _
    | with_reducible assumption
    | with_reducible apply State.Still.after (State.emit_still _ _)
    | with_reducible apply State.Still.after (State.tally_still _ _ _)
    | ((try lift_lets); intro x; refine State.cut_still (x := x) ?_ ?_; (on_goal 1 => unfold x); (on_goal 2 => (clear_value x; intro _)))
    | ((try lift_lets); intro x; refine State.cut_still (x := x.2) ?_ ?_; (on_goal 1 => unfold x); (on_goal 2 => (clear_value x; intro _)))
    | ((try lift_lets); intro x; try clear_value x)
    | intro _
    | split
    | dsimp only

theorem opSample_still (x : OpCtx) (r : Row) (s : State) :
    s.Still (opSample x r s).2 := by
  unfold opSample
  repeat' first
    | with_reducible refine State.ite_still ?_ ?_
    | with_reducible refine State.ite2_still ?_ ?_
    | with_reducible exact State.Still.refl _
    | with_reducible assumption
    | with_reducible apply State.Still.after (State.put_still _ _ _)
    | with_reducible apply State.Still.after (State.emit_still _ _)
    | ((try lift_lets); intro x; refine State.cut_still (x := x) ?_ ?_; (on_goal 1 => unfold x); (on_goal 2 => (clear_value x; intro _)))
    | ((try lift_lets); intro x; refine State.cut_still (x := x.2) ?_ ?_; (on_goal 1 => unfold x); (on_goal 2 => (clear_value x; intro _)))
    | ((try lift_lets); intro x; try clear_value x)
    | intro _
    | split
    | dsimp only

theorem opProject_still (x : OpCtx) (r : Row) (s : State) :
    s.Still (opProject x r s).2 := by
  unfold opProject
  repeat' first
    | with_reducible exact State.Still.refl _
    | with_reducible assumption
    | with_reducible apply State.Still.after (State.emit_still _ _)
    | with_reducible apply State.Still.after (State.tally_still _ _ _)
    | ((try lift_lets); intro x; refine State.cut_still (x := x) ?_ ?_; (on_goal 1 => unfold x); (on_goal 2 => (clear_value x; intro _)))
    | ((try lift_lets); intro x; refine State.cut_still (x := x.2) ?_ ?_; (on_goal 1 => unfold x); (on_goal 2 => (clear_value x; intro _)))
    | ((try lift_lets); intro x; try clear_value x)
    | intro _
    | split
    | with_reducible fail_if_no_progress apply State.Still.after (State.mk_still _)
    | dsimp only

theorem opHash_still (x : OpCtx) (r : Row) (s : State) :
    s.Still (opHash x r s).2 := by
  unfold opHash
  repeat' first
    | with_reducible refine State.ite_still ?_ ?_
    | with_reducible refine State.ite2_still ?_ ?_
    | with_reducible exact State.Still.refl _
    | with_reducible assumption
    | with_reducible apply State.Still.after (State.put_still _ _ _)
    | with_reducible apply State.Still.after (State.emit_still _ _)
    | ((try lift_lets); intro x; refine State.cut_still (x := x) ?_ ?_; (on_goal 1 => unfold x); (on_goal 2 => (clear_value x; intro _)))
    | ((try lift_lets); intro x; refine State.cut_still (x := x.2) ?_ ?_; (on_goal 1 => unfold x); (on_goal 2 => (clear_value x; intro _)))
    | ((try lift_lets); intro x; try clear_value x)
    | intro _
    | split
    | dsimp only

theorem opBucketize_still (x : OpCtx) (r : Row) (s : State) :
    s.Still (opBucketize x r s).2 := by
  unfold opBucketize
  repeat' first
    | with_reducible refine State.ite_still ?_ ?_
    | with_reducible refine State.ite2_still ?_ ?_
    | with_reducible exact State.Still.refl _
    | with_reducible assumption
    | with_reducible apply State.Still.after (State.put_still _ _ _)
    | with_reducible apply State.Still.after (State.emit_still _ _)
    | ((try lift_lets); intro x; refine State.cut_still (x := x) ?_ ?_; (on_goal 1 => unfold x); (on_goal 2 => (clear_value x; intro _)))
    | ((try lift_lets); intro x; refine State.cut_still (x := x.2) ?_ ?_; (on_goal 1 => unfold x); (on_goal 2 => (clear_value x; intro _)))
    | ((try lift_lets); intro x; try clear_value x)
    | intro _
    | split
    | dsimp only

theorem opNormalise_still (x : OpCtx) (r : Row) (s : State) :
    s.Still (opNormalise x r s).2 := by
  unfold opNormalise
  repeat' first
    | with_reducible refine State.ite_still ?_ ?_
    | with_reducible refine State.ite2_still ?_ ?_
    | with_reducible exact State.Still.refl _
    | with_reducible assumption
    | with_reducible apply State.Still.after (State.put_still _ _ _)
    | with_reducible apply State.Still.after (State.emit_still _ _)
    | ((try lift_lets); intro x; refine State.cut_still (x := x) ?_ ?_; (on_goal 1 => unfold x); (on_goal 2 => (clear_value x; intro _)))
    | ((try lift_lets); intro x; refine State.cut_still (x := x.2) ?_ ?_; (on_goal 1 => unfold x); (on_goal 2 => (clear_value x; intro _)))
    | ((try lift_lets); intro x; try clear_value x)
    | intro _
    | split
    | dsimp only

theorem opCross_still (x : OpCtx) (r : Row) (s : State) :
    s.Still (opCross x r s).2 := by
  unfold opCross
  repeat' first
    | with_reducible refine State.ite_still ?_ ?_
    | with_reducible refine State.ite2_still ?_ ?_
    | with_reducible exact State.Still.refl _
    | with_reducible assumption
    | with_reducible apply State.Still.after (State.put_still _ _ _)
    | with_reducible apply State.Still.after (State.emit_still _ _)
    | with_reducible apply State.Still.after (State.take_still _ _ _ _ _)
    | with_reducible apply State.Still.after (OpCtx.count_still _ _ _ _)
    | with_reducible apply State.Still.after (State.foldl_still ?_ _ _)
    | with_reducible apply State.Still.after (State.foldl2_still ?_ _ _)
    | ((try lift_lets); intro x; refine State.cut_still (x := x) ?_ ?_; (on_goal 1 => unfold x); (on_goal 2 => (clear_value x; intro _)))
    | ((try lift_lets); intro x; refine State.cut_still (x := x.2) ?_ ?_; (on_goal 1 => unfold x); (on_goal 2 => (clear_value x; intro _)))
    | ((try lift_lets); intro x; try clear_value x)
    | intro _
    | split
    | with_reducible fail_if_no_progress apply State.Still.after (State.mk_still _)
    | dsimp only

theorem opBag_still (x : OpCtx) (r : Row) (s : State) :
    s.Still (opBag x r s).2 := by
  unfold opBag
  repeat' first
    | with_reducible refine State.ite_still ?_ ?_
    | with_reducible refine State.ite2_still ?_ ?_
    | with_reducible exact State.Still.refl _
    | with_reducible assumption
    | with_reducible apply State.Still.after (State.put_still _ _ _)
    | with_reducible apply State.Still.after (State.emit_still _ _)
    | with_reducible apply State.Still.after (State.take_still _ _ _ _ _)
    | with_reducible apply State.Still.after (OpCtx.count_still _ _ _ _)
    | ((try lift_lets); intro x; refine State.cut_still (x := x) ?_ ?_; (on_goal 1 => unfold x); (on_goal 2 => (clear_value x; intro _)))
    | ((try lift_lets); intro x; refine State.cut_still (x := x.2) ?_ ?_; (on_goal 1 => unfold x); (on_goal 2 => (clear_value x; intro _)))
    | ((try lift_lets); intro x; try clear_value x)
    | intro _
    | split
    | with_reducible fail_if_no_progress apply State.Still.after (State.mk_still _)
    | dsimp only

theorem State.chain_still (x : OpCtx) (a0 : Nat) (s : State) (a2 : Nat) :
    s.Still (State.chain x a0 s a2).2 := by
  induction a0 generalizing s a2 with
  | zero => exact State.Still.refl s
  | succ n ih =>
    unfold State.chain
    repeat' first
      | with_reducible refine State.ite_still ?_ ?_
      | with_reducible refine State.ite2_still ?_ ?_
      | cases (by assumption : n + 1 = Nat.succ _)
      | with_reducible apply State.Still.after (ih _ _)
      | with_reducible apply State.Still.after (State.pair_still (ih _ _) (by assumption))
      | with_reducible exact State.Still.refl _
      | with_reducible assumption
      | with_reducible apply State.Still.after (State.vaultRead_still _ _ _ _)
      | with_reducible apply State.Still.after (State.pair_still (State.vaultRead_still _ _ _ _) (by assumption))
      | intro _
      | split
      | dsimp only

theorem State.appendChain_steady (s : State) (x : OpCtx) (t : BuildTable) (bs : List (Nat × Bytes)) (e : Nat × Nat) :
    s.Steady (State.appendChain s x t bs e).2 := by
  unfold State.appendChain
  repeat' first
    | with_reducible refine State.ite_steady ?_ ?_
    | with_reducible refine State.ite2_steady ?_ ?_
    | with_reducible exact State.Steady.refl _
    | with_reducible assumption
    | with_reducible apply State.Steady.after (State.vaultWrite_steady _ _ _)
    | with_reducible apply State.Steady.after (State.pair_steady (State.vaultWrite_steady _ _ _) (by assumption))
    | ((try lift_lets); intro x; refine State.cut_steady (x := x) ?_ ?_; (on_goal 1 => unfold x); (on_goal 2 => (clear_value x; intro _)))
    | ((try lift_lets); intro x; refine State.cut_steady (x := x.2) ?_ ?_; (on_goal 1 => unfold x); (on_goal 2 => (clear_value x; intro _)))
    | ((try lift_lets); intro x; try clear_value x)
    | intro _
    | split
    | with_reducible fail_if_no_progress apply State.Steady.after ((State.mk_still _).steady)
    | dsimp only

theorem opJoinBuild_steady (x : OpCtx) (r : Row) (s : State) :
    s.Steady (opJoinBuild x r s).2 := by
  unfold opJoinBuild
  repeat' first
    | with_reducible refine State.ite_steady ?_ ?_
    | with_reducible refine State.ite2_steady ?_ ?_
    | with_reducible exact State.Steady.refl _
    | with_reducible assumption
    | with_reducible apply State.Steady.after (State.vaultWrite_steady _ _ _)
    | with_reducible apply State.Steady.after (State.pair_steady (State.vaultWrite_steady _ _ _) (by assumption))
    | with_reducible apply State.Steady.after ((OpCtx.count_still _ _ _ _).steady)
    | with_reducible apply State.Steady.after ((State.setOp_still _ _ _).steady)
    | with_reducible apply State.Steady.after ((State.chain_still _ _ _ _).steady)
    | with_reducible apply State.Steady.after (State.pair_steady ((State.chain_still _ _ _ _).steady) (by assumption))
    | with_reducible apply State.Steady.after (State.appendChain_steady _ _ _ _ _)
    | with_reducible apply State.Steady.after (State.pair_steady (State.appendChain_steady _ _ _ _ _) (by assumption))
    | ((try lift_lets); intro x; refine State.cut_steady (x := x) ?_ ?_; (on_goal 1 => unfold x); (on_goal 2 => (clear_value x; intro _)))
    | ((try lift_lets); intro x; refine State.cut_steady (x := x.2) ?_ ?_; (on_goal 1 => unfold x); (on_goal 2 => (clear_value x; intro _)))
    | ((try lift_lets); intro x; try clear_value x)
    | intro _
    | split
    | with_reducible fail_if_no_progress apply State.Steady.after ((State.mk_still _).steady)
    | dsimp only

theorem State.rowAt_still (s : State) (l : Layout) (da : Nat) :
    s.Still (State.rowAt s l da).2 := by
  unfold State.rowAt
  repeat' first
    | with_reducible exact State.Still.refl _
    | with_reducible assumption
    | with_reducible apply State.Still.after (State.vaultRead_still _ _ _ _)
    | with_reducible apply State.Still.after (State.pair_still (State.vaultRead_still _ _ _ _) (by assumption))
    | intro _
    | split
    | dsimp only

theorem State.withKey_still (y : OpCtx) (tag : Nat) (key : List Val) (a0 : List (Nat × Nat)) (s : State) :
    s.Still (State.withKey y tag key a0 s).2 := by
  induction a0 generalizing s with
  | nil =>
    unfold State.withKey
    repeat' first
      | with_reducible refine State.ite_still ?_ ?_
      | with_reducible refine State.ite2_still ?_ ?_
      | with_reducible exact State.Still.refl _
      | with_reducible assumption
      | with_reducible apply State.Still.after (State.rowAt_still _ _ _)
      | with_reducible apply State.Still.after (State.pair_still (State.rowAt_still _ _ _) (by assumption))
      | ((try lift_lets); intro x; refine State.cut_still (x := x) ?_ ?_; (on_goal 1 => unfold x); (on_goal 2 => (clear_value x; intro _)))
      | ((try lift_lets); intro x; refine State.cut_still (x := x.2) ?_ ?_; (on_goal 1 => unfold x); (on_goal 2 => (clear_value x; intro _)))
      | ((try lift_lets); intro x; try clear_value x)
      | intro _
      | split
      | dsimp only
  | cons _ _ ih =>
    unfold State.withKey
    repeat' first
      | with_reducible refine State.ite_still ?_ ?_
      | with_reducible refine State.ite2_still ?_ ?_
      | with_reducible apply State.Still.after (ih _)
      | with_reducible apply State.Still.after (State.pair_still (ih _) (by assumption))
      | with_reducible exact State.Still.refl _
      | with_reducible assumption
      | with_reducible apply State.Still.after (State.rowAt_still _ _ _)
      | with_reducible apply State.Still.after (State.pair_still (State.rowAt_still _ _ _) (by assumption))
      | ((try lift_lets); intro x; refine State.cut_still (x := x) ?_ ?_; (on_goal 1 => unfold x); (on_goal 2 => (clear_value x; intro _)))
      | ((try lift_lets); intro x; refine State.cut_still (x := x.2) ?_ ?_; (on_goal 1 => unfold x); (on_goal 2 => (clear_value x; intro _)))
      | ((try lift_lets); intro x; try clear_value x)
      | intro _
      | split
      | dsimp only

theorem State.probe_still (s : State) (y : OpCtx) (t : BuildTable) (g : Nat) (key : List Val) :
    s.Still (State.probe s y t g key).2 := by
  unfold State.probe
  repeat' first
    | with_reducible refine State.ite_still ?_ ?_
    | with_reducible refine State.ite2_still ?_ ?_
    | with_reducible exact State.Still.refl _
    | with_reducible assumption
    | with_reducible apply State.Still.after (State.chain_still _ _ _ _)
    | with_reducible apply State.Still.after (State.pair_still (State.chain_still _ _ _ _) (by assumption))
    | with_reducible apply State.Still.after (State.withKey_still _ _ _ _ _)
    | with_reducible apply State.Still.after (State.pair_still (State.withKey_still _ _ _ _ _) (by assumption))
    | intro _
    | split
    | dsimp only

theorem opJoinProbe_still (x : OpCtx) (r : Row) (s : State) :
    s.Still (opJoinProbe x r s).2 := by
  unfold opJoinProbe
  repeat' first
    | with_reducible refine State.ite_still ?_ ?_
    | with_reducible refine State.ite2_still ?_ ?_
    | with_reducible exact State.Still.refl _
    | with_reducible assumption
    | with_reducible apply State.Still.after (State.take_still _ _ _ _ _)
    | with_reducible apply State.Still.after (State.tally_still _ _ _)
    | with_reducible apply State.Still.after (OpCtx.count_still _ _ _ _)
    | with_reducible apply State.Still.after (State.probe_still _ _ _ _ _)
    | with_reducible apply State.Still.after (State.pair_still (State.probe_still _ _ _ _ _) (by assumption))
    | with_reducible apply State.Still.after (State.foldl_still ?_ _ _)
    | with_reducible apply State.Still.after (State.foldl2_still ?_ _ _)
    | ((try lift_lets); intro x; refine State.cut_still (x := x) ?_ ?_; (on_goal 1 => unfold x); (on_goal 2 => (clear_value x; intro _)))
    | ((try lift_lets); intro x; refine State.cut_still (x := x.2) ?_ ?_; (on_goal 1 => unfold x); (on_goal 2 => (clear_value x; intro _)))
    | ((try lift_lets); intro x; try clear_value x)
    | intro _
    | split
    | with_reducible fail_if_no_progress apply State.Still.after (State.mk_still _)
    | dsimp only

theorem State.entryProvs_still (x : OpCtx) (a0 : List (Nat × Nat)) (s : State) :
    s.Still (State.entryProvs x a0 s).2 := by
  induction a0 generalizing s with
  | nil =>
    unfold State.entryProvs
    repeat' first
      | with_reducible exact State.Still.refl _
      | with_reducible assumption
      | with_reducible apply State.Still.after (State.vaultRead_still _ _ _ _)
      | with_reducible apply State.Still.after (State.pair_still (State.vaultRead_still _ _ _ _) (by assumption))
      | intro _
      | split
      | dsimp only
  | cons _ _ ih =>
    unfold State.entryProvs
    repeat' first
      | with_reducible exact State.Still.refl _
      | with_reducible assumption
      | with_reducible apply State.Still.after (ih _)
      | with_reducible apply State.Still.after (State.pair_still (ih _) (by assumption))
      | with_reducible apply State.Still.after (State.vaultRead_still _ _ _ _)
      | with_reducible apply State.Still.after (State.pair_still (State.vaultRead_still _ _ _ _) (by assumption))
      | intro _
      | split
      | dsimp only

theorem State.rewriteChain_steady (x : OpCtx) (a0 : List (Nat × Bytes)) (a1 : List (Nat × Nat)) (s : State) :
    s.Steady (State.rewriteChain x a0 a1 s) := by
  induction a0 generalizing a1 s with
  | nil =>
    unfold State.rewriteChain
    repeat' first
      | with_reducible exact State.Steady.refl _
      | with_reducible assumption
      | with_reducible apply State.Steady.after (State.vaultWrite_steady _ _ _)
      | with_reducible apply State.Steady.after (State.pair_steady (State.vaultWrite_steady _ _ _) (by assumption))
      | with_reducible apply State.Steady.after ((State.take_still _ _ _ _ _).steady)
      | intro _
      | split
      | dsimp only
  | cons _ _ ih =>
    unfold State.rewriteChain
    repeat' first
      | with_reducible exact State.Steady.refl _
      | with_reducible assumption
      | with_reducible apply State.Steady.after (ih _ _)
      | with_reducible apply State.Steady.after (State.vaultWrite_steady _ _ _)
      | with_reducible apply State.Steady.after (State.pair_steady (State.vaultWrite_steady _ _ _) (by assumption))
      | with_reducible apply State.Steady.after ((State.take_still _ _ _ _ _).steady)
      | intro _
      | split
      | dsimp only

theorem State.sealChain_steady (x : OpCtx) (fuel : Nat) (s : State) (b : Nat) :
    s.Steady (State.sealChain x fuel s b) := by
  unfold State.sealChain
  repeat' first
    | with_reducible exact State.Steady.refl _
    | with_reducible assumption
    | with_reducible apply State.Steady.after ((State.chain_still _ _ _ _).steady)
    | with_reducible apply State.Steady.after (State.pair_steady ((State.chain_still _ _ _ _).steady) (by assumption))
    | with_reducible apply State.Steady.after ((State.entryProvs_still _ _ _).steady)
    | with_reducible apply State.Steady.after (State.pair_steady ((State.entryProvs_still _ _ _).steady) (by assumption))
    | with_reducible apply State.Steady.after (State.rewriteChain_steady _ _ _ _)
    | intro _
    | split
    | dsimp only

theorem State.groupRead_still (s : State) (x : OpCtx) (i : Nat) (g : Group) :
    s.Still (State.groupRead s x i g).2 := by
  unfold State.groupRead
  repeat' first
    | with_reducible exact State.Still.refl _
    | with_reducible assumption
    | with_reducible apply State.Still.after (State.vaultRead_still _ _ _ _)
    | with_reducible apply State.Still.after (State.pair_still (State.vaultRead_still _ _ _ _) (by assumption))
    | ((try lift_lets); intro x; refine State.cut_still (x := x) ?_ ?_; (on_goal 1 => unfold x); (on_goal 2 => (clear_value x; intro _)))
    | ((try lift_lets); intro x; refine State.cut_still (x := x.2) ?_ ?_; (on_goal 1 => unfold x); (on_goal 2 => (clear_value x; intro _)))
    | ((try lift_lets); intro x; try clear_value x)
    | intro _
    | split
    | dsimp only

theorem opGroupBy_steady (x : OpCtx) (r : Row) (s : State) :
    s.Steady (opGroupBy x r s).2 := by
  unfold opGroupBy
  repeat' first
    | with_reducible refine State.ite_steady ?_ ?_
    | with_reducible refine State.ite2_steady ?_ ?_
    | with_reducible exact State.Steady.refl _
    | with_reducible assumption
    | with_reducible apply State.Steady.after (State.vaultWrite_steady _ _ _)
    | with_reducible apply State.Steady.after (State.pair_steady (State.vaultWrite_steady _ _ _) (by assumption))
    | with_reducible apply State.Steady.after ((State.take_still _ _ _ _ _).steady)
    | with_reducible apply State.Steady.after ((OpCtx.count_still _ _ _ _).steady)
    | with_reducible apply State.Steady.after ((State.setOp_still _ _ _).steady)
    | with_reducible apply State.Steady.after ((State.groupRead_still _ _ _ _).steady)
    | with_reducible apply State.Steady.after (State.pair_steady ((State.groupRead_still _ _ _ _).steady) (by assumption))
    | ((try lift_lets); intro x; refine State.cut_steady (x := x) ?_ ?_; (on_goal 1 => unfold x); (on_goal 2 => (clear_value x; intro _)))
    | ((try lift_lets); intro x; refine State.cut_steady (x := x.2) ?_ ?_; (on_goal 1 => unfold x); (on_goal 2 => (clear_value x; intro _)))
    | ((try lift_lets); intro x; try clear_value x)
    | intro _
    | split
    | with_reducible fail_if_no_progress apply State.Steady.after ((State.mk_still _).steady)
    | dsimp only

theorem State.flushGroup_still (s : State) (x : OpCtx) (i : Nat) (g : Group) :
    s.Still (State.flushGroup s x i g).2 := by
  unfold State.flushGroup
  repeat' first
    | with_reducible refine State.ite_still ?_ ?_
    | with_reducible refine State.ite2_still ?_ ?_
    | with_reducible exact State.Still.refl _
    | with_reducible assumption
    | with_reducible apply State.Still.after (State.emit_still _ _)
    | with_reducible apply State.Still.after (OpCtx.count_still _ _ _ _)
    | with_reducible apply State.Still.after (State.groupRead_still _ _ _ _)
    | with_reducible apply State.Still.after (State.pair_still (State.groupRead_still _ _ _ _) (by assumption))
    | ((try lift_lets); intro x; refine State.cut_still (x := x) ?_ ?_; (on_goal 1 => unfold x); (on_goal 2 => (clear_value x; intro _)))
    | ((try lift_lets); intro x; refine State.cut_still (x := x.2) ?_ ?_; (on_goal 1 => unfold x); (on_goal 2 => (clear_value x; intro _)))
    | ((try lift_lets); intro x; try clear_value x)
    | intro _
    | split
    | dsimp only

theorem opDedupe_still (x : OpCtx) (h_ : HeldRow) (s : State) :
    s.Still (opDedupe x h_ s).2 := by
  unfold opDedupe
  repeat' first
    | with_reducible refine State.ite_still ?_ ?_
    | with_reducible refine State.ite2_still ?_ ?_
    | with_reducible exact State.Still.refl _
    | with_reducible assumption
    | with_reducible apply State.Still.after (State.emit_still _ _)
    | with_reducible apply State.Still.after (OpCtx.count_still _ _ _ _)
    | with_reducible apply State.Still.after (State.setOp_still _ _ _)
    | ((try lift_lets); intro x; refine State.cut_still (x := x) ?_ ?_; (on_goal 1 => unfold x); (on_goal 2 => (clear_value x; intro _)))
    | ((try lift_lets); intro x; refine State.cut_still (x := x.2) ?_ ?_; (on_goal 1 => unfold x); (on_goal 2 => (clear_value x; intro _)))
    | ((try lift_lets); intro x; try clear_value x)
    | intro _
    | split
    | with_reducible fail_if_no_progress apply State.Still.after (State.mk_still _)
    | dsimp only

theorem State.flushRow_still (s : State) (x : OpCtx) (h_ : HeldRow) :
    s.Still (State.flushRow s x h_).2 := by
  unfold State.flushRow
  repeat' first
    | with_reducible exact State.Still.refl _
    | with_reducible assumption
    | with_reducible apply State.Still.after (State.emit_still _ _)
    | with_reducible apply State.Still.after (State.vaultRead_still _ _ _ _)
    | with_reducible apply State.Still.after (State.pair_still (State.vaultRead_still _ _ _ _) (by assumption))
    | intro _
    | split
    | dsimp only

theorem opRepartition_still (x : OpCtx) (r : Row) (s : State) :
    s.Still (opRepartition x r s).2 := by
  unfold opRepartition
  repeat' first
    | with_reducible refine State.ite_still ?_ ?_
    | with_reducible refine State.ite2_still ?_ ?_
    | with_reducible exact State.Still.refl _
    | with_reducible assumption
    | with_reducible apply State.Still.after (State.place_still _ _ _ _ _ _)
    | with_reducible apply State.Still.after (OpCtx.count_still _ _ _ _)
    | ((try lift_lets); intro x; refine State.cut_still (x := x) ?_ ?_; (on_goal 1 => unfold x); (on_goal 2 => (clear_value x; intro _)))
    | ((try lift_lets); intro x; refine State.cut_still (x := x.2) ?_ ?_; (on_goal 1 => unfold x); (on_goal 2 => (clear_value x; intro _)))
    | ((try lift_lets); intro x; try clear_value x)
    | intro _
    | split
    | dsimp only

theorem opStep_steady (x : OpCtx) (h_ : HeldRow) (s : State) :
    s.Steady (opStep x h_ s).2 := by
  unfold opStep
  repeat' first
    | with_reducible exact State.Steady.refl _
    | with_reducible assumption
    | with_reducible apply State.Steady.after ((opFilter_still _ _ _).steady)
    | with_reducible apply State.Steady.after (State.pair_steady ((opFilter_still _ _ _).steady) (by assumption))
    | with_reducible apply State.Steady.after ((opExpr_still _ _ _).steady)
    | with_reducible apply State.Steady.after (State.pair_steady ((opExpr_still _ _ _).steady) (by assumption))
    | with_reducible apply State.Steady.after ((opSample_still _ _ _).steady)
    | with_reducible apply State.Steady.after (State.pair_steady ((opSample_still _ _ _).steady) (by assumption))
    | with_reducible apply State.Steady.after ((opProject_still _ _ _).steady)
    | with_reducible apply State.Steady.after (State.pair_steady ((opProject_still _ _ _).steady) (by assumption))
    | with_reducible apply State.Steady.after ((opHash_still _ _ _).steady)
    | with_reducible apply State.Steady.after (State.pair_steady ((opHash_still _ _ _).steady) (by assumption))
    | with_reducible apply State.Steady.after ((opBucketize_still _ _ _).steady)
    | with_reducible apply State.Steady.after (State.pair_steady ((opBucketize_still _ _ _).steady) (by assumption))
    | with_reducible apply State.Steady.after ((opNormalise_still _ _ _).steady)
    | with_reducible apply State.Steady.after (State.pair_steady ((opNormalise_still _ _ _).steady) (by assumption))
    | with_reducible apply State.Steady.after ((opCross_still _ _ _).steady)
    | with_reducible apply State.Steady.after (State.pair_steady ((opCross_still _ _ _).steady) (by assumption))
    | with_reducible apply State.Steady.after ((opBag_still _ _ _).steady)
    | with_reducible apply State.Steady.after (State.pair_steady ((opBag_still _ _ _).steady) (by assumption))
    | with_reducible apply State.Steady.after (opJoinBuild_steady _ _ _)
    | with_reducible apply State.Steady.after (State.pair_steady (opJoinBuild_steady _ _ _) (by assumption))
    | with_reducible apply State.Steady.after ((opJoinProbe_still _ _ _).steady)
    | with_reducible apply State.Steady.after (State.pair_steady ((opJoinProbe_still _ _ _).steady) (by assumption))
    | with_reducible apply State.Steady.after (opGroupBy_steady _ _ _)
    | with_reducible apply State.Steady.after (State.pair_steady (opGroupBy_steady _ _ _) (by assumption))
    | with_reducible apply State.Steady.after ((opDedupe_still _ _ _).steady)
    | with_reducible apply State.Steady.after (State.pair_steady ((opDedupe_still _ _ _).steady) (by assumption))
    | with_reducible apply State.Steady.after ((opRepartition_still _ _ _).steady)
    | with_reducible apply State.Steady.after (State.pair_steady ((opRepartition_still _ _ _).steady) (by assumption))
    | intro _
    | split
    | dsimp only

theorem opRow_steady (x : OpCtx) (da : Nat) (r : Row) (s : State) :
    s.Steady (opRow x da r s).2 := by
  unfold opRow
  repeat' first
    | with_reducible exact State.Steady.refl _
    | with_reducible assumption
    | with_reducible apply State.Steady.after ((State.vaultRead_still _ _ _ _).steady)
    | with_reducible apply State.Steady.after (State.pair_steady ((State.vaultRead_still _ _ _ _).steady) (by assumption))
    | with_reducible apply State.Steady.after (opStep_steady _ _ _)
    | with_reducible apply State.Steady.after (State.pair_steady (opStep_steady _ _ _) (by assumption))
    | ((try lift_lets); intro x; refine State.cut_steady (x := x) ?_ ?_; (on_goal 1 => unfold x); (on_goal 2 => (clear_value x; intro _)))
    | ((try lift_lets); intro x; refine State.cut_steady (x := x.2) ?_ ?_; (on_goal 1 => unfold x); (on_goal 2 => (clear_value x; intro _)))
    | ((try lift_lets); intro x; try clear_value x)
    | intro _
    | split
    | dsimp only

theorem opRun_steady (x : OpCtx) (a0 : Nat) (a1 : List Row) (s : State) :
    s.Steady (opRun x a0 a1 s).2 := by
  induction a1 generalizing a0 s with
  | nil =>
    unfold opRun
    repeat' first
      | with_reducible exact State.Steady.refl _
      | with_reducible assumption
      | with_reducible apply State.Steady.after (opRow_steady _ _ _ _)
      | with_reducible apply State.Steady.after (State.pair_steady (opRow_steady _ _ _ _) (by assumption))
      | ((try lift_lets); intro x; refine State.cut_steady (x := x) ?_ ?_; (on_goal 1 => unfold x); (on_goal 2 => (clear_value x; intro _)))
      | ((try lift_lets); intro x; refine State.cut_steady (x := x.2) ?_ ?_; (on_goal 1 => unfold x); (on_goal 2 => (clear_value x; intro _)))
      | ((try lift_lets); intro x; try clear_value x)
      | intro _
      | split
      | dsimp only
  | cons _ _ ih =>
    unfold opRun
    repeat' first
      | with_reducible exact State.Steady.refl _
      | with_reducible assumption
      | with_reducible apply State.Steady.after (ih _ _)
      | with_reducible apply State.Steady.after (State.pair_steady (ih _ _) (by assumption))
      | with_reducible apply State.Steady.after (opRow_steady _ _ _ _)
      | with_reducible apply State.Steady.after (State.pair_steady (opRow_steady _ _ _ _) (by assumption))
      | ((try lift_lets); intro x; refine State.cut_steady (x := x) ?_ ?_; (on_goal 1 => unfold x); (on_goal 2 => (clear_value x; intro _)))
      | ((try lift_lets); intro x; refine State.cut_steady (x := x.2) ?_ ?_; (on_goal 1 => unfold x); (on_goal 2 => (clear_value x; intro _)))
      | ((try lift_lets); intro x; try clear_value x)
      | intro _
      | split
      | dsimp only

theorem foldOut_still {α : Type} {f : α → State → OpOut} (h : ∀ (a : α) (t : State), t.Still (f a t).2) (l : List α) (s : State) :
    s.Still (foldOut f l s).2 := by
  induction l generalizing s with
  | nil => exact State.Still.refl s
  | cons a as ih => exact (h a s).trans (ih _)

theorem foldOut_steady {α : Type} {f : α → State → OpOut} (h : ∀ (a : α) (t : State), t.Steady (f a t).2) (l : List α) (s : State) :
    s.Steady (foldOut f l s).2 := by
  induction l generalizing s with
  | nil => exact State.Steady.refl s
  | cons a as ih => exact (h a s).trans (ih _)

theorem foldOut_fixed {α : Type} {f : α → State → OpOut} (h : ∀ (a : α) (t : State), t.Fixed (f a t).2) (l : List α) (s : State) :
    s.Fixed (foldOut f l s).2 := by
  induction l generalizing s with
  | nil => exact State.Fixed.refl s
  | cons a as ih => exact (h a s).trans (ih _)

theorem foldOut_keeps {α : Type} {f : α → State → OpOut} (h : ∀ (a : α) (t : State), t.Keeps (f a t).2) (l : List α) (s : State) :
    s.Keeps (foldOut f l s).2 := by
  induction l generalizing s with
  | nil => exact State.Keeps.refl s
  | cons a as ih => exact (h a s).trans (ih _)


theorem opEnd_steady (x : OpCtx) (s : State) :
    s.Steady (opEnd x s).2 := by
  unfold opEnd
  repeat' first
    | with_reducible refine State.ite_steady ?_ ?_
    | with_reducible refine State.ite2_steady ?_ ?_
    | with_reducible exact State.Steady.refl _
    | with_reducible assumption
    | with_reducible apply State.Steady.after ((State.setOp_still _ _ _).steady)
    | with_reducible apply State.Steady.after (State.sealChain_steady _ _ _ _)
    | with_reducible apply State.Steady.after ((State.flushGroup_still _ _ _ _).steady)
    | with_reducible apply State.Steady.after (State.pair_steady ((State.flushGroup_still _ _ _ _).steady) (by assumption))
    | with_reducible apply State.Steady.after ((State.flushRow_still _ _ _).steady)
    | with_reducible apply State.Steady.after (State.pair_steady ((State.flushRow_still _ _ _).steady) (by assumption))
    | with_reducible apply State.Steady.after (foldOut_steady ?_ _ _)
    | with_reducible apply State.Steady.after (State.foldl_steady ?_ _ _)
    | with_reducible apply State.Steady.after (State.foldl2_steady ?_ _ _)
    | ((try lift_lets); intro x; refine State.cut_steady (x := x) ?_ ?_; (on_goal 1 => unfold x); (on_goal 2 => (clear_value x; intro _)))
    | ((try lift_lets); intro x; refine State.cut_steady (x := x.2) ?_ ?_; (on_goal 1 => unfold x); (on_goal 2 => (clear_value x; intro _)))
    | ((try lift_lets); intro x; try clear_value x)
    | intro _
    | split
    | with_reducible fail_if_no_progress apply State.Steady.after ((State.mk_still _).steady)
    | dsimp only

theorem State.writeRun_steady (l : Layout) (openNo : Row → Nat) (s : State) (a1 : Nat) (a2 : List Row) :
    s.Steady (State.writeRun l openNo s a1 a2) := by
  induction a2 generalizing s a1 with
  | nil =>
    unfold State.writeRun
    repeat' first
      | with_reducible exact State.Steady.refl _
      | with_reducible assumption
      | with_reducible apply State.Steady.after (State.vaultWrite_steady _ _ _)
      | with_reducible apply State.Steady.after (State.pair_steady (State.vaultWrite_steady _ _ _) (by assumption))
      | intro _
      | split
      | dsimp only
  | cons _ _ ih =>
    unfold State.writeRun
    repeat' first
      | with_reducible exact State.Steady.refl _
      | with_reducible assumption
      | with_reducible apply State.Steady.after (ih _ _)
      | with_reducible apply State.Steady.after (State.vaultWrite_steady _ _ _)
      | with_reducible apply State.Steady.after (State.pair_steady (State.vaultWrite_steady _ _ _) (by assumption))
      | intro _
      | split
      | dsimp only

theorem State.putRun_steady (s : State) (p : Nat) (im : Image) (l : Layout) (rs : List Row) (target : Nat) :
    s.Steady (State.putRun s p im l rs target).2 := by
  unfold State.putRun
  repeat' first
    | with_reducible refine State.ite_steady ?_ ?_
    | with_reducible refine State.ite2_steady ?_ ?_
    | with_reducible exact State.Steady.refl _
    | with_reducible assumption
    | with_reducible apply State.Steady.after ((State.chooseOf_still _ _).steady)
    | with_reducible apply State.Steady.after (State.pair_steady ((State.chooseOf_still _ _).steady) (by assumption))
    | with_reducible apply State.Steady.after (State.writeRun_steady _ _ _ _ _)
    | ((try lift_lets); intro x; refine State.cut_steady (x := x) ?_ ?_; (on_goal 1 => unfold x); (on_goal 2 => (clear_value x; intro _)))
    | ((try lift_lets); intro x; refine State.cut_steady (x := x.2) ?_ ?_; (on_goal 1 => unfold x); (on_goal 2 => (clear_value x; intro _)))
    | ((try lift_lets); intro x; try clear_value x)
    | intro _
    | split
    | dsimp only

end Sys2Proof.Machine
end

