-- ==== Sys2Proof/Laws/KeepBatch.lean ====
section
/-!
SUPPORT. What the operations and meanings of Machine/Batch.lean keep of a state.
-/
set_option linter.unusedVariables false
set_option linter.unreachableTactic false
set_option linter.unusedTactic false
namespace Sys2Proof.Machine

theorem State.setSet_still (s : State) (p n : Nat) (x : SampleSet) :
    s.Still (State.setSet s p n x) := by
  unfold State.setSet
  repeat' first
    | with_reducible exact State.Still.refl _
    | with_reducible assumption
    | with_reducible apply State.Still.after (State.setPart_still _ _ _)
    | intro _
    | split
    | with_reducible fail_if_no_progress apply State.Still.after (State.mk_still _)
    | dsimp only

theorem State.setEntry?_still (s : State) (p : Nat) (x : SampleSet) (i : Nat) :
    s.Still (State.setEntry? s p x i).2 := by
  unfold State.setEntry?
  repeat' first
    | with_reducible exact State.Still.refl _
    | with_reducible assumption
    | with_reducible apply State.Still.after (State.devRead_still _ _ _ _ _)
    | with_reducible apply State.Still.after (State.pair_still (State.devRead_still _ _ _ _ _) (by assumption))
    | ((try lift_lets); intro x; refine State.cut_still (x := x) ?_ ?_; (on_goal 1 => unfold x); (on_goal 2 => (clear_value x; intro _)))
    | ((try lift_lets); intro x; refine State.cut_still (x := x.2) ?_ ?_; (on_goal 1 => unfold x); (on_goal 2 => (clear_value x; intro _)))
    | ((try lift_lets); intro x; try clear_value x)
    | intro _
    | split
    | dsimp only

theorem State.appendEntry_steady (s : State) (p n : Nat) (row : Option (Layout × Row)) (st : Status) (stream openNo object ordinal : Nat) :
    s.Steady (State.appendEntry s p n row st stream openNo object ordinal).2 := by
  unfold State.appendEntry
  repeat' first
    | with_reducible refine State.ite_steady ?_ ?_
    | with_reducible refine State.ite2_steady ?_ ?_
    | with_reducible exact State.Steady.refl _
    | with_reducible assumption
    | with_reducible apply State.Steady.after ((State.bump_still _ _ _).steady)
    | with_reducible apply State.Steady.after (State.devWrite_steady _ _ _ _)
    | with_reducible apply State.Steady.after (State.pair_steady (State.devWrite_steady _ _ _ _) (by assumption))
    | with_reducible apply State.Steady.after ((State.chooseOf_still _ _).steady)
    | with_reducible apply State.Steady.after (State.pair_steady ((State.chooseOf_still _ _).steady) (by assumption))
    | with_reducible apply State.Steady.after ((OpCtx.count_still _ _ _ _).steady)
    | with_reducible apply State.Steady.after ((State.setSet_still _ _ _ _).steady)
    | ((try lift_lets); intro x; refine State.cut_steady (x := x) ?_ ?_; (on_goal 1 => unfold x); (on_goal 2 => (clear_value x; intro _)))
    | ((try lift_lets); intro x; refine State.cut_steady (x := x.2) ?_ ?_; (on_goal 1 => unfold x); (on_goal 2 => (clear_value x; intro _)))
    | ((try lift_lets); intro x; try clear_value x)
    | intro _
    | split
    | with_reducible fail_if_no_progress apply State.Steady.after ((State.mk_still _).steady)
    | dsimp only

theorem execSetSeal_still (acc : Access) (s : State) :
    ∀ t_, execSetSeal acc s = .next t_ → s.Still t_ := by
  unfold execSetSeal
  refine State.next_still ?_
  repeat' first
    | with_reducible refine State.ite_still ?_ ?_
    | with_reducible refine State.ite2_still ?_ ?_
    | with_reducible exact State.Still.refl _
    | with_reducible assumption
    | with_reducible apply State.Still.after (State.write_still _ _ _ ?_)
    | with_reducible apply State.Still.after (numOp_still ?_ _ _ _)
    | with_reducible apply State.Still.after (State.setSet_still _ _ _ _)
    | ((try lift_lets); intro x; refine State.cut_still (x := x) ?_ ?_; (on_goal 1 => unfold x); (on_goal 2 => (clear_value x; intro _)))
    | ((try lift_lets); intro x; refine State.cut_still (x := x.2) ?_ ?_; (on_goal 1 => unfold x); (on_goal 2 => (clear_value x; intro _)))
    | ((try lift_lets); intro x; try clear_value x)
    | intro _
    | split
    | with_reducible fail_if_no_progress apply State.Still.after (State.mk_still _)
    | dsimp only

theorem State.setEntries_still (s : State) (p : Nat) (x : SampleSet) :
    s.Still (State.setEntries s p x).2 := by
  unfold State.setEntries
  repeat' first
    | with_reducible exact State.Still.refl _
    | with_reducible assumption
    | with_reducible apply State.Still.after (OpCtx.count_still _ _ _ _)
    | with_reducible apply State.Still.after (State.setEntry?_still _ _ _ _)
    | with_reducible apply State.Still.after (State.pair_still (State.setEntry?_still _ _ _ _) (by assumption))
    | with_reducible apply State.Still.after (State.foldl_still ?_ _ _)
    | with_reducible apply State.Still.after (State.foldl2_still ?_ _ _)
    | ((try lift_lets); intro x; refine State.cut_still (x := x) ?_ ?_; (on_goal 1 => unfold x); (on_goal 2 => (clear_value x; intro _)))
    | ((try lift_lets); intro x; refine State.cut_still (x := x.2) ?_ ?_; (on_goal 1 => unfold x); (on_goal 2 => (clear_value x; intro _)))
    | ((try lift_lets); intro x; try clear_value x)
    | intro _
    | split
    | dsimp only

theorem execSetSortEnd_steady (part : PartNo) (set : SetNo) (s : State) :
    ∀ t_, execSetSortEnd part set s = .next t_ → s.Steady t_ := by
  unfold execSetSortEnd
  refine State.next_steady ?_
  repeat' first
    | with_reducible refine State.ite_steady ?_ ?_
    | with_reducible refine State.ite2_steady ?_ ?_
    | with_reducible exact State.Steady.refl _
    | with_reducible assumption
    | with_reducible apply State.Steady.after (State.devWrite_steady _ _ _ _)
    | with_reducible apply State.Steady.after (State.pair_steady (State.devWrite_steady _ _ _ _) (by assumption))
    | with_reducible apply State.Steady.after ((State.setSet_still _ _ _ _).steady)
    | with_reducible apply State.Steady.after ((State.setEntries_still _ _ _).steady)
    | with_reducible apply State.Steady.after (State.pair_steady ((State.setEntries_still _ _ _).steady) (by assumption))
    | ((try lift_lets); intro x; refine State.cut_steady (x := x) ?_ ?_; (on_goal 1 => unfold x); (on_goal 2 => (clear_value x; intro _)))
    | ((try lift_lets); intro x; refine State.cut_steady (x := x.2) ?_ ?_; (on_goal 1 => unfold x); (on_goal 2 => (clear_value x; intro _)))
    | ((try lift_lets); intro x; try clear_value x)
    | intro _
    | split
    | with_reducible fail_if_no_progress apply State.Steady.after ((State.mk_still _).steady)
    | dsimp only

theorem execSetClear_still (acc : Access) (s : State) :
    ∀ t_, execSetClear acc s = .next t_ → s.Still t_ := by
  unfold execSetClear
  refine State.next_still ?_
  repeat' first
    | with_reducible refine State.ite_still ?_ ?_
    | with_reducible refine State.ite2_still ?_ ?_
    | with_reducible exact State.Still.refl _
    | with_reducible assumption
    | with_reducible apply State.Still.after (State.setPart_still _ _ _)
    | with_reducible apply State.Still.after (State.write_still _ _ _ ?_)
    | with_reducible apply State.Still.after (numOp_still ?_ _ _ _)
    | with_reducible apply State.Still.after (OpCtx.count_still _ _ _ _)
    | with_reducible apply State.Still.after (State.setSet_still _ _ _ _)
    | ((try lift_lets); intro x; refine State.cut_still (x := x) ?_ ?_; (on_goal 1 => unfold x); (on_goal 2 => (clear_value x; intro _)))
    | ((try lift_lets); intro x; refine State.cut_still (x := x.2) ?_ ?_; (on_goal 1 => unfold x); (on_goal 2 => (clear_value x; intro _)))
    | ((try lift_lets); intro x; try clear_value x)
    | intro _
    | split
    | with_reducible fail_if_no_progress apply State.Still.after (State.mk_still _)
    | dsimp only

theorem State.setEpoch_still (s : State) (p e : Nat) (x : Epoch) :
    s.Still (State.setEpoch s p e x) := by
  unfold State.setEpoch
  repeat' first
    | with_reducible refine State.ite_still ?_ ?_
    | with_reducible refine State.ite2_still ?_ ?_
    | with_reducible exact State.Still.refl _
    | with_reducible assumption
    | with_reducible apply State.Still.after (State.put_still _ _ _)
    | with_reducible apply State.Still.after (State.setPart_still _ _ _)
    | ((try lift_lets); intro x; refine State.cut_still (x := x) ?_ ?_; (on_goal 1 => unfold x); (on_goal 2 => (clear_value x; intro _)))
    | ((try lift_lets); intro x; refine State.cut_still (x := x.2) ?_ ?_; (on_goal 1 => unfold x); (on_goal 2 => (clear_value x; intro _)))
    | ((try lift_lets); intro x; try clear_value x)
    | intro _
    | split
    | with_reducible fail_if_no_progress apply State.Still.after (State.mk_still _)
    | dsimp only

theorem State.startEpoch_still (s : State) (c : Cmd) (handle : Nat) (im : Image) (q : BatchPlan) :
    s.Still (State.startEpoch s c handle im q) := by
  unfold State.startEpoch
  repeat' first
    | with_reducible exact State.Still.refl _
    | with_reducible assumption
    | with_reducible apply State.Still.after (State.setPart_still _ _ _)
    | with_reducible apply State.Still.after (State.claim_still _ _ _ _ _ (by assumption))
    | with_reducible refine State.getD_still (State.claim_still _ _ _ _) ?_ ?_
    | with_reducible apply State.Still.after (State.finish_still _ _ _ _)
    | with_reducible apply State.Still.after (State.setFlow_still _ _ _ _)
    | with_reducible apply State.Still.after (OpCtx.count_still _ _ _ _)
    | with_reducible apply State.Still.after (State.setEpoch_still _ _ _ _)
    | ((try lift_lets); intro x; refine State.cut_still (x := x) ?_ ?_; (on_goal 1 => unfold x); (on_goal 2 => (clear_value x; intro _)))
    | ((try lift_lets); intro x; refine State.cut_still (x := x.2) ?_ ?_; (on_goal 1 => unfold x); (on_goal 2 => (clear_value x; intro _)))
    | ((try lift_lets); intro x; try clear_value x)
    | intro _
    | split
    | with_reducible fail_if_no_progress apply State.Still.after (State.mk_still _)
    | dsimp only

theorem execPipeRunEpoch_still (id : Nat) (_data : Bytes) (s : State) :
    ∀ t_, execPipeRunEpoch id _data s = .next t_ → s.Still t_ := by
  unfold execPipeRunEpoch
  refine State.next_still ?_
  split
  · rename_i c hc
    refine State.ite_still (State.Still.refl _) ?_
    have key : ∀ t, ((s.augRange c).bind fun r => s.lateRange c r.1 r.2) = some t → s.Still t := by
      intro t h
      obtain ⟨r, -, h⟩ := Option.bind_eq_some_iff.1 h
      exact State.lateRange_still _ _ _ _ _ h
    dsimp only
    split
    · exact key _ (by assumption)
    · split
      · exact State.startEpoch_still _ _ _ _ _
      · exact State.finish_still _ _ _ _
  · exact State.Still.refl _

theorem execAugmentationRead_still (part : PartNo) (epoch : EpochNo) (data : Bytes) (ok : Bool) (s : State) :
    ∀ t_, execAugmentationRead part epoch data ok s = .next t_ → s.Still t_ := by
  unfold execAugmentationRead
  refine State.next_still ?_
  repeat' first
    | with_reducible refine State.ite_still ?_ ?_
    | with_reducible refine State.ite2_still ?_ ?_
    | with_reducible exact State.Still.refl _
    | with_reducible assumption
    | with_reducible apply State.Still.after (State.emit_still _ _)
    | with_reducible apply State.Still.after (State.dmaFault_still _ _ _ _ _ _)
    | with_reducible apply State.Still.after (State.setEpoch_still _ _ _ _)
    | ((try lift_lets); intro x; refine State.cut_still (x := x) ?_ ?_; (on_goal 1 => unfold x); (on_goal 2 => (clear_value x; intro _)))
    | ((try lift_lets); intro x; refine State.cut_still (x := x.2) ?_ ?_; (on_goal 1 => unfold x); (on_goal 2 => (clear_value x; intro _)))
    | ((try lift_lets); intro x; try clear_value x)
    | intro _
    | split
    | with_reducible fail_if_no_progress apply State.Still.after (State.mk_still _)
    | dsimp only

theorem State.feedEntry_still (s : State) (p : Nat) (x : Epoch) (j : Nat) :
    s.Still (State.feedEntry s p x j).2 := by
  unfold State.feedEntry
  repeat' first
    | with_reducible refine State.ite_still ?_ ?_
    | with_reducible refine State.ite2_still ?_ ?_
    | with_reducible exact State.Still.refl _
    | with_reducible assumption
    | with_reducible apply State.Still.after (State.setEntry?_still _ _ _ _)
    | with_reducible apply State.Still.after (State.pair_still (State.setEntry?_still _ _ _ _) (by assumption))
    | ((try lift_lets); intro x; refine State.cut_still (x := x) ?_ ?_; (on_goal 1 => unfold x); (on_goal 2 => (clear_value x; intro _)))
    | ((try lift_lets); intro x; refine State.cut_still (x := x.2) ?_ ?_; (on_goal 1 => unfold x); (on_goal 2 => (clear_value x; intro _)))
    | ((try lift_lets); intro x; try clear_value x)
    | intro _
    | split
    | dsimp only

theorem execFeed_still (part : PartNo) (epoch : EpochNo) (s : State) :
    ∀ t_, execFeed part epoch s = .next t_ → s.Still t_ := by
  unfold execFeed
  refine State.next_still ?_
  repeat' first
    | with_reducible refine State.ite_still ?_ ?_
    | with_reducible refine State.ite2_still ?_ ?_
    | with_reducible exact State.Still.refl _
    | with_reducible assumption
    | with_reducible apply State.Still.after (State.enqueue_still _ _ _ _)
    | with_reducible apply State.Still.after (State.pair_still (State.enqueue_still _ _ _ _) (by assumption))
    | with_reducible apply State.Still.after (State.setEpoch_still _ _ _ _)
    | with_reducible apply State.Still.after (State.feedEntry_still _ _ _ _)
    | with_reducible apply State.Still.after (State.pair_still (State.feedEntry_still _ _ _ _) (by assumption))
    | ((try lift_lets); intro x; refine State.cut_still (x := x) ?_ ?_; (on_goal 1 => unfold x); (on_goal 2 => (clear_value x; intro _)))
    | ((try lift_lets); intro x; refine State.cut_still (x := x.2) ?_ ?_; (on_goal 1 => unfold x); (on_goal 2 => (clear_value x; intro _)))
    | ((try lift_lets); intro x; try clear_value x)
    | intro _
    | split
    | with_reducible fail_if_no_progress apply State.Still.after (State.mk_still _)
    | dsimp only

theorem State.poolOne_steady (s : State) (p : Nat) (versions : List (Nat × Nat)) (mask : Nat) (b : BagSpec) (r : Row) :
    s.Steady (State.poolOne s p versions mask b r).2 := by
  unfold State.poolOne
  repeat' first
    | with_reducible refine State.ite_steady ?_ ?_
    | with_reducible refine State.ite2_steady ?_ ?_
    | with_reducible exact State.Steady.refl _
    | with_reducible assumption
    | with_reducible apply State.Steady.after (State.poolBag_steady _ _ _ _ _ _ _)
    | with_reducible apply State.Steady.after (State.pair_steady (State.poolBag_steady _ _ _ _ _ _ _) (by assumption))
    | with_reducible apply State.Steady.after ((State.outRow_still _ _ _ _).steady)
    | with_reducible apply State.Steady.after (State.pair_steady ((State.outRow_still _ _ _ _).steady) (by assumption))
    | ((try lift_lets); intro x; refine State.cut_steady (x := x) ?_ ?_; (on_goal 1 => unfold x); (on_goal 2 => (clear_value x; intro _)))
    | ((try lift_lets); intro x; refine State.cut_steady (x := x.2) ?_ ?_; (on_goal 1 => unfold x); (on_goal 2 => (clear_value x; intro _)))
    | ((try lift_lets); intro x; try clear_value x)
    | intro _
    | split
    | dsimp only

theorem State.assemble_steady (s : State) (p e j row len : Nat) (versions : List (Nat × Nat)) :
    s.Steady (State.assemble s p e j row len versions).2 := by
  unfold State.assemble
  repeat' first
    | with_reducible refine State.ite_steady ?_ ?_
    | with_reducible refine State.ite2_steady ?_ ?_
    | with_reducible exact State.Steady.refl _
    | with_reducible assumption
    | with_reducible apply State.Steady.after ((State.devRead_still _ _ _ _ _).steady)
    | with_reducible apply State.Steady.after (State.pair_steady ((State.devRead_still _ _ _ _ _).steady) (by assumption))
    | with_reducible apply State.Steady.after ((State.tally_still _ _ _).steady)
    | with_reducible apply State.Steady.after (State.poolOne_steady _ _ _ _ _ _)
    | with_reducible apply State.Steady.after (State.pair_steady (State.poolOne_steady _ _ _ _ _ _) (by assumption))
    | with_reducible apply State.Steady.after (State.foldl_steady ?_ _ _)
    | with_reducible apply State.Steady.after (State.foldl2_steady ?_ _ _)
    | ((try lift_lets); intro x; refine State.cut_steady (x := x) ?_ ?_; (on_goal 1 => unfold x); (on_goal 2 => (clear_value x; intro _)))
    | ((try lift_lets); intro x; refine State.cut_steady (x := x.2) ?_ ?_; (on_goal 1 => unfold x); (on_goal 2 => (clear_value x; intro _)))
    | ((try lift_lets); intro x; try clear_value x)
    | intro _
    | split
    | dsimp only

theorem State.toOperand_steady (s : State) (p k : Nat) (q : BatchPlan) (b : Batch) :
    s.Steady (State.toOperand s p k q b).2 := by
  unfold State.toOperand
  repeat' first
    | with_reducible refine State.ite_steady ?_ ?_
    | with_reducible refine State.ite2_steady ?_ ?_
    | with_reducible exact State.Steady.refl _
    | with_reducible assumption
    | with_reducible apply State.Steady.after ((State.devRead_still _ _ _ _ _).steady)
    | with_reducible apply State.Steady.after (State.pair_steady ((State.devRead_still _ _ _ _ _).steady) (by assumption))
    | with_reducible apply State.Steady.after (State.devWrite_steady _ _ _ _)
    | with_reducible apply State.Steady.after (State.pair_steady (State.devWrite_steady _ _ _ _) (by assumption))
    | with_reducible apply State.Steady.after (State.foldl_steady ?_ _ _)
    | with_reducible apply State.Steady.after (State.foldl2_steady ?_ _ _)
    | ((try lift_lets); intro x; refine State.cut_steady (x := x) ?_ ?_; (on_goal 1 => unfold x); (on_goal 2 => (clear_value x; intro _)))
    | ((try lift_lets); intro x; refine State.cut_steady (x := x.2) ?_ ?_; (on_goal 1 => unfold x); (on_goal 2 => (clear_value x; intro _)))
    | ((try lift_lets); intro x; try clear_value x)
    | intro _
    | split
    | with_reducible fail_if_no_progress apply State.Steady.after ((State.mk_still _).steady)
    | dsimp only

theorem State.queueBatch_steady (s : State) (p e : Nat) (x : Epoch) (b : Batch) (next : Nat) (ending : Bool) :
    s.Steady (State.queueBatch s p e x b next ending) := by
  unfold State.queueBatch
  repeat' first
    | with_reducible refine State.ite_steady ?_ ?_
    | with_reducible refine State.ite2_steady ?_ ?_
    | with_reducible exact State.Steady.refl _
    | with_reducible assumption
    | with_reducible apply State.Steady.after ((State.setEpoch_still _ _ _ _).steady)
    | with_reducible apply State.Steady.after (State.toOperand_steady _ _ _ _ _)
    | with_reducible apply State.Steady.after (State.pair_steady (State.toOperand_steady _ _ _ _ _) (by assumption))
    | ((try lift_lets); intro x; refine State.cut_steady (x := x) ?_ ?_; (on_goal 1 => unfold x); (on_goal 2 => (clear_value x; intro _)))
    | ((try lift_lets); intro x; refine State.cut_steady (x := x.2) ?_ ?_; (on_goal 1 => unfold x); (on_goal 2 => (clear_value x; intro _)))
    | ((try lift_lets); intro x; try clear_value x)
    | intro _
    | split
    | with_reducible fail_if_no_progress apply State.Steady.after ((State.mk_still _).steady)
    | dsimp only

theorem State.fillOne_steady (s : State) (p e : Nat) (x : Epoch) (r : Released) :
    s.Steady (State.fillOne s p e x r) := by
  unfold State.fillOne
  repeat' first
    | with_reducible refine State.ite_steady ?_ ?_
    | with_reducible refine State.ite2_steady ?_ ?_
    | with_reducible exact State.Steady.refl _
    | with_reducible assumption
    | with_reducible apply State.Steady.after ((State.bump_still _ _ _).steady)
    | with_reducible apply State.Steady.after (State.devWrite_steady _ _ _ _)
    | with_reducible apply State.Steady.after (State.pair_steady (State.devWrite_steady _ _ _ _) (by assumption))
    | with_reducible apply State.Steady.after ((State.setEpoch_still _ _ _ _).steady)
    | with_reducible apply State.Steady.after (State.queueBatch_steady _ _ _ _ _ _ _)
    | ((try lift_lets); intro x; refine State.cut_steady (x := x) ?_ ?_; (on_goal 1 => unfold x); (on_goal 2 => (clear_value x; intro _)))
    | ((try lift_lets); intro x; refine State.cut_steady (x := x.2) ?_ ?_; (on_goal 1 => unfold x); (on_goal 2 => (clear_value x; intro _)))
    | ((try lift_lets); intro x; try clear_value x)
    | intro _
    | split
    | with_reducible fail_if_no_progress apply State.Steady.after ((State.mk_still _).steady)
    | dsimp only

theorem State.consumeReleased_steady (p e : Nat) (a0 : Nat) (s : State) :
    s.Steady (State.consumeReleased p e a0 s) := by
  induction a0 generalizing s with
  | zero => exact State.Steady.refl s
  | succ n ih =>
    unfold State.consumeReleased
    repeat' first
      | with_reducible refine State.ite_steady ?_ ?_
      | with_reducible refine State.ite2_steady ?_ ?_
      | cases (by assumption : n + 1 = Nat.succ _)
      | with_reducible apply State.Steady.after (ih _)
      | with_reducible exact State.Steady.refl _
      | with_reducible assumption
      | with_reducible apply State.Steady.after (State.fillOne_steady _ _ _ _ _)
      | intro _
      | split
      | with_reducible fail_if_no_progress apply State.Steady.after ((State.mk_still _).steady)
      | dsimp only

theorem State.fillBatch_steady (s : State) (p e : Nat) (r : Released) :
    s.Steady (State.fillBatch s p e r) := by
  unfold State.fillBatch
  repeat' first
    | with_reducible exact State.Steady.refl _
    | with_reducible assumption
    | with_reducible apply State.Steady.after ((State.setEpoch_still _ _ _ _).steady)
    | with_reducible apply State.Steady.after (State.consumeReleased_steady _ _ _ _)
    | intro _
    | split
    | with_reducible fail_if_no_progress apply State.Steady.after ((State.mk_still _).steady)
    | dsimp only

theorem State.project_steady (s : State) (p n : Nat) (q : BatchPlan) :
    s.Steady (State.project s p n q).2 := by
  unfold State.project
  repeat' first
    | with_reducible refine State.ite_steady ?_ ?_
    | with_reducible refine State.ite2_steady ?_ ?_
    | with_reducible exact State.Steady.refl _
    | with_reducible assumption
    | with_reducible apply State.Steady.after ((State.devRead_still _ _ _ _ _).steady)
    | with_reducible apply State.Steady.after (State.pair_steady ((State.devRead_still _ _ _ _ _).steady) (by assumption))
    | with_reducible apply State.Steady.after (State.countedJob_steady _ _ _ _)
    | with_reducible apply State.Steady.after (State.pair_steady (State.countedJob_steady _ _ _ _) (by assumption))
    | with_reducible apply State.Steady.after (State.foldl_steady ?_ _ _)
    | with_reducible apply State.Steady.after (State.foldl2_steady ?_ _ _)
    | ((try lift_lets); intro x; refine State.cut_steady (x := x) ?_ ?_; (on_goal 1 => unfold x); (on_goal 2 => (clear_value x; intro _)))
    | ((try lift_lets); intro x; refine State.cut_steady (x := x.2) ?_ ?_; (on_goal 1 => unfold x); (on_goal 2 => (clear_value x; intro _)))
    | ((try lift_lets); intro x; try clear_value x)
    | intro _
    | split
    | with_reducible fail_if_no_progress apply State.Steady.after ((State.mk_still _).steady)
    | dsimp only

theorem State.readStaged_still (s : State) (p k i : Nat) (q : BatchPlan) (y : BatchSlot) :
    s.Still (State.readStaged s p k i q y).2 := by
  unfold State.readStaged
  repeat' first
    | with_reducible refine State.ite_still ?_ ?_
    | with_reducible refine State.ite2_still ?_ ?_
    | with_reducible exact State.Still.refl _
    | with_reducible assumption
    | with_reducible apply State.Still.after (State.devRead_still _ _ _ _ _)
    | with_reducible apply State.Still.after (State.pair_still (State.devRead_still _ _ _ _ _) (by assumption))
    | with_reducible apply State.Still.after (State.take_still _ _ _ _ _)
    | ((try lift_lets); intro x; refine State.cut_still (x := x) ?_ ?_; (on_goal 1 => unfold x); (on_goal 2 => (clear_value x; intro _)))
    | ((try lift_lets); intro x; refine State.cut_still (x := x.2) ?_ ?_; (on_goal 1 => unfold x); (on_goal 2 => (clear_value x; intro _)))
    | ((try lift_lets); intro x; try clear_value x)
    | intro _
    | split
    | dsimp only

theorem State.readSlots_still (s : State) (p k : Nat) (q : BatchPlan) (slots : List BatchSlot) :
    s.Still (State.readSlots s p k q slots).2 := by
  unfold State.readSlots
  repeat' first
    | with_reducible exact State.Still.refl _
    | with_reducible assumption
    | with_reducible apply State.Still.after (State.readStaged_still _ _ _ _ _ _)
    | with_reducible apply State.Still.after (State.pair_still (State.readStaged_still _ _ _ _ _ _) (by assumption))
    | with_reducible apply State.Still.after (State.foldl_still ?_ _ _)
    | with_reducible apply State.Still.after (State.foldl2_still ?_ _ _)
    | ((try lift_lets); intro x; refine State.cut_still (x := x) ?_ ?_; (on_goal 1 => unfold x); (on_goal 2 => (clear_value x; intro _)))
    | ((try lift_lets); intro x; refine State.cut_still (x := x.2) ?_ ?_; (on_goal 1 => unfold x); (on_goal 2 => (clear_value x; intro _)))
    | ((try lift_lets); intro x; try clear_value x)
    | intro _
    | split
    | dsimp only

theorem State.frameWrites_still (s : State) (x : Epoch) (ws : List (Nat × Bytes)) :
    s.Still (State.frameWrites s x ws).2 := by
  unfold State.frameWrites
  repeat' first
    | with_reducible refine State.ite_still ?_ ?_
    | with_reducible refine State.ite2_still ?_ ?_
    | with_reducible exact State.Still.refl _
    | with_reducible assumption
    | with_reducible apply State.Still.after (State.hostOut_still _ _ _ _)
    | with_reducible apply State.Still.after (State.foldl_still ?_ _ _)
    | with_reducible apply State.Still.after (State.foldl2_still ?_ _ _)
    | intro _
    | split
    | dsimp only

theorem State.shipBatch_steady (s : State) (p e : Nat) (x : Epoch) (b : Batch) (rest : List Batch) :
    s.Steady (State.shipBatch s p e x b rest) := by
  unfold State.shipBatch
  repeat' first
    | with_reducible refine State.ite_steady ?_ ?_
    | with_reducible refine State.ite2_steady ?_ ?_
    | with_reducible exact State.Steady.refl _
    | with_reducible assumption
    | with_reducible apply State.Steady.after ((State.bump_still _ _ _).steady)
    | with_reducible apply State.Steady.after ((State.deliverCpl_still _ _ _ _).steady)
    | with_reducible apply State.Steady.after (State.pair_steady ((State.deliverCpl_still _ _ _ _).steady) (by assumption))
    | with_reducible apply State.Steady.after ((State.setEpoch_still _ _ _ _).steady)
    | with_reducible apply State.Steady.after (State.toOperand_steady _ _ _ _ _)
    | with_reducible apply State.Steady.after (State.pair_steady (State.toOperand_steady _ _ _ _ _) (by assumption))
    | with_reducible apply State.Steady.after (State.consumeReleased_steady _ _ _ _)
    | with_reducible apply State.Steady.after (State.project_steady _ _ _ _)
    | with_reducible apply State.Steady.after (State.pair_steady (State.project_steady _ _ _ _) (by assumption))
    | with_reducible apply State.Steady.after ((State.readSlots_still _ _ _ _ _).steady)
    | with_reducible apply State.Steady.after (State.pair_steady ((State.readSlots_still _ _ _ _ _).steady) (by assumption))
    | with_reducible apply State.Steady.after ((State.frameWrites_still _ _ _).steady)
    | with_reducible apply State.Steady.after (State.pair_steady ((State.frameWrites_still _ _ _).steady) (by assumption))
    | ((try lift_lets); intro x; refine State.cut_steady (x := x) ?_ ?_; (on_goal 1 => unfold x); (on_goal 2 => (clear_value x; intro _)))
    | ((try lift_lets); intro x; refine State.cut_steady (x := x.2) ?_ ?_; (on_goal 1 => unfold x); (on_goal 2 => (clear_value x; intro _)))
    | ((try lift_lets); intro x; try clear_value x)
    | intro _
    | split
    | with_reducible fail_if_no_progress apply State.Steady.after ((State.mk_still _).steady)
    | dsimp only

theorem execShip_steady (part : PartNo) (epoch : EpochNo) (s : State) :
    ∀ t_, execShip part epoch s = .next t_ → s.Steady t_ := by
  unfold execShip
  refine State.next_steady ?_
  repeat' first
    | with_reducible refine State.ite_steady ?_ ?_
    | with_reducible refine State.ite2_steady ?_ ?_
    | with_reducible exact State.Steady.refl _
    | with_reducible assumption
    | with_reducible apply State.Steady.after (State.shipBatch_steady _ _ _ _ _ _)
    | ((try lift_lets); intro x; refine State.cut_steady (x := x) ?_ ?_; (on_goal 1 => unfold x); (on_goal 2 => (clear_value x; intro _)))
    | ((try lift_lets); intro x; refine State.cut_steady (x := x.2) ?_ ?_; (on_goal 1 => unfold x); (on_goal 2 => (clear_value x; intro _)))
    | ((try lift_lets); intro x; try clear_value x)
    | intro _
    | split
    | dsimp only

theorem State.freeEpoch_still (s : State) (p e : Nat) :
    s.Still (State.freeEpoch s p e) := by
  unfold State.freeEpoch
  repeat' first
    | with_reducible exact State.Still.refl _
    | with_reducible assumption
    | with_reducible apply State.Still.after (State.put_still _ _ _)
    | with_reducible apply State.Still.after (State.setPart_still _ _ _)
    | with_reducible apply State.Still.after (State.release_still _ _ _)
    | ((try lift_lets); intro x; refine State.cut_still (x := x) ?_ ?_; (on_goal 1 => unfold x); (on_goal 2 => (clear_value x; intro _)))
    | ((try lift_lets); intro x; refine State.cut_still (x := x.2) ?_ ?_; (on_goal 1 => unfold x); (on_goal 2 => (clear_value x; intro _)))
    | ((try lift_lets); intro x; try clear_value x)
    | intro _
    | split
    | with_reducible fail_if_no_progress apply State.Still.after (State.mk_still _)
    | dsimp only

theorem State.endNotice_still (s : State) (p e : Nat) (x : Epoch) :
    s.Still (State.endNotice s p e x) := by
  unfold State.endNotice
  repeat' first
    | with_reducible refine State.ite_still ?_ ?_
    | with_reducible refine State.ite2_still ?_ ?_
    | with_reducible exact State.Still.refl _
    | with_reducible assumption
    | with_reducible apply State.Still.after (State.deliverCpl_still _ _ _ _)
    | with_reducible apply State.Still.after (State.pair_still (State.deliverCpl_still _ _ _ _) (by assumption))
    | with_reducible apply State.Still.after (State.freeEpoch_still _ _ _)
    | ((try lift_lets); intro x; refine State.cut_still (x := x) ?_ ?_; (on_goal 1 => unfold x); (on_goal 2 => (clear_value x; intro _)))
    | ((try lift_lets); intro x; refine State.cut_still (x := x.2) ?_ ?_; (on_goal 1 => unfold x); (on_goal 2 => (clear_value x; intro _)))
    | ((try lift_lets); intro x; try clear_value x)
    | intro _
    | split
    | dsimp only

theorem execEndNotice_still (part : PartNo) (epoch : EpochNo) (s : State) :
    ∀ t_, execEndNotice part epoch s = .next t_ → s.Still t_ := by
  unfold execEndNotice
  refine State.next_still ?_
  repeat' first
    | with_reducible refine State.ite_still ?_ ?_
    | with_reducible refine State.ite2_still ?_ ?_
    | with_reducible exact State.Still.refl _
    | with_reducible assumption
    | with_reducible apply State.Still.after (State.endNotice_still _ _ _ _)
    | ((try lift_lets); intro x; refine State.cut_still (x := x) ?_ ?_; (on_goal 1 => unfold x); (on_goal 2 => (clear_value x; intro _)))
    | ((try lift_lets); intro x; refine State.cut_still (x := x.2) ?_ ?_; (on_goal 1 => unfold x); (on_goal 2 => (clear_value x; intro _)))
    | ((try lift_lets); intro x; try clear_value x)
    | intro _
    | split
    | dsimp only

end Sys2Proof.Machine
end

