-- ==== Sys2Proof/Laws/KeepIngest.lean ====
section
/-!
SUPPORT. What the operations and meanings of Machine/Ingest.lean keep of a state.
-/
set_option linter.unusedVariables false
set_option linter.unreachableTactic false
set_option linter.unusedTactic false
namespace Sys2Proof.Machine

theorem State.frameRecord_still (s : State) (p id : Nat) (x : Stream) (addr : Nat) (bytes : Bytes) :
    s.Still (State.frameRecord s p id x addr bytes) := by
  unfold State.frameRecord
  repeat' first
    | with_reducible exact State.Still.refl _
    | with_reducible assumption
    | with_reducible apply State.Still.after (State.bump_still _ _ _)
    | with_reducible apply State.Still.after (State.enqueueBolt_still _ _ _ _)
    | with_reducible apply State.Still.after (State.pair_still (State.enqueueBolt_still _ _ _ _) (by assumption))
    | ((try lift_lets); intro x; refine State.cut_still (x := x) ?_ ?_; (on_goal 1 => unfold x); (on_goal 2 => (clear_value x; intro _)))
    | ((try lift_lets); intro x; refine State.cut_still (x := x.2) ?_ ?_; (on_goal 1 => unfold x); (on_goal 2 => (clear_value x; intro _)))
    | ((try lift_lets); intro x; try clear_value x)
    | intro _
    | split
    | dsimp only

theorem State.frameHole_still (s : State) (p id : Nat) (x : Stream) (addr : Nat) :
    s.Still (State.frameHole s p id x addr) := by
  unfold State.frameHole
  repeat' first
    | with_reducible exact State.Still.refl _
    | with_reducible assumption
    | with_reducible apply State.Still.after (State.bump_still _ _ _)
    | with_reducible apply State.Still.after (State.enqueueBolt_still _ _ _ _)
    | with_reducible apply State.Still.after (State.pair_still (State.enqueueBolt_still _ _ _ _) (by assumption))
    | ((try lift_lets); intro x; refine State.cut_still (x := x) ?_ ?_; (on_goal 1 => unfold x); (on_goal 2 => (clear_value x; intro _)))
    | ((try lift_lets); intro x; refine State.cut_still (x := x.2) ?_ ?_; (on_goal 1 => unfold x); (on_goal 2 => (clear_value x; intro _)))
    | ((try lift_lets); intro x; try clear_value x)
    | intro _
    | split
    | dsimp only

theorem State.frameHoles_still (s : State) (p id : Nat) (x : Stream) (n : Nat) :
    s.Still (State.frameHoles s p id x n) := by
  unfold State.frameHoles
  repeat' first
    | with_reducible exact State.Still.refl _
    | with_reducible assumption
    | with_reducible apply State.Still.after (State.frameHole_still _ _ _ _ _)
    | with_reducible apply State.Still.after (State.foldl_still ?_ _ _)
    | with_reducible apply State.Still.after (State.foldl2_still ?_ _ _)
    | intro _
    | split
    | dsimp only

theorem State.walkError_still (s : State) (id : Nat) (x : Stream) (st : Status) :
    s.Still (State.walkError s id x st) := by
  unfold State.walkError
  repeat' first
    | with_reducible exact State.Still.refl _
    | with_reducible assumption
    | with_reducible apply State.Still.after (State.sendError_still _ _ _ _ _ _ _)
    | intro _
    | split
    | dsimp only

theorem State.rejectObject_still (s : State) (p id : Nat) (x : Stream) :
    s.Still (State.rejectObject s p id x) := by
  unfold State.rejectObject
  repeat' first
    | with_reducible exact State.Still.refl _
    | with_reducible assumption
    | with_reducible apply State.Still.after (State.bump_still _ _ _)
    | with_reducible apply State.Still.after (State.setStream_still _ _ _ _)
    | with_reducible apply State.Still.after (State.walkError_still _ _ _ _)
    | intro _
    | split
    | with_reducible fail_if_no_progress apply State.Still.after (State.mk_still _)
    | dsimp only

theorem State.cutObject_still (s : State) (p id : Nat) (x : Stream) (error : Bool) :
    s.Still (State.cutObject s p id x error) := by
  unfold State.cutObject
  repeat' first
    | with_reducible refine State.ite_still ?_ ?_
    | with_reducible refine State.ite2_still ?_ ?_
    | with_reducible exact State.Still.refl _
    | with_reducible assumption
    | with_reducible apply State.Still.after (State.bump_still _ _ _)
    | with_reducible apply State.Still.after (State.setStream_still _ _ _ _)
    | with_reducible apply State.Still.after (State.walkError_still _ _ _ _)
    | ((try lift_lets); intro x; refine State.cut_still (x := x) ?_ ?_; (on_goal 1 => unfold x); (on_goal 2 => (clear_value x; intro _)))
    | ((try lift_lets); intro x; refine State.cut_still (x := x.2) ?_ ?_; (on_goal 1 => unfold x); (on_goal 2 => (clear_value x; intro _)))
    | ((try lift_lets); intro x; try clear_value x)
    | intro _
    | split
    | with_reducible fail_if_no_progress apply State.Still.after (State.mk_still _)
    | dsimp only

theorem State.finishObject_still (s : State) (p id : Nat) (x : Stream) (head : Bool) :
    s.Still (State.finishObject s p id x head) := by
  unfold State.finishObject
  repeat' first
    | with_reducible refine State.ite_still ?_ ?_
    | with_reducible refine State.ite2_still ?_ ?_
    | with_reducible exact State.Still.refl _
    | with_reducible assumption
    | with_reducible apply State.Still.after (State.bump_still _ _ _)
    | with_reducible apply State.Still.after (State.setStream_still _ _ _ _)
    | with_reducible apply State.Still.after (State.walkError_still _ _ _ _)
    | ((try lift_lets); intro x; refine State.cut_still (x := x) ?_ ?_; (on_goal 1 => unfold x); (on_goal 2 => (clear_value x; intro _)))
    | ((try lift_lets); intro x; refine State.cut_still (x := x.2) ?_ ?_; (on_goal 1 => unfold x); (on_goal 2 => (clear_value x; intro _)))
    | ((try lift_lets); intro x; try clear_value x)
    | intro _
    | split
    | dsimp only

theorem State.badPacket_still (s : State) (p id : Nat) (x : Stream) (k : HeldPacket) (addr : Nat) :
    s.Still (State.badPacket s p id x k addr) := by
  unfold State.badPacket
  repeat' first
    | with_reducible refine State.ite_still ?_ ?_
    | with_reducible refine State.ite2_still ?_ ?_
    | with_reducible exact State.Still.refl _
    | with_reducible assumption
    | with_reducible apply State.Still.after (State.setStream_still _ _ _ _)
    | with_reducible apply State.Still.after (State.truncate_still _ _ _ _)
    | with_reducible apply State.Still.after (State.walkError_still _ _ _ _)
    | ((try lift_lets); intro x; refine State.cut_still (x := x) ?_ ?_; (on_goal 1 => unfold x); (on_goal 2 => (clear_value x; intro _)))
    | ((try lift_lets); intro x; refine State.cut_still (x := x.2) ?_ ?_; (on_goal 1 => unfold x); (on_goal 2 => (clear_value x; intro _)))
    | ((try lift_lets); intro x; try clear_value x)
    | intro _
    | split
    | with_reducible fail_if_no_progress apply State.Still.after (State.mk_still _)
    | dsimp only

theorem State.consume_still (s : State) (p id : Nat) (x : Stream) (k : HeldPacket) (addr : Nat) :
    s.Still (State.consume s p id x k addr) := by
  unfold State.consume
  repeat' first
    | with_reducible refine State.ite_still ?_ ?_
    | with_reducible refine State.ite2_still ?_ ?_
    | with_reducible exact State.Still.refl _
    | with_reducible assumption
    | with_reducible apply State.Still.after (State.setStream_still _ _ _ _)
    | with_reducible apply State.Still.after (State.badPacket_still _ _ _ _ _ _)
    | intro _
    | split
    | with_reducible fail_if_no_progress apply State.Still.after (State.mk_still _)
    | dsimp only

theorem State.takePacket_still (s : State) (p id : Nat) (x : Stream) :
    ∀ t_, State.takePacket s p id x = some t_ → s.Still t_ := by
  intro t_ h
  unfold State.takePacket at h
  try dsimp only at h
  repeat' split at h
  all_goals try contradiction
  all_goals try first
    | (injection h with h; subst h)
    | (obtain ⟨z_, hz_, h⟩ := Option.map_eq_some_iff.1 h; subst h)
  all_goals repeat' first
    | with_reducible refine State.ite_still ?_ ?_
    | with_reducible refine State.ite2_still ?_ ?_
    | with_reducible exact State.Still.refl _
    | with_reducible assumption
    | with_reducible apply State.Still.after (State.consume_still _ _ _ _ _ _)
    | ((try lift_lets); intro x; refine State.cut_still (x := x) ?_ ?_; (on_goal 1 => unfold x); (on_goal 2 => (clear_value x; intro _)))
    | ((try lift_lets); intro x; refine State.cut_still (x := x.2) ?_ ?_; (on_goal 1 => unfold x); (on_goal 2 => (clear_value x; intro _)))
    | ((try lift_lets); intro x; try clear_value x)
    | intro _
    | split
    | with_reducible fail_if_no_progress apply State.Still.after (State.mk_still _)
    | dsimp only

theorem State.endStream_still (s : State) (p id : Nat) (x : Stream) :
    s.Still (State.endStream s p id x) := by
  unfold State.endStream
  repeat' first
    | with_reducible refine State.ite_still ?_ ?_
    | with_reducible refine State.ite2_still ?_ ?_
    | with_reducible exact State.Still.refl _
    | with_reducible assumption
    | with_reducible apply State.Still.after (State.setStream_still _ _ _ _)
    | with_reducible apply State.Still.after (State.sendCredit_still _ _ _ _ _)
    | with_reducible apply State.Still.after (State.truncate_still _ _ _ _)
    | with_reducible apply State.Still.after (State.streamMark_still _ _ _)
    | ((try lift_lets); intro x; refine State.cut_still (x := x) ?_ ?_; (on_goal 1 => unfold x); (on_goal 2 => (clear_value x; intro _)))
    | ((try lift_lets); intro x; refine State.cut_still (x := x.2) ?_ ?_; (on_goal 1 => unfold x); (on_goal 2 => (clear_value x; intro _)))
    | ((try lift_lets); intro x; try clear_value x)
    | intro _
    | split
    | with_reducible fail_if_no_progress apply State.Still.after (State.mk_still _)
    | dsimp only

theorem State.moreBytes_still (s : State) (p id : Nat) (x : Stream) (head : Bool) :
    ∀ t_, State.moreBytes s p id x head = some t_ → s.Still t_ := by
  intro t_ h
  unfold State.moreBytes at h
  try dsimp only at h
  repeat' split at h
  all_goals try contradiction
  all_goals try first
    | (injection h with h; subst h)
    | (obtain ⟨z_, hz_, h⟩ := Option.map_eq_some_iff.1 h; subst h)
  all_goals repeat' first
    | with_reducible refine State.ite_still ?_ ?_
    | with_reducible refine State.ite2_still ?_ ?_
    | with_reducible exact State.Still.refl _
    | with_reducible assumption
    | with_reducible apply State.Still.after (State.setStream_still _ _ _ _)
    | with_reducible apply State.Still.after (State.finishObject_still _ _ _ _ _)
    | with_reducible apply State.Still.after (State.takePacket_still _ _ _ _ _ (by assumption))
    | with_reducible apply State.Still.after (State.endStream_still _ _ _ _)
    | intro _
    | split
    | dsimp only

theorem State.frameAll_still (s : State) (p id : Nat) (x : Stream) (off : Nat) (recs : List Bytes) :
    s.Still (State.frameAll s p id x off recs) := by
  unfold State.frameAll
  exact State.foldlBy_still (fun a : State × Nat => a.1) (fun a r => State.frameRecord_still _ _ _ _ _ _) _ _

theorem State.avroDeliver_still (s : State) (p id : Nat) (x : Stream) (count off : Nat) (w : List Bytes × Option Bytes) (marker : Bool) :
    s.Still (State.avroDeliver s p id x count off w marker) := by
  unfold State.avroDeliver
  repeat' first
    | with_reducible refine State.ite_still ?_ ?_
    | with_reducible refine State.ite2_still ?_ ?_
    | with_reducible exact State.Still.refl _
    | with_reducible assumption
    | with_reducible apply State.Still.after (OpCtx.count_still _ _ _ _)
    | with_reducible apply State.Still.after (State.frameHoles_still _ _ _ _ _)
    | with_reducible apply State.Still.after (State.frameAll_still _ _ _ _ _ _)
    | intro _
    | split
    | dsimp only

theorem State.walkAvro_still (s : State) (p id : Nat) (x : Stream) (t : DecoderTable) :
    ∀ u_ t_, State.walkAvro s p id x t = some (u_, t_) → s.Still t_ := by
  intro u_ t_ h
  unfold State.walkAvro at h
  try dsimp only at h
  repeat' split at h
  all_goals try contradiction
  all_goals try first
    | (injection h with h; injection h with h1 h2; subst h2)
    | (obtain ⟨z_, hz_, h⟩ := Option.map_eq_some_iff.1 h; injection h with h1 h2; subst h2)
  all_goals repeat' first
    | with_reducible refine State.ite_still ?_ ?_
    | with_reducible refine State.ite2_still ?_ ?_
    | with_reducible exact State.Still.refl _
    | with_reducible assumption
    | with_reducible apply State.Still.after (State.take_still _ _ _ _ _)
    | with_reducible apply State.Still.after (State.setStream_still _ _ _ _)
    | with_reducible apply State.Still.after (OpCtx.count_still _ _ _ _)
    | with_reducible apply State.Still.after (State.cutObject_still _ _ _ _ _)
    | with_reducible apply State.Still.after (State.moreBytes_still _ _ _ _ _ _ (by assumption))
    | with_reducible refine State.getD_still (State.moreBytes_still _ _ _ _ _) ?_ ?_
    | with_reducible apply State.Still.after (State.avroDeliver_still _ _ _ _ _ _ _ _)
    | ((try lift_lets); intro x; refine State.cut_still (x := x) ?_ ?_; (on_goal 1 => unfold x); (on_goal 2 => (clear_value x; intro _)))
    | ((try lift_lets); intro x; refine State.cut_still (x := x.2) ?_ ?_; (on_goal 1 => unfold x); (on_goal 2 => (clear_value x; intro _)))
    | ((try lift_lets); intro x; try clear_value x)
    | intro _
    | split
    | with_reducible fail_if_no_progress apply State.Still.after (State.mk_still _)
    | dsimp only

theorem State.walkScan_still (s : State) (p id : Nat) (x : Stream) :
    ∀ t_, State.walkScan s p id x = some t_ → s.Still t_ := by
  intro t_ h
  unfold State.walkScan at h
  try dsimp only at h
  repeat' split at h
  all_goals try contradiction
  all_goals try first
    | (injection h with h; subst h)
    | (obtain ⟨z_, hz_, h⟩ := Option.map_eq_some_iff.1 h; subst h)
  all_goals repeat' first
    | with_reducible refine State.ite_still ?_ ?_
    | with_reducible refine State.ite2_still ?_ ?_
    | with_reducible exact State.Still.refl _
    | with_reducible assumption
    | with_reducible apply State.Still.after (State.bump_still _ _ _)
    | with_reducible apply State.Still.after (State.setStream_still _ _ _ _)
    | with_reducible apply State.Still.after (State.moreBytes_still _ _ _ _ _ _ (by assumption))
    | ((try lift_lets); intro x; refine State.cut_still (x := x) ?_ ?_; (on_goal 1 => unfold x); (on_goal 2 => (clear_value x; intro _)))
    | ((try lift_lets); intro x; refine State.cut_still (x := x.2) ?_ ?_; (on_goal 1 => unfold x); (on_goal 2 => (clear_value x; intro _)))
    | ((try lift_lets); intro x; try clear_value x)
    | intro _
    | split
    | with_reducible fail_if_no_progress apply State.Still.after (State.mk_still _)
    | dsimp only

theorem State.walkJson_still (s : State) (p id : Nat) (x : Stream) :
    ∀ t_, State.walkJson s p id x = some t_ → s.Still t_ := by
  intro t_ h
  unfold State.walkJson at h
  try dsimp only at h
  repeat' split at h
  all_goals try contradiction
  all_goals try first
    | (injection h with h; subst h)
    | (obtain ⟨z_, hz_, h⟩ := Option.map_eq_some_iff.1 h; subst h)
  all_goals repeat' first
    | with_reducible refine State.ite_still ?_ ?_
    | with_reducible refine State.ite2_still ?_ ?_
    | with_reducible exact State.Still.refl _
    | with_reducible assumption
    | with_reducible apply State.Still.after (State.take_still _ _ _ _ _)
    | with_reducible apply State.Still.after (State.setStream_still _ _ _ _)
    | with_reducible apply State.Still.after (State.frameRecord_still _ _ _ _ _ _)
    | with_reducible apply State.Still.after (State.frameHole_still _ _ _ _ _)
    | with_reducible apply State.Still.after (State.moreBytes_still _ _ _ _ _ _ (by assumption))
    | ((try lift_lets); intro x; refine State.cut_still (x := x) ?_ ?_; (on_goal 1 => unfold x); (on_goal 2 => (clear_value x; intro _)))
    | ((try lift_lets); intro x; refine State.cut_still (x := x.2) ?_ ?_; (on_goal 1 => unfold x); (on_goal 2 => (clear_value x; intro _)))
    | ((try lift_lets); intro x; try clear_value x)
    | intro _
    | split
    | with_reducible fail_if_no_progress apply State.Still.after (State.mk_still _)
    | dsimp only

theorem State.walkFixedHead_still (s : State) (p id : Nat) (x : Stream) (t : DecoderTable) :
    ∀ t_, State.walkFixedHead s p id x t = some t_ → s.Still t_ := by
  intro t_ h
  unfold State.walkFixedHead at h
  dsimp only at h
  split at h
  · exact State.moreBytes_still _ _ _ _ _ _ h
  · split at h
    · exact Option.some.inj h ▸ State.rejectObject_still _ _ _ _
    · split at h
      · exact State.moreBytes_still _ _ _ _ _ _ h
      · split at h
        · exact Option.some.inj h ▸ State.rejectObject_still _ _ _ _
        · exact Option.some.inj h ▸ State.setStream_still _ _ _ _

theorem State.walkFixed_still (s : State) (p id : Nat) (x : Stream) :
    ∀ t_, State.walkFixed s p id x = some t_ → s.Still t_ := by
  intro t_ h
  unfold State.walkFixed at h
  try dsimp only at h
  repeat' split at h
  all_goals try contradiction
  all_goals try first
    | (injection h with h; subst h)
    | (obtain ⟨z_, hz_, h⟩ := Option.map_eq_some_iff.1 h; subst h)
  all_goals repeat' first
    | with_reducible refine State.ite_still ?_ ?_
    | with_reducible refine State.ite2_still ?_ ?_
    | with_reducible exact State.Still.refl _
    | with_reducible assumption
    | with_reducible apply State.Still.after (State.take_still _ _ _ _ _)
    | with_reducible apply State.Still.after (State.setStream_still _ _ _ _)
    | with_reducible apply State.Still.after (State.frameRecord_still _ _ _ _ _ _)
    | with_reducible apply State.Still.after (State.frameHole_still _ _ _ _ _)
    | with_reducible apply State.Still.after (State.moreBytes_still _ _ _ _ _ _ (by assumption))
    | ((try lift_lets); intro x; refine State.cut_still (x := x) ?_ ?_; (on_goal 1 => unfold x); (on_goal 2 => (clear_value x; intro _)))
    | ((try lift_lets); intro x; refine State.cut_still (x := x.2) ?_ ?_; (on_goal 1 => unfold x); (on_goal 2 => (clear_value x; intro _)))
    | ((try lift_lets); intro x; try clear_value x)
    | intro _
    | split
    | with_reducible fail_if_no_progress apply State.Still.after (State.mk_still _)
    | dsimp only

theorem State.walkAvroHead_still (s : State) (p id : Nat) (x : Stream) (t : DecoderTable) :
    ∀ t_, State.walkAvroHead s p id x t = some t_ → s.Still t_ := by
  intro t_ h
  unfold State.walkAvroHead at h
  try dsimp only at h
  repeat' split at h
  all_goals try contradiction
  all_goals try first
    | (injection h with h; subst h)
    | (obtain ⟨z_, hz_, h⟩ := Option.map_eq_some_iff.1 h; subst h)
  all_goals repeat' first
    | with_reducible exact State.Still.refl _
    | with_reducible assumption
    | with_reducible apply State.Still.after (State.setStream_still _ _ _ _)
    | with_reducible apply State.Still.after (State.rejectObject_still _ _ _ _)
    | with_reducible apply State.Still.after (State.moreBytes_still _ _ _ _ _ _ (by assumption))
    | intro _
    | split
    | with_reducible fail_if_no_progress apply State.Still.after (State.mk_still _)
    | dsimp only

theorem State.walkSkip_still (s : State) (p id : Nat) (x : Stream) (count : Bool) :
    ∀ t_, State.walkSkip s p id x count = some t_ → s.Still t_ := by
  intro t_ h
  unfold State.walkSkip at h
  try dsimp only at h
  repeat' split at h
  all_goals try contradiction
  all_goals try first
    | (injection h with h; subst h)
    | (obtain ⟨z_, hz_, h⟩ := Option.map_eq_some_iff.1 h; subst h)
  all_goals repeat' first
    | with_reducible refine State.ite_still ?_ ?_
    | with_reducible refine State.ite2_still ?_ ?_
    | with_reducible exact State.Still.refl _
    | with_reducible assumption
    | with_reducible apply State.Still.after (State.bump_still _ _ _)
    | with_reducible apply State.Still.after (State.setStream_still _ _ _ _)
    | with_reducible apply State.Still.after (OpCtx.count_still _ _ _ _)
    | with_reducible apply State.Still.after (State.moreBytes_still _ _ _ _ _ _ (by assumption))
    | ((try lift_lets); intro x; refine State.cut_still (x := x) ?_ ?_; (on_goal 1 => unfold x); (on_goal 2 => (clear_value x; intro _)))
    | ((try lift_lets); intro x; refine State.cut_still (x := x.2) ?_ ?_; (on_goal 1 => unfold x); (on_goal 2 => (clear_value x; intro _)))
    | ((try lift_lets); intro x; try clear_value x)
    | intro _
    | split
    | with_reducible fail_if_no_progress apply State.Still.after (State.mk_still _)
    | dsimp only

theorem State.walk_still (s : State) (p id : Nat) (last : Bool) :
    ∀ u_ t_, State.walk s p id last = some (u_, t_) → s.Still t_ := by
  intro u_ t_ h
  unfold State.walk at h
  try dsimp only at h
  repeat' split at h
  all_goals try contradiction
  all_goals try first
    | (injection h with h; injection h with h1 h2; subst h2)
    | (obtain ⟨z_, hz_, h⟩ := Option.map_eq_some_iff.1 h; injection h with h1 h2; subst h2)
  all_goals repeat' first
    | with_reducible refine State.ite_still ?_ ?_
    | with_reducible refine State.ite2_still ?_ ?_
    | with_reducible exact State.Still.refl _
    | with_reducible assumption
    | with_reducible apply State.Still.after (State.setStream_still _ _ _ _)
    | with_reducible apply State.Still.after (State.moreBytes_still _ _ _ _ _ _ (by assumption))
    | with_reducible apply State.Still.after (State.walkAvro_still _ _ _ _ _ _ _ (by assumption))
    | with_reducible apply State.Still.after (State.walkScan_still _ _ _ _ _ (by assumption))
    | with_reducible apply State.Still.after (State.walkJson_still _ _ _ _ _ (by assumption))
    | with_reducible apply State.Still.after (State.walkFixedHead_still _ _ _ _ _ _ (by assumption))
    | with_reducible apply State.Still.after (State.walkFixed_still _ _ _ _ _ (by assumption))
    | with_reducible apply State.Still.after (State.walkAvroHead_still _ _ _ _ _ _ (by assumption))
    | with_reducible apply State.Still.after (State.walkSkip_still _ _ _ _ _ _ (by assumption))
    | ((try lift_lets); intro x; refine State.cut_still (x := x) ?_ ?_; (on_goal 1 => unfold x); (on_goal 2 => (clear_value x; intro _)))
    | ((try lift_lets); intro x; refine State.cut_still (x := x.2) ?_ ?_; (on_goal 1 => unfold x); (on_goal 2 => (clear_value x; intro _)))
    | ((try lift_lets); intro x; try clear_value x)
    | intro _
    | split
    | with_reducible fail_if_no_progress apply State.Still.after (State.mk_still _)
    | dsimp only

theorem State.walkTurn_still (a0 : Nat) (s : State) (a2 : Nat) (a3 : Nat) (a4 : Nat) :
    s.Still (State.walkTurn a0 s a2 a3 a4) := by
  induction a0 generalizing s a2 a3 a4 with
  | zero => exact State.Still.refl s
  | succ n ih =>
    unfold State.walkTurn
    repeat' first
      | with_reducible refine State.ite_still ?_ ?_
      | with_reducible refine State.ite2_still ?_ ?_
      | cases (by assumption : n + 1 = Nat.succ _)
      | with_reducible apply State.Still.after (ih _ _ _ _)
      | with_reducible exact State.Still.refl _
      | with_reducible assumption
      | with_reducible apply State.Still.after (State.walk_still _ _ _ _ _ _ (by assumption))
      | ((try lift_lets); intro x; refine State.cut_still (x := x) ?_ ?_; (on_goal 1 => unfold x); (on_goal 2 => (clear_value x; intro _)))
      | ((try lift_lets); intro x; refine State.cut_still (x := x.2) ?_ ?_; (on_goal 1 => unfold x); (on_goal 2 => (clear_value x; intro _)))
      | ((try lift_lets); intro x; try clear_value x)
      | intro _
      | split
      | dsimp only

theorem execWalkRecords_still (part : PartNo) (stream : StreamNo) (s : State) :
    ∀ t_, execWalkRecords part stream s = .next t_ → s.Still t_ := by
  unfold execWalkRecords
  refine State.next_still ?_
  repeat' first
    | with_reducible refine State.ite_still ?_ ?_
    | with_reducible refine State.ite2_still ?_ ?_
    | with_reducible exact State.Still.refl _
    | with_reducible assumption
    | with_reducible apply State.Still.after (State.setPart_still _ _ _)
    | with_reducible apply State.Still.after (State.walk_still _ _ _ _ _ _ (by assumption))
    | with_reducible apply State.Still.after (State.walkTurn_still _ _ _ _ _)
    | ((try lift_lets); intro x; refine State.cut_still (x := x) ?_ ?_; (on_goal 1 => unfold x); (on_goal 2 => (clear_value x; intro _)))
    | ((try lift_lets); intro x; refine State.cut_still (x := x.2) ?_ ?_; (on_goal 1 => unfold x); (on_goal 2 => (clear_value x; intro _)))
    | ((try lift_lets); intro x; try clear_value x)
    | intro _
    | split
    | with_reducible fail_if_no_progress apply State.Still.after (State.mk_still _)
    | dsimp only

theorem State.countUnit_still (s : State) (p : Nat) (r : Except CodeErr Dst) :
    s.Still (State.countUnit s p r) := by
  unfold State.countUnit
  repeat' first
    | with_reducible exact State.Still.refl _
    | with_reducible assumption
    | with_reducible apply State.Still.after (State.bump_still _ _ _)
    | with_reducible apply State.Still.after (State.addWork_still _ _ _ _)
    | intro _
    | split
    | dsimp only

theorem State.objectUnit_still (s : State) (p id : Nat) (x : Stream) :
    s.Still (State.objectUnit s p id x) := by
  unfold State.objectUnit
  repeat' first
    | with_reducible refine State.ite_still ?_ ?_
    | with_reducible refine State.ite2_still ?_ ?_
    | with_reducible exact State.Still.refl _
    | with_reducible assumption
    | with_reducible apply State.Still.after (State.free_still _)
    | with_reducible apply State.Still.after (State.pair_still (State.free_still _) (by assumption))
    | with_reducible apply State.Still.after (State.setStream_still _ _ _ _)
    | with_reducible apply State.Still.after (State.frameHoles_still _ _ _ _ _)
    | with_reducible apply State.Still.after (State.cutObject_still _ _ _ _ _)
    | with_reducible apply State.Still.after (State.countUnit_still _ _ _)
    | ((try lift_lets); intro x; refine State.cut_still (x := x) ?_ ?_; (on_goal 1 => unfold x); (on_goal 2 => (clear_value x; intro _)))
    | ((try lift_lets); intro x; refine State.cut_still (x := x.2) ?_ ?_; (on_goal 1 => unfold x); (on_goal 2 => (clear_value x; intro _)))
    | ((try lift_lets); intro x; try clear_value x)
    | intro _
    | split
    | with_reducible fail_if_no_progress apply State.Still.after (State.mk_still _)
    | dsimp only

theorem State.avroUnit_still (s : State) (p id : Nat) (x : Stream) :
    s.Still (State.avroUnit s p id x) := by
  unfold State.avroUnit
  repeat' first
    | with_reducible refine State.ite_still ?_ ?_
    | with_reducible refine State.ite2_still ?_ ?_
    | with_reducible exact State.Still.refl _
    | with_reducible assumption
    | with_reducible apply State.Still.after (State.take_still _ _ _ _ _)
    | with_reducible apply State.Still.after (State.setStream_still _ _ _ _)
    | with_reducible apply State.Still.after (OpCtx.count_still _ _ _ _)
    | with_reducible apply State.Still.after (State.frameHoles_still _ _ _ _ _)
    | with_reducible apply State.Still.after (State.countUnit_still _ _ _)
    | ((try lift_lets); intro x; refine State.cut_still (x := x) ?_ ?_; (on_goal 1 => unfold x); (on_goal 2 => (clear_value x; intro _)))
    | ((try lift_lets); intro x; refine State.cut_still (x := x.2) ?_ ?_; (on_goal 1 => unfold x); (on_goal 2 => (clear_value x; intro _)))
    | ((try lift_lets); intro x; try clear_value x)
    | intro _
    | split
    | with_reducible fail_if_no_progress apply State.Still.after (State.mk_still _)
    | dsimp only

theorem State.decompressUnit_still (s : State) (p id : Nat) (last : Bool) :
    s.Still (State.decompressUnit s p id last) := by
  unfold State.decompressUnit
  repeat' first
    | with_reducible refine State.ite_still ?_ ?_
    | with_reducible refine State.ite2_still ?_ ?_
    | with_reducible exact State.Still.refl _
    | with_reducible assumption
    | with_reducible apply State.Still.after (State.objectUnit_still _ _ _ _)
    | with_reducible apply State.Still.after (State.avroUnit_still _ _ _ _)
    | intro _
    | split
    | dsimp only

theorem State.dropUnit_still (s : State) (p id : Nat) :
    s.Still (State.dropUnit s p id) := by
  unfold State.dropUnit
  repeat' first
    | with_reducible exact State.Still.refl _
    | with_reducible assumption
    | with_reducible apply State.Still.after (State.setPart_still _ _ _)
    | intro _
    | split
    | with_reducible fail_if_no_progress apply State.Still.after (State.mk_still _)
    | dsimp only

theorem execCompressedUnit_still (part : PartNo) (stream : StreamNo) (s : State) :
    ∀ t_, execCompressedUnit part stream s = .next t_ → s.Still t_ := by
  unfold execCompressedUnit
  refine State.next_still ?_
  repeat' first
    | with_reducible refine State.ite_still ?_ ?_
    | with_reducible refine State.ite2_still ?_ ?_
    | with_reducible exact State.Still.refl _
    | with_reducible assumption
    | with_reducible apply State.Still.after (State.setPart_still _ _ _)
    | with_reducible apply State.Still.after (State.noteTurn_still _ _ _ _ _ _)
    | with_reducible apply State.Still.after (State.decompressUnit_still _ _ _ _)
    | with_reducible apply State.Still.after (State.dropUnit_still _ _ _)
    | ((try lift_lets); intro x; refine State.cut_still (x := x) ?_ ?_; (on_goal 1 => unfold x); (on_goal 2 => (clear_value x; intro _)))
    | ((try lift_lets); intro x; refine State.cut_still (x := x.2) ?_ ?_; (on_goal 1 => unfold x); (on_goal 2 => (clear_value x; intro _)))
    | ((try lift_lets); intro x; try clear_value x)
    | intro _
    | split
    | with_reducible fail_if_no_progress apply State.Still.after (State.mk_still _)
    | dsimp only

theorem State.walkAll_still (a0 : Nat) (s : State) (a2 : Nat) (a3 : Nat) :
    s.Still (State.walkAll a0 s a2 a3) := by
  induction a0 generalizing s a2 a3 with
  | zero => exact State.Still.refl s
  | succ n ih =>
    unfold State.walkAll
    repeat' first
      | with_reducible refine State.ite_still ?_ ?_
      | with_reducible refine State.ite2_still ?_ ?_
      | cases (by assumption : n + 1 = Nat.succ _)
      | with_reducible apply State.Still.after (ih _ _ _)
      | with_reducible exact State.Still.refl _
      | with_reducible assumption
      | with_reducible apply State.Still.after (State.walk_still _ _ _ _ _ _ (by assumption))
      | with_reducible apply State.Still.after (State.decompressUnit_still _ _ _ _)
      | ((try lift_lets); intro x; refine State.cut_still (x := x) ?_ ?_; (on_goal 1 => unfold x); (on_goal 2 => (clear_value x; intro _)))
      | ((try lift_lets); intro x; refine State.cut_still (x := x.2) ?_ ?_; (on_goal 1 => unfold x); (on_goal 2 => (clear_value x; intro _)))
      | ((try lift_lets); intro x; try clear_value x)
      | intro _
      | split
      | dsimp only

theorem State.closeStream_still (s : State) (p id : Nat) (x : Stream) :
    s.Still (State.closeStream s p id x) := by
  unfold State.closeStream
  repeat' first
    | with_reducible refine State.ite_still ?_ ?_
    | with_reducible refine State.ite2_still ?_ ?_
    | with_reducible exact State.Still.refl _
    | with_reducible assumption
    | with_reducible apply State.Still.after (State.setPart_still _ _ _)
    | with_reducible apply State.Still.after (State.release_still _ _ _)
    | with_reducible apply State.Still.after (State.countCut_still _ _ _)
    | with_reducible apply State.Still.after (State.streamMark_still _ _ _)
    | with_reducible apply State.Still.after (State.dropUnit_still _ _ _)
    | ((try lift_lets); intro x; refine State.cut_still (x := x) ?_ ?_; (on_goal 1 => unfold x); (on_goal 2 => (clear_value x; intro _)))
    | ((try lift_lets); intro x; refine State.cut_still (x := x.2) ?_ ?_; (on_goal 1 => unfold x); (on_goal 2 => (clear_value x; intro _)))
    | ((try lift_lets); intro x; try clear_value x)
    | intro _
    | split
    | with_reducible fail_if_no_progress apply State.Still.after (State.mk_still _)
    | dsimp only

theorem execStreamCloseEdge_still (part : PartNo) (stream : StreamNo) (s : State) :
    ∀ t_, execStreamCloseEdge part stream s = .next t_ → s.Still t_ := by
  unfold execStreamCloseEdge
  refine State.next_still ?_
  repeat' first
    | with_reducible refine State.ite_still ?_ ?_
    | with_reducible refine State.ite2_still ?_ ?_
    | with_reducible exact State.Still.refl _
    | with_reducible assumption
    | with_reducible apply State.Still.after (State.answer_still _ _ _ _)
    | with_reducible apply State.Still.after (State.walkAll_still _ _ _ _)
    | with_reducible apply State.Still.after (State.closeStream_still _ _ _ _)
    | ((try lift_lets); intro x; refine State.cut_still (x := x) ?_ ?_; (on_goal 1 => unfold x); (on_goal 2 => (clear_value x; intro _)))
    | ((try lift_lets); intro x; refine State.cut_still (x := x.2) ?_ ?_; (on_goal 1 => unfold x); (on_goal 2 => (clear_value x; intro _)))
    | ((try lift_lets); intro x; try clear_value x)
    | intro _
    | split
    | dsimp only

end Sys2Proof.Machine
end

