-- ==== Sys2Proof/Laws/KeepPipeline.lean ====
section
/-!
SUPPORT. What the operations and meanings of Machine/Pipeline.lean keep of a state.
-/
set_option linter.unusedVariables false
set_option linter.unreachableTactic false
set_option linter.unusedTactic false
namespace Sys2Proof.Machine

theorem State.clearBuckets_steady (s : State) (p : Nat) (im : Image) (ops : List Nat) :
    s.Steady (State.clearBuckets s p im ops) := by
  unfold State.clearBuckets
  repeat' first
    | with_reducible exact State.Steady.refl _
    | with_reducible assumption
    | with_reducible apply State.Steady.after (State.clearHome_steady _ _ _ _)
    | with_reducible apply State.Steady.after (State.foldl_steady ?_ _ _)
    | with_reducible apply State.Steady.after (State.foldl2_steady ?_ _ _)
    | intro _
    | split
    | dsimp only

theorem State.freshAutomata_still (s : State) (p slot : Nat) :
    s.Still (State.freshAutomata s p slot) := by
  unfold State.freshAutomata
  repeat' first
    | with_reducible exact State.Still.refl _
    | with_reducible assumption
    | intro _
    | split
    | with_reducible fail_if_no_progress apply State.Still.after (State.mk_still _)
    | dsimp only

theorem State.loadImage_steady (s : State) (p h_ : Nat) (b : Bytes) (im : Image) :
    s.Steady (State.loadImage s p h_ b im) := by
  unfold State.loadImage
  repeat' first
    | with_reducible exact State.Steady.refl _
    | with_reducible assumption
    | with_reducible apply State.Steady.after ((State.setPart_still _ _ _).steady)
    | with_reducible apply State.Steady.after ((State.openFlow_still _ _ _ _ _ _).steady)
    | with_reducible apply State.Steady.after ((State.chooseOf_still _ _).steady)
    | with_reducible apply State.Steady.after (State.pair_steady ((State.chooseOf_still _ _).steady) (by assumption))
    | with_reducible apply State.Steady.after ((State.setSet_still _ _ _ _).steady)
    | with_reducible apply State.Steady.after (State.clearBuckets_steady _ _ _ _)
    | with_reducible apply State.Steady.after ((State.freshAutomata_still _ _ _).steady)
    | with_reducible apply State.Steady.after (State.foldl_steady ?_ _ _)
    | with_reducible apply State.Steady.after (State.foldl2_steady ?_ _ _)
    | ((try lift_lets); intro x; refine State.cut_steady (x := x) ?_ ?_; (on_goal 1 => unfold x); (on_goal 2 => (clear_value x; intro _)))
    | ((try lift_lets); intro x; refine State.cut_steady (x := x.2) ?_ ?_; (on_goal 1 => unfold x); (on_goal 2 => (clear_value x; intro _)))
    | ((try lift_lets); intro x; try clear_value x)
    | intro _
    | split
    | with_reducible fail_if_no_progress apply State.Steady.after ((State.mk_still _).steady)
    | dsimp only

theorem execPipeLoad_steady (id : Nat) (image : Bytes) (parsed : ImageContent) (s : State) :
    ∀ t_, execPipeLoad id image parsed s = .next t_ → s.Steady t_ := by
  unfold execPipeLoad
  refine State.next_steady ?_
  repeat' first
    | with_reducible refine State.ite_steady ?_ ?_
    | with_reducible refine State.ite2_steady ?_ ?_
    | with_reducible exact State.Steady.refl _
    | with_reducible assumption
    | with_reducible apply State.Steady.after ((State.finish_still _ _ _ _).steady)
    | with_reducible apply State.Steady.after ((State.block_still _ _ _ _).steady)
    | with_reducible apply State.Steady.after ((State.unblock_still _ _ _ _).steady)
    | with_reducible apply State.Steady.after (State.loadImage_steady _ _ _ _ _)
    | ((try lift_lets); intro x; refine State.cut_steady (x := x) ?_ ?_; (on_goal 1 => unfold x); (on_goal 2 => (clear_value x; intro _)))
    | ((try lift_lets); intro x; refine State.cut_steady (x := x.2) ?_ ?_; (on_goal 1 => unfold x); (on_goal 2 => (clear_value x; intro _)))
    | ((try lift_lets); intro x; try clear_value x)
    | intro _
    | split
    | dsimp only

theorem State.askHold_still (s : State) (p : Nat) (fs : List Nat) (v : Bool) :
    s.Still (State.askHold s p fs v) := by
  unfold State.askHold
  repeat' first
    | with_reducible exact State.Still.refl _
    | with_reducible assumption
    | with_reducible apply State.Still.after (State.setPart_still _ _ _)
    | intro _
    | split
    | with_reducible fail_if_no_progress apply State.Still.after (State.mk_still _)
    | dsimp only

theorem State.startGraph_steady (s : State) (c : Cmd) (h_ : Nat) (im : Image) (g : Graph) :
    s.Steady (State.startGraph s c h_ im g) := by
  unfold State.startGraph
  repeat' first
    | with_reducible exact State.Steady.refl _
    | with_reducible assumption
    | with_reducible apply State.Steady.after ((State.setPart_still _ _ _).steady)
    | with_reducible apply State.Steady.after ((State.setCmd_still _ _).steady)
    | with_reducible apply State.Steady.after (State.clearBuckets_steady _ _ _ _)
    | with_reducible apply State.Steady.after ((State.askHold_still _ _ _ _).steady)
    | ((try lift_lets); intro x; refine State.cut_steady (x := x) ?_ ?_; (on_goal 1 => unfold x); (on_goal 2 => (clear_value x; intro _)))
    | ((try lift_lets); intro x; refine State.cut_steady (x := x.2) ?_ ?_; (on_goal 1 => unfold x); (on_goal 2 => (clear_value x; intro _)))
    | ((try lift_lets); intro x; try clear_value x)
    | intro _
    | split
    | with_reducible fail_if_no_progress apply State.Steady.after ((State.mk_still _).steady)
    | dsimp only

theorem execPipeRunGraph_steady (id : Nat) (_data : Bytes) (s : State) :
    ∀ t_, execPipeRunGraph id _data s = .next t_ → s.Steady t_ := by
  unfold execPipeRunGraph
  refine State.next_steady ?_
  repeat' first
    | with_reducible refine State.ite_steady ?_ ?_
    | with_reducible refine State.ite2_steady ?_ ?_
    | with_reducible exact State.Steady.refl _
    | with_reducible assumption
    | with_reducible apply State.Steady.after ((State.finish_still _ _ _ _).steady)
    | with_reducible apply State.Steady.after (State.startGraph_steady _ _ _ _ _)
    | ((try lift_lets); intro x; refine State.cut_steady (x := x) ?_ ?_; (on_goal 1 => unfold x); (on_goal 2 => (clear_value x; intro _)))
    | ((try lift_lets); intro x; refine State.cut_steady (x := x.2) ?_ ?_; (on_goal 1 => unfold x); (on_goal 2 => (clear_value x; intro _)))
    | ((try lift_lets); intro x; try clear_value x)
    | intro _
    | split
    | dsimp only

theorem execPipeStop_still (id : Nat) (s : State) :
    ∀ t_, execPipeStop id s = .next t_ → s.Still t_ := by
  unfold execPipeStop
  refine State.next_still ?_
  repeat' first
    | with_reducible refine State.ite_still ?_ ?_
    | with_reducible refine State.ite2_still ?_ ?_
    | with_reducible exact State.Still.refl _
    | with_reducible assumption
    | with_reducible apply State.Still.after (State.setPart_still _ _ _)
    | with_reducible apply State.Still.after (State.setCmd_still _ _)
    | with_reducible apply State.Still.after (State.finish_still _ _ _ _)
    | ((try lift_lets); intro x; refine State.cut_still (x := x) ?_ ?_; (on_goal 1 => unfold x); (on_goal 2 => (clear_value x; intro _)))
    | ((try lift_lets); intro x; refine State.cut_still (x := x.2) ?_ ?_; (on_goal 1 => unfold x); (on_goal 2 => (clear_value x; intro _)))
    | ((try lift_lets); intro x; try clear_value x)
    | intro _
    | split
    | with_reducible fail_if_no_progress apply State.Still.after (State.mk_still _)
    | dsimp only

end Sys2Proof.Machine
end

