-- ==== Sys2Proof/Laws/KeepSelect.lean ====
section
/-!
SUPPORT. What the operations and meanings of Machine/Select.lean keep of a state.
-/
set_option linter.unusedVariables false
set_option linter.unreachableTactic false
set_option linter.unusedTactic false
namespace Sys2Proof.Machine

theorem State.topRead_still (s : State) (c : Cmd) :
    s.Still (State.topRead s c).2 := by
  unfold State.topRead
  repeat' first
    | with_reducible refine State.ite_still ?_ ?_
    | with_reducible refine State.ite2_still ?_ ?_
    | with_reducible exact State.Still.refl _
    | with_reducible assumption
    | with_reducible apply State.Still.after (State.devRead_still _ _ _ _ _)
    | with_reducible apply State.Still.after (State.pair_still (State.devRead_still _ _ _ _ _) (by assumption))
    | with_reducible apply State.Still.after (State.foldl_still ?_ _ _)
    | with_reducible apply State.Still.after (State.foldl2_still ?_ _ _)
    | ((try lift_lets); intro x; refine State.cut_still (x := x) ?_ ?_; (on_goal 1 => unfold x); (on_goal 2 => (clear_value x; intro _)))
    | ((try lift_lets); intro x; refine State.cut_still (x := x.2) ?_ ?_; (on_goal 1 => unfold x); (on_goal 2 => (clear_value x; intro _)))
    | ((try lift_lets); intro x; try clear_value x)
    | intro _
    | split
    | dsimp only

theorem State.topkWork_steady (s : State) (c : Cmd) :
    s.Steady (State.topkWork s c) := by
  unfold State.topkWork
  repeat' first
    | with_reducible refine State.ite_steady ?_ ?_
    | with_reducible refine State.ite2_steady ?_ ?_
    | with_reducible exact State.Steady.refl _
    | with_reducible assumption
    | with_reducible apply State.Steady.after ((State.bump_still _ _ _).steady)
    | with_reducible apply State.Steady.after ((State.free_still _).steady)
    | with_reducible apply State.Steady.after (State.pair_steady ((State.free_still _).steady) (by assumption))
    | with_reducible apply State.Steady.after ((State.take_still _ _ _ _ _).steady)
    | with_reducible apply State.Steady.after ((State.workDone_still _ _ _ _).steady)
    | with_reducible apply State.Steady.after (State.putOut_steady _ _ _ _ _)
    | with_reducible apply State.Steady.after (State.pair_steady (State.putOut_steady _ _ _ _ _) (by assumption))
    | with_reducible apply State.Steady.after ((State.topRead_still _ _).steady)
    | with_reducible apply State.Steady.after (State.pair_steady ((State.topRead_still _ _).steady) (by assumption))
    | ((try lift_lets); intro x; refine State.cut_steady (x := x) ?_ ?_; (on_goal 1 => unfold x); (on_goal 2 => (clear_value x; intro _)))
    | ((try lift_lets); intro x; refine State.cut_steady (x := x.2) ?_ ?_; (on_goal 1 => unfold x); (on_goal 2 => (clear_value x; intro _)))
    | ((try lift_lets); intro x; try clear_value x)
    | intro _
    | split
    | dsimp only

theorem State.countSelected_still (s : State) (c : Cmd) (st : Status) :
    s.Still (State.countSelected s c st) := by
  unfold State.countSelected
  repeat' first
    | with_reducible refine State.ite_still ?_ ?_
    | with_reducible refine State.ite2_still ?_ ?_
    | with_reducible exact State.Still.refl _
    | with_reducible assumption
    | with_reducible apply State.Still.after (State.bump_still _ _ _)
    | intro _
    | split
    | dsimp only

theorem execTopk_steady (id : Nat) (_data : Bytes) (s : State) :
    ∀ t_, execTopk id _data s = .next t_ → s.Steady t_ := by
  unfold execTopk
  refine State.next_steady ?_
  repeat' first
    | with_reducible refine State.ite_steady ?_ ?_
    | with_reducible refine State.ite2_steady ?_ ?_
    | with_reducible exact State.Steady.refl _
    | with_reducible assumption
    | with_reducible apply State.Steady.after ((State.admitIf_still _ _ _).steady)
    | with_reducible apply State.Steady.after (State.topkWork_steady _ _)
    | with_reducible apply State.Steady.after ((State.countSelected_still _ _ _).steady)
    | intro _
    | split
    | dsimp only

theorem State.argRow_still (s : State) (c : Cmd) (bases : List Nat) (r : Nat) :
    s.Still (State.argRow s c bases r).2 := by
  unfold State.argRow
  repeat' first
    | with_reducible refine State.ite_still ?_ ?_
    | with_reducible refine State.ite2_still ?_ ?_
    | with_reducible exact State.Still.refl _
    | with_reducible assumption
    | with_reducible apply State.Still.after (State.devRead_still _ _ _ _ _)
    | with_reducible apply State.Still.after (State.pair_still (State.devRead_still _ _ _ _ _) (by assumption))
    | with_reducible apply State.Still.after (State.foldl_still ?_ _ _)
    | with_reducible apply State.Still.after (State.foldl2_still ?_ _ _)
    | ((try lift_lets); intro x; refine State.cut_still (x := x) ?_ ?_; (on_goal 1 => unfold x); (on_goal 2 => (clear_value x; intro _)))
    | ((try lift_lets); intro x; refine State.cut_still (x := x.2) ?_ ?_; (on_goal 1 => unfold x); (on_goal 2 => (clear_value x; intro _)))
    | ((try lift_lets); intro x; try clear_value x)
    | intro _
    | split
    | dsimp only

theorem State.argmaxWork_steady (s : State) (c : Cmd) :
    s.Steady (State.argmaxWork s c) := by
  unfold State.argmaxWork
  repeat' first
    | with_reducible refine State.ite_steady ?_ ?_
    | with_reducible refine State.ite2_steady ?_ ?_
    | with_reducible exact State.Steady.refl _
    | with_reducible assumption
    | with_reducible apply State.Steady.after ((State.bump_still _ _ _).steady)
    | with_reducible apply State.Steady.after ((State.devRead_still _ _ _ _ _).steady)
    | with_reducible apply State.Steady.after (State.pair_steady ((State.devRead_still _ _ _ _ _).steady) (by assumption))
    | with_reducible apply State.Steady.after ((State.workDone_still _ _ _ _).steady)
    | with_reducible apply State.Steady.after (State.putOut_steady _ _ _ _ _)
    | with_reducible apply State.Steady.after (State.pair_steady (State.putOut_steady _ _ _ _ _) (by assumption))
    | with_reducible apply State.Steady.after ((State.argRow_still _ _ _ _).steady)
    | with_reducible apply State.Steady.after (State.pair_steady ((State.argRow_still _ _ _ _).steady) (by assumption))
    | with_reducible apply State.Steady.after (State.foldl_steady ?_ _ _)
    | with_reducible apply State.Steady.after (State.foldl2_steady ?_ _ _)
    | ((try lift_lets); intro x; refine State.cut_steady (x := x) ?_ ?_; (on_goal 1 => unfold x); (on_goal 2 => (clear_value x; intro _)))
    | ((try lift_lets); intro x; refine State.cut_steady (x := x.2) ?_ ?_; (on_goal 1 => unfold x); (on_goal 2 => (clear_value x; intro _)))
    | ((try lift_lets); intro x; try clear_value x)
    | intro _
    | split
    | dsimp only

theorem execArgmax_steady (id : Nat) (_data : Bytes) (s : State) :
    ∀ t_, execArgmax id _data s = .next t_ → s.Steady t_ := by
  unfold execArgmax
  refine State.next_steady ?_
  repeat' first
    | with_reducible exact State.Steady.refl _
    | with_reducible assumption
    | with_reducible apply State.Steady.after ((State.admitIf_still _ _ _).steady)
    | with_reducible apply State.Steady.after ((State.countSelected_still _ _ _).steady)
    | with_reducible apply State.Steady.after (State.argmaxWork_steady _ _)
    | intro _
    | split
    | dsimp only

theorem State.scanString_still (s : State) (p eng auto : Nat) (a str : Bytes) :
    s.Still (State.scanString s p eng auto a str).2 := by
  unfold State.scanString
  repeat' first
    | with_reducible refine State.ite_still ?_ ?_
    | with_reducible refine State.ite2_still ?_ ?_
    | with_reducible exact State.Still.refl _
    | with_reducible assumption
    | with_reducible apply State.Still.after (State.bump_still _ _ _)
    | with_reducible apply State.Still.after (State.free_still _)
    | with_reducible apply State.Still.after (State.pair_still (State.free_still _) (by assumption))
    | ((try lift_lets); intro x; refine State.cut_still (x := x) ?_ ?_; (on_goal 1 => unfold x); (on_goal 2 => (clear_value x; intro _)))
    | ((try lift_lets); intro x; refine State.cut_still (x := x.2) ?_ ?_; (on_goal 1 => unfold x); (on_goal 2 => (clear_value x; intro _)))
    | ((try lift_lets); intro x; try clear_value x)
    | intro _
    | split
    | dsimp only

theorem State.matchStrings_still (s : State) (c : Cmd) :
    s.Still (State.matchStrings s c).2 := by
  unfold State.matchStrings
  repeat' first
    | with_reducible exact State.Still.refl _
    | with_reducible assumption
    | with_reducible apply State.Still.after (State.devRead_still _ _ _ _ _)
    | with_reducible apply State.Still.after (State.pair_still (State.devRead_still _ _ _ _ _) (by assumption))
    | ((try lift_lets); intro x; refine State.cut_still (x := x) ?_ ?_; (on_goal 1 => unfold x); (on_goal 2 => (clear_value x; intro _)))
    | ((try lift_lets); intro x; refine State.cut_still (x := x.2) ?_ ?_; (on_goal 1 => unfold x); (on_goal 2 => (clear_value x; intro _)))
    | ((try lift_lets); intro x; try clear_value x)
    | intro _
    | split
    | dsimp only

theorem State.matchWork_steady (s : State) (c : Cmd) :
    s.Steady (State.matchWork s c) := by
  unfold State.matchWork
  repeat' first
    | with_reducible refine State.ite_steady ?_ ?_
    | with_reducible refine State.ite2_steady ?_ ?_
    | with_reducible exact State.Steady.refl _
    | with_reducible assumption
    | with_reducible apply State.Steady.after ((State.devRead_still _ _ _ _ _).steady)
    | with_reducible apply State.Steady.after (State.pair_steady ((State.devRead_still _ _ _ _ _).steady) (by assumption))
    | with_reducible apply State.Steady.after ((State.workDone_still _ _ _ _).steady)
    | with_reducible apply State.Steady.after (State.putOut_steady _ _ _ _ _)
    | with_reducible apply State.Steady.after (State.pair_steady (State.putOut_steady _ _ _ _ _) (by assumption))
    | with_reducible apply State.Steady.after ((State.scanString_still _ _ _ _ _ _).steady)
    | with_reducible apply State.Steady.after (State.pair_steady ((State.scanString_still _ _ _ _ _ _).steady) (by assumption))
    | with_reducible apply State.Steady.after ((State.matchStrings_still _ _).steady)
    | with_reducible apply State.Steady.after (State.pair_steady ((State.matchStrings_still _ _).steady) (by assumption))
    | with_reducible apply State.Steady.after (State.foldl_steady ?_ _ _)
    | with_reducible apply State.Steady.after (State.foldl2_steady ?_ _ _)
    | ((try lift_lets); intro x; refine State.cut_steady (x := x) ?_ ?_; (on_goal 1 => unfold x); (on_goal 2 => (clear_value x; intro _)))
    | ((try lift_lets); intro x; refine State.cut_steady (x := x.2) ?_ ?_; (on_goal 1 => unfold x); (on_goal 2 => (clear_value x; intro _)))
    | ((try lift_lets); intro x; try clear_value x)
    | intro _
    | split
    | dsimp only

theorem execMatchCmd_steady (id : Nat) (_data : Bytes) (s : State) :
    ∀ t_, execMatchCmd id _data s = .next t_ → s.Steady t_ := by
  unfold execMatchCmd
  refine State.next_steady ?_
  repeat' first
    | with_reducible exact State.Steady.refl _
    | with_reducible assumption
    | with_reducible apply State.Steady.after ((State.admitIf_still _ _ _).steady)
    | with_reducible apply State.Steady.after (State.matchWork_steady _ _)
    | intro _
    | split
    | dsimp only

theorem State.anyEngine_still (s : State) (p : Nat) :
    s.Still (State.anyEngine s p).2 := by
  unfold State.anyEngine
  repeat' first
    | with_reducible refine State.ite_still ?_ ?_
    | with_reducible refine State.ite2_still ?_ ?_
    | with_reducible exact State.Still.refl _
    | with_reducible assumption
    | with_reducible apply State.Still.after (State.free_still _)
    | with_reducible apply State.Still.after (State.pair_still (State.free_still _) (by assumption))
    | ((try lift_lets); intro x; refine State.cut_still (x := x) ?_ ?_; (on_goal 1 => unfold x); (on_goal 2 => (clear_value x; intro _)))
    | ((try lift_lets); intro x; refine State.cut_still (x := x.2) ?_ ?_; (on_goal 1 => unfold x); (on_goal 2 => (clear_value x; intro _)))
    | ((try lift_lets); intro x; try clear_value x)
    | intro _
    | split
    | dsimp only

theorem State.bindRules_still (s : State) (p slot : Nat) (im : Image) (t : DecoderTable) (cols : List Val) :
    s.Still (State.bindRules s p slot im t cols).2 := by
  unfold State.bindRules
  refine State.foldl2_still (fun a b => ?_) _ ((true, cols), s)
  dsimp only
  split
  · exact (State.anyEngine_still _ _).trans (State.scanString_still _ _ _ _ _ _)
  · exact State.Still.refl _

end Sys2Proof.Machine
end

