-- ==== Sys2Proof/Laws/KeepChipper.lean ====
section
/-!
SUPPORT. What the operations and meanings of Machine/Chipper.lean keep of a state.
-/
set_option linter.unusedVariables false
set_option linter.unreachableTactic false
set_option linter.unusedTactic false
namespace Sys2Proof.Machine

theorem State.readDict_still (s : State) (d : Dict) :
    s.Still (State.readDict s d).2 := by
  unfold State.readDict
  repeat' first
    | with_reducible exact State.Still.refl _
    | with_reducible assumption
    | with_reducible apply State.Still.after (State.vaultRead_still _ _ _ _)
    | with_reducible apply State.Still.after (State.pair_still (State.vaultRead_still _ _ _ _) (by assumption))
    | intro _
    | split
    | dsimp only

theorem State.readDicts_still (s : State) (p : Nat) (captured : Option Dict) (a0 : List Nat) :
    s.Still (State.readDicts s p captured a0).2 := by
  induction a0 generalizing s p captured with
  | nil =>
    unfold State.readDicts
    repeat' first
      | with_reducible refine State.ite_still ?_ ?_
      | with_reducible refine State.ite2_still ?_ ?_
      | with_reducible exact State.Still.refl _
      | with_reducible assumption
      | with_reducible apply State.Still.after (State.readDict_still _ _)
      | with_reducible apply State.Still.after (State.pair_still (State.readDict_still _ _) (by assumption))
      | ((try lift_lets); intro x; refine State.cut_still (x := x) ?_ ?_; (on_goal 1 => unfold x); (on_goal 2 => (clear_value x; intro _)))
      | ((try lift_lets); intro x; refine State.cut_still (x := x.2) ?_ ?_; (on_goal 1 => unfold x); (on_goal 2 => (clear_value x; intro _)))
      | ((try lift_lets); intro x; try clear_value x)
      | intro _
      | split
      | dsimp only
  | cons _ _ ih =>
    unfold State.readDicts
    repeat' first
      | with_reducible refine State.ite_still ?_ ?_
      | with_reducible refine State.ite2_still ?_ ?_
      | with_reducible apply State.Still.after (ih _ _ _)
      | with_reducible apply State.Still.after (State.pair_still (ih _ _ _) (by assumption))
      | with_reducible exact State.Still.refl _
      | with_reducible assumption
      | with_reducible apply State.Still.after (State.readDict_still _ _)
      | with_reducible apply State.Still.after (State.pair_still (State.readDict_still _ _) (by assumption))
      | ((try lift_lets); intro x; refine State.cut_still (x := x) ?_ ?_; (on_goal 1 => unfold x); (on_goal 2 => (clear_value x; intro _)))
      | ((try lift_lets); intro x; refine State.cut_still (x := x.2) ?_ ?_; (on_goal 1 => unfold x); (on_goal 2 => (clear_value x; intro _)))
      | ((try lift_lets); intro x; try clear_value x)
      | intro _
      | split
      | dsimp only

theorem State.readWindow_still (s : State) (p lane far : Nat) :
    s.Still (State.readWindow s p lane far).2 := by
  unfold State.readWindow
  repeat' first
    | with_reducible refine State.ite_still ?_ ?_
    | with_reducible refine State.ite2_still ?_ ?_
    | with_reducible exact State.Still.refl _
    | with_reducible assumption
    | with_reducible apply State.Still.after (State.vaultRead_still _ _ _ _)
    | with_reducible apply State.Still.after (State.pair_still (State.vaultRead_still _ _ _ _) (by assumption))
    | ((try lift_lets); intro x; refine State.cut_still (x := x) ?_ ?_; (on_goal 1 => unfold x); (on_goal 2 => (clear_value x; intro _)))
    | ((try lift_lets); intro x; refine State.cut_still (x := x.2) ?_ ?_; (on_goal 1 => unfold x); (on_goal 2 => (clear_value x; intro _)))
    | ((try lift_lets); intro x; try clear_value x)
    | intro _
    | split
    | dsimp only

theorem State.undefinedOut_steady (s : State) (c : Cmd) (dev : Bool) (addr limit : Nat) :
    s.Steady (State.undefinedOut s c dev addr limit) := by
  unfold State.undefinedOut
  repeat' first
    | with_reducible exact State.Steady.refl _
    | with_reducible assumption
    | with_reducible apply State.Steady.after ((State.free_still _).steady)
    | with_reducible apply State.Steady.after (State.pair_steady ((State.free_still _).steady) (by assumption))
    | with_reducible apply State.Steady.after (State.putOut_steady _ _ _ _ _)
    | with_reducible apply State.Steady.after (State.pair_steady (State.putOut_steady _ _ _ _ _) (by assumption))
    | ((try lift_lets); intro x; refine State.cut_steady (x := x) ?_ ?_; (on_goal 1 => unfold x); (on_goal 2 => (clear_value x; intro _)))
    | ((try lift_lets); intro x; refine State.cut_steady (x := x.2) ?_ ?_; (on_goal 1 => unfold x); (on_goal 2 => (clear_value x; intro _)))
    | ((try lift_lets); intro x; try clear_value x)
    | intro _
    | split
    | dsimp only

theorem State.takeIn_still (s : State) (c : Cmd) (data : Bytes) (dev : Bool) (addr n : Nat) :
    s.Still (State.takeIn s c data dev addr n).2 := by
  unfold State.takeIn
  repeat' first
    | with_reducible refine State.ite_still ?_ ?_
    | with_reducible refine State.ite2_still ?_ ?_
    | with_reducible exact State.Still.refl _
    | with_reducible assumption
    | with_reducible apply State.Still.after (State.devRead_still _ _ _ _ _)
    | with_reducible apply State.Still.after (State.pair_still (State.devRead_still _ _ _ _ _) (by assumption))
    | intro _
    | split
    | dsimp only

theorem State.decompressWork_steady (s : State) (c : Cmd) (data : Bytes) :
    s.Steady (State.decompressWork s c data) := by
  unfold State.decompressWork
  repeat' first
    | with_reducible refine State.ite_steady ?_ ?_
    | with_reducible refine State.ite2_steady ?_ ?_
    | with_reducible exact State.Steady.refl _
    | with_reducible assumption
    | with_reducible apply State.Steady.after ((State.workDone_still _ _ _ _).steady)
    | with_reducible apply State.Steady.after (State.putOut_steady _ _ _ _ _)
    | with_reducible apply State.Steady.after (State.pair_steady (State.putOut_steady _ _ _ _ _) (by assumption))
    | with_reducible apply State.Steady.after ((State.countUnit_still _ _ _).steady)
    | with_reducible apply State.Steady.after ((State.readDicts_still _ _ _ _).steady)
    | with_reducible apply State.Steady.after (State.pair_steady ((State.readDicts_still _ _ _ _).steady) (by assumption))
    | with_reducible apply State.Steady.after ((State.readWindow_still _ _ _ _).steady)
    | with_reducible apply State.Steady.after (State.pair_steady ((State.readWindow_still _ _ _ _).steady) (by assumption))
    | with_reducible apply State.Steady.after (State.undefinedOut_steady _ _ _ _ _)
    | with_reducible apply State.Steady.after ((State.takeIn_still _ _ _ _ _ _).steady)
    | with_reducible apply State.Steady.after (State.pair_steady ((State.takeIn_still _ _ _ _ _ _).steady) (by assumption))
    | ((try lift_lets); intro x; refine State.cut_steady (x := x) ?_ ?_; (on_goal 1 => unfold x); (on_goal 2 => (clear_value x; intro _)))
    | ((try lift_lets); intro x; refine State.cut_steady (x := x.2) ?_ ?_; (on_goal 1 => unfold x); (on_goal 2 => (clear_value x; intro _)))
    | ((try lift_lets); intro x)
    | intro _
    | split
    | dsimp only

theorem execDecompress_steady (id : Nat) (data : Bytes) (s : State) :
    ∀ t_, execDecompress id data s = .next t_ → s.Steady t_ := by
  unfold execDecompress
  refine State.next_steady ?_
  repeat' first
    | with_reducible exact State.Steady.refl _
    | with_reducible assumption
    | with_reducible apply State.Steady.after ((State.admitIf_still _ _ _).steady)
    | with_reducible apply State.Steady.after (State.decompressWork_steady _ _ _)
    | intro _
    | split
    | dsimp only

theorem execLaneFrameEnd_still (lane : Nat) (s : State) :
    ∀ t_, execLaneFrameEnd lane s = .next t_ → s.Still t_ := by
  unfold execLaneFrameEnd
  refine State.next_still ?_
  repeat' first
    | with_reducible refine State.ite_still ?_ ?_
    | with_reducible refine State.ite2_still ?_ ?_
    | with_reducible exact State.Still.refl _
    | with_reducible assumption
    | with_reducible apply State.Still.after (State.setEngine_still _ _ _ _)
    | ((try lift_lets); intro x; refine State.cut_still (x := x) ?_ ?_; (on_goal 1 => unfold x); (on_goal 2 => (clear_value x; intro _)))
    | ((try lift_lets); intro x; refine State.cut_still (x := x.2) ?_ ?_; (on_goal 1 => unfold x); (on_goal 2 => (clear_value x; intro _)))
    | ((try lift_lets); intro x; try clear_value x)
    | intro _
    | split
    | with_reducible fail_if_no_progress apply State.Still.after (State.mk_still _)
    | dsimp only

theorem State.compressAdmit_still (s : State) (c : Cmd) :
    s.Still (State.compressAdmit s c) := by
  unfold State.compressAdmit
  repeat' first
    | with_reducible refine State.ite_still ?_ ?_
    | with_reducible refine State.ite2_still ?_ ?_
    | with_reducible exact State.Still.refl _
    | with_reducible assumption
    | with_reducible apply State.Still.after (State.bump_still _ _ _)
    | with_reducible apply State.Still.after (State.claim_still _ _ _ _ _ (by assumption))
    | with_reducible apply State.Still.after (State.finish_still _ _ _ _)
    | with_reducible apply State.Still.after (State.admitItem_still _ _)
    | intro _
    | split
    | dsimp only

theorem State.compressWork_steady (s : State) (c : Cmd) (data : Bytes) :
    s.Steady (State.compressWork s c data) := by
  unfold State.compressWork
  repeat' first
    | with_reducible refine State.ite_steady ?_ ?_
    | with_reducible refine State.ite2_steady ?_ ?_
    | with_reducible exact State.Steady.refl _
    | with_reducible assumption
    | with_reducible apply State.Steady.after ((State.bump_still _ _ _).steady)
    | with_reducible apply State.Steady.after ((State.addWork_still _ _ _ _).steady)
    | with_reducible apply State.Steady.after ((State.lbufRead_still _ _ _).steady)
    | with_reducible apply State.Steady.after (State.pair_steady ((State.lbufRead_still _ _ _).steady) (by assumption))
    | with_reducible apply State.Steady.after (State.lbufWrite_steady _ _ _)
    | with_reducible apply State.Steady.after ((State.take_still _ _ _ _ _).steady)
    | with_reducible apply State.Steady.after ((State.workDone_still _ _ _ _).steady)
    | with_reducible apply State.Steady.after (State.putOut_steady _ _ _ _ _)
    | with_reducible apply State.Steady.after (State.pair_steady (State.putOut_steady _ _ _ _ _) (by assumption))
    | with_reducible apply State.Steady.after ((State.readDicts_still _ _ _ _).steady)
    | with_reducible apply State.Steady.after (State.pair_steady ((State.readDicts_still _ _ _ _).steady) (by assumption))
    | with_reducible apply State.Steady.after ((State.takeIn_still _ _ _ _ _ _).steady)
    | with_reducible apply State.Steady.after (State.pair_steady ((State.takeIn_still _ _ _ _ _ _).steady) (by assumption))
    | ((try lift_lets); intro x; refine State.cut_steady (x := x) ?_ ?_; (on_goal 1 => unfold x); (on_goal 2 => (clear_value x; intro _)))
    | ((try lift_lets); intro x; refine State.cut_steady (x := x.2) ?_ ?_; (on_goal 1 => unfold x); (on_goal 2 => (clear_value x; intro _)))
    | ((try lift_lets); intro x; try clear_value x)
    | intro _
    | split
    | dsimp only

theorem execCompress_steady (id : Nat) (data : Bytes) (s : State) :
    ∀ t_, execCompress id data s = .next t_ → s.Steady t_ := by
  unfold execCompress
  refine State.next_steady ?_
  repeat' first
    | with_reducible exact State.Steady.refl _
    | with_reducible assumption
    | with_reducible apply State.Steady.after ((State.compressAdmit_still _ _).steady)
    | with_reducible apply State.Steady.after (State.compressWork_steady _ _ _)
    | intro _
    | split
    | dsimp only

theorem State.placeDict_steady (s : State) (p : Nat) (b : Bytes) :
    s.Steady (State.placeDict s p b).2 := by
  unfold State.placeDict
  repeat' first
    | with_reducible refine State.ite_steady ?_ ?_
    | with_reducible refine State.ite2_steady ?_ ?_
    | with_reducible exact State.Steady.refl _
    | with_reducible assumption
    | with_reducible apply State.Steady.after (State.vaultWrite_steady _ _ _)
    | with_reducible apply State.Steady.after (State.pair_steady (State.vaultWrite_steady _ _ _) (by assumption))
    | with_reducible apply State.Steady.after ((State.chooseOf_still _ _).steady)
    | with_reducible apply State.Steady.after (State.pair_steady ((State.chooseOf_still _ _).steady) (by assumption))
    | ((try lift_lets); intro x; refine State.cut_steady (x := x) ?_ ?_; (on_goal 1 => unfold x); (on_goal 2 => (clear_value x; intro _)))
    | ((try lift_lets); intro x; refine State.cut_steady (x := x.2) ?_ ?_; (on_goal 1 => unfold x); (on_goal 2 => (clear_value x; intro _)))
    | ((try lift_lets); intro x; try clear_value x)
    | intro _
    | split
    | dsimp only

theorem opDictLoad_steady (w : Writer) (v : Bytes) (s : State) :
    s.Steady (opDictLoad w v s).2 := by
  unfold opDictLoad
  repeat' first
    | with_reducible refine State.ite_steady ?_ ?_
    | with_reducible refine State.ite2_steady ?_ ?_
    | with_reducible exact State.Steady.refl _
    | with_reducible assumption
    | with_reducible apply State.Steady.after ((State.setPart_still _ _ _).steady)
    | with_reducible apply State.Steady.after (State.placeDict_steady _ _ _)
    | with_reducible apply State.Steady.after (State.pair_steady (State.placeDict_steady _ _ _) (by assumption))
    | ((try lift_lets); intro x; refine State.cut_steady (x := x) ?_ ?_; (on_goal 1 => unfold x); (on_goal 2 => (clear_value x; intro _)))
    | ((try lift_lets); intro x; refine State.cut_steady (x := x.2) ?_ ?_; (on_goal 1 => unfold x); (on_goal 2 => (clear_value x; intro _)))
    | ((try lift_lets); intro x; try clear_value x)
    | intro _
    | split
    | with_reducible fail_if_no_progress apply State.Steady.after ((State.mk_still _).steady)
    | dsimp only

theorem execDictLoad_steady (acc : Access) (s : State) :
    ∀ t_, execDictLoad acc s = .next t_ → s.Steady t_ := by
  unfold execDictLoad
  refine State.next_steady ?_
  repeat' first
    | with_reducible exact State.Steady.refl _
    | with_reducible assumption
    | with_reducible apply State.Steady.after (State.write_steady _ _ _ ?_)
    | with_reducible apply State.Steady.after (opDictLoad_steady _ _ _)
    | with_reducible apply State.Steady.after (State.pair_steady (opDictLoad_steady _ _ _) (by assumption))
    | intro _
    | split
    | dsimp only

theorem State.dropDict_still (s : State) (p id : Nat) :
    s.Still (State.dropDict s p id) := by
  unfold State.dropDict
  repeat' first
    | with_reducible refine State.ite_still ?_ ?_
    | with_reducible refine State.ite2_still ?_ ?_
    | with_reducible exact State.Still.refl _
    | with_reducible assumption
    | with_reducible apply State.Still.after (State.setPart_still _ _ _)
    | intro _
    | split
    | with_reducible fail_if_no_progress apply State.Still.after (State.mk_still _)
    | dsimp only

theorem execDictUnload_still (acc : Access) (s : State) :
    ∀ t_, execDictUnload acc s = .next t_ → s.Still t_ := by
  unfold execDictUnload
  refine State.next_still ?_
  repeat' first
    | with_reducible refine State.ite_still ?_ ?_
    | with_reducible refine State.ite2_still ?_ ?_
    | with_reducible exact State.Still.refl _
    | with_reducible assumption
    | with_reducible apply State.Still.after (State.setPart_still _ _ _)
    | with_reducible apply State.Still.after (State.await_still _ _ _ _)
    | with_reducible apply State.Still.after (State.write_still _ _ _ ?_)
    | with_reducible apply State.Still.after (numOp_still ?_ _ _ _)
    | ((try lift_lets); intro x; refine State.cut_still (x := x) ?_ ?_; (on_goal 1 => unfold x); (on_goal 2 => (clear_value x; intro _)))
    | ((try lift_lets); intro x; refine State.cut_still (x := x.2) ?_ ?_; (on_goal 1 => unfold x); (on_goal 2 => (clear_value x; intro _)))
    | ((try lift_lets); intro x; try clear_value x)
    | intro _
    | split
    | with_reducible fail_if_no_progress apply State.Still.after (State.mk_still _)
    | dsimp only

theorem execDictUnloadEdge_still (part : PartNo) (s : State) :
    ∀ t_, execDictUnloadEdge part s = .next t_ → s.Still t_ := by
  unfold execDictUnloadEdge
  refine State.next_still ?_
  repeat' first
    | with_reducible exact State.Still.refl _
    | with_reducible assumption
    | with_reducible apply State.Still.after (State.setPart_still _ _ _)
    | with_reducible apply State.Still.after (State.answer_still _ _ _ _)
    | with_reducible apply State.Still.after (State.dropDict_still _ _ _)
    | with_reducible apply State.Still.after (State.foldl_still ?_ _ _)
    | with_reducible apply State.Still.after (State.foldl2_still ?_ _ _)
    | ((try lift_lets); intro x; refine State.cut_still (x := x) ?_ ?_; (on_goal 1 => unfold x); (on_goal 2 => (clear_value x; intro _)))
    | ((try lift_lets); intro x; refine State.cut_still (x := x.2) ?_ ?_; (on_goal 1 => unfold x); (on_goal 2 => (clear_value x; intro _)))
    | ((try lift_lets); intro x; try clear_value x)
    | intro _
    | split
    | with_reducible fail_if_no_progress apply State.Still.after (State.mk_still _)
    | dsimp only

end Sys2Proof.Machine
end

