-- ==== Sys2Proof/Laws/KeepCopy.lean ====
section
/-!
SUPPORT. What the operations and meanings of Machine/Copy.lean keep of a state.
-/
set_option linter.unusedVariables false
set_option linter.unreachableTactic false
set_option linter.unusedTactic false
namespace Sys2Proof.Machine

theorem Copying.put_steady (k : Copying) (c : Cmd) (d : CopyDesc) (runs : List (Nat × Bytes)) :
    k.st.Steady (k.put c d runs).2.st := by
  unfold Copying.put
  refine State.foldlBy_steady (fun a : Bool × Copying => a.2.st) (fun a r => ?_) runs (true, k)
  dsimp only
  split
  · exact (State.dmaWrite_still _ _ _ _ _).steady
  · exact State.devWrite_steady _ _ _ _

theorem Copying.granules_still (k : Copying) (c : Cmd) (d : CopyDesc) : k.st.Still (k.granules c d).2.st := by
  unfold Copying.granules
  dsimp only
  split
  · exact State.Still.refl _
  · refine State.foldlBy_still (fun a : List (Nat × Bytes) × Copying => a.2.st) (fun a r => ?_) _ ([], k)
    exact State.devRead_still _ _ _ _ _

theorem Copying.copyData_steady (k : Copying) (c : Cmd) (data : Bytes) (failed : Option Nat) (d : CopyDesc) :
    k.st.Steady (k.copyData c data failed d).2.st := by
  have hg : k.st.Steady (k.granules c d).2.st := (Copying.granules_still k c d).steady
  have hp : ∀ rs, k.st.Steady ((k.granules c d).2.put c d rs).2.st := fun rs => hg.trans (Copying.put_steady _ c d rs)
  unfold Copying.copyData
  dsimp only
  split
  · split
    · dsimp only
      repeat' first
        | with_reducible refine State.ite_steady ?_ ?_
        | with_reducible exact State.Steady.refl _
        | with_reducible exact hp _
        | with_reducible apply State.Steady.after (State.bump_still _ _ _).steady
    · exact hp _
  · exact hg.trans ((State.free_still _).steady.trans (Copying.put_steady { (k.granules c d).2 with st := (k.granules c d).2.st.free.2 } c d _))

theorem Copying.pads_steady (k : Copying) (c : Cmd) (data : Bytes) (ds : List CopyDesc) :
    k.st.Steady (k.pads c data ds).2.st := by
  unfold Copying.pads
  refine State.foldlBy_steady (fun a : Bool × Copying => a.2.st) (fun a d => ?_) ds (true, k)
  split
  · exact State.Steady.refl _
  · exact Copying.put_steady _ _ _ _

theorem Copying.copies_steady (k : Copying) (c : Cmd) (data : Bytes) (failed : Option Nat) (n : Nat) (ds : List CopyDesc) :
    k.st.Steady (k.copies c data failed n ds).2.st := by
  induction ds generalizing k n with
  | nil => exact State.Steady.refl _
  | cons d ds ih =>
    unfold Copying.copies
    dsimp only
    split
    · exact (Copying.copyData_steady _ _ _ _ _).trans (ih _ _)
    · exact Copying.copyData_steady _ _ _ _ _

theorem State.copyWork_steady (s : State) (c : Cmd) (data : Bytes) (failed : Option Nat) :
    s.Steady (State.copyWork s c data failed) := by
  have hr : s.Steady (s.matJobs c.part (c.f 127 64) (c.f 136 128)).2 := (State.matJobs_still _ _ _ _).steady
  unfold State.copyWork
  dsimp only
  split
  · refine State.Steady.after (State.workDone_still _ _ _ _).steady ?_
    exact State.ite_steady (hr.trans (State.bump_still _ _ _).steady) hr
  · have hp := fun ds => hr.trans (Copying.pads_steady { st := (s.matJobs c.part (c.f 127 64) (c.f 136 128)).2, laid := [] } c data ds)
    refine State.ite_steady ?_ ?_
    · exact State.Steady.after (State.workDone_still _ _ _ _).steady (hp _)
    · exact State.Steady.after (State.workDone_still _ _ _ _).steady ((hp _).trans (Copying.copies_steady _ _ _ _ _ _))

theorem execCopy_steady (id : Nat) (data : Bytes) (s : State) :
    ∀ t_, execCopy id data s = .next t_ → s.Steady t_ := by
  unfold execCopy
  refine State.next_steady ?_
  repeat' first
    | with_reducible exact State.Steady.refl _
    | with_reducible assumption
    | with_reducible apply State.Steady.after ((State.admitIf_still _ _ _).steady)
    | with_reducible apply State.Steady.after (State.copyWork_steady _ _ _ _)
    | intro _
    | split
    | dsimp only

end Sys2Proof.Machine
end

