-- ==== Sys2Proof/Laws/KeepRelease.lean ====
section
/-!
SUPPORT. What the operations and meanings of Machine/Release.lean keep of a state.
-/
set_option linter.unusedVariables false
set_option linter.unreachableTactic false
set_option linter.unusedTactic false
namespace Sys2Proof.Machine

theorem State.releaseCmd_still (s : State) (id : Nat) (st : Status) :
    s.Still (State.releaseCmd s id st) := by
  unfold State.releaseCmd
  repeat' first
    | with_reducible refine State.ite_still ?_ ?_
    | with_reducible refine State.ite2_still ?_ ?_
    | with_reducible exact State.Still.refl _
    | with_reducible assumption
    | with_reducible apply State.Still.after (State.finish_still _ _ _ _)
    | with_reducible apply State.Still.after (State.countLookup_still _ _ _ _ _)
    | ((try lift_lets); intro x; refine State.cut_still (x := x) ?_ ?_; (on_goal 1 => unfold x); (on_goal 2 => (clear_value x; intro _)))
    | ((try lift_lets); intro x; refine State.cut_still (x := x.2) ?_ ?_; (on_goal 1 => unfold x); (on_goal 2 => (clear_value x; intro _)))
    | ((try lift_lets); intro x; try clear_value x)
    | intro _
    | split
    | dsimp only

theorem State.releaseRlt_still (s : State) (i : Nat) (st : Status) (out : Bytes) :
    s.Still (State.releaseRlt s i st out) := by
  unfold State.releaseRlt
  repeat' first
    | with_reducible refine State.ite_still ?_ ?_
    | with_reducible refine State.ite2_still ?_ ?_
    | with_reducible exact State.Still.refl _
    | with_reducible assumption
    | with_reducible apply State.Still.after (State.countLookup_still _ _ _ _ _)
    | with_reducible apply State.Still.after (State.sendRsp_still _ _ _ _)
    | ((try lift_lets); intro x; refine State.cut_still (x := x) ?_ ?_; (on_goal 1 => unfold x); (on_goal 2 => (clear_value x; intro _)))
    | ((try lift_lets); intro x; refine State.cut_still (x := x.2) ?_ ?_; (on_goal 1 => unfold x); (on_goal 2 => (clear_value x; intro _)))
    | ((try lift_lets); intro x; try clear_value x)
    | intro _
    | split
    | with_reducible fail_if_no_progress apply State.Still.after (State.mk_still _)
    | dsimp only

theorem State.refuse_still (s : State) (it : Item) (st : Status) :
    s.Still (State.refuse s it st) := by
  unfold State.refuse
  repeat' first
    | with_reducible exact State.Still.refl _
    | with_reducible assumption
    | with_reducible apply State.Still.after (State.releaseCmd_still _ _ _)
    | with_reducible apply State.Still.after (State.releaseRlt_still _ _ _ _)
    | intro _
    | split
    | dsimp only

theorem State.enqueueAll_still (s : State) (p f : Nat) (its : List Item) :
    s.Still (State.enqueueAll s p f its) := by
  unfold State.enqueueAll
  repeat' first
    | with_reducible exact State.Still.refl _
    | with_reducible assumption
    | with_reducible apply State.Still.after (State.enqueueBolt_still _ _ _ _)
    | with_reducible apply State.Still.after (State.pair_still (State.enqueueBolt_still _ _ _ _) (by assumption))
    | with_reducible apply State.Still.after (State.foldl_still ?_ _ _)
    | with_reducible apply State.Still.after (State.foldl2_still ?_ _ _)
    | intro _
    | split
    | dsimp only

theorem State.enqueuePieces_steady (s : State) (p f : Nat) (im : Image) (l : Layout) (ps : List Piece) :
    s.Steady (State.enqueuePieces s p f im l ps) := by
  unfold State.enqueuePieces
  repeat' first
    | with_reducible exact State.Steady.refl _
    | with_reducible assumption
    | with_reducible apply State.Steady.after (State.putRun_steady _ _ _ _ _ _)
    | with_reducible apply State.Steady.after (State.pair_steady (State.putRun_steady _ _ _ _ _ _) (by assumption))
    | with_reducible apply State.Steady.after ((State.enqueueAll_still _ _ _ _).steady)
    | with_reducible apply State.Steady.after (State.foldl_steady ?_ _ _)
    | with_reducible apply State.Steady.after (State.foldl2_steady ?_ _ _)
    | ((try lift_lets); intro x; refine State.cut_steady (x := x) ?_ ?_; (on_goal 1 => unfold x); (on_goal 2 => (clear_value x; intro _)))
    | ((try lift_lets); intro x; refine State.cut_steady (x := x.2) ?_ ?_; (on_goal 1 => unfold x); (on_goal 2 => (clear_value x; intro _)))
    | ((try lift_lets); intro x; try clear_value x)
    | intro _
    | split
    | dsimp only

theorem State.countDrop_still (s : State) (p f : Nat) :
    s.Still (State.countDrop s p f) := by
  unfold State.countDrop
  repeat' first
    | with_reducible exact State.Still.refl _
    | with_reducible assumption
    | with_reducible apply State.Still.after (State.setFlow_still _ _ _ _)
    | intro _
    | split
    | with_reducible fail_if_no_progress apply State.Still.after (State.mk_still _)
    | dsimp only

theorem State.sinkPiece_steady (s : State) (p f set : Nat) (l : Layout) (x : Piece) :
    s.Steady (State.sinkPiece s p f set l x) := by
  unfold State.sinkPiece
  repeat' first
    | with_reducible refine State.ite_steady ?_ ?_
    | with_reducible refine State.ite2_steady ?_ ?_
    | with_reducible exact State.Steady.refl _
    | with_reducible assumption
    | with_reducible apply State.Steady.after (State.appendEntry_steady _ _ _ _ _ _ _ _ _)
    | with_reducible apply State.Steady.after (State.pair_steady (State.appendEntry_steady _ _ _ _ _ _ _ _ _) (by assumption))
    | with_reducible apply State.Steady.after ((State.countDrop_still _ _ _).steady)
    | ((try lift_lets); intro x; refine State.cut_steady (x := x) ?_ ?_; (on_goal 1 => unfold x); (on_goal 2 => (clear_value x; intro _)))
    | ((try lift_lets); intro x; refine State.cut_steady (x := x.2) ?_ ?_; (on_goal 1 => unfold x); (on_goal 2 => (clear_value x; intro _)))
    | ((try lift_lets); intro x; try clear_value x)
    | intro _
    | split
    | dsimp only

theorem State.sendPieces_steady (s : State) (p f : Nat) (x : StageOut) (ordered : Bool) (ps : List Piece) :
    s.Steady (State.sendPieces s p f x ordered ps) := by
  unfold State.sendPieces
  repeat' first
    | with_reducible refine State.ite_steady ?_ ?_
    | with_reducible refine State.ite2_steady ?_ ?_
    | with_reducible exact State.Steady.refl _
    | with_reducible assumption
    | with_reducible apply State.Steady.after (State.enqueuePieces_steady _ _ _ _ _ _)
    | with_reducible apply State.Steady.after ((State.countDrop_still _ _ _).steady)
    | with_reducible apply State.Steady.after (State.sinkPiece_steady _ _ _ _ _ _)
    | with_reducible apply State.Steady.after (State.foldl_steady ?_ _ _)
    | with_reducible apply State.Steady.after (State.foldl2_steady ?_ _ _)
    | ((try lift_lets); intro x; refine State.cut_steady (x := x) ?_ ?_; (on_goal 1 => unfold x); (on_goal 2 => (clear_value x; intro _)))
    | ((try lift_lets); intro x; refine State.cut_steady (x := x.2) ?_ ?_; (on_goal 1 => unfold x); (on_goal 2 => (clear_value x; intro _)))
    | ((try lift_lets); intro x; try clear_value x)
    | intro _
    | split
    | dsimp only

theorem State.passHole_steady (s : State) (p f : Nat) (st : Status) (stream openNo object ordinal : Nat) :
    s.Steady (State.passHole s p f st stream openNo object ordinal) := by
  unfold State.passHole
  repeat' first
    | with_reducible exact State.Steady.refl _
    | with_reducible assumption
    | with_reducible apply State.Steady.after ((State.enqueueAll_still _ _ _ _).steady)
    | with_reducible apply State.Steady.after (State.sinkPiece_steady _ _ _ _ _ _)
    | intro _
    | split
    | dsimp only

theorem State.nextOrdinal_still (s : State) (p stream openNo object : Nat) :
    s.Still (State.nextOrdinal s p stream openNo object).2 := by
  unfold State.nextOrdinal
  repeat' first
    | with_reducible exact State.Still.refl _
    | with_reducible assumption
    | with_reducible apply State.Still.after (State.setPart_still _ _ _)
    | ((try lift_lets); intro x; refine State.cut_still (x := x) ?_ ?_; (on_goal 1 => unfold x); (on_goal 2 => (clear_value x; intro _)))
    | ((try lift_lets); intro x; refine State.cut_still (x := x.2) ?_ ?_; (on_goal 1 => unfold x); (on_goal 2 => (clear_value x; intro _)))
    | ((try lift_lets); intro x; try clear_value x)
    | intro _
    | split
    | with_reducible fail_if_no_progress apply State.Still.after (State.mk_still _)
    | dsimp only

theorem State.decodeWork_still (s : State) (p table stream openNo object maxField : Nat) (fields : List (Nat × Nat × Nat × Nat)) (b : Bytes) :
    s.Still (State.decodeWork s p table stream openNo object maxField fields b).2 := by
  unfold State.decodeWork
  dsimp only
  repeat' first
    | with_reducible refine State.ite_still ?_ ?_
    | with_reducible refine State.ite2_still ?_ ?_
    | with_reducible exact State.Still.refl _
    | with_reducible assumption
    | with_reducible apply State.Still.after (State.bump_still _ _ _)
    | with_reducible apply State.Still.after (State.addWork_still _ _ _ _)
    | with_reducible apply State.Still.after (State.place_still _ _ _ _ _ _)
    | with_reducible apply State.Still.after (State.bindRules_still _ _ _ _ _ _)
    | with_reducible apply State.Still.after (State.pair_still (State.bindRules_still _ _ _ _ _ _) (by assumption))
    | ((try lift_lets); intro x; refine State.cut_still (x := x) ?_ ?_; (on_goal 1 => unfold x); (on_goal 2 => (clear_value x; intro _)))
    | ((try lift_lets); intro x; refine State.cut_still (x := x.2) ?_ ?_; (on_goal 1 => unfold x); (on_goal 2 => (clear_value x; intro _)))
    | ((try lift_lets); intro x; try clear_value x)
    | intro _
    | split
    | dsimp only

theorem State.sendRecord_steady (s : State) (p : Nat) (x : Flow) (st : Status) (table stream openNo object : Nat) (row : Option (Row × Nat)) :
    s.Steady (State.sendRecord s p x st table stream openNo object row) := by
  unfold State.sendRecord
  repeat' first
    | with_reducible refine State.ite_steady ?_ ?_
    | with_reducible refine State.ite2_steady ?_ ?_
    | with_reducible exact State.Steady.refl _
    | with_reducible assumption
    | with_reducible apply State.Steady.after ((State.enqueueAll_still _ _ _ _).steady)
    | with_reducible apply State.Steady.after (State.enqueuePieces_steady _ _ _ _ _ _)
    | with_reducible apply State.Steady.after ((State.nextOrdinal_still _ _ _ _ _).steady)
    | with_reducible apply State.Steady.after (State.pair_steady ((State.nextOrdinal_still _ _ _ _ _).steady) (by assumption))
    | ((try lift_lets); intro x; refine State.cut_steady (x := x) ?_ ?_; (on_goal 1 => unfold x); (on_goal 2 => (clear_value x; intro _)))
    | ((try lift_lets); intro x; refine State.cut_steady (x := x.2) ?_ ?_; (on_goal 1 => unfold x); (on_goal 2 => (clear_value x; intro _)))
    | ((try lift_lets); intro x; try clear_value x)
    | intro _
    | split
    | with_reducible fail_if_no_progress apply State.Steady.after ((State.mk_still _).steady)
    | dsimp only

theorem State.noteMark_still (s : State) (p f seq : Nat) :
    s.Still (State.noteMark s p f seq) := by
  unfold State.noteMark
  repeat' first
    | with_reducible refine State.ite_still ?_ ?_
    | with_reducible refine State.ite2_still ?_ ?_
    | with_reducible exact State.Still.refl _
    | with_reducible assumption
    | with_reducible apply State.Still.after (State.setPart_still _ _ _)
    | ((try lift_lets); intro x; refine State.cut_still (x := x) ?_ ?_; (on_goal 1 => unfold x); (on_goal 2 => (clear_value x; intro _)))
    | ((try lift_lets); intro x; refine State.cut_still (x := x.2) ?_ ?_; (on_goal 1 => unfold x); (on_goal 2 => (clear_value x; intro _)))
    | ((try lift_lets); intro x; try clear_value x)
    | intro _
    | split
    | with_reducible fail_if_no_progress apply State.Still.after (State.mk_still _)
    | dsimp only

theorem State.releasePosition_steady (s : State) (p e : Nat) (r : Released) :
    s.Steady (State.releasePosition s p e r) := by
  unfold State.releasePosition
  repeat' first
    | with_reducible refine State.ite_steady ?_ ?_
    | with_reducible refine State.ite2_steady ?_ ?_
    | with_reducible exact State.Steady.refl _
    | with_reducible assumption
    | with_reducible apply State.Steady.after (State.fillBatch_steady _ _ _ _)
    | intro _
    | split
    | dsimp only

theorem State.deliverRows_steady (s : State) (p f : Nat) (ordered : Bool) (it : Item) (rs : List Row) :
    s.Steady (State.deliverRows s p f ordered it rs) := by
  unfold State.deliverRows
  repeat' first
    | with_reducible refine State.ite_steady ?_ ?_
    | with_reducible refine State.ite2_steady ?_ ?_
    | with_reducible exact State.Steady.refl _
    | with_reducible assumption
    | with_reducible apply State.Steady.after (opRun_steady _ _ _ _)
    | with_reducible apply State.Steady.after (State.pair_steady (opRun_steady _ _ _ _) (by assumption))
    | with_reducible apply State.Steady.after (State.sendPieces_steady _ _ _ _ _ _)
    | with_reducible apply State.Steady.after (State.passHole_steady _ _ _ _ _ _ _ _)
    | ((try lift_lets); intro x; refine State.cut_steady (x := x) ?_ ?_; (on_goal 1 => unfold x); (on_goal 2 => (clear_value x; intro _)))
    | ((try lift_lets); intro x; refine State.cut_steady (x := x.2) ?_ ?_; (on_goal 1 => unfold x); (on_goal 2 => (clear_value x; intro _)))
    | ((try lift_lets); intro x; try clear_value x)
    | intro _
    | split
    | dsimp only

theorem State.deliverOutcome_steady (s : State) (p f : Nat) (x : Flow) (it : Item) (ps : List Piece) :
    s.Steady (State.deliverOutcome s p f x it ps) := by
  unfold State.deliverOutcome
  repeat' first
    | with_reducible refine State.ite_steady ?_ ?_
    | with_reducible refine State.ite2_steady ?_ ?_
    | with_reducible exact State.Steady.refl _
    | with_reducible assumption
    | with_reducible apply State.Steady.after (State.sendPieces_steady _ _ _ _ _ _)
    | with_reducible apply State.Steady.after (State.sendRecord_steady _ _ _ _ _ _ _ _ _)
    | intro _
    | split
    | dsimp only

theorem State.deliver_steady (s : State) (p f : Nat) (x : Flow) (it : Item) :
    s.Steady (State.deliver s p f x it) := by
  unfold State.deliver
  repeat' first
    | with_reducible refine State.ite_steady ?_ ?_
    | with_reducible refine State.ite2_steady ?_ ?_
    | with_reducible exact State.Steady.refl _
    | with_reducible assumption
    | with_reducible apply State.Steady.after ((State.releaseCmd_still _ _ _).steady)
    | with_reducible apply State.Steady.after ((State.releaseRlt_still _ _ _ _).steady)
    | with_reducible apply State.Steady.after ((State.enqueueAll_still _ _ _ _).steady)
    | with_reducible apply State.Steady.after (State.passHole_steady _ _ _ _ _ _ _ _)
    | with_reducible apply State.Steady.after (State.sendRecord_steady _ _ _ _ _ _ _ _ _)
    | with_reducible apply State.Steady.after ((State.noteMark_still _ _ _ _).steady)
    | with_reducible apply State.Steady.after (State.releasePosition_steady _ _ _ _)
    | with_reducible apply State.Steady.after (State.deliverRows_steady _ _ _ _ _ _)
    | with_reducible apply State.Steady.after (State.deliverOutcome_steady _ _ _ _ _ _)
    | intro _
    | split
    | dsimp only

theorem State.endItem_steady (s : State) (p f : Nat) (it : Item) (bolt : Bool) :
    s.Steady (State.endItem s p f it bolt) := by
  unfold State.endItem
  repeat' first
    | with_reducible refine State.ite_steady ?_ ?_
    | with_reducible refine State.ite2_steady ?_ ?_
    | with_reducible exact State.Steady.refl _
    | with_reducible assumption
    | with_reducible apply State.Steady.after ((State.setFlow_still _ _ _ _).steady)
    | with_reducible apply State.Steady.after ((State.flowGauges_still _ _).steady)
    | with_reducible apply State.Steady.after ((State.closeIfDrained_still _ _ _).steady)
    | with_reducible apply State.Steady.after ((State.unblock_still _ _ _ _).steady)
    | with_reducible apply State.Steady.after ((State.leaveUnit_still _ _ _ _ _).steady)
    | with_reducible apply State.Steady.after ((State.unplace_still _ _ _ _ _).steady)
    | with_reducible apply State.Steady.after (State.deliver_steady _ _ _ _ _)
    | with_reducible apply State.Steady.after (State.foldl_steady ?_ _ _)
    | with_reducible apply State.Steady.after (State.foldl2_steady ?_ _ _)
    | ((try lift_lets); intro x; refine State.cut_steady (x := x) ?_ ?_; (on_goal 1 => unfold x); (on_goal 2 => (clear_value x; intro _)))
    | ((try lift_lets); intro x; refine State.cut_steady (x := x.2) ?_ ?_; (on_goal 1 => unfold x); (on_goal 2 => (clear_value x; intro _)))
    | ((try lift_lets); intro x; try clear_value x)
    | intro _
    | split
    | with_reducible fail_if_no_progress apply State.Steady.after ((State.mk_still _).steady)
    | dsimp only

theorem State.issueTo_still (s : State) (p f : Nat) (x : Flow) (k : UnitKind) (unit : Nat) (it : Item) :
    s.Still (State.issueTo s p f x k unit it) := by
  unfold State.issueTo
  repeat' first
    | with_reducible refine State.ite_still ?_ ?_
    | with_reducible refine State.ite2_still ?_ ?_
    | with_reducible exact State.Still.refl _
    | with_reducible assumption
    | with_reducible apply State.Still.after (State.setFlow_still _ _ _ _)
    | with_reducible apply State.Still.after (State.readEntry_still _ _ _)
    | with_reducible apply State.Still.after (State.pair_still (State.readEntry_still _ _ _) (by assumption))
    | with_reducible apply State.Still.after (State.noteTurn_still _ _ _ _ _ _)
    | with_reducible apply State.Still.after (State.dispatch_still _ _ _ _ _ _ _)
    | with_reducible apply State.Still.after (State.resume_still _ _ _ _ _ _ _)
    | ((try lift_lets); intro x; refine State.cut_still (x := x) ?_ ?_; (on_goal 1 => unfold x); (on_goal 2 => (clear_value x; intro _)))
    | ((try lift_lets); intro x; refine State.cut_still (x := x.2) ?_ ?_; (on_goal 1 => unfold x); (on_goal 2 => (clear_value x; intro _)))
    | ((try lift_lets); intro x; try clear_value x)
    | intro _
    | split
    | dsimp only

theorem execItemDispatch_still (flow : FlowNo) (seq unit : Nat) (s : State) :
    ∀ t_, execItemDispatch flow seq unit s = .next t_ → s.Still t_ := by
  unfold execItemDispatch
  refine State.next_still ?_
  repeat' first
    | with_reducible refine State.ite_still ?_ ?_
    | with_reducible refine State.ite2_still ?_ ?_
    | with_reducible exact State.Still.refl _
    | with_reducible assumption
    | with_reducible apply State.Still.after (State.touch_still _ _ _ _ (by assumption))
    | with_reducible apply State.Still.after (State.block_still _ _ _ _)
    | with_reducible apply State.Still.after (State.issueTo_still _ _ _ _ _ _ _)
    | ((try lift_lets); intro x; refine State.cut_still (x := x) ?_ ?_; (on_goal 1 => unfold x); (on_goal 2 => (clear_value x; intro _)))
    | ((try lift_lets); intro x; refine State.cut_still (x := x.2) ?_ ?_; (on_goal 1 => unfold x); (on_goal 2 => (clear_value x; intro _)))
    | ((try lift_lets); intro x; try clear_value x)
    | intro _
    | split
    | dsimp only

theorem State.cmdWork_steady (s : State) (id : Nat) :
    ∀ u_ t_, State.cmdWork s id = some (u_, t_) → s.Steady t_ := by
  intro u_ t_ h
  unfold State.cmdWork at h
  try dsimp only at h
  repeat' split at h
  all_goals try contradiction
  all_goals try first
    | (injection h with h; injection h with h1 h2; subst h2)
    | (obtain ⟨z_, hz_, h⟩ := Option.map_eq_some_iff.1 h; injection h with h1 h2; subst h2)
  all_goals repeat' first
    | with_reducible refine State.ite_steady ?_ ?_
    | with_reducible refine State.ite2_steady ?_ ?_
    | with_reducible exact State.Steady.refl _
    | with_reducible assumption
    | with_reducible apply State.Steady.after (State.lookupWork_steady _ _ _)
    | ((try lift_lets); intro x; refine State.cut_steady (x := x) ?_ ?_; (on_goal 1 => unfold x); (on_goal 2 => (clear_value x; intro _)))
    | ((try lift_lets); intro x; refine State.cut_steady (x := x.2) ?_ ?_; (on_goal 1 => unfold x); (on_goal 2 => (clear_value x; intro _)))
    | ((try lift_lets); intro x; try clear_value x)
    | intro _
    | split
    | dsimp only

theorem State.recordWork_still (s : State) (p : Nat) (it : Item) (table stream openNo object maxField : Nat) (fields : List (Nat × Nat × Nat × Nat)) (b : Bytes) :
    s.Still (State.recordWork s p it table stream openNo object maxField fields b).2 := by
  unfold State.recordWork
  repeat' first
    | with_reducible refine State.ite_still ?_ ?_
    | with_reducible refine State.ite2_still ?_ ?_
    | with_reducible exact State.Still.refl _
    | with_reducible assumption
    | with_reducible apply State.Still.after (State.sramRead_still _ _ _ _ _)
    | with_reducible apply State.Still.after (State.pair_still (State.sramRead_still _ _ _ _ _) (by assumption))
    | with_reducible apply State.Still.after (State.decodeWork_still _ _ _ _ _ _ _ _ _)
    | with_reducible apply State.Still.after (State.pair_still (State.decodeWork_still _ _ _ _ _ _ _ _ _) (by assumption))
    | ((try lift_lets); intro x; refine State.cut_still (x := x) ?_ ?_; (on_goal 1 => unfold x); (on_goal 2 => (clear_value x; intro _)))
    | ((try lift_lets); intro x; refine State.cut_still (x := x.2) ?_ ?_; (on_goal 1 => unfold x); (on_goal 2 => (clear_value x; intro _)))
    | ((try lift_lets); intro x; try clear_value x)
    | intro _
    | split
    | with_reducible fail_if_no_progress apply State.Still.after (State.mk_still _)
    | dsimp only

theorem State.itemWork_steady (s : State) (p f : Nat) (x : Flow) (kn : Kernel) (it : Item) :
    ∀ u_ t_, State.itemWork s p f x kn it = some (u_, t_) → s.Steady t_ := by
  intro u_ t_ h
  unfold State.itemWork at h
  split at h
  · obtain ⟨r, hr, h⟩ := Option.map_eq_some_iff.1 h
    injection h with h1 h2; subst h2
    exact State.cmdWork_steady _ _ _ _ hr
  · split at h
    · injection h with h; injection h with h1 h2; subst h2
      exact State.Steady.after (State.releaseRlt_still _ _ _ _).steady (State.rltWork_steady _ _)
    · injection h with h; injection h with h1 h2; subst h2
      exact State.Steady.refl _
  · split at h
    · injection h with h; injection h with h1 h2; subst h2
      exact State.Steady.refl _
    · injection h with h
      have h2 : _ = t_ := congrArg Prod.snd h
      exact h2 ▸ (State.recordWork_still _ _ _ _ _ _ _ _ _ _).steady
  · split at h
    · split at h
      · injection h with h; injection h with h1 h2; subst h2
        exact State.Steady.refl _
      · injection h with h; injection h with h1 h2; subst h2
        exact opRun_steady _ _ _ _
    · injection h with h; injection h with h1 h2; subst h2
      exact State.Steady.refl _
  · injection h with h; injection h with h1 h2; subst h2
    exact State.assemble_steady _ _ _ _ _ _ _
  · injection h with h; injection h with h1 h2; subst h2
    exact State.Steady.refl _

theorem State.readScratch_still (s : State) (p : Nat) (kn : Kernel) (unit : Nat) :
    s.Still (State.readScratch s p kn unit).2 := by
  unfold State.readScratch
  repeat' first
    | with_reducible refine State.ite_still ?_ ?_
    | with_reducible refine State.ite2_still ?_ ?_
    | with_reducible exact State.Still.refl _
    | with_reducible assumption
    | with_reducible apply State.Still.after (State.sramRead_still _ _ _ _ _)
    | with_reducible apply State.Still.after (State.pair_still (State.sramRead_still _ _ _ _ _) (by assumption))
    | with_reducible apply State.Still.after (State.sramWrite_still _ _ _ _)
    | ((try lift_lets); intro x; refine State.cut_still (x := x) ?_ ?_; (on_goal 1 => unfold x); (on_goal 2 => (clear_value x; intro _)))
    | ((try lift_lets); intro x; refine State.cut_still (x := x.2) ?_ ?_; (on_goal 1 => unfold x); (on_goal 2 => (clear_value x; intro _)))
    | ((try lift_lets); intro x; try clear_value x)
    | intro _
    | split
    | dsimp only

theorem State.endBolt_steady (s : State) (p f : Nat) (x : Flow) (kn : Kernel) (it : Item) :
    ∀ t_, State.endBolt s p f x kn it = some t_ → s.Steady t_ := by
  intro t_ h
  unfold State.endBolt at h
  try dsimp only at h
  repeat' split at h
  all_goals try contradiction
  all_goals try first
    | (injection h with h; subst h)
    | (obtain ⟨z_, hz_, h⟩ := Option.map_eq_some_iff.1 h; subst h)
  all_goals repeat' first
    | with_reducible refine State.ite_steady ?_ ?_
    | with_reducible refine State.ite2_steady ?_ ?_
    | with_reducible exact State.Steady.refl _
    | with_reducible assumption
    | with_reducible apply State.Steady.after ((State.block_still _ _ _ _).steady)
    | with_reducible apply State.Steady.after (State.endItem_steady _ _ _ _ _)
    | with_reducible apply State.Steady.after (State.itemWork_steady _ _ _ _ _ _ _ _ (by assumption))
    | with_reducible apply State.Steady.after ((State.readScratch_still _ _ _ _).steady)
    | with_reducible apply State.Steady.after (State.pair_steady ((State.readScratch_still _ _ _ _).steady) (by assumption))
    | ((try lift_lets); intro x; refine State.cut_steady (x := x) ?_ ?_; (on_goal 1 => unfold x); (on_goal 2 => (clear_value x; intro _)))
    | ((try lift_lets); intro x; refine State.cut_steady (x := x.2) ?_ ?_; (on_goal 1 => unfold x); (on_goal 2 => (clear_value x; intro _)))
    | ((try lift_lets); intro x; try clear_value x)
    | intro _
    | split
    | with_reducible fail_if_no_progress apply State.Steady.after ((State.mk_still _).steady)
    | dsimp only

theorem State.completeNow_steady (s : State) (p f seq : Nat) (x : Flow) :
    ∀ t_, State.completeNow s p f seq x = some t_ → s.Steady t_ := by
  intro t_ h
  unfold State.completeNow at h
  split at h
  · obtain ⟨it, -, h⟩ := Option.map_eq_some_iff.1 h
    subst h
    exact State.endItem_steady _ _ _ _ _
  · split at h
    · obtain ⟨st, -, h⟩ := Option.map_eq_some_iff.1 h
      subst h
      exact State.endItem_steady _ _ _ _ _
    · obtain ⟨it, -, h⟩ := Option.bind_eq_some_iff.1 h
      obtain ⟨kn, -, h⟩ := Option.bind_eq_some_iff.1 h
      exact State.endBolt_steady _ _ _ _ _ _ _ h

theorem State.completeItem_steady (s : State) (p f seq : Nat) :
    s.Steady (State.completeItem s p f seq) := by
  unfold State.completeItem
  repeat' first
    | with_reducible exact State.Steady.refl _
    | with_reducible assumption
    | with_reducible apply State.Steady.after ((State.touch_still _ _ _ _ (by assumption)).steady)
    | with_reducible refine State.getD_steady (fun t h => (State.touch_still _ _ _ t h).steady) ?_ ?_
    | with_reducible apply State.Steady.after ((State.block_still _ _ _ _).steady)
    | with_reducible apply State.Steady.after (State.completeNow_steady _ _ _ _ _ _ (by assumption))
    | with_reducible refine State.getD_steady (State.completeNow_steady _ _ _ _ _) ?_ ?_
    | intro _
    | split
    | dsimp only

theorem execItemCompletion_steady (what : Completion) (s : State) :
    ∀ t_, execItemCompletion what s = .next t_ → s.Steady t_ := by
  unfold execItemCompletion
  refine State.next_steady ?_
  repeat' first
    | with_reducible exact State.Steady.refl _
    | with_reducible assumption
    | with_reducible apply State.Steady.after (State.laneItem_steady _ _ _)
    | with_reducible apply State.Steady.after (State.completeItem_steady _ _ _ _)
    | intro _
    | split
    | dsimp only

theorem opFlowOpen_still (w : Writer) (b : Bytes) (s : State) :
    s.Still (opFlowOpen w b s).2 := by
  unfold opFlowOpen
  repeat' first
    | with_reducible refine State.ite_still ?_ ?_
    | with_reducible refine State.ite2_still ?_ ?_
    | with_reducible exact State.Still.refl _
    | with_reducible assumption
    | with_reducible apply State.Still.after (State.setPart_still _ _ _)
    | with_reducible apply State.Still.after (State.openFlow_still _ _ _ _ _ _)
    | with_reducible apply State.Still.after (State.await_still _ _ _ _)
    | ((try lift_lets); intro x; refine State.cut_still (x := x) ?_ ?_; (on_goal 1 => unfold x); (on_goal 2 => (clear_value x; intro _)))
    | ((try lift_lets); intro x; refine State.cut_still (x := x.2) ?_ ?_; (on_goal 1 => unfold x); (on_goal 2 => (clear_value x; intro _)))
    | ((try lift_lets); intro x; try clear_value x)
    | intro _
    | split
    | with_reducible fail_if_no_progress apply State.Still.after (State.mk_still _)
    | dsimp only

theorem execFlowOpen_still (acc : Access) (s : State) :
    ∀ t_, execFlowOpen acc s = .next t_ → s.Still t_ := by
  unfold execFlowOpen
  refine State.next_still ?_
  repeat' first
    | with_reducible exact State.Still.refl _
    | with_reducible assumption
    | with_reducible apply State.Still.after (State.write_still _ _ _ ?_)
    | with_reducible apply State.Still.after (opFlowOpen_still _ _ _)
    | with_reducible apply State.Still.after (State.pair_still (opFlowOpen_still _ _ _) (by assumption))
    | intro _
    | split
    | dsimp only

theorem State.dropQueued_steady (s : State) (p f : Nat) (st : Status) :
    s.Steady (State.dropQueued s p f st) := by
  unfold State.dropQueued
  repeat' first
    | with_reducible exact State.Steady.refl _
    | with_reducible assumption
    | with_reducible apply State.Steady.after (State.endItem_steady _ _ _ _ _)
    | with_reducible apply State.Steady.after (State.foldl_steady ?_ _ _)
    | with_reducible apply State.Steady.after (State.foldl2_steady ?_ _ _)
    | intro _
    | split
    | with_reducible fail_if_no_progress apply State.Steady.after ((State.mk_still _).steady)
    | dsimp only

theorem State.closeFlow_steady (s : State) (p f : Nat) :
    s.Steady (State.closeFlow s p f) := by
  unfold State.closeFlow
  repeat' first
    | with_reducible refine State.ite_steady ?_ ?_
    | with_reducible refine State.ite2_steady ?_ ?_
    | with_reducible exact State.Steady.refl _
    | with_reducible assumption
    | with_reducible apply State.Steady.after ((State.setFlow_still _ _ _ _).steady)
    | with_reducible apply State.Steady.after ((State.closeIfDrained_still _ _ _).steady)
    | with_reducible apply State.Steady.after (State.dropQueued_steady _ _ _ _)
    | intro _
    | split
    | with_reducible fail_if_no_progress apply State.Steady.after ((State.mk_still _).steady)
    | dsimp only

theorem opFlowClose_steady (w : Writer) (id : Nat) (s : State) :
    s.Steady (opFlowClose w id s).2 := by
  unfold opFlowClose
  repeat' first
    | with_reducible refine State.ite_steady ?_ ?_
    | with_reducible refine State.ite2_steady ?_ ?_
    | with_reducible exact State.Steady.refl _
    | with_reducible assumption
    | with_reducible apply State.Steady.after ((State.setPart_still _ _ _).steady)
    | with_reducible apply State.Steady.after ((State.touch_still _ _ _ _ (by assumption)).steady)
    | with_reducible apply State.Steady.after ((State.await_still _ _ _ _).steady)
    | with_reducible apply State.Steady.after (State.closeFlow_steady _ _ _)
    | ((try lift_lets); intro x; refine State.cut_steady (x := x) ?_ ?_; (on_goal 1 => unfold x); (on_goal 2 => (clear_value x; intro _)))
    | ((try lift_lets); intro x; refine State.cut_steady (x := x.2) ?_ ?_; (on_goal 1 => unfold x); (on_goal 2 => (clear_value x; intro _)))
    | ((try lift_lets); intro x; try clear_value x)
    | intro _
    | split
    | with_reducible fail_if_no_progress apply State.Steady.after ((State.mk_still _).steady)
    | dsimp only

theorem execFlowClose_steady (acc : Access) (s : State) :
    ∀ t_, execFlowClose acc s = .next t_ → s.Steady t_ := by
  unfold execFlowClose
  refine State.next_steady ?_
  repeat' first
    | with_reducible exact State.Steady.refl _
    | with_reducible assumption
    | with_reducible apply State.Steady.after (State.write_steady _ _ _ ?_)
    | with_reducible apply State.Steady.after (numOp_steady ?_ _ _ _)
    | with_reducible apply State.Steady.after (opFlowClose_steady _ _ _)
    | with_reducible apply State.Steady.after (State.pair_steady (opFlowClose_steady _ _ _) (by assumption))
    | intro _
    | split
    | dsimp only

theorem State.dropWaits_still (s : State) (p f : Nat) :
    s.Still (State.dropWaits s p f) := by
  unfold State.dropWaits
  repeat' first
    | with_reducible exact State.Still.refl _
    | with_reducible assumption
    | with_reducible apply State.Still.after (State.setPart_still _ _ _)
    | intro _
    | split
    | with_reducible fail_if_no_progress apply State.Still.after (State.mk_still _)
    | dsimp only

theorem execContextRefill_steady (flow : FlowNo) (s : State) :
    ∀ t_, execContextRefill flow s = .next t_ → s.Steady t_ := by
  unfold execContextRefill
  refine State.next_steady ?_
  repeat' first
    | with_reducible refine State.ite_steady ?_ ?_
    | with_reducible refine State.ite2_steady ?_ ?_
    | with_reducible exact State.Steady.refl _
    | with_reducible assumption
    | with_reducible apply State.Steady.after ((State.touch_still _ _ _ _ (by assumption)).steady)
    | with_reducible refine State.getD_steady (fun t h => (State.touch_still _ _ _ t h).steady) ?_ ?_
    | with_reducible apply State.Steady.after ((State.openFlow_still _ _ _ _ _ _).steady)
    | with_reducible apply State.Steady.after ((State.answer_still _ _ _ _).steady)
    | with_reducible apply State.Steady.after (State.closeFlow_steady _ _ _)
    | with_reducible apply State.Steady.after ((State.dropWaits_still _ _ _).steady)
    | ((try lift_lets); intro x; refine State.cut_steady (x := x) ?_ ?_; (on_goal 1 => unfold x); (on_goal 2 => (clear_value x; intro _)))
    | ((try lift_lets); intro x; refine State.cut_steady (x := x.2) ?_ ?_; (on_goal 1 => unfold x); (on_goal 2 => (clear_value x; intro _)))
    | ((try lift_lets); intro x; try clear_value x)
    | intro _
    | split
    | dsimp only

theorem State.tryResume_still (s : State) (p : Nat) (e : Nat × Item) :
    ∀ t_, State.tryResume s p e = some t_ → s.Still t_ := by
  intro t_ h
  unfold State.tryResume at h
  try dsimp only at h
  repeat' split at h
  all_goals try contradiction
  all_goals try first
    | (injection h with h; subst h)
    | (obtain ⟨z_, hz_, h⟩ := Option.map_eq_some_iff.1 h; subst h)
  all_goals repeat' first
    | with_reducible refine State.ite_still ?_ ?_
    | with_reducible refine State.ite2_still ?_ ?_
    | with_reducible exact State.Still.refl _
    | with_reducible assumption
    | with_reducible apply State.Still.after (State.setPart_still _ _ _)
    | with_reducible apply State.Still.after (State.enqueueNow_still _ _ _ _)
    | with_reducible apply State.Still.after (State.pair_still (State.enqueueNow_still _ _ _ _) (by assumption))
    | with_reducible apply State.Still.after (State.refuse_still _ _ _)
    | ((try lift_lets); intro x; refine State.cut_still (x := x) ?_ ?_; (on_goal 1 => unfold x); (on_goal 2 => (clear_value x; intro _)))
    | ((try lift_lets); intro x; refine State.cut_still (x := x.2) ?_ ?_; (on_goal 1 => unfold x); (on_goal 2 => (clear_value x; intro _)))
    | ((try lift_lets); intro x; try clear_value x)
    | intro _
    | split
    | with_reducible fail_if_no_progress apply State.Still.after (State.mk_still _)
    | dsimp only

theorem execEnqueueResume_still (part : PartNo) (s : State) :
    ∀ t_, execEnqueueResume part s = .next t_ → s.Still t_ := by
  unfold execEnqueueResume
  refine State.next_still ?_
  refine State.getD_still (fun t h => ?_) (State.Still.refl _) (State.Still.refl _)
  obtain ⟨e, -, he⟩ := List.exists_of_findSome?_eq_some h
  exact State.tryResume_still _ _ _ _ he

theorem execLateDrop_steady (flow : FlowNo) (seq : Nat) (s : State) :
    ∀ t_, execLateDrop flow seq s = .next t_ → s.Steady t_ := by
  unfold execLateDrop
  refine State.next_steady ?_
  repeat' first
    | with_reducible refine State.ite_steady ?_ ?_
    | with_reducible refine State.ite2_steady ?_ ?_
    | with_reducible exact State.Steady.refl _
    | with_reducible assumption
    | with_reducible apply State.Steady.after ((State.bump_still _ _ _).steady)
    | with_reducible apply State.Steady.after (State.endItem_steady _ _ _ _ _)
    | ((try lift_lets); intro x; refine State.cut_steady (x := x) ?_ ?_; (on_goal 1 => unfold x); (on_goal 2 => (clear_value x; intro _)))
    | ((try lift_lets); intro x; refine State.cut_steady (x := x.2) ?_ ?_; (on_goal 1 => unfold x); (on_goal 2 => (clear_value x; intro _)))
    | ((try lift_lets); intro x; try clear_value x)
    | intro _
    | split
    | with_reducible fail_if_no_progress apply State.Steady.after ((State.mk_still _).steady)
    | dsimp only

theorem State.setStage_still (s : State) (p : Nat) (h_ gi i : Nat) (y : StageRun) :
    s.Still (State.setStage s p h_ gi i y) := by
  unfold State.setStage
  repeat' first
    | with_reducible refine State.ite_still ?_ ?_
    | with_reducible refine State.ite2_still ?_ ?_
    | with_reducible exact State.Still.refl _
    | with_reducible assumption
    | with_reducible apply State.Still.after (State.setPart_still _ _ _)
    | intro _
    | split
    | with_reducible fail_if_no_progress apply State.Still.after (State.mk_still _)
    | dsimp only

theorem State.coreEnd_steady (s : State) (p f : Nat) (ordered : Bool) (x : StageOut) :
    s.Steady (State.coreEnd s p f ordered x) := by
  unfold State.coreEnd
  repeat' first
    | with_reducible exact State.Steady.refl _
    | with_reducible assumption
    | with_reducible apply State.Steady.after (opEnd_steady _ _)
    | with_reducible apply State.Steady.after (State.pair_steady (opEnd_steady _ _) (by assumption))
    | with_reducible apply State.Steady.after ((State.enqueueAll_still _ _ _ _).steady)
    | with_reducible apply State.Steady.after (State.sendPieces_steady _ _ _ _ _ _)
    | ((try lift_lets); intro x; refine State.cut_steady (x := x) ?_ ?_; (on_goal 1 => unfold x); (on_goal 2 => (clear_value x; intro _)))
    | ((try lift_lets); intro x; refine State.cut_steady (x := x.2) ?_ ?_; (on_goal 1 => unfold x); (on_goal 2 => (clear_value x; intro _)))
    | ((try lift_lets); intro x; try clear_value x)
    | intro _
    | split
    | dsimp only

theorem State.stageEnd_steady (s : State) (p f h_ : Nat) (im : Image) (g : Graph) (st : GraphStage) :
    s.Steady (State.stageEnd s p f h_ im g st) := by
  unfold State.stageEnd
  repeat' first
    | with_reducible exact State.Steady.refl _
    | with_reducible assumption
    | with_reducible apply State.Steady.after (State.coreEnd_steady _ _ _ _ _)
    | with_reducible apply State.Steady.after (State.foldl_steady ?_ _ _)
    | with_reducible apply State.Steady.after (State.foldl2_steady ?_ _ _)
    | ((try lift_lets); intro x; refine State.cut_steady (x := x) ?_ ?_; (on_goal 1 => unfold x); (on_goal 2 => (clear_value x; intro _)))
    | ((try lift_lets); intro x; refine State.cut_steady (x := x.2) ?_ ?_; (on_goal 1 => unfold x); (on_goal 2 => (clear_value x; intro _)))
    | ((try lift_lets); intro x; try clear_value x)
    | intro _
    | split
    | dsimp only

theorem State.endRun_still (s : State) (p : Nat) (im : Image) (g : Graph) (r : GraphRun) :
    s.Still (State.endRun s p im g r) := by
  unfold State.endRun
  repeat' first
    | with_reducible refine State.ite_still ?_ ?_
    | with_reducible refine State.ite2_still ?_ ?_
    | with_reducible exact State.Still.refl _
    | with_reducible assumption
    | with_reducible apply State.Still.after (State.setPart_still _ _ _)
    | with_reducible apply State.Still.after (State.finish_still _ _ _ _)
    | with_reducible apply State.Still.after (State.askHold_still _ _ _ _)
    | ((try lift_lets); intro x; refine State.cut_still (x := x) ?_ ?_; (on_goal 1 => unfold x); (on_goal 2 => (clear_value x; intro _)))
    | ((try lift_lets); intro x; refine State.cut_still (x := x.2) ?_ ?_; (on_goal 1 => unfold x); (on_goal 2 => (clear_value x; intro _)))
    | ((try lift_lets); intro x; try clear_value x)
    | intro _
    | split
    | with_reducible fail_if_no_progress apply State.Still.after (State.mk_still _)
    | dsimp only

theorem State.passStage_steady (s : State) (p f h_ : Nat) (im : Image) (g : Graph) (gi i : Nat) (st : GraphStage) (y : StageRun) :
    s.Steady (State.passStage s p f h_ im g gi i st y) := by
  unfold State.passStage
  repeat' first
    | with_reducible exact State.Steady.refl _
    | with_reducible assumption
    | with_reducible apply State.Steady.after ((State.askHold_still _ _ _ _).steady)
    | with_reducible apply State.Steady.after ((State.setStage_still _ _ _ _ _ _).steady)
    | with_reducible apply State.Steady.after (State.stageEnd_steady _ _ _ _ _ _ _)
    | with_reducible apply State.Steady.after ((State.endRun_still _ _ _ _ _).steady)
    | ((try lift_lets); intro x; refine State.cut_steady (x := x) ?_ ?_; (on_goal 1 => unfold x); (on_goal 2 => (clear_value x; intro _)))
    | ((try lift_lets); intro x; refine State.cut_steady (x := x.2) ?_ ?_; (on_goal 1 => unfold x); (on_goal 2 => (clear_value x; intro _)))
    | ((try lift_lets); intro x; try clear_value x)
    | intro _
    | split
    | with_reducible fail_if_no_progress apply State.Steady.after ((State.mk_still _).steady)
    | dsimp only

theorem execEndMark_steady (part : PartNo) (image : HandleNo) (stage : Nat) (s : State) :
    ∀ t_, execEndMark part image stage s = .next t_ → s.Steady t_ := by
  unfold execEndMark
  refine State.next_steady ?_
  repeat' first
    | with_reducible refine State.ite_steady ?_ ?_
    | with_reducible refine State.ite2_steady ?_ ?_
    | with_reducible exact State.Steady.refl _
    | with_reducible assumption
    | with_reducible apply State.Steady.after (State.passStage_steady _ _ _ _ _ _ _ _ _ _)
    | ((try lift_lets); intro x; refine State.cut_steady (x := x) ?_ ?_; (on_goal 1 => unfold x); (on_goal 2 => (clear_value x; intro _)))
    | ((try lift_lets); intro x; refine State.cut_steady (x := x.2) ?_ ?_; (on_goal 1 => unfold x); (on_goal 2 => (clear_value x; intro _)))
    | ((try lift_lets); intro x; try clear_value x)
    | intro _
    | split
    | dsimp only

theorem State.abortItems_steady (s : State) (p : Nat) (bad : Item → Bool) :
    s.Steady (State.abortItems s p bad) := by
  unfold State.abortItems
  repeat' first
    | with_reducible refine State.ite_steady ?_ ?_
    | with_reducible refine State.ite2_steady ?_ ?_
    | with_reducible exact State.Steady.refl _
    | with_reducible assumption
    | with_reducible apply State.Steady.after ((State.setPart_still _ _ _).steady)
    | with_reducible apply State.Steady.after ((State.setFlow_still _ _ _ _).steady)
    | with_reducible apply State.Steady.after ((State.refuse_still _ _ _).steady)
    | with_reducible apply State.Steady.after (State.endItem_steady _ _ _ _ _)
    | with_reducible apply State.Steady.after (State.foldl_steady ?_ _ _)
    | with_reducible apply State.Steady.after (State.foldl2_steady ?_ _ _)
    | ((try lift_lets); intro x; refine State.cut_steady (x := x) ?_ ?_; (on_goal 1 => unfold x); (on_goal 2 => (clear_value x; intro _)))
    | ((try lift_lets); intro x; refine State.cut_steady (x := x.2) ?_ ?_; (on_goal 1 => unfold x); (on_goal 2 => (clear_value x; intro _)))
    | ((try lift_lets); intro x; try clear_value x)
    | intro _
    | split
    | with_reducible fail_if_no_progress apply State.Steady.after ((State.mk_still _).steady)
    | dsimp only

theorem State.abortFlow_steady (s : State) (p f : Nat) :
    s.Steady (State.abortFlow s p f) := by
  unfold State.abortFlow
  repeat' first
    | with_reducible refine State.ite_steady ?_ ?_
    | with_reducible refine State.ite2_steady ?_ ?_
    | with_reducible exact State.Steady.refl _
    | with_reducible assumption
    | with_reducible apply State.Steady.after ((State.setPart_still _ _ _).steady)
    | with_reducible apply State.Steady.after ((State.setFlow_still _ _ _ _).steady)
    | with_reducible apply State.Steady.after ((State.flowGauges_still _ _).steady)
    | with_reducible apply State.Steady.after ((State.unplace_still _ _ _ _ _).steady)
    | with_reducible apply State.Steady.after (State.deliver_steady _ _ _ _ _)
    | with_reducible apply State.Steady.after (State.foldl_steady ?_ _ _)
    | with_reducible apply State.Steady.after (State.foldl2_steady ?_ _ _)
    | ((try lift_lets); intro x; refine State.cut_steady (x := x) ?_ ?_; (on_goal 1 => unfold x); (on_goal 2 => (clear_value x; intro _)))
    | ((try lift_lets); intro x; refine State.cut_steady (x := x.2) ?_ ?_; (on_goal 1 => unfold x); (on_goal 2 => (clear_value x; intro _)))
    | ((try lift_lets); intro x; try clear_value x)
    | intro _
    | split
    | with_reducible fail_if_no_progress apply State.Steady.after ((State.mk_still _).steady)
    | dsimp only

theorem State.abortRounds_steady (p : Nat) (fs : List Nat) (a0 : Nat) (s : State) :
    s.Steady (State.abortRounds p fs a0 s) := by
  induction a0 generalizing s with
  | zero => exact State.Steady.refl s
  | succ n ih =>
    unfold State.abortRounds
    repeat' first
      | with_reducible refine State.ite_steady ?_ ?_
      | with_reducible refine State.ite2_steady ?_ ?_
      | cases (by assumption : n + 1 = Nat.succ _)
      | with_reducible apply State.Steady.after (ih _)
      | with_reducible exact State.Steady.refl _
      | with_reducible assumption
      | with_reducible apply State.Steady.after (State.abortFlow_steady _ _ _)
      | with_reducible apply State.Steady.after (State.foldl_steady ?_ _ _)
      | with_reducible apply State.Steady.after (State.foldl2_steady ?_ _ _)
      | intro _
      | split
      | dsimp only

theorem State.holdFlow_still (s : State) (p f : Nat) :
    s.Still (State.holdFlow s p f) := by
  unfold State.holdFlow
  repeat' first
    | with_reducible exact State.Still.refl _
    | with_reducible assumption
    | with_reducible apply State.Still.after (State.setFlow_still _ _ _ _)
    | intro _
    | split
    | with_reducible fail_if_no_progress apply State.Still.after (State.mk_still _)
    | dsimp only

theorem State.abortEpoch_still (s : State) (p e : Nat) :
    s.Still (State.abortEpoch s p e) := by
  unfold State.abortEpoch
  repeat' first
    | with_reducible exact State.Still.refl _
    | with_reducible assumption
    | with_reducible apply State.Still.after (State.setEpoch_still _ _ _ _)
    | intro _
    | split
    | dsimp only

theorem State.closeImageStream_still (s : State) (p h_ : Nat) (im : Image) (id : Nat) :
    s.Still (State.closeImageStream s p h_ im id) := by
  unfold State.closeImageStream
  repeat' first
    | with_reducible refine State.ite_still ?_ ?_
    | with_reducible refine State.ite2_still ?_ ?_
    | with_reducible exact State.Still.refl _
    | with_reducible assumption
    | with_reducible apply State.Still.after (State.answer_still _ _ _ _)
    | with_reducible apply State.Still.after (State.walkAll_still _ _ _ _)
    | with_reducible apply State.Still.after (State.closeStream_still _ _ _ _)
    | ((try lift_lets); intro x; refine State.cut_still (x := x) ?_ ?_; (on_goal 1 => unfold x); (on_goal 2 => (clear_value x; intro _)))
    | ((try lift_lets); intro x; refine State.cut_still (x := x.2) ?_ ?_; (on_goal 1 => unfold x); (on_goal 2 => (clear_value x; intro _)))
    | ((try lift_lets); intro x; try clear_value x)
    | intro _
    | split
    | dsimp only

theorem State.unloadImage_steady (s : State) (p h_ : Nat) (im : Image) :
    s.Steady (State.unloadImage s p h_ im) := by
  unfold State.unloadImage
  repeat' first
    | with_reducible exact State.Steady.refl _
    | with_reducible assumption
    | with_reducible apply State.Steady.after ((State.setPart_still _ _ _).steady)
    | with_reducible apply State.Steady.after (State.closeFlow_steady _ _ _)
    | with_reducible apply State.Steady.after ((State.dropWaits_still _ _ _).steady)
    | with_reducible apply State.Steady.after (State.abortItems_steady _ _ _)
    | with_reducible apply State.Steady.after (State.foldl_steady ?_ _ _)
    | with_reducible apply State.Steady.after (State.foldl2_steady ?_ _ _)
    | ((try lift_lets); intro x; refine State.cut_steady (x := x) ?_ ?_; (on_goal 1 => unfold x); (on_goal 2 => (clear_value x; intro _)))
    | ((try lift_lets); intro x; refine State.cut_steady (x := x.2) ?_ ?_; (on_goal 1 => unfold x); (on_goal 2 => (clear_value x; intro _)))
    | ((try lift_lets); intro x; try clear_value x)
    | intro _
    | split
    | with_reducible fail_if_no_progress apply State.Steady.after ((State.mk_still _).steady)
    | dsimp only

theorem State.stopImage_steady (s : State) (p id h_ : Nat) (unload : Bool) (im : Image) :
    s.Steady (State.stopImage s p id h_ unload im) := by
  unfold State.stopImage
  repeat' first
    | with_reducible refine State.ite_steady ?_ ?_
    | with_reducible refine State.ite2_steady ?_ ?_
    | with_reducible exact State.Steady.refl _
    | with_reducible assumption
    | with_reducible apply State.Steady.after ((State.setPart_still _ _ _).steady)
    | with_reducible apply State.Steady.after ((State.finish_still _ _ _ _).steady)
    | with_reducible apply State.Steady.after ((State.finishAll_still _ _ _).steady)
    | with_reducible apply State.Steady.after (State.abortRounds_steady _ _ _ _)
    | with_reducible apply State.Steady.after ((State.holdFlow_still _ _ _).steady)
    | with_reducible apply State.Steady.after ((State.abortEpoch_still _ _ _).steady)
    | with_reducible apply State.Steady.after ((State.closeImageStream_still _ _ _ _ _).steady)
    | with_reducible apply State.Steady.after (State.unloadImage_steady _ _ _ _)
    | with_reducible apply State.Steady.after (State.foldl_steady ?_ _ _)
    | with_reducible apply State.Steady.after (State.foldl2_steady ?_ _ _)
    | ((try lift_lets); intro x; refine State.cut_steady (x := x) ?_ ?_; (on_goal 1 => unfold x); (on_goal 2 => (clear_value x; intro _)))
    | ((try lift_lets); intro x; refine State.cut_steady (x := x.2) ?_ ?_; (on_goal 1 => unfold x); (on_goal 2 => (clear_value x; intro _)))
    | ((try lift_lets); intro x; try clear_value x)
    | intro _
    | split
    | with_reducible fail_if_no_progress apply State.Steady.after ((State.mk_still _).steady)
    | dsimp only

theorem execPipeStopEdge_steady (part : PartNo) (s : State) :
    ∀ t_, execPipeStopEdge part s = .next t_ → s.Steady t_ := by
  unfold execPipeStopEdge
  refine State.next_steady ?_
  repeat' first
    | with_reducible exact State.Steady.refl _
    | with_reducible assumption
    | with_reducible apply State.Steady.after ((State.setPart_still _ _ _).steady)
    | with_reducible apply State.Steady.after ((State.finish_still _ _ _ _).steady)
    | with_reducible apply State.Steady.after (State.stopImage_steady _ _ _ _ _ _)
    | ((try lift_lets); intro x; refine State.cut_steady (x := x) ?_ ?_; (on_goal 1 => unfold x); (on_goal 2 => (clear_value x; intro _)))
    | ((try lift_lets); intro x; refine State.cut_steady (x := x.2) ?_ ?_; (on_goal 1 => unfold x); (on_goal 2 => (clear_value x; intro _)))
    | ((try lift_lets); intro x; try clear_value x)
    | intro _
    | split
    | with_reducible fail_if_no_progress apply State.Steady.after ((State.mk_still _).steady)
    | dsimp only

theorem State.dropTable_steady (s : State) (p id : Nat) (t : Table) :
    s.Steady (State.dropTable s p id t) := by
  unfold State.dropTable
  repeat' first
    | with_reducible refine State.ite_steady ?_ ?_
    | with_reducible refine State.ite2_steady ?_ ?_
    | with_reducible exact State.Steady.refl _
    | with_reducible assumption
    | with_reducible apply State.Steady.after ((State.finish_still _ _ _ _).steady)
    | with_reducible apply State.Steady.after ((State.finishAll_still _ _ _).steady)
    | with_reducible apply State.Steady.after ((State.setTable_still _ _ _).steady)
    | with_reducible apply State.Steady.after (State.abortItems_steady _ _ _)
    | ((try lift_lets); intro x; refine State.cut_steady (x := x) ?_ ?_; (on_goal 1 => unfold x); (on_goal 2 => (clear_value x; intro _)))
    | ((try lift_lets); intro x; refine State.cut_steady (x := x.2) ?_ ?_; (on_goal 1 => unfold x); (on_goal 2 => (clear_value x; intro _)))
    | ((try lift_lets); intro x; try clear_value x)
    | intro _
    | split
    | with_reducible fail_if_no_progress apply State.Steady.after ((State.mk_still _).steady)
    | dsimp only

theorem execTableDropEdge_steady (part : PartNo) (table : Nat) (s : State) :
    ∀ t_, execTableDropEdge part table s = .next t_ → s.Steady t_ := by
  unfold execTableDropEdge
  refine State.next_steady ?_
  repeat' first
    | with_reducible exact State.Steady.refl _
    | with_reducible assumption
    | with_reducible apply State.Steady.after (State.dropTable_steady _ _ _ _)
    | ((try lift_lets); intro x; refine State.cut_steady (x := x) ?_ ?_; (on_goal 1 => unfold x); (on_goal 2 => (clear_value x; intro _)))
    | ((try lift_lets); intro x; refine State.cut_steady (x := x.2) ?_ ?_; (on_goal 1 => unfold x); (on_goal 2 => (clear_value x; intro _)))
    | ((try lift_lets); intro x; try clear_value x)
    | intro _
    | split
    | dsimp only

end Sys2Proof.Machine
end

