-- ==== Sys2Proof/Laws/KeepIsolate.lean ====
section
/-!
SUPPORT. What the operations and meanings of Machine/Isolate.lean keep of a state.
-/
set_option linter.unusedVariables false
set_option linter.unreachableTactic false
set_option linter.unusedTactic false
namespace Sys2Proof.Machine

theorem mixCells_wf (pick : Nat → Bool) {a : List Host.Cell} (h : Memory.wf a) (b : List Host.Cell) :
    Memory.wf (mixCells pick a b) := by
  unfold mixCells
  generalize (a.map (·.1) ++ b.map (·.1)) = l
  induction l generalizing a with
  | nil => exact h
  | cons x l ih =>
    rw [List.foldl_cons]
    split
    · exact ih (Memory.wf_put h _ _)
    · exact ih h

/-- A free value has been used. -/
theorem State.used_still (s : State) : s.Still { s with fresh := s.fresh + 1 } :=
  ⟨⟨⟨rfl, id, List.suffix_refl _, Nat.le_succ _, Nat.le_refl _⟩, rfl⟩, rfl, rfl⟩

theorem State.mix_steady (s t : State) :
    s.Steady (State.mix s t) := by
  exact ⟨⟨rfl, fun c => ⟨mixCells_wf _ c.1 _, mixCells_wf _ c.2 _⟩, List.suffix_append _ _, Nat.le_succ _, Nat.le_refl _⟩, rfl⟩

theorem State.cutCmd_steady (s : State) (id : Nat) :
    s.Steady (State.cutCmd s id) := by
  unfold State.cutCmd
  repeat' first
    | with_reducible refine State.ite_steady ?_ ?_
    | with_reducible refine State.ite2_steady ?_ ?_
    | with_reducible exact State.Steady.refl _
    | with_reducible assumption
    | with_reducible apply State.Steady.after (State.lookupWork_steady _ _ _)
    | with_reducible apply State.Steady.after (State.mix_steady _ _)
    | ((try lift_lets); intro x; refine State.cut_steady (x := x) ?_ ?_; (on_goal 1 => unfold x); (on_goal 2 => (clear_value x; intro _)))
    | ((try lift_lets); intro x; refine State.cut_steady (x := x.2) ?_ ?_; (on_goal 1 => unfold x); (on_goal 2 => (clear_value x; intro _)))
    | ((try lift_lets); intro x; try clear_value x)
    | intro _
    | split
    | dsimp only

theorem State.cutRecord_steady (s : State) (core : Nat) (r : LaneRec) :
    s.Steady (State.cutRecord s core r) := by
  unfold State.cutRecord
  repeat' first
    | with_reducible refine State.ite_steady ?_ ?_
    | with_reducible refine State.ite2_steady ?_ ?_
    | with_reducible exact State.Steady.refl _
    | with_reducible assumption
    | with_reducible apply State.Steady.after (State.write_steady _ _ _ ?_)
    | with_reducible apply State.Steady.after ((State.setDir_still _ _ _ _ _ _).steady)
    | with_reducible apply State.Steady.after (State.applyUpdate_steady _ _ _ _ _)
    | with_reducible apply State.Steady.after (State.pair_steady (State.applyUpdate_steady _ _ _ _ _) (by assumption))
    | with_reducible apply State.Steady.after (State.applyWrite_steady _ _ _ _ _ _)
    | with_reducible apply State.Steady.after (State.pair_steady (State.applyWrite_steady _ _ _ _ _ _) (by assumption))
    | with_reducible apply State.Steady.after (State.mix_steady _ _)
    | ((try lift_lets); intro x; refine State.cut_steady (x := x) ?_ ?_; (on_goal 1 => unfold x); (on_goal 2 => (clear_value x; intro _)))
    | ((try lift_lets); intro x; refine State.cut_steady (x := x.2) ?_ ?_; (on_goal 1 => unfold x); (on_goal 2 => (clear_value x; intro _)))
    | ((try lift_lets); intro x; try clear_value x)
    | intro _
    | split
    | dsimp only

theorem State.isolateRecord_still (s : State) (id : Nat) :
    s.Still (State.isolateRecord s id) := by
  unfold State.isolateRecord
  repeat' first
    | with_reducible exact State.Still.refl _
    | with_reducible assumption
    | with_reducible apply State.Still.after (State.setCmd_still _ _)
    | with_reducible apply State.Still.after (State.recordDone_still _ _ _)
    | intro _
    | split
    | with_reducible fail_if_no_progress apply State.Still.after (State.mk_still _)
    | dsimp only

theorem State.cutLane_steady (s : State) (core lane : Nat) :
    s.Steady (State.cutLane s core lane) := by
  unfold State.cutLane
  repeat' first
    | with_reducible exact State.Steady.refl _
    | with_reducible assumption
    | with_reducible apply State.Steady.after ((State.setLane_still _ _ _ _).steady)
    | with_reducible apply State.Steady.after (State.cutRecord_steady _ _ _)
    | with_reducible apply State.Steady.after ((State.isolateRecord_still _ _).steady)
    | with_reducible apply State.Steady.after (State.foldl_steady ?_ _ _)
    | with_reducible apply State.Steady.after (State.foldl2_steady ?_ _ _)
    | ((try lift_lets); intro x; refine State.cut_steady (x := x) ?_ ?_; (on_goal 1 => unfold x); (on_goal 2 => (clear_value x; intro _)))
    | ((try lift_lets); intro x; refine State.cut_steady (x := x.2) ?_ ?_; (on_goal 1 => unfold x); (on_goal 2 => (clear_value x; intro _)))
    | ((try lift_lets); intro x; try clear_value x)
    | intro _
    | split
    | with_reducible fail_if_no_progress apply State.Steady.after ((State.mk_still _).steady)
    | dsimp only

theorem State.isolateUnit_steady (s : State) (k : UnitKind) (u : Nat) :
    s.Steady (State.isolateUnit s k u) := by
  unfold State.isolateUnit
  repeat' first
    | with_reducible exact State.Steady.refl _
    | with_reducible assumption
    | with_reducible apply State.Steady.after ((State.bump_still _ _ _).steady)
    | with_reducible apply State.Steady.after ((State.free_still _).steady)
    | with_reducible apply State.Steady.after (State.pair_steady ((State.free_still _).steady) (by assumption))
    | with_reducible apply State.Steady.after ((State.setSlots_still _ _ _).steady)
    | with_reducible apply State.Steady.after ((State.setEngine_still _ _ _ _).steady)
    | with_reducible apply State.Steady.after (State.endItem_steady _ _ _ _ _)
    | with_reducible apply State.Steady.after (State.cutCmd_steady _ _)
    | with_reducible apply State.Steady.after (State.cutLane_steady _ _ _)
    | with_reducible apply State.Steady.after (State.foldl_steady ?_ _ _)
    | with_reducible apply State.Steady.after (State.foldl2_steady ?_ _ _)
    | ((try lift_lets); intro x; refine State.cut_steady (x := x) ?_ ?_; (on_goal 1 => unfold x); (on_goal 2 => (clear_value x; intro _)))
    | ((try lift_lets); intro x; refine State.cut_steady (x := x.2) ?_ ?_; (on_goal 1 => unfold x); (on_goal 2 => (clear_value x; intro _)))
    | ((try lift_lets); intro x; try clear_value x)
    | intro _
    | split
    | with_reducible fail_if_no_progress apply State.Steady.after ((State.mk_still _).steady)
    | dsimp only

theorem State.defer_still (s : State) (r : Reply) :
    s.Still (State.defer s r) := by
  unfold State.defer
  repeat' first
    | with_reducible exact State.Still.refl _
    | with_reducible assumption
    | with_reducible apply State.Still.after (State.setCmd_still _ _)
    | intro _
    | split
    | with_reducible fail_if_no_progress apply State.Still.after (State.mk_still _)
    | dsimp only

theorem execBlockReset_still (acc : Access) (s : State) :
    ∀ t_, execBlockReset acc s = .next t_ → s.Still t_ := by
  unfold execBlockReset
  refine State.next_still ?_
  repeat' first
    | with_reducible refine State.ite_still ?_ ?_
    | with_reducible refine State.ite2_still ?_ ?_
    | with_reducible exact State.Still.refl _
    | with_reducible assumption
    | with_reducible apply State.Still.after (State.write_still _ _ _ ?_)
    | with_reducible apply State.Still.after (numOp_still ?_ _ _ _)
    | with_reducible apply State.Still.after (State.defer_still _ _)
    | ((try lift_lets); intro x; refine State.cut_still (x := x) ?_ ?_; (on_goal 1 => unfold x); (on_goal 2 => (clear_value x; intro _)))
    | ((try lift_lets); intro x; refine State.cut_still (x := x.2) ?_ ?_; (on_goal 1 => unfold x); (on_goal 2 => (clear_value x; intro _)))
    | ((try lift_lets); intro x; try clear_value x)
    | intro _
    | split
    | with_reducible fail_if_no_progress apply State.Still.after (State.mk_still _)
    | dsimp only

theorem State.wipeUnit_still (s : State) (k : UnitKind) (u : Nat) :
    s.Still (State.wipeUnit s k u) := by
  unfold State.wipeUnit
  repeat' first
    | with_reducible exact State.Still.refl _
    | with_reducible assumption
    | with_reducible apply State.Still.after (State.sramWrite_still _ _ _ _)
    | intro _
    | split
    | with_reducible fail_if_no_progress apply State.Still.after (State.mk_still _)
    | dsimp only

theorem State.blockDone_still (s : State) (b : BlockReset) (st : Status) :
    s.Still (State.blockDone s b st) := by
  unfold State.blockDone
  repeat' first
    | with_reducible refine State.ite_still ?_ ?_
    | with_reducible refine State.ite2_still ?_ ?_
    | with_reducible exact State.Still.refl _
    | with_reducible assumption
    | with_reducible apply State.Still.after (State.setSlots_still _ _ _)
    | with_reducible apply State.Still.after (State.setEngine_still _ _ _ _)
    | with_reducible apply State.Still.after (State.respond_still _ _ _ _)
    | with_reducible apply State.Still.after (State.wipeUnit_still _ _ _)
    | ((try lift_lets); intro x; refine State.cut_still (x := x) ?_ ?_; (on_goal 1 => unfold x); (on_goal 2 => (clear_value x; intro _)))
    | ((try lift_lets); intro x; refine State.cut_still (x := x.2) ?_ ?_; (on_goal 1 => unfold x); (on_goal 2 => (clear_value x; intro _)))
    | ((try lift_lets); intro x; try clear_value x)
    | intro _
    | split
    | with_reducible fail_if_no_progress apply State.Still.after (State.mk_still _)
    | dsimp only

theorem execBlockResetClean_still (unit : Nat) (s : State) :
    ∀ t_, execBlockResetClean unit s = .next t_ → s.Still t_ := by
  unfold execBlockResetClean
  refine State.next_still ?_
  repeat' first
    | with_reducible refine State.ite_still ?_ ?_
    | with_reducible refine State.ite2_still ?_ ?_
    | with_reducible exact State.Still.refl _
    | with_reducible assumption
    | with_reducible apply State.Still.after (State.blockDone_still _ _ _)
    | intro _
    | split
    | dsimp only

theorem execQuiesceTicks_steady (unit : Nat) (s : State) :
    ∀ t_, execQuiesceTicks unit s = .next t_ → s.Steady t_ := by
  unfold execQuiesceTicks
  refine State.next_steady ?_
  repeat' first
    | with_reducible refine State.ite_steady ?_ ?_
    | with_reducible refine State.ite2_steady ?_ ?_
    | with_reducible exact State.Steady.refl _
    | with_reducible assumption
    | with_reducible apply State.Steady.after (State.isolateUnit_steady _ _ _)
    | with_reducible apply State.Steady.after ((State.blockDone_still _ _ _).steady)
    | intro _
    | split
    | dsimp only

end Sys2Proof.Machine
end

