-- ==== Sys2Proof/Laws/KeepReset.lean ====
section
/-!
SUPPORT. What the operations and meanings of Machine/Reset.lean keep of a state.
-/
set_option linter.unusedVariables false
set_option linter.unreachableTactic false
set_option linter.unusedTactic false
namespace Sys2Proof.Machine

theorem Memory.wf_nil : Memory.wf [] := ⟨List.Pairwise.nil, fun _ h => nomatch h⟩

theorem State.dropLink_still (s : State) (p : Nat) :
    s.Still (State.dropLink s p) := by
  unfold State.dropLink
  repeat' first
    | with_reducible refine State.ite_still ?_ ?_
    | with_reducible refine State.ite2_still ?_ ?_
    | with_reducible exact State.Still.refl _
    | with_reducible assumption
    | with_reducible apply State.Still.after (State.put_still _ _ _)
    | with_reducible apply State.Still.after (State.bump_still _ _ _)
    | with_reducible apply State.Still.after (State.noteBreak_still _ _ _)
    | with_reducible apply State.Still.after (State.occur_still _ _ _ _)
    | with_reducible apply State.Still.after (State.setPort_still _ _ _)
    | ((try lift_lets); intro x; refine State.cut_still (x := x) ?_ ?_; (on_goal 1 => unfold x); (on_goal 2 => (clear_value x; intro _)))
    | ((try lift_lets); intro x; refine State.cut_still (x := x.2) ?_ ?_; (on_goal 1 => unfold x); (on_goal 2 => (clear_value x; intro _)))
    | ((try lift_lets); intro x; try clear_value x)
    | intro _
    | split
    | with_reducible fail_if_no_progress apply State.Still.after (State.mk_still _)
    | dsimp only

theorem State.endMailbox_still (s : State) (p : Nat) :
    s.Still (State.endMailbox s p) := by
  unfold State.endMailbox
  repeat' first
    | with_reducible exact State.Still.refl _
    | with_reducible assumption
    | with_reducible apply State.Still.after (State.endSession_still _ _)
    | with_reducible apply State.Still.after (State.foldl_still ?_ _ _)
    | with_reducible apply State.Still.after (State.foldl2_still ?_ _ _)
    | ((try lift_lets); intro x; refine State.cut_still (x := x) ?_ ?_; (on_goal 1 => unfold x); (on_goal 2 => (clear_value x; intro _)))
    | ((try lift_lets); intro x; refine State.cut_still (x := x.2) ?_ ?_; (on_goal 1 => unfold x); (on_goal 2 => (clear_value x; intro _)))
    | ((try lift_lets); intro x; try clear_value x)
    | intro _
    | split
    | with_reducible fail_if_no_progress apply State.Still.after (State.mk_still _)
    | dsimp only

theorem State.clearPort_still (s : State) (p : Nat) :
    s.Still (State.clearPort s p) := by
  unfold State.clearPort
  repeat' first
    | with_reducible exact State.Still.refl _
    | with_reducible assumption
    | with_reducible apply State.Still.after (State.setPort_still _ _ _)
    | with_reducible apply State.Still.after (State.discardAll_still _ _)
    | with_reducible apply State.Still.after (State.endMailbox_still _ _)
    | ((try lift_lets); intro x; refine State.cut_still (x := x) ?_ ?_; (on_goal 1 => unfold x); (on_goal 2 => (clear_value x; intro _)))
    | ((try lift_lets); intro x; refine State.cut_still (x := x.2) ?_ ?_; (on_goal 1 => unfold x); (on_goal 2 => (clear_value x; intro _)))
    | ((try lift_lets); intro x; try clear_value x)
    | intro _
    | split
    | with_reducible fail_if_no_progress apply State.Still.after (State.mk_still _)
    | dsimp only

theorem State.closeOwned_steady (s : State) (port : Nat) :
    s.Steady (State.closeOwned s port) := by
  unfold State.closeOwned
  repeat' first
    | with_reducible exact State.Steady.refl _
    | with_reducible assumption
    | with_reducible apply State.Steady.after (State.closeFlow_steady _ _ _)
    | with_reducible apply State.Steady.after (State.foldl_steady ?_ _ _)
    | with_reducible apply State.Steady.after (State.foldl2_steady ?_ _ _)
    | ((try lift_lets); intro x; refine State.cut_steady (x := x) ?_ ?_; (on_goal 1 => unfold x); (on_goal 2 => (clear_value x; intro _)))
    | ((try lift_lets); intro x; refine State.cut_steady (x := x.2) ?_ ?_; (on_goal 1 => unfold x); (on_goal 2 => (clear_value x; intro _)))
    | ((try lift_lets); intro x; try clear_value x)
    | intro _
    | split
    | dsimp only

theorem State.disableRings_still (s : State) (p : Nat) :
    s.Still (State.disableRings s p) := by
  unfold State.disableRings
  repeat' first
    | with_reducible exact State.Still.refl _
    | with_reducible assumption
    | with_reducible apply State.Still.after (State.bump_still _ _ _)
    | with_reducible apply State.Still.after (State.setPort_still _ _ _)
    | with_reducible apply State.Still.after (State.settle_still _ _ _)
    | with_reducible apply State.Still.after (State.loseHeld_still _ _ _)
    | with_reducible apply State.Still.after (State.foldl_still ?_ _ _)
    | with_reducible apply State.Still.after (State.foldl2_still ?_ _ _)
    | ((try lift_lets); intro x; refine State.cut_still (x := x) ?_ ?_; (on_goal 1 => unfold x); (on_goal 2 => (clear_value x; intro _)))
    | ((try lift_lets); intro x; refine State.cut_still (x := x.2) ?_ ?_; (on_goal 1 => unfold x); (on_goal 2 => (clear_value x; intro _)))
    | ((try lift_lets); intro x; try clear_value x)
    | intro _
    | split
    | with_reducible fail_if_no_progress apply State.Still.after (State.mk_still _)
    | dsimp only

theorem State.writeCause_still (s : State) (m : ResetMember) :
    s.Still (State.writeCause s m) := by
  unfold State.writeCause
  repeat' first
    | with_reducible refine State.ite_still ?_ ?_
    | with_reducible refine State.ite2_still ?_ ?_
    | with_reducible exact State.Still.refl _
    | with_reducible assumption
    | with_reducible apply State.Still.after (State.put_still _ _ _)
    | ((try lift_lets); intro x; refine State.cut_still (x := x) ?_ ?_; (on_goal 1 => unfold x); (on_goal 2 => (clear_value x; intro _)))
    | ((try lift_lets); intro x; refine State.cut_still (x := x.2) ?_ ?_; (on_goal 1 => unfold x); (on_goal 2 => (clear_value x; intro _)))
    | ((try lift_lets); intro x; try clear_value x)
    | intro _
    | split
    | with_reducible fail_if_no_progress apply State.Still.after (State.mk_still _)
    | dsimp only

theorem State.joinReset_still (s : State) (m : ResetMember) :
    s.Still (State.joinReset s m) := by
  unfold State.joinReset
  repeat' first
    | with_reducible refine State.ite_still ?_ ?_
    | with_reducible refine State.ite2_still ?_ ?_
    | with_reducible exact State.Still.refl _
    | with_reducible assumption
    | with_reducible apply State.Still.after (State.writeCause_still _ _)
    | with_reducible apply State.Still.after (State.foldl_still ?_ _ _)
    | with_reducible apply State.Still.after (State.foldl2_still ?_ _ _)
    | ((try lift_lets); intro x; refine State.cut_still (x := x) ?_ ?_; (on_goal 1 => unfold x); (on_goal 2 => (clear_value x; intro _)))
    | ((try lift_lets); intro x; refine State.cut_still (x := x.2) ?_ ?_; (on_goal 1 => unfold x); (on_goal 2 => (clear_value x; intro _)))
    | ((try lift_lets); intro x; try clear_value x)
    | intro _
    | split
    | with_reducible fail_if_no_progress apply State.Still.after (State.mk_still _)
    | dsimp only

theorem State.settleRepairs_still (s : State) (inReach : Nat → Bool) :
    s.Still (State.settleRepairs s inReach) := by
  unfold State.settleRepairs
  repeat' first
    | with_reducible refine State.ite_still ?_ ?_
    | with_reducible refine State.ite2_still ?_ ?_
    | with_reducible exact State.Still.refl _
    | with_reducible assumption
    | with_reducible apply State.Still.after (State.put_still _ _ _)
    | with_reducible apply State.Still.after (State.activateRepair_still _ _)
    | with_reducible apply State.Still.after (State.nextRepair_still _)
    | with_reducible apply State.Still.after (State.foldl_still ?_ _ _)
    | with_reducible apply State.Still.after (State.foldl2_still ?_ _ _)
    | ((try lift_lets); intro x; refine State.cut_still (x := x) ?_ ?_; (on_goal 1 => unfold x); (on_goal 2 => (clear_value x; intro _)))
    | ((try lift_lets); intro x; refine State.cut_still (x := x.2) ?_ ?_; (on_goal 1 => unfold x); (on_goal 2 => (clear_value x; intro _)))
    | ((try lift_lets); intro x; try clear_value x)
    | intro _
    | split
    | with_reducible fail_if_no_progress apply State.Still.after (State.mk_still _)
    | dsimp only

theorem State.wipe_steady (s : State) (mask stands : Nat) (inRegion : Nat → Bool) :
    s.Steady (State.wipe s mask stands inRegion) := by
  have h := (State.settleRepairs_still s (fun n => bitOf stands n)).steady
  refine h.trans ?_
  unfold State.wipe
  exact ⟨⟨rfl, fun c => ⟨Memory.wf_filter c.1 _, Memory.wf_filter c.2 _⟩, List.suffix_refl _, Nat.le_refl _, Nat.le_refl _⟩, rfl⟩

theorem State.absorbBlocks_still (s : State) (hit : Nat → Bool) :
    s.Still (State.absorbBlocks s hit) := by
  unfold State.absorbBlocks
  repeat' first
    | with_reducible exact State.Still.refl _
    | with_reducible assumption
    | with_reducible apply State.Still.after (State.respond_still _ _ _ _)
    | with_reducible apply State.Still.after (State.foldl_still ?_ _ _)
    | with_reducible apply State.Still.after (State.foldl2_still ?_ _ _)
    | ((try lift_lets); intro x; refine State.cut_still (x := x) ?_ ?_; (on_goal 1 => unfold x); (on_goal 2 => (clear_value x; intro _)))
    | ((try lift_lets); intro x; refine State.cut_still (x := x.2) ?_ ?_; (on_goal 1 => unfold x); (on_goal 2 => (clear_value x; intro _)))
    | ((try lift_lets); intro x; try clear_value x)
    | intro _
    | split
    | with_reducible fail_if_no_progress apply State.Still.after (State.mk_still _)
    | dsimp only

theorem State.answerGone_still (s : State) (p : Nat) :
    s.Still (State.answerGone s p) := by
  unfold State.answerGone
  repeat' first
    | with_reducible exact State.Still.refl _
    | with_reducible assumption
    | with_reducible apply State.Still.after (State.respond_still _ _ _ _)
    | with_reducible apply State.Still.after (State.foldl_still ?_ _ _)
    | with_reducible apply State.Still.after (State.foldl2_still ?_ _ _)
    | ((try lift_lets); intro x; refine State.cut_still (x := x) ?_ ?_; (on_goal 1 => unfold x); (on_goal 2 => (clear_value x; intro _)))
    | ((try lift_lets); intro x; refine State.cut_still (x := x.2) ?_ ?_; (on_goal 1 => unfold x); (on_goal 2 => (clear_value x; intro _)))
    | ((try lift_lets); intro x; try clear_value x)
    | intro _
    | split
    | with_reducible fail_if_no_progress apply State.Still.after (State.mk_still _)
    | dsimp only

theorem State.abortRequests_still (s : State) (p : Nat) :
    s.Still (State.abortRequests s p) := by
  unfold State.abortRequests
  repeat' first
    | with_reducible exact State.Still.refl _
    | with_reducible assumption
    | with_reducible apply State.Still.after (State.releaseRlt_still _ _ _ _)
    | with_reducible apply State.Still.after (State.foldl_still ?_ _ _)
    | with_reducible apply State.Still.after (State.foldl2_still ?_ _ _)
    | intro _
    | split
    | dsimp only

theorem State.abortPart_still (s : State) (p : Nat) (first : Option Nat) :
    s.Still (State.abortPart s p first) := by
  unfold State.abortPart
  repeat' first
    | with_reducible exact State.Still.refl _
    | with_reducible assumption
    | with_reducible apply State.Still.after (State.finish_still _ _ _ _)
    | with_reducible apply State.Still.after (State.finishAll_still _ _ _)
    | with_reducible apply State.Still.after (State.endNotice_still _ _ _ _)
    | with_reducible apply State.Still.after (State.disableRings_still _ _)
    | with_reducible apply State.Still.after (State.foldl_still ?_ _ _)
    | with_reducible apply State.Still.after (State.foldl2_still ?_ _ _)
    | ((try lift_lets); intro x; refine State.cut_still (x := x) ?_ ?_; (on_goal 1 => unfold x); (on_goal 2 => (clear_value x; intro _)))
    | ((try lift_lets); intro x; refine State.cut_still (x := x.2) ?_ ?_; (on_goal 1 => unfold x); (on_goal 2 => (clear_value x; intro _)))
    | ((try lift_lets); intro x; try clear_value x)
    | intro _
    | split
    | with_reducible fail_if_no_progress apply State.Still.after (State.mk_still _)
    | dsimp only

theorem State.teardown_still (s : State) (p : Nat) :
    s.Still (State.teardown s p) := by
  unfold State.teardown
  repeat' first
    | with_reducible exact State.Still.refl _
    | with_reducible assumption
    | with_reducible apply State.Still.after (State.noteBreak_still _ _ _)
    | with_reducible apply State.Still.after (State.setPart_still _ _ _)
    | with_reducible apply State.Still.after (State.absorbBlocks_still _ _)
    | with_reducible apply State.Still.after (State.answerGone_still _ _)
    | with_reducible apply State.Still.after (State.abortRequests_still _ _)
    | ((try lift_lets); intro x; refine State.cut_still (x := x) ?_ ?_; (on_goal 1 => unfold x); (on_goal 2 => (clear_value x; intro _)))
    | ((try lift_lets); intro x; refine State.cut_still (x := x.2) ?_ ?_; (on_goal 1 => unfold x); (on_goal 2 => (clear_value x; intro _)))
    | ((try lift_lets); intro x; try clear_value x)
    | intro _
    | split
    | with_reducible fail_if_no_progress apply State.Still.after (State.mk_still _)
    | dsimp only

theorem State.enterPart_steady (s : State) (p : Nat) :
    s.Steady (State.enterPart s p) := by
  unfold State.enterPart
  repeat' first
    | with_reducible exact State.Steady.refl _
    | with_reducible assumption
    | with_reducible apply State.Steady.after (State.wipe_steady _ _ _ _)
    | with_reducible apply State.Steady.after ((State.teardown_still _ _).steady)
    | intro _
    | split
    | dsimp only

theorem State.coreReset_steady (s : State) (cause : Nat) :
    s.Steady (State.coreReset s cause) := by
  unfold State.coreReset
  repeat' first
    | with_reducible exact State.Steady.refl _
    | with_reducible assumption
    | with_reducible apply State.Steady.after ((State.joinReset_still _ _).steady)
    | with_reducible apply State.Steady.after (State.wipe_steady _ _ _ _)
    | with_reducible apply State.Steady.after ((State.absorbBlocks_still _ _).steady)
    | with_reducible apply State.Steady.after ((State.abortPart_still _ _ _).steady)
    | with_reducible apply State.Steady.after ((State.teardown_still _ _).steady)
    | ((try lift_lets); intro x; refine State.cut_steady (x := x) ?_ ?_; (on_goal 1 => unfold x); (on_goal 2 => (clear_value x; intro _)))
    | ((try lift_lets); intro x; refine State.cut_steady (x := x.2) ?_ ?_; (on_goal 1 => unfold x); (on_goal 2 => (clear_value x; intro _)))
    | ((try lift_lets); intro x; try clear_value x)
    | intro _
    | split
    | with_reducible fail_if_no_progress apply State.Steady.after ((State.mk_still _).steady)
    | dsimp only

theorem State.partReset_steady (s : State) (p cause : Nat) (first : Option Nat) :
    s.Steady (State.partReset s p cause first) := by
  unfold State.partReset
  repeat' first
    | with_reducible exact State.Steady.refl _
    | with_reducible assumption
    | with_reducible apply State.Steady.after ((State.joinReset_still _ _).steady)
    | with_reducible apply State.Steady.after ((State.abortPart_still _ _ _).steady)
    | with_reducible apply State.Steady.after (State.enterPart_steady _ _)
    | intro _
    | split
    | dsimp only

theorem State.rebuild_steady (s : State) (por : Bool) :
    s.Steady (State.rebuild s por) := by
  have h := (State.settleRepairs_still s (fun _ => true)).steady
  refine h.trans ?_
  unfold State.rebuild
  refine ⟨⟨rfl, fun _ => ⟨Memory.wf_nil, Memory.wf_nil⟩, ?_, Nat.le_refl _, Nat.le_refl _⟩, rfl⟩
  dsimp only
  split
  · exact List.suffix_cons _ _
  · exact List.suffix_refl _

theorem State.sysReset_steady (s : State) (cause reach : Nat) :
    s.Steady (State.sysReset s cause reach) := by
  unfold State.sysReset
  repeat' first
    | with_reducible exact State.Steady.refl _
    | with_reducible assumption
    | with_reducible apply State.Steady.after ((State.joinReset_still _ _).steady)
    | with_reducible apply State.Steady.after (State.rebuild_steady _ _)
    | intro _
    | split
    | dsimp only

theorem execWatchdog_steady (s : State) :
    ∀ t_, execWatchdog s = .next t_ → s.Steady t_ := by
  unfold execWatchdog
  refine State.next_steady ?_
  repeat' first
    | with_reducible refine State.ite_steady ?_ ?_
    | with_reducible refine State.ite2_steady ?_ ?_
    | with_reducible exact State.Steady.refl _
    | with_reducible assumption
    | with_reducible apply State.Steady.after (State.sysReset_steady _ _ _)
    | intro _
    | split
    | dsimp only

theorem execJtag_steady (s : State) :
    ∀ t_, execJtag s = .next t_ → s.Steady t_ := by
  unfold execJtag
  refine State.next_steady ?_
  repeat' first
    | with_reducible exact State.Steady.refl _
    | with_reducible assumption
    | with_reducible apply State.Steady.after (State.sysReset_steady _ _ _)
    | intro _
    | split
    | dsimp only

theorem execSysRequest_steady (acc : Access) (s : State) :
    ∀ t_, execSysRequest acc s = .next t_ → s.Steady t_ := by
  unfold execSysRequest
  refine State.next_steady ?_
  repeat' first
    | with_reducible exact State.Steady.refl _
    | with_reducible assumption
    | with_reducible apply State.Steady.after ((State.txDone_still _).steady)
    | with_reducible apply State.Steady.after ((State.respond_still _ _ _ _).steady)
    | with_reducible apply State.Steady.after (State.write_steady _ _ _ ?_)
    | with_reducible apply State.Steady.after (State.sysReset_steady _ _ _)
    | intro _
    | split
    | dsimp only

theorem execCoreRequest_steady (acc : Access) (s : State) :
    ∀ t_, execCoreRequest acc s = .next t_ → s.Steady t_ := by
  unfold execCoreRequest
  refine State.next_steady ?_
  repeat' first
    | with_reducible exact State.Steady.refl _
    | with_reducible assumption
    | with_reducible apply State.Steady.after ((State.respond_still _ _ _ _).steady)
    | with_reducible apply State.Steady.after (State.write_steady _ _ _ ?_)
    | with_reducible apply State.Steady.after (State.coreReset_steady _ _)
    | intro _
    | split
    | dsimp only

theorem State.pllReset_steady (s : State) :
    s.Steady (State.pllReset s) := by
  unfold State.pllReset
  repeat' first
    | with_reducible refine State.ite_steady ?_ ?_
    | with_reducible refine State.ite2_steady ?_ ?_
    | with_reducible exact State.Steady.refl _
    | with_reducible assumption
    | with_reducible apply State.Steady.after (State.sysReset_steady _ _ _)
    | intro _
    | split
    | dsimp only

theorem State.holdReset_steady (s : State) :
    s.Steady (State.holdReset s) := by
  unfold State.holdReset
  repeat' first
    | with_reducible refine State.ite_steady ?_ ?_
    | with_reducible refine State.ite2_steady ?_ ?_
    | with_reducible exact State.Steady.refl _
    | with_reducible assumption
    | with_reducible apply State.Steady.after (State.sysReset_steady _ _ _)
    | intro _
    | split
    | dsimp only

theorem execResetAssert_steady (src : ResetSource) (s : State) :
    ∀ t_, execResetAssert src s = .next t_ → s.Steady t_ := by
  unfold execResetAssert
  refine State.next_steady ?_
  repeat' first
    | with_reducible refine State.ite_steady ?_ ?_
    | with_reducible refine State.ite2_steady ?_ ?_
    | with_reducible exact State.Steady.refl _
    | with_reducible assumption
    | with_reducible apply State.Steady.after (State.sysReset_steady _ _ _)
    | with_reducible apply State.Steady.after (State.pllReset_steady _)
    | with_reducible apply State.Steady.after (State.holdReset_steady _)
    | intro _
    | split
    | dsimp only

theorem State.hostReset_steady (s : State) (p cause : Nat) :
    s.Steady (State.hostReset s p cause) := by
  unfold State.hostReset
  repeat' first
    | with_reducible refine State.ite_steady ?_ ?_
    | with_reducible refine State.ite2_steady ?_ ?_
    | with_reducible exact State.Steady.refl _
    | with_reducible assumption
    | with_reducible apply State.Steady.after (State.closeOwned_steady _ _)
    | with_reducible apply State.Steady.after ((State.joinReset_still _ _).steady)
    | with_reducible apply State.Steady.after (State.enterPart_steady _ _)
    | with_reducible apply State.Steady.after (State.foldl_steady ?_ _ _)
    | with_reducible apply State.Steady.after (State.foldl2_steady ?_ _ _)
    | ((try lift_lets); intro x; refine State.cut_steady (x := x) ?_ ?_; (on_goal 1 => unfold x); (on_goal 2 => (clear_value x; intro _)))
    | ((try lift_lets); intro x; refine State.cut_steady (x := x.2) ?_ ?_; (on_goal 1 => unfold x); (on_goal 2 => (clear_value x; intro _)))
    | ((try lift_lets); intro x; try clear_value x)
    | intro _
    | split
    | with_reducible fail_if_no_progress apply State.Steady.after ((State.mk_still _).steady)
    | dsimp only

theorem execPerstAssert_steady (port : PortNo) (s : State) :
    ∀ t_, execPerstAssert port s = .next t_ → s.Steady t_ := by
  unfold execPerstAssert
  refine State.next_steady ?_
  repeat' first
    | with_reducible refine State.ite_steady ?_ ?_
    | with_reducible refine State.ite2_steady ?_ ?_
    | with_reducible exact State.Steady.refl _
    | with_reducible assumption
    | with_reducible apply State.Steady.after ((State.setPort_still _ _ _).steady)
    | with_reducible apply State.Steady.after ((State.dropLink_still _ _).steady)
    | with_reducible apply State.Steady.after ((State.clearPort_still _ _).steady)
    | with_reducible apply State.Steady.after (State.hostReset_steady _ _ _)
    | ((try lift_lets); intro x; refine State.cut_steady (x := x) ?_ ?_; (on_goal 1 => unfold x); (on_goal 2 => (clear_value x; intro _)))
    | ((try lift_lets); intro x; refine State.cut_steady (x := x.2) ?_ ?_; (on_goal 1 => unfold x); (on_goal 2 => (clear_value x; intro _)))
    | ((try lift_lets); intro x; try clear_value x)
    | intro _
    | split
    | with_reducible fail_if_no_progress apply State.Steady.after ((State.mk_still _).steady)
    | dsimp only

theorem execPerstRelease_still (port : PortNo) (s : State) :
    ∀ t_, execPerstRelease port s = .next t_ → s.Still t_ := by
  unfold execPerstRelease
  refine State.next_still ?_
  repeat' first
    | with_reducible refine State.ite_still ?_ ?_
    | with_reducible refine State.ite2_still ?_ ?_
    | with_reducible exact State.Still.refl _
    | with_reducible assumption
    | with_reducible apply State.Still.after (State.setPort_still _ _ _)
    | ((try lift_lets); intro x; refine State.cut_still (x := x) ?_ ?_; (on_goal 1 => unfold x); (on_goal 2 => (clear_value x; intro _)))
    | ((try lift_lets); intro x; refine State.cut_still (x := x.2) ?_ ?_; (on_goal 1 => unfold x); (on_goal 2 => (clear_value x; intro _)))
    | ((try lift_lets); intro x; try clear_value x)
    | intro _
    | split
    | with_reducible fail_if_no_progress apply State.Still.after (State.mk_still _)
    | dsimp only

theorem execHotReset_steady (port : PortNo) (s : State) :
    ∀ t_, execHotReset port s = .next t_ → s.Steady t_ := by
  unfold execHotReset
  refine State.next_steady ?_
  repeat' first
    | with_reducible refine State.ite_steady ?_ ?_
    | with_reducible refine State.ite2_steady ?_ ?_
    | with_reducible exact State.Steady.refl _
    | with_reducible assumption
    | with_reducible apply State.Steady.after ((State.setPort_still _ _ _).steady)
    | with_reducible apply State.Steady.after ((State.dropLink_still _ _).steady)
    | with_reducible apply State.Steady.after ((State.clearPort_still _ _).steady)
    | with_reducible apply State.Steady.after (State.hostReset_steady _ _ _)
    | ((try lift_lets); intro x; refine State.cut_steady (x := x) ?_ ?_; (on_goal 1 => unfold x); (on_goal 2 => (clear_value x; intro _)))
    | ((try lift_lets); intro x; refine State.cut_steady (x := x.2) ?_ ?_; (on_goal 1 => unfold x); (on_goal 2 => (clear_value x; intro _)))
    | ((try lift_lets); intro x; try clear_value x)
    | intro _
    | split
    | with_reducible fail_if_no_progress apply State.Steady.after ((State.mk_still _).steady)
    | dsimp only

theorem execLinkDisable_steady (port : PortNo) (s : State) :
    ∀ t_, execLinkDisable port s = .next t_ → s.Steady t_ := by
  unfold execLinkDisable
  refine State.next_steady ?_
  repeat' first
    | with_reducible refine State.ite_steady ?_ ?_
    | with_reducible refine State.ite2_steady ?_ ?_
    | with_reducible exact State.Steady.refl _
    | with_reducible assumption
    | with_reducible apply State.Steady.after ((State.setPort_still _ _ _).steady)
    | with_reducible apply State.Steady.after ((State.dropLink_still _ _).steady)
    | with_reducible apply State.Steady.after ((State.clearPort_still _ _).steady)
    | with_reducible apply State.Steady.after (State.hostReset_steady _ _ _)
    | ((try lift_lets); intro x; refine State.cut_steady (x := x) ?_ ?_; (on_goal 1 => unfold x); (on_goal 2 => (clear_value x; intro _)))
    | ((try lift_lets); intro x; refine State.cut_steady (x := x.2) ?_ ?_; (on_goal 1 => unfold x); (on_goal 2 => (clear_value x; intro _)))
    | ((try lift_lets); intro x; try clear_value x)
    | intro _
    | split
    | with_reducible fail_if_no_progress apply State.Steady.after ((State.mk_still _).steady)
    | dsimp only

theorem execFlr_steady (port : PortNo) (s : State) :
    ∀ t_, execFlr port s = .next t_ → s.Steady t_ := by
  unfold execFlr
  refine State.next_steady ?_
  repeat' first
    | with_reducible refine State.ite_steady ?_ ?_
    | with_reducible refine State.ite2_steady ?_ ?_
    | with_reducible exact State.Steady.refl _
    | with_reducible assumption
    | with_reducible apply State.Steady.after ((State.clearPort_still _ _).steady)
    | with_reducible apply State.Steady.after (State.hostReset_steady _ _ _)
    | ((try lift_lets); intro x; refine State.cut_steady (x := x) ?_ ?_; (on_goal 1 => unfold x); (on_goal 2 => (clear_value x; intro _)))
    | ((try lift_lets); intro x; refine State.cut_steady (x := x.2) ?_ ?_; (on_goal 1 => unfold x); (on_goal 2 => (clear_value x; intro _)))
    | ((try lift_lets); intro x; try clear_value x)
    | intro _
    | split
    | dsimp only

theorem execLinkDown_steady (port : PortNo) (s : State) :
    ∀ t_, execLinkDown port s = .next t_ → s.Steady t_ := by
  unfold execLinkDown
  refine State.next_steady ?_
  repeat' first
    | with_reducible refine State.ite_steady ?_ ?_
    | with_reducible refine State.ite2_steady ?_ ?_
    | with_reducible exact State.Steady.refl _
    | with_reducible assumption
    | with_reducible apply State.Steady.after ((State.dropLink_still _ _).steady)
    | with_reducible apply State.Steady.after ((State.clearPort_still _ _).steady)
    | with_reducible apply State.Steady.after (State.closeOwned_steady _ _)
    | ((try lift_lets); intro x; refine State.cut_steady (x := x) ?_ ?_; (on_goal 1 => unfold x); (on_goal 2 => (clear_value x; intro _)))
    | ((try lift_lets); intro x; refine State.cut_steady (x := x.2) ?_ ?_; (on_goal 1 => unfold x); (on_goal 2 => (clear_value x; intro _)))
    | ((try lift_lets); intro x; try clear_value x)
    | intro _
    | split
    | dsimp only

theorem State.configRead_still (s : State) (reg : Nat) :
    s.Still (State.configRead s reg).2 := by
  unfold State.configRead
  repeat' first
    | with_reducible exact State.Still.refl _
    | with_reducible assumption
    | with_reducible apply State.Still.after (State.free_still _)
    | with_reducible apply State.Still.after (State.pair_still (State.free_still _) (by assumption))
    | ((try lift_lets); intro x; refine State.cut_still (x := x) ?_ ?_; (on_goal 1 => unfold x); (on_goal 2 => (clear_value x; intro _)))
    | ((try lift_lets); intro x; refine State.cut_still (x := x.2) ?_ ?_; (on_goal 1 => unfold x); (on_goal 2 => (clear_value x; intro _)))
    | ((try lift_lets); intro x; try clear_value x)
    | intro _
    | split
    | dsimp only

theorem execConfigRequest_still (port : PortNo) (req : ConfigReq) (s : State) :
    ∀ t_, execConfigRequest port req s = .next t_ → s.Still t_ := by
  unfold execConfigRequest
  refine State.next_still ?_
  repeat' first
    | with_reducible refine State.ite_still ?_ ?_
    | with_reducible refine State.ite2_still ?_ ?_
    | with_reducible exact State.Still.refl _
    | with_reducible assumption
    | with_reducible apply State.Still.after (State.emit_still _ _)
    | with_reducible apply State.Still.after (State.setPort_still _ _ _)
    | with_reducible apply State.Still.after (State.sendPending_still _ _)
    | with_reducible apply State.Still.after (State.configRead_still _ _)
    | with_reducible apply State.Still.after (State.pair_still (State.configRead_still _ _) (by assumption))
    | ((try lift_lets); intro x; refine State.cut_still (x := x) ?_ ?_; (on_goal 1 => unfold x); (on_goal 2 => (clear_value x; intro _)))
    | ((try lift_lets); intro x; refine State.cut_still (x := x.2) ?_ ?_; (on_goal 1 => unfold x); (on_goal 2 => (clear_value x; intro _)))
    | ((try lift_lets); intro x; try clear_value x)
    | intro _
    | split
    | with_reducible fail_if_no_progress apply State.Still.after (State.mk_still _)
    | dsimp only

theorem State.startApply_steady (s : State) (r : Reply) :
    s.Steady (State.startApply s r) := by
  unfold State.startApply
  repeat' first
    | with_reducible refine State.ite_steady ?_ ?_
    | with_reducible refine State.ite2_steady ?_ ?_
    | with_reducible exact State.Steady.refl _
    | with_reducible assumption
    | with_reducible apply State.Steady.after ((State.put_still _ _ _).steady)
    | with_reducible apply State.Steady.after ((State.respond_still _ _ _ _).steady)
    | with_reducible apply State.Steady.after ((State.await_still _ _ _ _).steady)
    | with_reducible apply State.Steady.after ((State.joinReset_still _ _).steady)
    | with_reducible apply State.Steady.after ((State.abortPart_still _ _ _).steady)
    | with_reducible apply State.Steady.after (State.enterPart_steady _ _)
    | ((try lift_lets); intro x; refine State.cut_steady (x := x) ?_ ?_; (on_goal 1 => unfold x); (on_goal 2 => (clear_value x; intro _)))
    | ((try lift_lets); intro x; refine State.cut_steady (x := x.2) ?_ ?_; (on_goal 1 => unfold x); (on_goal 2 => (clear_value x; intro _)))
    | ((try lift_lets); intro x; try clear_value x)
    | intro _
    | split
    | with_reducible fail_if_no_progress apply State.Steady.after ((State.mk_still _).steady)
    | dsimp only

theorem State.nextApply_steady (a0 : Nat) (s : State) :
    s.Steady (State.nextApply a0 s) := by
  induction a0 generalizing s with
  | zero => exact State.Steady.refl s
  | succ n ih =>
    unfold State.nextApply
    repeat' first
      | with_reducible refine State.ite_steady ?_ ?_
      | with_reducible refine State.ite2_steady ?_ ?_
      | cases (by assumption : n + 1 = Nat.succ _)
      | with_reducible apply State.Steady.after (ih _)
      | with_reducible exact State.Steady.refl _
      | with_reducible assumption
      | with_reducible apply State.Steady.after (State.startApply_steady _ _)
      | intro _
      | split
      | with_reducible fail_if_no_progress apply State.Steady.after ((State.mk_still _).steady)
      | dsimp only

theorem execApply_steady (acc : Access) (s : State) :
    ∀ t_, execApply acc s = .next t_ → s.Steady t_ := by
  unfold execApply
  refine State.next_steady ?_
  repeat' first
    | with_reducible refine State.ite_steady ?_ ?_
    | with_reducible refine State.ite2_steady ?_ ?_
    | with_reducible exact State.Steady.refl _
    | with_reducible assumption
    | with_reducible apply State.Steady.after ((State.await_still _ _ _ _).steady)
    | with_reducible apply State.Steady.after (State.write_steady _ _ _ ?_)
    | with_reducible apply State.Steady.after (numOp_steady ?_ _ _ _)
    | with_reducible apply State.Steady.after (State.startApply_steady _ _)
    | intro _
    | split
    | dsimp only

theorem opItemPool_still (w : Writer) (v : Nat) (s : State) :
    s.Still (opItemPool w v s).2 := by
  unfold opItemPool
  repeat' first
    | with_reducible refine State.ite_still ?_ ?_
    | with_reducible refine State.ite2_still ?_ ?_
    | with_reducible exact State.Still.refl _
    | with_reducible assumption
    | with_reducible apply State.Still.after (State.put_still _ _ _)
    | ((try lift_lets); intro x; refine State.cut_still (x := x) ?_ ?_; (on_goal 1 => unfold x); (on_goal 2 => (clear_value x; intro _)))
    | ((try lift_lets); intro x; refine State.cut_still (x := x.2) ?_ ?_; (on_goal 1 => unfold x); (on_goal 2 => (clear_value x; intro _)))
    | ((try lift_lets); intro x; try clear_value x)
    | intro _
    | split
    | dsimp only

theorem execItemPool_still (acc : Access) (s : State) :
    ∀ t_, execItemPool acc s = .next t_ → s.Still t_ := by
  unfold execItemPool
  refine State.next_still ?_
  repeat' first
    | with_reducible exact State.Still.refl _
    | with_reducible assumption
    | with_reducible apply State.Still.after (State.write_still _ _ _ ?_)
    | with_reducible apply State.Still.after (numOp_still ?_ _ _ _)
    | with_reducible apply State.Still.after (opItemPool_still _ _ _)
    | with_reducible apply State.Still.after (State.pair_still (opItemPool_still _ _ _) (by assumption))
    | intro _
    | split
    | dsimp only

theorem execPartReset_steady (acc : Access) (s : State) :
    ∀ t_, execPartReset acc s = .next t_ → s.Steady t_ := by
  unfold execPartReset
  refine State.next_steady ?_
  repeat' first
    | with_reducible refine State.ite_steady ?_ ?_
    | with_reducible refine State.ite2_steady ?_ ?_
    | with_reducible exact State.Steady.refl _
    | with_reducible assumption
    | with_reducible apply State.Steady.after ((State.await_still _ _ _ _).steady)
    | with_reducible apply State.Steady.after (State.write_steady _ _ _ ?_)
    | with_reducible apply State.Steady.after (numOp_steady ?_ _ _ _)
    | with_reducible apply State.Steady.after (State.partReset_steady _ _ _ _)
    | intro _
    | split
    | dsimp only

theorem State.claimPool_still (s : State) (p : Nat) :
    s.Still (State.claimPool s p) := by
  unfold State.claimPool
  repeat' first
    | with_reducible exact State.Still.refl _
    | with_reducible assumption
    | with_reducible apply State.Still.after (State.claim_still _ _ _ _ _ (by assumption))
    | with_reducible refine State.getD_still (State.claim_still _ _ _ _) ?_ ?_
    | ((try lift_lets); intro x; refine State.cut_still (x := x) ?_ ?_; (on_goal 1 => unfold x); (on_goal 2 => (clear_value x; intro _)))
    | ((try lift_lets); intro x; refine State.cut_still (x := x.2) ?_ ?_; (on_goal 1 => unfold x); (on_goal 2 => (clear_value x; intro _)))
    | ((try lift_lets); intro x; try clear_value x)
    | intro _
    | split
    | dsimp only

theorem State.logCauses_still (s : State) (mine : Nat → Bool) :
    s.Still (State.logCauses s mine) := by
  unfold State.logCauses
  repeat' first
    | with_reducible exact State.Still.refl _
    | with_reducible assumption
    | with_reducible apply State.Still.after (State.bootLog_still _ _ _ _)
    | with_reducible apply State.Still.after (State.foldl_still ?_ _ _)
    | with_reducible apply State.Still.after (State.foldl2_still ?_ _ _)
    | ((try lift_lets); intro x; refine State.cut_still (x := x) ?_ ?_; (on_goal 1 => unfold x); (on_goal 2 => (clear_value x; intro _)))
    | ((try lift_lets); intro x; refine State.cut_still (x := x.2) ?_ ?_; (on_goal 1 => unfold x); (on_goal 2 => (clear_value x; intro _)))
    | ((try lift_lets); intro x; try clear_value x)
    | intro _
    | split
    | with_reducible fail_if_no_progress apply State.Still.after (State.mk_still _)
    | dsimp only

theorem State.openDebug_still (s : State) :
    s.Still (State.openDebug s) := by
  unfold State.openDebug
  repeat' first
    | with_reducible refine State.ite_still ?_ ?_
    | with_reducible refine State.ite2_still ?_ ?_
    | with_reducible exact State.Still.refl _
    | with_reducible assumption
    | with_reducible apply State.Still.after (State.put_still _ _ _)
    | with_reducible apply State.Still.after (State.bootLog_still _ _ _ _)
    | with_reducible apply State.Still.after (State.answer_still _ _ _ _)
    | ((try lift_lets); intro x; refine State.cut_still (x := x) ?_ ?_; (on_goal 1 => unfold x); (on_goal 2 => (clear_value x; intro _)))
    | ((try lift_lets); intro x; refine State.cut_still (x := x.2) ?_ ?_; (on_goal 1 => unfold x); (on_goal 2 => (clear_value x; intro _)))
    | ((try lift_lets); intro x; try clear_value x)
    | intro _
    | split
    | with_reducible fail_if_no_progress apply State.Still.after (State.mk_still _)
    | dsimp only

theorem State.releasePart_steady (s : State) (p : Nat) (narrow : Bool) :
    s.Steady (State.releasePart s p narrow) := by
  unfold State.releasePart
  repeat' first
    | with_reducible refine State.ite_steady ?_ ?_
    | with_reducible refine State.ite2_steady ?_ ?_
    | with_reducible exact State.Steady.refl _
    | with_reducible assumption
    | with_reducible apply State.Steady.after ((State.occur_still _ _ _ _).steady)
    | with_reducible apply State.Steady.after ((State.setPart_still _ _ _).steady)
    | with_reducible apply State.Steady.after ((State.partEvent_still _ _ _).steady)
    | with_reducible apply State.Steady.after ((State.answer_still _ _ _ _).steady)
    | with_reducible apply State.Steady.after (State.partReset_steady _ _ _ _)
    | with_reducible apply State.Steady.after ((State.claimPool_still _ _).steady)
    | ((try lift_lets); intro x; refine State.cut_steady (x := x) ?_ ?_; (on_goal 1 => unfold x); (on_goal 2 => (clear_value x; intro _)))
    | ((try lift_lets); intro x; refine State.cut_steady (x := x.2) ?_ ?_; (on_goal 1 => unfold x); (on_goal 2 => (clear_value x; intro _)))
    | ((try lift_lets); intro x; try clear_value x)
    | intro _
    | split
    | with_reducible fail_if_no_progress apply State.Steady.after ((State.mk_still _).steady)
    | dsimp only

theorem execCoreRelease_steady (part : PartNo) (s : State) :
    ∀ t_, execCoreRelease part s = .next t_ → s.Steady t_ := by
  unfold execCoreRelease
  refine State.next_steady ?_
  repeat' first
    | with_reducible refine State.ite_steady ?_ ?_
    | with_reducible refine State.ite2_steady ?_ ?_
    | with_reducible exact State.Steady.refl _
    | with_reducible assumption
    | with_reducible apply State.Steady.after ((State.put_still _ _ _).steady)
    | with_reducible apply State.Steady.after ((State.settleRetry_still _).steady)
    | with_reducible apply State.Steady.after ((State.answer_still _ _ _ _).steady)
    | with_reducible apply State.Steady.after (State.nextApply_steady _ _)
    | with_reducible apply State.Steady.after ((State.logCauses_still _ _).steady)
    | with_reducible apply State.Steady.after ((State.openDebug_still _).steady)
    | with_reducible apply State.Steady.after (State.releasePart_steady _ _ _)
    | with_reducible apply State.Steady.after (State.foldl_steady ?_ _ _)
    | with_reducible apply State.Steady.after (State.foldl2_steady ?_ _ _)
    | ((try lift_lets); intro x; refine State.cut_steady (x := x) ?_ ?_; (on_goal 1 => unfold x); (on_goal 2 => (clear_value x; intro _)))
    | ((try lift_lets); intro x; refine State.cut_steady (x := x.2) ?_ ?_; (on_goal 1 => unfold x); (on_goal 2 => (clear_value x; intro _)))
    | ((try lift_lets); intro x; try clear_value x)
    | intro _
    | split
    | with_reducible fail_if_no_progress apply State.Steady.after ((State.mk_still _).steady)
    | dsimp only

theorem execPorRelease_steady (adc : Nat) (s : State) :
    ∀ t_, execPorRelease adc s = .next t_ → s.Steady t_ := by
  unfold execPorRelease
  refine State.next_steady ?_
  repeat' first
    | with_reducible refine State.ite_steady ?_ ?_
    | with_reducible refine State.ite2_steady ?_ ?_
    | with_reducible exact State.Steady.refl _
    | with_reducible assumption
    | with_reducible apply State.Steady.after ((State.put_still _ _ _).steady)
    | with_reducible apply State.Steady.after (State.wipe_steady _ _ _ _)
    | ((try lift_lets); intro x; refine State.cut_steady (x := x) ?_ ?_; (on_goal 1 => unfold x); (on_goal 2 => (clear_value x; intro _)))
    | ((try lift_lets); intro x; refine State.cut_steady (x := x.2) ?_ ?_; (on_goal 1 => unfold x); (on_goal 2 => (clear_value x; intro _)))
    | ((try lift_lets); intro x; try clear_value x)
    | intro _
    | split
    | with_reducible fail_if_no_progress apply State.Steady.after ((State.mk_still _).steady)
    | dsimp only

end Sys2Proof.Machine
end

