-- ==== Sys2Proof/Laws/KeepParams.lean ====
section
/-!
SUPPORT. What the operations and meanings of Machine/Params.lean keep of a state.
-/
set_option linter.unusedVariables false
set_option linter.unreachableTactic false
set_option linter.unusedTactic false
namespace Sys2Proof.Machine

theorem State.commitRec_still (s : State) (r : StoreRec) :
    s.Still (State.commitRec s r).2 := by
  unfold State.commitRec
  dsimp only
  generalize hb : (if (s.nv.program r).1 then s.nv.program r else (s.nv.program r).2.program r) = b
  have h : s.nv.svnMin ≤ b.2.svnMin := by
    subst hb
    split <;> exact Nat.le_refl _
  split
  · exact State.Still.after (State.bump_still _ _ _) (State.mkNv_still s h)
  · exact State.mkNv_still s h

theorem State.commitAll_still (s : State) (a0 : List StoreRec) :
    s.Still (State.commitAll s a0).2 := by
  induction a0 generalizing s with
  | nil => exact State.Still.refl s
  | cons r rs ih =>
    unfold State.commitAll
    dsimp only
    split
    · exact (State.commitRec_still s r).trans (ih _)
    · exact State.commitRec_still s r

theorem State.compact_still (a0 : Nat) (s : State) :
    s.Still (State.compact a0 s).2 := by
  induction a0 generalizing s with
  | zero => exact State.Still.refl s
  | succ n ih =>
    unfold State.compact
    split
    · split
      · exact State.Still.refl s
      · dsimp only
        split
        · exact State.commitAll_still s _
        · exact (State.commitAll_still s _).trans (State.Still.after (ih _)
            (State.Still.after (State.bump_still _ _ _) (State.mkNv_still _ (Nat.le_refl _))))
    · exact State.Still.refl s

theorem State.writeRec_still (s : State) (kind area : Nat) (entries : List (Nat × Bytes)) :
    s.Still (State.writeRec s kind area entries).2 := by
  unfold State.writeRec
  dsimp only
  split
  · exact State.compact_still storeSectors s
  · exact (State.compact_still storeSectors s).trans
      (State.Still.after (State.commitRec_still _ _) (State.mkNv_still _ (Nat.le_refl _)))

theorem State.storeRecord_still (s : State) (w : Writer) (kind area : Nat) (entries : List (Nat × Bytes)) :
    s.Still (State.storeRecord s w kind area entries) := by
  unfold State.storeRecord
  repeat' first
    | with_reducible refine State.ite_still ?_ ?_
    | with_reducible refine State.ite2_still ?_ ?_
    | with_reducible exact State.Still.refl _
    | with_reducible assumption
    | with_reducible apply State.Still.after (State.respond_still _ _ _ _)
    | with_reducible apply State.Still.after (State.writeRec_still _ _ _ _)
    | with_reducible apply State.Still.after (State.pair_still (State.writeRec_still _ _ _ _) (by assumption))
    | ((try lift_lets); intro x; refine State.cut_still (x := x) ?_ ?_; (on_goal 1 => unfold x); (on_goal 2 => (clear_value x; intro _)))
    | ((try lift_lets); intro x; refine State.cut_still (x := x.2) ?_ ?_; (on_goal 1 => unfold x); (on_goal 2 => (clear_value x; intro _)))
    | ((try lift_lets); intro x; try clear_value x)
    | intro _
    | split
    | dsimp only

theorem State.storeRequest_still (s : State) (w : Writer) (kind area : Nat) (entries : List (Nat × Bytes)) :
    s.Still (State.storeRequest s w kind area entries) := by
  unfold State.storeRequest
  repeat' first
    | with_reducible refine State.ite_still ?_ ?_
    | with_reducible refine State.ite2_still ?_ ?_
    | with_reducible exact State.Still.refl _
    | with_reducible assumption
    | with_reducible apply State.Still.after (State.respond_still _ _ _ _)
    | with_reducible apply State.Still.after (State.storeRecord_still _ _ _ _ _)
    | ((try lift_lets); intro x; refine State.cut_still (x := x) ?_ ?_; (on_goal 1 => unfold x); (on_goal 2 => (clear_value x; intro _)))
    | ((try lift_lets); intro x; refine State.cut_still (x := x.2) ?_ ?_; (on_goal 1 => unfold x); (on_goal 2 => (clear_value x; intro _)))
    | ((try lift_lets); intro x; try clear_value x)
    | intro _
    | split
    | dsimp only

theorem execStore_still (msg : BopMsg) (s : State) :
    ∀ t_, execStore msg s = .next t_ → s.Still t_ := by
  unfold execStore
  refine State.next_still ?_
  repeat' first
    | with_reducible exact State.Still.refl _
    | with_reducible assumption
    | with_reducible apply State.Still.after (State.serve_still _ _ _ ?_)
    | with_reducible apply State.Still.after (State.storeRequest_still _ _ _ _ _)
    | ((try lift_lets); intro x; refine State.cut_still (x := x) ?_ ?_; (on_goal 1 => unfold x); (on_goal 2 => (clear_value x; intro _)))
    | ((try lift_lets); intro x; refine State.cut_still (x := x.2) ?_ ?_; (on_goal 1 => unfold x); (on_goal 2 => (clear_value x; intro _)))
    | ((try lift_lets); intro x; try clear_value x)
    | intro _
    | split
    | dsimp only

theorem execRestoreDefaults_still (msg : BopMsg) (s : State) :
    ∀ t_, execRestoreDefaults msg s = .next t_ → s.Still t_ := by
  unfold execRestoreDefaults
  refine State.next_still ?_
  repeat' first
    | with_reducible exact State.Still.refl _
    | with_reducible assumption
    | with_reducible apply State.Still.after (State.serve_still _ _ _ ?_)
    | with_reducible apply State.Still.after (State.storeRequest_still _ _ _ _ _)
    | intro _
    | split
    | dsimp only

theorem State.storeKey_still (s : State) (slot : Nat) (key : Bytes) :
    s.Still (State.storeKey s slot key) := by
  unfold State.storeKey
  repeat' first
    | with_reducible exact State.Still.refl _
    | with_reducible assumption
    | with_reducible apply State.Still.after (State.dput_still _ _ _)
    | with_reducible apply State.Still.after (State.endSession_still _ _)
    | with_reducible apply State.Still.after (State.writeRec_still _ _ _ _)
    | with_reducible apply State.Still.after (State.pair_still (State.writeRec_still _ _ _ _) (by assumption))
    | with_reducible apply State.Still.after (State.foldl_still ?_ _ _)
    | with_reducible apply State.Still.after (State.foldl2_still ?_ _ _)
    | ((try lift_lets); intro x; refine State.cut_still (x := x) ?_ ?_; (on_goal 1 => unfold x); (on_goal 2 => (clear_value x; intro _)))
    | ((try lift_lets); intro x; refine State.cut_still (x := x.2) ?_ ?_; (on_goal 1 => unfold x); (on_goal 2 => (clear_value x; intro _)))
    | ((try lift_lets); intro x; try clear_value x)
    | intro _
    | split
    | dsimp only

theorem opKeySlot_still (w : Writer) (v : Bytes) (s : State) :
    s.Still (opKeySlot w v s).2 := by
  unfold opKeySlot
  repeat' first
    | with_reducible refine State.ite_still ?_ ?_
    | with_reducible refine State.ite2_still ?_ ?_
    | with_reducible exact State.Still.refl _
    | with_reducible assumption
    | with_reducible apply State.Still.after (State.respond_still _ _ _ _)
    | with_reducible apply State.Still.after (State.storeKey_still _ _ _)
    | ((try lift_lets); intro x; refine State.cut_still (x := x) ?_ ?_; (on_goal 1 => unfold x); (on_goal 2 => (clear_value x; intro _)))
    | ((try lift_lets); intro x; refine State.cut_still (x := x.2) ?_ ?_; (on_goal 1 => unfold x); (on_goal 2 => (clear_value x; intro _)))
    | ((try lift_lets); intro x; try clear_value x)
    | intro _
    | split
    | dsimp only

theorem execKeySlotWrite_still (acc : Access) (s : State) :
    ∀ t_, execKeySlotWrite acc s = .next t_ → s.Still t_ := by
  unfold execKeySlotWrite
  refine State.next_still ?_
  repeat' first
    | with_reducible exact State.Still.refl _
    | with_reducible assumption
    | with_reducible apply State.Still.after (State.write_still _ _ _ ?_)
    | with_reducible apply State.Still.after (opKeySlot_still _ _ _)
    | with_reducible apply State.Still.after (State.pair_still (opKeySlot_still _ _ _) (by assumption))
    | intro _
    | split
    | dsimp only

end Sys2Proof.Machine
end

