-- ==== Sys2Proof/Laws/KeepFirmware.lean ====
section
/-!
SUPPORT. What the operations and meanings of Machine/Firmware.lean keep of a state.
-/
set_option linter.unusedVariables false
set_option linter.unreachableTactic false
set_option linter.unusedTactic false
namespace Sys2Proof.Machine

theorem opFirmware_still (w : Writer) (v : Bytes) (s : State) :
    s.Still (opFirmware w v s).2 := by
  unfold opFirmware
  dsimp only
  repeat' first
    | with_reducible refine State.ite_still ?_ ?_
    | with_reducible refine State.ite2_still ?_ ?_
    | with_reducible exact State.Still.refl _
    | with_reducible assumption
    | with_reducible apply State.Still.after (State.put_still _ _ _)
    | with_reducible apply State.Still.after (State.await_still _ _ _ _)
    | with_reducible exact Nat.le_refl _
    | with_reducible exact Nat.le_max_left _ _
    | ((try lift_lets); intro x; refine State.cut_still (x := x) ?_ ?_; (on_goal 1 => unfold x); (on_goal 2 => (clear_value x; intro _)))
    | ((try lift_lets); intro x; refine State.cut_still (x := x.2) ?_ ?_; (on_goal 1 => unfold x); (on_goal 2 => (clear_value x; intro _)))
    | ((try lift_lets); intro x; try clear_value x)
    | intro _
    | split
    | with_reducible fail_if_no_progress apply State.Still.after (State.mk_still _)
    | with_reducible fail_if_no_progress apply State.Still.after (State.mkNv_still _ ?_)
    | dsimp only

theorem State.flushLog_still (s : State) :
    s.Still (State.flushLog s) := by
  unfold State.flushLog
  repeat' first
    | with_reducible exact State.Still.refl _
    | with_reducible assumption
    | with_reducible apply State.Still.after (State.bootLog_still _ _ _ _)
    | with_reducible exact Nat.le_refl _
    | with_reducible exact Nat.le_max_left _ _
    | with_reducible apply State.Still.after (State.foldl_still ?_ _ _)
    | with_reducible apply State.Still.after (State.foldl2_still ?_ _ _)
    | ((try lift_lets); intro x; refine State.cut_still (x := x) ?_ ?_; (on_goal 1 => unfold x); (on_goal 2 => (clear_value x; intro _)))
    | ((try lift_lets); intro x; refine State.cut_still (x := x.2) ?_ ?_; (on_goal 1 => unfold x); (on_goal 2 => (clear_value x; intro _)))
    | ((try lift_lets); intro x; try clear_value x)
    | intro _
    | split
    | with_reducible fail_if_no_progress apply State.Still.after (State.mk_still _)
    | with_reducible fail_if_no_progress apply State.Still.after (State.mkNv_still _ ?_)
    | dsimp only

theorem execFirmwareWritten_steady (committed : Bool) (s : State) :
    ∀ t_, execFirmwareWritten committed s = .next t_ → s.Steady t_ := by
  unfold execFirmwareWritten
  refine State.next_steady ?_
  repeat' first
    | with_reducible refine State.ite_steady ?_ ?_
    | with_reducible refine State.ite2_steady ?_ ?_
    | with_reducible exact State.Steady.refl _
    | with_reducible assumption
    | with_reducible apply State.Steady.after ((State.put_still _ _ _).steady)
    | with_reducible apply State.Steady.after ((State.bootLog_still _ _ _ _).steady)
    | with_reducible apply State.Steady.after ((State.txDone_still _).steady)
    | with_reducible apply State.Steady.after ((State.answer_still _ _ _ _).steady)
    | with_reducible apply State.Steady.after (State.sysReset_steady _ _ _)
    | with_reducible apply State.Steady.after ((State.flushLog_still _).steady)
    | with_reducible exact Nat.le_refl _
    | with_reducible exact Nat.le_max_left _ _
    | ((try lift_lets); intro x; refine State.cut_steady (x := x) ?_ ?_; (on_goal 1 => unfold x); (on_goal 2 => (clear_value x; intro _)))
    | ((try lift_lets); intro x; refine State.cut_steady (x := x.2) ?_ ?_; (on_goal 1 => unfold x); (on_goal 2 => (clear_value x; intro _)))
    | ((try lift_lets); intro x; try clear_value x)
    | intro _
    | split
    | with_reducible fail_if_no_progress apply State.Steady.after ((State.mk_still _).steady)
    | with_reducible fail_if_no_progress apply State.Steady.after ((State.mkNv_still _ ?_).steady)
    | dsimp only

theorem execSvnCommit_still (acc : Access) (s : State) :
    ∀ t_, execSvnCommit acc s = .next t_ → s.Still t_ := by
  unfold execSvnCommit
  refine State.next_still ?_
  repeat' first
    | with_reducible refine State.ite_still ?_ ?_
    | with_reducible refine State.ite2_still ?_ ?_
    | with_reducible exact State.Still.refl _
    | with_reducible assumption
    | with_reducible apply State.Still.after (State.write_still _ _ _ ?_)
    | with_reducible apply State.Still.after (numOp_still ?_ _ _ _)
    | with_reducible exact Nat.le_refl _
    | with_reducible exact Nat.le_max_left _ _
    | intro _
    | split
    | with_reducible fail_if_no_progress apply State.Still.after (State.mk_still _)
    | with_reducible fail_if_no_progress apply State.Still.after (State.mkNv_still _ ?_)
    | dsimp only

theorem opTransition_steady (w : Writer) (v : Bytes) (s : State) :
    s.Steady (opTransition w v s).2 := by
  unfold opTransition
  dsimp only
  repeat' first
    | with_reducible refine State.ite_steady ?_ ?_
    | with_reducible refine State.ite2_steady ?_ ?_
    | with_reducible exact State.Steady.refl _
    | with_reducible assumption
    | with_reducible apply State.Steady.after ((State.txDone_still _).steady)
    | with_reducible apply State.Steady.after ((State.respond_still _ _ _ _).steady)
    | with_reducible apply State.Steady.after (State.sysReset_steady _ _ _)
    | with_reducible exact Nat.le_refl _
    | with_reducible exact Nat.le_max_left _ _
    | ((try lift_lets); intro x; refine State.cut_steady (x := x) ?_ ?_; (on_goal 1 => unfold x); (on_goal 2 => (clear_value x; intro _)))
    | ((try lift_lets); intro x; refine State.cut_steady (x := x.2) ?_ ?_; (on_goal 1 => unfold x); (on_goal 2 => (clear_value x; intro _)))
    | ((try lift_lets); intro x; try clear_value x)
    | intro _
    | split
    | with_reducible fail_if_no_progress apply State.Steady.after ((State.mk_still _).steady)
    | with_reducible fail_if_no_progress apply State.Steady.after ((State.mkNv_still _ ?_).steady)
    | dsimp only

theorem execLcRequest_steady (acc : Access) (s : State) :
    ∀ t_, execLcRequest acc s = .next t_ → s.Steady t_ := by
  unfold execLcRequest
  refine State.next_steady ?_
  repeat' first
    | with_reducible exact State.Steady.refl _
    | with_reducible assumption
    | with_reducible apply State.Steady.after (State.write_steady _ _ _ ?_)
    | with_reducible apply State.Steady.after (opTransition_steady _ _ _)
    | with_reducible apply State.Steady.after (State.pair_steady (opTransition_steady _ _ _) (by assumption))
    | intro _
    | split
    | dsimp only

theorem State.grantDebug_steady (s : State) (r : Reply) :
    s.Steady (State.grantDebug s r) := by
  unfold State.grantDebug
  repeat' first
    | with_reducible exact State.Steady.refl _
    | with_reducible assumption
    | with_reducible apply State.Steady.after ((State.await_still _ _ _ _).steady)
    | with_reducible apply State.Steady.after (State.coreReset_steady _ _)
    | ((try lift_lets); intro x; refine State.cut_steady (x := x) ?_ ?_; (on_goal 1 => unfold x); (on_goal 2 => (clear_value x; intro _)))
    | ((try lift_lets); intro x; refine State.cut_steady (x := x.2) ?_ ?_; (on_goal 1 => unfold x); (on_goal 2 => (clear_value x; intro _)))
    | ((try lift_lets); intro x; try clear_value x)
    | intro _
    | split
    | with_reducible fail_if_no_progress apply State.Steady.after ((State.mk_still _).steady)
    | dsimp only

theorem execDebugUnlock_steady (acc : Access) (s : State) :
    ∀ t_, execDebugUnlock acc s = .next t_ → s.Steady t_ := by
  unfold execDebugUnlock
  refine State.next_steady ?_
  repeat' first
    | with_reducible refine State.ite_steady ?_ ?_
    | with_reducible refine State.ite2_steady ?_ ?_
    | with_reducible exact State.Steady.refl _
    | with_reducible assumption
    | with_reducible apply State.Steady.after (State.write_steady _ _ _ ?_)
    | with_reducible apply State.Steady.after (numOp_steady ?_ _ _ _)
    | with_reducible apply State.Steady.after (State.grantDebug_steady _ _)
    | ((try lift_lets); intro x; refine State.cut_steady (x := x) ?_ ?_; (on_goal 1 => unfold x); (on_goal 2 => (clear_value x; intro _)))
    | ((try lift_lets); intro x; refine State.cut_steady (x := x.2) ?_ ?_; (on_goal 1 => unfold x); (on_goal 2 => (clear_value x; intro _)))
    | ((try lift_lets); intro x; try clear_value x)
    | intro _
    | split
    | dsimp only

theorem opDebugToken_steady (w : Writer) (v : Bytes) (s : State) :
    s.Steady (opDebugToken w v s).2 := by
  unfold opDebugToken
  repeat' first
    | with_reducible refine State.ite_steady ?_ ?_
    | with_reducible refine State.ite2_steady ?_ ?_
    | with_reducible exact State.Steady.refl _
    | with_reducible assumption
    | with_reducible apply State.Steady.after (State.grantDebug_steady _ _)
    | ((try lift_lets); intro x; refine State.cut_steady (x := x) ?_ ?_; (on_goal 1 => unfold x); (on_goal 2 => (clear_value x; intro _)))
    | ((try lift_lets); intro x; refine State.cut_steady (x := x.2) ?_ ?_; (on_goal 1 => unfold x); (on_goal 2 => (clear_value x; intro _)))
    | ((try lift_lets); intro x; try clear_value x)
    | intro _
    | split
    | dsimp only

theorem execDebugToken_steady (acc : Access) (s : State) :
    ∀ t_, execDebugToken acc s = .next t_ → s.Steady t_ := by
  unfold execDebugToken
  refine State.next_steady ?_
  repeat' first
    | with_reducible exact State.Steady.refl _
    | with_reducible assumption
    | with_reducible apply State.Steady.after (State.write_steady _ _ _ ?_)
    | with_reducible apply State.Steady.after (opDebugToken_steady _ _ _)
    | with_reducible apply State.Steady.after (State.pair_steady (opDebugToken_steady _ _ _) (by assumption))
    | intro _
    | split
    | dsimp only

theorem State.report_still (s : State) (scope : Nat) (nonce : Bytes) :
    s.Still (State.report s scope nonce).2 := by
  unfold State.report
  repeat' first
    | with_reducible exact State.Still.refl _
    | with_reducible assumption
    | with_reducible apply State.Still.after (State.free_still _)
    | with_reducible apply State.Still.after (State.pair_still (State.free_still _) (by assumption))
    | ((try lift_lets); intro x; refine State.cut_still (x := x) ?_ ?_; (on_goal 1 => unfold x); (on_goal 2 => (clear_value x; intro _)))
    | ((try lift_lets); intro x; refine State.cut_still (x := x.2) ?_ ?_; (on_goal 1 => unfold x); (on_goal 2 => (clear_value x; intro _)))
    | ((try lift_lets); intro x; try clear_value x)
    | intro _
    | split
    | dsimp only

theorem execAttest_still (id : Nat) (s : State) :
    ∀ t_, execAttest id s = .next t_ → s.Still t_ := by
  unfold execAttest
  refine State.next_still ?_
  repeat' first
    | with_reducible refine State.ite_still ?_ ?_
    | with_reducible refine State.ite2_still ?_ ?_
    | with_reducible exact State.Still.refl _
    | with_reducible assumption
    | with_reducible apply State.Still.after (State.dmaWrite_still _ _ _ _ _)
    | with_reducible apply State.Still.after (State.finish_still _ _ _ _)
    | with_reducible apply State.Still.after (State.report_still _ _ _)
    | with_reducible apply State.Still.after (State.pair_still (State.report_still _ _ _) (by assumption))
    | ((try lift_lets); intro x; refine State.cut_still (x := x) ?_ ?_; (on_goal 1 => unfold x); (on_goal 2 => (clear_value x; intro _)))
    | ((try lift_lets); intro x; refine State.cut_still (x := x.2) ?_ ?_; (on_goal 1 => unfold x); (on_goal 2 => (clear_value x; intro _)))
    | ((try lift_lets); intro x; try clear_value x)
    | intro _
    | split
    | dsimp only

theorem opAttestNonce_still (x1_ : Writer) (v : Bytes) (s : State) :
    s.Still (opAttestNonce x1_ v s).2 := by
  unfold opAttestNonce
  repeat' first
    | with_reducible exact State.Still.refl _
    | with_reducible assumption
    | with_reducible apply State.Still.after (State.dput_still _ _ _)
    | with_reducible apply State.Still.after (State.report_still _ _ _)
    | with_reducible apply State.Still.after (State.pair_still (State.report_still _ _ _) (by assumption))
    | ((try lift_lets); intro x; refine State.cut_still (x := x) ?_ ?_; (on_goal 1 => unfold x); (on_goal 2 => (clear_value x; intro _)))
    | ((try lift_lets); intro x; refine State.cut_still (x := x.2) ?_ ?_; (on_goal 1 => unfold x); (on_goal 2 => (clear_value x; intro _)))
    | ((try lift_lets); intro x; try clear_value x)
    | intro _
    | split
    | dsimp only

theorem execAttestNonce_still (acc : Access) (s : State) :
    ∀ t_, execAttestNonce acc s = .next t_ → s.Still t_ := by
  unfold execAttestNonce
  refine State.next_still ?_
  repeat' first
    | with_reducible exact State.Still.refl _
    | with_reducible assumption
    | with_reducible apply State.Still.after (State.write_still _ _ _ ?_)
    | with_reducible apply State.Still.after (opAttestNonce_still _ _ _)
    | with_reducible apply State.Still.after (State.pair_still (opAttestNonce_still _ _ _) (by assumption))
    | intro _
    | split
    | dsimp only

end Sys2Proof.Machine
end

