-- ==== Sys2Proof/Laws/KeepObjects.lean ====
section
/-!
SUPPORT. What the operations and meanings of Machine/Objects.lean keep of a state.
-/
set_option linter.unusedVariables false
set_option linter.unreachableTactic false
set_option linter.unusedTactic false
namespace Sys2Proof.Machine

theorem State.objectBytes_still (s : State) (who : Principal) (k : Nat) :
    s.Still (State.objectBytes s who k).2 := by
  unfold State.objectBytes
  repeat' first
    | with_reducible refine State.ite_still ?_ ?_
    | with_reducible refine State.ite2_still ?_ ?_
    | with_reducible exact State.Still.refl _
    | with_reducible assumption
    | with_reducible apply State.Still.after (State.free_still _)
    | with_reducible apply State.Still.after (State.pair_still (State.free_still _) (by assumption))
    | ((try lift_lets); intro x; refine State.cut_still (x := x) ?_ ?_; (on_goal 1 => unfold x); (on_goal 2 => (clear_value x; intro _)))
    | ((try lift_lets); intro x; refine State.cut_still (x := x.2) ?_ ?_; (on_goal 1 => unfold x); (on_goal 2 => (clear_value x; intro _)))
    | ((try lift_lets); intro x; try clear_value x)
    | intro _
    | split
    | dsimp only

theorem execRead_still (msg : BopMsg) (s : State) :
    ∀ t_, execRead msg s = .next t_ → s.Still t_ := by
  unfold execRead
  refine State.next_still ?_
  repeat' first
    | with_reducible refine State.ite_still ?_ ?_
    | with_reducible refine State.ite2_still ?_ ?_
    | with_reducible exact State.Still.refl _
    | with_reducible assumption
    | with_reducible apply State.Still.after (State.take_still _ _ _ _ _)
    | with_reducible apply State.Still.after (State.respond_still _ _ _ _)
    | with_reducible apply State.Still.after (State.serve_still _ _ _ ?_)
    | with_reducible apply State.Still.after (State.objectBytes_still _ _ _)
    | with_reducible apply State.Still.after (State.pair_still (State.objectBytes_still _ _ _) (by assumption))
    | ((try lift_lets); intro x; refine State.cut_still (x := x) ?_ ?_; (on_goal 1 => unfold x); (on_goal 2 => (clear_value x; intro _)))
    | ((try lift_lets); intro x; refine State.cut_still (x := x.2) ?_ ?_; (on_goal 1 => unfold x); (on_goal 2 => (clear_value x; intro _)))
    | ((try lift_lets); intro x; try clear_value x)
    | intro _
    | split
    | dsimp only

theorem execOdRead_still (id : Nat) (s : State) :
    ∀ t_, execOdRead id s = .next t_ → s.Still t_ := by
  unfold execOdRead
  refine State.next_still ?_
  repeat' first
    | with_reducible refine State.ite_still ?_ ?_
    | with_reducible refine State.ite2_still ?_ ?_
    | with_reducible exact State.Still.refl _
    | with_reducible assumption
    | with_reducible apply State.Still.after (State.dmaWrite_still _ _ _ _ _)
    | with_reducible apply State.Still.after (State.finish_still _ _ _ _)
    | with_reducible apply State.Still.after (State.take_still _ _ _ _ _)
    | with_reducible apply State.Still.after (State.objectBytes_still _ _ _)
    | with_reducible apply State.Still.after (State.pair_still (State.objectBytes_still _ _ _) (by assumption))
    | ((try lift_lets); intro x; refine State.cut_still (x := x) ?_ ?_; (on_goal 1 => unfold x); (on_goal 2 => (clear_value x; intro _)))
    | ((try lift_lets); intro x; refine State.cut_still (x := x.2) ?_ ?_; (on_goal 1 => unfold x); (on_goal 2 => (clear_value x; intro _)))
    | ((try lift_lets); intro x; try clear_value x)
    | intro _
    | split
    | dsimp only

theorem opLatShare_still (x1_ : Writer) (v : Nat) (s : State) :
    s.Still (opLatShare x1_ v s).2 := by
  unfold opLatShare
  repeat' first
    | with_reducible refine State.ite_still ?_ ?_
    | with_reducible refine State.ite2_still ?_ ?_
    | with_reducible exact State.Still.refl _
    | with_reducible assumption
    | with_reducible apply State.Still.after (State.put_still _ _ _)
    | intro _
    | split
    | with_reducible fail_if_no_progress apply State.Still.after (State.mk_still _)
    | dsimp only

theorem execLatShare_still (acc : Access) (s : State) :
    ∀ t_, execLatShare acc s = .next t_ → s.Still t_ := by
  unfold execLatShare
  refine State.next_still ?_
  repeat' first
    | with_reducible exact State.Still.refl _
    | with_reducible assumption
    | with_reducible apply State.Still.after (State.write_still _ _ _ ?_)
    | with_reducible apply State.Still.after (numOp_still ?_ _ _ _)
    | with_reducible apply State.Still.after (opLatShare_still _ _ _)
    | with_reducible apply State.Still.after (State.pair_still (opLatShare_still _ _ _) (by assumption))
    | intro _
    | split
    | dsimp only

theorem execLatShareApply_still (s : State) :
    ∀ t_, execLatShareApply s = .next t_ → s.Still t_ := by
  unfold execLatShareApply
  refine State.next_still ?_
  repeat' first
    | with_reducible exact State.Still.refl _
    | with_reducible assumption
    | intro _
    | split
    | with_reducible fail_if_no_progress apply State.Still.after (State.mk_still _)
    | dsimp only

theorem opScrubPeriod_still (x1_ : Writer) (v : Nat) (s : State) :
    s.Still (opScrubPeriod x1_ v s).2 := by
  unfold opScrubPeriod
  repeat' first
    | with_reducible refine State.ite_still ?_ ?_
    | with_reducible refine State.ite2_still ?_ ?_
    | with_reducible exact State.Still.refl _
    | with_reducible assumption
    | with_reducible apply State.Still.after (State.put_still _ _ _)
    | intro _
    | split
    | dsimp only

theorem execScrubPeriodH_still (acc : Access) (s : State) :
    ∀ t_, execScrubPeriodH acc s = .next t_ → s.Still t_ := by
  unfold execScrubPeriodH
  refine State.next_still ?_
  repeat' first
    | with_reducible exact State.Still.refl _
    | with_reducible assumption
    | with_reducible apply State.Still.after (State.write_still _ _ _ ?_)
    | with_reducible apply State.Still.after (numOp_still ?_ _ _ _)
    | with_reducible apply State.Still.after (opScrubPeriod_still _ _ _)
    | with_reducible apply State.Still.after (State.pair_still (opScrubPeriod_still _ _ _) (by assumption))
    | intro _
    | split
    | dsimp only

theorem opTelemetry_still (x1_ : Writer) (v : Nat) (s : State) :
    s.Still (opTelemetry x1_ v s).2 := by
  unfold opTelemetry
  repeat' first
    | with_reducible refine State.ite_still ?_ ?_
    | with_reducible refine State.ite2_still ?_ ?_
    | with_reducible exact State.Still.refl _
    | with_reducible assumption
    | with_reducible apply State.Still.after (State.put_still _ _ _)
    | with_reducible apply State.Still.after (State.bump_still _ _ _)
    | with_reducible apply State.Still.after (State.setTimer_still _ _)
    | ((try lift_lets); intro x; refine State.cut_still (x := x) ?_ ?_; (on_goal 1 => unfold x); (on_goal 2 => (clear_value x; intro _)))
    | ((try lift_lets); intro x; refine State.cut_still (x := x.2) ?_ ?_; (on_goal 1 => unfold x); (on_goal 2 => (clear_value x; intro _)))
    | ((try lift_lets); intro x; try clear_value x)
    | intro _
    | split
    | dsimp only

theorem execTelemetryPeriod_still (acc : Access) (s : State) :
    ∀ t_, execTelemetryPeriod acc s = .next t_ → s.Still t_ := by
  unfold execTelemetryPeriod
  refine State.next_still ?_
  repeat' first
    | with_reducible exact State.Still.refl _
    | with_reducible assumption
    | with_reducible apply State.Still.after (State.write_still _ _ _ ?_)
    | with_reducible apply State.Still.after (numOp_still ?_ _ _ _)
    | with_reducible apply State.Still.after (opTelemetry_still _ _ _)
    | with_reducible apply State.Still.after (State.pair_still (opTelemetry_still _ _ _) (by assumption))
    | intro _
    | split
    | dsimp only

theorem opDebugUart_still (x1_ : Writer) (v : Nat) (s : State) :
    s.Still (opDebugUart x1_ v s).2 := by
  unfold opDebugUart
  repeat' first
    | with_reducible refine State.ite_still ?_ ?_
    | with_reducible refine State.ite2_still ?_ ?_
    | with_reducible exact State.Still.refl _
    | with_reducible assumption
    | with_reducible apply State.Still.after (State.put_still _ _ _)
    | with_reducible apply State.Still.after (State.bump_still _ _ _)
    | ((try lift_lets); intro x; refine State.cut_still (x := x) ?_ ?_; (on_goal 1 => unfold x); (on_goal 2 => (clear_value x; intro _)))
    | ((try lift_lets); intro x; refine State.cut_still (x := x.2) ?_ ?_; (on_goal 1 => unfold x); (on_goal 2 => (clear_value x; intro _)))
    | ((try lift_lets); intro x; try clear_value x)
    | intro _
    | split
    | dsimp only

theorem execDebugUartEnable_still (acc : Access) (s : State) :
    ∀ t_, execDebugUartEnable acc s = .next t_ → s.Still t_ := by
  unfold execDebugUartEnable
  refine State.next_still ?_
  repeat' first
    | with_reducible exact State.Still.refl _
    | with_reducible assumption
    | with_reducible apply State.Still.after (State.write_still _ _ _ ?_)
    | with_reducible apply State.Still.after (numOp_still ?_ _ _ _)
    | with_reducible apply State.Still.after (opDebugUart_still _ _ _)
    | with_reducible apply State.Still.after (State.pair_still (opDebugUart_still _ _ _) (by assumption))
    | intro _
    | split
    | dsimp only

theorem opSelect_still (w : Writer) (k v : Nat) (s : State) :
    s.Still (opSelect w k v s).2 := by
  unfold opSelect
  repeat' first
    | with_reducible refine State.ite_still ?_ ?_
    | with_reducible refine State.ite2_still ?_ ?_
    | with_reducible exact State.Still.refl _
    | with_reducible assumption
    | intro _
    | split
    | with_reducible fail_if_no_progress apply State.Still.after (State.mk_still _)
    | dsimp only

theorem opNumber_still (w : Writer) (k v : Nat) (s : State) :
    s.Still (opNumber w k v s).2 := by
  unfold opNumber
  repeat' first
    | with_reducible refine State.ite_still ?_ ?_
    | with_reducible refine State.ite2_still ?_ ?_
    | with_reducible exact State.Still.refl _
    | with_reducible assumption
    | with_reducible apply State.Still.after (State.put_still _ _ _)
    | with_reducible apply State.Still.after (State.setPower_still _ _)
    | with_reducible apply State.Still.after (opSelect_still _ _ _ _)
    | with_reducible apply State.Still.after (State.pair_still (opSelect_still _ _ _ _) (by assumption))
    | intro _
    | split
    | with_reducible fail_if_no_progress apply State.Still.after (State.mk_still _)
    | dsimp only

theorem opPlain_still (w : Writer) (v : Bytes) (s : State) :
    s.Still (opPlain w v s).2 := by
  unfold opPlain
  repeat' first
    | with_reducible refine State.ite_still ?_ ?_
    | with_reducible refine State.ite2_still ?_ ?_
    | with_reducible exact State.Still.refl _
    | with_reducible assumption
    | with_reducible apply State.Still.after (State.dput_still _ _ _)
    | with_reducible apply State.Still.after (opFirmware_still _ _ _)
    | with_reducible apply State.Still.after (State.pair_still (opFirmware_still _ _ _) (by assumption))
    | with_reducible apply State.Still.after (opNumber_still _ _ _ _)
    | with_reducible apply State.Still.after (State.pair_still (opNumber_still _ _ _ _) (by assumption))
    | ((try lift_lets); intro x; refine State.cut_still (x := x) ?_ ?_; (on_goal 1 => unfold x); (on_goal 2 => (clear_value x; intro _)))
    | ((try lift_lets); intro x; refine State.cut_still (x := x.2) ?_ ?_; (on_goal 1 => unfold x); (on_goal 2 => (clear_value x; intro _)))
    | ((try lift_lets); intro x; try clear_value x)
    | intro _
    | split
    | dsimp only

theorem opPortRestore_still (w : Writer) (v : Nat) (s : State) :
    s.Still (opPortRestore w v s).2 := by
  unfold opPortRestore
  repeat' first
    | with_reducible refine State.ite_still ?_ ?_
    | with_reducible refine State.ite2_still ?_ ?_
    | with_reducible exact State.Still.refl _
    | with_reducible assumption
    | with_reducible apply State.Still.after (State.put_still _ _ _)
    | intro _
    | split
    | dsimp only

theorem opObject_steady (w : Writer) (v : Bytes) (s : State) :
    s.Steady (opObject w v s).2 := by
  unfold opObject
  repeat' first
    | with_reducible refine State.ite_steady ?_ ?_
    | with_reducible refine State.ite2_steady ?_ ?_
    | with_reducible exact State.Steady.refl _
    | with_reducible assumption
    | with_reducible apply State.Steady.after (numOp_steady ?_ _ _ _)
    | with_reducible apply State.Steady.after ((opNackPeriod_still _ _ _).steady)
    | with_reducible apply State.Steady.after (State.pair_steady ((opNackPeriod_still _ _ _).steady) (by assumption))
    | with_reducible apply State.Steady.after ((opStreamOpen_still _ _ _).steady)
    | with_reducible apply State.Steady.after (State.pair_steady ((opStreamOpen_still _ _ _).steady) (by assumption))
    | with_reducible apply State.Steady.after (opDictLoad_steady _ _ _)
    | with_reducible apply State.Steady.after (State.pair_steady (opDictLoad_steady _ _ _) (by assumption))
    | with_reducible apply State.Steady.after ((opFlowOpen_still _ _ _).steady)
    | with_reducible apply State.Steady.after (State.pair_steady ((opFlowOpen_still _ _ _).steady) (by assumption))
    | with_reducible apply State.Steady.after ((opItemPool_still _ _ _).steady)
    | with_reducible apply State.Steady.after (State.pair_steady ((opItemPool_still _ _ _).steady) (by assumption))
    | with_reducible apply State.Steady.after ((opDivider_still _ _ _).steady)
    | with_reducible apply State.Steady.after (State.pair_steady ((opDivider_still _ _ _).steady) (by assumption))
    | with_reducible apply State.Steady.after ((opGate_still _ _ _).steady)
    | with_reducible apply State.Steady.after (State.pair_steady ((opGate_still _ _ _).steady) (by assumption))
    | with_reducible apply State.Steady.after ((opKeySlot_still _ _ _).steady)
    | with_reducible apply State.Steady.after (State.pair_steady ((opKeySlot_still _ _ _).steady) (by assumption))
    | with_reducible apply State.Steady.after (opTransition_steady _ _ _)
    | with_reducible apply State.Steady.after (State.pair_steady (opTransition_steady _ _ _) (by assumption))
    | with_reducible apply State.Steady.after (opDebugToken_steady _ _ _)
    | with_reducible apply State.Steady.after (State.pair_steady (opDebugToken_steady _ _ _) (by assumption))
    | with_reducible apply State.Steady.after ((opAttestNonce_still _ _ _).steady)
    | with_reducible apply State.Steady.after (State.pair_steady ((opAttestNonce_still _ _ _).steady) (by assumption))
    | with_reducible apply State.Steady.after ((opLatShare_still _ _ _).steady)
    | with_reducible apply State.Steady.after (State.pair_steady ((opLatShare_still _ _ _).steady) (by assumption))
    | with_reducible apply State.Steady.after ((opScrubPeriod_still _ _ _).steady)
    | with_reducible apply State.Steady.after (State.pair_steady ((opScrubPeriod_still _ _ _).steady) (by assumption))
    | with_reducible apply State.Steady.after ((opTelemetry_still _ _ _).steady)
    | with_reducible apply State.Steady.after (State.pair_steady ((opTelemetry_still _ _ _).steady) (by assumption))
    | with_reducible apply State.Steady.after ((opDebugUart_still _ _ _).steady)
    | with_reducible apply State.Steady.after (State.pair_steady ((opDebugUart_still _ _ _).steady) (by assumption))
    | with_reducible apply State.Steady.after ((opPlain_still _ _ _).steady)
    | with_reducible apply State.Steady.after (State.pair_steady ((opPlain_still _ _ _).steady) (by assumption))
    | with_reducible apply State.Steady.after ((opPortRestore_still _ _ _).steady)
    | with_reducible apply State.Steady.after (State.pair_steady ((opPortRestore_still _ _ _).steady) (by assumption))
    | ((try lift_lets); intro x; refine State.cut_steady (x := x) ?_ ?_; (on_goal 1 => unfold x); (on_goal 2 => (clear_value x; intro _)))
    | ((try lift_lets); intro x; refine State.cut_steady (x := x.2) ?_ ?_; (on_goal 1 => unfold x); (on_goal 2 => (clear_value x; intro _)))
    | ((try lift_lets); intro x; try clear_value x)
    | intro _
    | split
    | dsimp only

theorem execWrite_still (msg : BopMsg) (s : State) :
    ∀ t_, execWrite msg s = .next t_ → s.Still t_ := by
  unfold execWrite
  refine State.next_still ?_
  repeat' first
    | with_reducible refine State.ite_still ?_ ?_
    | with_reducible refine State.ite2_still ?_ ?_
    | with_reducible exact State.Still.refl _
    | with_reducible assumption
    | with_reducible apply State.Still.after (State.write_still _ _ _ ?_)
    | with_reducible apply State.Still.after (opPlain_still _ _ _)
    | with_reducible apply State.Still.after (State.pair_still (opPlain_still _ _ _) (by assumption))
    | intro _
    | split
    | dsimp only

theorem execOdWrite_still (id : Nat) (data : Bytes) (s : State) :
    ∀ t_, execOdWrite id data s = .next t_ → s.Still t_ := by
  unfold execOdWrite
  refine State.next_still ?_
  repeat' first
    | with_reducible exact State.Still.refl _
    | with_reducible assumption
    | with_reducible apply State.Still.after (State.write_still _ _ _ ?_)
    | with_reducible apply State.Still.after (opPlain_still _ _ _)
    | with_reducible apply State.Still.after (State.pair_still (opPlain_still _ _ _) (by assumption))
    | intro _
    | split
    | dsimp only

theorem execBlockCommit_steady (msg : BopMsg) (s : State) :
    ∀ t_, execBlockCommit msg s = .next t_ → s.Steady t_ := by
  unfold execBlockCommit
  refine State.next_steady ?_
  repeat' first
    | with_reducible refine State.ite_steady ?_ ?_
    | with_reducible refine State.ite2_steady ?_ ?_
    | with_reducible exact State.Steady.refl _
    | with_reducible assumption
    | with_reducible apply State.Steady.after ((State.respond_still _ _ _ _).steady)
    | with_reducible apply State.Steady.after (State.serve_steady _ _ _ ?_)
    | with_reducible apply State.Steady.after (State.write_steady _ _ _ ?_)
    | with_reducible apply State.Steady.after (opObject_steady _ _ _)
    | with_reducible apply State.Steady.after (State.pair_steady (opObject_steady _ _ _) (by assumption))
    | ((try lift_lets); intro x; refine State.cut_steady (x := x) ?_ ?_; (on_goal 1 => unfold x); (on_goal 2 => (clear_value x; intro _)))
    | ((try lift_lets); intro x; refine State.cut_steady (x := x.2) ?_ ?_; (on_goal 1 => unfold x); (on_goal 2 => (clear_value x; intro _)))
    | ((try lift_lets); intro x; try clear_value x)
    | intro _
    | split
    | dsimp only

end Sys2Proof.Machine
end

