-- ==== Sys2Proof/Laws/KeepBoot.lean ====
section
/-!
SUPPORT. What the operations and meanings of Machine/Boot.lean keep of a state.
-/
set_option linter.unusedVariables false
set_option linter.unreachableTactic false
set_option linter.unusedTactic false
namespace Sys2Proof.Machine

theorem State.strapDivision_still (s : State) (n : Nat) :
    s.Still (State.strapDivision s n) := by
  unfold State.strapDivision
  repeat' first
    | with_reducible exact State.Still.refl _
    | with_reducible assumption
    | with_reducible apply State.Still.after (State.put_still _ _ _)
    | with_reducible apply State.Still.after (State.foldl_still ?_ _ _)
    | with_reducible apply State.Still.after (State.foldl2_still ?_ _ _)
    | intro _
    | split
    | dsimp only

theorem State.applyStrap_still (s : State) (x : Strap) :
    s.Still (State.applyStrap s x) := by
  unfold State.applyStrap
  repeat' first
    | with_reducible refine State.ite_still ?_ ?_
    | with_reducible refine State.ite2_still ?_ ?_
    | with_reducible exact State.Still.refl _
    | with_reducible assumption
    | with_reducible apply State.Still.after (State.put_still _ _ _)
    | with_reducible apply State.Still.after (State.free_still _)
    | with_reducible apply State.Still.after (State.pair_still (State.free_still _) (by assumption))
    | with_reducible apply State.Still.after (State.strapDivision_still _ _)
    | ((try lift_lets); intro x; refine State.cut_still (x := x) ?_ ?_; (on_goal 1 => unfold x); (on_goal 2 => (clear_value x; intro _)))
    | ((try lift_lets); intro x; refine State.cut_still (x := x.2) ?_ ?_; (on_goal 1 => unfold x); (on_goal 2 => (clear_value x; intro _)))
    | ((try lift_lets); intro x; try clear_value x)
    | intro _
    | split
    | dsimp only

theorem State.startPlca_still (s : State) :
    s.Still (State.startPlca s) := by
  unfold State.startPlca
  repeat' first
    | with_reducible refine State.ite_still ?_ ?_
    | with_reducible refine State.ite2_still ?_ ?_
    | with_reducible exact State.Still.refl _
    | with_reducible assumption
    | with_reducible apply State.Still.after (State.put_still _ _ _)
    | ((try lift_lets); intro x; refine State.cut_still (x := x) ?_ ?_; (on_goal 1 => unfold x); (on_goal 2 => (clear_value x; intro _)))
    | ((try lift_lets); intro x; refine State.cut_still (x := x.2) ?_ ?_; (on_goal 1 => unfold x); (on_goal 2 => (clear_value x; intro _)))
    | ((try lift_lets); intro x; try clear_value x)
    | intro _
    | split
    | with_reducible fail_if_no_progress apply State.Still.after (State.mk_still _)
    | dsimp only

theorem State.refuseRestore_still (s : State) (k : Nat) (st : Status) :
    s.Still (State.refuseRestore s k st) := by
  unfold State.refuseRestore
  repeat' first
    | with_reducible exact State.Still.refl _
    | with_reducible assumption
    | with_reducible apply State.Still.after (State.bump_still _ _ _)
    | with_reducible apply State.Still.after (State.bootLog_still _ _ _ _)
    | intro _
    | split
    | dsimp only

theorem State.restoreOne_steady (s : State) (k : Nat) (v : Bytes) :
    s.Steady (State.restoreOne s k v) := by
  unfold State.restoreOne
  repeat' first
    | with_reducible refine State.ite_steady ?_ ?_
    | with_reducible refine State.ite2_steady ?_ ?_
    | with_reducible exact State.Steady.refl _
    | with_reducible assumption
    | with_reducible apply State.Steady.after ((State.bump_still _ _ _).steady)
    | with_reducible apply State.Steady.after (State.store_steady _ _ _ _ _ _ _ _)
    | with_reducible apply State.Steady.after (State.pair_steady (State.store_steady _ _ _ _ _ _ _ _) (by assumption))
    | with_reducible apply State.Steady.after (opObject_steady _ _ _)
    | with_reducible apply State.Steady.after (State.pair_steady (opObject_steady _ _ _) (by assumption))
    | with_reducible apply State.Steady.after ((State.refuseRestore_still _ _ _).steady)
    | ((try lift_lets); intro x; refine State.cut_steady (x := x) ?_ ?_; (on_goal 1 => unfold x); (on_goal 2 => (clear_value x; intro _)))
    | ((try lift_lets); intro x; refine State.cut_steady (x := x.2) ?_ ?_; (on_goal 1 => unfold x); (on_goal 2 => (clear_value x; intro _)))
    | ((try lift_lets); intro x; try clear_value x)
    | intro _
    | split
    | dsimp only

theorem State.restoreKeys_still (s : State) :
    s.Still (State.restoreKeys s) := by
  unfold State.restoreKeys
  repeat' first
    | with_reducible exact State.Still.refl _
    | with_reducible assumption
    | with_reducible apply State.Still.after (State.dput_still _ _ _)
    | with_reducible apply State.Still.after (State.foldl_still ?_ _ _)
    | with_reducible apply State.Still.after (State.foldl2_still ?_ _ _)
    | intro _
    | split
    | dsimp only

theorem State.startPort_still (s : State) (n : Nat) :
    s.Still (State.startPort s n) := by
  unfold State.startPort
  repeat' first
    | with_reducible refine State.ite_still ?_ ?_
    | with_reducible refine State.ite2_still ?_ ?_
    | with_reducible exact State.Still.refl _
    | with_reducible assumption
    | with_reducible apply State.Still.after (State.put_still _ _ _)
    | with_reducible apply State.Still.after (State.restorePort_still _ _)
    | with_reducible apply State.Still.after (State.pair_still (State.restorePort_still _ _) (by assumption))
    | with_reducible apply State.Still.after (State.refuseRestore_still _ _ _)
    | ((try lift_lets); intro x; refine State.cut_still (x := x) ?_ ?_; (on_goal 1 => unfold x); (on_goal 2 => (clear_value x; intro _)))
    | ((try lift_lets); intro x; refine State.cut_still (x := x.2) ?_ ?_; (on_goal 1 => unfold x); (on_goal 2 => (clear_value x; intro _)))
    | ((try lift_lets); intro x; try clear_value x)
    | intro _
    | split
    | dsimp only

theorem State.restore_steady (s : State) :
    s.Steady (State.restore s) := by
  unfold State.restore
  repeat' first
    | with_reducible exact State.Steady.refl _
    | with_reducible assumption
    | with_reducible apply State.Steady.after ((State.put_still _ _ _).steady)
    | with_reducible apply State.Steady.after ((State.claimPool_still _ _).steady)
    | with_reducible apply State.Steady.after ((State.startPlca_still _).steady)
    | with_reducible apply State.Steady.after (State.restoreOne_steady _ _ _)
    | with_reducible apply State.Steady.after ((State.restoreKeys_still _).steady)
    | with_reducible apply State.Steady.after ((State.startPort_still _ _).steady)
    | with_reducible apply State.Steady.after (State.foldl_steady ?_ _ _)
    | with_reducible apply State.Steady.after (State.foldl2_steady ?_ _ _)
    | ((try lift_lets); intro x; refine State.cut_steady (x := x) ?_ ?_; (on_goal 1 => unfold x); (on_goal 2 => (clear_value x; intro _)))
    | ((try lift_lets); intro x; refine State.cut_steady (x := x.2) ?_ ?_; (on_goal 1 => unfold x); (on_goal 2 => (clear_value x; intro _)))
    | ((try lift_lets); intro x; try clear_value x)
    | intro _
    | split
    | with_reducible fail_if_no_progress apply State.Steady.after ((State.mk_still _).steady)
    | dsimp only

theorem State.bootStart_still (s : State) :
    s.Still (State.bootStart s) := by
  unfold State.bootStart
  dsimp only
  refine State.Still.after (State.bootLog_still _ _ _ _) (State.mkNv_still s ?_)
  split <;> exact Nat.le_refl _

theorem State.freeParts_still (s : State) :
    s.Still (State.freeParts s) := by
  unfold State.freeParts
  repeat' first
    | with_reducible refine State.ite_still ?_ ?_
    | with_reducible refine State.ite2_still ?_ ?_
    | with_reducible exact State.Still.refl _
    | with_reducible assumption
    | with_reducible apply State.Still.after (State.setPart_still _ _ _)
    | with_reducible apply State.Still.after (State.settleRetry_still _)
    | with_reducible apply State.Still.after (State.foldl_still ?_ _ _)
    | with_reducible apply State.Still.after (State.foldl2_still ?_ _ _)
    | intro _
    | split
    | with_reducible fail_if_no_progress apply State.Still.after (State.mk_still _)
    | dsimp only

theorem State.enterRecovery_still (s : State) :
    s.Still (State.enterRecovery s) := by
  unfold State.enterRecovery
  repeat' first
    | with_reducible exact State.Still.refl _
    | with_reducible assumption
    | with_reducible apply State.Still.after (State.bootLog_still _ _ _ _)
    | with_reducible apply State.Still.after (State.startPlca_still _)
    | with_reducible apply State.Still.after (State.freeParts_still _)
    | ((try lift_lets); intro x; refine State.cut_still (x := x) ?_ ?_; (on_goal 1 => unfold x); (on_goal 2 => (clear_value x; intro _)))
    | ((try lift_lets); intro x; refine State.cut_still (x := x.2) ?_ ?_; (on_goal 1 => unfold x); (on_goal 2 => (clear_value x; intro _)))
    | ((try lift_lets); intro x; try clear_value x)
    | intro _
    | split
    | with_reducible fail_if_no_progress apply State.Still.after (State.mk_still _)
    | dsimp only

theorem State.loadFirmware_still (s : State) (img : Bytes) :
    s.Still (State.loadFirmware s img) := by
  unfold State.loadFirmware
  repeat' first
    | with_reducible exact State.Still.refl _
    | with_reducible assumption
    | ((try lift_lets); intro x; refine State.cut_still (x := x) ?_ ?_; (on_goal 1 => unfold x); (on_goal 2 => (clear_value x; intro _)))
    | ((try lift_lets); intro x; refine State.cut_still (x := x.2) ?_ ?_; (on_goal 1 => unfold x); (on_goal 2 => (clear_value x; intro _)))
    | ((try lift_lets); intro x; try clear_value x)
    | intro _
    | split
    | with_reducible fail_if_no_progress apply State.Still.after (State.mk_still _)
    | dsimp only

theorem State.endTransition_still (s : State) :
    s.Still (State.endTransition s) := by
  unfold State.endTransition
  repeat' first
    | with_reducible exact State.Still.refl _
    | with_reducible assumption
    | with_reducible apply State.Still.after (State.bootLog_still _ _ _ _)
    | with_reducible apply State.Still.after (State.storeKey_still _ _ _)
    | ((try lift_lets); intro x; refine State.cut_still (x := x) ?_ ?_; (on_goal 1 => unfold x); (on_goal 2 => (clear_value x; intro _)))
    | ((try lift_lets); intro x; refine State.cut_still (x := x.2) ?_ ?_; (on_goal 1 => unfold x); (on_goal 2 => (clear_value x; intro _)))
    | ((try lift_lets); intro x; try clear_value x)
    | intro _
    | split
    | with_reducible fail_if_no_progress apply State.Still.after (State.mk_still _)
    | dsimp only

theorem State.configurePins_still (s : State) :
    s.Still (State.configurePins s) := by
  unfold State.configurePins
  repeat' first
    | with_reducible exact State.Still.refl _
    | with_reducible assumption
    | with_reducible apply State.Still.after (State.cage_still _ _ _ _)
    | intro _
    | split
    | dsimp only

theorem State.startFirmware_steady (s : State) :
    s.Steady (State.startFirmware s) := by
  unfold State.startFirmware
  repeat' first
    | with_reducible exact State.Steady.refl _
    | with_reducible assumption
    | with_reducible apply State.Steady.after ((State.logCauses_still _ _).steady)
    | with_reducible apply State.Steady.after (State.restore_steady _)
    | with_reducible apply State.Steady.after ((State.freeParts_still _).steady)
    | with_reducible apply State.Steady.after ((State.endTransition_still _).steady)
    | with_reducible apply State.Steady.after ((State.configurePins_still _).steady)
    | intro _
    | split
    | dsimp only

theorem execBoot_steady (s : State) :
    ∀ t_, execBoot s = .next t_ → s.Steady t_ := by
  unfold execBoot
  refine State.next_steady ?_
  repeat' first
    | with_reducible refine State.ite_steady ?_ ?_
    | with_reducible refine State.ite2_steady ?_ ?_
    | with_reducible exact State.Steady.refl _
    | with_reducible assumption
    | with_reducible apply State.Steady.after ((State.free_still _).steady)
    | with_reducible apply State.Steady.after (State.pair_steady ((State.free_still _).steady) (by assumption))
    | with_reducible apply State.Steady.after ((State.bootLog_still _ _ _ _).steady)
    | with_reducible apply State.Steady.after ((State.applyStrap_still _ _).steady)
    | with_reducible apply State.Steady.after ((State.startPlca_still _).steady)
    | with_reducible apply State.Steady.after ((State.bootStart_still _).steady)
    | with_reducible apply State.Steady.after ((State.enterRecovery_still _).steady)
    | with_reducible apply State.Steady.after ((State.loadFirmware_still _ _).steady)
    | with_reducible apply State.Steady.after (State.startFirmware_steady _)
    | ((try lift_lets); intro x; refine State.cut_steady (x := x) ?_ ?_; (on_goal 1 => unfold x); (on_goal 2 => (clear_value x; intro _)))
    | ((try lift_lets); intro x; refine State.cut_steady (x := x.2) ?_ ?_; (on_goal 1 => unfold x); (on_goal 2 => (clear_value x; intro _)))
    | ((try lift_lets); intro x; try clear_value x)
    | intro _
    | split
    | with_reducible fail_if_no_progress apply State.Steady.after ((State.mk_still _).steady)
    | dsimp only

end Sys2Proof.Machine
end

