-- ==== Sys2Proof/Laws/KeepScaler.lean ====
section
/-!
SUPPORT. What the operations and meanings of Machine/Scaler.lean keep of a state.
-/
set_option linter.unusedVariables false
set_option linter.unreachableTactic false
set_option linter.unusedTactic false
namespace Sys2Proof.Machine

theorem State.setScl_fixed (s : State) (x : Scaler) : s.Fixed (s.setScl x) := State.scl_fixed s x

theorem execSample_fixed (rawV rawI degC : Int) (s : State) :
    ∀ t_, execSample rawV rawI degC s = .next t_ → s.Fixed t_ := by
  unfold execSample
  refine State.next_fixed ?_
  repeat' first
    | with_reducible refine State.ite_fixed ?_ ?_
    | with_reducible refine State.ite2_fixed ?_ ?_
    | with_reducible exact State.Fixed.refl _
    | with_reducible assumption
    | with_reducible apply State.Fixed.after (State.setScl_fixed _ _)
    | ((try lift_lets); intro x; refine State.cut_fixed (x := x) ?_ ?_; (on_goal 1 => unfold x); (on_goal 2 => (clear_value x; intro _)))
    | ((try lift_lets); intro x; refine State.cut_fixed (x := x.2) ?_ ?_; (on_goal 1 => unfold x); (on_goal 2 => (clear_value x; intro _)))
    | ((try lift_lets); intro x; try clear_value x)
    | intro _
    | split
    | with_reducible fail_if_no_progress apply State.Fixed.after ((State.mk_still _).fixed)
    | dsimp only

theorem execIntervalClose_fixed (s : State) :
    ∀ t_, execIntervalClose s = .next t_ → s.Fixed t_ := by
  unfold execIntervalClose
  refine State.next_fixed ?_
  repeat' first
    | with_reducible refine State.ite_fixed ?_ ?_
    | with_reducible refine State.ite2_fixed ?_ ?_
    | with_reducible exact State.Fixed.refl _
    | with_reducible assumption
    | with_reducible apply State.Fixed.after (State.setScl_fixed _ _)
    | intro _
    | split
    | dsimp only

theorem State.sendRecords_still (s : State) (ns : List Nat) :
    s.Still (State.sendRecords s ns) := by
  unfold State.sendRecords
  repeat' first
    | with_reducible refine State.ite_still ?_ ?_
    | with_reducible refine State.ite2_still ?_ ?_
    | with_reducible exact State.Still.refl _
    | with_reducible assumption
    | with_reducible apply State.Still.after (State.emit_still _ _)
    | with_reducible apply State.Still.after (State.foldl_still ?_ _ _)
    | with_reducible apply State.Still.after (State.foldl2_still ?_ _ _)
    | intro _
    | split
    | dsimp only

theorem execStatusFrame_fixed (s : State) :
    ∀ t_, execStatusFrame s = .next t_ → s.Fixed t_ := by
  unfold execStatusFrame
  refine State.next_fixed ?_
  repeat' first
    | with_reducible refine State.ite_fixed ?_ ?_
    | with_reducible refine State.ite2_fixed ?_ ?_
    | with_reducible exact State.Fixed.refl _
    | with_reducible assumption
    | with_reducible apply State.Fixed.after ((State.emit_still _ _).fixed)
    | with_reducible apply State.Fixed.after (State.setScl_fixed _ _)
    | with_reducible apply State.Fixed.after ((State.sendRecords_still _ _).fixed)
    | ((try lift_lets); intro x; refine State.cut_fixed (x := x) ?_ ?_; (on_goal 1 => unfold x); (on_goal 2 => (clear_value x; intro _)))
    | ((try lift_lets); intro x; refine State.cut_fixed (x := x.2) ?_ ?_; (on_goal 1 => unfold x); (on_goal 2 => (clear_value x; intro _)))
    | ((try lift_lets); intro x; try clear_value x)
    | intro _
    | split
    | with_reducible fail_if_no_progress apply State.Fixed.after ((State.mk_still _).fixed)
    | dsimp only

theorem execRecordCommit_fixed (s : State) :
    ∀ t_, execRecordCommit s = .next t_ → s.Fixed t_ := by
  unfold execRecordCommit
  refine State.next_fixed ?_
  repeat' first
    | with_reducible refine State.ite_fixed ?_ ?_
    | with_reducible refine State.ite2_fixed ?_ ?_
    | with_reducible exact State.Fixed.refl _
    | with_reducible assumption
    | with_reducible apply State.Fixed.after (State.setScl_fixed _ _)
    | with_reducible apply State.Fixed.after ((State.sendRecords_still _ _).fixed)
    | ((try lift_lets); intro x; refine State.cut_fixed (x := x) ?_ ?_; (on_goal 1 => unfold x); (on_goal 2 => (clear_value x; intro _)))
    | ((try lift_lets); intro x; refine State.cut_fixed (x := x.2) ?_ ?_; (on_goal 1 => unfold x); (on_goal 2 => (clear_value x; intro _)))
    | ((try lift_lets); intro x; try clear_value x)
    | intro _
    | split
    | with_reducible fail_if_no_progress apply State.Fixed.after ((State.mk_still _).fixed)
    | dsimp only

theorem execCheckpoint_fixed (s : State) :
    ∀ t_, execCheckpoint s = .next t_ → s.Fixed t_ := by
  unfold execCheckpoint
  refine State.next_fixed ?_
  repeat' first
    | with_reducible refine State.ite_fixed ?_ ?_
    | with_reducible refine State.ite2_fixed ?_ ?_
    | with_reducible exact State.Fixed.refl _
    | with_reducible assumption
    | with_reducible apply State.Fixed.after (State.setScl_fixed _ _)
    | ((try lift_lets); intro x; refine State.cut_fixed (x := x) ?_ ?_; (on_goal 1 => unfold x); (on_goal 2 => (clear_value x; intro _)))
    | ((try lift_lets); intro x; refine State.cut_fixed (x := x.2) ?_ ?_; (on_goal 1 => unfold x); (on_goal 2 => (clear_value x; intro _)))
    | ((try lift_lets); intro x; try clear_value x)
    | intro _
    | split
    | with_reducible fail_if_no_progress apply State.Fixed.after ((State.mk_still _).fixed)
    | dsimp only

theorem execFinalCheckpoint_fixed (s : State) :
    ∀ t_, execFinalCheckpoint s = .next t_ → s.Fixed t_ := by
  unfold execFinalCheckpoint
  refine State.next_fixed ?_
  repeat' first
    | with_reducible refine State.ite_fixed ?_ ?_
    | with_reducible refine State.ite2_fixed ?_ ?_
    | with_reducible exact State.Fixed.refl _
    | with_reducible assumption
    | with_reducible apply State.Fixed.after (State.setScl_fixed _ _)
    | ((try lift_lets); intro x; refine State.cut_fixed (x := x) ?_ ?_; (on_goal 1 => unfold x); (on_goal 2 => (clear_value x; intro _)))
    | ((try lift_lets); intro x; refine State.cut_fixed (x := x.2) ?_ ?_; (on_goal 1 => unfold x); (on_goal 2 => (clear_value x; intro _)))
    | ((try lift_lets); intro x; try clear_value x)
    | intro _
    | split
    | with_reducible fail_if_no_progress apply State.Fixed.after ((State.mk_still _).fixed)
    | dsimp only

theorem execScalerPowerUp_fixed (s : State) :
    ∀ t_, execScalerPowerUp s = .next t_ → s.Fixed t_ := by
  unfold execScalerPowerUp
  refine State.next_fixed ?_
  repeat' first
    | with_reducible refine State.ite_fixed ?_ ?_
    | with_reducible refine State.ite2_fixed ?_ ?_
    | with_reducible exact State.Fixed.refl _
    | with_reducible assumption
    | with_reducible apply State.Fixed.after (State.setScl_fixed _ _)
    | ((try lift_lets); intro x; refine State.cut_fixed (x := x) ?_ ?_; (on_goal 1 => unfold x); (on_goal 2 => (clear_value x; intro _)))
    | ((try lift_lets); intro x; refine State.cut_fixed (x := x.2) ?_ ?_; (on_goal 1 => unfold x); (on_goal 2 => (clear_value x; intro _)))
    | ((try lift_lets); intro x; try clear_value x)
    | intro _
    | split
    | with_reducible fail_if_no_progress apply State.Fixed.after ((State.mk_still _).fixed)
    | dsimp only

theorem execWorkFrameSend_still (s : State) :
    ∀ t_, execWorkFrameSend s = .next t_ → s.Still t_ := by
  unfold execWorkFrameSend
  refine State.next_still ?_
  refine State.ite_still (State.Still.refl _) ?_
  refine State.Still.after (State.emit_still _ _) ?_
  exact ⟨⟨⟨rfl, id, List.suffix_refl _, Nat.le_add_right _ _, Nat.le_refl _⟩, rfl⟩, rfl, rfl⟩

theorem execWorkFrame_fixed (frame : Bytes) (s : State) :
    ∀ t_, execWorkFrame frame s = .next t_ → s.Fixed t_ := by
  unfold execWorkFrame
  refine State.next_fixed ?_
  repeat' first
    | with_reducible refine State.ite_fixed ?_ ?_
    | with_reducible refine State.ite2_fixed ?_ ?_
    | with_reducible exact State.Fixed.refl _
    | with_reducible assumption
    | with_reducible apply State.Fixed.after ((State.emit_still _ _).fixed)
    | with_reducible apply State.Fixed.after ((State.take_still _ _ _ _ _).fixed)
    | with_reducible apply State.Fixed.after (State.setScl_fixed _ _)
    | with_reducible apply State.Fixed.after ((State.sendRecords_still _ _).fixed)
    | with_reducible apply State.Fixed.after (State.foldl_fixed ?_ _ _)
    | with_reducible apply State.Fixed.after (State.foldl2_fixed ?_ _ _)
    | ((try lift_lets); intro x; refine State.cut_fixed (x := x) ?_ ?_; (on_goal 1 => unfold x); (on_goal 2 => (clear_value x; intro _)))
    | ((try lift_lets); intro x; refine State.cut_fixed (x := x.2) ?_ ?_; (on_goal 1 => unfold x); (on_goal 2 => (clear_value x; intro _)))
    | ((try lift_lets); intro x; try clear_value x)
    | intro _
    | split
    | with_reducible fail_if_no_progress apply State.Fixed.after ((State.mk_still _).fixed)
    | dsimp only

theorem State.audit_fixed (s : State) (kind old new : Nat) :
    s.Fixed (State.audit s kind old new) := by
  unfold State.audit
  repeat' first
    | with_reducible exact State.Fixed.refl _
    | with_reducible assumption
    | with_reducible apply State.Fixed.after ((State.emit_still _ _).fixed)
    | with_reducible apply State.Fixed.after ((State.take_still _ _ _ _ _).fixed)
    | with_reducible apply State.Fixed.after (State.setScl_fixed _ _)
    | ((try lift_lets); intro x; refine State.cut_fixed (x := x) ?_ ?_; (on_goal 1 => unfold x); (on_goal 2 => (clear_value x; intro _)))
    | ((try lift_lets); intro x; refine State.cut_fixed (x := x.2) ?_ ?_; (on_goal 1 => unfold x); (on_goal 2 => (clear_value x; intro _)))
    | ((try lift_lets); intro x; try clear_value x)
    | intro _
    | split
    | with_reducible fail_if_no_progress apply State.Fixed.after ((State.mk_still _).fixed)
    | dsimp only

theorem execSealChange_fixed (s : State) :
    ∀ t_, execSealChange s = .next t_ → s.Fixed t_ := by
  unfold execSealChange
  refine State.next_fixed ?_
  repeat' first
    | with_reducible refine State.ite_fixed ?_ ?_
    | with_reducible refine State.ite2_fixed ?_ ?_
    | with_reducible exact State.Fixed.refl _
    | with_reducible assumption
    | with_reducible apply State.Fixed.after (State.setScl_fixed _ _)
    | with_reducible apply State.Fixed.after (State.audit_fixed _ _ _ _)
    | intro _
    | split
    | with_reducible fail_if_no_progress apply State.Fixed.after ((State.mk_still _).fixed)
    | dsimp only

theorem State.sealedChange_fixed (s : State) (kind old new : Nat) (apply : Scaler → Scaler) :
    s.Fixed (State.sealedChange s kind old new apply) := by
  unfold State.sealedChange
  repeat' first
    | with_reducible exact State.Fixed.refl _
    | with_reducible assumption
    | with_reducible apply State.Fixed.after (State.setScl_fixed _ _)
    | with_reducible apply State.Fixed.after (State.audit_fixed _ _ _ _)
    | ((try lift_lets); intro x; refine State.cut_fixed (x := x) ?_ ?_; (on_goal 1 => unfold x); (on_goal 2 => (clear_value x; intro _)))
    | ((try lift_lets); intro x; refine State.cut_fixed (x := x.2) ?_ ?_; (on_goal 1 => unfold x); (on_goal 2 => (clear_value x; intro _)))
    | ((try lift_lets); intro x; try clear_value x)
    | intro _
    | split
    | with_reducible fail_if_no_progress apply State.Fixed.after ((State.mk_still _).fixed)
    | dsimp only

theorem execServiceWrite_fixed (index sub : Nat) (value : Bytes) (s : State) :
    ∀ t_, execServiceWrite index sub value s = .next t_ → s.Fixed t_ := by
  unfold execServiceWrite
  refine State.next_fixed ?_
  repeat' first
    | with_reducible refine State.ite_fixed ?_ ?_
    | with_reducible refine State.ite2_fixed ?_ ?_
    | with_reducible exact State.Fixed.refl _
    | with_reducible assumption
    | with_reducible apply State.Fixed.after ((State.emit_still _ _).fixed)
    | with_reducible apply State.Fixed.after (State.sealedChange_fixed _ _ _ _ _)
    | ((try lift_lets); intro x; refine State.cut_fixed (x := x) ?_ ?_; (on_goal 1 => unfold x); (on_goal 2 => (clear_value x; intro _)))
    | ((try lift_lets); intro x; refine State.cut_fixed (x := x.2) ?_ ?_; (on_goal 1 => unfold x); (on_goal 2 => (clear_value x; intro _)))
    | ((try lift_lets); intro x; try clear_value x)
    | intro _
    | split
    | with_reducible fail_if_no_progress apply State.Fixed.after ((State.mk_still _).fixed)
    | dsimp only

theorem execServiceRead_still (index sub off len : Nat) (s : State) :
    ∀ t_, execServiceRead index sub off len s = .next t_ → s.Still t_ := by
  unfold execServiceRead
  refine State.next_still ?_
  repeat' first
    | with_reducible refine State.ite_still ?_ ?_
    | with_reducible refine State.ite2_still ?_ ?_
    | with_reducible exact State.Still.refl _
    | with_reducible assumption
    | with_reducible apply State.Still.after (State.emit_still _ _)
    | with_reducible apply State.Still.after (State.take_still _ _ _ _ _)
    | intro _
    | split
    | dsimp only

theorem State.mirrorStatus_still (s : State) (b : Bytes) :
    s.Still (State.mirrorStatus s b) := by
  unfold State.mirrorStatus
  repeat' first
    | with_reducible refine State.ite_still ?_ ?_
    | with_reducible refine State.ite2_still ?_ ?_
    | with_reducible exact State.Still.refl _
    | with_reducible assumption
    | with_reducible apply State.Still.after (State.put_still _ _ _)
    | with_reducible apply State.Still.after (State.dput_still _ _ _)
    | with_reducible apply State.Still.after (State.occur_still _ _ _ _)
    | ((try lift_lets); intro x; refine State.cut_still (x := x) ?_ ?_; (on_goal 1 => unfold x); (on_goal 2 => (clear_value x; intro _)))
    | ((try lift_lets); intro x; refine State.cut_still (x := x.2) ?_ ?_; (on_goal 1 => unfold x); (on_goal 2 => (clear_value x; intro _)))
    | ((try lift_lets); intro x; try clear_value x)
    | intro _
    | split
    | with_reducible fail_if_no_progress apply State.Still.after (State.mk_still _)
    | dsimp only

theorem execRecordLinkFrame_still (frame : Bytes) (s : State) :
    ∀ t_, execRecordLinkFrame frame s = .next t_ → s.Still t_ := by
  unfold execRecordLinkFrame
  refine State.next_still ?_
  repeat' first
    | with_reducible refine State.ite_still ?_ ?_
    | with_reducible refine State.ite2_still ?_ ?_
    | with_reducible exact State.Still.refl _
    | with_reducible assumption
    | with_reducible apply State.Still.after (State.put_still _ _ _)
    | with_reducible apply State.Still.after (State.dput_still _ _ _)
    | with_reducible apply State.Still.after (State.mirrorStatus_still _ _)
    | ((try lift_lets); intro x; refine State.cut_still (x := x) ?_ ?_; (on_goal 1 => unfold x); (on_goal 2 => (clear_value x; intro _)))
    | ((try lift_lets); intro x; refine State.cut_still (x := x.2) ?_ ?_; (on_goal 1 => unfold x); (on_goal 2 => (clear_value x; intro _)))
    | ((try lift_lets); intro x; try clear_value x)
    | intro _
    | split
    | with_reducible fail_if_no_progress apply State.Still.after (State.mk_still _)
    | dsimp only

end Sys2Proof.Machine
end

