-- ==== Sys2Proof/Laws/Told.lean ====
section
/-!
SUPPORT. The relation Told: what answers and completions change of a state.
-/
set_option linter.unusedVariables false
set_option linter.unreachableTactic false
set_option linter.unusedTactic false
namespace Sys2Proof.Machine

theorem State.Told.refl (s : State) : s.Told s := ⟨rfl, fun _ _ => rfl⟩

theorem State.Told.trans {r s t : State} (a : r.Told s) (b : s.Told t) : r.Told t := by
  refine ⟨?_, fun k hk => (b.2 k hk).trans (a.2 k hk)⟩
  rw [b.1, a.1]

/-- An update of the fields that an answer may change. -/
theorem State.mk_told (s : State) {ports_ : Vector HostPort 2} {cmds_ : List Cmd} {regions_ : List (Nat × (Nat × Nat))} {mgmt_ : Mgmt} {out_ :
    List Output} :
    s.Told (State.mk s.ticks s.od s.dom s.div s.mem s.flips s.lbuf s.sram s.vaults s.stands s.repairs s.repairPass
    s.repairQueue s.errLog s.wipes ports_ cmds_ s.nextId s.parts s.rltReqs s.nextReq s.cores s.prefetched
    s.nextBorn s.engines s.laneHeads s.down s.lanes s.freed s.klib s.nets regions_ mgmt_ s.nv s.boot s.resets
    s.blockResets s.clk s.pwr s.scl s.mirror s.work s.workSeq s.workAt s.statusAt s.fresh out_ s.pending) := ⟨rfl, fun _ _ => rfl⟩

theorem answerKey_fallback : answerKey Ob.PLCA_FALLBACKS := .inl rfl

theorem answerKey_lost (p : Nat) : answerKey (at_ Ob.LOST_COMPLETIONS p) := .inr ⟨p, .inl rfl⟩

theorem answerKey_held (p : Nat) : answerKey (at_ Ob.HELD_COMPLETIONS p) := .inr ⟨p, .inr rfl⟩

/-- A counter that an answer may raise. -/
theorem State.bump_told (s : State) (k n : Nat) (h : answerKey k) : s.Told (s.bump k n) := by
  refine ⟨rfl, fun j hj => ?_⟩
  have hne : j ≠ k := fun e => hj (e ▸ h)
  unfold State.bump State.put State.get
  rw [look_setAt_ne _ _ hne]

theorem State.Told.after {r s t : State} (b : s.Told t) (a : r.Told s) : r.Told t := a.trans b

theorem State.ite_told {c : Prop} [Decidable c] {s a b : State} (ha : s.Told a) (hb : s.Told b) : s.Told (if c then a else b) := by
  split
  · exact ha
  · exact hb

theorem State.ite2_told {α : Type} {c : Prop} [Decidable c] {s : State} {a b : α × State} (ha : s.Told a.2) (hb : s.Told b.2) :
    s.Told (if c then a else b).2 := by
  split
  · exact ha
  · exact hb

theorem State.cut_told {s x t : State} (a : s.Told x) (b : s.Told x → s.Told t) : s.Told t := b a

theorem State.getD_told {r s d : State} {o : Option State} (h : ∀ t, o = some t → s.Told t) (hs : r.Told s) (hd : r.Told d) :
    r.Told (o.getD d) := by
  cases o with
  | none => exact hd
  | some t => exact hs.trans (h t rfl)

theorem State.next_told {s u : State} (h : s.Told u) :
    ∀ t, (Host.Outcome.next u : Host.Outcome State Fault Refusal) = .next t → s.Told t := by
  intro t e
  injection e with e
  exact e ▸ h

theorem State.pair_told {α : Type} {s t : State} {a : α} {p : α × State} (h : s.Told p.2) (e : p = (a, t)) : s.Told t := by
  subst e
  exact h

theorem State.foldl_told {α : Type} {g : State → α → State} (h : ∀ (t : State) (x : α), t.Told (g t x)) (l : List α)
    (s : State) : s.Told (l.foldl g s) := by
  induction l generalizing s with
  | nil => exact State.Told.refl s
  | cons x l ih => exact (h s x).trans (ih (g s x))

theorem State.foldl2_told {α β : Type} {g : β × State → α → β × State} (h : ∀ (a : β × State) (x : α), a.2.Told (g a x).2)
    (l : List α) (a : β × State) : a.2.Told (l.foldl g a).2 := by
  induction l generalizing a with
  | nil => exact State.Told.refl _
  | cons x l ih => exact (h a x).trans (ih (g a x))

theorem State.foldlBy_told {α σ : Type} (p : σ → State) {g : σ → α → σ} (h : ∀ (a : σ) (x : α), (p a).Told (p (g a x)))
    (l : List α) (a : σ) : (p a).Told (p (l.foldl g a)) := by
  induction l generalizing a with
  | nil => exact State.Told.refl _
  | cons x l ih => exact (h a x).trans (ih (g a x))

theorem State.emit_told (s : State) (o : Output) :
    s.Told (State.emit s o) := by
  exact State.mk_told s

theorem State.setPort_told (s : State) (p : Nat) (x : HostPort) :
    s.Told (State.setPort s p x) := by
  unfold State.setPort
  repeat' first
    | with_reducible refine State.ite_told ?_ ?_
    | with_reducible refine State.ite2_told ?_ ?_
    | with_reducible exact State.Told.refl _
    | with_reducible assumption
    | intro _
    | split
    | with_reducible fail_if_no_progress apply State.Told.after (State.mk_told _)
    | dsimp only

theorem State.msix_told (s : State) (p v : Nat) :
    s.Told (State.msix s p v) := by
  unfold State.msix
  repeat' first
    | with_reducible refine State.ite_told ?_ ?_
    | with_reducible refine State.ite2_told ?_ ?_
    | with_reducible exact State.Told.refl _
    | with_reducible assumption
    | with_reducible apply State.Told.after (State.emit_told _ _)
    | with_reducible apply State.Told.after (State.setPort_told _ _ _)
    | ((try lift_lets); intro x; refine State.cut_told (x := x) ?_ ?_; (on_goal 1 => unfold x); (on_goal 2 => (clear_value x; intro _)))
    | ((try lift_lets); intro x; refine State.cut_told (x := x.2) ?_ ?_; (on_goal 1 => unfold x); (on_goal 2 => (clear_value x; intro _)))
    | ((try lift_lets); intro x; try clear_value x)
    | intro _
    | split
    | with_reducible fail_if_no_progress apply State.Told.after (State.mk_told _)
    | dsimp only

theorem State.portEvent_told (s : State) (p bit : Nat) :
    s.Told (State.portEvent s p bit) := by
  unfold State.portEvent
  repeat' first
    | with_reducible refine State.ite_told ?_ ?_
    | with_reducible refine State.ite2_told ?_ ?_
    | with_reducible exact State.Told.refl _
    | with_reducible assumption
    | with_reducible apply State.Told.after (State.setPort_told _ _ _)
    | with_reducible apply State.Told.after (State.msix_told _ _ _)
    | ((try lift_lets); intro x; refine State.cut_told (x := x) ?_ ?_; (on_goal 1 => unfold x); (on_goal 2 => (clear_value x; intro _)))
    | ((try lift_lets); intro x; refine State.cut_told (x := x.2) ?_ ?_; (on_goal 1 => unfold x); (on_goal 2 => (clear_value x; intro _)))
    | ((try lift_lets); intro x; try clear_value x)
    | intro _
    | split
    | with_reducible fail_if_no_progress apply State.Told.after (State.mk_told _)
    | dsimp only

theorem State.setCmd_told (s : State) (c : Cmd) :
    s.Told (State.setCmd s c) := by
  unfold State.setCmd
  repeat' first
    | with_reducible refine State.ite_told ?_ ?_
    | with_reducible refine State.ite2_told ?_ ?_
    | with_reducible exact State.Told.refl _
    | with_reducible assumption
    | intro _
    | split
    | with_reducible fail_if_no_progress apply State.Told.after (State.mk_told _)
    | dsimp only

theorem State.hostOut_told (s : State) (p addr : Nat) (bs : Bytes) :
    s.Told (State.hostOut s p addr bs) := by
  unfold State.hostOut
  repeat' first
    | with_reducible exact State.Told.refl _
    | with_reducible assumption
    | with_reducible apply State.Told.after (State.emit_told _ _)
    | with_reducible apply State.Told.after (State.foldl_told ?_ _ _)
    | with_reducible apply State.Told.after (State.foldl2_told ?_ _ _)
    | intro _
    | split
    | dsimp only

theorem State.setCpl_told (s : State) (p r : Nat) (x : CplRing) :
    s.Told (State.setCpl s p r x) := by
  unfold State.setCpl
  repeat' first
    | with_reducible exact State.Told.refl _
    | with_reducible assumption
    | with_reducible apply State.Told.after (State.setPort_told _ _ _)
    | intro _
    | split
    | with_reducible fail_if_no_progress apply State.Told.after (State.mk_told _)
    | dsimp only

theorem State.setRing_told (s : State) (p r : Nat) (x : CmdRing) :
    s.Told (State.setRing s p r x) := by
  unfold State.setRing
  repeat' first
    | with_reducible exact State.Told.refl _
    | with_reducible assumption
    | with_reducible apply State.Told.after (State.setPort_told _ _ _)
    | intro _
    | split
    | with_reducible fail_if_no_progress apply State.Told.after (State.mk_told _)
    | dsimp only

theorem State.ringMessage_told (s : State) (p r : Nat) :
    s.Told (State.ringMessage s p r) := by
  unfold State.ringMessage
  repeat' first
    | with_reducible exact State.Told.refl _
    | with_reducible assumption
    | with_reducible apply State.Told.after (State.msix_told _ _ _)
    | with_reducible apply State.Told.after (State.setCpl_told _ _ _ _)
    | ((try lift_lets); intro x; refine State.cut_told (x := x) ?_ ?_; (on_goal 1 => unfold x); (on_goal 2 => (clear_value x; intro _)))
    | ((try lift_lets); intro x; refine State.cut_told (x := x.2) ?_ ?_; (on_goal 1 => unfold x); (on_goal 2 => (clear_value x; intro _)))
    | ((try lift_lets); intro x; try clear_value x)
    | intro _
    | split
    | with_reducible fail_if_no_progress apply State.Told.after (State.mk_told _)
    | dsimp only

theorem State.writeEntry_told (s : State) (p r : Nat) (c : Cpl) :
    s.Told (State.writeEntry s p r c) := by
  unfold State.writeEntry
  repeat' first
    | with_reducible refine State.ite_told ?_ ?_
    | with_reducible refine State.ite2_told ?_ ?_
    | with_reducible exact State.Told.refl _
    | with_reducible assumption
    | with_reducible apply State.Told.after (State.emit_told _ _)
    | with_reducible apply State.Told.after (State.hostOut_told _ _ _ _)
    | with_reducible apply State.Told.after (State.setCpl_told _ _ _ _)
    | with_reducible apply State.Told.after (State.ringMessage_told _ _ _)
    | with_reducible apply State.Told.after (State.foldl_told ?_ _ _)
    | with_reducible apply State.Told.after (State.foldl2_told ?_ _ _)
    | ((try lift_lets); intro x; refine State.cut_told (x := x) ?_ ?_; (on_goal 1 => unfold x); (on_goal 2 => (clear_value x; intro _)))
    | ((try lift_lets); intro x; refine State.cut_told (x := x.2) ?_ ?_; (on_goal 1 => unfold x); (on_goal 2 => (clear_value x; intro _)))
    | ((try lift_lets); intro x; try clear_value x)
    | intro _
    | split
    | with_reducible fail_if_no_progress apply State.Told.after (State.mk_told _)
    | dsimp only

theorem State.deliverCpl_told (s : State) (p r : Nat) (c : Cpl) :
    s.Told (State.deliverCpl s p r c).2 := by
  unfold State.deliverCpl
  repeat' first
    | with_reducible refine State.ite_told ?_ ?_
    | with_reducible refine State.ite2_told ?_ ?_
    | with_reducible exact State.Told.refl _
    | with_reducible assumption
    | with_reducible apply State.Told.after (State.bump_told _ _ _ (by first | exact answerKey_fallback | exact answerKey_lost _ | exact answerKey_held _))
    | with_reducible apply State.Told.after (State.setPort_told _ _ _)
    | with_reducible apply State.Told.after (State.setCpl_told _ _ _ _)
    | with_reducible apply State.Told.after (State.writeEntry_told _ _ _ _)
    | ((try lift_lets); intro x; refine State.cut_told (x := x) ?_ ?_; (on_goal 1 => unfold x); (on_goal 2 => (clear_value x; intro _)))
    | ((try lift_lets); intro x; refine State.cut_told (x := x.2) ?_ ?_; (on_goal 1 => unfold x); (on_goal 2 => (clear_value x; intro _)))
    | ((try lift_lets); intro x; try clear_value x)
    | intro _
    | split
    | with_reducible fail_if_no_progress apply State.Told.after (State.mk_told _)
    | dsimp only

theorem State.retire_told (s : State) (id : Nat) :
    s.Told (State.retire s id).2 := by
  unfold State.retire
  repeat' first
    | with_reducible exact State.Told.refl _
    | with_reducible assumption
    | ((try lift_lets); intro x; refine State.cut_told (x := x) ?_ ?_; (on_goal 1 => unfold x); (on_goal 2 => (clear_value x; intro _)))
    | ((try lift_lets); intro x; refine State.cut_told (x := x.2) ?_ ?_; (on_goal 1 => unfold x); (on_goal 2 => (clear_value x; intro _)))
    | ((try lift_lets); intro x; try clear_value x)
    | intro _
    | split
    | with_reducible fail_if_no_progress apply State.Told.after (State.mk_told _)
    | dsimp only

theorem State.unfence_told (s : State) (id : Nat) :
    s.Told (State.unfence s id) := by
  unfold State.unfence
  repeat' first
    | with_reducible refine State.ite_told ?_ ?_
    | with_reducible refine State.ite2_told ?_ ?_
    | with_reducible exact State.Told.refl _
    | with_reducible assumption
    | with_reducible apply State.Told.after (State.setRing_told _ _ _ _)
    | ((try lift_lets); intro x; refine State.cut_told (x := x) ?_ ?_; (on_goal 1 => unfold x); (on_goal 2 => (clear_value x; intro _)))
    | ((try lift_lets); intro x; refine State.cut_told (x := x.2) ?_ ?_; (on_goal 1 => unfold x); (on_goal 2 => (clear_value x; intro _)))
    | ((try lift_lets); intro x; try clear_value x)
    | intro _
    | split
    | with_reducible fail_if_no_progress apply State.Told.after (State.mk_told _)
    | dsimp only

theorem State.settle_told (a0 : Nat) (s : State) (a2 : List Nat) :
    s.Told (State.settle a0 s a2) := by
  induction a0 generalizing s a2 with
  | zero => exact State.Told.refl s
  | succ n ih =>
    unfold State.settle
    repeat' first
      | with_reducible refine State.ite_told ?_ ?_
      | with_reducible refine State.ite2_told ?_ ?_
      | cases (by assumption : n + 1 = Nat.succ _)
      | with_reducible apply State.Told.after (ih _ _)
      | with_reducible exact State.Told.refl _
      | with_reducible assumption
      | with_reducible apply State.Told.after (State.setCmd_told _ _)
      | with_reducible apply State.Told.after (State.deliverCpl_told _ _ _ _)
      | with_reducible apply State.Told.after (State.pair_told (State.deliverCpl_told _ _ _ _) (by assumption))
      | with_reducible apply State.Told.after (State.retire_told _ _)
      | with_reducible apply State.Told.after (State.pair_told (State.retire_told _ _) (by assumption))
      | with_reducible apply State.Told.after (State.unfence_told _ _)
      | with_reducible apply State.Told.after (State.foldl_told ?_ _ _)
      | with_reducible apply State.Told.after (State.foldl2_told ?_ _ _)
      | ((try lift_lets); intro x; refine State.cut_told (x := x) ?_ ?_; (on_goal 1 => unfold x); (on_goal 2 => (clear_value x; intro _)))
      | ((try lift_lets); intro x; refine State.cut_told (x := x.2) ?_ ?_; (on_goal 1 => unfold x); (on_goal 2 => (clear_value x; intro _)))
      | ((try lift_lets); intro x; try clear_value x)
      | intro _
      | split
      | with_reducible fail_if_no_progress apply State.Told.after (State.mk_told _)
      | dsimp only

theorem State.finish_told (s : State) (id : Nat) (st : Status) (result : Nat) :
    s.Told (State.finish s id st result) := by
  unfold State.finish
  repeat' first
    | with_reducible refine State.ite_told ?_ ?_
    | with_reducible refine State.ite2_told ?_ ?_
    | with_reducible exact State.Told.refl _
    | with_reducible assumption
    | with_reducible apply State.Told.after (State.setCmd_told _ _)
    | with_reducible apply State.Told.after (State.deliverCpl_told _ _ _ _)
    | with_reducible apply State.Told.after (State.pair_told (State.deliverCpl_told _ _ _ _) (by assumption))
    | with_reducible apply State.Told.after (State.settle_told _ _ _)
    | ((try lift_lets); intro x; refine State.cut_told (x := x) ?_ ?_; (on_goal 1 => unfold x); (on_goal 2 => (clear_value x; intro _)))
    | ((try lift_lets); intro x; refine State.cut_told (x := x.2) ?_ ?_; (on_goal 1 => unfold x); (on_goal 2 => (clear_value x; intro _)))
    | ((try lift_lets); intro x; try clear_value x)
    | intro _
    | split
    | with_reducible fail_if_no_progress apply State.Told.after (State.mk_told _)
    | dsimp only

theorem State.mgmtSend_told (s : State) (o : Output) :
    s.Told (State.mgmtSend s o) := by
  unfold State.mgmtSend
  repeat' first
    | with_reducible refine State.ite_told ?_ ?_
    | with_reducible refine State.ite2_told ?_ ?_
    | with_reducible exact State.Told.refl _
    | with_reducible assumption
    | with_reducible apply State.Told.after (State.bump_told _ _ _ (by first | exact answerKey_fallback | exact answerKey_lost _ | exact answerKey_held _))
    | with_reducible apply State.Told.after (State.emit_told _ _)
    | intro _
    | split
    | with_reducible fail_if_no_progress apply State.Told.after (State.mk_told _)
    | dsimp only

theorem State.setSession_told (s : State) (x : Session) :
    s.Told (State.setSession s x) := by
  unfold State.setSession
  repeat' first
    | with_reducible refine State.ite_told ?_ ?_
    | with_reducible refine State.ite2_told ?_ ?_
    | with_reducible exact State.Told.refl _
    | with_reducible assumption
    | intro _
    | split
    | with_reducible fail_if_no_progress apply State.Told.after (State.mk_told _)
    | dsimp only

theorem State.mboxAnswer_told (s : State) (p : Nat) (st : Nat) (bytes : Bytes) :
    s.Told (State.mboxAnswer s p st bytes) := by
  unfold State.mboxAnswer
  repeat' first
    | with_reducible exact State.Told.refl _
    | with_reducible assumption
    | with_reducible apply State.Told.after (State.setPort_told _ _ _)
    | with_reducible apply State.Told.after (State.portEvent_told _ _ _)
    | ((try lift_lets); intro x; refine State.cut_told (x := x) ?_ ?_; (on_goal 1 => unfold x); (on_goal 2 => (clear_value x; intro _)))
    | ((try lift_lets); intro x; refine State.cut_told (x := x.2) ?_ ?_; (on_goal 1 => unfold x); (on_goal 2 => (clear_value x; intro _)))
    | ((try lift_lets); intro x; try clear_value x)
    | intro _
    | split
    | with_reducible fail_if_no_progress apply State.Told.after (State.mk_told _)
    | dsimp only

theorem State.sendBop_told (s : State) (path : BopPath) (src srcPort st : Nat) (bytes : Bytes) :
    s.Told (State.sendBop s path src srcPort st bytes) := by
  unfold State.sendBop
  repeat' first
    | with_reducible exact State.Told.refl _
    | with_reducible assumption
    | with_reducible apply State.Told.after (State.mgmtSend_told _ _)
    | with_reducible apply State.Told.after (State.mboxAnswer_told _ _ _ _)
    | intro _
    | split
    | dsimp only

theorem State.respond_told (s : State) (r : Reply) (st : Status) (payload : Bytes) :
    s.Told (State.respond s r st payload) := by
  unfold State.respond
  repeat' first
    | with_reducible refine State.ite_told ?_ ?_
    | with_reducible refine State.ite2_told ?_ ?_
    | with_reducible exact State.Told.refl _
    | with_reducible assumption
    | with_reducible apply State.Told.after (State.finish_told _ _ _ _)
    | with_reducible apply State.Told.after (State.setSession_told _ _)
    | with_reducible apply State.Told.after (State.sendBop_told _ _ _ _ _ _)
    | ((try lift_lets); intro x; refine State.cut_told (x := x) ?_ ?_; (on_goal 1 => unfold x); (on_goal 2 => (clear_value x; intro _)))
    | ((try lift_lets); intro x; refine State.cut_told (x := x.2) ?_ ?_; (on_goal 1 => unfold x); (on_goal 2 => (clear_value x; intro _)))
    | ((try lift_lets); intro x; try clear_value x)
    | intro _
    | split
    | with_reducible fail_if_no_progress apply State.Told.after (State.mk_told _)
    | dsimp only

theorem State.answer_told (s : State) (what : Await) (arg : Nat) (st : Status) :
    s.Told (State.answer s what arg st) := by
  unfold State.answer
  repeat' first
    | with_reducible exact State.Told.refl _
    | with_reducible assumption
    | with_reducible apply State.Told.after (State.respond_told _ _ _ _)
    | with_reducible apply State.Told.after (State.foldl_told ?_ _ _)
    | with_reducible apply State.Told.after (State.foldl2_told ?_ _ _)
    | ((try lift_lets); intro x; refine State.cut_told (x := x) ?_ ?_; (on_goal 1 => unfold x); (on_goal 2 => (clear_value x; intro _)))
    | ((try lift_lets); intro x; refine State.cut_told (x := x.2) ?_ ?_; (on_goal 1 => unfold x); (on_goal 2 => (clear_value x; intro _)))
    | ((try lift_lets); intro x; try clear_value x)
    | intro _
    | split
    | with_reducible fail_if_no_progress apply State.Told.after (State.mk_told _)
    | dsimp only

theorem State.await_told (s : State) (what : Await) (arg : Nat) (r : Reply) :
    s.Told (State.await s what arg r) := by
  unfold State.await
  repeat' first
    | with_reducible exact State.Told.refl _
    | with_reducible assumption
    | with_reducible apply State.Told.after (State.setCmd_told _ _)
    | ((try lift_lets); intro x; refine State.cut_told (x := x) ?_ ?_; (on_goal 1 => unfold x); (on_goal 2 => (clear_value x; intro _)))
    | ((try lift_lets); intro x; refine State.cut_told (x := x.2) ?_ ?_; (on_goal 1 => unfold x); (on_goal 2 => (clear_value x; intro _)))
    | ((try lift_lets); intro x; try clear_value x)
    | intro _
    | split
    | with_reducible fail_if_no_progress apply State.Told.after (State.mk_told _)
    | dsimp only

end Sys2Proof.Machine
end

