-- ==== Sys2Proof/Laws/Arrive.lean ====
section
/-!
SUPPORT. What the intake of a message or of a write access has done once it hands the request on: only the management port
has changed, and the row's own operation decides the rest.
-/
namespace Sys2Proof.Machine

theorem State.serve_go {s t : State} {m : BopMsg} {op : Nat → Bool} {w : Writer} {x : Bop} (h : s.intake m op = .go w x t)
    (act : Writer → Bop → State → State) : s.serve m op act = act w x t := by
  unfold State.serve
  rw [h]

theorem State.write_go {s t : State} {acc : Access} {own : Nat × Nat → Bytes → Bool} {w : Writer} {v : Bytes}
    (h : s.arrive acc own = .go w v t) (op : Writer → Bytes → State → Ans) :
    s.write acc own op = answerNow w (op w v t) := by
  unfold State.write
  rw [h]
  rfl

/-- A request that goes on has changed the management port alone, and its OP is the row's. -/
def State.Onward (s : State) (op : Nat → Bool) : Intake → Prop
  | .dealt _ => True
  | .go _ x t => t = { s with mgmt := t.mgmt } ∧ op x.op = true

theorem State.intakePlain_onward (s : State) (path : BopPath) (src srcPort : Nat) (x : Bop) (op : Nat → Bool)
    (h : op x.op = true) : s.Onward op (s.intakePlain path src srcPort x) := by
  unfold State.intakePlain
  dsimp only
  repeat' first
    | split
    | exact True.intro
    | exact ⟨rfl, h⟩

theorem State.intakeSession_onward (s : State) (path : BopPath) (src srcPort : Nat) (x : Bop) (op : Nat → Bool)
    (h : op x.op = true) : s.Onward op (s.intakeSession path src srcPort x) := by
  unfold State.intakeSession
  dsimp only
  repeat' first
    | split
    | exact True.intro
    | exact ⟨rfl, h⟩

theorem State.intake_onward (s : State) (m : BopMsg) (op : Nat → Bool) : s.Onward op (s.intake m op) := by
  unfold State.intake
  dsimp only
  split
  · trivial
  · rename_i hc
    have ho : op (parseBop (s.msgBytes m)).op = true := by
      simp only [Bool.or_eq_true, not_or, Bool.not_eq_true', Bool.not_eq_true] at hc
      simpa using hc.2
    split
    · trivial
    split
    · trivial
    · rename_i u hu
      have hm : u = { s with mgmt := u.mgmt } := by
        unfold State.takeMessage at hu
        repeat' split at hu
        all_goals first
          | contradiction
          | (injection hu with hu; subst hu; rfl)
      have lift : ∀ i, u.Onward op i → s.Onward op i := by
        intro i hi
        cases i with
        | dealt _ => trivial
        | go w x t => exact ⟨hi.1.trans (by rw [hm]), hi.2⟩
      split
      · repeat' first
          | split
          | exact True.intro
          | exact lift _ (State.intakePlain_onward _ _ _ _ _ _ ho)
          | exact lift _ (State.intakeSession_onward _ _ _ _ _ _ ho)
      · repeat' first
          | split
          | exact True.intro
          | exact lift _ (State.intakePlain_onward _ _ _ _ _ _ ho)
          | exact lift _ (State.intakeSession_onward _ _ _ _ _ _ ho)

theorem State.intake_go {s t : State} {m : BopMsg} {op : Nat → Bool} {w : Writer} {x : Bop} (h : s.intake m op = .go w x t) :
    t = { s with mgmt := t.mgmt } ∧ op x.op = true := by
  have := State.intake_onward s m op
  rw [h] at this
  exact this

theorem State.arriveObject_go {s t : State} {w u : Writer} {idx sub : Nat} {v b : Bytes}
    (h : s.arriveObject w idx sub v = .go u b t) :
    t = s ∧ b = v ∧ u = { w with idx := idx, sub := sub } ∧
      (w.rom = true ∨ s.writeCheck w.who idx sub v.length = .ok) := by
  unfold State.arriveObject at h
  dsimp only at h
  generalize hst : (if w.rom then Status.ok else s.writeCheck w.who idx sub v.length) = st at h
  split at h
  · contradiction
  · rename_i hc
    injection h with h1 h2 h3
    refine ⟨h3.symm, h2.symm, h1.symm, ?_⟩
    have hc' : st = .ok := by simpa using hc
    rw [hc'] at hst
    split at hst
    · rename_i hr
      exact .inl hr
    · exact .inr hst

/-- A write that arrives has changed the management port alone, and its value is that of an object the row owns. -/
theorem State.arrive_go {s t : State} {acc : Access} {own : Nat × Nat → Bytes → Bool} {w : Writer} {v : Bytes}
    (h : s.arrive acc own = .go w v t) :
    t = { s with mgmt := t.mgmt } ∧ own (w.idx, w.sub) v = true := by
  unfold State.arrive at h
  split at h
  · contradiction
  · rename_i k b hk
    split at h
    · contradiction
    · rename_i ho
      have ho : own k b = true := by simpa using ho
      split at h
      · split at h
        · rename_i c hc
          unfold State.arriveRing at h
          dsimp only at h
          split at h
          · contradiction
          · have h' := State.arriveObject_go h
            have hkc : k = (c.f 79 64, c.f 87 80) := by
              unfold State.writeTarget at hk
              simp only [hc] at hk
              injection hk with hk
              exact (congrArg Prod.fst hk).symm
            obtain ⟨rfl, rfl, rfl, -⟩ := h'
            subst hkc
            exact ⟨rfl, ho⟩
        · contradiction
      · rename_i msg
        cases hi : s.intake msg (fun o => o = 0x11 || o = 0x1A) with
        | dealt t => simp only [hi] at h; contradiction
        | go w' x t' =>
          simp only [hi] at h
          have hm := (State.intake_go hi).1
          split at h
          · obtain ⟨rfl, rfl, rfl, -⟩ := State.arriveObject_go h
            exact ⟨hm, ho⟩
          · split at h
            · contradiction
            · split at h
              · contradiction
              · obtain ⟨rfl, rfl, rfl, -⟩ := State.arriveObject_go h
                refine ⟨?_, ho⟩
                rw [hm]

/-- A request on M without a session is carried out as it comes where no message waits before it and no key guards it (R375,
R386). -/
theorem State.intake_bare {s : State} {src port : Nat} {b : Bytes} {op : Nat → Bool} {x : Bop} (hx : parseBop b = x)
    (h1 : s.hears (.m src port false b) = true) (h2 : s.malformed (.m src port false b) = false) (h3 : op x.op = true)
    (h4 : accepted (.m src port false b) x.op = true) (h5 : s.mgmt.mailboxes = []) (h6 : x.kind ≠ 4) (h7 : x.session = 0)
    (h8 : s.boot.mode = .running) (h9 : badRequest x = false) (h10 : s.sessionless .m x = true) :
    s.intake (.m src port false b) op = .go (s.pathWriter .m src port x [] none) x s := by
  have hb : s.msgBytes (.m src port false b) = b := rfl
  simp [State.intake, hb, hx, h1, h2, h3, h4, h6, h7, State.takeMessage, h5, State.intakePlain, h8, h9, h10]

/-- The commit of a block that is ready comes to its object (R382). -/
theorem State.arrive_block {s t : State} {m : BopMsg} {w : Writer} {x : Bop} {b : Block} {own : Nat × Nat → Bytes → Bool}
    (h : s.intake m (fun o => o = 0x11 || o = 0x1A) = .go w x t) (hx : parseBop (s.msgBytes m) = x) (h1 : x.op = 0x1A)
    (h2 : look s.mgmt.blocks (blockHolder (msgPath m) x.session) = some b)
    (h3 : look t.mgmt.blocks (blockHolder (msgPath m) x.session) = some b) (h4 : own (b.idx, b.sub) b.bytes = true)
    (h5 : b.ready x = true) : s.arrive (.bop m) own =
      ({ t with mgmt := { t.mgmt with blocks := dropAt t.mgmt.blocks (blockHolder (msgPath m) x.session) } } : State).arriveObject
        w b.idx b.sub b.bytes := by
  have hw : s.writeTarget (.bop m) = some ((b.idx, b.sub), b.bytes) := by
    simp [State.writeTarget, hx, h1, h2]
  unfold State.arrive
  rw [hw]
  simp [h4, h, h1, h3, h5]
end Sys2Proof.Machine
end

