-- ==== Sys2Proof/Laws/Bytes.lean ====
section
/-!
SUPPORT. Byte strings: what little-endian bytes spell, the length of a slice and of a digest, and the range of a CRC-32C.
-/
namespace Sys2Proof.Machine

theorem crcShift_lt (n c : Nat) (h : c < 2 ^ 32) : crcShift n c < 2 ^ 32 := by
  induction n generalizing c with
  | zero => exact h
  | succ n ih =>
    apply ih
    split
    · exact Nat.xor_lt_two_pow (by omega) (by decide)
    · omega

theorem crc32c_lt (m : Bytes) : crc32c m < 2 ^ 32 := by
  unfold crc32c
  refine Nat.xor_lt_two_pow ?_ (by decide)
  have h : ∀ (m : Bytes) (c : Nat), c < 2 ^ 32 → m.foldl (fun c b => crcShift 8 (c ^^^ b.toNat)) c < 2 ^ 32 := by
    intro m
    induction m with
    | nil => intro c h; exact h
    | cons b m ih =>
      intro c h
      exact ih _ (crcShift_lt 8 _ (Nat.xor_lt_two_pow h (by have := b.isLt; omega)))
  exact h m _ (by decide)

theorem leNat_leBytes (n v : Nat) : leNat (leBytes n v) = v % 256 ^ n := by
  induction n generalizing v with
  | zero => simp [leBytes, leNat, Nat.mod_one]
  | succ n ih =>
    rw [Nat.pow_succ', Nat.mod_mul, ← ih]
    rfl

@[simp] theorem sliceB_length (b : Bytes) (off n : Nat) : (sliceB b off n).length = n := by
  simp [sliceB]

@[simp] theorem fitB_length (n : Nat) (b : Bytes) : (fitB n b).length = n := sliceB_length b 0 n

theorem leBytes_length (n v : Nat) : (leBytes n v).length = n := by
  induction n generalizing v with
  | zero => rfl
  | succ n ih => simp [leBytes, ih]

/-! ### The length of a SHA-256 digest -/

theorem shaRounds_length (ks : List Nat) : ∀ (win lo hi : List Nat), lo.length = 4 → hi.length = 4 →
    (shaRounds ks win lo hi).length = 8 := by
  induction ks with
  | nil => intro win lo hi h1 h2; simp [shaRounds, h1, h2]
  | cons k ks ih => intro win lo hi h1 h2; exact ih _ _ _ (by simp [h1]) (by simp [h2])

theorem shaNext_length {h : List Nat} (n : h.length = 8) (blk : Bytes) : (shaNext h blk).length = 8 := by
  simp [shaNext, n, shaRounds_length]

theorem shaFold_length (l : List Bytes) : ∀ {h : List Nat}, h.length = 8 → (l.foldl shaNext h).length = 8 := by
  induction l with
  | nil => intro h n; exact n
  | cons b l ih => intro h n; exact ih (shaNext_length n b)

theorem sha256_length (m : Bytes) : (sha256 m).length = 32 := by
  have h := shaFold_length (chunksOf 64 (m.length + 2) (shaPad m)) (h := shaFirst) (by decide +kernel)
  simp [sha256, List.length_flatMap, beBytes, leBytes_length, h]

end Sys2Proof.Machine
end

