-- ==== Sys2Proof/Laws/State.lean ====
section
/-!
SUPPORT. What each update of one field leaves of the others, and what it gives back: one simp lemma per field and read.
-/
namespace Sys2Proof.Machine

/-! ### put -/

@[simp] theorem State.put_ticks (s : State) (k v : Nat) : (s.put k v).ticks = s.ticks := rfl
@[simp] theorem State.put_dom (s : State) (k v : Nat) : (s.put k v).dom = s.dom := rfl
@[simp] theorem State.put_div (s : State) (k v : Nat) : (s.put k v).div = s.div := rfl
@[simp] theorem State.put_mem (s : State) (k v : Nat) : (s.put k v).mem = s.mem := rfl
@[simp] theorem State.put_flips (s : State) (k v : Nat) : (s.put k v).flips = s.flips := rfl
@[simp] theorem State.put_lbuf (s : State) (k v : Nat) : (s.put k v).lbuf = s.lbuf := rfl
@[simp] theorem State.put_sram (s : State) (k v : Nat) : (s.put k v).sram = s.sram := rfl
@[simp] theorem State.put_vaults (s : State) (k v : Nat) : (s.put k v).vaults = s.vaults := rfl
@[simp] theorem State.put_stands (s : State) (k v : Nat) : (s.put k v).stands = s.stands := rfl
@[simp] theorem State.put_repairs (s : State) (k v : Nat) : (s.put k v).repairs = s.repairs := rfl
@[simp] theorem State.put_repairPass (s : State) (k v : Nat) : (s.put k v).repairPass = s.repairPass := rfl
@[simp] theorem State.put_repairQueue (s : State) (k v : Nat) : (s.put k v).repairQueue = s.repairQueue := rfl
@[simp] theorem State.put_errLog (s : State) (k v : Nat) : (s.put k v).errLog = s.errLog := rfl
@[simp] theorem State.put_wipes (s : State) (k v : Nat) : (s.put k v).wipes = s.wipes := rfl
@[simp] theorem State.put_ports (s : State) (k v : Nat) : (s.put k v).ports = s.ports := rfl
@[simp] theorem State.put_cmds (s : State) (k v : Nat) : (s.put k v).cmds = s.cmds := rfl
@[simp] theorem State.put_nextId (s : State) (k v : Nat) : (s.put k v).nextId = s.nextId := rfl
@[simp] theorem State.put_parts (s : State) (k v : Nat) : (s.put k v).parts = s.parts := rfl
@[simp] theorem State.put_rltReqs (s : State) (k v : Nat) : (s.put k v).rltReqs = s.rltReqs := rfl
@[simp] theorem State.put_nextReq (s : State) (k v : Nat) : (s.put k v).nextReq = s.nextReq := rfl
@[simp] theorem State.put_cores (s : State) (k v : Nat) : (s.put k v).cores = s.cores := rfl
@[simp] theorem State.put_prefetched (s : State) (k v : Nat) : (s.put k v).prefetched = s.prefetched := rfl
@[simp] theorem State.put_nextBorn (s : State) (k v : Nat) : (s.put k v).nextBorn = s.nextBorn := rfl
@[simp] theorem State.put_engines (s : State) (k v : Nat) : (s.put k v).engines = s.engines := rfl
@[simp] theorem State.put_laneHeads (s : State) (k v : Nat) : (s.put k v).laneHeads = s.laneHeads := rfl
@[simp] theorem State.put_down (s : State) (k v : Nat) : (s.put k v).down = s.down := rfl
@[simp] theorem State.put_lanes (s : State) (k v : Nat) : (s.put k v).lanes = s.lanes := rfl
@[simp] theorem State.put_freed (s : State) (k v : Nat) : (s.put k v).freed = s.freed := rfl
@[simp] theorem State.put_klib (s : State) (k v : Nat) : (s.put k v).klib = s.klib := rfl
@[simp] theorem State.put_nets (s : State) (k v : Nat) : (s.put k v).nets = s.nets := rfl
@[simp] theorem State.put_regions (s : State) (k v : Nat) : (s.put k v).regions = s.regions := rfl
@[simp] theorem State.put_mgmt (s : State) (k v : Nat) : (s.put k v).mgmt = s.mgmt := rfl
@[simp] theorem State.put_nv (s : State) (k v : Nat) : (s.put k v).nv = s.nv := rfl
@[simp] theorem State.put_boot (s : State) (k v : Nat) : (s.put k v).boot = s.boot := rfl
@[simp] theorem State.put_resets (s : State) (k v : Nat) : (s.put k v).resets = s.resets := rfl
@[simp] theorem State.put_blockResets (s : State) (k v : Nat) : (s.put k v).blockResets = s.blockResets := rfl
@[simp] theorem State.put_clk (s : State) (k v : Nat) : (s.put k v).clk = s.clk := rfl
@[simp] theorem State.put_pwr (s : State) (k v : Nat) : (s.put k v).pwr = s.pwr := rfl
@[simp] theorem State.put_scl (s : State) (k v : Nat) : (s.put k v).scl = s.scl := rfl
@[simp] theorem State.put_mirror (s : State) (k v : Nat) : (s.put k v).mirror = s.mirror := rfl
@[simp] theorem State.put_work (s : State) (k v : Nat) : (s.put k v).work = s.work := rfl
@[simp] theorem State.put_workSeq (s : State) (k v : Nat) : (s.put k v).workSeq = s.workSeq := rfl
@[simp] theorem State.put_workAt (s : State) (k v : Nat) : (s.put k v).workAt = s.workAt := rfl
@[simp] theorem State.put_statusAt (s : State) (k v : Nat) : (s.put k v).statusAt = s.statusAt := rfl
@[simp] theorem State.put_fresh (s : State) (k v : Nat) : (s.put k v).fresh = s.fresh := rfl
@[simp] theorem State.put_out (s : State) (k v : Nat) : (s.put k v).out = s.out := rfl
@[simp] theorem State.put_pending (s : State) (k v : Nat) : (s.put k v).pending = s.pending := rfl
@[simp] theorem State.put_read_dget (s : State) (k v : Nat) (j : Nat) : (s.put k v).dget j = s.dget j := rfl
@[simp] theorem State.put_read_port (s : State) (k v : Nat) (j : Nat) : (s.put k v).port j = s.port j := rfl
@[simp] theorem State.put_read_part (s : State) (k v : Nat) (j : Nat) : (s.put k v).part j = s.part j := rfl
@[simp] theorem State.put_read_net (s : State) (k v : Nat) (j : Nat) : (s.put k v).net j = s.net j := rfl
@[simp] theorem State.put_read_now (s : State) (k v : Nat)  : (s.put k v).now = s.now := rfl
@[simp] theorem State.put_read_cmd (s : State) (k v : Nat) (j : Nat) : (s.put k v).cmd? j = s.cmd? j := rfl
@[simp] theorem State.put_read_vault (s : State) (k v : Nat) (j : Nat) : (s.put k v).vault j = s.vault j := rfl
@[simp] theorem State.put_read_stand (s : State) (k v : Nat) (j : Nat) : (s.put k v).stand j = s.stand j := rfl
@[simp] theorem State.put_read_byte (s : State) (k v : Nat) (j : Nat) : (s.put k v).byte j = s.byte j := rfl

/-! ### bump -/

@[simp] theorem State.bump_ticks (s : State) (k n : Nat) : (s.bump k n).ticks = s.ticks := rfl
@[simp] theorem State.bump_dom (s : State) (k n : Nat) : (s.bump k n).dom = s.dom := rfl
@[simp] theorem State.bump_div (s : State) (k n : Nat) : (s.bump k n).div = s.div := rfl
@[simp] theorem State.bump_mem (s : State) (k n : Nat) : (s.bump k n).mem = s.mem := rfl
@[simp] theorem State.bump_flips (s : State) (k n : Nat) : (s.bump k n).flips = s.flips := rfl
@[simp] theorem State.bump_lbuf (s : State) (k n : Nat) : (s.bump k n).lbuf = s.lbuf := rfl
@[simp] theorem State.bump_sram (s : State) (k n : Nat) : (s.bump k n).sram = s.sram := rfl
@[simp] theorem State.bump_vaults (s : State) (k n : Nat) : (s.bump k n).vaults = s.vaults := rfl
@[simp] theorem State.bump_stands (s : State) (k n : Nat) : (s.bump k n).stands = s.stands := rfl
@[simp] theorem State.bump_repairs (s : State) (k n : Nat) : (s.bump k n).repairs = s.repairs := rfl
@[simp] theorem State.bump_repairPass (s : State) (k n : Nat) : (s.bump k n).repairPass = s.repairPass := rfl
@[simp] theorem State.bump_repairQueue (s : State) (k n : Nat) : (s.bump k n).repairQueue = s.repairQueue := rfl
@[simp] theorem State.bump_errLog (s : State) (k n : Nat) : (s.bump k n).errLog = s.errLog := rfl
@[simp] theorem State.bump_wipes (s : State) (k n : Nat) : (s.bump k n).wipes = s.wipes := rfl
@[simp] theorem State.bump_ports (s : State) (k n : Nat) : (s.bump k n).ports = s.ports := rfl
@[simp] theorem State.bump_cmds (s : State) (k n : Nat) : (s.bump k n).cmds = s.cmds := rfl
@[simp] theorem State.bump_nextId (s : State) (k n : Nat) : (s.bump k n).nextId = s.nextId := rfl
@[simp] theorem State.bump_parts (s : State) (k n : Nat) : (s.bump k n).parts = s.parts := rfl
@[simp] theorem State.bump_rltReqs (s : State) (k n : Nat) : (s.bump k n).rltReqs = s.rltReqs := rfl
@[simp] theorem State.bump_nextReq (s : State) (k n : Nat) : (s.bump k n).nextReq = s.nextReq := rfl
@[simp] theorem State.bump_cores (s : State) (k n : Nat) : (s.bump k n).cores = s.cores := rfl
@[simp] theorem State.bump_prefetched (s : State) (k n : Nat) : (s.bump k n).prefetched = s.prefetched := rfl
@[simp] theorem State.bump_nextBorn (s : State) (k n : Nat) : (s.bump k n).nextBorn = s.nextBorn := rfl
@[simp] theorem State.bump_engines (s : State) (k n : Nat) : (s.bump k n).engines = s.engines := rfl
@[simp] theorem State.bump_laneHeads (s : State) (k n : Nat) : (s.bump k n).laneHeads = s.laneHeads := rfl
@[simp] theorem State.bump_down (s : State) (k n : Nat) : (s.bump k n).down = s.down := rfl
@[simp] theorem State.bump_lanes (s : State) (k n : Nat) : (s.bump k n).lanes = s.lanes := rfl
@[simp] theorem State.bump_freed (s : State) (k n : Nat) : (s.bump k n).freed = s.freed := rfl
@[simp] theorem State.bump_klib (s : State) (k n : Nat) : (s.bump k n).klib = s.klib := rfl
@[simp] theorem State.bump_nets (s : State) (k n : Nat) : (s.bump k n).nets = s.nets := rfl
@[simp] theorem State.bump_regions (s : State) (k n : Nat) : (s.bump k n).regions = s.regions := rfl
@[simp] theorem State.bump_mgmt (s : State) (k n : Nat) : (s.bump k n).mgmt = s.mgmt := rfl
@[simp] theorem State.bump_nv (s : State) (k n : Nat) : (s.bump k n).nv = s.nv := rfl
@[simp] theorem State.bump_boot (s : State) (k n : Nat) : (s.bump k n).boot = s.boot := rfl
@[simp] theorem State.bump_resets (s : State) (k n : Nat) : (s.bump k n).resets = s.resets := rfl
@[simp] theorem State.bump_blockResets (s : State) (k n : Nat) : (s.bump k n).blockResets = s.blockResets := rfl
@[simp] theorem State.bump_clk (s : State) (k n : Nat) : (s.bump k n).clk = s.clk := rfl
@[simp] theorem State.bump_pwr (s : State) (k n : Nat) : (s.bump k n).pwr = s.pwr := rfl
@[simp] theorem State.bump_scl (s : State) (k n : Nat) : (s.bump k n).scl = s.scl := rfl
@[simp] theorem State.bump_mirror (s : State) (k n : Nat) : (s.bump k n).mirror = s.mirror := rfl
@[simp] theorem State.bump_work (s : State) (k n : Nat) : (s.bump k n).work = s.work := rfl
@[simp] theorem State.bump_workSeq (s : State) (k n : Nat) : (s.bump k n).workSeq = s.workSeq := rfl
@[simp] theorem State.bump_workAt (s : State) (k n : Nat) : (s.bump k n).workAt = s.workAt := rfl
@[simp] theorem State.bump_statusAt (s : State) (k n : Nat) : (s.bump k n).statusAt = s.statusAt := rfl
@[simp] theorem State.bump_fresh (s : State) (k n : Nat) : (s.bump k n).fresh = s.fresh := rfl
@[simp] theorem State.bump_out (s : State) (k n : Nat) : (s.bump k n).out = s.out := rfl
@[simp] theorem State.bump_pending (s : State) (k n : Nat) : (s.bump k n).pending = s.pending := rfl
@[simp] theorem State.bump_read_dget (s : State) (k n : Nat) (j : Nat) : (s.bump k n).dget j = s.dget j := rfl
@[simp] theorem State.bump_read_port (s : State) (k n : Nat) (j : Nat) : (s.bump k n).port j = s.port j := rfl
@[simp] theorem State.bump_read_part (s : State) (k n : Nat) (j : Nat) : (s.bump k n).part j = s.part j := rfl
@[simp] theorem State.bump_read_net (s : State) (k n : Nat) (j : Nat) : (s.bump k n).net j = s.net j := rfl
@[simp] theorem State.bump_read_now (s : State) (k n : Nat)  : (s.bump k n).now = s.now := rfl
@[simp] theorem State.bump_read_cmd (s : State) (k n : Nat) (j : Nat) : (s.bump k n).cmd? j = s.cmd? j := rfl
@[simp] theorem State.bump_read_vault (s : State) (k n : Nat) (j : Nat) : (s.bump k n).vault j = s.vault j := rfl
@[simp] theorem State.bump_read_stand (s : State) (k n : Nat) (j : Nat) : (s.bump k n).stand j = s.stand j := rfl
@[simp] theorem State.bump_read_byte (s : State) (k n : Nat) (j : Nat) : (s.bump k n).byte j = s.byte j := rfl

/-! ### dput -/

@[simp] theorem State.dput_ticks (s : State) (k : Nat) (b : Bytes) : (s.dput k b).ticks = s.ticks := rfl
@[simp] theorem State.dput_od (s : State) (k : Nat) (b : Bytes) : (s.dput k b).od = s.od := rfl
@[simp] theorem State.dput_div (s : State) (k : Nat) (b : Bytes) : (s.dput k b).div = s.div := rfl
@[simp] theorem State.dput_mem (s : State) (k : Nat) (b : Bytes) : (s.dput k b).mem = s.mem := rfl
@[simp] theorem State.dput_flips (s : State) (k : Nat) (b : Bytes) : (s.dput k b).flips = s.flips := rfl
@[simp] theorem State.dput_lbuf (s : State) (k : Nat) (b : Bytes) : (s.dput k b).lbuf = s.lbuf := rfl
@[simp] theorem State.dput_sram (s : State) (k : Nat) (b : Bytes) : (s.dput k b).sram = s.sram := rfl
@[simp] theorem State.dput_vaults (s : State) (k : Nat) (b : Bytes) : (s.dput k b).vaults = s.vaults := rfl
@[simp] theorem State.dput_stands (s : State) (k : Nat) (b : Bytes) : (s.dput k b).stands = s.stands := rfl
@[simp] theorem State.dput_repairs (s : State) (k : Nat) (b : Bytes) : (s.dput k b).repairs = s.repairs := rfl
@[simp] theorem State.dput_repairPass (s : State) (k : Nat) (b : Bytes) : (s.dput k b).repairPass = s.repairPass := rfl
@[simp] theorem State.dput_repairQueue (s : State) (k : Nat) (b : Bytes) : (s.dput k b).repairQueue = s.repairQueue := rfl
@[simp] theorem State.dput_errLog (s : State) (k : Nat) (b : Bytes) : (s.dput k b).errLog = s.errLog := rfl
@[simp] theorem State.dput_wipes (s : State) (k : Nat) (b : Bytes) : (s.dput k b).wipes = s.wipes := rfl
@[simp] theorem State.dput_ports (s : State) (k : Nat) (b : Bytes) : (s.dput k b).ports = s.ports := rfl
@[simp] theorem State.dput_cmds (s : State) (k : Nat) (b : Bytes) : (s.dput k b).cmds = s.cmds := rfl
@[simp] theorem State.dput_nextId (s : State) (k : Nat) (b : Bytes) : (s.dput k b).nextId = s.nextId := rfl
@[simp] theorem State.dput_parts (s : State) (k : Nat) (b : Bytes) : (s.dput k b).parts = s.parts := rfl
@[simp] theorem State.dput_rltReqs (s : State) (k : Nat) (b : Bytes) : (s.dput k b).rltReqs = s.rltReqs := rfl
@[simp] theorem State.dput_nextReq (s : State) (k : Nat) (b : Bytes) : (s.dput k b).nextReq = s.nextReq := rfl
@[simp] theorem State.dput_cores (s : State) (k : Nat) (b : Bytes) : (s.dput k b).cores = s.cores := rfl
@[simp] theorem State.dput_prefetched (s : State) (k : Nat) (b : Bytes) : (s.dput k b).prefetched = s.prefetched := rfl
@[simp] theorem State.dput_nextBorn (s : State) (k : Nat) (b : Bytes) : (s.dput k b).nextBorn = s.nextBorn := rfl
@[simp] theorem State.dput_engines (s : State) (k : Nat) (b : Bytes) : (s.dput k b).engines = s.engines := rfl
@[simp] theorem State.dput_laneHeads (s : State) (k : Nat) (b : Bytes) : (s.dput k b).laneHeads = s.laneHeads := rfl
@[simp] theorem State.dput_down (s : State) (k : Nat) (b : Bytes) : (s.dput k b).down = s.down := rfl
@[simp] theorem State.dput_lanes (s : State) (k : Nat) (b : Bytes) : (s.dput k b).lanes = s.lanes := rfl
@[simp] theorem State.dput_freed (s : State) (k : Nat) (b : Bytes) : (s.dput k b).freed = s.freed := rfl
@[simp] theorem State.dput_klib (s : State) (k : Nat) (b : Bytes) : (s.dput k b).klib = s.klib := rfl
@[simp] theorem State.dput_nets (s : State) (k : Nat) (b : Bytes) : (s.dput k b).nets = s.nets := rfl
@[simp] theorem State.dput_regions (s : State) (k : Nat) (b : Bytes) : (s.dput k b).regions = s.regions := rfl
@[simp] theorem State.dput_mgmt (s : State) (k : Nat) (b : Bytes) : (s.dput k b).mgmt = s.mgmt := rfl
@[simp] theorem State.dput_nv (s : State) (k : Nat) (b : Bytes) : (s.dput k b).nv = s.nv := rfl
@[simp] theorem State.dput_boot (s : State) (k : Nat) (b : Bytes) : (s.dput k b).boot = s.boot := rfl
@[simp] theorem State.dput_resets (s : State) (k : Nat) (b : Bytes) : (s.dput k b).resets = s.resets := rfl
@[simp] theorem State.dput_blockResets (s : State) (k : Nat) (b : Bytes) : (s.dput k b).blockResets = s.blockResets := rfl
@[simp] theorem State.dput_clk (s : State) (k : Nat) (b : Bytes) : (s.dput k b).clk = s.clk := rfl
@[simp] theorem State.dput_pwr (s : State) (k : Nat) (b : Bytes) : (s.dput k b).pwr = s.pwr := rfl
@[simp] theorem State.dput_scl (s : State) (k : Nat) (b : Bytes) : (s.dput k b).scl = s.scl := rfl
@[simp] theorem State.dput_mirror (s : State) (k : Nat) (b : Bytes) : (s.dput k b).mirror = s.mirror := rfl
@[simp] theorem State.dput_work (s : State) (k : Nat) (b : Bytes) : (s.dput k b).work = s.work := rfl
@[simp] theorem State.dput_workSeq (s : State) (k : Nat) (b : Bytes) : (s.dput k b).workSeq = s.workSeq := rfl
@[simp] theorem State.dput_workAt (s : State) (k : Nat) (b : Bytes) : (s.dput k b).workAt = s.workAt := rfl
@[simp] theorem State.dput_statusAt (s : State) (k : Nat) (b : Bytes) : (s.dput k b).statusAt = s.statusAt := rfl
@[simp] theorem State.dput_fresh (s : State) (k : Nat) (b : Bytes) : (s.dput k b).fresh = s.fresh := rfl
@[simp] theorem State.dput_out (s : State) (k : Nat) (b : Bytes) : (s.dput k b).out = s.out := rfl
@[simp] theorem State.dput_pending (s : State) (k : Nat) (b : Bytes) : (s.dput k b).pending = s.pending := rfl
@[simp] theorem State.dput_read_get (s : State) (k : Nat) (b : Bytes) (j : Nat) : (s.dput k b).get j = s.get j := rfl
@[simp] theorem State.dput_read_port (s : State) (k : Nat) (b : Bytes) (j : Nat) : (s.dput k b).port j = s.port j := rfl
@[simp] theorem State.dput_read_part (s : State) (k : Nat) (b : Bytes) (j : Nat) : (s.dput k b).part j = s.part j := rfl
@[simp] theorem State.dput_read_net (s : State) (k : Nat) (b : Bytes) (j : Nat) : (s.dput k b).net j = s.net j := rfl
@[simp] theorem State.dput_read_now (s : State) (k : Nat) (b : Bytes)  : (s.dput k b).now = s.now := rfl
@[simp] theorem State.dput_read_cmd (s : State) (k : Nat) (b : Bytes) (j : Nat) : (s.dput k b).cmd? j = s.cmd? j := rfl
@[simp] theorem State.dput_read_vault (s : State) (k : Nat) (b : Bytes) (j : Nat) : (s.dput k b).vault j = s.vault j := rfl
@[simp] theorem State.dput_read_stand (s : State) (k : Nat) (b : Bytes) (j : Nat) : (s.dput k b).stand j = s.stand j := rfl
@[simp] theorem State.dput_read_byte (s : State) (k : Nat) (b : Bytes) (j : Nat) : (s.dput k b).byte j = s.byte j := rfl

/-! ### emit -/

@[simp] theorem State.emit_ticks (s : State) (o : Output) : (s.emit o).ticks = s.ticks := rfl
@[simp] theorem State.emit_od (s : State) (o : Output) : (s.emit o).od = s.od := rfl
@[simp] theorem State.emit_dom (s : State) (o : Output) : (s.emit o).dom = s.dom := rfl
@[simp] theorem State.emit_div (s : State) (o : Output) : (s.emit o).div = s.div := rfl
@[simp] theorem State.emit_mem (s : State) (o : Output) : (s.emit o).mem = s.mem := rfl
@[simp] theorem State.emit_flips (s : State) (o : Output) : (s.emit o).flips = s.flips := rfl
@[simp] theorem State.emit_lbuf (s : State) (o : Output) : (s.emit o).lbuf = s.lbuf := rfl
@[simp] theorem State.emit_sram (s : State) (o : Output) : (s.emit o).sram = s.sram := rfl
@[simp] theorem State.emit_vaults (s : State) (o : Output) : (s.emit o).vaults = s.vaults := rfl
@[simp] theorem State.emit_stands (s : State) (o : Output) : (s.emit o).stands = s.stands := rfl
@[simp] theorem State.emit_repairs (s : State) (o : Output) : (s.emit o).repairs = s.repairs := rfl
@[simp] theorem State.emit_repairPass (s : State) (o : Output) : (s.emit o).repairPass = s.repairPass := rfl
@[simp] theorem State.emit_repairQueue (s : State) (o : Output) : (s.emit o).repairQueue = s.repairQueue := rfl
@[simp] theorem State.emit_errLog (s : State) (o : Output) : (s.emit o).errLog = s.errLog := rfl
@[simp] theorem State.emit_wipes (s : State) (o : Output) : (s.emit o).wipes = s.wipes := rfl
@[simp] theorem State.emit_ports (s : State) (o : Output) : (s.emit o).ports = s.ports := rfl
@[simp] theorem State.emit_cmds (s : State) (o : Output) : (s.emit o).cmds = s.cmds := rfl
@[simp] theorem State.emit_nextId (s : State) (o : Output) : (s.emit o).nextId = s.nextId := rfl
@[simp] theorem State.emit_parts (s : State) (o : Output) : (s.emit o).parts = s.parts := rfl
@[simp] theorem State.emit_rltReqs (s : State) (o : Output) : (s.emit o).rltReqs = s.rltReqs := rfl
@[simp] theorem State.emit_nextReq (s : State) (o : Output) : (s.emit o).nextReq = s.nextReq := rfl
@[simp] theorem State.emit_cores (s : State) (o : Output) : (s.emit o).cores = s.cores := rfl
@[simp] theorem State.emit_prefetched (s : State) (o : Output) : (s.emit o).prefetched = s.prefetched := rfl
@[simp] theorem State.emit_nextBorn (s : State) (o : Output) : (s.emit o).nextBorn = s.nextBorn := rfl
@[simp] theorem State.emit_engines (s : State) (o : Output) : (s.emit o).engines = s.engines := rfl
@[simp] theorem State.emit_laneHeads (s : State) (o : Output) : (s.emit o).laneHeads = s.laneHeads := rfl
@[simp] theorem State.emit_down (s : State) (o : Output) : (s.emit o).down = s.down := rfl
@[simp] theorem State.emit_lanes (s : State) (o : Output) : (s.emit o).lanes = s.lanes := rfl
@[simp] theorem State.emit_freed (s : State) (o : Output) : (s.emit o).freed = s.freed := rfl
@[simp] theorem State.emit_klib (s : State) (o : Output) : (s.emit o).klib = s.klib := rfl
@[simp] theorem State.emit_nets (s : State) (o : Output) : (s.emit o).nets = s.nets := rfl
@[simp] theorem State.emit_regions (s : State) (o : Output) : (s.emit o).regions = s.regions := rfl
@[simp] theorem State.emit_mgmt (s : State) (o : Output) : (s.emit o).mgmt = s.mgmt := rfl
@[simp] theorem State.emit_nv (s : State) (o : Output) : (s.emit o).nv = s.nv := rfl
@[simp] theorem State.emit_boot (s : State) (o : Output) : (s.emit o).boot = s.boot := rfl
@[simp] theorem State.emit_resets (s : State) (o : Output) : (s.emit o).resets = s.resets := rfl
@[simp] theorem State.emit_blockResets (s : State) (o : Output) : (s.emit o).blockResets = s.blockResets := rfl
@[simp] theorem State.emit_clk (s : State) (o : Output) : (s.emit o).clk = s.clk := rfl
@[simp] theorem State.emit_pwr (s : State) (o : Output) : (s.emit o).pwr = s.pwr := rfl
@[simp] theorem State.emit_scl (s : State) (o : Output) : (s.emit o).scl = s.scl := rfl
@[simp] theorem State.emit_mirror (s : State) (o : Output) : (s.emit o).mirror = s.mirror := rfl
@[simp] theorem State.emit_work (s : State) (o : Output) : (s.emit o).work = s.work := rfl
@[simp] theorem State.emit_workSeq (s : State) (o : Output) : (s.emit o).workSeq = s.workSeq := rfl
@[simp] theorem State.emit_workAt (s : State) (o : Output) : (s.emit o).workAt = s.workAt := rfl
@[simp] theorem State.emit_statusAt (s : State) (o : Output) : (s.emit o).statusAt = s.statusAt := rfl
@[simp] theorem State.emit_fresh (s : State) (o : Output) : (s.emit o).fresh = s.fresh := rfl
@[simp] theorem State.emit_pending (s : State) (o : Output) : (s.emit o).pending = s.pending := rfl
@[simp] theorem State.emit_read_get (s : State) (o : Output) (j : Nat) : (s.emit o).get j = s.get j := rfl
@[simp] theorem State.emit_read_dget (s : State) (o : Output) (j : Nat) : (s.emit o).dget j = s.dget j := rfl
@[simp] theorem State.emit_read_port (s : State) (o : Output) (j : Nat) : (s.emit o).port j = s.port j := rfl
@[simp] theorem State.emit_read_part (s : State) (o : Output) (j : Nat) : (s.emit o).part j = s.part j := rfl
@[simp] theorem State.emit_read_net (s : State) (o : Output) (j : Nat) : (s.emit o).net j = s.net j := rfl
@[simp] theorem State.emit_read_now (s : State) (o : Output)  : (s.emit o).now = s.now := rfl
@[simp] theorem State.emit_read_cmd (s : State) (o : Output) (j : Nat) : (s.emit o).cmd? j = s.cmd? j := rfl
@[simp] theorem State.emit_read_vault (s : State) (o : Output) (j : Nat) : (s.emit o).vault j = s.vault j := rfl
@[simp] theorem State.emit_read_stand (s : State) (o : Output) (j : Nat) : (s.emit o).stand j = s.stand j := rfl
@[simp] theorem State.emit_read_byte (s : State) (o : Output) (j : Nat) : (s.emit o).byte j = s.byte j := rfl

/-! ### setPort -/

@[simp] theorem State.setPort_ticks (s : State) (p : Nat) (x : HostPort) : (s.setPort p x).ticks = s.ticks := rfl
@[simp] theorem State.setPort_od (s : State) (p : Nat) (x : HostPort) : (s.setPort p x).od = s.od := rfl
@[simp] theorem State.setPort_dom (s : State) (p : Nat) (x : HostPort) : (s.setPort p x).dom = s.dom := rfl
@[simp] theorem State.setPort_div (s : State) (p : Nat) (x : HostPort) : (s.setPort p x).div = s.div := rfl
@[simp] theorem State.setPort_mem (s : State) (p : Nat) (x : HostPort) : (s.setPort p x).mem = s.mem := rfl
@[simp] theorem State.setPort_flips (s : State) (p : Nat) (x : HostPort) : (s.setPort p x).flips = s.flips := rfl
@[simp] theorem State.setPort_lbuf (s : State) (p : Nat) (x : HostPort) : (s.setPort p x).lbuf = s.lbuf := rfl
@[simp] theorem State.setPort_sram (s : State) (p : Nat) (x : HostPort) : (s.setPort p x).sram = s.sram := rfl
@[simp] theorem State.setPort_vaults (s : State) (p : Nat) (x : HostPort) : (s.setPort p x).vaults = s.vaults := rfl
@[simp] theorem State.setPort_stands (s : State) (p : Nat) (x : HostPort) : (s.setPort p x).stands = s.stands := rfl
@[simp] theorem State.setPort_repairs (s : State) (p : Nat) (x : HostPort) : (s.setPort p x).repairs = s.repairs := rfl
@[simp] theorem State.setPort_repairPass (s : State) (p : Nat) (x : HostPort) : (s.setPort p x).repairPass = s.repairPass := rfl
@[simp] theorem State.setPort_repairQueue (s : State) (p : Nat) (x : HostPort) : (s.setPort p x).repairQueue = s.repairQueue := rfl
@[simp] theorem State.setPort_errLog (s : State) (p : Nat) (x : HostPort) : (s.setPort p x).errLog = s.errLog := rfl
@[simp] theorem State.setPort_wipes (s : State) (p : Nat) (x : HostPort) : (s.setPort p x).wipes = s.wipes := rfl
@[simp] theorem State.setPort_cmds (s : State) (p : Nat) (x : HostPort) : (s.setPort p x).cmds = s.cmds := rfl
@[simp] theorem State.setPort_nextId (s : State) (p : Nat) (x : HostPort) : (s.setPort p x).nextId = s.nextId := rfl
@[simp] theorem State.setPort_parts (s : State) (p : Nat) (x : HostPort) : (s.setPort p x).parts = s.parts := rfl
@[simp] theorem State.setPort_rltReqs (s : State) (p : Nat) (x : HostPort) : (s.setPort p x).rltReqs = s.rltReqs := rfl
@[simp] theorem State.setPort_nextReq (s : State) (p : Nat) (x : HostPort) : (s.setPort p x).nextReq = s.nextReq := rfl
@[simp] theorem State.setPort_cores (s : State) (p : Nat) (x : HostPort) : (s.setPort p x).cores = s.cores := rfl
@[simp] theorem State.setPort_prefetched (s : State) (p : Nat) (x : HostPort) : (s.setPort p x).prefetched = s.prefetched := rfl
@[simp] theorem State.setPort_nextBorn (s : State) (p : Nat) (x : HostPort) : (s.setPort p x).nextBorn = s.nextBorn := rfl
@[simp] theorem State.setPort_engines (s : State) (p : Nat) (x : HostPort) : (s.setPort p x).engines = s.engines := rfl
@[simp] theorem State.setPort_laneHeads (s : State) (p : Nat) (x : HostPort) : (s.setPort p x).laneHeads = s.laneHeads := rfl
@[simp] theorem State.setPort_down (s : State) (p : Nat) (x : HostPort) : (s.setPort p x).down = s.down := rfl
@[simp] theorem State.setPort_lanes (s : State) (p : Nat) (x : HostPort) : (s.setPort p x).lanes = s.lanes := rfl
@[simp] theorem State.setPort_freed (s : State) (p : Nat) (x : HostPort) : (s.setPort p x).freed = s.freed := rfl
@[simp] theorem State.setPort_klib (s : State) (p : Nat) (x : HostPort) : (s.setPort p x).klib = s.klib := rfl
@[simp] theorem State.setPort_nets (s : State) (p : Nat) (x : HostPort) : (s.setPort p x).nets = s.nets := rfl
@[simp] theorem State.setPort_regions (s : State) (p : Nat) (x : HostPort) : (s.setPort p x).regions = s.regions := rfl
@[simp] theorem State.setPort_mgmt (s : State) (p : Nat) (x : HostPort) : (s.setPort p x).mgmt = s.mgmt := rfl
@[simp] theorem State.setPort_nv (s : State) (p : Nat) (x : HostPort) : (s.setPort p x).nv = s.nv := rfl
@[simp] theorem State.setPort_boot (s : State) (p : Nat) (x : HostPort) : (s.setPort p x).boot = s.boot := rfl
@[simp] theorem State.setPort_resets (s : State) (p : Nat) (x : HostPort) : (s.setPort p x).resets = s.resets := rfl
@[simp] theorem State.setPort_blockResets (s : State) (p : Nat) (x : HostPort) : (s.setPort p x).blockResets = s.blockResets := rfl
@[simp] theorem State.setPort_clk (s : State) (p : Nat) (x : HostPort) : (s.setPort p x).clk = s.clk := rfl
@[simp] theorem State.setPort_pwr (s : State) (p : Nat) (x : HostPort) : (s.setPort p x).pwr = s.pwr := rfl
@[simp] theorem State.setPort_scl (s : State) (p : Nat) (x : HostPort) : (s.setPort p x).scl = s.scl := rfl
@[simp] theorem State.setPort_mirror (s : State) (p : Nat) (x : HostPort) : (s.setPort p x).mirror = s.mirror := rfl
@[simp] theorem State.setPort_work (s : State) (p : Nat) (x : HostPort) : (s.setPort p x).work = s.work := rfl
@[simp] theorem State.setPort_workSeq (s : State) (p : Nat) (x : HostPort) : (s.setPort p x).workSeq = s.workSeq := rfl
@[simp] theorem State.setPort_workAt (s : State) (p : Nat) (x : HostPort) : (s.setPort p x).workAt = s.workAt := rfl
@[simp] theorem State.setPort_statusAt (s : State) (p : Nat) (x : HostPort) : (s.setPort p x).statusAt = s.statusAt := rfl
@[simp] theorem State.setPort_fresh (s : State) (p : Nat) (x : HostPort) : (s.setPort p x).fresh = s.fresh := rfl
@[simp] theorem State.setPort_out (s : State) (p : Nat) (x : HostPort) : (s.setPort p x).out = s.out := rfl
@[simp] theorem State.setPort_pending (s : State) (p : Nat) (x : HostPort) : (s.setPort p x).pending = s.pending := rfl
@[simp] theorem State.setPort_read_get (s : State) (p : Nat) (x : HostPort) (j : Nat) : (s.setPort p x).get j = s.get j := rfl
@[simp] theorem State.setPort_read_dget (s : State) (p : Nat) (x : HostPort) (j : Nat) : (s.setPort p x).dget j = s.dget j := rfl
@[simp] theorem State.setPort_read_part (s : State) (p : Nat) (x : HostPort) (j : Nat) : (s.setPort p x).part j = s.part j := rfl
@[simp] theorem State.setPort_read_net (s : State) (p : Nat) (x : HostPort) (j : Nat) : (s.setPort p x).net j = s.net j := rfl
@[simp] theorem State.setPort_read_now (s : State) (p : Nat) (x : HostPort)  : (s.setPort p x).now = s.now := rfl
@[simp] theorem State.setPort_read_cmd (s : State) (p : Nat) (x : HostPort) (j : Nat) : (s.setPort p x).cmd? j = s.cmd? j := rfl
@[simp] theorem State.setPort_read_vault (s : State) (p : Nat) (x : HostPort) (j : Nat) : (s.setPort p x).vault j = s.vault j := rfl
@[simp] theorem State.setPort_read_stand (s : State) (p : Nat) (x : HostPort) (j : Nat) : (s.setPort p x).stand j = s.stand j := rfl
@[simp] theorem State.setPort_read_byte (s : State) (p : Nat) (x : HostPort) (j : Nat) : (s.setPort p x).byte j = s.byte j := rfl

/-! ### setPart -/

@[simp] theorem State.setPart_ticks (s : State) (p : Nat) (x : Part) : (s.setPart p x).ticks = s.ticks := rfl
@[simp] theorem State.setPart_od (s : State) (p : Nat) (x : Part) : (s.setPart p x).od = s.od := rfl
@[simp] theorem State.setPart_dom (s : State) (p : Nat) (x : Part) : (s.setPart p x).dom = s.dom := rfl
@[simp] theorem State.setPart_div (s : State) (p : Nat) (x : Part) : (s.setPart p x).div = s.div := rfl
@[simp] theorem State.setPart_mem (s : State) (p : Nat) (x : Part) : (s.setPart p x).mem = s.mem := rfl
@[simp] theorem State.setPart_flips (s : State) (p : Nat) (x : Part) : (s.setPart p x).flips = s.flips := rfl
@[simp] theorem State.setPart_lbuf (s : State) (p : Nat) (x : Part) : (s.setPart p x).lbuf = s.lbuf := rfl
@[simp] theorem State.setPart_sram (s : State) (p : Nat) (x : Part) : (s.setPart p x).sram = s.sram := rfl
@[simp] theorem State.setPart_vaults (s : State) (p : Nat) (x : Part) : (s.setPart p x).vaults = s.vaults := rfl
@[simp] theorem State.setPart_stands (s : State) (p : Nat) (x : Part) : (s.setPart p x).stands = s.stands := rfl
@[simp] theorem State.setPart_repairs (s : State) (p : Nat) (x : Part) : (s.setPart p x).repairs = s.repairs := rfl
@[simp] theorem State.setPart_repairPass (s : State) (p : Nat) (x : Part) : (s.setPart p x).repairPass = s.repairPass := rfl
@[simp] theorem State.setPart_repairQueue (s : State) (p : Nat) (x : Part) : (s.setPart p x).repairQueue = s.repairQueue := rfl
@[simp] theorem State.setPart_errLog (s : State) (p : Nat) (x : Part) : (s.setPart p x).errLog = s.errLog := rfl
@[simp] theorem State.setPart_wipes (s : State) (p : Nat) (x : Part) : (s.setPart p x).wipes = s.wipes := rfl
@[simp] theorem State.setPart_ports (s : State) (p : Nat) (x : Part) : (s.setPart p x).ports = s.ports := rfl
@[simp] theorem State.setPart_cmds (s : State) (p : Nat) (x : Part) : (s.setPart p x).cmds = s.cmds := rfl
@[simp] theorem State.setPart_nextId (s : State) (p : Nat) (x : Part) : (s.setPart p x).nextId = s.nextId := rfl
@[simp] theorem State.setPart_rltReqs (s : State) (p : Nat) (x : Part) : (s.setPart p x).rltReqs = s.rltReqs := rfl
@[simp] theorem State.setPart_nextReq (s : State) (p : Nat) (x : Part) : (s.setPart p x).nextReq = s.nextReq := rfl
@[simp] theorem State.setPart_cores (s : State) (p : Nat) (x : Part) : (s.setPart p x).cores = s.cores := rfl
@[simp] theorem State.setPart_prefetched (s : State) (p : Nat) (x : Part) : (s.setPart p x).prefetched = s.prefetched := rfl
@[simp] theorem State.setPart_nextBorn (s : State) (p : Nat) (x : Part) : (s.setPart p x).nextBorn = s.nextBorn := rfl
@[simp] theorem State.setPart_engines (s : State) (p : Nat) (x : Part) : (s.setPart p x).engines = s.engines := rfl
@[simp] theorem State.setPart_laneHeads (s : State) (p : Nat) (x : Part) : (s.setPart p x).laneHeads = s.laneHeads := rfl
@[simp] theorem State.setPart_down (s : State) (p : Nat) (x : Part) : (s.setPart p x).down = s.down := rfl
@[simp] theorem State.setPart_lanes (s : State) (p : Nat) (x : Part) : (s.setPart p x).lanes = s.lanes := rfl
@[simp] theorem State.setPart_freed (s : State) (p : Nat) (x : Part) : (s.setPart p x).freed = s.freed := rfl
@[simp] theorem State.setPart_klib (s : State) (p : Nat) (x : Part) : (s.setPart p x).klib = s.klib := rfl
@[simp] theorem State.setPart_nets (s : State) (p : Nat) (x : Part) : (s.setPart p x).nets = s.nets := rfl
@[simp] theorem State.setPart_regions (s : State) (p : Nat) (x : Part) : (s.setPart p x).regions = s.regions := rfl
@[simp] theorem State.setPart_mgmt (s : State) (p : Nat) (x : Part) : (s.setPart p x).mgmt = s.mgmt := rfl
@[simp] theorem State.setPart_nv (s : State) (p : Nat) (x : Part) : (s.setPart p x).nv = s.nv := rfl
@[simp] theorem State.setPart_boot (s : State) (p : Nat) (x : Part) : (s.setPart p x).boot = s.boot := rfl
@[simp] theorem State.setPart_resets (s : State) (p : Nat) (x : Part) : (s.setPart p x).resets = s.resets := rfl
@[simp] theorem State.setPart_blockResets (s : State) (p : Nat) (x : Part) : (s.setPart p x).blockResets = s.blockResets := rfl
@[simp] theorem State.setPart_clk (s : State) (p : Nat) (x : Part) : (s.setPart p x).clk = s.clk := rfl
@[simp] theorem State.setPart_pwr (s : State) (p : Nat) (x : Part) : (s.setPart p x).pwr = s.pwr := rfl
@[simp] theorem State.setPart_scl (s : State) (p : Nat) (x : Part) : (s.setPart p x).scl = s.scl := rfl
@[simp] theorem State.setPart_mirror (s : State) (p : Nat) (x : Part) : (s.setPart p x).mirror = s.mirror := rfl
@[simp] theorem State.setPart_work (s : State) (p : Nat) (x : Part) : (s.setPart p x).work = s.work := rfl
@[simp] theorem State.setPart_workSeq (s : State) (p : Nat) (x : Part) : (s.setPart p x).workSeq = s.workSeq := rfl
@[simp] theorem State.setPart_workAt (s : State) (p : Nat) (x : Part) : (s.setPart p x).workAt = s.workAt := rfl
@[simp] theorem State.setPart_statusAt (s : State) (p : Nat) (x : Part) : (s.setPart p x).statusAt = s.statusAt := rfl
@[simp] theorem State.setPart_fresh (s : State) (p : Nat) (x : Part) : (s.setPart p x).fresh = s.fresh := rfl
@[simp] theorem State.setPart_out (s : State) (p : Nat) (x : Part) : (s.setPart p x).out = s.out := rfl
@[simp] theorem State.setPart_pending (s : State) (p : Nat) (x : Part) : (s.setPart p x).pending = s.pending := rfl
@[simp] theorem State.setPart_read_get (s : State) (p : Nat) (x : Part) (j : Nat) : (s.setPart p x).get j = s.get j := rfl
@[simp] theorem State.setPart_read_dget (s : State) (p : Nat) (x : Part) (j : Nat) : (s.setPart p x).dget j = s.dget j := rfl
@[simp] theorem State.setPart_read_port (s : State) (p : Nat) (x : Part) (j : Nat) : (s.setPart p x).port j = s.port j := rfl
@[simp] theorem State.setPart_read_net (s : State) (p : Nat) (x : Part) (j : Nat) : (s.setPart p x).net j = s.net j := rfl
@[simp] theorem State.setPart_read_now (s : State) (p : Nat) (x : Part)  : (s.setPart p x).now = s.now := rfl
@[simp] theorem State.setPart_read_cmd (s : State) (p : Nat) (x : Part) (j : Nat) : (s.setPart p x).cmd? j = s.cmd? j := rfl
@[simp] theorem State.setPart_read_vault (s : State) (p : Nat) (x : Part) (j : Nat) : (s.setPart p x).vault j = s.vault j := rfl
@[simp] theorem State.setPart_read_stand (s : State) (p : Nat) (x : Part) (j : Nat) : (s.setPart p x).stand j = s.stand j := rfl
@[simp] theorem State.setPart_read_byte (s : State) (p : Nat) (x : Part) (j : Nat) : (s.setPart p x).byte j = s.byte j := rfl

/-! ### setNet -/

@[simp] theorem State.setNet_ticks (s : State) (n : Nat) (x : NetPort) : (s.setNet n x).ticks = s.ticks := rfl
@[simp] theorem State.setNet_od (s : State) (n : Nat) (x : NetPort) : (s.setNet n x).od = s.od := rfl
@[simp] theorem State.setNet_dom (s : State) (n : Nat) (x : NetPort) : (s.setNet n x).dom = s.dom := rfl
@[simp] theorem State.setNet_div (s : State) (n : Nat) (x : NetPort) : (s.setNet n x).div = s.div := rfl
@[simp] theorem State.setNet_mem (s : State) (n : Nat) (x : NetPort) : (s.setNet n x).mem = s.mem := rfl
@[simp] theorem State.setNet_flips (s : State) (n : Nat) (x : NetPort) : (s.setNet n x).flips = s.flips := rfl
@[simp] theorem State.setNet_lbuf (s : State) (n : Nat) (x : NetPort) : (s.setNet n x).lbuf = s.lbuf := rfl
@[simp] theorem State.setNet_sram (s : State) (n : Nat) (x : NetPort) : (s.setNet n x).sram = s.sram := rfl
@[simp] theorem State.setNet_vaults (s : State) (n : Nat) (x : NetPort) : (s.setNet n x).vaults = s.vaults := rfl
@[simp] theorem State.setNet_stands (s : State) (n : Nat) (x : NetPort) : (s.setNet n x).stands = s.stands := rfl
@[simp] theorem State.setNet_repairs (s : State) (n : Nat) (x : NetPort) : (s.setNet n x).repairs = s.repairs := rfl
@[simp] theorem State.setNet_repairPass (s : State) (n : Nat) (x : NetPort) : (s.setNet n x).repairPass = s.repairPass := rfl
@[simp] theorem State.setNet_repairQueue (s : State) (n : Nat) (x : NetPort) : (s.setNet n x).repairQueue = s.repairQueue := rfl
@[simp] theorem State.setNet_errLog (s : State) (n : Nat) (x : NetPort) : (s.setNet n x).errLog = s.errLog := rfl
@[simp] theorem State.setNet_wipes (s : State) (n : Nat) (x : NetPort) : (s.setNet n x).wipes = s.wipes := rfl
@[simp] theorem State.setNet_ports (s : State) (n : Nat) (x : NetPort) : (s.setNet n x).ports = s.ports := rfl
@[simp] theorem State.setNet_cmds (s : State) (n : Nat) (x : NetPort) : (s.setNet n x).cmds = s.cmds := rfl
@[simp] theorem State.setNet_nextId (s : State) (n : Nat) (x : NetPort) : (s.setNet n x).nextId = s.nextId := rfl
@[simp] theorem State.setNet_parts (s : State) (n : Nat) (x : NetPort) : (s.setNet n x).parts = s.parts := rfl
@[simp] theorem State.setNet_rltReqs (s : State) (n : Nat) (x : NetPort) : (s.setNet n x).rltReqs = s.rltReqs := rfl
@[simp] theorem State.setNet_nextReq (s : State) (n : Nat) (x : NetPort) : (s.setNet n x).nextReq = s.nextReq := rfl
@[simp] theorem State.setNet_cores (s : State) (n : Nat) (x : NetPort) : (s.setNet n x).cores = s.cores := rfl
@[simp] theorem State.setNet_prefetched (s : State) (n : Nat) (x : NetPort) : (s.setNet n x).prefetched = s.prefetched := rfl
@[simp] theorem State.setNet_nextBorn (s : State) (n : Nat) (x : NetPort) : (s.setNet n x).nextBorn = s.nextBorn := rfl
@[simp] theorem State.setNet_engines (s : State) (n : Nat) (x : NetPort) : (s.setNet n x).engines = s.engines := rfl
@[simp] theorem State.setNet_laneHeads (s : State) (n : Nat) (x : NetPort) : (s.setNet n x).laneHeads = s.laneHeads := rfl
@[simp] theorem State.setNet_down (s : State) (n : Nat) (x : NetPort) : (s.setNet n x).down = s.down := rfl
@[simp] theorem State.setNet_lanes (s : State) (n : Nat) (x : NetPort) : (s.setNet n x).lanes = s.lanes := rfl
@[simp] theorem State.setNet_freed (s : State) (n : Nat) (x : NetPort) : (s.setNet n x).freed = s.freed := rfl
@[simp] theorem State.setNet_klib (s : State) (n : Nat) (x : NetPort) : (s.setNet n x).klib = s.klib := rfl
@[simp] theorem State.setNet_regions (s : State) (n : Nat) (x : NetPort) : (s.setNet n x).regions = s.regions := rfl
@[simp] theorem State.setNet_mgmt (s : State) (n : Nat) (x : NetPort) : (s.setNet n x).mgmt = s.mgmt := rfl
@[simp] theorem State.setNet_nv (s : State) (n : Nat) (x : NetPort) : (s.setNet n x).nv = s.nv := rfl
@[simp] theorem State.setNet_boot (s : State) (n : Nat) (x : NetPort) : (s.setNet n x).boot = s.boot := rfl
@[simp] theorem State.setNet_resets (s : State) (n : Nat) (x : NetPort) : (s.setNet n x).resets = s.resets := rfl
@[simp] theorem State.setNet_blockResets (s : State) (n : Nat) (x : NetPort) : (s.setNet n x).blockResets = s.blockResets := rfl
@[simp] theorem State.setNet_clk (s : State) (n : Nat) (x : NetPort) : (s.setNet n x).clk = s.clk := rfl
@[simp] theorem State.setNet_pwr (s : State) (n : Nat) (x : NetPort) : (s.setNet n x).pwr = s.pwr := rfl
@[simp] theorem State.setNet_scl (s : State) (n : Nat) (x : NetPort) : (s.setNet n x).scl = s.scl := rfl
@[simp] theorem State.setNet_mirror (s : State) (n : Nat) (x : NetPort) : (s.setNet n x).mirror = s.mirror := rfl
@[simp] theorem State.setNet_work (s : State) (n : Nat) (x : NetPort) : (s.setNet n x).work = s.work := rfl
@[simp] theorem State.setNet_workSeq (s : State) (n : Nat) (x : NetPort) : (s.setNet n x).workSeq = s.workSeq := rfl
@[simp] theorem State.setNet_workAt (s : State) (n : Nat) (x : NetPort) : (s.setNet n x).workAt = s.workAt := rfl
@[simp] theorem State.setNet_statusAt (s : State) (n : Nat) (x : NetPort) : (s.setNet n x).statusAt = s.statusAt := rfl
@[simp] theorem State.setNet_fresh (s : State) (n : Nat) (x : NetPort) : (s.setNet n x).fresh = s.fresh := rfl
@[simp] theorem State.setNet_out (s : State) (n : Nat) (x : NetPort) : (s.setNet n x).out = s.out := rfl
@[simp] theorem State.setNet_pending (s : State) (n : Nat) (x : NetPort) : (s.setNet n x).pending = s.pending := rfl
@[simp] theorem State.setNet_read_get (s : State) (n : Nat) (x : NetPort) (j : Nat) : (s.setNet n x).get j = s.get j := rfl
@[simp] theorem State.setNet_read_dget (s : State) (n : Nat) (x : NetPort) (j : Nat) : (s.setNet n x).dget j = s.dget j := rfl
@[simp] theorem State.setNet_read_port (s : State) (n : Nat) (x : NetPort) (j : Nat) : (s.setNet n x).port j = s.port j := rfl
@[simp] theorem State.setNet_read_part (s : State) (n : Nat) (x : NetPort) (j : Nat) : (s.setNet n x).part j = s.part j := rfl
@[simp] theorem State.setNet_read_now (s : State) (n : Nat) (x : NetPort)  : (s.setNet n x).now = s.now := rfl
@[simp] theorem State.setNet_read_cmd (s : State) (n : Nat) (x : NetPort) (j : Nat) : (s.setNet n x).cmd? j = s.cmd? j := rfl
@[simp] theorem State.setNet_read_vault (s : State) (n : Nat) (x : NetPort) (j : Nat) : (s.setNet n x).vault j = s.vault j := rfl
@[simp] theorem State.setNet_read_stand (s : State) (n : Nat) (x : NetPort) (j : Nat) : (s.setNet n x).stand j = s.stand j := rfl
@[simp] theorem State.setNet_read_byte (s : State) (n : Nat) (x : NetPort) (j : Nat) : (s.setNet n x).byte j = s.byte j := rfl

/-! ### setVault -/

@[simp] theorem State.setVault_ticks (s : State) (v : Nat) (x : Vault) : (s.setVault v x).ticks = s.ticks := rfl
@[simp] theorem State.setVault_od (s : State) (v : Nat) (x : Vault) : (s.setVault v x).od = s.od := rfl
@[simp] theorem State.setVault_dom (s : State) (v : Nat) (x : Vault) : (s.setVault v x).dom = s.dom := rfl
@[simp] theorem State.setVault_div (s : State) (v : Nat) (x : Vault) : (s.setVault v x).div = s.div := rfl
@[simp] theorem State.setVault_mem (s : State) (v : Nat) (x : Vault) : (s.setVault v x).mem = s.mem := rfl
@[simp] theorem State.setVault_flips (s : State) (v : Nat) (x : Vault) : (s.setVault v x).flips = s.flips := rfl
@[simp] theorem State.setVault_lbuf (s : State) (v : Nat) (x : Vault) : (s.setVault v x).lbuf = s.lbuf := rfl
@[simp] theorem State.setVault_sram (s : State) (v : Nat) (x : Vault) : (s.setVault v x).sram = s.sram := rfl
@[simp] theorem State.setVault_stands (s : State) (v : Nat) (x : Vault) : (s.setVault v x).stands = s.stands := rfl
@[simp] theorem State.setVault_repairs (s : State) (v : Nat) (x : Vault) : (s.setVault v x).repairs = s.repairs := rfl
@[simp] theorem State.setVault_repairPass (s : State) (v : Nat) (x : Vault) : (s.setVault v x).repairPass = s.repairPass := rfl
@[simp] theorem State.setVault_repairQueue (s : State) (v : Nat) (x : Vault) : (s.setVault v x).repairQueue = s.repairQueue := rfl
@[simp] theorem State.setVault_errLog (s : State) (v : Nat) (x : Vault) : (s.setVault v x).errLog = s.errLog := rfl
@[simp] theorem State.setVault_wipes (s : State) (v : Nat) (x : Vault) : (s.setVault v x).wipes = s.wipes := rfl
@[simp] theorem State.setVault_ports (s : State) (v : Nat) (x : Vault) : (s.setVault v x).ports = s.ports := rfl
@[simp] theorem State.setVault_cmds (s : State) (v : Nat) (x : Vault) : (s.setVault v x).cmds = s.cmds := rfl
@[simp] theorem State.setVault_nextId (s : State) (v : Nat) (x : Vault) : (s.setVault v x).nextId = s.nextId := rfl
@[simp] theorem State.setVault_parts (s : State) (v : Nat) (x : Vault) : (s.setVault v x).parts = s.parts := rfl
@[simp] theorem State.setVault_rltReqs (s : State) (v : Nat) (x : Vault) : (s.setVault v x).rltReqs = s.rltReqs := rfl
@[simp] theorem State.setVault_nextReq (s : State) (v : Nat) (x : Vault) : (s.setVault v x).nextReq = s.nextReq := rfl
@[simp] theorem State.setVault_cores (s : State) (v : Nat) (x : Vault) : (s.setVault v x).cores = s.cores := rfl
@[simp] theorem State.setVault_prefetched (s : State) (v : Nat) (x : Vault) : (s.setVault v x).prefetched = s.prefetched := rfl
@[simp] theorem State.setVault_nextBorn (s : State) (v : Nat) (x : Vault) : (s.setVault v x).nextBorn = s.nextBorn := rfl
@[simp] theorem State.setVault_engines (s : State) (v : Nat) (x : Vault) : (s.setVault v x).engines = s.engines := rfl
@[simp] theorem State.setVault_laneHeads (s : State) (v : Nat) (x : Vault) : (s.setVault v x).laneHeads = s.laneHeads := rfl
@[simp] theorem State.setVault_down (s : State) (v : Nat) (x : Vault) : (s.setVault v x).down = s.down := rfl
@[simp] theorem State.setVault_lanes (s : State) (v : Nat) (x : Vault) : (s.setVault v x).lanes = s.lanes := rfl
@[simp] theorem State.setVault_freed (s : State) (v : Nat) (x : Vault) : (s.setVault v x).freed = s.freed := rfl
@[simp] theorem State.setVault_klib (s : State) (v : Nat) (x : Vault) : (s.setVault v x).klib = s.klib := rfl
@[simp] theorem State.setVault_nets (s : State) (v : Nat) (x : Vault) : (s.setVault v x).nets = s.nets := rfl
@[simp] theorem State.setVault_regions (s : State) (v : Nat) (x : Vault) : (s.setVault v x).regions = s.regions := rfl
@[simp] theorem State.setVault_mgmt (s : State) (v : Nat) (x : Vault) : (s.setVault v x).mgmt = s.mgmt := rfl
@[simp] theorem State.setVault_nv (s : State) (v : Nat) (x : Vault) : (s.setVault v x).nv = s.nv := rfl
@[simp] theorem State.setVault_boot (s : State) (v : Nat) (x : Vault) : (s.setVault v x).boot = s.boot := rfl
@[simp] theorem State.setVault_resets (s : State) (v : Nat) (x : Vault) : (s.setVault v x).resets = s.resets := rfl
@[simp] theorem State.setVault_blockResets (s : State) (v : Nat) (x : Vault) : (s.setVault v x).blockResets = s.blockResets := rfl
@[simp] theorem State.setVault_clk (s : State) (v : Nat) (x : Vault) : (s.setVault v x).clk = s.clk := rfl
@[simp] theorem State.setVault_pwr (s : State) (v : Nat) (x : Vault) : (s.setVault v x).pwr = s.pwr := rfl
@[simp] theorem State.setVault_scl (s : State) (v : Nat) (x : Vault) : (s.setVault v x).scl = s.scl := rfl
@[simp] theorem State.setVault_mirror (s : State) (v : Nat) (x : Vault) : (s.setVault v x).mirror = s.mirror := rfl
@[simp] theorem State.setVault_work (s : State) (v : Nat) (x : Vault) : (s.setVault v x).work = s.work := rfl
@[simp] theorem State.setVault_workSeq (s : State) (v : Nat) (x : Vault) : (s.setVault v x).workSeq = s.workSeq := rfl
@[simp] theorem State.setVault_workAt (s : State) (v : Nat) (x : Vault) : (s.setVault v x).workAt = s.workAt := rfl
@[simp] theorem State.setVault_statusAt (s : State) (v : Nat) (x : Vault) : (s.setVault v x).statusAt = s.statusAt := rfl
@[simp] theorem State.setVault_fresh (s : State) (v : Nat) (x : Vault) : (s.setVault v x).fresh = s.fresh := rfl
@[simp] theorem State.setVault_out (s : State) (v : Nat) (x : Vault) : (s.setVault v x).out = s.out := rfl
@[simp] theorem State.setVault_pending (s : State) (v : Nat) (x : Vault) : (s.setVault v x).pending = s.pending := rfl
@[simp] theorem State.setVault_read_get (s : State) (v : Nat) (x : Vault) (j : Nat) : (s.setVault v x).get j = s.get j := rfl
@[simp] theorem State.setVault_read_dget (s : State) (v : Nat) (x : Vault) (j : Nat) : (s.setVault v x).dget j = s.dget j := rfl
@[simp] theorem State.setVault_read_port (s : State) (v : Nat) (x : Vault) (j : Nat) : (s.setVault v x).port j = s.port j := rfl
@[simp] theorem State.setVault_read_part (s : State) (v : Nat) (x : Vault) (j : Nat) : (s.setVault v x).part j = s.part j := rfl
@[simp] theorem State.setVault_read_net (s : State) (v : Nat) (x : Vault) (j : Nat) : (s.setVault v x).net j = s.net j := rfl
@[simp] theorem State.setVault_read_now (s : State) (v : Nat) (x : Vault)  : (s.setVault v x).now = s.now := rfl
@[simp] theorem State.setVault_read_cmd (s : State) (v : Nat) (x : Vault) (j : Nat) : (s.setVault v x).cmd? j = s.cmd? j := rfl
@[simp] theorem State.setVault_read_stand (s : State) (v : Nat) (x : Vault) (j : Nat) : (s.setVault v x).stand j = s.stand j := rfl
@[simp] theorem State.setVault_read_byte (s : State) (v : Nat) (x : Vault) (j : Nat) : (s.setVault v x).byte j = s.byte j := rfl

/-! ### setStand -/

@[simp] theorem State.setStand_ticks (s : State) (n : Nat) (x : Stand) : (s.setStand n x).ticks = s.ticks := rfl
@[simp] theorem State.setStand_od (s : State) (n : Nat) (x : Stand) : (s.setStand n x).od = s.od := rfl
@[simp] theorem State.setStand_dom (s : State) (n : Nat) (x : Stand) : (s.setStand n x).dom = s.dom := rfl
@[simp] theorem State.setStand_div (s : State) (n : Nat) (x : Stand) : (s.setStand n x).div = s.div := rfl
@[simp] theorem State.setStand_mem (s : State) (n : Nat) (x : Stand) : (s.setStand n x).mem = s.mem := rfl
@[simp] theorem State.setStand_flips (s : State) (n : Nat) (x : Stand) : (s.setStand n x).flips = s.flips := rfl
@[simp] theorem State.setStand_lbuf (s : State) (n : Nat) (x : Stand) : (s.setStand n x).lbuf = s.lbuf := rfl
@[simp] theorem State.setStand_sram (s : State) (n : Nat) (x : Stand) : (s.setStand n x).sram = s.sram := rfl
@[simp] theorem State.setStand_vaults (s : State) (n : Nat) (x : Stand) : (s.setStand n x).vaults = s.vaults := rfl
@[simp] theorem State.setStand_repairs (s : State) (n : Nat) (x : Stand) : (s.setStand n x).repairs = s.repairs := rfl
@[simp] theorem State.setStand_repairPass (s : State) (n : Nat) (x : Stand) : (s.setStand n x).repairPass = s.repairPass := rfl
@[simp] theorem State.setStand_repairQueue (s : State) (n : Nat) (x : Stand) : (s.setStand n x).repairQueue = s.repairQueue := rfl
@[simp] theorem State.setStand_errLog (s : State) (n : Nat) (x : Stand) : (s.setStand n x).errLog = s.errLog := rfl
@[simp] theorem State.setStand_wipes (s : State) (n : Nat) (x : Stand) : (s.setStand n x).wipes = s.wipes := rfl
@[simp] theorem State.setStand_ports (s : State) (n : Nat) (x : Stand) : (s.setStand n x).ports = s.ports := rfl
@[simp] theorem State.setStand_cmds (s : State) (n : Nat) (x : Stand) : (s.setStand n x).cmds = s.cmds := rfl
@[simp] theorem State.setStand_nextId (s : State) (n : Nat) (x : Stand) : (s.setStand n x).nextId = s.nextId := rfl
@[simp] theorem State.setStand_parts (s : State) (n : Nat) (x : Stand) : (s.setStand n x).parts = s.parts := rfl
@[simp] theorem State.setStand_rltReqs (s : State) (n : Nat) (x : Stand) : (s.setStand n x).rltReqs = s.rltReqs := rfl
@[simp] theorem State.setStand_nextReq (s : State) (n : Nat) (x : Stand) : (s.setStand n x).nextReq = s.nextReq := rfl
@[simp] theorem State.setStand_cores (s : State) (n : Nat) (x : Stand) : (s.setStand n x).cores = s.cores := rfl
@[simp] theorem State.setStand_prefetched (s : State) (n : Nat) (x : Stand) : (s.setStand n x).prefetched = s.prefetched := rfl
@[simp] theorem State.setStand_nextBorn (s : State) (n : Nat) (x : Stand) : (s.setStand n x).nextBorn = s.nextBorn := rfl
@[simp] theorem State.setStand_engines (s : State) (n : Nat) (x : Stand) : (s.setStand n x).engines = s.engines := rfl
@[simp] theorem State.setStand_laneHeads (s : State) (n : Nat) (x : Stand) : (s.setStand n x).laneHeads = s.laneHeads := rfl
@[simp] theorem State.setStand_down (s : State) (n : Nat) (x : Stand) : (s.setStand n x).down = s.down := rfl
@[simp] theorem State.setStand_lanes (s : State) (n : Nat) (x : Stand) : (s.setStand n x).lanes = s.lanes := rfl
@[simp] theorem State.setStand_freed (s : State) (n : Nat) (x : Stand) : (s.setStand n x).freed = s.freed := rfl
@[simp] theorem State.setStand_klib (s : State) (n : Nat) (x : Stand) : (s.setStand n x).klib = s.klib := rfl
@[simp] theorem State.setStand_nets (s : State) (n : Nat) (x : Stand) : (s.setStand n x).nets = s.nets := rfl
@[simp] theorem State.setStand_regions (s : State) (n : Nat) (x : Stand) : (s.setStand n x).regions = s.regions := rfl
@[simp] theorem State.setStand_mgmt (s : State) (n : Nat) (x : Stand) : (s.setStand n x).mgmt = s.mgmt := rfl
@[simp] theorem State.setStand_nv (s : State) (n : Nat) (x : Stand) : (s.setStand n x).nv = s.nv := rfl
@[simp] theorem State.setStand_boot (s : State) (n : Nat) (x : Stand) : (s.setStand n x).boot = s.boot := rfl
@[simp] theorem State.setStand_resets (s : State) (n : Nat) (x : Stand) : (s.setStand n x).resets = s.resets := rfl
@[simp] theorem State.setStand_blockResets (s : State) (n : Nat) (x : Stand) : (s.setStand n x).blockResets = s.blockResets := rfl
@[simp] theorem State.setStand_clk (s : State) (n : Nat) (x : Stand) : (s.setStand n x).clk = s.clk := rfl
@[simp] theorem State.setStand_pwr (s : State) (n : Nat) (x : Stand) : (s.setStand n x).pwr = s.pwr := rfl
@[simp] theorem State.setStand_scl (s : State) (n : Nat) (x : Stand) : (s.setStand n x).scl = s.scl := rfl
@[simp] theorem State.setStand_mirror (s : State) (n : Nat) (x : Stand) : (s.setStand n x).mirror = s.mirror := rfl
@[simp] theorem State.setStand_work (s : State) (n : Nat) (x : Stand) : (s.setStand n x).work = s.work := rfl
@[simp] theorem State.setStand_workSeq (s : State) (n : Nat) (x : Stand) : (s.setStand n x).workSeq = s.workSeq := rfl
@[simp] theorem State.setStand_workAt (s : State) (n : Nat) (x : Stand) : (s.setStand n x).workAt = s.workAt := rfl
@[simp] theorem State.setStand_statusAt (s : State) (n : Nat) (x : Stand) : (s.setStand n x).statusAt = s.statusAt := rfl
@[simp] theorem State.setStand_fresh (s : State) (n : Nat) (x : Stand) : (s.setStand n x).fresh = s.fresh := rfl
@[simp] theorem State.setStand_out (s : State) (n : Nat) (x : Stand) : (s.setStand n x).out = s.out := rfl
@[simp] theorem State.setStand_pending (s : State) (n : Nat) (x : Stand) : (s.setStand n x).pending = s.pending := rfl
@[simp] theorem State.setStand_read_get (s : State) (n : Nat) (x : Stand) (j : Nat) : (s.setStand n x).get j = s.get j := rfl
@[simp] theorem State.setStand_read_dget (s : State) (n : Nat) (x : Stand) (j : Nat) : (s.setStand n x).dget j = s.dget j := rfl
@[simp] theorem State.setStand_read_port (s : State) (n : Nat) (x : Stand) (j : Nat) : (s.setStand n x).port j = s.port j := rfl
@[simp] theorem State.setStand_read_part (s : State) (n : Nat) (x : Stand) (j : Nat) : (s.setStand n x).part j = s.part j := rfl
@[simp] theorem State.setStand_read_net (s : State) (n : Nat) (x : Stand) (j : Nat) : (s.setStand n x).net j = s.net j := rfl
@[simp] theorem State.setStand_read_now (s : State) (n : Nat) (x : Stand)  : (s.setStand n x).now = s.now := rfl
@[simp] theorem State.setStand_read_cmd (s : State) (n : Nat) (x : Stand) (j : Nat) : (s.setStand n x).cmd? j = s.cmd? j := rfl
@[simp] theorem State.setStand_read_vault (s : State) (n : Nat) (x : Stand) (j : Nat) : (s.setStand n x).vault j = s.vault j := rfl
@[simp] theorem State.setStand_read_byte (s : State) (n : Nat) (x : Stand) (j : Nat) : (s.setStand n x).byte j = s.byte j := rfl

/-! ### setByte -/

@[simp] theorem State.setByte_ticks (s : State) (da : Nat) (b : Byte) : (s.setByte da b).ticks = s.ticks := rfl
@[simp] theorem State.setByte_od (s : State) (da : Nat) (b : Byte) : (s.setByte da b).od = s.od := rfl
@[simp] theorem State.setByte_dom (s : State) (da : Nat) (b : Byte) : (s.setByte da b).dom = s.dom := rfl
@[simp] theorem State.setByte_div (s : State) (da : Nat) (b : Byte) : (s.setByte da b).div = s.div := rfl
@[simp] theorem State.setByte_flips (s : State) (da : Nat) (b : Byte) : (s.setByte da b).flips = s.flips := rfl
@[simp] theorem State.setByte_lbuf (s : State) (da : Nat) (b : Byte) : (s.setByte da b).lbuf = s.lbuf := rfl
@[simp] theorem State.setByte_sram (s : State) (da : Nat) (b : Byte) : (s.setByte da b).sram = s.sram := rfl
@[simp] theorem State.setByte_vaults (s : State) (da : Nat) (b : Byte) : (s.setByte da b).vaults = s.vaults := rfl
@[simp] theorem State.setByte_stands (s : State) (da : Nat) (b : Byte) : (s.setByte da b).stands = s.stands := rfl
@[simp] theorem State.setByte_repairs (s : State) (da : Nat) (b : Byte) : (s.setByte da b).repairs = s.repairs := rfl
@[simp] theorem State.setByte_repairPass (s : State) (da : Nat) (b : Byte) : (s.setByte da b).repairPass = s.repairPass := rfl
@[simp] theorem State.setByte_repairQueue (s : State) (da : Nat) (b : Byte) : (s.setByte da b).repairQueue = s.repairQueue := rfl
@[simp] theorem State.setByte_errLog (s : State) (da : Nat) (b : Byte) : (s.setByte da b).errLog = s.errLog := rfl
@[simp] theorem State.setByte_wipes (s : State) (da : Nat) (b : Byte) : (s.setByte da b).wipes = s.wipes := rfl
@[simp] theorem State.setByte_ports (s : State) (da : Nat) (b : Byte) : (s.setByte da b).ports = s.ports := rfl
@[simp] theorem State.setByte_cmds (s : State) (da : Nat) (b : Byte) : (s.setByte da b).cmds = s.cmds := rfl
@[simp] theorem State.setByte_nextId (s : State) (da : Nat) (b : Byte) : (s.setByte da b).nextId = s.nextId := rfl
@[simp] theorem State.setByte_parts (s : State) (da : Nat) (b : Byte) : (s.setByte da b).parts = s.parts := rfl
@[simp] theorem State.setByte_rltReqs (s : State) (da : Nat) (b : Byte) : (s.setByte da b).rltReqs = s.rltReqs := rfl
@[simp] theorem State.setByte_nextReq (s : State) (da : Nat) (b : Byte) : (s.setByte da b).nextReq = s.nextReq := rfl
@[simp] theorem State.setByte_cores (s : State) (da : Nat) (b : Byte) : (s.setByte da b).cores = s.cores := rfl
@[simp] theorem State.setByte_prefetched (s : State) (da : Nat) (b : Byte) : (s.setByte da b).prefetched = s.prefetched := rfl
@[simp] theorem State.setByte_nextBorn (s : State) (da : Nat) (b : Byte) : (s.setByte da b).nextBorn = s.nextBorn := rfl
@[simp] theorem State.setByte_engines (s : State) (da : Nat) (b : Byte) : (s.setByte da b).engines = s.engines := rfl
@[simp] theorem State.setByte_laneHeads (s : State) (da : Nat) (b : Byte) : (s.setByte da b).laneHeads = s.laneHeads := rfl
@[simp] theorem State.setByte_down (s : State) (da : Nat) (b : Byte) : (s.setByte da b).down = s.down := rfl
@[simp] theorem State.setByte_lanes (s : State) (da : Nat) (b : Byte) : (s.setByte da b).lanes = s.lanes := rfl
@[simp] theorem State.setByte_freed (s : State) (da : Nat) (b : Byte) : (s.setByte da b).freed = s.freed := rfl
@[simp] theorem State.setByte_klib (s : State) (da : Nat) (b : Byte) : (s.setByte da b).klib = s.klib := rfl
@[simp] theorem State.setByte_nets (s : State) (da : Nat) (b : Byte) : (s.setByte da b).nets = s.nets := rfl
@[simp] theorem State.setByte_regions (s : State) (da : Nat) (b : Byte) : (s.setByte da b).regions = s.regions := rfl
@[simp] theorem State.setByte_mgmt (s : State) (da : Nat) (b : Byte) : (s.setByte da b).mgmt = s.mgmt := rfl
@[simp] theorem State.setByte_nv (s : State) (da : Nat) (b : Byte) : (s.setByte da b).nv = s.nv := rfl
@[simp] theorem State.setByte_boot (s : State) (da : Nat) (b : Byte) : (s.setByte da b).boot = s.boot := rfl
@[simp] theorem State.setByte_resets (s : State) (da : Nat) (b : Byte) : (s.setByte da b).resets = s.resets := rfl
@[simp] theorem State.setByte_blockResets (s : State) (da : Nat) (b : Byte) : (s.setByte da b).blockResets = s.blockResets := rfl
@[simp] theorem State.setByte_clk (s : State) (da : Nat) (b : Byte) : (s.setByte da b).clk = s.clk := rfl
@[simp] theorem State.setByte_pwr (s : State) (da : Nat) (b : Byte) : (s.setByte da b).pwr = s.pwr := rfl
@[simp] theorem State.setByte_scl (s : State) (da : Nat) (b : Byte) : (s.setByte da b).scl = s.scl := rfl
@[simp] theorem State.setByte_mirror (s : State) (da : Nat) (b : Byte) : (s.setByte da b).mirror = s.mirror := rfl
@[simp] theorem State.setByte_work (s : State) (da : Nat) (b : Byte) : (s.setByte da b).work = s.work := rfl
@[simp] theorem State.setByte_workSeq (s : State) (da : Nat) (b : Byte) : (s.setByte da b).workSeq = s.workSeq := rfl
@[simp] theorem State.setByte_workAt (s : State) (da : Nat) (b : Byte) : (s.setByte da b).workAt = s.workAt := rfl
@[simp] theorem State.setByte_statusAt (s : State) (da : Nat) (b : Byte) : (s.setByte da b).statusAt = s.statusAt := rfl
@[simp] theorem State.setByte_fresh (s : State) (da : Nat) (b : Byte) : (s.setByte da b).fresh = s.fresh := rfl
@[simp] theorem State.setByte_out (s : State) (da : Nat) (b : Byte) : (s.setByte da b).out = s.out := rfl
@[simp] theorem State.setByte_pending (s : State) (da : Nat) (b : Byte) : (s.setByte da b).pending = s.pending := rfl
@[simp] theorem State.setByte_read_get (s : State) (da : Nat) (b : Byte) (j : Nat) : (s.setByte da b).get j = s.get j := rfl
@[simp] theorem State.setByte_read_dget (s : State) (da : Nat) (b : Byte) (j : Nat) : (s.setByte da b).dget j = s.dget j := rfl
@[simp] theorem State.setByte_read_port (s : State) (da : Nat) (b : Byte) (j : Nat) : (s.setByte da b).port j = s.port j := rfl
@[simp] theorem State.setByte_read_part (s : State) (da : Nat) (b : Byte) (j : Nat) : (s.setByte da b).part j = s.part j := rfl
@[simp] theorem State.setByte_read_net (s : State) (da : Nat) (b : Byte) (j : Nat) : (s.setByte da b).net j = s.net j := rfl
@[simp] theorem State.setByte_read_now (s : State) (da : Nat) (b : Byte)  : (s.setByte da b).now = s.now := rfl
@[simp] theorem State.setByte_read_cmd (s : State) (da : Nat) (b : Byte) (j : Nat) : (s.setByte da b).cmd? j = s.cmd? j := rfl
@[simp] theorem State.setByte_read_vault (s : State) (da : Nat) (b : Byte) (j : Nat) : (s.setByte da b).vault j = s.vault j := rfl
@[simp] theorem State.setByte_read_stand (s : State) (da : Nat) (b : Byte) (j : Nat) : (s.setByte da b).stand j = s.stand j := rfl

/-! ### setCmd -/

@[simp] theorem State.setCmd_ticks (s : State) (c : Cmd) : (s.setCmd c).ticks = s.ticks := rfl
@[simp] theorem State.setCmd_od (s : State) (c : Cmd) : (s.setCmd c).od = s.od := rfl
@[simp] theorem State.setCmd_dom (s : State) (c : Cmd) : (s.setCmd c).dom = s.dom := rfl
@[simp] theorem State.setCmd_div (s : State) (c : Cmd) : (s.setCmd c).div = s.div := rfl
@[simp] theorem State.setCmd_mem (s : State) (c : Cmd) : (s.setCmd c).mem = s.mem := rfl
@[simp] theorem State.setCmd_flips (s : State) (c : Cmd) : (s.setCmd c).flips = s.flips := rfl
@[simp] theorem State.setCmd_lbuf (s : State) (c : Cmd) : (s.setCmd c).lbuf = s.lbuf := rfl
@[simp] theorem State.setCmd_sram (s : State) (c : Cmd) : (s.setCmd c).sram = s.sram := rfl
@[simp] theorem State.setCmd_vaults (s : State) (c : Cmd) : (s.setCmd c).vaults = s.vaults := rfl
@[simp] theorem State.setCmd_stands (s : State) (c : Cmd) : (s.setCmd c).stands = s.stands := rfl
@[simp] theorem State.setCmd_repairs (s : State) (c : Cmd) : (s.setCmd c).repairs = s.repairs := rfl
@[simp] theorem State.setCmd_repairPass (s : State) (c : Cmd) : (s.setCmd c).repairPass = s.repairPass := rfl
@[simp] theorem State.setCmd_repairQueue (s : State) (c : Cmd) : (s.setCmd c).repairQueue = s.repairQueue := rfl
@[simp] theorem State.setCmd_errLog (s : State) (c : Cmd) : (s.setCmd c).errLog = s.errLog := rfl
@[simp] theorem State.setCmd_wipes (s : State) (c : Cmd) : (s.setCmd c).wipes = s.wipes := rfl
@[simp] theorem State.setCmd_ports (s : State) (c : Cmd) : (s.setCmd c).ports = s.ports := rfl
@[simp] theorem State.setCmd_nextId (s : State) (c : Cmd) : (s.setCmd c).nextId = s.nextId := rfl
@[simp] theorem State.setCmd_parts (s : State) (c : Cmd) : (s.setCmd c).parts = s.parts := rfl
@[simp] theorem State.setCmd_rltReqs (s : State) (c : Cmd) : (s.setCmd c).rltReqs = s.rltReqs := rfl
@[simp] theorem State.setCmd_nextReq (s : State) (c : Cmd) : (s.setCmd c).nextReq = s.nextReq := rfl
@[simp] theorem State.setCmd_cores (s : State) (c : Cmd) : (s.setCmd c).cores = s.cores := rfl
@[simp] theorem State.setCmd_prefetched (s : State) (c : Cmd) : (s.setCmd c).prefetched = s.prefetched := rfl
@[simp] theorem State.setCmd_nextBorn (s : State) (c : Cmd) : (s.setCmd c).nextBorn = s.nextBorn := rfl
@[simp] theorem State.setCmd_engines (s : State) (c : Cmd) : (s.setCmd c).engines = s.engines := rfl
@[simp] theorem State.setCmd_laneHeads (s : State) (c : Cmd) : (s.setCmd c).laneHeads = s.laneHeads := rfl
@[simp] theorem State.setCmd_down (s : State) (c : Cmd) : (s.setCmd c).down = s.down := rfl
@[simp] theorem State.setCmd_lanes (s : State) (c : Cmd) : (s.setCmd c).lanes = s.lanes := rfl
@[simp] theorem State.setCmd_freed (s : State) (c : Cmd) : (s.setCmd c).freed = s.freed := rfl
@[simp] theorem State.setCmd_klib (s : State) (c : Cmd) : (s.setCmd c).klib = s.klib := rfl
@[simp] theorem State.setCmd_nets (s : State) (c : Cmd) : (s.setCmd c).nets = s.nets := rfl
@[simp] theorem State.setCmd_regions (s : State) (c : Cmd) : (s.setCmd c).regions = s.regions := rfl
@[simp] theorem State.setCmd_mgmt (s : State) (c : Cmd) : (s.setCmd c).mgmt = s.mgmt := rfl
@[simp] theorem State.setCmd_nv (s : State) (c : Cmd) : (s.setCmd c).nv = s.nv := rfl
@[simp] theorem State.setCmd_boot (s : State) (c : Cmd) : (s.setCmd c).boot = s.boot := rfl
@[simp] theorem State.setCmd_resets (s : State) (c : Cmd) : (s.setCmd c).resets = s.resets := rfl
@[simp] theorem State.setCmd_blockResets (s : State) (c : Cmd) : (s.setCmd c).blockResets = s.blockResets := rfl
@[simp] theorem State.setCmd_clk (s : State) (c : Cmd) : (s.setCmd c).clk = s.clk := rfl
@[simp] theorem State.setCmd_pwr (s : State) (c : Cmd) : (s.setCmd c).pwr = s.pwr := rfl
@[simp] theorem State.setCmd_scl (s : State) (c : Cmd) : (s.setCmd c).scl = s.scl := rfl
@[simp] theorem State.setCmd_mirror (s : State) (c : Cmd) : (s.setCmd c).mirror = s.mirror := rfl
@[simp] theorem State.setCmd_work (s : State) (c : Cmd) : (s.setCmd c).work = s.work := rfl
@[simp] theorem State.setCmd_workSeq (s : State) (c : Cmd) : (s.setCmd c).workSeq = s.workSeq := rfl
@[simp] theorem State.setCmd_workAt (s : State) (c : Cmd) : (s.setCmd c).workAt = s.workAt := rfl
@[simp] theorem State.setCmd_statusAt (s : State) (c : Cmd) : (s.setCmd c).statusAt = s.statusAt := rfl
@[simp] theorem State.setCmd_fresh (s : State) (c : Cmd) : (s.setCmd c).fresh = s.fresh := rfl
@[simp] theorem State.setCmd_out (s : State) (c : Cmd) : (s.setCmd c).out = s.out := rfl
@[simp] theorem State.setCmd_pending (s : State) (c : Cmd) : (s.setCmd c).pending = s.pending := rfl
@[simp] theorem State.setCmd_read_get (s : State) (c : Cmd) (j : Nat) : (s.setCmd c).get j = s.get j := rfl
@[simp] theorem State.setCmd_read_dget (s : State) (c : Cmd) (j : Nat) : (s.setCmd c).dget j = s.dget j := rfl
@[simp] theorem State.setCmd_read_port (s : State) (c : Cmd) (j : Nat) : (s.setCmd c).port j = s.port j := rfl
@[simp] theorem State.setCmd_read_part (s : State) (c : Cmd) (j : Nat) : (s.setCmd c).part j = s.part j := rfl
@[simp] theorem State.setCmd_read_net (s : State) (c : Cmd) (j : Nat) : (s.setCmd c).net j = s.net j := rfl
@[simp] theorem State.setCmd_read_now (s : State) (c : Cmd)  : (s.setCmd c).now = s.now := rfl
@[simp] theorem State.setCmd_read_vault (s : State) (c : Cmd) (j : Nat) : (s.setCmd c).vault j = s.vault j := rfl
@[simp] theorem State.setCmd_read_stand (s : State) (c : Cmd) (j : Nat) : (s.setCmd c).stand j = s.stand j := rfl
@[simp] theorem State.setCmd_read_byte (s : State) (c : Cmd) (j : Nat) : (s.setCmd c).byte j = s.byte j := rfl

/-! ### noteBreak -/

@[simp] theorem State.noteBreak_od (s : State) (kind unit : Nat) : (s.noteBreak kind unit).od = s.od := rfl
@[simp] theorem State.noteBreak_dom (s : State) (kind unit : Nat) : (s.noteBreak kind unit).dom = s.dom := rfl
@[simp] theorem State.noteBreak_div (s : State) (kind unit : Nat) : (s.noteBreak kind unit).div = s.div := rfl
@[simp] theorem State.noteBreak_mem (s : State) (kind unit : Nat) : (s.noteBreak kind unit).mem = s.mem := rfl
@[simp] theorem State.noteBreak_flips (s : State) (kind unit : Nat) : (s.noteBreak kind unit).flips = s.flips := rfl
@[simp] theorem State.noteBreak_lbuf (s : State) (kind unit : Nat) : (s.noteBreak kind unit).lbuf = s.lbuf := rfl
@[simp] theorem State.noteBreak_sram (s : State) (kind unit : Nat) : (s.noteBreak kind unit).sram = s.sram := rfl
@[simp] theorem State.noteBreak_vaults (s : State) (kind unit : Nat) : (s.noteBreak kind unit).vaults = s.vaults := rfl
@[simp] theorem State.noteBreak_stands (s : State) (kind unit : Nat) : (s.noteBreak kind unit).stands = s.stands := rfl
@[simp] theorem State.noteBreak_repairs (s : State) (kind unit : Nat) : (s.noteBreak kind unit).repairs = s.repairs := rfl
@[simp] theorem State.noteBreak_repairPass (s : State) (kind unit : Nat) : (s.noteBreak kind unit).repairPass = s.repairPass := rfl
@[simp] theorem State.noteBreak_repairQueue (s : State) (kind unit : Nat) : (s.noteBreak kind unit).repairQueue = s.repairQueue := rfl
@[simp] theorem State.noteBreak_errLog (s : State) (kind unit : Nat) : (s.noteBreak kind unit).errLog = s.errLog := rfl
@[simp] theorem State.noteBreak_wipes (s : State) (kind unit : Nat) : (s.noteBreak kind unit).wipes = s.wipes := rfl
@[simp] theorem State.noteBreak_ports (s : State) (kind unit : Nat) : (s.noteBreak kind unit).ports = s.ports := rfl
@[simp] theorem State.noteBreak_cmds (s : State) (kind unit : Nat) : (s.noteBreak kind unit).cmds = s.cmds := rfl
@[simp] theorem State.noteBreak_nextId (s : State) (kind unit : Nat) : (s.noteBreak kind unit).nextId = s.nextId := rfl
@[simp] theorem State.noteBreak_parts (s : State) (kind unit : Nat) : (s.noteBreak kind unit).parts = s.parts := rfl
@[simp] theorem State.noteBreak_rltReqs (s : State) (kind unit : Nat) : (s.noteBreak kind unit).rltReqs = s.rltReqs := rfl
@[simp] theorem State.noteBreak_nextReq (s : State) (kind unit : Nat) : (s.noteBreak kind unit).nextReq = s.nextReq := rfl
@[simp] theorem State.noteBreak_cores (s : State) (kind unit : Nat) : (s.noteBreak kind unit).cores = s.cores := rfl
@[simp] theorem State.noteBreak_prefetched (s : State) (kind unit : Nat) : (s.noteBreak kind unit).prefetched = s.prefetched := rfl
@[simp] theorem State.noteBreak_nextBorn (s : State) (kind unit : Nat) : (s.noteBreak kind unit).nextBorn = s.nextBorn := rfl
@[simp] theorem State.noteBreak_engines (s : State) (kind unit : Nat) : (s.noteBreak kind unit).engines = s.engines := rfl
@[simp] theorem State.noteBreak_laneHeads (s : State) (kind unit : Nat) : (s.noteBreak kind unit).laneHeads = s.laneHeads := rfl
@[simp] theorem State.noteBreak_down (s : State) (kind unit : Nat) : (s.noteBreak kind unit).down = s.down := rfl
@[simp] theorem State.noteBreak_lanes (s : State) (kind unit : Nat) : (s.noteBreak kind unit).lanes = s.lanes := rfl
@[simp] theorem State.noteBreak_freed (s : State) (kind unit : Nat) : (s.noteBreak kind unit).freed = s.freed := rfl
@[simp] theorem State.noteBreak_klib (s : State) (kind unit : Nat) : (s.noteBreak kind unit).klib = s.klib := rfl
@[simp] theorem State.noteBreak_nets (s : State) (kind unit : Nat) : (s.noteBreak kind unit).nets = s.nets := rfl
@[simp] theorem State.noteBreak_regions (s : State) (kind unit : Nat) : (s.noteBreak kind unit).regions = s.regions := rfl
@[simp] theorem State.noteBreak_mgmt (s : State) (kind unit : Nat) : (s.noteBreak kind unit).mgmt = s.mgmt := rfl
@[simp] theorem State.noteBreak_nv (s : State) (kind unit : Nat) : (s.noteBreak kind unit).nv = s.nv := rfl
@[simp] theorem State.noteBreak_boot (s : State) (kind unit : Nat) : (s.noteBreak kind unit).boot = s.boot := rfl
@[simp] theorem State.noteBreak_resets (s : State) (kind unit : Nat) : (s.noteBreak kind unit).resets = s.resets := rfl
@[simp] theorem State.noteBreak_blockResets (s : State) (kind unit : Nat) : (s.noteBreak kind unit).blockResets = s.blockResets := rfl
@[simp] theorem State.noteBreak_clk (s : State) (kind unit : Nat) : (s.noteBreak kind unit).clk = s.clk := rfl
@[simp] theorem State.noteBreak_pwr (s : State) (kind unit : Nat) : (s.noteBreak kind unit).pwr = s.pwr := rfl
@[simp] theorem State.noteBreak_scl (s : State) (kind unit : Nat) : (s.noteBreak kind unit).scl = s.scl := rfl
@[simp] theorem State.noteBreak_mirror (s : State) (kind unit : Nat) : (s.noteBreak kind unit).mirror = s.mirror := rfl
@[simp] theorem State.noteBreak_work (s : State) (kind unit : Nat) : (s.noteBreak kind unit).work = s.work := rfl
@[simp] theorem State.noteBreak_workSeq (s : State) (kind unit : Nat) : (s.noteBreak kind unit).workSeq = s.workSeq := rfl
@[simp] theorem State.noteBreak_workAt (s : State) (kind unit : Nat) : (s.noteBreak kind unit).workAt = s.workAt := rfl
@[simp] theorem State.noteBreak_statusAt (s : State) (kind unit : Nat) : (s.noteBreak kind unit).statusAt = s.statusAt := rfl
@[simp] theorem State.noteBreak_fresh (s : State) (kind unit : Nat) : (s.noteBreak kind unit).fresh = s.fresh := rfl
@[simp] theorem State.noteBreak_out (s : State) (kind unit : Nat) : (s.noteBreak kind unit).out = s.out := rfl
@[simp] theorem State.noteBreak_pending (s : State) (kind unit : Nat) : (s.noteBreak kind unit).pending = s.pending := rfl
@[simp] theorem State.noteBreak_read_get (s : State) (kind unit : Nat) (j : Nat) : (s.noteBreak kind unit).get j = s.get j := rfl
@[simp] theorem State.noteBreak_read_dget (s : State) (kind unit : Nat) (j : Nat) : (s.noteBreak kind unit).dget j = s.dget j := rfl
@[simp] theorem State.noteBreak_read_port (s : State) (kind unit : Nat) (j : Nat) : (s.noteBreak kind unit).port j = s.port j := rfl
@[simp] theorem State.noteBreak_read_part (s : State) (kind unit : Nat) (j : Nat) : (s.noteBreak kind unit).part j = s.part j := rfl
@[simp] theorem State.noteBreak_read_net (s : State) (kind unit : Nat) (j : Nat) : (s.noteBreak kind unit).net j = s.net j := rfl
@[simp] theorem State.noteBreak_read_cmd (s : State) (kind unit : Nat) (j : Nat) : (s.noteBreak kind unit).cmd? j = s.cmd? j := rfl
@[simp] theorem State.noteBreak_read_vault (s : State) (kind unit : Nat) (j : Nat) : (s.noteBreak kind unit).vault j = s.vault j := rfl
@[simp] theorem State.noteBreak_read_stand (s : State) (kind unit : Nat) (j : Nat) : (s.noteBreak kind unit).stand j = s.stand j := rfl
@[simp] theorem State.noteBreak_read_byte (s : State) (kind unit : Nat) (j : Nat) : (s.noteBreak kind unit).byte j = s.byte j := rfl

/-! ### addWork -/

@[simp] theorem State.addWork_ticks (s : State) (p slot n : Nat) : (s.addWork p slot n).ticks = s.ticks := rfl
@[simp] theorem State.addWork_od (s : State) (p slot n : Nat) : (s.addWork p slot n).od = s.od := rfl
@[simp] theorem State.addWork_dom (s : State) (p slot n : Nat) : (s.addWork p slot n).dom = s.dom := rfl
@[simp] theorem State.addWork_div (s : State) (p slot n : Nat) : (s.addWork p slot n).div = s.div := rfl
@[simp] theorem State.addWork_mem (s : State) (p slot n : Nat) : (s.addWork p slot n).mem = s.mem := rfl
@[simp] theorem State.addWork_flips (s : State) (p slot n : Nat) : (s.addWork p slot n).flips = s.flips := rfl
@[simp] theorem State.addWork_lbuf (s : State) (p slot n : Nat) : (s.addWork p slot n).lbuf = s.lbuf := rfl
@[simp] theorem State.addWork_sram (s : State) (p slot n : Nat) : (s.addWork p slot n).sram = s.sram := rfl
@[simp] theorem State.addWork_vaults (s : State) (p slot n : Nat) : (s.addWork p slot n).vaults = s.vaults := rfl
@[simp] theorem State.addWork_stands (s : State) (p slot n : Nat) : (s.addWork p slot n).stands = s.stands := rfl
@[simp] theorem State.addWork_repairs (s : State) (p slot n : Nat) : (s.addWork p slot n).repairs = s.repairs := rfl
@[simp] theorem State.addWork_repairPass (s : State) (p slot n : Nat) : (s.addWork p slot n).repairPass = s.repairPass := rfl
@[simp] theorem State.addWork_repairQueue (s : State) (p slot n : Nat) : (s.addWork p slot n).repairQueue = s.repairQueue := rfl
@[simp] theorem State.addWork_errLog (s : State) (p slot n : Nat) : (s.addWork p slot n).errLog = s.errLog := rfl
@[simp] theorem State.addWork_wipes (s : State) (p slot n : Nat) : (s.addWork p slot n).wipes = s.wipes := rfl
@[simp] theorem State.addWork_ports (s : State) (p slot n : Nat) : (s.addWork p slot n).ports = s.ports := rfl
@[simp] theorem State.addWork_cmds (s : State) (p slot n : Nat) : (s.addWork p slot n).cmds = s.cmds := rfl
@[simp] theorem State.addWork_nextId (s : State) (p slot n : Nat) : (s.addWork p slot n).nextId = s.nextId := rfl
@[simp] theorem State.addWork_parts (s : State) (p slot n : Nat) : (s.addWork p slot n).parts = s.parts := rfl
@[simp] theorem State.addWork_rltReqs (s : State) (p slot n : Nat) : (s.addWork p slot n).rltReqs = s.rltReqs := rfl
@[simp] theorem State.addWork_nextReq (s : State) (p slot n : Nat) : (s.addWork p slot n).nextReq = s.nextReq := rfl
@[simp] theorem State.addWork_cores (s : State) (p slot n : Nat) : (s.addWork p slot n).cores = s.cores := rfl
@[simp] theorem State.addWork_prefetched (s : State) (p slot n : Nat) : (s.addWork p slot n).prefetched = s.prefetched := rfl
@[simp] theorem State.addWork_nextBorn (s : State) (p slot n : Nat) : (s.addWork p slot n).nextBorn = s.nextBorn := rfl
@[simp] theorem State.addWork_engines (s : State) (p slot n : Nat) : (s.addWork p slot n).engines = s.engines := rfl
@[simp] theorem State.addWork_laneHeads (s : State) (p slot n : Nat) : (s.addWork p slot n).laneHeads = s.laneHeads := rfl
@[simp] theorem State.addWork_down (s : State) (p slot n : Nat) : (s.addWork p slot n).down = s.down := rfl
@[simp] theorem State.addWork_lanes (s : State) (p slot n : Nat) : (s.addWork p slot n).lanes = s.lanes := rfl
@[simp] theorem State.addWork_freed (s : State) (p slot n : Nat) : (s.addWork p slot n).freed = s.freed := rfl
@[simp] theorem State.addWork_klib (s : State) (p slot n : Nat) : (s.addWork p slot n).klib = s.klib := rfl
@[simp] theorem State.addWork_nets (s : State) (p slot n : Nat) : (s.addWork p slot n).nets = s.nets := rfl
@[simp] theorem State.addWork_regions (s : State) (p slot n : Nat) : (s.addWork p slot n).regions = s.regions := rfl
@[simp] theorem State.addWork_mgmt (s : State) (p slot n : Nat) : (s.addWork p slot n).mgmt = s.mgmt := rfl
@[simp] theorem State.addWork_nv (s : State) (p slot n : Nat) : (s.addWork p slot n).nv = s.nv := rfl
@[simp] theorem State.addWork_boot (s : State) (p slot n : Nat) : (s.addWork p slot n).boot = s.boot := rfl
@[simp] theorem State.addWork_resets (s : State) (p slot n : Nat) : (s.addWork p slot n).resets = s.resets := rfl
@[simp] theorem State.addWork_blockResets (s : State) (p slot n : Nat) : (s.addWork p slot n).blockResets = s.blockResets := rfl
@[simp] theorem State.addWork_clk (s : State) (p slot n : Nat) : (s.addWork p slot n).clk = s.clk := rfl
@[simp] theorem State.addWork_pwr (s : State) (p slot n : Nat) : (s.addWork p slot n).pwr = s.pwr := rfl
@[simp] theorem State.addWork_scl (s : State) (p slot n : Nat) : (s.addWork p slot n).scl = s.scl := rfl
@[simp] theorem State.addWork_mirror (s : State) (p slot n : Nat) : (s.addWork p slot n).mirror = s.mirror := rfl
@[simp] theorem State.addWork_workSeq (s : State) (p slot n : Nat) : (s.addWork p slot n).workSeq = s.workSeq := rfl
@[simp] theorem State.addWork_workAt (s : State) (p slot n : Nat) : (s.addWork p slot n).workAt = s.workAt := rfl
@[simp] theorem State.addWork_statusAt (s : State) (p slot n : Nat) : (s.addWork p slot n).statusAt = s.statusAt := rfl
@[simp] theorem State.addWork_fresh (s : State) (p slot n : Nat) : (s.addWork p slot n).fresh = s.fresh := rfl
@[simp] theorem State.addWork_out (s : State) (p slot n : Nat) : (s.addWork p slot n).out = s.out := rfl
@[simp] theorem State.addWork_pending (s : State) (p slot n : Nat) : (s.addWork p slot n).pending = s.pending := rfl
@[simp] theorem State.addWork_read_get (s : State) (p slot n : Nat) (j : Nat) : (s.addWork p slot n).get j = s.get j := rfl
@[simp] theorem State.addWork_read_dget (s : State) (p slot n : Nat) (j : Nat) : (s.addWork p slot n).dget j = s.dget j := rfl
@[simp] theorem State.addWork_read_port (s : State) (p slot n : Nat) (j : Nat) : (s.addWork p slot n).port j = s.port j := rfl
@[simp] theorem State.addWork_read_part (s : State) (p slot n : Nat) (j : Nat) : (s.addWork p slot n).part j = s.part j := rfl
@[simp] theorem State.addWork_read_net (s : State) (p slot n : Nat) (j : Nat) : (s.addWork p slot n).net j = s.net j := rfl
@[simp] theorem State.addWork_read_now (s : State) (p slot n : Nat)  : (s.addWork p slot n).now = s.now := rfl
@[simp] theorem State.addWork_read_cmd (s : State) (p slot n : Nat) (j : Nat) : (s.addWork p slot n).cmd? j = s.cmd? j := rfl
@[simp] theorem State.addWork_read_vault (s : State) (p slot n : Nat) (j : Nat) : (s.addWork p slot n).vault j = s.vault j := rfl
@[simp] theorem State.addWork_read_stand (s : State) (p slot n : Nat) (j : Nat) : (s.addWork p slot n).stand j = s.stand j := rfl
@[simp] theorem State.addWork_read_byte (s : State) (p slot n : Nat) (j : Nat) : (s.addWork p slot n).byte j = s.byte j := rfl

/-! ### setScl -/

@[simp] theorem State.setScl_ticks (s : State) (x : Scaler) : (s.setScl x).ticks = s.ticks := rfl
@[simp] theorem State.setScl_od (s : State) (x : Scaler) : (s.setScl x).od = s.od := rfl
@[simp] theorem State.setScl_dom (s : State) (x : Scaler) : (s.setScl x).dom = s.dom := rfl
@[simp] theorem State.setScl_div (s : State) (x : Scaler) : (s.setScl x).div = s.div := rfl
@[simp] theorem State.setScl_mem (s : State) (x : Scaler) : (s.setScl x).mem = s.mem := rfl
@[simp] theorem State.setScl_flips (s : State) (x : Scaler) : (s.setScl x).flips = s.flips := rfl
@[simp] theorem State.setScl_lbuf (s : State) (x : Scaler) : (s.setScl x).lbuf = s.lbuf := rfl
@[simp] theorem State.setScl_sram (s : State) (x : Scaler) : (s.setScl x).sram = s.sram := rfl
@[simp] theorem State.setScl_vaults (s : State) (x : Scaler) : (s.setScl x).vaults = s.vaults := rfl
@[simp] theorem State.setScl_stands (s : State) (x : Scaler) : (s.setScl x).stands = s.stands := rfl
@[simp] theorem State.setScl_repairs (s : State) (x : Scaler) : (s.setScl x).repairs = s.repairs := rfl
@[simp] theorem State.setScl_repairPass (s : State) (x : Scaler) : (s.setScl x).repairPass = s.repairPass := rfl
@[simp] theorem State.setScl_repairQueue (s : State) (x : Scaler) : (s.setScl x).repairQueue = s.repairQueue := rfl
@[simp] theorem State.setScl_errLog (s : State) (x : Scaler) : (s.setScl x).errLog = s.errLog := rfl
@[simp] theorem State.setScl_wipes (s : State) (x : Scaler) : (s.setScl x).wipes = s.wipes := rfl
@[simp] theorem State.setScl_ports (s : State) (x : Scaler) : (s.setScl x).ports = s.ports := rfl
@[simp] theorem State.setScl_cmds (s : State) (x : Scaler) : (s.setScl x).cmds = s.cmds := rfl
@[simp] theorem State.setScl_nextId (s : State) (x : Scaler) : (s.setScl x).nextId = s.nextId := rfl
@[simp] theorem State.setScl_parts (s : State) (x : Scaler) : (s.setScl x).parts = s.parts := rfl
@[simp] theorem State.setScl_rltReqs (s : State) (x : Scaler) : (s.setScl x).rltReqs = s.rltReqs := rfl
@[simp] theorem State.setScl_nextReq (s : State) (x : Scaler) : (s.setScl x).nextReq = s.nextReq := rfl
@[simp] theorem State.setScl_cores (s : State) (x : Scaler) : (s.setScl x).cores = s.cores := rfl
@[simp] theorem State.setScl_prefetched (s : State) (x : Scaler) : (s.setScl x).prefetched = s.prefetched := rfl
@[simp] theorem State.setScl_nextBorn (s : State) (x : Scaler) : (s.setScl x).nextBorn = s.nextBorn := rfl
@[simp] theorem State.setScl_engines (s : State) (x : Scaler) : (s.setScl x).engines = s.engines := rfl
@[simp] theorem State.setScl_laneHeads (s : State) (x : Scaler) : (s.setScl x).laneHeads = s.laneHeads := rfl
@[simp] theorem State.setScl_down (s : State) (x : Scaler) : (s.setScl x).down = s.down := rfl
@[simp] theorem State.setScl_lanes (s : State) (x : Scaler) : (s.setScl x).lanes = s.lanes := rfl
@[simp] theorem State.setScl_freed (s : State) (x : Scaler) : (s.setScl x).freed = s.freed := rfl
@[simp] theorem State.setScl_klib (s : State) (x : Scaler) : (s.setScl x).klib = s.klib := rfl
@[simp] theorem State.setScl_nets (s : State) (x : Scaler) : (s.setScl x).nets = s.nets := rfl
@[simp] theorem State.setScl_regions (s : State) (x : Scaler) : (s.setScl x).regions = s.regions := rfl
@[simp] theorem State.setScl_mgmt (s : State) (x : Scaler) : (s.setScl x).mgmt = s.mgmt := rfl
@[simp] theorem State.setScl_nv (s : State) (x : Scaler) : (s.setScl x).nv = s.nv := rfl
@[simp] theorem State.setScl_boot (s : State) (x : Scaler) : (s.setScl x).boot = s.boot := rfl
@[simp] theorem State.setScl_resets (s : State) (x : Scaler) : (s.setScl x).resets = s.resets := rfl
@[simp] theorem State.setScl_blockResets (s : State) (x : Scaler) : (s.setScl x).blockResets = s.blockResets := rfl
@[simp] theorem State.setScl_clk (s : State) (x : Scaler) : (s.setScl x).clk = s.clk := rfl
@[simp] theorem State.setScl_pwr (s : State) (x : Scaler) : (s.setScl x).pwr = s.pwr := rfl
@[simp] theorem State.setScl_mirror (s : State) (x : Scaler) : (s.setScl x).mirror = s.mirror := rfl
@[simp] theorem State.setScl_work (s : State) (x : Scaler) : (s.setScl x).work = s.work := rfl
@[simp] theorem State.setScl_workSeq (s : State) (x : Scaler) : (s.setScl x).workSeq = s.workSeq := rfl
@[simp] theorem State.setScl_workAt (s : State) (x : Scaler) : (s.setScl x).workAt = s.workAt := rfl
@[simp] theorem State.setScl_statusAt (s : State) (x : Scaler) : (s.setScl x).statusAt = s.statusAt := rfl
@[simp] theorem State.setScl_fresh (s : State) (x : Scaler) : (s.setScl x).fresh = s.fresh := rfl
@[simp] theorem State.setScl_out (s : State) (x : Scaler) : (s.setScl x).out = s.out := rfl
@[simp] theorem State.setScl_pending (s : State) (x : Scaler) : (s.setScl x).pending = s.pending := rfl
@[simp] theorem State.setScl_read_get (s : State) (x : Scaler) (j : Nat) : (s.setScl x).get j = s.get j := rfl
@[simp] theorem State.setScl_read_dget (s : State) (x : Scaler) (j : Nat) : (s.setScl x).dget j = s.dget j := rfl
@[simp] theorem State.setScl_read_port (s : State) (x : Scaler) (j : Nat) : (s.setScl x).port j = s.port j := rfl
@[simp] theorem State.setScl_read_part (s : State) (x : Scaler) (j : Nat) : (s.setScl x).part j = s.part j := rfl
@[simp] theorem State.setScl_read_net (s : State) (x : Scaler) (j : Nat) : (s.setScl x).net j = s.net j := rfl
@[simp] theorem State.setScl_read_now (s : State) (x : Scaler)  : (s.setScl x).now = s.now := rfl
@[simp] theorem State.setScl_read_cmd (s : State) (x : Scaler) (j : Nat) : (s.setScl x).cmd? j = s.cmd? j := rfl
@[simp] theorem State.setScl_read_vault (s : State) (x : Scaler) (j : Nat) : (s.setScl x).vault j = s.vault j := rfl
@[simp] theorem State.setScl_read_stand (s : State) (x : Scaler) (j : Nat) : (s.setScl x).stand j = s.stand j := rfl
@[simp] theorem State.setScl_read_byte (s : State) (x : Scaler) (j : Nat) : (s.setScl x).byte j = s.byte j := rfl

/-! ### setRing -/

@[simp] theorem State.setRing_ticks (s : State) (p r : Nat) (x : CmdRing) : (s.setRing p r x).ticks = s.ticks := rfl
@[simp] theorem State.setRing_od (s : State) (p r : Nat) (x : CmdRing) : (s.setRing p r x).od = s.od := rfl
@[simp] theorem State.setRing_dom (s : State) (p r : Nat) (x : CmdRing) : (s.setRing p r x).dom = s.dom := rfl
@[simp] theorem State.setRing_div (s : State) (p r : Nat) (x : CmdRing) : (s.setRing p r x).div = s.div := rfl
@[simp] theorem State.setRing_mem (s : State) (p r : Nat) (x : CmdRing) : (s.setRing p r x).mem = s.mem := rfl
@[simp] theorem State.setRing_flips (s : State) (p r : Nat) (x : CmdRing) : (s.setRing p r x).flips = s.flips := rfl
@[simp] theorem State.setRing_lbuf (s : State) (p r : Nat) (x : CmdRing) : (s.setRing p r x).lbuf = s.lbuf := rfl
@[simp] theorem State.setRing_sram (s : State) (p r : Nat) (x : CmdRing) : (s.setRing p r x).sram = s.sram := rfl
@[simp] theorem State.setRing_vaults (s : State) (p r : Nat) (x : CmdRing) : (s.setRing p r x).vaults = s.vaults := rfl
@[simp] theorem State.setRing_stands (s : State) (p r : Nat) (x : CmdRing) : (s.setRing p r x).stands = s.stands := rfl
@[simp] theorem State.setRing_repairs (s : State) (p r : Nat) (x : CmdRing) : (s.setRing p r x).repairs = s.repairs := rfl
@[simp] theorem State.setRing_repairPass (s : State) (p r : Nat) (x : CmdRing) : (s.setRing p r x).repairPass = s.repairPass := rfl
@[simp] theorem State.setRing_repairQueue (s : State) (p r : Nat) (x : CmdRing) : (s.setRing p r x).repairQueue = s.repairQueue := rfl
@[simp] theorem State.setRing_errLog (s : State) (p r : Nat) (x : CmdRing) : (s.setRing p r x).errLog = s.errLog := rfl
@[simp] theorem State.setRing_wipes (s : State) (p r : Nat) (x : CmdRing) : (s.setRing p r x).wipes = s.wipes := rfl
@[simp] theorem State.setRing_cmds (s : State) (p r : Nat) (x : CmdRing) : (s.setRing p r x).cmds = s.cmds := rfl
@[simp] theorem State.setRing_nextId (s : State) (p r : Nat) (x : CmdRing) : (s.setRing p r x).nextId = s.nextId := rfl
@[simp] theorem State.setRing_parts (s : State) (p r : Nat) (x : CmdRing) : (s.setRing p r x).parts = s.parts := rfl
@[simp] theorem State.setRing_rltReqs (s : State) (p r : Nat) (x : CmdRing) : (s.setRing p r x).rltReqs = s.rltReqs := rfl
@[simp] theorem State.setRing_nextReq (s : State) (p r : Nat) (x : CmdRing) : (s.setRing p r x).nextReq = s.nextReq := rfl
@[simp] theorem State.setRing_cores (s : State) (p r : Nat) (x : CmdRing) : (s.setRing p r x).cores = s.cores := rfl
@[simp] theorem State.setRing_prefetched (s : State) (p r : Nat) (x : CmdRing) : (s.setRing p r x).prefetched = s.prefetched := rfl
@[simp] theorem State.setRing_nextBorn (s : State) (p r : Nat) (x : CmdRing) : (s.setRing p r x).nextBorn = s.nextBorn := rfl
@[simp] theorem State.setRing_engines (s : State) (p r : Nat) (x : CmdRing) : (s.setRing p r x).engines = s.engines := rfl
@[simp] theorem State.setRing_laneHeads (s : State) (p r : Nat) (x : CmdRing) : (s.setRing p r x).laneHeads = s.laneHeads := rfl
@[simp] theorem State.setRing_down (s : State) (p r : Nat) (x : CmdRing) : (s.setRing p r x).down = s.down := rfl
@[simp] theorem State.setRing_lanes (s : State) (p r : Nat) (x : CmdRing) : (s.setRing p r x).lanes = s.lanes := rfl
@[simp] theorem State.setRing_freed (s : State) (p r : Nat) (x : CmdRing) : (s.setRing p r x).freed = s.freed := rfl
@[simp] theorem State.setRing_klib (s : State) (p r : Nat) (x : CmdRing) : (s.setRing p r x).klib = s.klib := rfl
@[simp] theorem State.setRing_nets (s : State) (p r : Nat) (x : CmdRing) : (s.setRing p r x).nets = s.nets := rfl
@[simp] theorem State.setRing_regions (s : State) (p r : Nat) (x : CmdRing) : (s.setRing p r x).regions = s.regions := rfl
@[simp] theorem State.setRing_mgmt (s : State) (p r : Nat) (x : CmdRing) : (s.setRing p r x).mgmt = s.mgmt := rfl
@[simp] theorem State.setRing_nv (s : State) (p r : Nat) (x : CmdRing) : (s.setRing p r x).nv = s.nv := rfl
@[simp] theorem State.setRing_boot (s : State) (p r : Nat) (x : CmdRing) : (s.setRing p r x).boot = s.boot := rfl
@[simp] theorem State.setRing_resets (s : State) (p r : Nat) (x : CmdRing) : (s.setRing p r x).resets = s.resets := rfl
@[simp] theorem State.setRing_blockResets (s : State) (p r : Nat) (x : CmdRing) : (s.setRing p r x).blockResets = s.blockResets := rfl
@[simp] theorem State.setRing_clk (s : State) (p r : Nat) (x : CmdRing) : (s.setRing p r x).clk = s.clk := rfl
@[simp] theorem State.setRing_pwr (s : State) (p r : Nat) (x : CmdRing) : (s.setRing p r x).pwr = s.pwr := rfl
@[simp] theorem State.setRing_scl (s : State) (p r : Nat) (x : CmdRing) : (s.setRing p r x).scl = s.scl := rfl
@[simp] theorem State.setRing_mirror (s : State) (p r : Nat) (x : CmdRing) : (s.setRing p r x).mirror = s.mirror := rfl
@[simp] theorem State.setRing_work (s : State) (p r : Nat) (x : CmdRing) : (s.setRing p r x).work = s.work := rfl
@[simp] theorem State.setRing_workSeq (s : State) (p r : Nat) (x : CmdRing) : (s.setRing p r x).workSeq = s.workSeq := rfl
@[simp] theorem State.setRing_workAt (s : State) (p r : Nat) (x : CmdRing) : (s.setRing p r x).workAt = s.workAt := rfl
@[simp] theorem State.setRing_statusAt (s : State) (p r : Nat) (x : CmdRing) : (s.setRing p r x).statusAt = s.statusAt := rfl
@[simp] theorem State.setRing_fresh (s : State) (p r : Nat) (x : CmdRing) : (s.setRing p r x).fresh = s.fresh := rfl
@[simp] theorem State.setRing_out (s : State) (p r : Nat) (x : CmdRing) : (s.setRing p r x).out = s.out := rfl
@[simp] theorem State.setRing_pending (s : State) (p r : Nat) (x : CmdRing) : (s.setRing p r x).pending = s.pending := rfl
@[simp] theorem State.setRing_read_get (s : State) (p r : Nat) (x : CmdRing) (j : Nat) : (s.setRing p r x).get j = s.get j := rfl
@[simp] theorem State.setRing_read_dget (s : State) (p r : Nat) (x : CmdRing) (j : Nat) : (s.setRing p r x).dget j = s.dget j := rfl
@[simp] theorem State.setRing_read_part (s : State) (p r : Nat) (x : CmdRing) (j : Nat) : (s.setRing p r x).part j = s.part j := rfl
@[simp] theorem State.setRing_read_net (s : State) (p r : Nat) (x : CmdRing) (j : Nat) : (s.setRing p r x).net j = s.net j := rfl
@[simp] theorem State.setRing_read_now (s : State) (p r : Nat) (x : CmdRing)  : (s.setRing p r x).now = s.now := rfl
@[simp] theorem State.setRing_read_cmd (s : State) (p r : Nat) (x : CmdRing) (j : Nat) : (s.setRing p r x).cmd? j = s.cmd? j := rfl
@[simp] theorem State.setRing_read_vault (s : State) (p r : Nat) (x : CmdRing) (j : Nat) : (s.setRing p r x).vault j = s.vault j := rfl
@[simp] theorem State.setRing_read_stand (s : State) (p r : Nat) (x : CmdRing) (j : Nat) : (s.setRing p r x).stand j = s.stand j := rfl
@[simp] theorem State.setRing_read_byte (s : State) (p r : Nat) (x : CmdRing) (j : Nat) : (s.setRing p r x).byte j = s.byte j := rfl

/-! ### setCpl -/

@[simp] theorem State.setCpl_ticks (s : State) (p r : Nat) (x : CplRing) : (s.setCpl p r x).ticks = s.ticks := rfl
@[simp] theorem State.setCpl_od (s : State) (p r : Nat) (x : CplRing) : (s.setCpl p r x).od = s.od := rfl
@[simp] theorem State.setCpl_dom (s : State) (p r : Nat) (x : CplRing) : (s.setCpl p r x).dom = s.dom := rfl
@[simp] theorem State.setCpl_div (s : State) (p r : Nat) (x : CplRing) : (s.setCpl p r x).div = s.div := rfl
@[simp] theorem State.setCpl_mem (s : State) (p r : Nat) (x : CplRing) : (s.setCpl p r x).mem = s.mem := rfl
@[simp] theorem State.setCpl_flips (s : State) (p r : Nat) (x : CplRing) : (s.setCpl p r x).flips = s.flips := rfl
@[simp] theorem State.setCpl_lbuf (s : State) (p r : Nat) (x : CplRing) : (s.setCpl p r x).lbuf = s.lbuf := rfl
@[simp] theorem State.setCpl_sram (s : State) (p r : Nat) (x : CplRing) : (s.setCpl p r x).sram = s.sram := rfl
@[simp] theorem State.setCpl_vaults (s : State) (p r : Nat) (x : CplRing) : (s.setCpl p r x).vaults = s.vaults := rfl
@[simp] theorem State.setCpl_stands (s : State) (p r : Nat) (x : CplRing) : (s.setCpl p r x).stands = s.stands := rfl
@[simp] theorem State.setCpl_repairs (s : State) (p r : Nat) (x : CplRing) : (s.setCpl p r x).repairs = s.repairs := rfl
@[simp] theorem State.setCpl_repairPass (s : State) (p r : Nat) (x : CplRing) : (s.setCpl p r x).repairPass = s.repairPass := rfl
@[simp] theorem State.setCpl_repairQueue (s : State) (p r : Nat) (x : CplRing) : (s.setCpl p r x).repairQueue = s.repairQueue := rfl
@[simp] theorem State.setCpl_errLog (s : State) (p r : Nat) (x : CplRing) : (s.setCpl p r x).errLog = s.errLog := rfl
@[simp] theorem State.setCpl_wipes (s : State) (p r : Nat) (x : CplRing) : (s.setCpl p r x).wipes = s.wipes := rfl
@[simp] theorem State.setCpl_cmds (s : State) (p r : Nat) (x : CplRing) : (s.setCpl p r x).cmds = s.cmds := rfl
@[simp] theorem State.setCpl_nextId (s : State) (p r : Nat) (x : CplRing) : (s.setCpl p r x).nextId = s.nextId := rfl
@[simp] theorem State.setCpl_parts (s : State) (p r : Nat) (x : CplRing) : (s.setCpl p r x).parts = s.parts := rfl
@[simp] theorem State.setCpl_rltReqs (s : State) (p r : Nat) (x : CplRing) : (s.setCpl p r x).rltReqs = s.rltReqs := rfl
@[simp] theorem State.setCpl_nextReq (s : State) (p r : Nat) (x : CplRing) : (s.setCpl p r x).nextReq = s.nextReq := rfl
@[simp] theorem State.setCpl_cores (s : State) (p r : Nat) (x : CplRing) : (s.setCpl p r x).cores = s.cores := rfl
@[simp] theorem State.setCpl_prefetched (s : State) (p r : Nat) (x : CplRing) : (s.setCpl p r x).prefetched = s.prefetched := rfl
@[simp] theorem State.setCpl_nextBorn (s : State) (p r : Nat) (x : CplRing) : (s.setCpl p r x).nextBorn = s.nextBorn := rfl
@[simp] theorem State.setCpl_engines (s : State) (p r : Nat) (x : CplRing) : (s.setCpl p r x).engines = s.engines := rfl
@[simp] theorem State.setCpl_laneHeads (s : State) (p r : Nat) (x : CplRing) : (s.setCpl p r x).laneHeads = s.laneHeads := rfl
@[simp] theorem State.setCpl_down (s : State) (p r : Nat) (x : CplRing) : (s.setCpl p r x).down = s.down := rfl
@[simp] theorem State.setCpl_lanes (s : State) (p r : Nat) (x : CplRing) : (s.setCpl p r x).lanes = s.lanes := rfl
@[simp] theorem State.setCpl_freed (s : State) (p r : Nat) (x : CplRing) : (s.setCpl p r x).freed = s.freed := rfl
@[simp] theorem State.setCpl_klib (s : State) (p r : Nat) (x : CplRing) : (s.setCpl p r x).klib = s.klib := rfl
@[simp] theorem State.setCpl_nets (s : State) (p r : Nat) (x : CplRing) : (s.setCpl p r x).nets = s.nets := rfl
@[simp] theorem State.setCpl_regions (s : State) (p r : Nat) (x : CplRing) : (s.setCpl p r x).regions = s.regions := rfl
@[simp] theorem State.setCpl_mgmt (s : State) (p r : Nat) (x : CplRing) : (s.setCpl p r x).mgmt = s.mgmt := rfl
@[simp] theorem State.setCpl_nv (s : State) (p r : Nat) (x : CplRing) : (s.setCpl p r x).nv = s.nv := rfl
@[simp] theorem State.setCpl_boot (s : State) (p r : Nat) (x : CplRing) : (s.setCpl p r x).boot = s.boot := rfl
@[simp] theorem State.setCpl_resets (s : State) (p r : Nat) (x : CplRing) : (s.setCpl p r x).resets = s.resets := rfl
@[simp] theorem State.setCpl_blockResets (s : State) (p r : Nat) (x : CplRing) : (s.setCpl p r x).blockResets = s.blockResets := rfl
@[simp] theorem State.setCpl_clk (s : State) (p r : Nat) (x : CplRing) : (s.setCpl p r x).clk = s.clk := rfl
@[simp] theorem State.setCpl_pwr (s : State) (p r : Nat) (x : CplRing) : (s.setCpl p r x).pwr = s.pwr := rfl
@[simp] theorem State.setCpl_scl (s : State) (p r : Nat) (x : CplRing) : (s.setCpl p r x).scl = s.scl := rfl
@[simp] theorem State.setCpl_mirror (s : State) (p r : Nat) (x : CplRing) : (s.setCpl p r x).mirror = s.mirror := rfl
@[simp] theorem State.setCpl_work (s : State) (p r : Nat) (x : CplRing) : (s.setCpl p r x).work = s.work := rfl
@[simp] theorem State.setCpl_workSeq (s : State) (p r : Nat) (x : CplRing) : (s.setCpl p r x).workSeq = s.workSeq := rfl
@[simp] theorem State.setCpl_workAt (s : State) (p r : Nat) (x : CplRing) : (s.setCpl p r x).workAt = s.workAt := rfl
@[simp] theorem State.setCpl_statusAt (s : State) (p r : Nat) (x : CplRing) : (s.setCpl p r x).statusAt = s.statusAt := rfl
@[simp] theorem State.setCpl_fresh (s : State) (p r : Nat) (x : CplRing) : (s.setCpl p r x).fresh = s.fresh := rfl
@[simp] theorem State.setCpl_out (s : State) (p r : Nat) (x : CplRing) : (s.setCpl p r x).out = s.out := rfl
@[simp] theorem State.setCpl_pending (s : State) (p r : Nat) (x : CplRing) : (s.setCpl p r x).pending = s.pending := rfl
@[simp] theorem State.setCpl_read_get (s : State) (p r : Nat) (x : CplRing) (j : Nat) : (s.setCpl p r x).get j = s.get j := rfl
@[simp] theorem State.setCpl_read_dget (s : State) (p r : Nat) (x : CplRing) (j : Nat) : (s.setCpl p r x).dget j = s.dget j := rfl
@[simp] theorem State.setCpl_read_part (s : State) (p r : Nat) (x : CplRing) (j : Nat) : (s.setCpl p r x).part j = s.part j := rfl
@[simp] theorem State.setCpl_read_net (s : State) (p r : Nat) (x : CplRing) (j : Nat) : (s.setCpl p r x).net j = s.net j := rfl
@[simp] theorem State.setCpl_read_now (s : State) (p r : Nat) (x : CplRing)  : (s.setCpl p r x).now = s.now := rfl
@[simp] theorem State.setCpl_read_cmd (s : State) (p r : Nat) (x : CplRing) (j : Nat) : (s.setCpl p r x).cmd? j = s.cmd? j := rfl
@[simp] theorem State.setCpl_read_vault (s : State) (p r : Nat) (x : CplRing) (j : Nat) : (s.setCpl p r x).vault j = s.vault j := rfl
@[simp] theorem State.setCpl_read_stand (s : State) (p r : Nat) (x : CplRing) (j : Nat) : (s.setCpl p r x).stand j = s.stand j := rfl
@[simp] theorem State.setCpl_read_byte (s : State) (p r : Nat) (x : CplRing) (j : Nat) : (s.setCpl p r x).byte j = s.byte j := rfl

/-! ### What an update gives back -/

@[simp] theorem State.get_put_self (s : State) (k v : Nat) : (s.put k v).get k = v := by
  simp [State.put, State.get]

theorem State.get_put_ne (s : State) {j k : Nat} (v : Nat) (h : j ≠ k) : (s.put k v).get j = s.get j := by
  simp [State.put, State.get, look_setAt_ne _ _ h]

@[simp] theorem State.get_bump_self (s : State) (k n : Nat) : (s.bump k n).get k = satAdd (odMax k) (s.get k) n :=
  State.get_put_self _ _ _

theorem State.get_bump_ne (s : State) {j k : Nat} (n : Nat) (h : j ≠ k) : (s.bump k n).get j = s.get j :=
  State.get_put_ne s _ h

@[simp] theorem State.emit_out (s : State) (o : Output) : (s.emit o).out = o :: s.out := rfl

@[simp] theorem State.setScl_scl (s : State) (x : Scaler) : (s.setScl x).scl = x := rfl

@[simp] theorem State.vault_setVault (s : State) (v : Nat) (x : Vault) : (s.setVault v x).vault v = x := by
  simp [State.setVault, State.vault, lookD]

theorem State.vault_setVault_ne (s : State) {v w : Nat} (x : Vault) (h : w ≠ v) : (s.setVault v x).vault w = s.vault w := by
  simp [State.setVault, State.vault, lookD, look_setAt_ne _ _ h]

@[simp] theorem State.stand_setStand (s : State) (n : Nat) (x : Stand) : (s.setStand n x).stand n = x := by
  simp [State.setStand, State.stand, lookD]

theorem State.stand_setStand_ne (s : State) {n m : Nat} (x : Stand) (h : m ≠ n) : (s.setStand n x).stand m = s.stand m := by
  simp [State.setStand, State.stand, lookD, look_setAt_ne _ _ h]

@[simp] theorem State.port_setPort (s : State) (p : Nat) (x : HostPort) : (s.setPort p x).port p = x := by
  unfold State.setPort State.port
  split <;> rfl

@[simp] theorem State.part_setPart (s : State) (p : Nat) (x : Part) : (s.setPart p x).part p = x := by
  unfold State.setPart State.part
  split <;> rfl

@[simp] theorem State.net_setNet (s : State) (n : Nat) (x : NetPort) : (s.setNet n x).net n = x := by
  unfold State.setNet State.net
  split <;> rfl

/-- The other host port. -/
theorem State.port_setPort_ne (s : State) {p q : Nat} (x : HostPort) (h : (p = 0) ≠ (q = 0)) :
    (s.setPort p x).port q = s.port q := by
  unfold State.setPort State.port
  by_cases hp : p = 0 <;> by_cases hq : q = 0 <;> simp_all

/-- The other partition. -/
theorem State.part_setPart_ne (s : State) {p q : Nat} (x : Part) (h : (p = 0) ≠ (q = 0)) :
    (s.setPart p x).part q = s.part q := by
  unfold State.setPart State.part
  by_cases hp : p = 0 <;> by_cases hq : q = 0 <;> simp_all

/-! ### occur -/

/-- All that occur changes. -/
theorem State.occur_frame (s : State) (cause part detail : Nat) :
    s.occur cause part detail = { s with mgmt := (s.occur cause part detail).mgmt } := by
  unfold State.occur; split <;> rfl

@[simp] theorem State.occur_ticks (s : State) (cause part detail : Nat) : (s.occur cause part detail).ticks = s.ticks := by rw [State.occur_frame]
@[simp] theorem State.occur_od (s : State) (cause part detail : Nat) : (s.occur cause part detail).od = s.od := by rw [State.occur_frame]
@[simp] theorem State.occur_dom (s : State) (cause part detail : Nat) : (s.occur cause part detail).dom = s.dom := by rw [State.occur_frame]
@[simp] theorem State.occur_div (s : State) (cause part detail : Nat) : (s.occur cause part detail).div = s.div := by rw [State.occur_frame]
@[simp] theorem State.occur_mem (s : State) (cause part detail : Nat) : (s.occur cause part detail).mem = s.mem := by rw [State.occur_frame]
@[simp] theorem State.occur_flips (s : State) (cause part detail : Nat) : (s.occur cause part detail).flips = s.flips := by rw [State.occur_frame]
@[simp] theorem State.occur_lbuf (s : State) (cause part detail : Nat) : (s.occur cause part detail).lbuf = s.lbuf := by rw [State.occur_frame]
@[simp] theorem State.occur_sram (s : State) (cause part detail : Nat) : (s.occur cause part detail).sram = s.sram := by rw [State.occur_frame]
@[simp] theorem State.occur_vaults (s : State) (cause part detail : Nat) : (s.occur cause part detail).vaults = s.vaults := by rw [State.occur_frame]
@[simp] theorem State.occur_stands (s : State) (cause part detail : Nat) : (s.occur cause part detail).stands = s.stands := by rw [State.occur_frame]
@[simp] theorem State.occur_repairs (s : State) (cause part detail : Nat) : (s.occur cause part detail).repairs = s.repairs := by rw [State.occur_frame]
@[simp] theorem State.occur_repairPass (s : State) (cause part detail : Nat) : (s.occur cause part detail).repairPass = s.repairPass := by rw [State.occur_frame]
@[simp] theorem State.occur_repairQueue (s : State) (cause part detail : Nat) : (s.occur cause part detail).repairQueue = s.repairQueue := by rw [State.occur_frame]
@[simp] theorem State.occur_errLog (s : State) (cause part detail : Nat) : (s.occur cause part detail).errLog = s.errLog := by rw [State.occur_frame]
@[simp] theorem State.occur_wipes (s : State) (cause part detail : Nat) : (s.occur cause part detail).wipes = s.wipes := by rw [State.occur_frame]
@[simp] theorem State.occur_ports (s : State) (cause part detail : Nat) : (s.occur cause part detail).ports = s.ports := by rw [State.occur_frame]
@[simp] theorem State.occur_cmds (s : State) (cause part detail : Nat) : (s.occur cause part detail).cmds = s.cmds := by rw [State.occur_frame]
@[simp] theorem State.occur_nextId (s : State) (cause part detail : Nat) : (s.occur cause part detail).nextId = s.nextId := by rw [State.occur_frame]
@[simp] theorem State.occur_parts (s : State) (cause part detail : Nat) : (s.occur cause part detail).parts = s.parts := by rw [State.occur_frame]
@[simp] theorem State.occur_rltReqs (s : State) (cause part detail : Nat) : (s.occur cause part detail).rltReqs = s.rltReqs := by rw [State.occur_frame]
@[simp] theorem State.occur_nextReq (s : State) (cause part detail : Nat) : (s.occur cause part detail).nextReq = s.nextReq := by rw [State.occur_frame]
@[simp] theorem State.occur_cores (s : State) (cause part detail : Nat) : (s.occur cause part detail).cores = s.cores := by rw [State.occur_frame]
@[simp] theorem State.occur_prefetched (s : State) (cause part detail : Nat) : (s.occur cause part detail).prefetched = s.prefetched := by rw [State.occur_frame]
@[simp] theorem State.occur_nextBorn (s : State) (cause part detail : Nat) : (s.occur cause part detail).nextBorn = s.nextBorn := by rw [State.occur_frame]
@[simp] theorem State.occur_engines (s : State) (cause part detail : Nat) : (s.occur cause part detail).engines = s.engines := by rw [State.occur_frame]
@[simp] theorem State.occur_laneHeads (s : State) (cause part detail : Nat) : (s.occur cause part detail).laneHeads = s.laneHeads := by rw [State.occur_frame]
@[simp] theorem State.occur_down (s : State) (cause part detail : Nat) : (s.occur cause part detail).down = s.down := by rw [State.occur_frame]
@[simp] theorem State.occur_lanes (s : State) (cause part detail : Nat) : (s.occur cause part detail).lanes = s.lanes := by rw [State.occur_frame]
@[simp] theorem State.occur_freed (s : State) (cause part detail : Nat) : (s.occur cause part detail).freed = s.freed := by rw [State.occur_frame]
@[simp] theorem State.occur_klib (s : State) (cause part detail : Nat) : (s.occur cause part detail).klib = s.klib := by rw [State.occur_frame]
@[simp] theorem State.occur_nets (s : State) (cause part detail : Nat) : (s.occur cause part detail).nets = s.nets := by rw [State.occur_frame]
@[simp] theorem State.occur_regions (s : State) (cause part detail : Nat) : (s.occur cause part detail).regions = s.regions := by rw [State.occur_frame]
@[simp] theorem State.occur_nv (s : State) (cause part detail : Nat) : (s.occur cause part detail).nv = s.nv := by rw [State.occur_frame]
@[simp] theorem State.occur_boot (s : State) (cause part detail : Nat) : (s.occur cause part detail).boot = s.boot := by rw [State.occur_frame]
@[simp] theorem State.occur_resets (s : State) (cause part detail : Nat) : (s.occur cause part detail).resets = s.resets := by rw [State.occur_frame]
@[simp] theorem State.occur_blockResets (s : State) (cause part detail : Nat) : (s.occur cause part detail).blockResets = s.blockResets := by rw [State.occur_frame]
@[simp] theorem State.occur_clk (s : State) (cause part detail : Nat) : (s.occur cause part detail).clk = s.clk := by rw [State.occur_frame]
@[simp] theorem State.occur_pwr (s : State) (cause part detail : Nat) : (s.occur cause part detail).pwr = s.pwr := by rw [State.occur_frame]
@[simp] theorem State.occur_scl (s : State) (cause part detail : Nat) : (s.occur cause part detail).scl = s.scl := by rw [State.occur_frame]
@[simp] theorem State.occur_mirror (s : State) (cause part detail : Nat) : (s.occur cause part detail).mirror = s.mirror := by rw [State.occur_frame]
@[simp] theorem State.occur_work (s : State) (cause part detail : Nat) : (s.occur cause part detail).work = s.work := by rw [State.occur_frame]
@[simp] theorem State.occur_workSeq (s : State) (cause part detail : Nat) : (s.occur cause part detail).workSeq = s.workSeq := by rw [State.occur_frame]
@[simp] theorem State.occur_workAt (s : State) (cause part detail : Nat) : (s.occur cause part detail).workAt = s.workAt := by rw [State.occur_frame]
@[simp] theorem State.occur_statusAt (s : State) (cause part detail : Nat) : (s.occur cause part detail).statusAt = s.statusAt := by rw [State.occur_frame]
@[simp] theorem State.occur_fresh (s : State) (cause part detail : Nat) : (s.occur cause part detail).fresh = s.fresh := by rw [State.occur_frame]
@[simp] theorem State.occur_out (s : State) (cause part detail : Nat) : (s.occur cause part detail).out = s.out := by rw [State.occur_frame]
@[simp] theorem State.occur_pending (s : State) (cause part detail : Nat) : (s.occur cause part detail).pending = s.pending := by rw [State.occur_frame]
@[simp] theorem State.occur_read_get (s : State) (cause part detail : Nat) (j : Nat) : (s.occur cause part detail).get j = s.get j := by rw [State.occur_frame]; rfl
@[simp] theorem State.occur_read_dget (s : State) (cause part detail : Nat) (j : Nat) : (s.occur cause part detail).dget j = s.dget j := by rw [State.occur_frame]; rfl
@[simp] theorem State.occur_read_port (s : State) (cause part detail : Nat) (j : Nat) : (s.occur cause part detail).port j = s.port j := by rw [State.occur_frame]; rfl
@[simp] theorem State.occur_read_part (s : State) (cause part detail : Nat) (j : Nat) : (s.occur cause part detail).part j = s.part j := by rw [State.occur_frame]; rfl
@[simp] theorem State.occur_read_net (s : State) (cause part detail : Nat) (j : Nat) : (s.occur cause part detail).net j = s.net j := by rw [State.occur_frame]; rfl
@[simp] theorem State.occur_read_now (s : State) (cause part detail : Nat)  : (s.occur cause part detail).now = s.now := by rw [State.occur_frame]; rfl
@[simp] theorem State.occur_read_cmd (s : State) (cause part detail : Nat) (j : Nat) : (s.occur cause part detail).cmd? j = s.cmd? j := by rw [State.occur_frame]; rfl
@[simp] theorem State.occur_read_vault (s : State) (cause part detail : Nat) (j : Nat) : (s.occur cause part detail).vault j = s.vault j := by rw [State.occur_frame]; rfl
@[simp] theorem State.occur_read_stand (s : State) (cause part detail : Nat) (j : Nat) : (s.occur cause part detail).stand j = s.stand j := by rw [State.occur_frame]; rfl
@[simp] theorem State.occur_read_byte (s : State) (cause part detail : Nat) (j : Nat) : (s.occur cause part detail).byte j = s.byte j := by rw [State.occur_frame]; rfl

/-! ### msix -/

/-- All that msix changes. -/
theorem State.msix_frame (s : State) (p v : Nat) :
    s.msix p v = { s with ports := (s.msix p v).ports, out := (s.msix p v).out } := by
  unfold State.msix; dsimp only; repeat' split
  all_goals rfl

@[simp] theorem State.msix_ticks (s : State) (p v : Nat) : (s.msix p v).ticks = s.ticks := by rw [State.msix_frame]
@[simp] theorem State.msix_od (s : State) (p v : Nat) : (s.msix p v).od = s.od := by rw [State.msix_frame]
@[simp] theorem State.msix_dom (s : State) (p v : Nat) : (s.msix p v).dom = s.dom := by rw [State.msix_frame]
@[simp] theorem State.msix_div (s : State) (p v : Nat) : (s.msix p v).div = s.div := by rw [State.msix_frame]
@[simp] theorem State.msix_mem (s : State) (p v : Nat) : (s.msix p v).mem = s.mem := by rw [State.msix_frame]
@[simp] theorem State.msix_flips (s : State) (p v : Nat) : (s.msix p v).flips = s.flips := by rw [State.msix_frame]
@[simp] theorem State.msix_lbuf (s : State) (p v : Nat) : (s.msix p v).lbuf = s.lbuf := by rw [State.msix_frame]
@[simp] theorem State.msix_sram (s : State) (p v : Nat) : (s.msix p v).sram = s.sram := by rw [State.msix_frame]
@[simp] theorem State.msix_vaults (s : State) (p v : Nat) : (s.msix p v).vaults = s.vaults := by rw [State.msix_frame]
@[simp] theorem State.msix_stands (s : State) (p v : Nat) : (s.msix p v).stands = s.stands := by rw [State.msix_frame]
@[simp] theorem State.msix_repairs (s : State) (p v : Nat) : (s.msix p v).repairs = s.repairs := by rw [State.msix_frame]
@[simp] theorem State.msix_repairPass (s : State) (p v : Nat) : (s.msix p v).repairPass = s.repairPass := by rw [State.msix_frame]
@[simp] theorem State.msix_repairQueue (s : State) (p v : Nat) : (s.msix p v).repairQueue = s.repairQueue := by rw [State.msix_frame]
@[simp] theorem State.msix_errLog (s : State) (p v : Nat) : (s.msix p v).errLog = s.errLog := by rw [State.msix_frame]
@[simp] theorem State.msix_wipes (s : State) (p v : Nat) : (s.msix p v).wipes = s.wipes := by rw [State.msix_frame]
@[simp] theorem State.msix_cmds (s : State) (p v : Nat) : (s.msix p v).cmds = s.cmds := by rw [State.msix_frame]
@[simp] theorem State.msix_nextId (s : State) (p v : Nat) : (s.msix p v).nextId = s.nextId := by rw [State.msix_frame]
@[simp] theorem State.msix_parts (s : State) (p v : Nat) : (s.msix p v).parts = s.parts := by rw [State.msix_frame]
@[simp] theorem State.msix_rltReqs (s : State) (p v : Nat) : (s.msix p v).rltReqs = s.rltReqs := by rw [State.msix_frame]
@[simp] theorem State.msix_nextReq (s : State) (p v : Nat) : (s.msix p v).nextReq = s.nextReq := by rw [State.msix_frame]
@[simp] theorem State.msix_cores (s : State) (p v : Nat) : (s.msix p v).cores = s.cores := by rw [State.msix_frame]
@[simp] theorem State.msix_prefetched (s : State) (p v : Nat) : (s.msix p v).prefetched = s.prefetched := by rw [State.msix_frame]
@[simp] theorem State.msix_nextBorn (s : State) (p v : Nat) : (s.msix p v).nextBorn = s.nextBorn := by rw [State.msix_frame]
@[simp] theorem State.msix_engines (s : State) (p v : Nat) : (s.msix p v).engines = s.engines := by rw [State.msix_frame]
@[simp] theorem State.msix_laneHeads (s : State) (p v : Nat) : (s.msix p v).laneHeads = s.laneHeads := by rw [State.msix_frame]
@[simp] theorem State.msix_down (s : State) (p v : Nat) : (s.msix p v).down = s.down := by rw [State.msix_frame]
@[simp] theorem State.msix_lanes (s : State) (p v : Nat) : (s.msix p v).lanes = s.lanes := by rw [State.msix_frame]
@[simp] theorem State.msix_freed (s : State) (p v : Nat) : (s.msix p v).freed = s.freed := by rw [State.msix_frame]
@[simp] theorem State.msix_klib (s : State) (p v : Nat) : (s.msix p v).klib = s.klib := by rw [State.msix_frame]
@[simp] theorem State.msix_nets (s : State) (p v : Nat) : (s.msix p v).nets = s.nets := by rw [State.msix_frame]
@[simp] theorem State.msix_regions (s : State) (p v : Nat) : (s.msix p v).regions = s.regions := by rw [State.msix_frame]
@[simp] theorem State.msix_mgmt (s : State) (p v : Nat) : (s.msix p v).mgmt = s.mgmt := by rw [State.msix_frame]
@[simp] theorem State.msix_nv (s : State) (p v : Nat) : (s.msix p v).nv = s.nv := by rw [State.msix_frame]
@[simp] theorem State.msix_boot (s : State) (p v : Nat) : (s.msix p v).boot = s.boot := by rw [State.msix_frame]
@[simp] theorem State.msix_resets (s : State) (p v : Nat) : (s.msix p v).resets = s.resets := by rw [State.msix_frame]
@[simp] theorem State.msix_blockResets (s : State) (p v : Nat) : (s.msix p v).blockResets = s.blockResets := by rw [State.msix_frame]
@[simp] theorem State.msix_clk (s : State) (p v : Nat) : (s.msix p v).clk = s.clk := by rw [State.msix_frame]
@[simp] theorem State.msix_pwr (s : State) (p v : Nat) : (s.msix p v).pwr = s.pwr := by rw [State.msix_frame]
@[simp] theorem State.msix_scl (s : State) (p v : Nat) : (s.msix p v).scl = s.scl := by rw [State.msix_frame]
@[simp] theorem State.msix_mirror (s : State) (p v : Nat) : (s.msix p v).mirror = s.mirror := by rw [State.msix_frame]
@[simp] theorem State.msix_work (s : State) (p v : Nat) : (s.msix p v).work = s.work := by rw [State.msix_frame]
@[simp] theorem State.msix_workSeq (s : State) (p v : Nat) : (s.msix p v).workSeq = s.workSeq := by rw [State.msix_frame]
@[simp] theorem State.msix_workAt (s : State) (p v : Nat) : (s.msix p v).workAt = s.workAt := by rw [State.msix_frame]
@[simp] theorem State.msix_statusAt (s : State) (p v : Nat) : (s.msix p v).statusAt = s.statusAt := by rw [State.msix_frame]
@[simp] theorem State.msix_fresh (s : State) (p v : Nat) : (s.msix p v).fresh = s.fresh := by rw [State.msix_frame]
@[simp] theorem State.msix_pending (s : State) (p v : Nat) : (s.msix p v).pending = s.pending := by rw [State.msix_frame]
@[simp] theorem State.msix_read_get (s : State) (p v : Nat) (j : Nat) : (s.msix p v).get j = s.get j := by rw [State.msix_frame]; rfl
@[simp] theorem State.msix_read_dget (s : State) (p v : Nat) (j : Nat) : (s.msix p v).dget j = s.dget j := by rw [State.msix_frame]; rfl
@[simp] theorem State.msix_read_part (s : State) (p v : Nat) (j : Nat) : (s.msix p v).part j = s.part j := by rw [State.msix_frame]; rfl
@[simp] theorem State.msix_read_net (s : State) (p v : Nat) (j : Nat) : (s.msix p v).net j = s.net j := by rw [State.msix_frame]; rfl
@[simp] theorem State.msix_read_now (s : State) (p v : Nat)  : (s.msix p v).now = s.now := by rw [State.msix_frame]; rfl
@[simp] theorem State.msix_read_cmd (s : State) (p v : Nat) (j : Nat) : (s.msix p v).cmd? j = s.cmd? j := by rw [State.msix_frame]; rfl
@[simp] theorem State.msix_read_vault (s : State) (p v : Nat) (j : Nat) : (s.msix p v).vault j = s.vault j := by rw [State.msix_frame]; rfl
@[simp] theorem State.msix_read_stand (s : State) (p v : Nat) (j : Nat) : (s.msix p v).stand j = s.stand j := by rw [State.msix_frame]; rfl
@[simp] theorem State.msix_read_byte (s : State) (p v : Nat) (j : Nat) : (s.msix p v).byte j = s.byte j := by rw [State.msix_frame]; rfl

/-! ### portEvent -/

/-- All that portEvent changes. -/
theorem State.portEvent_frame (s : State) (p bit : Nat) :
    s.portEvent p bit = { s with ports := (s.portEvent p bit).ports, out := (s.portEvent p bit).out } := by
  unfold State.portEvent; dsimp only; repeat' split
  · rfl
  · rw [State.msix_frame]; rfl
  · rfl

@[simp] theorem State.portEvent_ticks (s : State) (p bit : Nat) : (s.portEvent p bit).ticks = s.ticks := by rw [State.portEvent_frame]
@[simp] theorem State.portEvent_od (s : State) (p bit : Nat) : (s.portEvent p bit).od = s.od := by rw [State.portEvent_frame]
@[simp] theorem State.portEvent_dom (s : State) (p bit : Nat) : (s.portEvent p bit).dom = s.dom := by rw [State.portEvent_frame]
@[simp] theorem State.portEvent_div (s : State) (p bit : Nat) : (s.portEvent p bit).div = s.div := by rw [State.portEvent_frame]
@[simp] theorem State.portEvent_mem (s : State) (p bit : Nat) : (s.portEvent p bit).mem = s.mem := by rw [State.portEvent_frame]
@[simp] theorem State.portEvent_flips (s : State) (p bit : Nat) : (s.portEvent p bit).flips = s.flips := by rw [State.portEvent_frame]
@[simp] theorem State.portEvent_lbuf (s : State) (p bit : Nat) : (s.portEvent p bit).lbuf = s.lbuf := by rw [State.portEvent_frame]
@[simp] theorem State.portEvent_sram (s : State) (p bit : Nat) : (s.portEvent p bit).sram = s.sram := by rw [State.portEvent_frame]
@[simp] theorem State.portEvent_vaults (s : State) (p bit : Nat) : (s.portEvent p bit).vaults = s.vaults := by rw [State.portEvent_frame]
@[simp] theorem State.portEvent_stands (s : State) (p bit : Nat) : (s.portEvent p bit).stands = s.stands := by rw [State.portEvent_frame]
@[simp] theorem State.portEvent_repairs (s : State) (p bit : Nat) : (s.portEvent p bit).repairs = s.repairs := by rw [State.portEvent_frame]
@[simp] theorem State.portEvent_repairPass (s : State) (p bit : Nat) : (s.portEvent p bit).repairPass = s.repairPass := by rw [State.portEvent_frame]
@[simp] theorem State.portEvent_repairQueue (s : State) (p bit : Nat) : (s.portEvent p bit).repairQueue = s.repairQueue := by rw [State.portEvent_frame]
@[simp] theorem State.portEvent_errLog (s : State) (p bit : Nat) : (s.portEvent p bit).errLog = s.errLog := by rw [State.portEvent_frame]
@[simp] theorem State.portEvent_wipes (s : State) (p bit : Nat) : (s.portEvent p bit).wipes = s.wipes := by rw [State.portEvent_frame]
@[simp] theorem State.portEvent_cmds (s : State) (p bit : Nat) : (s.portEvent p bit).cmds = s.cmds := by rw [State.portEvent_frame]
@[simp] theorem State.portEvent_nextId (s : State) (p bit : Nat) : (s.portEvent p bit).nextId = s.nextId := by rw [State.portEvent_frame]
@[simp] theorem State.portEvent_parts (s : State) (p bit : Nat) : (s.portEvent p bit).parts = s.parts := by rw [State.portEvent_frame]
@[simp] theorem State.portEvent_rltReqs (s : State) (p bit : Nat) : (s.portEvent p bit).rltReqs = s.rltReqs := by rw [State.portEvent_frame]
@[simp] theorem State.portEvent_nextReq (s : State) (p bit : Nat) : (s.portEvent p bit).nextReq = s.nextReq := by rw [State.portEvent_frame]
@[simp] theorem State.portEvent_cores (s : State) (p bit : Nat) : (s.portEvent p bit).cores = s.cores := by rw [State.portEvent_frame]
@[simp] theorem State.portEvent_prefetched (s : State) (p bit : Nat) : (s.portEvent p bit).prefetched = s.prefetched := by rw [State.portEvent_frame]
@[simp] theorem State.portEvent_nextBorn (s : State) (p bit : Nat) : (s.portEvent p bit).nextBorn = s.nextBorn := by rw [State.portEvent_frame]
@[simp] theorem State.portEvent_engines (s : State) (p bit : Nat) : (s.portEvent p bit).engines = s.engines := by rw [State.portEvent_frame]
@[simp] theorem State.portEvent_laneHeads (s : State) (p bit : Nat) : (s.portEvent p bit).laneHeads = s.laneHeads := by rw [State.portEvent_frame]
@[simp] theorem State.portEvent_down (s : State) (p bit : Nat) : (s.portEvent p bit).down = s.down := by rw [State.portEvent_frame]
@[simp] theorem State.portEvent_lanes (s : State) (p bit : Nat) : (s.portEvent p bit).lanes = s.lanes := by rw [State.portEvent_frame]
@[simp] theorem State.portEvent_freed (s : State) (p bit : Nat) : (s.portEvent p bit).freed = s.freed := by rw [State.portEvent_frame]
@[simp] theorem State.portEvent_klib (s : State) (p bit : Nat) : (s.portEvent p bit).klib = s.klib := by rw [State.portEvent_frame]
@[simp] theorem State.portEvent_nets (s : State) (p bit : Nat) : (s.portEvent p bit).nets = s.nets := by rw [State.portEvent_frame]
@[simp] theorem State.portEvent_regions (s : State) (p bit : Nat) : (s.portEvent p bit).regions = s.regions := by rw [State.portEvent_frame]
@[simp] theorem State.portEvent_mgmt (s : State) (p bit : Nat) : (s.portEvent p bit).mgmt = s.mgmt := by rw [State.portEvent_frame]
@[simp] theorem State.portEvent_nv (s : State) (p bit : Nat) : (s.portEvent p bit).nv = s.nv := by rw [State.portEvent_frame]
@[simp] theorem State.portEvent_boot (s : State) (p bit : Nat) : (s.portEvent p bit).boot = s.boot := by rw [State.portEvent_frame]
@[simp] theorem State.portEvent_resets (s : State) (p bit : Nat) : (s.portEvent p bit).resets = s.resets := by rw [State.portEvent_frame]
@[simp] theorem State.portEvent_blockResets (s : State) (p bit : Nat) : (s.portEvent p bit).blockResets = s.blockResets := by rw [State.portEvent_frame]
@[simp] theorem State.portEvent_clk (s : State) (p bit : Nat) : (s.portEvent p bit).clk = s.clk := by rw [State.portEvent_frame]
@[simp] theorem State.portEvent_pwr (s : State) (p bit : Nat) : (s.portEvent p bit).pwr = s.pwr := by rw [State.portEvent_frame]
@[simp] theorem State.portEvent_scl (s : State) (p bit : Nat) : (s.portEvent p bit).scl = s.scl := by rw [State.portEvent_frame]
@[simp] theorem State.portEvent_mirror (s : State) (p bit : Nat) : (s.portEvent p bit).mirror = s.mirror := by rw [State.portEvent_frame]
@[simp] theorem State.portEvent_work (s : State) (p bit : Nat) : (s.portEvent p bit).work = s.work := by rw [State.portEvent_frame]
@[simp] theorem State.portEvent_workSeq (s : State) (p bit : Nat) : (s.portEvent p bit).workSeq = s.workSeq := by rw [State.portEvent_frame]
@[simp] theorem State.portEvent_workAt (s : State) (p bit : Nat) : (s.portEvent p bit).workAt = s.workAt := by rw [State.portEvent_frame]
@[simp] theorem State.portEvent_statusAt (s : State) (p bit : Nat) : (s.portEvent p bit).statusAt = s.statusAt := by rw [State.portEvent_frame]
@[simp] theorem State.portEvent_fresh (s : State) (p bit : Nat) : (s.portEvent p bit).fresh = s.fresh := by rw [State.portEvent_frame]
@[simp] theorem State.portEvent_pending (s : State) (p bit : Nat) : (s.portEvent p bit).pending = s.pending := by rw [State.portEvent_frame]
@[simp] theorem State.portEvent_read_get (s : State) (p bit : Nat) (j : Nat) : (s.portEvent p bit).get j = s.get j := by rw [State.portEvent_frame]; rfl
@[simp] theorem State.portEvent_read_dget (s : State) (p bit : Nat) (j : Nat) : (s.portEvent p bit).dget j = s.dget j := by rw [State.portEvent_frame]; rfl
@[simp] theorem State.portEvent_read_part (s : State) (p bit : Nat) (j : Nat) : (s.portEvent p bit).part j = s.part j := by rw [State.portEvent_frame]; rfl
@[simp] theorem State.portEvent_read_net (s : State) (p bit : Nat) (j : Nat) : (s.portEvent p bit).net j = s.net j := by rw [State.portEvent_frame]; rfl
@[simp] theorem State.portEvent_read_now (s : State) (p bit : Nat)  : (s.portEvent p bit).now = s.now := by rw [State.portEvent_frame]; rfl
@[simp] theorem State.portEvent_read_cmd (s : State) (p bit : Nat) (j : Nat) : (s.portEvent p bit).cmd? j = s.cmd? j := by rw [State.portEvent_frame]; rfl
@[simp] theorem State.portEvent_read_vault (s : State) (p bit : Nat) (j : Nat) : (s.portEvent p bit).vault j = s.vault j := by rw [State.portEvent_frame]; rfl
@[simp] theorem State.portEvent_read_stand (s : State) (p bit : Nat) (j : Nat) : (s.portEvent p bit).stand j = s.stand j := by rw [State.portEvent_frame]; rfl
@[simp] theorem State.portEvent_read_byte (s : State) (p bit : Nat) (j : Nat) : (s.portEvent p bit).byte j = s.byte j := by rw [State.portEvent_frame]; rfl

/-! ### dmaFault -/

/-- All that dmaFault changes. -/
theorem State.dmaFault_frame (s : State) (p addr : Nat) (st : Status) (ring tag : Nat) :
    s.dmaFault p addr st ring tag = { s with od := (s.dmaFault p addr st ring tag).od, ports := (s.dmaFault p addr st ring tag).ports, out := (s.dmaFault p addr st ring tag).out } := by
  unfold State.dmaFault; dsimp only; rw [State.portEvent_frame]; rfl

@[simp] theorem State.dmaFault_ticks (s : State) (p addr : Nat) (st : Status) (ring tag : Nat) : (s.dmaFault p addr st ring tag).ticks = s.ticks := by rw [State.dmaFault_frame]
@[simp] theorem State.dmaFault_dom (s : State) (p addr : Nat) (st : Status) (ring tag : Nat) : (s.dmaFault p addr st ring tag).dom = s.dom := by rw [State.dmaFault_frame]
@[simp] theorem State.dmaFault_div (s : State) (p addr : Nat) (st : Status) (ring tag : Nat) : (s.dmaFault p addr st ring tag).div = s.div := by rw [State.dmaFault_frame]
@[simp] theorem State.dmaFault_mem (s : State) (p addr : Nat) (st : Status) (ring tag : Nat) : (s.dmaFault p addr st ring tag).mem = s.mem := by rw [State.dmaFault_frame]
@[simp] theorem State.dmaFault_flips (s : State) (p addr : Nat) (st : Status) (ring tag : Nat) : (s.dmaFault p addr st ring tag).flips = s.flips := by rw [State.dmaFault_frame]
@[simp] theorem State.dmaFault_lbuf (s : State) (p addr : Nat) (st : Status) (ring tag : Nat) : (s.dmaFault p addr st ring tag).lbuf = s.lbuf := by rw [State.dmaFault_frame]
@[simp] theorem State.dmaFault_sram (s : State) (p addr : Nat) (st : Status) (ring tag : Nat) : (s.dmaFault p addr st ring tag).sram = s.sram := by rw [State.dmaFault_frame]
@[simp] theorem State.dmaFault_vaults (s : State) (p addr : Nat) (st : Status) (ring tag : Nat) : (s.dmaFault p addr st ring tag).vaults = s.vaults := by rw [State.dmaFault_frame]
@[simp] theorem State.dmaFault_stands (s : State) (p addr : Nat) (st : Status) (ring tag : Nat) : (s.dmaFault p addr st ring tag).stands = s.stands := by rw [State.dmaFault_frame]
@[simp] theorem State.dmaFault_repairs (s : State) (p addr : Nat) (st : Status) (ring tag : Nat) : (s.dmaFault p addr st ring tag).repairs = s.repairs := by rw [State.dmaFault_frame]
@[simp] theorem State.dmaFault_repairPass (s : State) (p addr : Nat) (st : Status) (ring tag : Nat) : (s.dmaFault p addr st ring tag).repairPass = s.repairPass := by rw [State.dmaFault_frame]
@[simp] theorem State.dmaFault_repairQueue (s : State) (p addr : Nat) (st : Status) (ring tag : Nat) : (s.dmaFault p addr st ring tag).repairQueue = s.repairQueue := by rw [State.dmaFault_frame]
@[simp] theorem State.dmaFault_errLog (s : State) (p addr : Nat) (st : Status) (ring tag : Nat) : (s.dmaFault p addr st ring tag).errLog = s.errLog := by rw [State.dmaFault_frame]
@[simp] theorem State.dmaFault_wipes (s : State) (p addr : Nat) (st : Status) (ring tag : Nat) : (s.dmaFault p addr st ring tag).wipes = s.wipes := by rw [State.dmaFault_frame]
@[simp] theorem State.dmaFault_cmds (s : State) (p addr : Nat) (st : Status) (ring tag : Nat) : (s.dmaFault p addr st ring tag).cmds = s.cmds := by rw [State.dmaFault_frame]
@[simp] theorem State.dmaFault_nextId (s : State) (p addr : Nat) (st : Status) (ring tag : Nat) : (s.dmaFault p addr st ring tag).nextId = s.nextId := by rw [State.dmaFault_frame]
@[simp] theorem State.dmaFault_parts (s : State) (p addr : Nat) (st : Status) (ring tag : Nat) : (s.dmaFault p addr st ring tag).parts = s.parts := by rw [State.dmaFault_frame]
@[simp] theorem State.dmaFault_rltReqs (s : State) (p addr : Nat) (st : Status) (ring tag : Nat) : (s.dmaFault p addr st ring tag).rltReqs = s.rltReqs := by rw [State.dmaFault_frame]
@[simp] theorem State.dmaFault_nextReq (s : State) (p addr : Nat) (st : Status) (ring tag : Nat) : (s.dmaFault p addr st ring tag).nextReq = s.nextReq := by rw [State.dmaFault_frame]
@[simp] theorem State.dmaFault_cores (s : State) (p addr : Nat) (st : Status) (ring tag : Nat) : (s.dmaFault p addr st ring tag).cores = s.cores := by rw [State.dmaFault_frame]
@[simp] theorem State.dmaFault_prefetched (s : State) (p addr : Nat) (st : Status) (ring tag : Nat) : (s.dmaFault p addr st ring tag).prefetched = s.prefetched := by rw [State.dmaFault_frame]
@[simp] theorem State.dmaFault_nextBorn (s : State) (p addr : Nat) (st : Status) (ring tag : Nat) : (s.dmaFault p addr st ring tag).nextBorn = s.nextBorn := by rw [State.dmaFault_frame]
@[simp] theorem State.dmaFault_engines (s : State) (p addr : Nat) (st : Status) (ring tag : Nat) : (s.dmaFault p addr st ring tag).engines = s.engines := by rw [State.dmaFault_frame]
@[simp] theorem State.dmaFault_laneHeads (s : State) (p addr : Nat) (st : Status) (ring tag : Nat) : (s.dmaFault p addr st ring tag).laneHeads = s.laneHeads := by rw [State.dmaFault_frame]
@[simp] theorem State.dmaFault_down (s : State) (p addr : Nat) (st : Status) (ring tag : Nat) : (s.dmaFault p addr st ring tag).down = s.down := by rw [State.dmaFault_frame]
@[simp] theorem State.dmaFault_lanes (s : State) (p addr : Nat) (st : Status) (ring tag : Nat) : (s.dmaFault p addr st ring tag).lanes = s.lanes := by rw [State.dmaFault_frame]
@[simp] theorem State.dmaFault_freed (s : State) (p addr : Nat) (st : Status) (ring tag : Nat) : (s.dmaFault p addr st ring tag).freed = s.freed := by rw [State.dmaFault_frame]
@[simp] theorem State.dmaFault_klib (s : State) (p addr : Nat) (st : Status) (ring tag : Nat) : (s.dmaFault p addr st ring tag).klib = s.klib := by rw [State.dmaFault_frame]
@[simp] theorem State.dmaFault_nets (s : State) (p addr : Nat) (st : Status) (ring tag : Nat) : (s.dmaFault p addr st ring tag).nets = s.nets := by rw [State.dmaFault_frame]
@[simp] theorem State.dmaFault_regions (s : State) (p addr : Nat) (st : Status) (ring tag : Nat) : (s.dmaFault p addr st ring tag).regions = s.regions := by rw [State.dmaFault_frame]
@[simp] theorem State.dmaFault_mgmt (s : State) (p addr : Nat) (st : Status) (ring tag : Nat) : (s.dmaFault p addr st ring tag).mgmt = s.mgmt := by rw [State.dmaFault_frame]
@[simp] theorem State.dmaFault_nv (s : State) (p addr : Nat) (st : Status) (ring tag : Nat) : (s.dmaFault p addr st ring tag).nv = s.nv := by rw [State.dmaFault_frame]
@[simp] theorem State.dmaFault_boot (s : State) (p addr : Nat) (st : Status) (ring tag : Nat) : (s.dmaFault p addr st ring tag).boot = s.boot := by rw [State.dmaFault_frame]
@[simp] theorem State.dmaFault_resets (s : State) (p addr : Nat) (st : Status) (ring tag : Nat) : (s.dmaFault p addr st ring tag).resets = s.resets := by rw [State.dmaFault_frame]
@[simp] theorem State.dmaFault_blockResets (s : State) (p addr : Nat) (st : Status) (ring tag : Nat) : (s.dmaFault p addr st ring tag).blockResets = s.blockResets := by rw [State.dmaFault_frame]
@[simp] theorem State.dmaFault_clk (s : State) (p addr : Nat) (st : Status) (ring tag : Nat) : (s.dmaFault p addr st ring tag).clk = s.clk := by rw [State.dmaFault_frame]
@[simp] theorem State.dmaFault_pwr (s : State) (p addr : Nat) (st : Status) (ring tag : Nat) : (s.dmaFault p addr st ring tag).pwr = s.pwr := by rw [State.dmaFault_frame]
@[simp] theorem State.dmaFault_scl (s : State) (p addr : Nat) (st : Status) (ring tag : Nat) : (s.dmaFault p addr st ring tag).scl = s.scl := by rw [State.dmaFault_frame]
@[simp] theorem State.dmaFault_mirror (s : State) (p addr : Nat) (st : Status) (ring tag : Nat) : (s.dmaFault p addr st ring tag).mirror = s.mirror := by rw [State.dmaFault_frame]
@[simp] theorem State.dmaFault_work (s : State) (p addr : Nat) (st : Status) (ring tag : Nat) : (s.dmaFault p addr st ring tag).work = s.work := by rw [State.dmaFault_frame]
@[simp] theorem State.dmaFault_workSeq (s : State) (p addr : Nat) (st : Status) (ring tag : Nat) : (s.dmaFault p addr st ring tag).workSeq = s.workSeq := by rw [State.dmaFault_frame]
@[simp] theorem State.dmaFault_workAt (s : State) (p addr : Nat) (st : Status) (ring tag : Nat) : (s.dmaFault p addr st ring tag).workAt = s.workAt := by rw [State.dmaFault_frame]
@[simp] theorem State.dmaFault_statusAt (s : State) (p addr : Nat) (st : Status) (ring tag : Nat) : (s.dmaFault p addr st ring tag).statusAt = s.statusAt := by rw [State.dmaFault_frame]
@[simp] theorem State.dmaFault_fresh (s : State) (p addr : Nat) (st : Status) (ring tag : Nat) : (s.dmaFault p addr st ring tag).fresh = s.fresh := by rw [State.dmaFault_frame]
@[simp] theorem State.dmaFault_pending (s : State) (p addr : Nat) (st : Status) (ring tag : Nat) : (s.dmaFault p addr st ring tag).pending = s.pending := by rw [State.dmaFault_frame]
@[simp] theorem State.dmaFault_read_dget (s : State) (p addr : Nat) (st : Status) (ring tag : Nat) (j : Nat) : (s.dmaFault p addr st ring tag).dget j = s.dget j := by rw [State.dmaFault_frame]; rfl
@[simp] theorem State.dmaFault_read_part (s : State) (p addr : Nat) (st : Status) (ring tag : Nat) (j : Nat) : (s.dmaFault p addr st ring tag).part j = s.part j := by rw [State.dmaFault_frame]; rfl
@[simp] theorem State.dmaFault_read_net (s : State) (p addr : Nat) (st : Status) (ring tag : Nat) (j : Nat) : (s.dmaFault p addr st ring tag).net j = s.net j := by rw [State.dmaFault_frame]; rfl
@[simp] theorem State.dmaFault_read_now (s : State) (p addr : Nat) (st : Status) (ring tag : Nat)  : (s.dmaFault p addr st ring tag).now = s.now := by rw [State.dmaFault_frame]; rfl
@[simp] theorem State.dmaFault_read_cmd (s : State) (p addr : Nat) (st : Status) (ring tag : Nat) (j : Nat) : (s.dmaFault p addr st ring tag).cmd? j = s.cmd? j := by rw [State.dmaFault_frame]; rfl
@[simp] theorem State.dmaFault_read_vault (s : State) (p addr : Nat) (st : Status) (ring tag : Nat) (j : Nat) : (s.dmaFault p addr st ring tag).vault j = s.vault j := by rw [State.dmaFault_frame]; rfl
@[simp] theorem State.dmaFault_read_stand (s : State) (p addr : Nat) (st : Status) (ring tag : Nat) (j : Nat) : (s.dmaFault p addr st ring tag).stand j = s.stand j := by rw [State.dmaFault_frame]; rfl
@[simp] theorem State.dmaFault_read_byte (s : State) (p addr : Nat) (st : Status) (ring tag : Nat) (j : Nat) : (s.dmaFault p addr st ring tag).byte j = s.byte j := by rw [State.dmaFault_frame]; rfl

/-! ### logError -/

/-- All that logError changes. -/
theorem State.logError_frame (s : State) (e : ErrEntry) :
    s.logError e = { s with errLog := (s.logError e).errLog, od := (s.logError e).od } := by
  unfold State.logError; dsimp only; repeat' split
  all_goals rfl

@[simp] theorem State.logError_ticks (s : State) (e : ErrEntry) : (s.logError e).ticks = s.ticks := by rw [State.logError_frame]
@[simp] theorem State.logError_dom (s : State) (e : ErrEntry) : (s.logError e).dom = s.dom := by rw [State.logError_frame]
@[simp] theorem State.logError_div (s : State) (e : ErrEntry) : (s.logError e).div = s.div := by rw [State.logError_frame]
@[simp] theorem State.logError_mem (s : State) (e : ErrEntry) : (s.logError e).mem = s.mem := by rw [State.logError_frame]
@[simp] theorem State.logError_flips (s : State) (e : ErrEntry) : (s.logError e).flips = s.flips := by rw [State.logError_frame]
@[simp] theorem State.logError_lbuf (s : State) (e : ErrEntry) : (s.logError e).lbuf = s.lbuf := by rw [State.logError_frame]
@[simp] theorem State.logError_sram (s : State) (e : ErrEntry) : (s.logError e).sram = s.sram := by rw [State.logError_frame]
@[simp] theorem State.logError_vaults (s : State) (e : ErrEntry) : (s.logError e).vaults = s.vaults := by rw [State.logError_frame]
@[simp] theorem State.logError_stands (s : State) (e : ErrEntry) : (s.logError e).stands = s.stands := by rw [State.logError_frame]
@[simp] theorem State.logError_repairs (s : State) (e : ErrEntry) : (s.logError e).repairs = s.repairs := by rw [State.logError_frame]
@[simp] theorem State.logError_repairPass (s : State) (e : ErrEntry) : (s.logError e).repairPass = s.repairPass := by rw [State.logError_frame]
@[simp] theorem State.logError_repairQueue (s : State) (e : ErrEntry) : (s.logError e).repairQueue = s.repairQueue := by rw [State.logError_frame]
@[simp] theorem State.logError_wipes (s : State) (e : ErrEntry) : (s.logError e).wipes = s.wipes := by rw [State.logError_frame]
@[simp] theorem State.logError_ports (s : State) (e : ErrEntry) : (s.logError e).ports = s.ports := by rw [State.logError_frame]
@[simp] theorem State.logError_cmds (s : State) (e : ErrEntry) : (s.logError e).cmds = s.cmds := by rw [State.logError_frame]
@[simp] theorem State.logError_nextId (s : State) (e : ErrEntry) : (s.logError e).nextId = s.nextId := by rw [State.logError_frame]
@[simp] theorem State.logError_parts (s : State) (e : ErrEntry) : (s.logError e).parts = s.parts := by rw [State.logError_frame]
@[simp] theorem State.logError_rltReqs (s : State) (e : ErrEntry) : (s.logError e).rltReqs = s.rltReqs := by rw [State.logError_frame]
@[simp] theorem State.logError_nextReq (s : State) (e : ErrEntry) : (s.logError e).nextReq = s.nextReq := by rw [State.logError_frame]
@[simp] theorem State.logError_cores (s : State) (e : ErrEntry) : (s.logError e).cores = s.cores := by rw [State.logError_frame]
@[simp] theorem State.logError_prefetched (s : State) (e : ErrEntry) : (s.logError e).prefetched = s.prefetched := by rw [State.logError_frame]
@[simp] theorem State.logError_nextBorn (s : State) (e : ErrEntry) : (s.logError e).nextBorn = s.nextBorn := by rw [State.logError_frame]
@[simp] theorem State.logError_engines (s : State) (e : ErrEntry) : (s.logError e).engines = s.engines := by rw [State.logError_frame]
@[simp] theorem State.logError_laneHeads (s : State) (e : ErrEntry) : (s.logError e).laneHeads = s.laneHeads := by rw [State.logError_frame]
@[simp] theorem State.logError_down (s : State) (e : ErrEntry) : (s.logError e).down = s.down := by rw [State.logError_frame]
@[simp] theorem State.logError_lanes (s : State) (e : ErrEntry) : (s.logError e).lanes = s.lanes := by rw [State.logError_frame]
@[simp] theorem State.logError_freed (s : State) (e : ErrEntry) : (s.logError e).freed = s.freed := by rw [State.logError_frame]
@[simp] theorem State.logError_klib (s : State) (e : ErrEntry) : (s.logError e).klib = s.klib := by rw [State.logError_frame]
@[simp] theorem State.logError_nets (s : State) (e : ErrEntry) : (s.logError e).nets = s.nets := by rw [State.logError_frame]
@[simp] theorem State.logError_regions (s : State) (e : ErrEntry) : (s.logError e).regions = s.regions := by rw [State.logError_frame]
@[simp] theorem State.logError_mgmt (s : State) (e : ErrEntry) : (s.logError e).mgmt = s.mgmt := by rw [State.logError_frame]
@[simp] theorem State.logError_nv (s : State) (e : ErrEntry) : (s.logError e).nv = s.nv := by rw [State.logError_frame]
@[simp] theorem State.logError_boot (s : State) (e : ErrEntry) : (s.logError e).boot = s.boot := by rw [State.logError_frame]
@[simp] theorem State.logError_resets (s : State) (e : ErrEntry) : (s.logError e).resets = s.resets := by rw [State.logError_frame]
@[simp] theorem State.logError_blockResets (s : State) (e : ErrEntry) : (s.logError e).blockResets = s.blockResets := by rw [State.logError_frame]
@[simp] theorem State.logError_clk (s : State) (e : ErrEntry) : (s.logError e).clk = s.clk := by rw [State.logError_frame]
@[simp] theorem State.logError_pwr (s : State) (e : ErrEntry) : (s.logError e).pwr = s.pwr := by rw [State.logError_frame]
@[simp] theorem State.logError_scl (s : State) (e : ErrEntry) : (s.logError e).scl = s.scl := by rw [State.logError_frame]
@[simp] theorem State.logError_mirror (s : State) (e : ErrEntry) : (s.logError e).mirror = s.mirror := by rw [State.logError_frame]
@[simp] theorem State.logError_work (s : State) (e : ErrEntry) : (s.logError e).work = s.work := by rw [State.logError_frame]
@[simp] theorem State.logError_workSeq (s : State) (e : ErrEntry) : (s.logError e).workSeq = s.workSeq := by rw [State.logError_frame]
@[simp] theorem State.logError_workAt (s : State) (e : ErrEntry) : (s.logError e).workAt = s.workAt := by rw [State.logError_frame]
@[simp] theorem State.logError_statusAt (s : State) (e : ErrEntry) : (s.logError e).statusAt = s.statusAt := by rw [State.logError_frame]
@[simp] theorem State.logError_fresh (s : State) (e : ErrEntry) : (s.logError e).fresh = s.fresh := by rw [State.logError_frame]
@[simp] theorem State.logError_out (s : State) (e : ErrEntry) : (s.logError e).out = s.out := by rw [State.logError_frame]
@[simp] theorem State.logError_pending (s : State) (e : ErrEntry) : (s.logError e).pending = s.pending := by rw [State.logError_frame]
@[simp] theorem State.logError_read_dget (s : State) (e : ErrEntry) (j : Nat) : (s.logError e).dget j = s.dget j := by rw [State.logError_frame]; rfl
@[simp] theorem State.logError_read_port (s : State) (e : ErrEntry) (j : Nat) : (s.logError e).port j = s.port j := by rw [State.logError_frame]; rfl
@[simp] theorem State.logError_read_part (s : State) (e : ErrEntry) (j : Nat) : (s.logError e).part j = s.part j := by rw [State.logError_frame]; rfl
@[simp] theorem State.logError_read_net (s : State) (e : ErrEntry) (j : Nat) : (s.logError e).net j = s.net j := by rw [State.logError_frame]; rfl
@[simp] theorem State.logError_read_now (s : State) (e : ErrEntry)  : (s.logError e).now = s.now := by rw [State.logError_frame]; rfl
@[simp] theorem State.logError_read_cmd (s : State) (e : ErrEntry) (j : Nat) : (s.logError e).cmd? j = s.cmd? j := by rw [State.logError_frame]; rfl
@[simp] theorem State.logError_read_vault (s : State) (e : ErrEntry) (j : Nat) : (s.logError e).vault j = s.vault j := by rw [State.logError_frame]; rfl
@[simp] theorem State.logError_read_stand (s : State) (e : ErrEntry) (j : Nat) : (s.logError e).stand j = s.stand j := by rw [State.logError_frame]; rfl
@[simp] theorem State.logError_read_byte (s : State) (e : ErrEntry) (j : Nat) : (s.logError e).byte j = s.byte j := by rw [State.logError_frame]; rfl

/-! ### setHot -/

/-- All that setHot changes. -/
theorem State.setHot_frame (s : State) (n : Nat) (hot : Bool) :
    s.setHot n hot = { s with stands := (s.setHot n hot).stands, od := (s.setHot n hot).od, mgmt := (s.setHot n hot).mgmt } := by
  unfold State.setHot State.occur; repeat' split
  all_goals rfl

@[simp] theorem State.setHot_ticks (s : State) (n : Nat) (hot : Bool) : (s.setHot n hot).ticks = s.ticks := by rw [State.setHot_frame]
@[simp] theorem State.setHot_dom (s : State) (n : Nat) (hot : Bool) : (s.setHot n hot).dom = s.dom := by rw [State.setHot_frame]
@[simp] theorem State.setHot_div (s : State) (n : Nat) (hot : Bool) : (s.setHot n hot).div = s.div := by rw [State.setHot_frame]
@[simp] theorem State.setHot_mem (s : State) (n : Nat) (hot : Bool) : (s.setHot n hot).mem = s.mem := by rw [State.setHot_frame]
@[simp] theorem State.setHot_flips (s : State) (n : Nat) (hot : Bool) : (s.setHot n hot).flips = s.flips := by rw [State.setHot_frame]
@[simp] theorem State.setHot_lbuf (s : State) (n : Nat) (hot : Bool) : (s.setHot n hot).lbuf = s.lbuf := by rw [State.setHot_frame]
@[simp] theorem State.setHot_sram (s : State) (n : Nat) (hot : Bool) : (s.setHot n hot).sram = s.sram := by rw [State.setHot_frame]
@[simp] theorem State.setHot_vaults (s : State) (n : Nat) (hot : Bool) : (s.setHot n hot).vaults = s.vaults := by rw [State.setHot_frame]
@[simp] theorem State.setHot_repairs (s : State) (n : Nat) (hot : Bool) : (s.setHot n hot).repairs = s.repairs := by rw [State.setHot_frame]
@[simp] theorem State.setHot_repairPass (s : State) (n : Nat) (hot : Bool) : (s.setHot n hot).repairPass = s.repairPass := by rw [State.setHot_frame]
@[simp] theorem State.setHot_repairQueue (s : State) (n : Nat) (hot : Bool) : (s.setHot n hot).repairQueue = s.repairQueue := by rw [State.setHot_frame]
@[simp] theorem State.setHot_errLog (s : State) (n : Nat) (hot : Bool) : (s.setHot n hot).errLog = s.errLog := by rw [State.setHot_frame]
@[simp] theorem State.setHot_wipes (s : State) (n : Nat) (hot : Bool) : (s.setHot n hot).wipes = s.wipes := by rw [State.setHot_frame]
@[simp] theorem State.setHot_ports (s : State) (n : Nat) (hot : Bool) : (s.setHot n hot).ports = s.ports := by rw [State.setHot_frame]
@[simp] theorem State.setHot_cmds (s : State) (n : Nat) (hot : Bool) : (s.setHot n hot).cmds = s.cmds := by rw [State.setHot_frame]
@[simp] theorem State.setHot_nextId (s : State) (n : Nat) (hot : Bool) : (s.setHot n hot).nextId = s.nextId := by rw [State.setHot_frame]
@[simp] theorem State.setHot_parts (s : State) (n : Nat) (hot : Bool) : (s.setHot n hot).parts = s.parts := by rw [State.setHot_frame]
@[simp] theorem State.setHot_rltReqs (s : State) (n : Nat) (hot : Bool) : (s.setHot n hot).rltReqs = s.rltReqs := by rw [State.setHot_frame]
@[simp] theorem State.setHot_nextReq (s : State) (n : Nat) (hot : Bool) : (s.setHot n hot).nextReq = s.nextReq := by rw [State.setHot_frame]
@[simp] theorem State.setHot_cores (s : State) (n : Nat) (hot : Bool) : (s.setHot n hot).cores = s.cores := by rw [State.setHot_frame]
@[simp] theorem State.setHot_prefetched (s : State) (n : Nat) (hot : Bool) : (s.setHot n hot).prefetched = s.prefetched := by rw [State.setHot_frame]
@[simp] theorem State.setHot_nextBorn (s : State) (n : Nat) (hot : Bool) : (s.setHot n hot).nextBorn = s.nextBorn := by rw [State.setHot_frame]
@[simp] theorem State.setHot_engines (s : State) (n : Nat) (hot : Bool) : (s.setHot n hot).engines = s.engines := by rw [State.setHot_frame]
@[simp] theorem State.setHot_laneHeads (s : State) (n : Nat) (hot : Bool) : (s.setHot n hot).laneHeads = s.laneHeads := by rw [State.setHot_frame]
@[simp] theorem State.setHot_down (s : State) (n : Nat) (hot : Bool) : (s.setHot n hot).down = s.down := by rw [State.setHot_frame]
@[simp] theorem State.setHot_lanes (s : State) (n : Nat) (hot : Bool) : (s.setHot n hot).lanes = s.lanes := by rw [State.setHot_frame]
@[simp] theorem State.setHot_freed (s : State) (n : Nat) (hot : Bool) : (s.setHot n hot).freed = s.freed := by rw [State.setHot_frame]
@[simp] theorem State.setHot_klib (s : State) (n : Nat) (hot : Bool) : (s.setHot n hot).klib = s.klib := by rw [State.setHot_frame]
@[simp] theorem State.setHot_nets (s : State) (n : Nat) (hot : Bool) : (s.setHot n hot).nets = s.nets := by rw [State.setHot_frame]
@[simp] theorem State.setHot_regions (s : State) (n : Nat) (hot : Bool) : (s.setHot n hot).regions = s.regions := by rw [State.setHot_frame]
@[simp] theorem State.setHot_nv (s : State) (n : Nat) (hot : Bool) : (s.setHot n hot).nv = s.nv := by rw [State.setHot_frame]
@[simp] theorem State.setHot_boot (s : State) (n : Nat) (hot : Bool) : (s.setHot n hot).boot = s.boot := by rw [State.setHot_frame]
@[simp] theorem State.setHot_resets (s : State) (n : Nat) (hot : Bool) : (s.setHot n hot).resets = s.resets := by rw [State.setHot_frame]
@[simp] theorem State.setHot_blockResets (s : State) (n : Nat) (hot : Bool) : (s.setHot n hot).blockResets = s.blockResets := by rw [State.setHot_frame]
@[simp] theorem State.setHot_clk (s : State) (n : Nat) (hot : Bool) : (s.setHot n hot).clk = s.clk := by rw [State.setHot_frame]
@[simp] theorem State.setHot_pwr (s : State) (n : Nat) (hot : Bool) : (s.setHot n hot).pwr = s.pwr := by rw [State.setHot_frame]
@[simp] theorem State.setHot_scl (s : State) (n : Nat) (hot : Bool) : (s.setHot n hot).scl = s.scl := by rw [State.setHot_frame]
@[simp] theorem State.setHot_mirror (s : State) (n : Nat) (hot : Bool) : (s.setHot n hot).mirror = s.mirror := by rw [State.setHot_frame]
@[simp] theorem State.setHot_work (s : State) (n : Nat) (hot : Bool) : (s.setHot n hot).work = s.work := by rw [State.setHot_frame]
@[simp] theorem State.setHot_workSeq (s : State) (n : Nat) (hot : Bool) : (s.setHot n hot).workSeq = s.workSeq := by rw [State.setHot_frame]
@[simp] theorem State.setHot_workAt (s : State) (n : Nat) (hot : Bool) : (s.setHot n hot).workAt = s.workAt := by rw [State.setHot_frame]
@[simp] theorem State.setHot_statusAt (s : State) (n : Nat) (hot : Bool) : (s.setHot n hot).statusAt = s.statusAt := by rw [State.setHot_frame]
@[simp] theorem State.setHot_fresh (s : State) (n : Nat) (hot : Bool) : (s.setHot n hot).fresh = s.fresh := by rw [State.setHot_frame]
@[simp] theorem State.setHot_out (s : State) (n : Nat) (hot : Bool) : (s.setHot n hot).out = s.out := by rw [State.setHot_frame]
@[simp] theorem State.setHot_pending (s : State) (n : Nat) (hot : Bool) : (s.setHot n hot).pending = s.pending := by rw [State.setHot_frame]
@[simp] theorem State.setHot_read_dget (s : State) (n : Nat) (hot : Bool) (j : Nat) : (s.setHot n hot).dget j = s.dget j := by rw [State.setHot_frame]; rfl
@[simp] theorem State.setHot_read_port (s : State) (n : Nat) (hot : Bool) (j : Nat) : (s.setHot n hot).port j = s.port j := by rw [State.setHot_frame]; rfl
@[simp] theorem State.setHot_read_part (s : State) (n : Nat) (hot : Bool) (j : Nat) : (s.setHot n hot).part j = s.part j := by rw [State.setHot_frame]; rfl
@[simp] theorem State.setHot_read_net (s : State) (n : Nat) (hot : Bool) (j : Nat) : (s.setHot n hot).net j = s.net j := by rw [State.setHot_frame]; rfl
@[simp] theorem State.setHot_read_now (s : State) (n : Nat) (hot : Bool)  : (s.setHot n hot).now = s.now := by rw [State.setHot_frame]; rfl
@[simp] theorem State.setHot_read_cmd (s : State) (n : Nat) (hot : Bool) (j : Nat) : (s.setHot n hot).cmd? j = s.cmd? j := by rw [State.setHot_frame]; rfl
@[simp] theorem State.setHot_read_vault (s : State) (n : Nat) (hot : Bool) (j : Nat) : (s.setHot n hot).vault j = s.vault j := by rw [State.setHot_frame]; rfl
@[simp] theorem State.setHot_read_byte (s : State) (n : Nat) (hot : Bool) (j : Nat) : (s.setHot n hot).byte j = s.byte j := by rw [State.setHot_frame]; rfl

/-! ### setPortState -/

/-- All that setPortState changes. -/
theorem State.setPortState_frame (s : State) (n v : Nat) :
    s.setPortState n v = { s with od := (s.setPortState n v).od, mgmt := (s.setPortState n v).mgmt } := by
  unfold State.setPortState State.occur; repeat' split
  all_goals rfl

@[simp] theorem State.setPortState_ticks (s : State) (n v : Nat) : (s.setPortState n v).ticks = s.ticks := by rw [State.setPortState_frame]
@[simp] theorem State.setPortState_dom (s : State) (n v : Nat) : (s.setPortState n v).dom = s.dom := by rw [State.setPortState_frame]
@[simp] theorem State.setPortState_div (s : State) (n v : Nat) : (s.setPortState n v).div = s.div := by rw [State.setPortState_frame]
@[simp] theorem State.setPortState_mem (s : State) (n v : Nat) : (s.setPortState n v).mem = s.mem := by rw [State.setPortState_frame]
@[simp] theorem State.setPortState_flips (s : State) (n v : Nat) : (s.setPortState n v).flips = s.flips := by rw [State.setPortState_frame]
@[simp] theorem State.setPortState_lbuf (s : State) (n v : Nat) : (s.setPortState n v).lbuf = s.lbuf := by rw [State.setPortState_frame]
@[simp] theorem State.setPortState_sram (s : State) (n v : Nat) : (s.setPortState n v).sram = s.sram := by rw [State.setPortState_frame]
@[simp] theorem State.setPortState_vaults (s : State) (n v : Nat) : (s.setPortState n v).vaults = s.vaults := by rw [State.setPortState_frame]
@[simp] theorem State.setPortState_stands (s : State) (n v : Nat) : (s.setPortState n v).stands = s.stands := by rw [State.setPortState_frame]
@[simp] theorem State.setPortState_repairs (s : State) (n v : Nat) : (s.setPortState n v).repairs = s.repairs := by rw [State.setPortState_frame]
@[simp] theorem State.setPortState_repairPass (s : State) (n v : Nat) : (s.setPortState n v).repairPass = s.repairPass := by rw [State.setPortState_frame]
@[simp] theorem State.setPortState_repairQueue (s : State) (n v : Nat) : (s.setPortState n v).repairQueue = s.repairQueue := by rw [State.setPortState_frame]
@[simp] theorem State.setPortState_errLog (s : State) (n v : Nat) : (s.setPortState n v).errLog = s.errLog := by rw [State.setPortState_frame]
@[simp] theorem State.setPortState_wipes (s : State) (n v : Nat) : (s.setPortState n v).wipes = s.wipes := by rw [State.setPortState_frame]
@[simp] theorem State.setPortState_ports (s : State) (n v : Nat) : (s.setPortState n v).ports = s.ports := by rw [State.setPortState_frame]
@[simp] theorem State.setPortState_cmds (s : State) (n v : Nat) : (s.setPortState n v).cmds = s.cmds := by rw [State.setPortState_frame]
@[simp] theorem State.setPortState_nextId (s : State) (n v : Nat) : (s.setPortState n v).nextId = s.nextId := by rw [State.setPortState_frame]
@[simp] theorem State.setPortState_parts (s : State) (n v : Nat) : (s.setPortState n v).parts = s.parts := by rw [State.setPortState_frame]
@[simp] theorem State.setPortState_rltReqs (s : State) (n v : Nat) : (s.setPortState n v).rltReqs = s.rltReqs := by rw [State.setPortState_frame]
@[simp] theorem State.setPortState_nextReq (s : State) (n v : Nat) : (s.setPortState n v).nextReq = s.nextReq := by rw [State.setPortState_frame]
@[simp] theorem State.setPortState_cores (s : State) (n v : Nat) : (s.setPortState n v).cores = s.cores := by rw [State.setPortState_frame]
@[simp] theorem State.setPortState_prefetched (s : State) (n v : Nat) : (s.setPortState n v).prefetched = s.prefetched := by rw [State.setPortState_frame]
@[simp] theorem State.setPortState_nextBorn (s : State) (n v : Nat) : (s.setPortState n v).nextBorn = s.nextBorn := by rw [State.setPortState_frame]
@[simp] theorem State.setPortState_engines (s : State) (n v : Nat) : (s.setPortState n v).engines = s.engines := by rw [State.setPortState_frame]
@[simp] theorem State.setPortState_laneHeads (s : State) (n v : Nat) : (s.setPortState n v).laneHeads = s.laneHeads := by rw [State.setPortState_frame]
@[simp] theorem State.setPortState_down (s : State) (n v : Nat) : (s.setPortState n v).down = s.down := by rw [State.setPortState_frame]
@[simp] theorem State.setPortState_lanes (s : State) (n v : Nat) : (s.setPortState n v).lanes = s.lanes := by rw [State.setPortState_frame]
@[simp] theorem State.setPortState_freed (s : State) (n v : Nat) : (s.setPortState n v).freed = s.freed := by rw [State.setPortState_frame]
@[simp] theorem State.setPortState_klib (s : State) (n v : Nat) : (s.setPortState n v).klib = s.klib := by rw [State.setPortState_frame]
@[simp] theorem State.setPortState_nets (s : State) (n v : Nat) : (s.setPortState n v).nets = s.nets := by rw [State.setPortState_frame]
@[simp] theorem State.setPortState_regions (s : State) (n v : Nat) : (s.setPortState n v).regions = s.regions := by rw [State.setPortState_frame]
@[simp] theorem State.setPortState_nv (s : State) (n v : Nat) : (s.setPortState n v).nv = s.nv := by rw [State.setPortState_frame]
@[simp] theorem State.setPortState_boot (s : State) (n v : Nat) : (s.setPortState n v).boot = s.boot := by rw [State.setPortState_frame]
@[simp] theorem State.setPortState_resets (s : State) (n v : Nat) : (s.setPortState n v).resets = s.resets := by rw [State.setPortState_frame]
@[simp] theorem State.setPortState_blockResets (s : State) (n v : Nat) : (s.setPortState n v).blockResets = s.blockResets := by rw [State.setPortState_frame]
@[simp] theorem State.setPortState_clk (s : State) (n v : Nat) : (s.setPortState n v).clk = s.clk := by rw [State.setPortState_frame]
@[simp] theorem State.setPortState_pwr (s : State) (n v : Nat) : (s.setPortState n v).pwr = s.pwr := by rw [State.setPortState_frame]
@[simp] theorem State.setPortState_scl (s : State) (n v : Nat) : (s.setPortState n v).scl = s.scl := by rw [State.setPortState_frame]
@[simp] theorem State.setPortState_mirror (s : State) (n v : Nat) : (s.setPortState n v).mirror = s.mirror := by rw [State.setPortState_frame]
@[simp] theorem State.setPortState_work (s : State) (n v : Nat) : (s.setPortState n v).work = s.work := by rw [State.setPortState_frame]
@[simp] theorem State.setPortState_workSeq (s : State) (n v : Nat) : (s.setPortState n v).workSeq = s.workSeq := by rw [State.setPortState_frame]
@[simp] theorem State.setPortState_workAt (s : State) (n v : Nat) : (s.setPortState n v).workAt = s.workAt := by rw [State.setPortState_frame]
@[simp] theorem State.setPortState_statusAt (s : State) (n v : Nat) : (s.setPortState n v).statusAt = s.statusAt := by rw [State.setPortState_frame]
@[simp] theorem State.setPortState_fresh (s : State) (n v : Nat) : (s.setPortState n v).fresh = s.fresh := by rw [State.setPortState_frame]
@[simp] theorem State.setPortState_out (s : State) (n v : Nat) : (s.setPortState n v).out = s.out := by rw [State.setPortState_frame]
@[simp] theorem State.setPortState_pending (s : State) (n v : Nat) : (s.setPortState n v).pending = s.pending := by rw [State.setPortState_frame]
@[simp] theorem State.setPortState_read_dget (s : State) (n v : Nat) (j : Nat) : (s.setPortState n v).dget j = s.dget j := by rw [State.setPortState_frame]; rfl
@[simp] theorem State.setPortState_read_port (s : State) (n v : Nat) (j : Nat) : (s.setPortState n v).port j = s.port j := by rw [State.setPortState_frame]; rfl
@[simp] theorem State.setPortState_read_part (s : State) (n v : Nat) (j : Nat) : (s.setPortState n v).part j = s.part j := by rw [State.setPortState_frame]; rfl
@[simp] theorem State.setPortState_read_net (s : State) (n v : Nat) (j : Nat) : (s.setPortState n v).net j = s.net j := by rw [State.setPortState_frame]; rfl
@[simp] theorem State.setPortState_read_now (s : State) (n v : Nat)  : (s.setPortState n v).now = s.now := by rw [State.setPortState_frame]; rfl
@[simp] theorem State.setPortState_read_cmd (s : State) (n v : Nat) (j : Nat) : (s.setPortState n v).cmd? j = s.cmd? j := by rw [State.setPortState_frame]; rfl
@[simp] theorem State.setPortState_read_vault (s : State) (n v : Nat) (j : Nat) : (s.setPortState n v).vault j = s.vault j := by rw [State.setPortState_frame]; rfl
@[simp] theorem State.setPortState_read_stand (s : State) (n v : Nat) (j : Nat) : (s.setPortState n v).stand j = s.stand j := by rw [State.setPortState_frame]; rfl
@[simp] theorem State.setPortState_read_byte (s : State) (n v : Nat) (j : Nat) : (s.setPortState n v).byte j = s.byte j := by rw [State.setPortState_frame]; rfl

/-! ### cage -/

/-- All that cage changes. -/
theorem State.cage_frame (s : State) (n : Nat) (r l : Bool) :
    s.cage n r l = { s with nets := (s.cage n r l).nets, out := (s.cage n r l).out } := by
  rfl

@[simp] theorem State.cage_ticks (s : State) (n : Nat) (r l : Bool) : (s.cage n r l).ticks = s.ticks := by rw [State.cage_frame]
@[simp] theorem State.cage_od (s : State) (n : Nat) (r l : Bool) : (s.cage n r l).od = s.od := by rw [State.cage_frame]
@[simp] theorem State.cage_dom (s : State) (n : Nat) (r l : Bool) : (s.cage n r l).dom = s.dom := by rw [State.cage_frame]
@[simp] theorem State.cage_div (s : State) (n : Nat) (r l : Bool) : (s.cage n r l).div = s.div := by rw [State.cage_frame]
@[simp] theorem State.cage_mem (s : State) (n : Nat) (r l : Bool) : (s.cage n r l).mem = s.mem := by rw [State.cage_frame]
@[simp] theorem State.cage_flips (s : State) (n : Nat) (r l : Bool) : (s.cage n r l).flips = s.flips := by rw [State.cage_frame]
@[simp] theorem State.cage_lbuf (s : State) (n : Nat) (r l : Bool) : (s.cage n r l).lbuf = s.lbuf := by rw [State.cage_frame]
@[simp] theorem State.cage_sram (s : State) (n : Nat) (r l : Bool) : (s.cage n r l).sram = s.sram := by rw [State.cage_frame]
@[simp] theorem State.cage_vaults (s : State) (n : Nat) (r l : Bool) : (s.cage n r l).vaults = s.vaults := by rw [State.cage_frame]
@[simp] theorem State.cage_stands (s : State) (n : Nat) (r l : Bool) : (s.cage n r l).stands = s.stands := by rw [State.cage_frame]
@[simp] theorem State.cage_repairs (s : State) (n : Nat) (r l : Bool) : (s.cage n r l).repairs = s.repairs := by rw [State.cage_frame]
@[simp] theorem State.cage_repairPass (s : State) (n : Nat) (r l : Bool) : (s.cage n r l).repairPass = s.repairPass := by rw [State.cage_frame]
@[simp] theorem State.cage_repairQueue (s : State) (n : Nat) (r l : Bool) : (s.cage n r l).repairQueue = s.repairQueue := by rw [State.cage_frame]
@[simp] theorem State.cage_errLog (s : State) (n : Nat) (r l : Bool) : (s.cage n r l).errLog = s.errLog := by rw [State.cage_frame]
@[simp] theorem State.cage_wipes (s : State) (n : Nat) (r l : Bool) : (s.cage n r l).wipes = s.wipes := by rw [State.cage_frame]
@[simp] theorem State.cage_ports (s : State) (n : Nat) (r l : Bool) : (s.cage n r l).ports = s.ports := by rw [State.cage_frame]
@[simp] theorem State.cage_cmds (s : State) (n : Nat) (r l : Bool) : (s.cage n r l).cmds = s.cmds := by rw [State.cage_frame]
@[simp] theorem State.cage_nextId (s : State) (n : Nat) (r l : Bool) : (s.cage n r l).nextId = s.nextId := by rw [State.cage_frame]
@[simp] theorem State.cage_parts (s : State) (n : Nat) (r l : Bool) : (s.cage n r l).parts = s.parts := by rw [State.cage_frame]
@[simp] theorem State.cage_rltReqs (s : State) (n : Nat) (r l : Bool) : (s.cage n r l).rltReqs = s.rltReqs := by rw [State.cage_frame]
@[simp] theorem State.cage_nextReq (s : State) (n : Nat) (r l : Bool) : (s.cage n r l).nextReq = s.nextReq := by rw [State.cage_frame]
@[simp] theorem State.cage_cores (s : State) (n : Nat) (r l : Bool) : (s.cage n r l).cores = s.cores := by rw [State.cage_frame]
@[simp] theorem State.cage_prefetched (s : State) (n : Nat) (r l : Bool) : (s.cage n r l).prefetched = s.prefetched := by rw [State.cage_frame]
@[simp] theorem State.cage_nextBorn (s : State) (n : Nat) (r l : Bool) : (s.cage n r l).nextBorn = s.nextBorn := by rw [State.cage_frame]
@[simp] theorem State.cage_engines (s : State) (n : Nat) (r l : Bool) : (s.cage n r l).engines = s.engines := by rw [State.cage_frame]
@[simp] theorem State.cage_laneHeads (s : State) (n : Nat) (r l : Bool) : (s.cage n r l).laneHeads = s.laneHeads := by rw [State.cage_frame]
@[simp] theorem State.cage_down (s : State) (n : Nat) (r l : Bool) : (s.cage n r l).down = s.down := by rw [State.cage_frame]
@[simp] theorem State.cage_lanes (s : State) (n : Nat) (r l : Bool) : (s.cage n r l).lanes = s.lanes := by rw [State.cage_frame]
@[simp] theorem State.cage_freed (s : State) (n : Nat) (r l : Bool) : (s.cage n r l).freed = s.freed := by rw [State.cage_frame]
@[simp] theorem State.cage_klib (s : State) (n : Nat) (r l : Bool) : (s.cage n r l).klib = s.klib := by rw [State.cage_frame]
@[simp] theorem State.cage_regions (s : State) (n : Nat) (r l : Bool) : (s.cage n r l).regions = s.regions := by rw [State.cage_frame]
@[simp] theorem State.cage_mgmt (s : State) (n : Nat) (r l : Bool) : (s.cage n r l).mgmt = s.mgmt := by rw [State.cage_frame]
@[simp] theorem State.cage_nv (s : State) (n : Nat) (r l : Bool) : (s.cage n r l).nv = s.nv := by rw [State.cage_frame]
@[simp] theorem State.cage_boot (s : State) (n : Nat) (r l : Bool) : (s.cage n r l).boot = s.boot := by rw [State.cage_frame]
@[simp] theorem State.cage_resets (s : State) (n : Nat) (r l : Bool) : (s.cage n r l).resets = s.resets := by rw [State.cage_frame]
@[simp] theorem State.cage_blockResets (s : State) (n : Nat) (r l : Bool) : (s.cage n r l).blockResets = s.blockResets := by rw [State.cage_frame]
@[simp] theorem State.cage_clk (s : State) (n : Nat) (r l : Bool) : (s.cage n r l).clk = s.clk := by rw [State.cage_frame]
@[simp] theorem State.cage_pwr (s : State) (n : Nat) (r l : Bool) : (s.cage n r l).pwr = s.pwr := by rw [State.cage_frame]
@[simp] theorem State.cage_scl (s : State) (n : Nat) (r l : Bool) : (s.cage n r l).scl = s.scl := by rw [State.cage_frame]
@[simp] theorem State.cage_mirror (s : State) (n : Nat) (r l : Bool) : (s.cage n r l).mirror = s.mirror := by rw [State.cage_frame]
@[simp] theorem State.cage_work (s : State) (n : Nat) (r l : Bool) : (s.cage n r l).work = s.work := by rw [State.cage_frame]
@[simp] theorem State.cage_workSeq (s : State) (n : Nat) (r l : Bool) : (s.cage n r l).workSeq = s.workSeq := by rw [State.cage_frame]
@[simp] theorem State.cage_workAt (s : State) (n : Nat) (r l : Bool) : (s.cage n r l).workAt = s.workAt := by rw [State.cage_frame]
@[simp] theorem State.cage_statusAt (s : State) (n : Nat) (r l : Bool) : (s.cage n r l).statusAt = s.statusAt := by rw [State.cage_frame]
@[simp] theorem State.cage_fresh (s : State) (n : Nat) (r l : Bool) : (s.cage n r l).fresh = s.fresh := by rw [State.cage_frame]
@[simp] theorem State.cage_pending (s : State) (n : Nat) (r l : Bool) : (s.cage n r l).pending = s.pending := by rw [State.cage_frame]
@[simp] theorem State.cage_read_get (s : State) (n : Nat) (r l : Bool) (j : Nat) : (s.cage n r l).get j = s.get j := by rw [State.cage_frame]; rfl
@[simp] theorem State.cage_read_dget (s : State) (n : Nat) (r l : Bool) (j : Nat) : (s.cage n r l).dget j = s.dget j := by rw [State.cage_frame]; rfl
@[simp] theorem State.cage_read_port (s : State) (n : Nat) (r l : Bool) (j : Nat) : (s.cage n r l).port j = s.port j := by rw [State.cage_frame]; rfl
@[simp] theorem State.cage_read_part (s : State) (n : Nat) (r l : Bool) (j : Nat) : (s.cage n r l).part j = s.part j := by rw [State.cage_frame]; rfl
@[simp] theorem State.cage_read_now (s : State) (n : Nat) (r l : Bool)  : (s.cage n r l).now = s.now := by rw [State.cage_frame]; rfl
@[simp] theorem State.cage_read_cmd (s : State) (n : Nat) (r l : Bool) (j : Nat) : (s.cage n r l).cmd? j = s.cmd? j := by rw [State.cage_frame]; rfl
@[simp] theorem State.cage_read_vault (s : State) (n : Nat) (r l : Bool) (j : Nat) : (s.cage n r l).vault j = s.vault j := by rw [State.cage_frame]; rfl
@[simp] theorem State.cage_read_stand (s : State) (n : Nat) (r l : Bool) (j : Nat) : (s.cage n r l).stand j = s.stand j := by rw [State.cage_frame]; rfl
@[simp] theorem State.cage_read_byte (s : State) (n : Nat) (r l : Bool) (j : Nat) : (s.cage n r l).byte j = s.byte j := by rw [State.cage_frame]; rfl

end Sys2Proof.Machine
end

