-- ==== Sys2Proof/Laws/Reads.lean ====
section
/-!
SUPPORT. What a ring, a flow, a command and a bit read as after they are written.
-/
namespace Sys2Proof.Machine

@[simp] theorem State.cmdRing_setRing (s : State) (p r : Nat) (x : CmdRing) : ((s.setRing p r x).port p).cmdRing r = x := by
  simp [State.setRing, HostPort.cmdRing, lookD]

@[simp] theorem State.cplRing_setCpl (s : State) (p r : Nat) (x : CplRing) : ((s.setCpl p r x).port p).cplRing r = x := by
  simp [State.setCpl, HostPort.cplRing, lookD]

@[simp] theorem State.flow_setFlow (s : State) (p f : Nat) (x : Flow) : (s.setFlow p f x).flow? p f = some x := by
  simp [State.setFlow, State.flow?]

@[simp] theorem State.setPart_setPart (s : State) (p : Nat) (x y : Part) : (s.setPart p x).setPart p y = s.setPart p y := by
  unfold State.setPart
  split <;> rfl

theorem State.flow_of_parts {s t : State} (h : t.parts = s.parts) (p f : Nat) : t.flow? p f = s.flow? p f := by
  unfold State.flow? State.part
  rw [h]

@[simp] theorem State.flow_unblock (s : State) (p f q g : Nat) : (s.unblock p f q).flow? p g = s.flow? p g := by
  unfold State.unblock
  split
  · simp [State.flow?]
  · rfl

@[simp] theorem State.flow_crossLink (s : State) (k : UnitKind) (u f q p g : Nat) :
    (s.crossLink k u f q).flow? p g = s.flow? p g := by
  unfold State.crossLink
  split <;> rfl

@[simp] theorem State.flow_flowGauges (s : State) (p q f : Nat) : (s.flowGauges p).flow? q f = s.flow? q f := rfl

/-- A read that meets no stored error changes nothing. -/
theorem State.vaultRead_clean {s : State} {da n : Nat} (source : Nat) (h : s.flipped da n = []) :
    (s.vaultRead source da n).2 = s ∧ (s.vaultRead source da n).1.isSome = true := by
  unfold State.vaultRead
  rw [h]
  exact ⟨rfl, rfl⟩

theorem State.flipped_nil {s : State} (h : s.flips = []) (da n : Nat) : s.flipped da n = [] := by
  unfold State.flipped
  rw [h]
  rfl

/-- A read of on-die memory with no stored error changes nothing. -/
theorem State.sramRead_clean {s : State} (h : s.sram = []) (unit part a n : Nat) : s.sramRead unit part a n = (true, s) := by
  unfold State.sramRead
  rw [h]
  rfl

theorem State.stand_setHot (s : State) (n : Nat) (b : Bool) : (s.setHot n b).stand n = { s.stand n with hot := b } := by
  unfold State.setHot
  split
  · rename_i h
    rw [← h]
  · simp

theorem State.stand_setHot_ne (s : State) {n m : Nat} (b : Bool) (h : m ≠ n) : (s.setHot n b).stand m = s.stand m := by
  unfold State.setHot
  split
  · rfl
  · simp [State.stand_setStand_ne _ _ h]

@[simp] theorem State.get_setPortState (s : State) (n v : Nat) : (s.setPortState n v).get (at_ Ob.PORT_STATE n) = v := by
  unfold State.setPortState
  split
  · assumption
  · simp

theorem State.get_setPortState_ne (s : State) {j n : Nat} (v : Nat) (h : j ≠ at_ Ob.PORT_STATE n) :
    (s.setPortState n v).get j = s.get j := by
  unfold State.setPortState
  split
  · rfl
  · simp [State.get_put_ne _ _ h]

/-- Writes to a module's memory only add to what has left. -/
theorem State.foldl_emit_frame {α : Type} (g : α → Output) (l : List α) (s : State) :
    l.foldl (fun (t : State) x => t.emit (g x)) s = { s with out := (l.map g).reverse ++ s.out } := by
  induction l generalizing s with
  | nil => rfl
  | cons x l ih =>
    simp only [List.foldl_cons]
    rw [ih]
    simp [State.emit]

theorem State.cmd_setCmd {s : State} {c d : Cmd} (h : s.cmd? c.id = some d) : (s.setCmd c).cmd? c.id = some c := by
  unfold State.cmd? State.setCmd at *
  induction hl : s.cmds generalizing s with
  | nil => simp [hl] at h
  | cons x l ih =>
    rw [hl] at h
    by_cases hx : x.id = c.id
    · simp [hx]
    · have h' : l.find? (fun y => y.id == c.id) = some d := by simpa [hx] using h
      simpa [hx] using ih (s := { s with cmds := l }) h' rfl

/-- A bit that is set reads as set. -/
theorem bitOf_setBit (v i : Nat) (b : Bool) : bitOf (setBit v i b) i = b := by
  have hp : 0 < 2 ^ i := Nat.two_pow_pos i
  unfold setBit
  by_cases h : bitOf v i = b
  · rw [if_pos h, h]
  · rw [if_neg h]
    cases b
    · have h1 : v / 2 ^ i % 2 = 1 := by simpa [bitOf] using h
      have h2 : (v - 2 ^ i) / 2 ^ i = v / 2 ^ i - 1 := by
        have := Nat.sub_mul_div v (2 ^ i) 1
        simpa using this
      simp only [Bool.false_eq_true, if_false, bitOf, h2]
      simp
      omega
    · have h1 : v / 2 ^ i % 2 ≠ 1 := by simpa [bitOf] using h
      simp only [if_true, bitOf, Nat.add_div_right v hp]
      simp
      omega

end Sys2Proof.Machine
end

