-- ==== Sys2Proof/Tests/Slice0.lean ====
section
/-!
SUPPORT. Tests: ill-formed commands are refused, every hypothesis of a statement has a witness, and values that the spec
states come out of the model.
-/
namespace Sys2Proof.Tests

set_option Elab.async false

open Sys2Proof Sys2Proof.Machine

/-- A host port whose link is up, with one command ring and one completion ring in use. -/
def livePort : HostPort :=
  { HostPort.reset with
    retry := false, linkUp := true, bme := true
    cmdRings := [(0, { base := 0x10000, sizeLog2 := 4, cq := 0, enable := true, latFetch := false, error := false, head := 0,
                       fetched := 0, tail := 2, fence := none, stalled := none })]
    cplRings := [(0, { base := 0x20000, sizeLog2 := 8, enable := true, error := false, phase := true, timerEn := true, vector := 0,
                       modCount := 1, modTicks := 4, tail := 0, head := 0, held := [], since := 0, oldest := none,
                       written := 0, consumed := 0 })] }

/-- A module that has booted, with both partitions of ten stands out of reset. -/
def live : State :=
  { State.reset with
    ticks := { Ticks.reset with count := 8000000, admitting := true }
    div := { Division.none with split := 10, me := 4, rd := 16, pe := 8, chipD := 4, chipC := 2, flows := 32, lat := 8,
                                lbuf := 1024, net0 := 0, net1 := 1 }
    ports := #v[livePort, livePort]
    parts := #v[{ Part.reset with resetting := false }, { Part.reset with resetting := false }]
    nv := { Nv.reset with lc := 2, committed := true }
    boot := { Boot.reset with mode := .running, released := true }
    resets := []
    clk := { Clocks.reset with xoOk := true, ioscOk := true, refXo := true }
    scl := { Scaler.reset with powered := true } }

/-- A write access comes to its object, with these rights, bytes and state. -/
def goes (a : Arrival) (f : Writer → Bytes → State → Bool) : Bool :=
  match a with
  | .go w v t => f w v t
  | .dealt _ => false

/-- A message is carried out, with these rights and fields and in this state. -/
def served (i : Intake) (f : Writer → Bop → State → Bool) : Bool :=
  match i with
  | .go w x t => f w x t
  | .dealt _ => false

/-- A request of port M without a session, from a link-local address. -/
def req (op : Nat) (payload : Bytes) : BopMsg :=
  .m (0xFE80 * 2 ^ 112 + 1) 50411 false (buildBop 1 op 0 0 1 0 [] payload)

/-- A WRITE of `n` bytes holding `v` to the object of a key. -/
def wr (k n v : Nat) : Access :=
  .bop (req 0x11 (leBytes 2 (k / 256) ++ leBytes 1 (k % 256) ++ [0] ++ leBytes 4 n ++ leBytes n v))

/-- A fetched command of partition 0 on ring 0 of PA, number 1, with its entry's fields above bit 64. -/
def cmdOf (op : Nat) (stage : Stage) (body : Nat) : Cmd :=
  { id := 1, port := 0, ring := 0, cq := 0, part := 0, opcode := op, signal := false, tag := 7, flow := 4096,
    entry := BitVec.ofNat 512 (body * 2 ^ 64 + op), ext := [], order := 1, stage := stage, tick := 0, late := false,
    inBound := false, waits := [], waited := 0, version := 0, peers := [], flush := [], left := 0, refused := 0, readN := 0,
    status := .ok, cut := false, regions := [], dict := none }

/-- The booted module with one outstanding command. -/
def withCmd (op : Nat) (stage : Stage) (body : Nat) : State := { live with cmds := [cmdOf op stage body] }

/-- The outcome is a next state that satisfies a check. -/
def lands (o : Host.Outcome State Fault Refusal) (f : State → Bool) : Bool :=
  match o with
  | .next t => f t
  | _ => false

/-- An item of an open flow, dispatched to unit 0 at tick 0. -/
def item0 : Item := { mkItem 0x7FF 0 0 0 0 .ok .raw with seq := 5, unit := 0, begun := true }

/-- An open BULK flow on cores with the kernel of number 1. -/
def flow0 : Flow :=
  { mode := .unordered, cls := .bulk, prio := 3, owner := 0, resident := true, store := 0, hold := false,
    closing := false, failed := false, standMask := 0x3FF, prefetch := 0, kernel := 1, destFlow := 0, destKind := 0, destRing := 0, nextSeq := 6, releaseSeq := 5,
    boomSize := 8, maxInflight := 4, softBudget := 4, hardLimit := 16, lastTick := 0, lastUse := 0, done := 0, drops := 0,
    user := 0, queued := [], running := [], slow := [], held := [] }

/-- The booted module with flow 4096 open as given, running a kernel. -/
def withFlow (k : Kernel) (x : Flow) : State := { live with klib := [(1, k)] }.setFlow 0 4096 x

/-- A command that runs as the item of flow 4096 on unit 0 of its kernel's kind. -/
def atUnit (op : Nat) (k : Kernel) (body : Nat) : State :=
  { (withFlow k { flow0 with running := [{ item0 with work := .cmd 1 }] }).place 0 k.kind 0 4096 5 with
    cmds := [cmdOf op .running body] }

/-- A table of 8-wide rows with version 1 current and empty. -/
def version0 : Version := { number := 1, state := .current, since := 0, base := 0, dirs := [] }
def table0 : Table :=
  { id := 7, dim := 8, opt := 0, g0fmt := 0, firstGrade := 0, coarsest := 2, initMode := 0, seed := 1, initSeed := 0,
    initScale := 0, maxRows := 1000, areaMib := 1
    policy := { popShift := 4, hyst := 64, migBatch := 2, regradePrio := 5, windowTicks := 100, thG0 := 0xFFFF, thG1 := 0xFFFF,
                thReady := 0xFFFF, readyLimit := 0 }
    nextPolicy := none, windows := 0, windowStart := 0, closeNow := false, closeLate := false
    versions := [version0], nextVersion := 2, switch := none, drop := none, dropped := false }

/-- The booted module with a table. -/
def tabled (t : Table) : State := live.setTable 0 t

/-! ### Commands that do not exist -/

theorem test_illFormed_fetchTurn : (Instr.fetchTurn 0 0 (List.replicate 9 0)).wf = false := by decide +kernel
theorem test_illFormed_doorbells : (Instr.tailDoorbell 0 0 (2 ^ 32)).wf = false ∧ (Instr.headDoorbell 0 0 (2 ^ 32)).wf = false ∧
    (Instr.mboxGo 0 (2 ^ 32)).wf = false := by decide +kernel
theorem test_illFormed_registers : (Instr.bar0Write 0 0x01C 4 (2 ^ 32)).wf = false ∧
    (Instr.commandRingTableWrite 0 0x4000 4 (2 ^ 32)).wf = false ∧
    (Instr.completionRingTableWrite 0 0x6000 4 (2 ^ 32)).wf = false := by decide +kernel
theorem test_illFormed_links : (Instr.hostLinkUp 0 0 8).wf = false ∧ (Instr.hostLinkUp 0 7 8).wf = false ∧
    (Instr.hostLinkUp 0 6 3).wf = false ∧ (Instr.linkUp 0 16).wf = false := by decide +kernel
theorem test_illFormed_readings : (Instr.temperatureReading 0 [1, 2, 3, 4, 5]).wf = false ∧
    (Instr.temperatureReading 0 [256]).wf = false ∧ (Instr.thermTrip 41 100).wf = false ∧ (Instr.porRelease 1024).wf = false :=
  by decide +kernel
theorem test_illFormed_numbers : (Instr.wake 4).wf = false ∧ (Instr.laneFrameEnd 8).wf = false ∧
    (Instr.event 14 0 0).wf = false ∧ (Instr.serviceWrite (2 ^ 16) 0 []).wf = false ∧ (Instr.serviceRead 0 (2 ^ 8) 0 0).wf = false :=
  by decide +kernel

/-! ### The queue and the invariants -/

/-- The booted module with a tick edge waiting. -/
def queued : State := { live with pending := [.tickEdge, .jtag] }

theorem test_EmptyQueueIdles : live.pending = [] := by decide +kernel
theorem test_WellFormedCommandsComplete : (Instr.hostLinkUp 0 6 8).wf = true ∧ 8 < (List.replicate 9 (0 : Entry)).length := by decide +kernel
theorem test_StepKeepsMemoryCanonical : live.Canon := ⟨by decide +kernel, by decide +kernel⟩
theorem test_queued_steps : lands (step queued) (fun t => t.pending = [.jtag] && t.now = 8000001) = true := by decide +kernel
theorem test_ScalerStandsApart : Instr.tickEdge.ofScaler = false ∧ lands (exec .tickEdge live) (fun _ => true) = true := by decide +kernel
theorem test_OthersLeaveMemoryAlone : Instr.tickEdge.mayStore = false := by decide +kernel
theorem test_AcceptedRequestsTouchOnlyTheirSession :
    served (live.intake (req 0x01 []) (· = 0x01)) (fun _ x _ => x.op = 1) = true ∧
    goes (live.arrive (wr Ob.LAT_SHARE 1 50) (isKey Ob.LAT_SHARE)) (fun _ v _ => v = [50]) = true := by decide +kernel

/-! ### Host ports -/

theorem test_NopAndFence_nop : (withCmd 1 .fetched 0).cmd? 1 = some (cmdOf 1 .fetched 0) ∧ (cmdOf 1 .fetched 0).opcode = 1 ∧
    (cmdOf 1 .fetched 0).f 511 64 = 0 := by decide +kernel
theorem test_NopAndFence_fence : (withCmd 2 .fetched 2).cmd? 1 = some (cmdOf 2 .fetched 2) ∧ (cmdOf 2 .fetched 2).opcode = 2 ∧
    (cmdOf 2 .fetched 2).f 65 64 ≠ 3 ∧ (cmdOf 2 .fetched 2).f 511 66 = 0 := by decide +kernel
theorem test_DoorbellsMoveTheirRings_tail : ((live.port 0).cmdRing 0).enable = true ∧ ((live.port 0).cmdRing 0).error = false ∧
    15 < 2 ^ ((live.port 0).cmdRing 0).sizeLog2 ∧ 2 ^ ((live.port 0).cmdRing 0).sizeLog2 ≤ 16 ∧
    ((live.port 0).cmdRing 1).enable = false := by decide +kernel
theorem test_DoorbellsMoveTheirRings_head : ((live.port 0).cplRing 0).enable = true ∧ ((live.port 0).cplRing 0).held = [] ∧
    255 < 2 ^ ((live.port 0).cplRing 0).sizeLog2 := by decide +kernel
theorem test_PortRegistersTakeTheirWrites_offsets : barAccess 0x4000 8 = true ∧ barAccess 0x5FFC 4 = true ∧ barAccess 0x6000 8 = true ∧
    barAccess 0x7FFC 4 = true := by decide +kernel
theorem test_PortRegistersTakeTheirWrites_cmdRing : ((live.port 0).cmdRing 1).enable = false ∧
    ((live.port 0).cmdRing 1).error = false ∧ ((live.port 0).cmdRing 1).base % 4096 = 0 ∧ bitOf (2 ^ 16 + 16) 16 = true ∧
    bitsOf (2 ^ 16 + 4) 7 0 = 4 ∧ bitsOf (2 ^ 16 + 16) 7 0 = 16 ∧
    ((live.port 0).cplRing (bitsOf (2 ^ 16 + 16) 15 8)).enable = true := by decide +kernel
theorem test_PortRegistersTakeTheirWrites_cplRing : ((live.port 0).cplRing 1).enable = false ∧
    ((live.port 0).cplRing 1).error = false ∧ ((live.port 0).cplRing 1).base % 4096 = 0 ∧
    ((live.port 0).cplRing 1).modCount ≤ 4096 ∧ bitOf (2 ^ 8 + 8) 8 = true ∧ bitOf (2 ^ 8 + 16) 10 = false ∧
    bitsOf (2 ^ 8 + 8) 7 0 = 8 ∧ bitsOf (2 ^ 8 + 16) 7 0 = 16 := by decide +kernel
theorem test_PortRegistersTakeTheirWrites_mailbox : (live.port 0).mboxBusy = false ∧ bitOf 1 0 = true := by decide +kernel
theorem test_FetchingAndItsFaults_turn : [(0 : Entry)].length ≤ 8 ∧ live.mayFetch 0 = true ∧ (live.port 0).turn = some 0 ∧
    ((live.port 0).cmdRing 0).latFetch = false ∧ bitsOf (1 : Entry).toNat 7 0 ≠ 0x28 ∧ live.outstanding 0 < 4096 ∧
    1 ≤ ((live.port 0).cmdRing 0).pending := by decide +kernel
theorem test_FetchingAndItsFaults_failed : live.mayFetch 0 = true ∧ ((live.port 0).cmdRing 0).fetchable = true := by decide +kernel

/-- PIPE_LOAD of 4,096 bytes at host address 2^20. -/
def loading : State := withCmd 0x10 .fetched (2 ^ 20 + 4096 * 2 ^ 64)

theorem test_FetchingAndItsFaults_dma : loading.control 1 0x10 = some (cmdOf 0x10 .fetched (2 ^ 20 + 4096 * 2 ^ 64)) ∧
    inRange ((cmdOf 0x10 .fetched (2 ^ 20 + 4096 * 2 ^ 64)).f 127 64, (cmdOf 0x10 .fetched (2 ^ 20 + 4096 * 2 ^ 64)).f 159 128)
      (2 ^ 20 + 4095) = true ∧
    (cmdOf 0x10 .fetched (2 ^ 20 + 4096 * 2 ^ 64)).hostRanges = [(false, 2 ^ 20, 4096)] ∧
    loading.loadEarly (cmdOf 0x10 .fetched (2 ^ 20 + 4096 * 2 ^ 64)) = .ok := by decide +kernel

/-- The booted module with an unsignalled completion since tick `t` on ring 0 of PA. -/
def unsignalled (t : Nat) : State := live.setCpl 0 0 { (live.port 0).cplRing 0 with oldest := some t }

theorem test_PortEventsHaveTheirEffect_moderation : (((unsignalled 7999996).port 0).cplRing 0).oldest = some 7999996 ∧
    (((unsignalled 7999996).port 0).cplRing 0).enable = true ∧ (((unsignalled 7999996).port 0).cplRing 0).timerEn = true ∧
    (((unsignalled 7999996).port 0).cplRing 0).modTicks ≤ (unsignalled 7999996).since 7999996 := by decide +kernel
theorem test_PortEventsHaveTheirEffect_vector : ((live.setPort 0 { livePort with
    msixEnable := true, msixMask := false, msixTable := [(3, 0)] }).port 0).canSend 0 = true := by
  decide +kernel
theorem test_PortEventsHaveTheirEffect_busMaster : (State.reset.port 0).waiting = [] ∧ (State.reset.port 0).cplRings = [] ∧
    (State.reset.port 0).msixPending = [] := by decide +kernel
theorem test_PortEventsHaveTheirEffect_config : (live.port 0).linkUp = true ∧ (live.port 0).retry = false ∧
    ((live.setPort 0 { livePort with retry := true }).port 0).linkUp = true ∧
    ((live.setPort 0 { livePort with retry := true }).port 0).retry = true := by decide +kernel

/-- The booted module with the link of PA down. -/
def linkless : State := live.setPort 0 { livePort with linkUp := false }

theorem test_PortEventsHaveTheirEffect_link : (linkless.port 0).perst = false ∧ linkless.boot.released = true ∧
    linkless.clk.asleep = false ∧ (linkless.port 0).linkUp = false ∧ [1, 2, 4, 8].contains 8 = true := by decide +kernel
theorem test_PortResetsFollowTheirTable : (live.port 0).perst = false ∧ (live.port 0).linkUp = true ∧
    ((live.setPort 0 { livePort with perst := true }).port 0).perst = true := by decide +kernel
/-! ### Flows -/

/-- FLOW_OPEN of flow 4096: BULK, unordered, all stands of P0, one item in flight, no destination. -/
def openImage : Nat := 1023 * 2 ^ 16 + 2 ^ 40 + 2 ^ 173

theorem test_FlowsOpenAndClose_write : goes (live.arrive (wr Ob.FLOW_OPEN 68 (4096 + openImage * 2 ^ 32)) (isKey Ob.FLOW_OPEN))
    (fun w v t => t.div.flowPart (leAt v 0 4) = 0 && t.openCheck w.owner w.part v = .ok && t.canRefill 0) = true := by decide +kernel
theorem test_FlowsOpenAndClose_image : leAt (leBytes 4 4096 ++ leBytes 64 openImage) 0 4 = 4096 ∧
    leNat (sliceB (leBytes 4 4096 ++ leBytes 64 openImage) 4 64) = openImage ∧ ctxField openImage 4 3 ≠ 2 ∧
    live.ctxForm (live.div.flowPart 4096) 4096 openImage = true ∧ ctxModes openImage = true ∧
    live.flow? (live.div.flowPart 4096) 4096 = none ∧ 4096 < 262144 ∧ ∀ e ∈ (live.part 0).waits, e.1 ≠ 4096 := by decide +kernel
theorem test_FlowsOpenAndClose_close : goes ((withFlow .operator flow0).arrive (wr Ob.FLOW_CLOSE 4 4096) (isKey Ob.FLOW_CLOSE))
    (fun w v t => w.isHost = false && t.div.flowPart (leNat v) = 0 && (t.flow? 0 (leNat v)).isSome &&
      (t.touch 0 (leNat v)).any fun u => (u.flow? 0 (leNat v)).any fun x => x.closing = false && x.queued = []) = true := by decide +kernel
theorem test_FlowsOpenAndClose_drained : (withFlow .operator { flow0 with closing := true }).flow? 0 4096 =
    some { flow0 with closing := true } ∧ ({ flow0 with closing := true } : Flow).isDrained = true := by decide +kernel
/-- A flow whose context lies in the yard. -/
def unloaded : State := withFlow .operator { flow0 with resident := false }

theorem test_ContextsAndItemsRefill_context : unloaded.div.flowPart 4096 = 0 ∧ (∀ e ∈ (unloaded.part 0).waits, e.1 ≠ 4096) ∧
    unloaded.flow? 0 4096 = some { flow0 with resident := false } ∧
    ((unloaded.part 0).flows.filter (·.2.resident)).length < unloaded.div.residentMax 0 := by decide +kernel
theorem test_ContextsAndItemsRefill_home : (unloaded.free.2.vaultRead srcBulk (unloaded.free.2.div.homeAddr 0 4096) 64).1.isSome = true :=
  (State.vaultRead_clean srcBulk (State.flipped_nil rfl _ _)).2

/-- A flow whose queue lies in the yard. -/
def spilled : Flow := { flow0 with queued := [{ item0 with place := .yard }] }

theorem test_ContextsAndItemsRefill_items : (withFlow .operator spilled).flow? ((withFlow .operator spilled).div.flowPart 4096)
    4096 = some spilled ∧ (spilled.queued.filter (·.place == .pool)).length < 32 ∧
    spilled.queued.any (·.place == .yard) = true ∧
    spilled.queued.find? (·.seq == 5) = some { item0 with place := .yard } := by decide +kernel
theorem test_ContextsAndItemsRefill_entry : ((withFlow .operator spilled).readEntry 0 { item0 with place := .yard }).1 = true :=
  (State.vaultRead_clean (s := withFlow .operator spilled)
    (da := (withFlow .operator spilled).div.spillEntry 0 item0.entry) (n := 32) srcBulk (State.flipped_nil rfl _ _)).2

/-- The module with a bolt's enqueue to flow 4096 stalled. -/
def stalled : State := (withFlow .operator flow0).setPart 0
  { (withFlow .operator flow0).part 0 with stalled := [(4096, item0)] }

theorem test_ContextsAndItemsRefill_stalled : (stalled.part 0).stalled = [(4096, item0)] ∧
    (withFlow .operator flow0).flow? 0 4096 = some flow0 := by decide +kernel
theorem test_ContextsAndItemsRefill_enqueue : ((withFlow .operator flow0).flow? 0 4096 = some flow0 ∧ flow0.closing = false) ∧
    ((withFlow .operator flow0).touch 0 4096).any (fun t => (t.flow? 0 4096).any fun y =>
      y.closing = false && t.placeFor 0 y = some .pool) = true := by decide +kernel
theorem test_ContextsAndItemsRefill_goesIn : ((stalled.setPart 0 { stalled.part 0 with stalled := [] }).enqueueNow 0 4096 item0).1 =
    some .ok := by decide +kernel

/-- A flow with one queued item. -/
def offering : Flow := { flow0 with queued := [item0] }

theorem test_DispatchIssuesTheOfferedItem_dispatch : (withFlow .operator offering).div.flowPart 4096 = 0 ∧
    (withFlow .operator offering).flow? 0 4096 = some offering ∧ (withFlow .operator offering).kernelOf offering = some .operator ∧
    (withFlow .operator offering).offer 0 offering .core = some item0 ∧ item0.stopped = false ∧
    (withFlow .operator offering).fits 0 offering .core item0 0 = true ∧
    (withFlow .operator offering).mayServe 0 .core 0 4096 offering.cls offering.prio = true := by decide +kernel
theorem test_DispatchIssuesTheOfferedItem_reads : ((withFlow .operator offering).touch 0 4096).any (fun t =>
    (t.readEntry 0 item0).1 && (t.flow? 0 4096).any fun y => y.failed = false) = true := by decide +kernel
theorem test_DispatchIssuesTheOfferedItem_slots : ({ item0 with begun := false } : Item).begun = false ∧ live.slots 0 = (.empty, .empty) ∧
    (live.setSlots 0 (.running 7 8, .empty)).slots 0 = (.running 7 8, .empty) ∧ UnitKind.me ≠ .core := by decide +kernel
theorem test_DispatchIssuesTheOfferedItem_strict : (withFlow .operator offering).offer 0 { offering with mode := .strict } .core = some item0 := by decide +kernel

/-- A flow whose item runs on core 0. -/
def running : State := (withFlow .operator { flow0 with running := [item0] }).place 0 .core 0 4096 5

/-- The flow of `running` as its touch leaves it. -/
def runs : Flow := { flow0 with running := [item0] }

theorem test_CompletionReleasesInOrder_item : running.div.flowPart 4096 = 0 ∧ running.flow? 0 4096 = some runs ∧
    (running.completeNow 0 4096 5 runs).isSome = true ∧ (running.touch 0 4096).any (fun t => (t.flow? 0 4096).any fun y =>
      (t.completeNow 0 4096 5 y).isSome) = true := by decide +kernel
theorem test_CompletionReleasesInOrder_unit : runs.failed = false ∧ (∀ y ∈ runs.queued, y.seq ≠ 5) ∧ runs.inFlight? 5 = some item0 ∧
    running.kernelOf runs = some .operator ∧ running.onUnit .core 0 0 4096 5 = true ∧ item0.status = .ok ∧
    running.workServed 0 runs item0 = true ∧ running.nextFlow 0 4096 runs = none ∧ (running.readScratch 0 .operator 0).1 = true := by
  decide +kernel
theorem test_CompletionReleasesInOrder_work : running.itemWork 0 4096 runs .operator item0 = some (item0, running) := rfl
theorem test_CompletionReleasesInOrder_lane (r : LaneRec) : (live.lane 0 0).queue = [] ∧ (live.lane 0 0).hold = none ∧
    live.laneRuns 0 { live.lane 0 0 with queue := [r] } = true := ⟨rfl, rfl, rfl⟩
theorem test_CompletionReleasesInOrder_turn : ({ flow0 with mode := .ordered } : Flow).mode = .ordered ∧
    ({ flow0 with mode := .ordered } : Flow).held = [] ∧ item0.seq = flow0.releaseSeq ∧
    ({ item0 with seq := 6 } : Item).seq ≠ flow0.releaseSeq ∧ (∀ y ∈ flow0.held, y.seq ≠ flow0.releaseSeq) ∧
    flow0.mode = .unordered := by decide +kernel
theorem test_BoltsSlowItemsAndHolds_bolt : (live.setSlots 0 (.running 4096 5, .parked 7 8)).slots 0 = (.running 4096 5, .parked 7 8) ∧
    (live.setSlots 0 (.running 4096 5, .parked 7 8)).alive (.running 4096 5) = false := by decide +kernel

/-- An ordered-release flow whose item has been in flight since tick 0, 4 ticks ago. -/
def aged (t : Nat) : State := { withFlow .operator { flow0 with mode := .ordered, running := [item0] } with
  ticks := { live.ticks with count := 65536 * 4 + t } }

theorem test_BoltsSlowItemsAndHolds_slow : (aged 4).div.flowPart 4096 = 0 ∧ (aged 4).flow? 0 4096 = some { runs with mode := .ordered } ∧
    ({ runs with mode := .ordered } : Flow).running.find? (·.seq == 5) = some item0 ∧
    (aged 4).kernelOf { runs with mode := .ordered } = some .operator ∧ Kernel.operator.kind = .core ∧
    (aged 4).notStarted 0 4096 5 = false ∧ Kernel.matmul.kind ≠ .core ∧
    flow0.softBudget ≤ (aged 4).age item0 ∧ ¬ flow0.softBudget ≤ (aged 3).age item0 := by decide +kernel
theorem test_BoltsSlowItemsAndHolds_late : (runs.queued.filter (·.begun) ++ runs.running ++ runs.slow).find? (·.seq == 5) = some item0 ∧
    flow0.hardLimit ≤ (aged 16).age item0 := by decide +kernel

/-- A flow whose HOLD firmware is to set at this tick. -/
def holding : State := (withFlow .operator flow0).setPart 0
  { (withFlow .operator flow0).part 0 with holds := [(4096, true, live.now)] }

theorem test_BoltsSlowItemsAndHolds_hold : holding.div.flowPart 4096 = 0 ∧
    (holding.part 0).holds.find? (fun e => e.1 == 4096 && decide (holding.since e.2.2 < 2 ^ 47)) = some (4096, true, live.now) ∧
    (holding.touch 0 4096).any (fun t => (t.flow? 0 4096).isSome) = true := by decide +kernel

/-- An image with one graph of one stage, whose stage is a set operator fed by the host. -/
def stage0 : GraphStage := { op := 0, endIn := 0, inFlow := 0, sinkSet := some 0, tagKeys := [], tagSeed := 0 }
def graph0 : Graph := { index := 1, stages := [stage0] }
def image0 : Image :=
  { content := { graphs := [graph0], layouts := [], programs := [], lists := [], decoders := [], automata := [], plans := [] }
    ops := [List.replicate 128 0], flowBase := 4096, nFlows := 1, regionBase := 0, nRegions := 0, sets := [], hash := [],
    bytes := 0, area := 0, areaBase := 0, decBytes := 0, autoBytes := 0, litBytes := 0 }
def run0 : GraphRun := { handle := 0, index := 1, sources := 1, cmd := 1, stages := [{ marks := 1, last := 5, ended := false }] }

/-- The module with that image loaded and its graph running, its one end mark received. -/
def graphed : State := (withFlow .operator flow0).setPart 0
  { (withFlow .operator flow0).part 0 with images := [(0, image0)], runs := [run0] }

theorem test_StagesImagesAndTablesEnd_stage : look (graphed.part 0).images 0 = some image0 ∧
    (graphed.part 0).runs.find? (fun r => r.handle == 0 && r.index == 256 / 256) = some run0 ∧
    image0.content.graphs.find? (fun g => g.index == 256 / 256) = some graph0 ∧ graph0.stages[256 % 256]? = some stage0 ∧
    run0.stages[256 % 256]? = some { marks := 1, last := 5, ended := false } ∧
    graphed.flow? 0 (image0.flowBase + stage0.inFlow) = some flow0 ∧ flow0.clearBefore 5 = true ∧ flow0.hold = false ∧
    (graphed.part 0).runs = [run0] ∧ graphed.marksDue 0 image0 graph0 run0 stage0 ≤ 1 := by decide +kernel
theorem test_StagesImagesAndTablesEnd_sinks : ((graph0.stages.zip [({ marks := 1, last := 5, ended := true } : StageRun)]).filter
    fun y => isSink image0 graph0 y.1).all (·.2.ended) = true := by decide +kernel
theorem test_StagesImagesAndTablesEnd_stop : ((live.setPart 0 { live.part 0 with stop := some (1, 0, true) }).part 0).stop =
      some (1, 0, true) ∧ look ((live.setPart 0 { live.part 0 with stop := some (1, 0, true) }).part 0).images 0 = none ∧
    ((graphed.setPart 0 { graphed.part 0 with stop := some (1, 0, false) }).part 0).stop = some (1, 0, false) ∧
    look ((graphed.setPart 0 { graphed.part 0 with stop := some (1, 0, false) }).part 0).images 0 = some image0 ∧
    (∀ e ∈ ((graphed.setPart 0 { graphed.part 0 with stop := some (1, 0, false) }).part 0).epochs, e.2.handle ≠ 0) := by decide +kernel
theorem test_StagesImagesAndTablesEnd_drop : (tabled { table0 with drop := some 1 }).table? 0 7 = some { table0 with drop := some 1 } := by
  decide +kernel

/-! ### Time -/

theorem test_TickEdgesSharesAndDeadlines_edge : live.clocked = true := by decide +kernel
theorem test_TickEdgesSharesAndDeadlines_share : goes (live.arrive (wr Ob.LAT_SHARE 1 50) (isKey Ob.LAT_SHARE))
    (fun _ v _ => leNat v ≤ 50) = true := by decide +kernel
theorem test_TickEdgesSharesAndDeadlines_apply : ({ live with ticks := { live.ticks with latShare := [(0, 50)] } } : State).ticks.latShare =
    (0, 50) :: [] := by decide +kernel
theorem test_TickEdgesSharesAndDeadlines_late : (cmdOf 0x28 .held 0).stage = .held ∧ (cmdOf 0x28 .held 0).part = 0 := by decide +kernel
/-! ### Vaults and stands -/

/-- The booted module with vault 0 of stand 0 as given. -/
def vaulted (v : Vault) : State := live.setVault 0 v

theorem test_RefreshKeepsItsBooks : live.clocked = true ∧ (vaulted { Vault.reset with owed := 8 }).upkeepRuns 0 = true ∧ vaultNo 0 0 = 0 ∧
    (vaulted { Vault.reset with owed := -1 }).maintRuns 0 2 = true ∧
    8 ≤ ((vaulted { Vault.reset with owed := 8 }).vault 0).owed ∧ -2 < ((vaulted { Vault.reset with owed := -1 }).vault 0).owed ∧
    ((vaulted { Vault.reset with owed := -2 }).vault 0).owed ≤ -2 := by decide +kernel
theorem test_StandsFollowTheirTemperature : [84, 20].foldl max 0 = 84 ∧ [81].foldl max 0 ≤ 81 ∧ 81 < [83].foldl max 0 ∧
    [83].foldl max 0 < 84 ∧ 1024 ≤ live.since (live.stand 0).lastReading := by decide +kernel
theorem test_hot_boundary : lands (exec (.temperatureReading 0 [83, 84]) live) (fun t => (t.stand 0).hot) = true ∧
    lands (exec (.temperatureReading 0 [83]) live) (fun t => !(t.stand 0).hot) = true := by decide +kernel
theorem test_ScrubsAndWriteBacks_scrub : (vaulted { Vault.reset with lag := 1 }).maintRuns 0 1 = true ∧ live.get Ob.SCRUB_ENABLE ≠ 0 ∧ live.flips = [] ∧
    ((vaulted { Vault.reset with lag := 1 }).vault 0).lag ≠ 0 ∧
    ((vaulted { Vault.reset with lag := 1 }).vault 0).cursor + 1 ≠ vaultAccesses ∧
    ((vaulted { Vault.reset with lag := 1, cursor := 33554431 }).vault 0).cursor + 1 = vaultAccesses := by decide +kernel
theorem test_ScrubsAndWriteBacks_writeBack : (vaulted { Vault.reset with writeBacks := [(0, 1)] }).maintRuns 0 1 = true ∧ ((vaulted { Vault.reset with writeBacks := [(0, 1)] }).vault 0).writeBacks = [(0, 1)] := by
  decide +kernel

/-- A vault whose slice 0 has met the repair threshold at stored bit 3. -/
def worn : State := vaulted { Vault.reset with seen := (List.range 64).map fun i => (0, 3, i) }

theorem test_RepairPassesRun_evidence : worn.clocked = true ∧ worn.repairPos 0 0 = some 3 ∧ worn.repairQueue.any (·.1 == 0) = false ∧
    worn.repairPass = none := by decide +kernel
theorem test_RepairPassesRun_noEntry (h : Config.fuseRepair 0 = none) : worn.repairEntry 0 = none := by
  simp [State.repairEntry, worn, vaulted, State.setVault, live, State.reset, look, h]
theorem test_RepairPassesRun_step : live.maintRuns 0 2 = true ∧ (0 : Nat) + 1 ≠ sliceAccesses ∧ 2097151 + 1 = sliceAccesses ∧
    ({ unit := 16, pos := 3, cursor := 0 } : RepairPass).unit ≠ 0 := by decide +kernel
theorem test_MaintenanceIsAnnouncedAndKept_announce : live.boot.mode = .running ∧ live.clk.asleep = false ∧
    live.get Ob.MAINT_FIRST_TICK = 0 ∧ divUp 940000 (live.get Ob.TICK_PERIOD_ACTIVE) = 4000 ∧ live.ticks.maint = none ∧ (live.now + 4000) % 2 ^ 48 ≠ 0 ∧
    (live.setStand 0 { Stand.reset with temp := 60, calTemp := 20 }).calDue 0 4000 = true := by decide +kernel

/-- The module at the first tick of a maintenance period of stand 0. -/
def announced : State := (live.put Ob.MAINT_FIRST_TICK 8000000).put Ob.MAINT_SCOPE 1

theorem test_MaintenanceIsAnnouncedAndKept_period : announced.get Ob.MAINT_FIRST_TICK ≠ 0 ∧
    announced.since (announced.get Ob.MAINT_FIRST_TICK) < 2 ^ 47 ∧ announced.clk.asleep = false ∧ announced.get Ob.MAINT_SCOPE = 2 ^ 0 := by
  decide +kernel
theorem test_MaintenanceIsAnnouncedAndKept_wipe : ({ live with wipes := [(1, 1023)] } : State).wipes = [(1, 1023)] := by decide +kernel
theorem test_MaintenanceIsAnnouncedAndKept_period_h : goes (live.arrive (wr Ob.SCRUB_PERIOD_H 2 720) (isKey Ob.SCRUB_PERIOD_H))
    (fun _ v _ => leNat v = 720) = true ∧ goes (live.arrive (wr Ob.SCRUB_PERIOD_H 2 1) (isKey Ob.SCRUB_PERIOD_H))
    (fun _ v _ => leNat v = 1) = true := by decide +kernel
theorem test_MaintenanceIsAnnouncedAndKept_end : ({ live with ticks := { live.ticks with maint := some (1, 8000000) } } : State).ticks.maint =
    some (1, live.now) := by decide +kernel
theorem test_MaintenanceIsAnnouncedAndKept_sample : (({ live with ticks := { live.ticks with timerDue := true } } : State).put
    Ob.TELEMETRY_PERIOD 16).clocked = true ∧ (({ live with ticks := { live.ticks with timerDue := true } } : State).put
    Ob.TELEMETRY_PERIOD 16).ticks.timerDue = true ∧ (live.put Ob.TELEMETRY_PERIOD 16).get Ob.TELEMETRY_PERIOD ≠ 0 := by decide +kernel
theorem test_StandLinksReplayAndRetrain : (live.stand 0).retraining = false ∧ ((live.stand 0).link true).fails < 4 ∧
    ((live.setStand 0 { Stand.reset with up := { Stand.reset.up with fails := 3 } }).stand 0).up.fails < 4 ∧
    4 ≤ (((live.setStand 0 { Stand.reset with up := { Stand.reset.up with fails := 4 } }).stand 0).link true).fails ∧
    ((live.stand 0).link true).buffer = [] := by decide +kernel
theorem test_StandLinksReplayAndRetrain_replay : ({ Stand.reset.up with buffer := [(7, 1, 1)] } : Link).buffer[5 % max 1 1]? =
    some (7, 1, 1) := by decide +kernel
/-! ### Network ports -/

/-- An optical module that answers every step and offers 400GAUI-4 over four lanes. -/
def module0 : ModuleScript :=
  { present := true, pages := [(0, 0x18), (1, 0x50), (86, 0x4F), (88, 0x44), (89, 1)], reached := List.replicate 8 true }

/-- The booted module with N0 enabled, its only sub-port up and at 10.0.0.1. -/
def wired : State :=
  (((live.put (at_ Ob.PORT_ENABLE 0) 1).put (at_ Ob.PORT_STATE 0) 8).put (at_ Ob.SUBPORT_UP 0) 1).setNet 0
    { NetPort.reset with inUse := { NetPort.reset.inUse with ipv4 := [10, 0, 0, 1] ++ List.replicate 12 0 } }

theorem test_NetworkPortsFollowTheirModules_enable : goes (live.arrive (wr Ob.PORT_ENABLE 1 1) (isPortEnable (· = 1)))
    (fun w _ t => w.restore = false && t.get (at_ Ob.PORT_ENABLE (netOf w.idx)) ≠ 1) = true := by decide +kernel
theorem test_NetworkPortsFollowTheirModules_module : module0.present = true ∧ stepOk module0 3 = true ∧
    moduleSupported module0 = true ∧ stepOk module0 5 = true ∧ (moduleApp module0 (live.get Ob.BREAKOUT)).isSome = true ∧
    stepOk module0 7 = true ∧ stepOk module0 8 = true := by decide +kernel
theorem test_NetworkPortsFollowTheirModules_disable : goes (wired.arrive (wr Ob.PORT_ENABLE 1 0) (isPortEnable (· ≠ 1)))
    (fun w v t => leNat v = 0 && t.get (at_ Ob.PORT_ENABLE (netOf w.idx)) ≠ 0) = true := by decide +kernel
theorem test_NetworkPortsFollowTheirModules_links : wired.portRuns 0 = true ∧ wired.macRuns 0 = true ∧ wired.subUp 0 0 = true ∧
    wired.get (at_ Ob.PORT_ENABLE 0) = 1 ∧ (wired.put (at_ Ob.PORT_STATE 0) psAbsent).get (at_ Ob.PORT_STATE 0) < psLinkDown :=
  by decide +kernel

/-- A frame that asks over ARP who has 10.0.0.1. -/
def arpFrame : Bytes :=
  buildFrame (2 ^ 48 - 1) 0x0A0000000002 0 0x0806
    (beBytes 8 0x0001080006040001 ++ beBytes 6 0x0A0000000002 ++ beBytes 4 0x0A000002 ++ beBytes 6 0 ++ beBytes 4 0x0A000001)

theorem test_SubPortsAnswerTheirNeighbours_discard : wired.netHears 0 0 = true ∧ wired.accept 0 0 [] false = none := by decide +kernel
theorem test_SubPortsAnswerTheirNeighbours_arp (h : Config.macBase = 1) :
    wired.accept 0 0 arpFrame true = some (.arp 0x0A0000000002 0x0A000002) := by
  simp only [State.accept, NetConfig.ip6, subMac, firstMac, h]; decide +kernel

/-- A Neighbor Solicitation for an address, sent to its own MAC. -/
def solicitFrame (mac a : Nat) : Bytes :=
  buildFrame mac 0x0A0000000002 0 0x86DD (ip6Header 58 255 (0xFE80 * 2 ^ 112 + 2) a 24 ++
    icmp6 (0xFE80 * 2 ^ 112 + 2) a 135 (beBytes 4 0 ++ beBytes 16 a))

theorem test_SubPortsAnswerTheirNeighbours_solicit (h : Config.macBase = 1) :
    wired.accept 0 0 (solicitFrame 8 (linkLocal 8)) true = some (.solicit (0xFE80 * 2 ^ 112 + 2) (linkLocal 8)) := by
  simp only [State.accept, NetConfig.ip6, subMac, firstMac, h]; decide +kernel
theorem test_SubPortsAnswerTheirNeighbours_solicitM (h : Config.mgmtMac = 8) : live.mHears = true ∧
    live.acceptM (solicitFrame 8 (linkLocal 8)) = some (.solicit (0xFE80 * 2 ^ 112 + 2) (linkLocal 8)) := by
  refine ⟨by decide +kernel, ?_⟩
  simp only [State.acceptM, h]; with_reducible decide +kernel

/-- An ICMP echo request to 10.0.0.1. -/
def pingFrame : Bytes :=
  buildFrame 8 0x0A0000000002 0 0x0800 (ip4Header 1 0x0A000002 0x0A000001 8 ++ beBytes 8 0x0800F7FF00000000)

theorem test_SubPortsAnswerTheirNeighbours_echo4 (h : Config.macBase = 1) :
    wired.accept 0 0 pingFrame true = some (.echo4 0x0A000002 (beBytes 8 0x0800F7FF00000000)) := by
  simp only [State.accept, NetConfig.ip6, subMac, firstMac, h]; decide +kernel

/-- An ICMPv6 echo request. -/
def ping6Frame : Bytes :=
  buildFrame 8 0x0A0000000002 0 0x86DD (ip6Header 58 255 (0xFE80 * 2 ^ 112 + 2) (linkLocal 8) 8 ++
    icmp6 (0xFE80 * 2 ^ 112 + 2) (linkLocal 8) 128 (beBytes 4 0))

theorem test_SubPortsAnswerTheirNeighbours_echo6 (h : Config.mgmtMac = 8) :
    live.acceptM ping6Frame = some (.echo6 (0xFE80 * 2 ^ 112 + 2) (linkLocal 8)
      (icmp6 (0xFE80 * 2 ^ 112 + 2) (linkLocal 8) 128 (beBytes 4 0))) := by
  simp only [State.acceptM, h]; with_reducible decide +kernel
theorem test_SubPortsAnswerTheirNeighbours_sends : wired.subUp 0 0 = true ∧ wired.macRuns 0 = true := by decide +kernel

/-! ### RLT and streams -/

/-- A datagram to 10.0.0.1. -/
def datagram (b : Bytes) : RltPacket :=
  { v6 := false, srcMac := 2, srcAddr := 0x0A000002, srcPort := 5000, dstAddr := 0x0A000001, dstPort := 50410, vlan := false,
    bytes := b }

/-- Packet 0 of stream 3: the whole of object 0, a JSON line. -/
def dataPacket : RltPacket := datagram (buildRlt 1 3 3 0 0 0 [0x7B, 0x7D, 0x0A])

/-- An open stream of JSON objects on N0. -/
def stream0 : Stream :=
  { streamOf 0 0 0 7990000 with format := 1, decodeFlow := 4096, rxRegions := 1, stageRegions := 2, maxField := 64, accepted := true }

/-- N0 with stream 3 open as given. -/
def streamed (x : Stream) : State := wired.setStream 0 3 x

theorem test_PacketsAreTakenOrCounted_malformed : wired.datagramOk 0 0 (datagram (buildRlt 2 0 3 0 0 0 [])) = true ∧
    (parseRlt (buildRlt 2 0 3 0 0 0 [])).crcOk = true ∧ rltMalformed (buildRlt 2 0 3 0 0 0 []) = true ∧
    (wired.rltIntake 0 0 (datagram (buildRlt 2 0 3 0 0 0 []))).1 = none := by decide +kernel
theorem test_PacketsAreTakenOrCounted_data : (wired.rltIntake 0 0 dataPacket).1 = some (parseRlt dataPacket.bytes) ∧
    (parseRlt dataPacket.bytes).kind = 1 ∧ (streamed stream0).stream? ((streamed stream0).div.netPart 0) 3 = some stream0 ∧
    stream0.port = 0 ∧ stream0.subport = 0 ∧ stream0.refuses dataPacket = false ∧ stream0.sstate = 1 ∧
    seqDist stream0.ack 0 < 2 ^ 31 ∧ (∀ h ∈ stream0.held, h.1 ≠ 0) ∧ seqDist stream0.freed 0 < stream0.slots := by decide +kernel

/-- A LOOKUP_REQ for row 9 of table 7 to LAT flow 5. -/
def lookupPacket : RltPacket :=
  datagram (buildRlt 4 0 0 77 5 0 (beBytes 4 7 ++ beBytes 1 0 ++ beBytes 1 0 ++ beBytes 1 1 ++ beBytes 1 0 ++ beBytes 8 9))

/-- N0 up, table 7 made and LAT flow 5 open to answer over RLT. -/
def served0 : State :=
  ({ wired with klib := [(1, .lookup)] }.setTable 0 table0).setFlow 0 5 { flow0 with cls := .lat, destKind := 3 }

theorem test_PacketsAreTakenOrCounted_lookup : served0.netHears 0 0 = true ∧ (parseRlt lookupPacket.bytes).kind = 4 ∧
    (served0.rltIntake 0 0 lookupPacket).1 = some (parseRlt lookupPacket.bytes) ∧
    (served0.part (served0.div.netPart 0)).resetting = false ∧
    served0.reqCheck (rltRequest served0 0 0 lookupPacket (parseRlt lookupPacket.bytes)) (parseRlt lookupPacket.bytes) = .ok ∧
    (served0.enqueue 0 5 (mkItem 0x7FF 0 0 0 0 .ok (.rlt 0))).1 = .ok ∧
    wired.reqCheck (rltRequest wired 0 0 lookupPacket (parseRlt lookupPacket.bytes)) (parseRlt lookupPacket.bytes) ≠ .ok := by decide +kernel
theorem test_StreamsAskForWhatIsMissing_credit : (streamed stream0).liveStream 0 3 = some stream0 ∧
    stream0.lastSent + live.get Ob.KEEPALIVE ≤ live.now ∧
    ¬ ({ stream0 with lastSent := 7999000 } : Stream).lastSent + live.get Ob.KEEPALIVE ≤ live.now ∧
    ({ stream0 with ack := 1 } : Stream).ack ≠ stream0.sentAck ∧ 7999000 + live.get Ob.CREDIT_GAP ≤ live.now := by decide +kernel

/-- A stream with a gap open since tick 7,900,000. -/
def gapped : Stream := { stream0 with gapOpen := some 7900000, held := [(1, { flags := 3, object := 0, offset := 0, bytes := [1] })] }

theorem test_StreamsAskForWhatIsMissing_nack : (streamed gapped).liveStream 0 3 = some gapped ∧ gapped.gapOpen = some 7900000 ∧
    gapped.nackSent = none ∧ 7900000 + live.get Ob.NACK_DELAY ≤ live.now ∧ gapped.sstate = 1 ∧
    7900000 + live.get Ob.GAP_LIMIT ≤ live.now ∧ gapped.inObject = false := by decide +kernel

/-- The same stream with a NACK sent, and the timer held by RLT. -/
def nacked : State := ((streamed { gapped with nackSent := some 7900000 }).put Ob.TIMER_HOLDER 2).put Ob.NACK_PERIOD 4

theorem test_StreamsAskForWhatIsMissing_repeat : nacked.get Ob.TIMER_HOLDER = 2 ∧ nacked.get Ob.NACK_PERIOD ≠ 0 ∧
    (nacked.part 0).streams = [(3, { gapped with nackSent := some 7900000 })] ∧ (nacked.part 1).streams = [] ∧
    nacked.liveStream 0 3 = some { gapped with nackSent := some 7900000 } ∧ 7900000 + nacked.get Ob.NACK_PERIOD ≤ nacked.now := by
  decide +kernel
theorem test_StreamsAskForWhatIsMissing_claim : goes ((live.put Ob.TIMER_HOLDER 0).arrive (wr Ob.NACK_PERIOD 2 1) (isKey Ob.NACK_PERIOD))
    (fun _ v t => leNat v ≠ 0 && t.get Ob.TIMER_HOLDER ≠ 1) = true ∧ goes (nacked.arrive (wr Ob.NACK_PERIOD 2 0) (isKey Ob.NACK_PERIOD))
    (fun _ v t => leNat v = 0 && t.get Ob.TIMER_HOLDER = 2) = true := by decide +kernel

/-- The image of stream 3: JSON without codec on N0, decoder table 0, flow 4096, receive region 0, two staging regions, fields of
64 bytes. -/
def streamImage : Nat := 1 * 2 ^ 2 + 4096 * 2 ^ 32 + 1 * 2 ^ 80 + 2 * 2 ^ 88 + 64 * 2 ^ 144 * 2 ^ 144

/-- A decoder table of JSON records without columns. -/
def jsonTable : DecoderTable :=
  { format := 1, hashes := [], layout := 0, schema := [], json := [], fixedCols := [], partKeys := [], partSeed := 0, binds := [] }

/-- N0 up, with an image that holds a JSON decoder table and its decode flow open. -/
def decoding : State :=
  ({ wired with klib := [(1, .decode)] }.setPart 0 { wired.part 0 with images := [(0, { image0 with content :=
    { image0.content with decoders := [jsonTable] } })] }).setFlow 0 4096 { flow0 with mode := .ordered }

theorem test_StreamsOpenWalkAndClose_open : goes (decoding.arrive (wr Ob.STREAM_OPEN 68 (3 + streamImage * 2 ^ 32)) (isKey Ob.STREAM_OPEN))
    (fun w v t => (opStreamOpen w v t).1 = some .ok) = true := by decide +kernel
theorem test_StreamsOpenWalkAndClose_claim : goes (decoding.arrive (wr Ob.STREAM_OPEN 68 (3 + streamImage * 2 ^ 32)) (isKey Ob.STREAM_OPEN))
    (fun w v t => leAt v 0 4 = 3 && t.streamCheck w 3 (leNat (sliceB v 4 64)) = .ok && (t.stream? 0 3).isNone &&
      (t.claim (streamOf (leNat (sliceB v 4 64)) w.owner 0 t.now).regions 2 3).isSome) = true := by decide +kernel
theorem test_StreamsOpenWalkAndClose_close : goes ((streamed stream0).arrive (wr Ob.STREAM_CLOSE 4 3) (isKey Ob.STREAM_CLOSE))
    (fun w v t => w.isHost = false && (t.stream? (t.div.streamPart (leNat v)) (leNat v)).isSome) = true := by decide +kernel
theorem test_StreamsOpenWalkAndClose_edge : (streamed { stream0 with closing := true }).stream? 0 3 = some { stream0 with closing := true } ∧
    ((State.walkAll 4194304 (streamed { stream0 with closing := true }) 0 3).stream? 0 3).isSome = true := by decide +kernel

/-- A JSON object of one line within a stream. -/
def lined : Stream := { stream0 with inObject := true, phase := .blocks, buffer := [0x7B, 0x7D, 0x0A], segs := [(0, 3)] }

theorem test_StreamsOpenWalkAndClose_line : lined.source = [0x7B, 0x7D] ++ 0x0A :: [] ∧ (0x0A : Byte) ∉ [(0x7B : Byte), 0x7D] ∧
    [(0x7B : Byte), 0x7D].getLast? ≠ some 0x0D ∧ [(0x7B : Byte), 0x7D].length ≤ 1048576 ∧ lined.lineBroken = false := by decide +kernel

/-- An Avro object whose next block has been staged, so that a walk of it ends the turn. -/
def blocked : Stream := { stream0 with format := 0, inObject := true, phase := .blocks, avroCodec := 1, stagedCount := some 0 }

theorem test_StreamsOpenWalkAndClose_turn : (match (streamed blocked).walk 0 3 with | some (b, _) => b | none => false) = true := by
  decide +kernel

/-- A JSON object of one stored deflate block. -/
def deflated : Stream :=
  { stream0 with inObject := true, phase := .blocks, codec := 2, buffer := [1, 1, 0, 0xFE, 0xFF, 0x0A], segs := [(0, 6)] }

/-- That stream with its unit in the chipper ingest flow. -/
def unitQueued : State :=
  (streamed deflated).setPart 0 { (streamed deflated).part 0 with chipUnits := [(3, 6)] }

theorem test_StreamsOpenWalkAndClose_unit : (streamed deflated).stream? 0 3 = some deflated ∧ deflated.sstate = 1 ∧
    (streamed deflated).isStalled 0 deflated.decodeFlow = false ∧ deflated.codec ≠ 0 ∧ deflated.phase ≠ .skipObject ∧
    deflated.unit = some [1, 1, 0, 0xFE, 0xFF, 0x0A] ∧
    (match (streamed deflated).decodeUnit 0 (deflated.codec == 2) deflated.stageLimit [1, 1, 0, 0xFE, 0xFF, 0x0A] with
      | .ok d => d.bytes == [0x0A] | .error _ => false) = true ∧ ((streamed deflated).div.units .chipD 0).2 ≠ 0 ∧
    (streamed deflated).part 0 = { (streamed deflated).part 0 with chipUnits := [] } ∧
    (unitQueued.part 0).chipUnits.find? (·.1 == 3) = some (3, 6) ∧ (unitQueued.unitLane 0 6).isSome = true := by decide +kernel
/-! ### Sample sets, epochs and images -/

theorem test_SetsSealSortAndClear_seal : goes (live.arrive (wr Ob.SET_SEAL 2 0x10F) (isKey Ob.SET_SEAL)) (fun w v t =>
    t.setArg w (leNat v) = .ok && (t.set? (bitsOf (leNat v) 8 8) (bitsOf (leNat v) 7 0)).state = 0) = true := by decide +kernel
theorem test_SetsSealSortAndClear_sort : ((live.setSet 1 15 { SampleSet.empty with state := 2 }).set? 1 15).state = 2 := by
  decide +kernel
theorem test_SetsSealSortAndClear_clear : goes (live.arrive (wr Ob.SET_CLEAR 2 0x10F) (isKey Ob.SET_CLEAR)) (fun w v t =>
    t.setArg w (leNat v) = .ok && (t.part (bitsOf (leNat v) 8 8)).setInUse (bitsOf (leNat v) 7 0) = false) = true := by
  decide +kernel

/-- A batch plan of one-sample batches from set 0 through flow 4096. -/
def plan0 : BatchPlan :=
  { batch := 1, set := 0, asmFlow := 0, prepDepth := 2, stagingFirst := 0, stagingLen := 4096, asmFirst := 0, asmRegions := 0,
    dropCap := 4, denseBytes := 0, pooledBytes := 0, proj := false, template := [], packed := [], layout := 0, denseCols := [],
    bags := [], exprs := [] }

/-- PIPE_RUN of that plan: one slot of 4 KiB per frame, two slots. -/
def epochCmd : Cmd := cmdOf 0x11 .fetched (2 * 2 ^ 16 + 1 * 2 ^ 144 * 2 ^ 176 + 1 * 2 ^ 180 * 2 ^ 180)

/-- The module with the plan's image loaded and its set sealed with one entry. -/
def planned : State :=
  (({ withFlow .assembly { flow0 with mode := .ordered } with cmds := [epochCmd] } : State).setPart 0
    { (withFlow .assembly { flow0 with mode := .ordered }).part 0 with
      images := [(0, { image0 with content := { image0.content with plans := [plan0] } })] }).setSet 0 0
    { SampleSet.empty with state := 3, count := 1 }

theorem test_ShuffleIsAPermutation : 0 < 7 ∧ 6 < 7 ∧ sigma (roundKeys 1 1) 6 7 < 7 := by decide +kernel
theorem test_EpochsFeedShipAndEnd_run : planned.control 1 0x11 = some epochCmd ∧ epochCmd.f 83 80 = 2 ∧
    (planned.augRange epochCmd).isNone = true ∧
    planned.planOf 0 (epochCmd.f 95 64) = some (0, { image0 with content := { image0.content with plans := [plan0] } }, plan0) ∧
    planned.epochCheck epochCmd = .ok ∧ (List.range 4).find? (fun e => (planned.epoch? 0 e).isNone) = some 0 := by decide +kernel

/-- The epoch that it starts. -/
def epoch0 : Epoch := newEpoch epochCmd 0 plan0 1

/-- The module with an epoch under number 0. -/
def epoched (x : Epoch) : State := planned.setEpoch 0 0 x

theorem test_UnshuffledOrderIsPositionOrder : epoch0.shuffle = false := by decide +kernel
theorem test_EpochsFeedShipAndEnd_feed : (epoched epoch0).epoch? 0 0 = some epoch0 ∧ epoch0.ending = false ∧
    ((epoched epoch0).feedEntry 0 epoch0 0).1 = (.ok, false, 0, 0) ∧
    ((epoched epoch0).enqueue 0 4096 (mkItem 0x7FF 0 0 0 0 .ok (.position 0 0 false 0 0 []))).1 = .ok ∧
    epoch0.nextFeed < epoch0.n ∧ epoch0.prepared.length < epoch0.plan.prepDepth ∧ epoch0.augBase = 0 ∧
    look ((epoched epoch0).part 0).images epoch0.handle =
      some { image0 with content := { image0.content with plans := [plan0] } } := by decide +kernel
theorem test_EpochsFeedShipAndEnd_augmentation : (epoched { epoch0 with augBase := 4096, augSize := 16 }).epoch? 0 0 =
      some { epoch0 with augBase := 4096, augSize := 16 } ∧ epoch0.augNext < epoch0.n ∧
    ((epoched epoch0).port epoch0.port).bme = true := by decide +kernel
theorem test_EpochsFeedShipAndEnd_ship : (epoched { epoch0 with prepared := [Batch.start 0] }).epoch? 0 0 =
      some { epoch0 with prepared := [Batch.start 0] } ∧ epoch0.aborted = false ∧
    (epoched epoch0).slotFree { epoch0 with prepared := [Batch.start 0] } (epoch0.batchNo % 2 ^ epoch0.slotsLog2) = true := by
  decide +kernel
theorem test_EpochsFeedShipAndEnd_notice : (epoched { epoch0 with ending := true }).epoch? 0 0 = some { epoch0 with ending := true } ∧
    epoch0.prepared = [] ∧ epoch0.released = [] ∧ ((live.port epoch0.port).cplRing epoch0.frameCq).blocked = false ∧
    ((live.port epoch0.port).cplRing epoch0.frameCq).held = [] := by decide +kernel
theorem test_ImagesLoadRunAndStop_refused : loading.control 1 0x10 = some (cmdOf 0x10 .fetched (2 ^ 20 + 4096 * 2 ^ 64)) ∧
    loading.loadEarly (cmdOf 0x10 .fetched (2 ^ 20 + 4096 * 2 ^ 64)) = .ok ∧
    loading.loadCheck 0 [] 4096 image0 = (.badDescriptor, 0xFFFF) := by decide +kernel

/-- PIPE_LOAD of 4,096 bytes at host address 2^20 with flow base 4096. -/
def loadCmd : Cmd := cmdOf 0x10 .fetched (2 ^ 20 + 4096 * 2 ^ 64 + 4096 * 2 ^ 96)

/-- The FLOWS section of one flow, and an image of 4,096 bytes that holds it alone. -/
def flowSection : Bytes := leBytes 64 openImage
def imageBytes : Bytes :=
  fitB 4096 (leBytes 4 0x474D4950 ++ leBytes 4 1 ++ leBytes 4 4096 ++ leBytes 4 4096 ++ leBytes 2 1 ++ leBytes 2 0 ++ leBytes 2 1 ++
    leBytes 2 1 ++ leBytes 2 1 ++ List.replicate 38 0 ++ leBytes 1 1 ++ leBytes 1 0 ++ leBytes 2 1 ++ leBytes 4 128 ++
    leBytes 4 64 ++ leBytes 4 (crc32c flowSection) ++ List.replicate 48 0 ++ flowSection)

/-- Its parts: no graph, layout, program, list, decoder, automaton or plan. -/
def noContent : ImageContent :=
  { graphs := [], layouts := [], programs := [], lists := [], decoders := [], automata := [], plans := [] }

/-- The booted module with that command fetched, and no image signature required of it. -/
def imaging : State := ({ live with cmds := [loadCmd], boot := { live.boot with klibVersion := 65536 } } : State).put Ob.IMAGE_SIG_POLICY 0

theorem test_ImagesLoadRunAndStop_load : imaging.control 1 0x10 = some loadCmd ∧ loadCmd.f 159 128 = 4096 ∧
    loadCmd.f 191 178 = 0 ∧ loadCmd.f 511 203 = 0 ∧ (imaging.part 0).images.length < 8 ∧ loadCmd.f 177 160 = 4096 ∧
    loadCmd.f 202 192 = 0 ∧ imaging.canRefill 0 = true ∧
    (List.range 8).find? (fun h => (look (imaging.part 0).images h).isNone) = some 0 := by decide +kernel
theorem test_ImagesLoadRunAndStop_reads : loadCmd.hostBytes imageBytes 4096 = imageBytes := by
  apply List.ext_getElem
  · simp [Cmd.hostBytes, imageBytes]
  · intro i h1 h2
    simp [Cmd.hostBytes, List.getElem?_eq_getElem h2]
theorem test_ImagesLoadRunAndStop_checked : imaging.loadCheck 0 imageBytes 4096 (imageOf imageBytes noContent 4096 0) = (.ok, 0) := by
  decide +kernel

/-- PIPE_RUN of graph 1 of image 0 with one source. -/
def graphCmd : Cmd := cmdOf 0x11 .fetched (0x10001 + 2 ^ 32)

/-- The module with the graph's image loaded and that command fetched. -/
def graphing : State := { withFlow .operator flow0 with cmds := [graphCmd] }.setPart 0
  { (withFlow .operator flow0).part 0 with images := [(0, image0)] }

theorem test_ImagesLoadRunAndStop_run : graphing.control 1 0x11 = some graphCmd ∧ graphCmd.f 83 80 ≠ 2 ∧
    graphing.graphOf 0 (graphCmd.f 95 64) = some (0, image0, graph0) ∧ graphCmd.f 511 128 = 0 ∧ graphCmd.f 127 96 = 1 ∧
    (graphing.part 0).runs = [] := by decide +kernel

/-- PIPE_STOP of image 0 with UNLOAD. -/
def stopCmd : Cmd := cmdOf 0x12 .fetched (2 ^ 8)

theorem test_ImagesLoadRunAndStop_stop : ({ graphing with cmds := [stopCmd] } : State).control 1 0x12 = some stopCmd ∧
    look (graphing.part 0).images (stopCmd.f 66 64) = some image0 ∧ stopCmd.f 71 67 = 0 ∧ stopCmd.f 511 73 = 0 ∧
    stopCmd.f 72 72 = 1 ∧ (graphing.part 0).epochs = [] := by decide +kernel
/-! ### Tables -/

/-- TABLE_CREATE of table 7: 32 wide, 1,000 rows, 1 MiB of row area on each core. -/
def createCmd : Cmd := cmdOf 0x20 .fetched (7 + 32 * 2 ^ 32 + 1000 * 2 ^ 112 * 2 ^ 112 + 1 * 2 ^ 144 * 2 ^ 144)

theorem test_TablesAndTheirVersions_create : ({ live with cmds := [createCmd] } : State).control 1 0x20 = some createCmd ∧
    ({ live with cmds := [createCmd] } : State).tableCreateCheck createCmd = .ok := by decide +kernel

/-- A command on table 7, with the fields above it. -/
def tableCmd (op : Nat) (body : Nat) : Cmd := cmdOf op .fetched (7 + body * 2 ^ 32)

theorem test_TablesAndTheirVersions_open : ({ tabled table0 with cmds := [tableCmd 0x22 0] } : State).control 1 0x22 =
      some (tableCmd 0x22 0) ∧ (tabled table0).versionOpenCheck (tableCmd 0x22 0) = .ok ∧
    (tabled table0).table? 0 ((tableCmd 0x22 0).f 95 64) = some table0 ∧ (tableCmd 0x22 0).f 96 96 = 0 ∧
    (tabled table0).versionOpenCheck (tableCmd 0x22 1) = .ok ∧ (tableCmd 0x22 1).f 96 96 ≠ 0 ∧ (tabled table0).lanesIdle 0 7 = true ∧
    table0.version? table0.current = some version0 := by decide +kernel
theorem test_TablesAndTheirVersions_clone (s : State) : s.cloneAll 0 table0 version0 2 = (.done, s) := rfl

/-- The table with version 2 open. -/
def opened : Table := { table0 with versions := [version0, { version0 with number := 2, state := .opened }], nextVersion := 3 }

theorem test_TablesAndTheirVersions_switch : ({ tabled opened with cmds := [tableCmd 0x23 2] } : State).control 1 0x23 =
      some (tableCmd 0x23 2) ∧ (tabled opened).table? 0 ((tableCmd 0x23 2).f 95 64) = some opened ∧
    (tableCmd 0x23 2).f 511 128 = 0 ∧ (tableCmd 0x23 2).f 127 96 = opened.inState .opened ∧ opened.inState .opened ≠ 0 ∧
    opened.inState .retiring = 0 ∧ opened.switch = none := by decide +kernel
theorem test_TablesAndTheirVersions_edge : (tabled { opened with switch := some 1 }).table? 0 7 = some { opened with switch := some 1 } ∧
    (tabled { opened with switch := some 1 }).openWrites 0 7 1 = false ∧ (tabled opened).lanes = [] := by decide +kernel
theorem test_TablesAndTheirVersions_drop : ({ tabled table0 with cmds := [tableCmd 0x24 0] } : State).control 1 0x24 =
      some (tableCmd 0x24 0) ∧ (tableCmd 0x24 0).f 511 96 = 0 := by decide +kernel

/-- A dropped table whose only version has been retiring since tick 7,999,996. -/
def retired : Table := { table0 with versions := [{ version0 with state := .retiring, since := 7999996 }], dropped := true }

theorem test_TablesAndTheirVersions_reclaim : (tabled retired).anyTable 0 7 = some retired ∧
    retired.versions = [{ version0 with state := .retiring, since := 7999996 }] ∧ 4 ≤ (tabled retired).since 7999996 ∧
    (tabled retired).captured 0 7 1 = false := by decide +kernel

/-- A LOOKUP of one row into 4 KiB of host memory, its ID in one extension entry. -/
def lookupCmd (st : Stage) : Cmd :=
  { cmdOf 0x28 st (7 + 1 * 2 ^ 48 + 4096 * 2 ^ 128 + 1 * 2 ^ 160 + 1 * 2 ^ 192) with ext := [9] }

theorem test_RowsAreReadAndWritten_lookup : ({ tabled table0 with cmds := [lookupCmd .fetched] } : State).admitting 1 0x28 =
      some (lookupCmd .fetched) ∧ (tabled table0).lookupCheck (lookupCmd .fetched) = .ok ∧
    (lookupCmd .fetched).bags [] = some [[(9, 0)]] ∧
    (tabled table0).anyTable 0 ((lookupCmd .fetched).f 95 64) = some table0 ∧ (tabled table0).rowsServed 0 7 [9] = true := by
  decide +kernel

/-- UPDATE and TABLE_WRITE_ROWS of one row of table 7. -/
theorem test_RowsAreReadAndWritten_update : ({ tabled table0 with cmds := [cmdOf 0x29 .fetched (7 + 1 * 2 ^ 128)] } : State).admitting 1
      0x29 = some (cmdOf 0x29 .fetched (7 + 1 * 2 ^ 128)) ∧ (tabled table0).updateCheck (cmdOf 0x29 .fetched (7 + 1 * 2 ^ 128)) = .ok ∧
    (tabled table0).table? 0 ((cmdOf 0x29 .fetched (7 + 1 * 2 ^ 128)).f 95 64) = some table0 ∧
    ((tabled table0).port 0).rangeOk false 0 (1 * gradBytes 0 8) = true := by decide +kernel
theorem test_RowsAreReadAndWritten_write : ({ tabled table0 with cmds := [cmdOf 0x21 .fetched (7 + 1 * 2 ^ 128)] } : State).admitting 1
      0x21 = some (cmdOf 0x21 .fetched (7 + 1 * 2 ^ 128)) ∧ (cmdOf 0x21 .fetched (7 + 1 * 2 ^ 128)).f 103 99 = 0 ∧
    (cmdOf 0x21 .fetched (7 + 1 * 2 ^ 128)).f 127 108 = 0 ∧ (cmdOf 0x21 .fetched (7 + 1 * 2 ^ 128)).f 511 224 = 0 ∧
    (cmdOf 0x21 .fetched (7 + 1 * 2 ^ 128)).f 96 96 = 0 ∧ (cmdOf 0x21 .fetched (7 + 1 * 2 ^ 128)).f 98 97 ≤ table0.coarsest ∧
    (cmdOf 0x21 .fetched (7 + 1 * 2 ^ 128)).f 107 104 ≤ 2 ∧ (cmdOf 0x21 .fetched (7 + 1 * 2 ^ 128)).f 223 192 = 1 ∧
    ((tabled table0).port 0).rangeOk false 0 (1 * rowBytes 0 8) = true := by decide +kernel

/-- A LOOKUP of host memory whose two bags' offsets do not end at NIDS. -/
theorem test_RowsAreReadAndWritten_offsets : (cmdOf 0x28 .running (7 + 2 ^ 35 + 2 * 2 ^ 160 + 1 * 2 ^ 192)).bags
    (List.replicate 20 0) = none := by decide +kernel

/-- A command at work on core 0 with a table made. -/
def atTable (op : Nat) (k : Kernel) (body : Nat) : State := (atUnit op k (7 + body)).setTable 0 table0

theorem test_RowsAreReadAndWritten_work : (atTable 0x28 .lookup 0).admitting 1 0x28 = none ∧
    ((atTable 0x28 .lookup 0).atWork 1 0x28).isSome = true ∧ (atTable 0x29 .update 0).admitting 1 0x29 = none ∧
    (atTable 0x29 .update 0).atWork 1 0x29 = some (cmdOf 0x29 .running 7) ∧
    (atTable 0x29 .update 0).anyTable 0 ((cmdOf 0x29 .running 7).f 95 64) = some table0 ∧
    (atTable 0x29 .update 0).routesNext (cmdOf 0x29 .running 7) = true ∧ (atTable 0x21 .tableWrite 0).admitting 1 0x21 = none ∧
    ((atTable 0x21 .tableWrite 0).atWork 1 0x21).isSome = true ∧ (atTable 0x21 .tableWrite 0).routesNext (cmdOf 0x21 .running 7) = true := by
  decide +kernel

/-- A record that writes row 9. -/
def laneRec0 : LaneRec := { cmd := 1, index := 0, part := 0, table := 7, version := 1, id := 9, op := .write 0, bytes := [], born := 0 }

/-- Lane 0 of core 0 with that record at its front. -/
def laned : State := ({ tabled table0 with cmds := [cmdOf 0x21 .waiting 7] } : State).setLane 0 0 { Lane.reset with queue := [laneRec0] }

theorem test_RowsAreReadAndWritten_lane : (laned.lane 0 0).queue = [laneRec0] ∧ (laned.lane 0 0).hold = none ∧
    laned.cmd? 1 = some (cmdOf 0x21 .waiting 7) ∧ laned.versionOf 0 7 1 = some (table0, version0) ∧
    laned.laneRuns 0 (laned.lane 0 0) = true ∧ laneRec0.op = .write 0 := by decide +kernel
theorem test_RegradingMovesRowsInBatches_policy : ({ tabled table0 with cmds := [tableCmd 0x2A 0] } : State).control 1 0x2A =
      some (tableCmd 0x2A 0) ∧ (tabled table0).regradeCheck (tableCmd 0x2A 0) = .ok ∧ (tableCmd 0x2A 0).f 96 96 = 0 ∧
    (tabled table0).regradeCheck (tableCmd 0x2A (1 + 2 ^ 20 + 4000 * 2 ^ 32)) = .ok ∧
    (tableCmd 0x2A (1 + 2 ^ 20 + 4000 * 2 ^ 32)).f 96 96 = 1 := by decide +kernel

/-- A row queued for migration. -/
def migration0 : Migration := { part := 0, table := 7, version := 1, id := 9, grade := 1, ready := false, slot := 0 }

/-- The table's module with that migration on lane 0 of core 0. -/
def migrating : State := (tabled table0).setLane 0 0 { Lane.reset with migrations := [migration0] }

theorem test_RegradingMovesRowsInBatches_window : (tabled table0).closeDue table0 = true ∧
    (tabled table0).passRuns 0 table0 = false ∧ migrating.table? 0 7 = some table0 ∧ migrating.passRuns 0 table0 = true ∧
    table0.closeLate = false := by decide +kernel
theorem test_RegradingMovesRowsInBatches_hold : (migrating.lane 0 0).migrations = [migration0] ∧ (migrating.lane 0 0).lastEnd = none ∧
    migrating.table? 0 7 = some table0 ∧ 1 ≤ table0.policy.migBatch ∧
    ∀ k, (migrating.lane 0 k).hold = none := by
  have h : migrating.lanes = [(0, { Lane.reset with migrations := [migration0] })] := by decide +kernel
  refine ⟨by decide +kernel, by decide +kernel, by decide +kernel, by decide +kernel, fun k => ?_⟩
  cases k <;> (rw [State.lane, h]; simp [laneKey, lookD, look, Lane.reset])

theorem test_RegradingMovesRowsInBatches_slot : ∃ x u, migrating.moveSlot migration0 0 = (some x, u) ∧ (u.lane 0 0).queue = [] ∧
    (u.lane 0 0).migrations = [migration0] := by
  have h1 : migrating.migrant migration0 = some (table0, version0) := by decide +kernel
  have h2 : gapStarts (slotAlign (table0.slotBytes 1 false)) (version0.dir 0).slots
      (table0.areaAt version0 (migrating.div.coreCount 0)) (table0.areaAt version0 (migrating.div.coreCount 0) +
        table0.areaBytes (migrating.div.coreCount 0)) (table0.slotBytes 1 false) = [1024] := by decide +kernel
  have h3 : migrating.allocSlot 0 table0 version0 0 (table0.slotBytes 1 false) = (some 1024, migrating.free.2) := by
    simp only [State.allocSlot, h2, State.chooseOf, List.length_singleton, Nat.mod_one]
    rfl
  refine ⟨_, _, by simp only [State.moveSlot, h1]; simp only [migration0, h3]; rfl, rfl, rfl⟩

/-- Lane 0 of core 0 held since edge `e` for that row. -/
def held (e : Nat) : State :=
  (tabled table0).setLane 0 0 { Lane.reset with hold := some { edge := e, batch := [migration0], inFlight := false } }

theorem test_RegradingMovesRowsInBatches_swap : ((held 7999999).lane 0 0).hold =
      some { edge := 7999999, batch := [migration0], inFlight := false } ∧ (held 7999999).since 7999999 = 1 ∧ (held 7999998).since 7999998 = 2 := by decide +kernel
theorem test_RegradingMovesRowsInBatches_moved : (State.moveRows 0 [{ migration0 with table := 8 }] 1 (held 7999999)).1 = [] := by
  decide +kernel

/-- A slot of core 0 given up at tick 7,999,996. -/
def freed0 : Freed := { part := 0, table := 7, version := 1, core := 0, slot := 64, edge := 7999996, upTo := 0 }

theorem test_RegradingMovesRowsInBatches_free : ({ live with freed := [freed0] } : State).freed = [freed0] ∧
    4 ≤ live.since freed0.edge ∧ live.earlier 0 0 = false := by decide +kernel

/-! ### Engines, lanes and dictionaries -/

/-- A command of a flow waiting for its admission. -/
def atFetch (op : Nat) (k : Kernel) (body : Nat) : State :=
  { withFlow k flow0 with cmds := [cmdOf op .fetched body] }

/-- A check admits its command, and its flow takes the item. -/
def admits (s : State) (op : Nat) (body : Nat) (check : State → Cmd → Status) : Bool :=
  s.admitting 1 op == some (cmdOf op .fetched body) && check s (cmdOf op .fetched body) == .ok &&
    (s.enqueue 0 4096 (mkItem 0x7FF 7 0 0 0 .ok (.cmd 1))).1 == .ok

/-- A check refuses a command all of whose fields are zero. -/
def refuses (s : State) (op : Nat) (check : State → Cmd → Status) : Bool :=
  s.admitting 1 op == some (cmdOf op .fetched 0) && check s (cmdOf op .fetched 0) != .ok

/-- The image with one automaton, number 0. -/
def image1 : Image := { image0 with content := { image0.content with automata := [{ bytes := List.replicate 64 0 }] } }

/-- A module with that image in slot 0. -/
def withAuto (s : State) : State := s.setPart 0 { s.part 0 with images := [(0, image1)] }

def topkBody : Nat := 1 + 2 ^ 40 + 16 * 2 ^ 192 + 10 * 2 ^ 320
def argmaxBody : Nat := 1 + 2 ^ 32 + 8 * 2 ^ 192
def matchBody : Nat := 0x40000 + 2 ^ 192 + 8 * 2 ^ 224
def decompressBody : Nat := 10 * 2 ^ 128 + 100 * 2 ^ 256
def compressBody : Nat := 2 ^ 32 + 10 * 2 ^ 34 + 10 * 2 ^ 128 + 100 * 2 ^ 256

theorem test_EngineCommandsJoinTheirFlow_select : admits (atFetch 0x38 .topk topkBody) 0x38 topkBody State.topkCheck = true ∧
    admits (atFetch 0x39 .argmax argmaxBody) 0x39 argmaxBody State.argmaxCheck = true ∧
    admits (withAuto (atFetch 0x3C .matchK matchBody)) 0x3C matchBody State.matchCheck = true := by decide +kernel
theorem test_EngineCommandsJoinTheirFlow_engines : admits (atFetch 0x30 .copy (2 ^ 64)) 0x30 (2 ^ 64) State.copyAdmit = true ∧
    admits (atFetch 0x35 .decompress decompressBody) 0x35 decompressBody State.decompressCheck = true ∧
    admits (atFetch 0x40 .matmul (2 ^ 64)) 0x40 (2 ^ 64) State.matmulCheck = true := by decide +kernel
theorem test_EngineCommandsJoinTheirFlow_refused : refuses (atFetch 0x38 .topk 0) 0x38 State.topkCheck = true ∧
    refuses (atFetch 0x39 .argmax 0) 0x39 State.argmaxCheck = true ∧ refuses (atFetch 0x3C .matchK 0) 0x3C State.matchCheck = true ∧
    refuses (atFetch 0x30 .copy 0) 0x30 State.copyAdmit = true ∧
    refuses (atFetch 0x35 .decompress 0) 0x35 State.decompressCheck = true ∧
    refuses (atFetch 0x40 .matmul 0) 0x40 State.matmulCheck = true := by decide +kernel

/-- A COMPRESS waiting for its admission, and the module after its claim. -/
def compress0 : Cmd := cmdOf 0x34 .fetched compressBody
def atCompress : State := atFetch 0x34 .compress compressBody

theorem test_EngineCommandsJoinTheirFlow_compress : atCompress.admitting 1 0x34 = some compress0 ∧
    atCompress.compressCheck compress0 = .ok ∧ compress0.staging = [0] ∧ atCompress.holder 0 = 0 ∧
    ((atCompress.claim compress0.staging 4 1).map fun t =>
      (t.enqueue 0 4096 (mkItem 0x7FF 7 0 0 0 .ok (.cmd 1))).1) = some .ok := by decide +kernel
theorem test_EngineCommandsJoinTheirFlow_held : ((atCompress.claim [0] 2 9).map fun t =>
      (t.admitting 1 0x34 == some compress0, t.compressCheck compress0, t.holder 0 != 0)) = some (true, .ok, true) := by decide +kernel

/-- A MATMUL descriptor of one dot product of 32 bytes, and the module with it at device address 0. -/
def matDesc : Bytes := leBytes 128 (0x10000 + 0x20000 * 2 ^ 64 + 0x30000 * 2 ^ 192 + 2 ^ 192 * 2 ^ 192 + 2 ^ 224 * 2 ^ 192 +
  2 ^ 256 * (32 * 2 ^ 192) + 2 ^ 256 * 2 ^ 224 + 2 ^ 256 * 2 ^ 228 + 2 ^ 256 * 2 ^ 246)
def atMatmul : State := ((atUnit 0x40 .matmul (2 ^ 64)).devWrite 0 0 matDesc).2

theorem test_EngineCommandsDoTheirWork_matmul : atMatmul.admitting 1 0x40 = none ∧
    atMatmul.atWork 1 0x40 = some (cmdOf 0x40 .running (2 ^ 64)) ∧
    (((atMatmul.matJobs 0 0 1).1.zipIdx).find? fun x => (atMatmul.matJobs 0 0 1).2.matCheck 0 x.1 [(0, 128)] != .ok) = none ∧
    (cmdOf 0x40 .running (2 ^ 64)).f 127 64 = 0 ∧ (cmdOf 0x40 .running (2 ^ 64)).f 136 128 = 1 := by decide +kernel
theorem test_EngineCommandsDoTheirWork_job : (atMatmul.runJob 0 0 (matJob matDesc)).1.1 = true ∧
    (atMatmul.cmdItem (cmdOf 0x40 .running (2 ^ 64))).isSome = true := by decide +kernel

/-- Its engine finds words of zeros where the descriptor should be. -/
theorem test_EngineCommandsDoTheirWork_badMatmul :
    ((((atUnit 0x40 .matmul (2 ^ 64)).matJobs 0 0 1).1.zipIdx).find? fun x =>
      ((atUnit 0x40 .matmul (2 ^ 64)).matJobs 0 0 1).2.matCheck 0 x.1 [(0, 128)] != .ok) =
        some (some (List.replicate 128 0), 0) := by decide +kernel
theorem test_EngineCommandsDoTheirWork_badCopy : (atUnit 0x30 .copy (2 ^ 64)).admitting 1 0x30 = none ∧
    (atUnit 0x30 .copy (2 ^ 64)).atWork 1 0x30 = some (cmdOf 0x30 .running (2 ^ 64)) ∧
    ((((atUnit 0x30 .copy (2 ^ 64)).matJobs 0 0 1).1.zipIdx).find? fun x =>
      ((atUnit 0x30 .copy (2 ^ 64)).matJobs 0 0 1).2.copyCheck (cmdOf 0x30 .running (2 ^ 64)) x.1 != .ok) =
        some (some (List.replicate 128 0), 0) := by decide +kernel

/-- A descriptor of 2 × 1 elements padded by one element before them in dimension 0. -/
def copy0 : CopyDesc := { copyDesc [] with dims := [2, 1, 1, 1], perm := 0xE4, lo := [1, 0, 0, 0] }

theorem test_EngineCommandsDoTheirWork_place : copy0.permOk = true ∧ copy0.srcIdx = [[0, 0, 0, 0], [1, 0, 0, 0]] ∧
    copy0.outIdx [1, 0, 0, 0] = [2, 0, 0, 0] := by decide +kernel

/-- A Zstandard frame of one raw block with the byte 0x61. -/
def frame0 : Bytes := [0x28, 0xB5, 0x2F, 0xFD, 0x20, 1, 9, 0, 0, 0x61]
def atDecompress : State := atUnit 0x35 .decompress decompressBody

theorem test_EngineCommandsDoTheirWork_decompress : atDecompress.admitting 1 0x35 = none ∧
    atDecompress.atWork 1 0x35 = some (cmdOf 0x35 .running decompressBody) ∧
    (cmdOf 0x35 .running decompressBody).f 98 98 = 0 ∧ (cmdOf 0x35 .running decompressBody).f 97 96 = 0 ∧
    (cmdOf 0x35 .running decompressBody).hostBytes frame0 10 = frame0 ∧
    (match atDecompress.readDicts 0 none ((cmdOf 0x35 .running decompressBody).dictIds (frameDicts 11 frame0)) with
      | (some l, t) => (match decodeInput (dictsOf l 0) false 100 frame0 with
        | .ok d => d.bytes == [0x61] && (t.readWindow 0 0 d.far).1 &&
          (((t.readWindow 0 0 d.far).2.countUnit 0 (.ok d)).putOut (cmdOf 0x35 .running decompressBody) false 0 d.bytes).1
        | .error _ => false)
      | (none, _) => false) = true := by decide +kernel
theorem test_EngineCommandsDoTheirWork_compress : (atUnit 0x34 .compress compressBody).admitting 1 0x34 = none ∧
    (atUnit 0x34 .compress compressBody).atWork 1 0x34 = some (cmdOf 0x34 .running compressBody) ∧
    (cmdOf 0x34 .running compressBody).f 104 104 = 0 ∧ (cmdOf 0x34 .running compressBody).f 95 64 = 0 ∧
    ((atUnit 0x34 .compress compressBody).readDicts 0 none [0]).1.isSome = true := by decide +kernel
theorem test_EngineCommandsDoTheirWork_select : (atUnit 0x38 .topk topkBody).admitting 1 0x38 = none ∧
    ((atUnit 0x38 .topk topkBody).atWork 1 0x38).isSome = true ∧ (cmdOf 0x38 .running topkBody).topMode ≠ 2 ∧
    (atUnit 0x39 .argmax argmaxBody).admitting 1 0x39 = none ∧ ((atUnit 0x39 .argmax argmaxBody).atWork 1 0x39).isSome = true ∧
    (atUnit 0x3C .matchK matchBody).admitting 1 0x3C = none ∧
    ((atUnit 0x3C .matchK matchBody).atWork 1 0x3C).isSome = true ∧
    (atUnit 0x38 .topk topkBody).topMerges (cmdOf 0x38 .running topkBody) = true := by decide +kernel

/-- A MATCH at work with its automaton. -/
def atMatch : State := withAuto (atUnit 0x3C .matchK matchBody)

theorem test_EngineCommandsDoTheirWork_match : ((atMatch.autoOf 0 ((cmdOf 0x3C .running matchBody).f 95 64)).isSome &&
    (match atMatch.matchStrings (cmdOf 0x3C .running matchBody) with
      | (some ds, t) => ds.all fun d => t.stringCheck 0 d = .ok
      | (none, _) => false)) = true := by decide +kernel
theorem test_EngineCommandsDoTheirWork_badString : atMatch.stringCheck 0 (leBytes 16 (2 ^ 64 - 1)) ≠ .ok := by decide +kernel

/-- A lane with a DECOMPRESS at work and another item behind it, an edge after its turn began. -/
def laneBusy : State := { atDecompress.setEngine .chipD 0 [(4096, 5), (4096, 6)] with laneHeads := [(0, (4096, 5))] }

theorem test_LanesAndDictionaries_lane : laneBusy.engine .chipD 0 = (4096, 5) :: (4096, 6) :: [] ∧
    ((laneBusy.flow? (laneBusy.div.flowPart 4096) 4096).bind fun fl => fl.running.find? (·.seq == 5)).map (·.work) =
      some (.cmd 1) ∧ laneBusy.cmd? 1 = some (cmdOf 0x35 .running decompressBody) ∧
    (cmdOf 0x35 .running decompressBody).f 97 96 = 0 ∧ look laneBusy.laneHeads 0 = some (4096, 5) ∧
    atDecompress.engine .chipD 0 = [(4096, 5)] := by decide +kernel
theorem test_LanesAndDictionaries_load : goes (live.arrive (wr Ob.DICT_LOAD 12 (9 * 2 ^ 32 + 0x61 * 2 ^ 64)) (isKey Ob.DICT_LOAD))
    (fun _ v _ => leAt v 4 4 = 9 && v.length = 12) = true := by decide +kernel

/-- The booted module with dictionary 9 of partition 0. -/
def dicted : State := live.setPart 0 { live.part 0 with dicts := [(9, { bytes := [0x61], da := 0 })] }

theorem test_LanesAndDictionaries_unload : goes (dicted.arrive (wr Ob.DICT_UNLOAD 8 (9 * 2 ^ 32)) (isKey Ob.DICT_UNLOAD))
    (fun w v t => w.isHost = false && bitsOf (leNat v) 7 0 ≤ 1 && bitsOf (leNat v) 31 8 = 0 &&
      (look (t.part (bitsOf (leNat v) 7 0)).dicts (bitsOf (leNat v) 63 32)).isSome) = true := by decide +kernel
theorem test_LanesAndDictionaries_edge : ((live.setPart 0 { live.part 0 with dictUnload := [9] }).part 0).dictUnload = [9] := by
  decide +kernel

/-! ### Sessions, blocks and events -/

/-- A confirmed session of M with an empty key, and the booted module with it. -/
def session0 : Session :=
  { id := 1, path := .m, slot := 0, ks := [], confirmed := true, since := 0, lastCtr := 0, lastTag := [], cached := none,
    eventCtr := 0, sub := none }
def inSession (v : Session) : State := { live with mgmt := { live.mgmt with sessions := [v] } }

/-- A message of M in that session, with its tag. -/
def tagged (kind op ctr : Nat) (payload : Bytes) : Bytes :=
  let b := (buildBop kind op 0 1 1 ctr [] payload).take (16 + payload.length)
  b ++ bopTag [] 1 b
def reqS (kind op ctr : Nat) (payload : Bytes) : BopMsg := .m (0xFE80 * 2 ^ 112 + 1) 50411 false (tagged kind op ctr payload)

theorem test_SessionRequestsCarryTheirTag : served ((inSession session0).intake (reqS 1 0x01 1 []) (· = 0x01))
    (fun _ x _ => x.session = 1) = true := by decide +kernel
theorem test_SessionsAndBlocks_init : served (live.intake (req 0x01 []) (· = 0x01)) (fun _ _ _ => true) = true ∧
    served (live.intake (req 0x02 (List.replicate 20 0)) (· = 0x02)) (fun _ _ _ => true) = true := by decide +kernel
theorem test_SessionsAndBlocks_confirm : served ((inSession { session0 with confirmed := false }).intake (reqS 1 0x03 1 []) (· = 0x03))
    (fun _ x t => badRequest x = false && (t.session? x.session).isSome) = true := by decide +kernel
theorem test_SessionsAndBlocks_close : served ((inSession session0).intake (reqS 1 0x04 1 []) (· = 0x04)) (fun _ _ _ => true) = true := by
  decide +kernel
theorem test_SessionsAndBlocks_timeouts : (inSession { session0 with confirmed := false }).session? 1 =
      some { session0 with confirmed := false } ∧ 4000000 ≤ (inSession session0).since 0 ∧
    (inSession session0).session? 1 = some session0 ∧
    (({ inSession session0 with ticks := { live.ticks with count := 2 ^ 31 } } : State).session? 1 = some session0) ∧
    ({ inSession session0 with ticks := { live.ticks with count := 2 ^ 31 } } : State).mgmt.idle ≤
      ({ inSession session0 with ticks := { live.ticks with count := 2 ^ 31 } } : State).since 0 := by decide +kernel
theorem test_SessionsAndBlocks_lock : look ({ live with mgmt := { live.mgmt with locks := [(0, 0)] } } : State).mgmt.locks 0 = some 0 ∧
    4000000 ≤ live.since 0 := by decide +kernel

/-- The module with an open block of M, for the object of DICT_LOAD. -/
def withBlock : State :=
  { live with mgmt := { live.mgmt with blocks := [(65536, { idx := Ob.DICT_LOAD / 256, sub := Ob.DICT_LOAD % 256, total := 4, bytes := [] })] } }

theorem test_SessionsAndBlocks_block : served (live.intake (req 0x18 (leBytes 2 (Ob.DICT_LOAD / 256) ++ leBytes 2 (Ob.DICT_LOAD % 256) ++
      leBytes 4 4)) (· = 0x18)) (fun _ _ _ => true) = true ∧
    served (withBlock.intake (req 0x19 (leBytes 4 0 ++ leBytes 4 7)) (· = 0x19)) (fun _ _ _ => true) = true ∧
    served (withBlock.intake (req 0x1B []) (· = 0x1B)) (fun _ _ _ => true) = true := by decide +kernel
theorem test_SessionsAndBlocks_commit :
    (look withBlock.mgmt.blocks (blockHolder .m (parseBop (withBlock.msgBytes (req 0x1A (leBytes 4 0)))).session)).isSome = true ∧
    (parseBop (withBlock.msgBytes (req 0x1A (leBytes 4 0)))).op = 0x1A := by decide +kernel

/-- The module with a complete block of twelve bytes, and the request that commits it. -/
def fullBlock : State :=
  { live with mgmt := { live.mgmt with
    blocks := [(65536, { idx := Ob.DICT_LOAD / 256, sub := Ob.DICT_LOAD % 256, total := 12, bytes := List.replicate 12 1 })] } }
def commit0 : BopMsg := req 0x1A ((sha256 (List.replicate 12 1)).take 4)

theorem test_SessionsAndBlocks_committed :
    (look fullBlock.mgmt.blocks (blockHolder .m (parseBop (fullBlock.msgBytes commit0)).session)).isSome = true ∧
    goes (fullBlock.arrive (.bop commit0) (fun _ _ => true)) (fun _ v _ => v = List.replicate 12 1) = true := by decide +kernel
theorem test_SessionsAndBlocks_noBlock :
    (look live.mgmt.blocks (blockHolder .m (parseBop (live.msgBytes (req 0x1A (leBytes 4 0)))).session)).isSome = false ∧
    served (live.intake (req 0x1A (leBytes 4 0)) (· = 0x1A)) (fun _ _ _ => true) = true := by decide +kernel

/-- The module with a message in PA's mailbox. -/
def boxed (b : Bytes) : State :=
  let s := live.setPort 0 { livePort with mboxReq := b, mboxReqLen := b.length, mboxBusy := true }
  { s with mgmt := { s.mgmt with mailboxes := [.mbox 0] } }
def unknownOp : Bytes := buildBop 1 0x7F 0 0 1 0 [] []

theorem test_SessionsAndBlocks_malformed : live.hears (.m 0 0 false []) = true ∧ live.malformed (.m 0 0 false []) = true ∧
    (boxed []).hears (.mbox 0) = true ∧ (boxed []).malformed (.mbox 0) = true ∧
    ((boxed []).takeMessage (.mbox 0)).isSome = true := by decide +kernel
theorem test_SessionsAndBlocks_unknown : live.hears (req 0x7F []) = true ∧ live.malformed (req 0x7F []) = false ∧
    bopOps.contains (parseBop unknownOp).op = false ∧ (parseBop unknownOp).kind = 1 ∧ (parseBop unknownOp).session = 0 ∧
    frameOk (0xFE80 * 2 ^ 112 + 1) false (parseBop unknownOp).op = true := by decide +kernel
theorem test_SessionsAndBlocks_unknownBoxed : (boxed unknownOp).hears (.mbox 0) = true ∧ (boxed unknownOp).malformed (.mbox 0) = false ∧
    parseBop ((boxed unknownOp).msgBytes (.mbox 0)) = parseBop unknownOp ∧ ((boxed unknownOp).takeMessage (.mbox 0)).isSome = true := by
  decide +kernel

/-- A message of PB's mailbox waits in front, so M's unknown request joins it. -/
def queueing : State := { live with mgmt := { live.mgmt with mailboxes := [.mbox 1] } }

theorem test_SessionsAndBlocks_order : queueing.mgmt.mailboxes = .mbox 1 :: [] ∧ req 0x7F [] ≠ .mbox 1 ∧ onM (req 0x7F []) = true ∧
    queueing.mgmt.mailboxes.contains (req 0x7F []) = false ∧ (live.takeMessage (req 0x7F [])).isSome = true := by decide +kernel
/-- Sixteen messages of M wait, and the seventeenth is discarded. -/
theorem test_SessionsAndBlocks_full :
    (({ live with mgmt := { live.mgmt with mailboxes := List.replicate 16 (req 0x7F []) } } : State).lineUp (req 0x01 [])).get
      Ob.BOP_QUEUE_DROPS = 1 := by decide +kernel

/-! ### Reads, the store and events -/

/-- A READ of VENDOR_ID. -/
def readVendor : BopMsg :=
  req 0x10 (leBytes 2 (Ob.VENDOR_ID / 256) ++ leBytes 2 (Ob.VENDOR_ID % 256) ++ leBytes 8 0)

theorem test_ReadsStoresAndEvents_read : served (live.intake readVendor (· = 0x10)) (fun w x t =>
    !w.rom && (odFind (bopTarget x).1 (bopTarget x).2).isSome && (bopTarget x).2 ≠ 0 &&
    t.mayRead w.who (bopTarget x).1 (bopTarget x).2 == .ok &&
    (t.objectBytes w.who ((bopTarget x).1 * 256 + (bopTarget x).2)).1.1 == .ok && leAt x.payload 4 4 == 0) = true := by decide +kernel
/-- BRAKE_DUTY has no row of its own. -/
theorem test_ReadsStoresAndEvents_write : goes (live.arrive (wr Ob.BRAKE_DUTY 1 4) unowned) (fun _ v _ => v = [4]) = true ∧
    (match wr Ob.BRAKE_DUTY 1 4 with | .bop m => (parseBop (live.msgBytes m)).op | _ => 0) = 0x11 := by decide +kernel
theorem test_ReadsStoresAndEvents_store : served (live.intake (req 0x20 (leBytes 4 0)) (· = 0x20)) (fun _ _ _ => true) = true ∧
    served (live.intake (req 0x21 (leBytes 4 0)) (· = 0x21)) (fun _ _ _ => true) = true := by decide +kernel
theorem test_ReadsStoresAndEvents_subscribe : served ((inSession session0).intake (reqS 1 0x30 1 (leBytes 4 3)) (· = 0x30))
    (fun _ x t => (t.session? x.session).isSome) = true := by decide +kernel

def occurrence0 : Occurrence := { cause := 3, part := 0, detail := 9, tick := 0 }
def event0 (n : Nat) : EventRec :=
  { number := 1, session := 1, cause := 3, part := 0, count := 1, detail := 9, tick := 0, sent := 0, resends := n }
def eventful (n : Nat) : State := { live with mgmt := { live.mgmt with occurred := [occurrence0], events := [event0 n] } }

theorem test_ReadsStoresAndEvents_event : (eventful 0).mgmt.occurred.find? (fun o => o.cause == 3 && o.part == 0 && o.detail == 9) =
      some occurrence0 ∧ bitOf 7 occurrence0.cause = false := by decide +kernel
theorem test_ReadsStoresAndEvents_retry : (eventful 8).mgmt.events.find? (·.number == 1) = some (event0 8) ∧
    400000 ≤ (eventful 8).since (event0 8).sent ∧ 8 ≤ (event0 8).resends ∧
    (eventful 7).mgmt.events.find? (·.number == 1) = some (event0 7) ∧ (event0 7).resends < 8 := by decide +kernel
theorem test_ReadsStoresAndEvents_ack : (inSession session0).hears (reqS 4 0x32 0 []) = true ∧
    (inSession session0).malformed (reqS 4 0x32 0 []) = false ∧ (parseBop (tagged 4 0x32 0 [])).op = 0x32 ∧
    (parseBop (tagged 4 0x32 0 [])).kind = 4 ∧ frameOk (0xFE80 * 2 ^ 112 + 1) false 0x32 = true ∧
    (inSession session0).session? (parseBop (tagged 4 0x32 0 [])).session = some session0 ∧
    bopTag session0.ks 1 ((parseBop (tagged 4 0x32 0 [])).header ++ (parseBop (tagged 4 0x32 0 [])).payload) =
      (parseBop (tagged 4 0x32 0 [])).tag := by decide +kernel
/-- A session that subscribes to cause 2 only, so it does not hear cause 3. -/
theorem test_ReadsStoresAndEvents_deaf :
    ({ session0 with sub := some { mask := 4, src := 0, srcPort := 0 } } : Session).sub = some { mask := 4, src := 0, srcPort := 0 } ∧
    bitOf 4 occurrence0.cause = false := by decide +kernel
theorem test_ReadsStoresAndEvents_bus : (live.put Ob.PLCA_STATUS 1).get Ob.PLCA_STATUS = 1 ∧ live.clk.xoOk = true ∧
    live.mgmt.role = 0 ∧ (live.put Ob.PLCA_NODE_ID 2).get Ob.PLCA_NODE_ID ≠ 255 ∧ live.boot.mode ≠ .off ∧
    ({ live.mgmt with role := 1 } : Mgmt).role = 1 := by decide +kernel

/-! ### Objects, division and security -/

/-- The body of a ring's access to the object of a key. -/
def odBody (k : Nat) : Nat := k / 256 + k % 256 * 2 ^ 16

theorem test_ObjectsAnswerTheirWriters_read :
    ((withCmd 0x50 .fetched (odBody Ob.VENDOR_ID + 2 * 2 ^ 192)).control 1 0x50) =
      some (cmdOf 0x50 .fetched (odBody Ob.VENDOR_ID + 2 * 2 ^ 192)) ∧
    live.odReadCheck (cmdOf 0x50 .fetched (odBody Ob.VENDOR_ID + 2 * 2 ^ 192)) = .ok ∧
    live.mayRead .a (Ob.VENDOR_ID / 256) (Ob.VENDOR_ID % 256) = .ok ∧ hostPrincipal 0 = .a ∧
    (live.objectBytes .a Ob.VENDOR_ID).1.1 = .ok ∧ (cmdOf 0x50 .fetched (odBody Ob.VENDOR_ID + 2 * 2 ^ 192)).f 127 96 = 0 := by
  decide +kernel
theorem test_ObjectsAnswerTheirWriters_write :
    goes ((withCmd 0x51 .fetched (odBody Ob.FLOW_PEEK_SEL + 2 ^ 24 + 4 * 2 ^ 32 + 9 * 2 ^ 192)).arrive (.ring 1 []) unowned)
      (fun _ v _ => v = leBytes 4 9) = true := by decide +kernel
theorem test_ObjectsAnswerTheirWriters_holders :
    goes (live.arrive (wr Ob.TELEMETRY_PERIOD 4 16) (isKey Ob.TELEMETRY_PERIOD)) (fun _ v _ => leNat v = 16) = true ∧
    goes (live.arrive (wr Ob.DEBUG_UART_ENABLE 1 1) (isKey Ob.DEBUG_UART_ENABLE)) (fun _ v _ => leNat v = 1) = true ∧
    goes (live.arrive (wr Ob.ITEM_POOL_P0 2 9) (fun k v => isKey Ob.ITEM_POOL_P0 k v || isKey Ob.ITEM_POOL_P1 k v ||
      isKey Ob.YARD_ITEM_MIB k v)) (fun _ v _ => leNat v = 9) = true := by decide +kernel
theorem test_ObjectsAnswerTheirWriters_key : goes (live.arrive (wr Ob.MGMT_KEY0 32 1) (fun k _ => (keySlot? k.1 k.2).isSome))
    (fun w _ _ => keySlot? w.idx w.sub = some 0) = true := by decide +kernel
/-- An APPLY whose pending division gives P0 no region for its item pool. -/
theorem test_ObjectsAnswerTheirWriters_badApply :
    goes (live.arrive (wr Ob.APPLY 1 1) (isKey Ob.APPLY))
      (fun _ v t => leNat v = 1 && t.applying == false && t.applyOk == false) = true := by decide +kernel

/-- The module with the pending division of ten stands each, and item pools of 16 regions. -/
def halves : State := ((live.strapDivision 10).put Ob.ITEM_POOL_P0 16).put Ob.ITEM_POOL_P1 16

theorem test_ObjectsAnswerTheirWriters_apply : goes (halves.arrive (wr Ob.APPLY 1 1) (isKey Ob.APPLY))
    (fun _ v t => leNat v = 1 && t.applying == false && t.applyOk) = true := by decide +kernel
theorem test_ObjectsAnswerTheirWriters_secondApply : goes ((live.await .apply 0 .nobody).arrive (wr Ob.APPLY 1 1) (isKey Ob.APPLY))
    (fun _ v t => leNat v = 1 && t.applying) = true := by decide +kernel
theorem test_ObjectsAnswerTheirWriters_partReset : goes (live.arrive (wr Ob.PART_RESET 1 1) (isKey Ob.PART_RESET))
      (fun w v t => leNat v ≤ 1 && (w.who == .m || (!t.div.shared && w.part = leNat v)) &&
        !(t.resets.any fun m => 2 ≤ m.reach || m.part == leNat v)) = true ∧
    goes (({ live with resets := [{ cause := 0x34, reach := 1, part := 1 }] } : State).arrive (wr Ob.PART_RESET 1 1) (isKey Ob.PART_RESET))
      (fun w v t => leNat v ≤ 1 && (w.who == .m || (!t.div.shared && w.part = leNat v)) &&
        (t.resets.any fun m => 2 ≤ m.reach || m.part == leNat v)) = true ∧
    goes (live.arrive (wr Ob.PART_RESET 1 2) (isKey Ob.PART_RESET)) (fun _ v _ => 1 < leNat v) = true := by decide +kernel

theorem test_SecurityRequestsAreChecked_writes :
    goes (live.arrive (wr Ob.SVN_COMMIT 1 0) (isKey Ob.SVN_COMMIT)) (fun _ v _ => leNat v = 0) = true ∧
    goes (live.arrive (wr Ob.DEBUG_UNLOCK 1 1) (isKey Ob.DEBUG_UNLOCK)) (fun _ v _ => leNat v = 1) = true ∧
    goes (live.arrive (wr Ob.ATTEST_NONCE 32 1) (isKey Ob.ATTEST_NONCE)) (fun _ v _ => leNat v = 1) = true := by decide +kernel

/-- A debug token of zeros, the block that holds it, and the commit that carries its digest. -/
def token : Bytes := List.replicate 7888 0
def tokenBlock : Block := { idx := Ob.DEBUG_TOKEN / 256, sub := Ob.DEBUG_TOKEN % 256, total := 7888, bytes := token }
def tokened : State := { live with mgmt := { live.mgmt with blocks := [(65536, tokenBlock)] } }
def tokenSum : Bytes := (List.range 4).map fun i => (sha256 token).getD i 0
def tokenCommit : Bytes := buildBop 1 0x1A 0 0 1 0 [] tokenSum

theorem tokenSum_eq : tokenSum = (sha256 token).take 4 := by
  unfold tokenSum
  apply List.ext_getElem
  · simp [sha256_length]
  · intro i h1 h2
    simp at h1
    simp [List.getD, sha256_length, Nat.lt_trans h1]

theorem tokenCommit_payload : (parseBop tokenCommit).payload = tokenSum := rfl

theorem tokenBlock_ready : tokenBlock.ready (parseBop tokenCommit) = true := by
  have h : tokenBlock.bytes.length = tokenBlock.total := List.length_replicate
  rw [Block.ready, tokenCommit_payload, tokenSum_eq, h]
  simp [tokenBlock]

theorem tokened_intake : tokened.intake (req 0x1A tokenSum) (fun o => o = 0x11 || o = 0x1A) =
    .go (tokened.pathWriter .m (0xFE80 * 2 ^ 112 + 1) 50411 (parseBop tokenCommit) [] none) (parseBop tokenCommit) tokened :=
  State.intake_bare rfl (by decide +kernel) (by decide +kernel) (by decide +kernel) (by decide +kernel) rfl
    (by decide +kernel) (by decide +kernel) rfl (by decide +kernel) (by decide +kernel)

theorem test_SecurityRequestsAreChecked_token :
    goes (tokened.arrive (.bop (req 0x1A tokenSum)) (isKey Ob.DEBUG_TOKEN)) (fun _ _ _ => true) = true := by
  rw [State.arrive_block (b := tokenBlock) tokened_intake rfl (by decide +kernel) rfl rfl (by decide +kernel) tokenBlock_ready]
  decide +kernel

/-- A provisioned module, and its transition to DEPLOYED with a key of one bit. -/
def provisioned : State := { live with nv := { live.nv with lc := 1 } }

theorem test_SecurityRequestsAreChecked_transition :
    goes (live.arrive (wr Ob.LC_REQUEST 4 3) (isKey Ob.LC_REQUEST)) (fun w v t => t.transitionCheck w v ≠ .ok) = true ∧
    goes (provisioned.arrive (wr Ob.LC_REQUEST 68 (2 + 2 ^ 32)) (isKey Ob.LC_REQUEST))
      (fun w v t => t.transitionCheck w v = .ok) = true ∧ transitionLen 1 2 = some 64 := by decide +kernel

/-- An image whose signed part is its header, with a signature of zeros. -/
def fwImage : Bytes :=
  leBytes 4 0x57464D52 ++ leBytes 4 1 ++ leBytes 4 (128 + 7888) ++ leBytes 4 128 ++ leBytes 8 1 ++ leBytes 8 3 ++
    leBytes 16 (64 * 2 ^ 32 + 64 * 2 ^ 64 + 64 * 2 ^ 96) ++ List.replicate (80 + 7888) 0

/-- It is accepted wherever its signature is. -/
theorem test_SecurityRequestsAreChecked_image (h : ∀ a b c, Config.slhVerify a b c = true)
    (k : leBytes 32 Config.vendorKeyHash = sha256 (List.replicate 32 0)) : live.nv.checkImage fwImage = .ok := by
  simp only [Nv.checkImage, vendorSigned, h, k]; decide +kernel
theorem test_SecurityRequestsAreChecked_badImage : live.boot.writing = none ∧ live.nv.checkImage [] ≠ .ok := by
  refine ⟨by decide +kernel, ?_⟩
  simp only [Nv.checkImage, firstFail]; decide +kernel
theorem test_SecurityRequestsAreChecked_written : ({ live with boot := { live.boot with writing := some [1] } } : State).boot.writing =
    some [1] ∧ live.boot.mode = .running := by decide +kernel
theorem test_SecurityRequestsAreChecked_attest : (withCmd 0x60 .fetched (18128 * 2 ^ 320)).control 1 0x60 =
    some (cmdOf 0x60 .fetched (18128 * 2 ^ 320)) := by decide +kernel

/-- A module released from reset that has not booted. -/
def released : State := { State.reset with boot := { Boot.reset with released := true } }

theorem test_BootRunsOrRecovers_off : State.reset.boot.released = false ∧ live.boot.mode ≠ .off := by decide +kernel
theorem test_BootRunsOrRecovers_released : released.boot.released = true ∧ released.boot.mode = .off ∧ released.nv.lc ≠ 4 ∧
    ({ released.nv with lc := 4 } : Nv).lc = 4 := by decide +kernel
theorem test_BootRunsOrRecovers_recovery : ((strapOf (released.get Ob.CFG_CODE)).recovery = true ∨ released.nv.committed = false) ∧
    (strapOf ((released.put Ob.CFG_CODE 1).get Ob.CFG_CODE)).recovery = false ∧ ({ released.nv with committed := true } : Nv).committed = true := by
  decide +kernel

/-! ### The scaler -/

theorem test_ScalerMetersAndRecords_sample : live.scl.powered = true ∧ live.scl.sub < 4000 ∧ live.scl.due = false ∧
    ({ live.scl with due := true } : Scaler).due = true := by decide +kernel

/-- A scaler that stands at its reset, its time, and a record it has signed. -/
def metered : State := { live with scl := { live.scl with scalerS := 10, signed := [(0, [1])] } }

theorem test_ScalerMetersAndRecords_commit : metered.scl.signed = (0, [1]) :: [] ∧ metered.scl.powered = true ∧
    metered.scl.lastCheckpoint + 10 ≤ metered.scl.scalerS := by decide +kernel

/-- The scaler calibrated with gains of 1. -/
def calibrated : Scaler := { live.scl with cal := leBytes 24 (0x3F800000 + 0x3F800000 * 2 ^ 64) }

theorem test_ScalerMetersAndRecords_negative :
    ((calibrated.closeDue.calibrate 1 (-1) 25).1.mul (calibrated.closeDue.calibrate 1 (-1) 25).2).n < 0 ∧
    fullV.le (calibrated.closeDue.calibrate 1 (-1) 25).1 = false ∧ fullI.le (calibrated.closeDue.calibrate 1 (-1) 25).2 = false := by
  decide +kernel
theorem test_ScalerMetersAndRecords_power : State.reset.scl.powered = false ∧
    ({ live with scl := { live.scl with powered := false, checkpoint := some (live.scl.snap true) } } : State).scl.checkpoint =
      some (live.scl.snap true) := by decide +kernel

/-- A work frame numbered 1 of boot 0, its CRC right. -/
def workFrame0 : Bytes := let b := leBytes 140 1; b ++ leBytes 4 (crc32c b)
def framed : State := { live with scl := { live.scl with lastFrame := some (0, 0) } }

theorem test_ScalerLinksAndService_send : live.boot.mode = .running ∧ live.clk.asleep = false ∧ 4000 ≤ live.since live.workAt := by
  decide +kernel
theorem test_ScalerLinksAndService_frame : framed.scl.powered = true ∧ workFrame0.length = 144 ∧
    leAt workFrame0 140 4 = crc32c (workFrame0.take 140) ∧ framed.scl.lastFrame = some (leAt workFrame0 2 4, 0) ∧
    leAt workFrame0 0 2 = (0 + 1) % 65536 ∧ ([] : Bytes).length ≠ 144 := by decide +kernel
theorem test_ScalerLinksAndService_status : metered.scl.lastStatus < metered.scl.scalerS ∧
    readLink [] = none ∧ readLink (linkFrame 1 (List.replicate 69 0)) = some (1, List.replicate 69 0) := by decide +kernel
/-- A frame of 17,344 bytes on the record link. -/
def recordBody : Bytes := List.replicate 17344 0

theorem test_ScalerLinksAndService_record : readLink (linkFrame 2 recordBody) = some (2, recordBody) ∧ recordBody.length = 17344 := by
  have hl : recordBody.length = 17344 := List.length_replicate ..
  refine ⟨?_, hl⟩
  generalize recordBody = b at hl
  have h2 : (linkFrame 2 b).length = 17349 := by simp [linkFrame, leBytes_length, hl]
  have h3 : (linkFrame 2 b).take 17345 = leBytes 1 2 ++ b := by
    simp only [linkFrame]
    rw [List.take_append_of_le_length (by simp [leBytes_length, hl]), List.take_of_length_le (by simp [leBytes_length, hl])]
  have h4 : leAt (linkFrame 2 b) 17345 4 = crc32c (leBytes 1 2 ++ b) := by
    simp only [leAt, sliceB, linkFrame]
    rw [List.drop_append_of_le_length (by simp [leBytes_length, hl]), List.drop_of_length_le (by simp [leBytes_length, hl])]
    rw [List.nil_append, List.take_of_length_le (by simp [leBytes_length]), leBytes_length]
    simp only [Nat.sub_self, List.replicate_zero, List.append_nil, leNat_leBytes]
    exact Nat.mod_eq_of_lt (crc32c_lt _)
  simp only [readLink, h2, h3]
  simp only [show ¬ (17349 < 5) by decide, if_false]
  rw [show 17349 - 4 = 17345 from rfl, h4, if_pos rfl]
  rfl

/-- The scaler with its seal open. -/
def unsealed : State := { live with scl := { live.scl with sealOpen := true } }

theorem test_ScalerLinksAndService_service : unsealed.scl.powered = true ∧ unsealed.scl.sealOpen = true ∧
    ([7] : Bytes).length = 1 ∧ leNat [7] ≠ unsealed.scl.intervalMin ∧ live.scl.sealOpen = false ∧
    (live.scl.value (Ob.SCL_INTERVAL_MIN / 256) (Ob.SCL_INTERVAL_MIN % 256)).isSome = true ∧ live.pwr.fruRead = false := by decide +kernel
theorem test_ScalerLinksAndService_sealed : lands (exec (.serviceWrite 0 1 [7]) live) (fun t => t.scl = live.scl) = true := by
  decide +kernel

/-! ### Resets -/

theorem test_ResetsJoinAndRelease_sources : live.boot.released = true ∧ (({ live.clk with pllLost := true } : Clocks).pllLost = true) ∧
    (let c : Clocks := { live.clk with hold := true }; c.hold = true ∧ (c.xoOk || c.ioscOk) = true) := by decide +kernel
theorem test_ResetsJoinAndRelease_requests :
    goes (live.arrive (wr Ob.RESET_REQUEST 1 1) (fun k v => isKey Ob.RESET_REQUEST k v && leNat v = 1)) (fun _ _ _ => true) = true ∧
    goes (live.arrive (wr Ob.RESET_REQUEST 1 2) (fun k v => isKey Ob.RESET_REQUEST k v && leNat v = 2)) (fun _ _ _ => true) = true := by
  decide +kernel

/-- The module in the POR that power-on begins, and one whose core reset of P0 has nothing left to wait for. -/
def inPor : State := live.sysReset 0x01 4
def leaving : State := { live with resets := [{ cause := 0x20, reach := 1, part := 0 }] }

theorem test_ResetsJoinAndRelease_por : (inPor.resets.any (3 ≤ ·.reach)) = true ∧ inPor.pwr.closed = true ∧
    ({ inPor with ports := #v[{ HostPort.reset with perst := false }, { HostPort.reset with perst := false }] } : State).pwr.closed =
      true ∧ ({ HostPort.reset with perst := false } : HostPort).perst = false ∧ (inPor.resets.any (·.reach == 4)) = true := by decide +kernel
theorem test_ResetsJoinAndRelease_part : leaving.resets = [{ cause := 0x20, reach := 1, part := 0 }] ∧ leaving.wipes = [] ∧
    leaving.levelHeld 0 = false ∧ leaving.mgmt.waiters = [] := by decide +kernel
theorem test_ResetsJoinAndRelease_block : goes (live.arrive (wr Ob.BLOCK_RESET 4 2) (isKey Ob.BLOCK_RESET))
      (fun w v _ => blockUnit (leNat v) = some (.me, 0) && w.who == .m) = true ∧
    goes (live.arrive (wr Ob.BLOCK_RESET 4 0) (isKey Ob.BLOCK_RESET)) (fun _ v _ => blockUnit (leNat v) = none) = true := by decide +kernel

/-- A BLOCK reset of matrix engine 0 written at tick 0. -/
def block0 : BlockReset := { unit := unitCode .me 0, since := 0, reply := .nobody }

theorem test_ResetsJoinAndRelease_blockEnds :
    ({ live with blockResets := [block0] } : State).blockOf 2048 = some block0 ∧ live.unitIdle (unitKind 2048) (2048 % 2048) = true ∧
    ({ atUnit 0x40 .matmul 0 with blockResets := [block0] } : State).blockOf 2048 = some block0 ∧
    (atUnit 0x40 .matmul 0).unitIdle (unitKind 2048) (2048 % 2048) = false ∧
    (atUnit 0x40 .matmul 0).get Ob.QUIESCE_TICKS ≤ (atUnit 0x40 .matmul 0).since block0.since := by decide +kernel

/-! ### Clocks and power -/

/-- The booted module with other clocks. -/
def clockedBy (c : Clocks) : State := { live with clk := c }

theorem test_ClocksQualifySwitchAndGate_sources :
    (clockedBy { live.clk with xoOk := false }).clk.xoOk = false ∧ (clockedBy { live.clk with hold := true, xoOk := false }).clk.hold = true ∧
    (clockedBy { live.clk with ioscOk := false }).clk.ioscOk = false ∧ live.clk.asleep = false ∧ live.clk.hold = false ∧
    live.clocked = true ∧ live.clk.xoOk = true ∧ live.clk.ioscOk = true ∧ live.clk.refXo = true := by decide +kernel
theorem test_ClocksQualifySwitchAndGate_trips : live.boot.released = true ∧ (clockedBy { live.clk with xoOk := false }).clk.ioscOk = true ∧
    (clockedBy { live.clk with pllLost := true }).clk.pllLost = true := by decide +kernel
theorem test_ClocksQualifySwitchAndGate_objects :
    goes (live.arrive (wr Ob.MCLK_DIV 1 2) (fun k v => isKey Ob.MCLK_DIV k v || isKey Ob.PCLK_DIV k v)) (fun _ v _ => leNat v = 2) = true ∧
    goes (live.arrive (wr Ob.GATE_RUN 8 1) (fun k v => isKey Ob.GATE_RUN k v || isKey Ob.GATE_SLEEP k v)) (fun _ v _ => leNat v = 1) =
      true ∧ goes (live.arrive (wr Ob.POWER_MODE 1 0) (isMode 0)) (fun _ _ _ => true) = true ∧
    goes (live.arrive (wr Ob.POWER_MODE 1 1) (isMode 1)) (fun _ _ _ => true) = true ∧
    goes (live.arrive (wr Ob.POWER_MODE 1 2) (isMode 2)) (fun _ _ _ => true) = true := by decide +kernel
theorem test_ClocksQualifySwitchAndGate_gating :
    (clockedBy { live.clk with gating := [(2048, 9)] }).clk.gating.find? (·.1 == 2048) = some (2048, 9) ∧
    (clockedBy { live.clk with gating := [(2048, 9)] }).unitIdle (unitKind 2048) (2048 % 2048) = true := by decide +kernel

/-- A module that drains before DEEP_SLEEP since tick 0, idle or with an item running. -/
def drainingIdle : State := clockedBy { live.clk with draining := some 0 }
def drainingBusy : State := { atUnit 0x40 .matmul 0 with clk := { live.clk with draining := some 0 } }

theorem test_ClocksQualifySwitchAndGate_sleep : drainingIdle.clk.draining.isSome = true ∧ drainingIdle.drained = true ∧
    drainingBusy.clk.draining = some 0 ∧ drainingBusy.drained = false ∧ 4000 ≤ drainingBusy.since 0 := by decide +kernel

/-- A sleeping module that the host link may wake. -/
def asleep : State := (clockedBy { live.clk with asleep := true }).put Ob.WAKE_SOURCES 4

theorem test_ClocksQualifySwitchAndGate_wake : asleep.clk.asleep = true ∧ asleep.clk.hold = false ∧ asleep.wakes 2 = true ∧
    asleep.wakes 3 = false := by decide +kernel

theorem test_PowerStaysWithinItsLimits_sample : live.boot.mode = .running ∧ live.clocked = true ∧ 1 ≤ live.pwr.capDuty ∧
    live.pwr.capDuty ≤ 16 ∧ live.powerLimit * 1000 * ((10 ^ 9 :: live.pwr.samples).take 10).length <
      ((10 ^ 9 :: live.pwr.samples).take 10).sum ∧ (live.powerLimit + 150) * 1000 < 10 ^ 9 ∧ live.pwr.closed = true ∧
    0 < (live.powerLimit + 150) * 1000 := by decide +kernel
theorem test_PowerStaysWithinItsLimits_thermal : 1 ≤ live.pwr.thermalDuty ∧ live.pwr.thermalDuty ≤ 16 ∧
    (live.readings.all fun r => r.1 + 3 ≤ r.2) = true ∧
    ((live.put Ob.TEMP_LANDING 100).readings.any fun r => r.2 ≤ r.1) = true := by decide +kernel
theorem test_PowerStaysWithinItsLimits_trip : live.pwr.standby = true ∧ live.pwr.tripped = false ∧ (20 ≤ 40 ∧ 110 ≤ 110) ∧
    ({ live.pwr with tripped := true } : Power).tripped = true ∧ live.pwr.latched = false ∧
    ({ live.pwr with latched := true } : Power).latched = true ∧ ({ live.pwr with standby := false } : Power).standby = false ∧
    ({ live.pwr with closed := false } : Power).closed = false := by decide +kernel

/-! ### Placement and hashing -/

theorem test_StandsBelongToOnePartition : live.div.split ≤ 20 ∧ 0 < 20 ∧ 19 < 20 ∧ live.div.split = 10 := by decide +kernel
theorem test_HashesMapBelowTheirModulus : 2 ^ 64 - 1 < 2 ^ 64 ∧ 1 ≤ 1 ∧ 2 ^ 48 ≤ 2 ^ 48 := by decide +kernel

/-! ### Values that the manual works out -/

/-- The worked MXFP4 block after R251: 3.1, −0.3, 0.0 and 1.2 begin 0x7E, 0x97, 0x40. -/
theorem test_mxfp4_block : (encodeVec 7 rne [.of ⟨31, 10⟩, .of ⟨-3, 10⟩, .of ⟨0, 1⟩, .of ⟨12, 10⟩]).1.take 3 = [0x7E, 0x97, 0x40] := by
  decide +kernel

/-- The worked spread page after R20 but for its rotation: of 20 stands page 5,000 has g 3 and i 1,160, and the spread space
holds 80 GiB. -/
theorem test_spread_page : ({ Division.none with split := 20, window := 1 } : Division).pagesPerVault = 16384 ∧
    ({ Division.none with split := 20, window := 1 } : Division).spreadBytes 0 = 80 * 2 ^ 30 ∧
    ({ Division.none with split := 20, window := 1 } : Division).spread 0 (5000 * 0x1000) % 2 ^ 31 = 0x7C003000 := by decide +kernel

/-- The worked record of the listing pipeline (R14): h63 to h32 give stand 12 of 20 and h31 to h0 core 10, global core 730. -/
theorem test_placement : 0x9C4100002B7E3A10 / 2 ^ 32 * 20 / 2 ^ 32 * 60 + 0x9C4100002B7E3A10 % 2 ^ 32 * 60 / 2 ^ 32 = 730 ∧
    ({ Division.none with split := 20 } : Division).place 0 1 2 =
      h64 1 2 / 2 ^ 32 * 20 / 2 ^ 32 * 60 + h64 1 2 % 2 ^ 32 * 60 / 2 ^ 32 := by decide +kernel

/-- SHA-256 of "abc" (FIPS 180-4) and the check value of CRC-32C, PRESUMED from the standards the manual names. -/
theorem test_digests : (sha256 (ascii "abc")).take 4 = [0xBA, 0x78, 0x16, 0xBF] ∧ crc32c (ascii "123456789") = 0xE3069283 := by
  decide +kernel
theorem test_PowerStaysWithinItsLimits_duty : ({ live with pwr := { live.pwr with brakeDuty := 0 } } : State).duty = 0 ∧
    ({ live with pwr := { live.pwr with brakeDuty := 0 } } : State).cmdLat (cmdOf 0x38 .running topkBody) = false := by decide +kernel

end Sys2Proof.Tests
end

section
/-!
The stands of a partition: which bits its mask holds (R22), and what a read of an object with a computed value answers.
-/
namespace Sys2Proof.Machine

/-! ### Masks that are summed bit by bit -/

theorem bitOf_eq_testBit (v i : Nat) : bitOf v i = v.testBit i := by
  rw [Nat.testBit_eq_decide_div_mod_eq]
  rfl

/-- The mask of the numbers below `k` for which `p` holds, summed in the way of `Division.standMask`. -/
def maskBelow (p : Nat → Bool) (k : Nat) : Nat :=
  (List.range k).foldl (fun m n => if p n then m + 2 ^ n else m) 0

theorem Division.standMask_eq_maskBelow (d : Division) (p : Nat) :
    d.standMask p = maskBelow (inRange (d.firstStand p, d.stands p)) 20 := rfl

@[simp] theorem maskBelow_zero (p : Nat → Bool) : maskBelow p 0 = 0 := rfl

theorem maskBelow_succ (p : Nat → Bool) (k : Nat) :
    maskBelow p (k + 1) = if p k then 2 ^ k + maskBelow p k else maskBelow p k := by
  simp [maskBelow, List.range_succ, Nat.add_comm]

theorem maskBelow_lt (p : Nat → Bool) (k : Nat) : maskBelow p k < 2 ^ k := by
  induction k with
  | zero => simp
  | succ k ih =>
    rw [maskBelow_succ, Nat.pow_succ]
    split <;> omega

theorem testBit_maskBelow (p : Nat → Bool) {n k : Nat} (h : n < k) : (maskBelow p k).testBit n = p n := by
  induction k with
  | zero => omega
  | succ k ih =>
    rw [maskBelow_succ]
    obtain hlt | rfl : n < k ∨ n = k := by omega
    · split
      · rw [Nat.testBit_two_pow_add_gt hlt, ih hlt]
      · exact ih hlt
    · have htop : (maskBelow p n).testBit n = false := Nat.testBit_lt_two_pow (maskBelow_lt p n)
      cases hp : p n <;> simp [Nat.testBit_two_pow_add_eq, htop]

/-! ### The stands of a partition (R22) -/

theorem Division.bitOf_standMask (d : Division) (p : Nat) {n : Nat} (h : n < 20) :
    bitOf (d.standMask p) n = inRange (d.firstStand p, d.stands p) n := by
  rw [bitOf_eq_testBit, d.standMask_eq_maskBelow, testBit_maskBelow _ h]

theorem Division.bitOf_standMask_zero (d : Division) {n : Nat} (h : n < 20) :
    bitOf (d.standMask 0) n = decide (n < d.split) := by
  simp [d.bitOf_standMask 0 h, inRange, Division.firstStand, Division.stands]

theorem Division.bitOf_standMask_one (d : Division) {n : Nat} (hs : d.split ≤ 20) (h : n < 20) :
    bitOf (d.standMask 1) n = decide (d.split ≤ n) := by
  have hend : d.split + (20 - d.split) = 20 := by omega
  simp [d.bitOf_standMask 1 h, inRange, Division.firstStand, Division.stands, hend, h]

/-! ### Reading an object with a computed value -/

/-- An object of a fixed width whose value is computed reads as that value, and the read changes nothing.  The
exceptions are the measurements (VIN_MV, IIN_MA) and the selections of the reader's own. -/
theorem State.objectBytes_of_computed (s : State) (who : Principal) {k v : Nat} {r : OdRow} (hsub : k % 256 ≠ 0)
    (hrow : odFind (k / 256) (k % 256) = some r) (hty : r.ty ≠ 7 ∧ r.ty ≠ 8)
    (hkey : k ∉ [Ob.VIN_MV, Ob.IIN_MA, Ob.FLOW_PEEK_SEL, Ob.STREAM_PEEK_SEL, Ob.TABLE_PEEK_SEL])
    (hval : s.computed k = some v) : s.objectBytes who k = ((.ok, leBytes (tyBytes r.ty) v), s) := by
  simp only [List.mem_cons, List.not_mem_nil, or_false, not_or] at hkey
  simp [State.objectBytes, hsub, hrow, hty, hkey, hval]

theorem odFind_PART_SPLIT : odFind (Ob.PART_SPLIT / 256) (Ob.PART_SPLIT % 256) =
    some ⟨0x2020, 1, 0x0E, 1, 1, .ro, false, .fixed true true true false, 0⟩ := rfl

theorem State.computed_PART_SPLIT (s : State) : s.computed Ob.PART_SPLIT = some s.div.split := rfl

theorem State.objectBytes_PART_SPLIT (s : State) (who : Principal) :
    s.objectBytes who Ob.PART_SPLIT = ((.ok, leBytes 1 s.div.split), s) :=
  s.objectBytes_of_computed who (by decide) odFind_PART_SPLIT (by decide) (by decide) s.computed_PART_SPLIT

/-- Settles O59: the mask of P0 holds the stands below PART_SPLIT and the mask of P1 those from it on, so that one of the
two holds each stand; the object reads the active division. -/
theorem standsBelongToOnePartition : Obligations.StandsBelongToOnePartition := by
  unfold Obligations.StandsBelongToOnePartition
  refine ⟨fun s n hs hn => ?_, State.objectBytes_PART_SPLIT⟩
  rw [s.div.bitOf_standMask_zero hn, s.div.bitOf_standMask_one hs hn]
  refine ⟨decide_eq_true_iff, decide_eq_true_iff, ?_, rfl⟩
  rw [← decide_not, decide_eq_decide, Nat.not_le]

end Sys2Proof.Machine
end

section
/-!
NOP and FENCE (R126, R127): what each does with a command the port has just fetched.
-/
namespace Sys2Proof.Machine

/-! ### What a completion leaves of the partitions -/

theorem State.Told.parts_eq {r t : State} (h : r.Told t) : t.parts = r.parts := by rw [h.1]

theorem State.Told.engines_eq {r t : State} (h : r.Told t) : t.engines = r.engines := by rw [h.1]

theorem State.Told.cores_eq {r t : State} (h : r.Told t) : t.cores = r.cores := by rw [h.1]

/-! ### A fetched NOP or FENCE -/

theorem execNop_of_fetched {s : State} {id : Nat} {c : Cmd} (hc : s.cmd? id = some c) (hop : c.opcode = 1)
    (hstage : c.stage = .fetched) :
    execNop id s = .next (s.finish id (if c.f 511 64 = 0 then .ok else .badDescriptor) 0) := by
  simp [execNop, hc, hop, hstage]

/-- SCOPE 3 and any other non-zero body bit, which R127 answers with BAD_DESCRIPTOR, are excluded. -/
theorem execFence_of_scope {s : State} {id : Nat} {c : Cmd} (hc : s.cmd? id = some c) (hop : c.opcode = 2)
    (hstage : c.stage = .fetched) (hscope : c.f 65 64 ≠ 3) (hbody : c.f 511 66 = 0) :
    execFence id s = .next (if s.fenceScope c (c.f 65 64) = [] then s.finish id .ok 0
      else s.setCmd { c with stage := .waiting, waits := s.fenceScope c (c.f 65 64),
                             waited := (s.fenceScope c (c.f 65 64)).length }) := by
  simp [execFence, hc, hop, hstage, hscope, hbody]

/-- Settles O13: a NOP does nothing but complete, and a completion leaves the partitions, engines and cores alone; a FENCE
with a legal body completes where its scope is empty and waits for its scope where it is not. -/
theorem nopAndFence : Obligations.NopAndFence := by
  unfold Obligations.NopAndFence
  constructor
  case left =>
    intro s id c hc hop hstage
    have told := s.finish_told id (if c.f 511 64 = 0 then .ok else .badDescriptor) 0
    exact ⟨_, execNop_of_fetched hc hop hstage, rfl, told.parts_eq, told.engines_eq, told.cores_eq⟩
  case right =>
    intro s id c hc hop hstage hscope hbody
    exact execFence_of_scope hc hop hstage hscope hbody

end Sys2Proof.Machine
end

section
/-!
The order in which an epoch draws its positions (R181, R182).
-/
namespace Sys2Proof.Machine

/-- SEED and EPOCH enter the index by the round keys alone, and only the branch of SHUFFLE 1 reads those. -/
theorem Epoch.index_of_unshuffled {e : Epoch} (h : e.shuffle = false) (j : Nat) : e.index j = j :=
  if_neg (Bool.eq_false_iff.mp h)

/-- Settles O39: an epoch without SHUFFLE takes the branch of R182, where the index is the position itself. -/
theorem unshuffledOrderIsPositionOrder : Obligations.UnshuffledOrderIsPositionOrder := by
  unfold Obligations.UnshuffledOrderIsPositionOrder
  intro e j hshuffle
  exact Epoch.index_of_unshuffled hshuffle j

end Sys2Proof.Machine
end

section
/-!
The ID that an operator maps a hash to (R212).
-/
namespace Sys2Proof.Machine

theorem hashId_eq (off h m : Nat) : hashId off h m = (off + (h * m) >>> 64) % 2 ^ 64 := by
  rw [Nat.shiftRight_eq_div_pow]
  rfl

theorem mul_shiftRight_lt {h m : Nat} (hh : h < 2 ^ 64) (hm : 1 ≤ m) : (h * m) >>> 64 < m := by
  rw [Nat.shiftRight_eq_div_pow]
  exact Nat.div_lt_of_lt_mul (Nat.mul_lt_mul_of_pos_right hh hm)

theorem mul_lt_two_pow_128 {h m : Nat} (hh : h < 2 ^ 64) (hm : m ≤ 2 ^ 48) : h * m < 2 ^ 128 :=
  calc h * m ≤ h * 2 ^ 48 := Nat.mul_le_mul_left h hm
    _ < 2 ^ 64 * 2 ^ 48 := Nat.mul_lt_mul_of_pos_right hh (by decide)
    _ ≤ 2 ^ 128 := by decide

theorem hashId_modulus_one {off h : Nat} (hoff : off < 2 ^ 64) (hh : h < 2 ^ 64) : hashId off h 1 = off := by
  have hzero : (h * 1) >>> 64 = 0 := Nat.lt_one_iff.mp (mul_shiftRight_lt hh le_rfl)
  rw [hashId_eq, hzero, Nat.add_zero, Nat.mod_eq_of_lt hoff]

/-- Settles O60: the hash lies below 2^64, so the high half of its product with the modulus lies below the modulus, and is
zero under a modulus of one. -/
theorem hashesMapBelowTheirModulus : Obligations.HashesMapBelowTheirModulus := by
  unfold Obligations.HashesMapBelowTheirModulus
  intro off h m hoff hh hone hm
  refine ⟨hashId_eq off h m, mul_shiftRight_lt hh hone, mul_lt_two_pow_128 hh hm, ?_⟩
  rintro rfl
  exact hashId_modulus_one hoff hh

end Sys2Proof.Machine
end

section
/-!
What every command leaves of a state: the relations of the keep lemmas, joined into one statement per command.
-/
namespace Sys2Proof.Machine

/-- What a command leaves, by the class it is in. -/
structure Leaves (i : Instr) (s t : State) : Prop where
  keeps : s.Keeps t
  scl : i.ofScaler = false → t.scl = s.scl
  memory : i.mayStore = false → t.mem = s.mem ∧ t.lbuf = s.lbuf

theorem Leaves.of_still {i : Instr} {s t : State} (h : s.Still t) : Leaves i s t :=
  ⟨h.keeps, fun _ => h.steady.2, fun _ => h.fixed.2⟩

/-- A command that may store leaves the scaler. -/
theorem Leaves.of_steady {i : Instr} {s t : State} (hi : i.mayStore = true) (h : s.Steady t) : Leaves i s t :=
  ⟨h.keeps, fun _ => h.2, fun hn => absurd (hi.symm.trans hn) Bool.noConfusion⟩

/-- An event of the scaler leaves memory. -/
theorem Leaves.of_fixed {i : Instr} {s t : State} (hi : i.ofScaler = true) (h : s.Fixed t) : Leaves i s t :=
  ⟨h.keeps, fun hn => absurd (hi.symm.trans hn) Bool.noConfusion, fun _ => h.2⟩

/-- One arm per command, each by the keep lemma of the command's own meaning. -/
theorem exec_leaves {i : Instr} {s t : State} (h : exec i s = .next t) : Leaves i s t := by
  cases i with
  | nop id => exact .of_still (execNop_still id s t h)
  | fence id => exact .of_still (execFence_still id s t h)
  | pipeLoad id image parsed => exact .of_steady rfl (execPipeLoad_steady id image parsed s t h)
  | pipeRunGraph id data => exact .of_steady rfl (execPipeRunGraph_steady id data s t h)
  | pipeRunEpoch id data => exact .of_still (execPipeRunEpoch_still id data s t h)
  | pipeStop id => exact .of_still (execPipeStop_still id s t h)
  | pipeStopEdge part => exact .of_steady rfl (execPipeStopEdge_steady part s t h)
  | tableCreate id data => exact .of_steady rfl (execTableCreate_steady id data s t h)
  | tableWriteRows id data => exact .of_still (execTableWriteRows_still id data s t h)
  | tableVersionOpen id => exact .of_steady rfl (execTableVersionOpen_steady id s t h)
  | tableVersionSwitch id => exact .of_still (execTableVersionSwitch_still id s t h)
  | switchEdge part table => exact .of_steady rfl (execSwitchEdge_steady part table s t h)
  | tableDrop id => exact .of_still (execTableDrop_still id s t h)
  | tableDropEdge part table => exact .of_steady rfl (execTableDropEdge_steady part table s t h)
  | lookup id data => exact .of_steady rfl (execLookup_steady id data s t h)
  | update id data => exact .of_still (execUpdate_still id data s t h)
  | regradePolicy id => exact .of_still (execRegradePolicy_still id s t h)
  | copy id data => exact .of_steady rfl (execCopy_steady id data s t h)
  | compress id data => exact .of_steady rfl (execCompress_steady id data s t h)
  | decompress id data => exact .of_steady rfl (execDecompress_steady id data s t h)
  | topk id data => exact .of_steady rfl (execTopk_steady id data s t h)
  | argmax id data => exact .of_steady rfl (execArgmax_steady id data s t h)
  | matchCmd id data => exact .of_steady rfl (execMatchCmd_steady id data s t h)
  | matmul id data => exact .of_steady rfl (execMatmul_steady id data s t h)
  | odRead id => exact .of_still (execOdRead_still id s t h)
  | odWrite id data => exact .of_still (execOdWrite_still id data s t h)
  | attest id => exact .of_still (execAttest_still id s t h)
  | fetchTurn port ring entries => exact .of_still (execFetchTurn_still port ring entries s t h)
  | fetchReadFailed port ring addr => exact .of_still (execFetchReadFailed_still port ring addr s t h)
  | dmaReadFailed id addr => exact .of_steady rfl (execDmaReadFailed_steady id addr s t h)
  | commandRingTableWrite port off size value => exact .of_still (execCommandRingTableWrite_still port off size value s t h)
  | completionRingTableWrite port off size value => exact .of_still (execCompletionRingTableWrite_still port off size value s t h)
  | tailDoorbell port ring value => exact .of_still (execTailDoorbell_still port ring value s t h)
  | headDoorbell port ring value => exact .of_still (execHeadDoorbell_still port ring value s t h)
  | tickLoRead port => exact .of_still (execTickLoRead_still port s t h)
  | bar0Write port off size value => exact .of_still (execBar0Write_still port off size value s t h)
  | modTicks port ring => exact .of_still (execModTicks_still port ring s t h)
  | configRequest port req => exact .of_still (execConfigRequest_still port req s t h)
  | perstAssert port => exact .of_steady rfl (execPerstAssert_steady port s t h)
  | perstRelease port => exact .of_still (execPerstRelease_still port s t h)
  | hotReset port => exact .of_steady rfl (execHotReset_steady port s t h)
  | flr port => exact .of_steady rfl (execFlr_steady port s t h)
  | linkDisable port => exact .of_steady rfl (execLinkDisable_steady port s t h)
  | linkDown port => exact .of_steady rfl (execLinkDown_steady port s t h)
  | busMasterEnable port on => exact .of_still (execBusMasterEnable_still port on s t h)
  | pcieReplay port => exact .of_still (execPcieReplay_still port s t h)
  | itemDispatch flow seq unit => exact .of_still (execItemDispatch_still flow seq unit s t h)
  | itemCompletion what => exact .of_steady rfl (execItemCompletion_steady what s t h)
  | boltEnd core => exact .of_still (execBoltEnd_still core s t h)
  | contextRefill flow => exact .of_steady rfl (execContextRefill_steady flow s t h)
  | itemRefill flow => exact .of_still (execItemRefill_still flow s t h)
  | enqueueResume part => exact .of_still (execEnqueueResume_still part s t h)
  | flowOpen acc => exact .of_still (execFlowOpen_still acc s t h)
  | flowClose acc => exact .of_steady rfl (execFlowClose_steady acc s t h)
  | slowLane flow seq => exact .of_still (execSlowLane_still flow seq s t h)
  | lateDrop flow seq => exact .of_steady rfl (execLateDrop_steady flow seq s t h)
  | hold flow => exact .of_still (execHold_still flow s t h)
  | tickEdge => exact .of_still (execTickEdge_still s t h)
  | deadline => exact .of_still (execDeadline_still s t h)
  | latShare acc => exact .of_still (execLatShare_still acc s t h)
  | latShareApply => exact .of_still (execLatShareApply_still s t h)
  | maintAnnounce stand lead => exact .of_still (execMaintAnnounce_still stand lead s t h)
  | maintPeriod => exact .of_still (execMaintPeriod_still s t h)
  | refreshInterval stand vault => exact .of_still (execRefreshInterval_still stand vault s t h)
  | forcedRefresh stand vault => exact .of_still (execForcedRefresh_still stand vault s t h)
  | sliceRefresh stand vault => exact .of_still (execSliceRefresh_still stand vault s t h)
  | temperatureReading stand readings => exact .of_still (execTemperatureReading_still stand readings s t h)
  | sensorTimeout stand => exact .of_still (execSensorTimeout_still stand s t h)
  | scrubAccess stand vault => exact .of_still (execScrubAccess_still stand vault s t h)
  | writeBack stand vault => exact .of_steady rfl (execWriteBack_steady stand vault s t h)
  | repairPassStart stand vault slice => exact .of_still (execRepairPassStart_still stand vault slice s t h)
  | repairPassStep => exact .of_steady rfl (execRepairPassStep_steady s t h)
  | counterSample => exact .of_still (execCounterSample_still s t h)
  | wipeComplete => exact .of_still (execWipeComplete_still s t h)
  | flitFailure stand up => exact .of_still (execFlitFailure_still stand up s t h)
  | linkRetrain stand up => exact .of_still (execLinkRetrain_still stand up s t h)
  | retrainDone stand => exact .of_still (execRetrainDone_still stand s t h)
  | apply acc => exact .of_steady rfl (execApply_steady acc s t h)
  | partReset acc => exact .of_steady rfl (execPartReset_steady acc s t h)
  | itemPool acc => exact .of_still (execItemPool_still acc s t h)
  | scrubPeriodH acc => exact .of_still (execScrubPeriodH_still acc s t h)
  | portEnable acc module => exact .of_still (execPortEnable_still acc module s t h)
  | portDisable acc => exact .of_still (execPortDisable_still acc s t h)
  | linkUp net subs => exact .of_still (execLinkUp_still net subs s t h)
  | moduleRemoved net => exact .of_still (execModuleRemoved_still net s t h)
  | modulePresent net module => exact .of_still (execModulePresent_still net module s t h)
  | moduleFault net => exact .of_still (execModuleFault_still net s t h)
  | rxDiscards net sub frame fcsOk => exact .of_still (execRxDiscards_still net sub frame fcsOk s t h)
  | arpRequest net sub frame => exact .of_still (execArpRequest_still net sub frame s t h)
  | neighborSolicitation path frame => exact .of_still (execNeighborSolicitation_still path frame s t h)
  | echoRequest path frame => exact .of_still (execEchoRequest_still path frame s t h)
  | malformed net sub packet => exact .of_still (execMalformed_still net sub packet s t h)
  | data net sub packet => exact .of_steady rfl (execData_steady net sub packet s t h)
  | lookupReq net sub packet => exact .of_still (execLookupReq_still net sub packet s t h)
  | credit part stream => exact .of_still (execCredit_still part stream s t h)
  | nack part stream => exact .of_still (execNack_still part stream s t h)
  | nackRepeat => exact .of_still (execNackRepeat_still s t h)
  | gapLimit part stream => exact .of_still (execGapLimit_still part stream s t h)
  | nackPeriod acc => exact .of_still (execNackPeriod_still acc s t h)
  | streamOpen acc => exact .of_still (execStreamOpen_still acc s t h)
  | streamClose acc => exact .of_still (execStreamClose_still acc s t h)
  | streamCloseEdge part stream => exact .of_still (execStreamCloseEdge_still part stream s t h)
  | walkRecords part stream => exact .of_still (execWalkRecords_still part stream s t h)
  | compressedUnit part stream => exact .of_still (execCompressedUnit_still part stream s t h)
  | setSeal acc => exact .of_still (execSetSeal_still acc s t h)
  | setSortEnd part set => exact .of_steady rfl (execSetSortEnd_steady part set s t h)
  | setClear acc => exact .of_still (execSetClear_still acc s t h)
  | feed part epoch => exact .of_still (execFeed_still part epoch s t h)
  | augmentationRead part epoch data ok => exact .of_still (execAugmentationRead_still part epoch data ok s t h)
  | ship part epoch => exact .of_steady rfl (execShip_steady part epoch s t h)
  | endNotice part epoch => exact .of_still (execEndNotice_still part epoch s t h)
  | endMark part image stage => exact .of_steady rfl (execEndMark_steady part image stage s t h)
  | windowClose part table => exact .of_steady rfl (execWindowClose_steady part table s t h)
  | migrationHold core lane => exact .of_steady rfl (execMigrationHold_steady core lane s t h)
  | migrationSwap core lane written => exact .of_steady rfl (execMigrationSwap_steady core lane written s t h)
  | migrationAbandon core lane written => exact .of_steady rfl (execMigrationAbandon_steady core lane written s t h)
  | slotFree core => exact .of_still (execSlotFree_still core s t h)
  | versionReclaim part table => exact .of_still (execVersionReclaim_still part table s t h)
  | dictLoad acc => exact .of_steady rfl (execDictLoad_steady acc s t h)
  | dictUnload acc => exact .of_still (execDictUnload_still acc s t h)
  | dictUnloadEdge part => exact .of_still (execDictUnloadEdge_still part s t h)
  | hello msg => exact .of_still (execHello_still msg s t h)
  | sessionInit msg => exact .of_still (execSessionInit_still msg s t h)
  | sessionConfirm msg => exact .of_still (execSessionConfirm_still msg s t h)
  | sessionClose msg => exact .of_still (execSessionClose_still msg s t h)
  | read msg => exact .of_still (execRead_still msg s t h)
  | write msg => exact .of_still (execWrite_still msg s t h)
  | blockOpen msg => exact .of_still (execBlockOpen_still msg s t h)
  | blockData msg => exact .of_still (execBlockData_still msg s t h)
  | blockCommit msg => exact .of_steady rfl (execBlockCommit_steady msg s t h)
  | blockAbort msg => exact .of_still (execBlockAbort_still msg s t h)
  | store msg => exact .of_still (execStore_still msg s t h)
  | restoreDefaults msg => exact .of_still (execRestoreDefaults_still msg s t h)
  | subscribe msg => exact .of_still (execSubscribe_still msg s t h)
  | eventAck msg => exact .of_still (execEventAck_still msg s t h)
  | event cause part detail => exact .of_still (execEvent_still cause part detail s t h)
  | eventRetry number => exact .of_still (execEventRetry_still number s t h)
  | bopMalformed msg => exact .of_still (execBopMalformed_still msg s t h)
  | confirmTimeout session => exact .of_still (execConfirmTimeout_still session s t h)
  | sessionIdle session => exact .of_still (execSessionIdle_still session s t h)
  | lockExpiry slot => exact .of_still (execLockExpiry_still slot s t h)
  | keySlotWrite acc => exact .of_still (execKeySlotWrite_still acc s t h)
  | beacon => exact .of_still (execBeacon_still s t h)
  | beaconTimeout => exact .of_still (execBeaconTimeout_still s t h)
  | transmitOpportunity => exact .of_still (execTransmitOpportunity_still s t h)
  | telemetryPeriod acc => exact .of_still (execTelemetryPeriod_still acc s t h)
  | debugUartEnable acc => exact .of_still (execDebugUartEnable_still acc s t h)
  | lcRequest acc => exact .of_steady rfl (execLcRequest_steady acc s t h)
  | svnCommit acc => exact .of_still (execSvnCommit_still acc s t h)
  | attestNonce acc => exact .of_still (execAttestNonce_still acc s t h)
  | debugUnlock acc => exact .of_steady rfl (execDebugUnlock_steady acc s t h)
  | debugToken acc => exact .of_steady rfl (execDebugToken_steady acc s t h)
  | boot => exact .of_steady rfl (execBoot_steady s t h)
  | fruRead fru answered => exact .of_still (execFruRead_still fru answered s t h)
  | sample rawV rawI degC => exact .of_fixed rfl (execSample_fixed rawV rawI degC s t h)
  | intervalClose => exact .of_fixed rfl (execIntervalClose_fixed s t h)
  | recordCommit => exact .of_fixed rfl (execRecordCommit_fixed s t h)
  | checkpoint => exact .of_fixed rfl (execCheckpoint_fixed s t h)
  | finalCheckpoint => exact .of_fixed rfl (execFinalCheckpoint_fixed s t h)
  | scalerPowerUp => exact .of_fixed rfl (execScalerPowerUp_fixed s t h)
  | workFrameSend => exact .of_still (execWorkFrameSend_still s t h)
  | workFrame frame => exact .of_fixed rfl (execWorkFrame_fixed frame s t h)
  | statusFrame => exact .of_fixed rfl (execStatusFrame_fixed s t h)
  | recordLinkFrame frame => exact .of_still (execRecordLinkFrame_still frame s t h)
  | sealChange => exact .of_fixed rfl (execSealChange_fixed s t h)
  | serviceWrite index sub value => exact .of_fixed rfl (execServiceWrite_fixed index sub value s t h)
  | serviceRead index sub off len => exact .of_still (execServiceRead_still index sub off len s t h)
  | xoQualified => exact .of_still (execXoQualified_still s t h)
  | ioscQualified => exact .of_still (execIoscQualified_still s t h)
  | referenceSwitch => exact .of_still (execReferenceSwitch_still s t h)
  | monitorTrip source => exact .of_still (execMonitorTrip_still source s t h)
  | pllUnlock => exact .of_still (execPllUnlock_still s t h)
  | pllRelock => exact .of_steady rfl (execPllRelock_steady s t h)
  | watchdog => exact .of_steady rfl (execWatchdog_steady s t h)
  | sysRequest acc => exact .of_steady rfl (execSysRequest_steady acc s t h)
  | coreRequest acc => exact .of_steady rfl (execCoreRequest_steady acc s t h)
  | jtag => exact .of_steady rfl (execJtag_steady s t h)
  | resetAssert src => exact .of_steady rfl (execResetAssert_steady src s t h)
  | porRelease adc => exact .of_steady rfl (execPorRelease_steady adc s t h)
  | coreRelease part => exact .of_steady rfl (execCoreRelease_steady part s t h)
  | blockReset acc => exact .of_still (execBlockReset_still acc s t h)
  | blockResetClean unit => exact .of_still (execBlockResetClean_still unit s t h)
  | quiesceTicks unit => exact .of_steady rfl (execQuiesceTicks_steady unit s t h)
  | run acc => exact .of_still (execRun_still acc s t h)
  | sleep acc => exact .of_still (execSleep_still acc s t h)
  | deepSleep acc => exact .of_still (execDeepSleep_still acc s t h)
  | deepSleepEntry => exact .of_steady rfl (execDeepSleepEntry_steady s t h)
  | deepSleepRefused => exact .of_still (execDeepSleepRefused_still s t h)
  | wake source => exact .of_still (execWake_still source s t h)
  | gateRun acc => exact .of_still (execGateRun_still acc s t h)
  | unitGated unit => exact .of_steady rfl (execUnitGated_steady unit s t h)
  | mclkDiv acc => exact .of_still (execMclkDiv_still acc s t h)
  | standbyOn => exact .of_steady rfl (execStandbyOn_steady s t h)
  | switchClose => exact .of_still (execSwitchClose_still s t h)
  | undervoltage => exact .of_steady rfl (execUndervoltage_steady s t h)
  | overvoltage => exact .of_steady rfl (execOvervoltage_steady s t h)
  | breaker => exact .of_steady rfl (execBreaker_steady s t h)
  | mate => exact .of_steady rfl (execMate_steady s t h)
  | powerSample mw => exact .of_still (execPowerSample_still mw s t h)
  | fastLimiter mw => exact .of_still (execFastLimiter_still mw s t h)
  | pwrBrake asserted => exact .of_still (execPwrBrake_still asserted s t h)
  | thermalThrottle => exact .of_still (execThermalThrottle_still s t h)
  | thermTrip die reading => exact .of_steady rfl (execThermTrip_steady die reading s t h)
  | tripRelease => exact .of_still (execTripRelease_still s t h)
  | mboxGo port value => exact .of_still (execMboxGo_still port value s t h)
  | hostLinkUp port rate width => exact .of_still (execHostLinkUp_still port rate width s t h)
  | subportLinkLoss net sub => exact .of_still (execSubportLinkLoss_still net sub s t h)
  | standbyLoss => exact .of_steady rfl (execStandbyLoss_steady s t h)
  | fastLimiterRelease mw => exact .of_still (execFastLimiterRelease_still mw s t h)
  | firmwareWritten committed => exact .of_steady rfl (execFirmwareWritten_steady committed s t h)
  | laneFrameEnd lane => exact .of_still (execLaneFrameEnd_still lane s t h)
  | beaconTransmit => exact .of_still (execBeaconTransmit_still s t h)

/-! ### A step -/

theorem step_nil {s : State} (h : s.pending = []) : step s = .next s := by rw [step, h]

theorem step_cons {s : State} {c : Instr} {rest : List Instr} (h : s.pending = c :: rest) :
    step s = exec c { s with pending := rest } := by rw [step, h]

/-- A step that answers has idled, or has kept what every command keeps of the state without its front command. -/
theorem step_keeps {s t : State} (h : step s = .next t) : ({ s with pending := s.pending.tail } : State).Keeps t := by
  cases hp : s.pending with
  | nil =>
    rw [step_nil hp] at h
    cases h
    rw [List.tail_nil, ← hp]
    exact State.Keeps.refl s
  | cons c rest =>
    rw [step_cons hp] at h
    exact (exec_leaves h).keeps

/-- Settles O1: the arm of `step` for a queue that is not empty. -/
theorem stepRunsTheFrontCommand : Obligations.StepRunsTheFrontCommand := by
  unfold Obligations.StepRunsTheFrontCommand
  intro c rest s
  exact step_cons rfl

/-- Settles O2: the arm of `step` for the empty queue. -/
theorem emptyQueueIdles : Obligations.EmptyQueueIdles := by
  unfold Obligations.EmptyQueueIdles
  intro s h
  exact step_nil h

/-- Settles O4: taking the front command off the queue touches no memory, and every command keeps its form. -/
theorem stepKeepsMemoryCanonical : Obligations.StepKeepsMemoryCanonical := by
  unfold Obligations.StepKeepsMemoryCanonical
  intro s t hs h
  obtain ⟨-, hcanon, -⟩ := step_keeps h
  exact hcanon hs

/-- Settles O5: the reset state lists no byte and no command. -/
theorem resetMemoryCanonical : Obligations.ResetMemoryCanonical := by
  unfold Obligations.ResetMemoryCanonical
  have hnil : Memory.wf [] := ⟨List.Pairwise.nil, fun c hc => absurd hc List.not_mem_nil⟩
  exact ⟨⟨hnil, hnil⟩, fun _ => rfl, rfl, rfl⟩

/-- Settles O6: no command touches the rest of the queue. -/
theorem stepTakesOnlyTheFront : Obligations.StepTakesOnlyTheFront := by
  unfold Obligations.StepTakesOnlyTheFront
  intro s t h
  exact (step_keeps h).1

/-- Settles O7: no command takes back output or a free value. -/
theorem outputIsNeverTakenBack : Obligations.OutputIsNeverTakenBack := by
  unfold Obligations.OutputIsNeverTakenBack
  intro s t h
  obtain ⟨-, -, ⟨new, hout⟩, hfresh, -⟩ := step_keeps h
  exact ⟨⟨new, hout.symm⟩, hfresh⟩

/-- Settles O8: no command lowers the minimum security version. -/
theorem securityVersionNeverFalls : Obligations.SecurityVersionNeverFalls := by
  unfold Obligations.SecurityVersionNeverFalls
  intro s t h
  obtain ⟨-, -, -, -, hsvn⟩ := step_keeps h
  exact hsvn

/-- Settles O9: every command outside the scaler's own leaves it. -/
theorem scalerStandsApart : Obligations.ScalerStandsApart := by
  unfold Obligations.ScalerStandsApart
  intro c s t hc h
  exact (exec_leaves h).scl hc

/-- Settles O10: a command that stores nothing leaves both memories as lists, so every byte as it reads. -/
theorem othersLeaveMemoryAlone : Obligations.OthersLeaveMemoryAlone := by
  unfold Obligations.OthersLeaveMemoryAlone
  intro c s t hc h
  obtain ⟨hmem, hlbuf⟩ := (exec_leaves h).memory hc
  exact ⟨fun a => by rw [State.byte, State.byte, hmem], fun a => by rw [hlbuf]⟩

end Sys2Proof.Machine
end

section
/-!
The shuffle of an epoch (R180, R181): the Feistel network is a bijection on the numbers below 2^b, and walking the cycle of
a bijection back below N meets every position of N once.
-/
namespace Sys2Proof.Machine

theorem roundKeys_length_even (seed epoch : Nat) : Even (roundKeys seed epoch).length := by
  have h : (roundKeys seed epoch).length = 4 := by simp [roundKeys]
  rw [h]
  decide

theorem le_two_pow_ceilLog2 (n : Nat) : n ≤ 2 ^ ceilLog2 n := by
  unfold ceilLog2
  split
  case isTrue h => exact h.trans Nat.one_le_two_pow
  case isFalse h =>
    have hlog : n - 1 < 2 ^ ((n - 1).log2 + 1) := Nat.lt_log2_self
    have hmono : 2 ^ ((n - 1).log2 + 1) ≤ 2 ^ max 2 ((n - 1).log2 + 1) :=
      Nat.pow_le_pow_right (by decide) (le_max_right _ _)
    omega

/-! ### The network -/

/-- Each round swaps the widths, so an even number of rounds gives back the widths it was given. -/
theorem feistelGo_lt : ∀ (ks : List Nat) (l r wl wr : Nat), Even ks.length → l < 2 ^ wl → r < 2 ^ wr →
    (feistelGo ks l r wl wr).1 < 2 ^ wl ∧ (feistelGo ks l r wl wr).2 < 2 ^ wr
  | [], _, _, _, _, _, hl, hr => ⟨hl, hr⟩
  | [_], _, _, _, _, hev, _, _ => absurd hev Nat.not_even_one
  | k :: k' :: ks, l, r, wl, wr, hev, hl, hr => by
    have hround {a w : Nat} (h : a < 2 ^ w) (v : Nat) : a ^^^ (v % 2 ^ w) < 2 ^ w :=
      Nat.xor_lt_two_pow h (Nat.mod_lt _ (Nat.two_pow_pos w))
    have hev' : Even ks.length := by simpa [Nat.even_add_one] using hev
    exact feistelGo_lt ks _ _ wl wr hev' (hround hl _) (hround hr _)

theorem feistelGo_injective (ks : List Nat) {l r l' r' wl wr : Nat}
    (h : feistelGo ks l r wl wr = feistelGo ks l' r' wl wr) : l = l' ∧ r = r' := by
  induction ks generalizing l r l' r' wl wr with
  | nil => exact Prod.mk.inj h
  | cons k ks ih =>
    obtain ⟨rfl, hx⟩ := ih h
    exact ⟨Nat.xor_left_injective hx, rfl⟩

/-- The halves of a number below 2^b, and of what the rounds make of them. -/
theorem feistel_halves_lt {ks : List Nat} {b x : Nat} (hks : Even ks.length) (hx : x < 2 ^ b) :
    let a := (b + 1) / 2
    let o := feistelGo ks (x / 2 ^ (b - a)) (x % 2 ^ (b - a)) a (b - a)
    o.1 < 2 ^ a ∧ o.2 < 2 ^ (b - a) := by
  have hb : 2 ^ b = 2 ^ (b - (b + 1) / 2) * 2 ^ ((b + 1) / 2) := by
    rw [← Nat.pow_add]
    congr 1
    omega
  exact feistelGo_lt ks _ _ _ _ hks (Nat.div_lt_of_lt_mul (hb ▸ hx)) (Nat.mod_lt _ (Nat.two_pow_pos _))

theorem feistel_lt {ks : List Nat} {b x : Nat} (hks : Even ks.length) (hx : x < 2 ^ b) : feistel ks x b < 2 ^ b := by
  obtain ⟨hl, hr⟩ := feistel_halves_lt hks hx
  have hb : 2 ^ b = 2 ^ ((b + 1) / 2) * 2 ^ (b - (b + 1) / 2) := by
    rw [← Nat.pow_add]
    congr 1
    omega
  rw [hb]
  exact Nat.lt_mul_of_div_lt (by
    rw [feistel, Nat.add_comm, Nat.add_mul_div_right _ _ (Nat.two_pow_pos _), Nat.div_eq_of_lt hr, Nat.zero_add]
    exact hl) (Nat.two_pow_pos _)

/-- Two halves are read back from the number they make. -/
theorem halves_injective {m l r l' r' : Nat} (hr : r < m) (hr' : r' < m) (h : l * m + r = l' * m + r') : l = l' ∧ r = r' := by
  have hl : l = l' := by
    simpa [Nat.mul_comm, Nat.mul_add_div (Nat.zero_lt_of_lt hr), Nat.div_eq_of_lt hr, Nat.div_eq_of_lt hr'] using
      congrArg (· / m) h
  subst hl
  exact ⟨rfl, Nat.add_left_cancel h⟩

theorem feistel_injective {ks : List Nat} {b x y : Nat} (hks : Even ks.length) (hx : x < 2 ^ b) (hy : y < 2 ^ b)
    (h : feistel ks x b = feistel ks y b) : x = y := by
  obtain ⟨hl, hr⟩ := halves_injective (feistel_halves_lt hks hx).2 (feistel_halves_lt hks hy).2 h
  obtain ⟨hdiv, hmod⟩ := feistelGo_injective ks (Prod.ext hl hr)
  rw [← Nat.div_add_mod x, hdiv, hmod, Nat.div_add_mod]

/-- The network as a map of the numbers below 2^b. -/
def feistelFin (ks : List Nat) (b : Nat) (hks : Even ks.length) (x : Fin (2 ^ b)) : Fin (2 ^ b) :=
  ⟨feistel ks x b, feistel_lt hks x.isLt⟩

theorem feistelFin_injective (ks : List Nat) (b : Nat) (hks : Even ks.length) :
    Function.Injective (feistelFin ks b hks) := fun x y h =>
  Fin.ext (feistel_injective hks x.isLt y.isLt (Fin.val_eq_of_eq h))

/-! ### The walk -/

/-- The walk stops at the first point of the orbit that lies below `n`, where one does within its fuel. -/
theorem walkGo_eq_iterate {ks : List Nat} {b n : Nat} (hks : Even ks.length) (fuel : Nat) (y : Fin (2 ^ b))
    (h : ∃ k ≤ fuel, ((feistelFin ks b hks)^[k] y).val < n) :
    ∃ k, walkGo ks b n fuel y = ((feistelFin ks b hks)^[k] y).val ∧ ((feistelFin ks b hks)^[k] y).val < n ∧
      ∀ i < k, n ≤ ((feistelFin ks b hks)^[i] y).val := by
  induction fuel generalizing y with
  | zero =>
    obtain ⟨k, hk, hlt⟩ := h
    obtain rfl : k = 0 := Nat.le_zero.mp hk
    exact ⟨0, rfl, hlt, fun i hi => absurd hi (Nat.not_lt_zero i)⟩
  | succ fuel ih =>
    by_cases hy : y.val < n
    · exact ⟨0, by rw [walkGo, if_pos hy]; rfl, hy, fun i hi => absurd hi (Nat.not_lt_zero i)⟩
    · obtain ⟨k, hk, hlt⟩ := h
      cases k with
      | zero => exact absurd hlt hy
      | succ k =>
        obtain ⟨m, heq, hm, hfirst⟩ := ih (feistelFin ks b hks y) ⟨k, Nat.le_of_succ_le_succ hk, hlt⟩
        refine ⟨m + 1, ?_, hm, fun i hi => ?_⟩
        · rw [walkGo, if_neg hy]
          exact heq
        · cases i with
          | zero => exact Nat.le_of_not_lt hy
          | succ i => exact hfirst i (Nat.lt_of_succ_lt_succ hi)

/-- A shuffle position is drawn at the first return of its orbit below `n`: the orbit of a bijection of 2^b numbers comes
back to the position itself within 2^b steps. -/
theorem sigma_eq_first_return {ks : List Nat} {n : Nat} (hks : Even ks.length) (j : Fin (2 ^ ceilLog2 n)) (hj : j.val < n) :
    ∃ k, sigma ks j n = ((feistelFin ks _ hks)^[k + 1] j).val ∧ sigma ks j n < n ∧
      ∀ i < k, n ≤ ((feistelFin ks _ hks)^[i + 1] j).val := by
  have hper : j ∈ Function.periodicPts (feistelFin ks _ hks) :=
    Function.Injective.mem_periodicPts (feistelFin_injective ks _ hks) j
  have hpos : 0 < Function.minimalPeriod (feistelFin ks _ hks) j := Function.minimalPeriod_pos_of_mem_periodicPts hper
  have hcard : Function.minimalPeriod (feistelFin ks _ hks) j ≤ 2 ^ ceilLog2 n :=
    Function.minimalPeriod_le_card.trans_eq (Fintype.card_fin _)
  have hback : (feistelFin ks _ hks)^[Function.minimalPeriod (feistelFin ks _ hks) j] j = j :=
    Function.iterate_minimalPeriod
  generalize Function.minimalPeriod (feistelFin ks _ hks) j = m at hpos hcard hback
  obtain ⟨m, rfl⟩ := Nat.exists_eq_succ_of_ne_zero hpos.ne'
  obtain ⟨k, heq, hlt, hfirst⟩ := walkGo_eq_iterate hks (2 ^ ceilLog2 n) (feistelFin ks _ hks j)
    ⟨m, Nat.le_of_succ_le hcard, by rwa [← Function.iterate_succ_apply, hback]⟩
  exact ⟨k, heq, heq.trans_lt hlt, hfirst⟩

/-- Of two positions that return to the same number, the one that took as long or longer has passed the other. -/
theorem orbit_first_return_injective {m n k k' : Nat} {f : Fin m → Fin m} (hf : Function.Injective f) {i j : Fin m}
    (hi : i.val < n) (hfirst : ∀ l < k', n ≤ (f^[l + 1] j).val) (hle : k ≤ k') (h : f^[k + 1] i = f^[k' + 1] j) : i = j := by
  obtain ⟨d, rfl⟩ := Nat.exists_eq_add_of_le hle
  have hd : i = f^[d] j := by
    apply hf.iterate (k + 1)
    rw [h, ← Function.iterate_add_apply]
    congr 1
    omega
  cases d with
  | zero => exact hd
  | succ d => exact absurd (hfirst d (by omega)) (by rw [← hd]; omega)

/-- Settles O38: the walk draws each position at its orbit's first return below N, and two orbits of a bijection that return
to the same number started from the same position. -/
theorem shuffleIsAPermutation : Obligations.ShuffleIsAPermutation := by
  unfold Obligations.ShuffleIsAPermutation
  intro seed epoch n _
  have hks := roundKeys_length_even seed epoch
  have hbelow {j : Nat} (hj : j < n) : j < 2 ^ ceilLog2 n := hj.trans_le (le_two_pow_ceilLog2 n)
  constructor
  case left =>
    intro j hj
    obtain ⟨_, -, hlt, -⟩ := sigma_eq_first_return hks ⟨j, hbelow hj⟩ hj
    exact hlt
  case right =>
    intro i j hi hj h
    obtain ⟨k, hk, -, hkfirst⟩ := sigma_eq_first_return hks ⟨i, hbelow hi⟩ hi
    obtain ⟨k', hk', -, hkfirst'⟩ := sigma_eq_first_return hks ⟨j, hbelow hj⟩ hj
    have hinj := feistelFin_injective (roundKeys seed epoch) (ceilLog2 n) hks
    have hreturn := Fin.ext (hk.symm.trans (h.trans hk'))
    rcases Nat.le_total k k' with hle | hle
    · exact Fin.val_eq_of_eq (orbit_first_return_injective hinj hi hkfirst' hle hreturn)
    · exact (Fin.val_eq_of_eq (orbit_first_return_injective hinj hj hkfirst hle hreturn.symm)).symm

end Sys2Proof.Machine
end

section
/-!
Which commands answer a next state: all but a fetch turn of more than 8 entries, which is no command (R115).
-/
namespace Sys2Proof.Machine

theorem execFetchTurn_of_short {port : PortNo} {ring : RingNo} {es : List Entry} (s : State) (h : es.length ≤ 8) :
    ∃ t, execFetchTurn port ring es s = .next t := by
  rw [execFetchTurn, if_neg (Nat.not_lt.mpr h)]
  split <;> exact ⟨_, rfl⟩

theorem execFetchTurn_of_long {port : PortNo} {ring : RingNo} {es : List Entry} (s : State) (h : 8 < es.length) :
    execFetchTurn port ring es s = .fault .illFormed := by
  rw [execFetchTurn, if_pos h]

/-- Settles O3: every meaning but that of a fetch turn ends in a next state on each of its paths, and a fetch turn does so
for the up to 8 entries that its well-formedness allows. -/
theorem wellFormedCommandsComplete : Obligations.WellFormedCommandsComplete := by
  unfold Obligations.WellFormedCommandsComplete
  constructor
  case left =>
    intro c s h
    cases c
    case fetchTurn port ring es => exact execFetchTurn_of_short s (of_decide_eq_true h)
    all_goals exact ⟨_, rfl⟩
  case right =>
    intro p r es s h
    exact execFetchTurn_of_long s h

end Sys2Proof.Machine
end

section
/-!
What has changed when a request comes to its object, and what a write that comes to it leaves behind.
-/
namespace Sys2Proof.Machine

/-- A write whose object answers at once. -/
theorem State.write_answers {s t u : State} {acc : Access} {own : Nat × Nat → Bytes → Bool} {w : Writer} {v : Bytes}
    {op : Writer → Bytes → State → Ans} {st : Status} (h : s.arrive acc own = .go w v t) (hop : op w v t = (some st, u)) :
    s.write acc own op = u.respond w.reply st := by
  rw [State.write_go h, hop]
  rfl

/-- A write whose answer comes later, or from the operation itself. -/
theorem State.write_defers {s t u : State} {acc : Access} {own : Nat × Nat → Bytes → Bool} {w : Writer} {v : Bytes}
    {op : Writer → Bytes → State → Ans} (h : s.arrive acc own = .go w v t) (hop : op w v t = (none, u)) :
    s.write acc own op = u := by
  rw [State.write_go h, hop]
  rfl

/-- Settles O12: of a message and of an access alike, intake has changed the management port alone. -/
theorem acceptedRequestsTouchOnlyTheirSession : Obligations.AcceptedRequestsTouchOnlyTheirSession := by
  unfold Obligations.AcceptedRequestsTouchOnlyTheirSession
  exact ⟨fun _ _ _ _ _ _ => State.intake_go, fun _ _ _ _ _ _ => State.arrive_go⟩

end Sys2Proof.Machine
end

section
/-!
The host ports (R108–R132): doorbells, the registers of BAR0, ring tables, fetching and the events of a port.
-/
namespace Sys2Proof.Machine

/-! ### Doorbells (R114, R122) -/

theorem State.drain_of_nothing_held {s : State} {p r : Nat} (h : ((s.port p).cplRing r).held = []) (fuel : Nat) :
    State.drain fuel s p r = s := by
  cases fuel with
  | zero => rfl
  | succ fuel => simp [State.drain, h]

theorem State.eventCause_portEvent (s : State) (p bit : Nat) :
    bitOf ((s.portEvent p bit).port p).eventCause bit = true := by
  unfold State.portEvent
  dsimp only
  split
  · assumption
  · split
    · unfold State.msix
      dsimp only
      split
      · simp [bitOf_setBit]
      · split <;> simp [bitOf_setBit]
    · simp [bitOf_setBit]

/-- Settles O14: each doorbell answers by the ring's ENABLE and ERROR and by the range of its value. -/
theorem doorbellsMoveTheirRings : Obligations.DoorbellsMoveTheirRings := by
  unfold Obligations.DoorbellsMoveTheirRings
  refine ⟨?tailInRange, ?tailOutOfRange, ?errorRaised, ?tailDiscarded, ?headInRange⟩
  case tailInRange =>
    intro s p r v henable herror hv
    change execTailDoorbell p r v s = _
    simp [execTailDoorbell, henable, herror, hv]
  case tailOutOfRange =>
    intro s p r v henable herror hv
    change execTailDoorbell p r v s = _
    simp [execTailDoorbell, henable, herror, hv, State.ringError]
  case errorRaised =>
    intro s p bit _
    exact s.eventCause_portEvent p bit
  case tailDiscarded =>
    intro s p r v h
    change execTailDoorbell p r v s = _
    obtain h | h := h <;> simp [execTailDoorbell, h, State.barDiscard]
  case headInRange =>
    intro s p r v henable hheld hv
    change execHeadDoorbell p r v s = _
    simp [execHeadDoorbell, henable, hv, State.drain_of_nothing_held, hheld]

/-! ### BAR0, ring tables and the mailbox (R111–R113, R122, R132) -/

/-- A write of the control word of a disabled command ring, with ENABLE set and every field in range. -/
theorem State.writeCmdRing_enables {s : State} {p r v : Nat} (henable : ((s.port p).cmdRing r).enable = false)
    (herror : ((s.port p).cmdRing r).error = false) (hbase : ((s.port p).cmdRing r).base % 4096 = 0)
    (hon : bitOf v 16 = true) (hlow : 4 ≤ bitsOf v 7 0) (hhigh : bitsOf v 7 0 ≤ 16)
    (hcq : ((s.port p).cplRing (bitsOf v 15 8)).enable = true) :
    s.writeCmdRing p r [(2, v)] = s.setRing p r { (s.port p).cmdRing r with
      sizeLog2 := bitsOf v 7 0, cq := bitsOf v 15 8, latFetch := bitOf v 17, enable := true, head := 0, tail := 0,
      fetched := 0, stalled := none } := by
  have hkept (b : Nat) : baseWith b [(2, v)] = b := Nat.mod_add_div b (2 ^ 32)
  simp [State.writeCmdRing, look, hkept, henable, herror, hbase, hon, hlow, hhigh, hcq]

theorem bitsOf_lt (v hi lo : Nat) : bitsOf v hi lo < 2 ^ (hi + 1 - lo) := Nat.mod_lt _ (Nat.two_pow_pos _)

/-- The same of a completion ring, without its moderation timer. -/
theorem State.writeCplRing_enables {s : State} {p r v : Nat} (henable : ((s.port p).cplRing r).enable = false)
    (herror : ((s.port p).cplRing r).error = false) (hbase : ((s.port p).cplRing r).base % 4096 = 0)
    (hcount : ((s.port p).cplRing r).modCount ≤ 4096) (hon : bitOf v 8 = true) (htimer : bitOf v 10 = false)
    (hlow : 8 ≤ bitsOf v 7 0) (hhigh : bitsOf v 7 0 ≤ 16) :
    s.writeCplRing p r [(2, v)] = s.setCpl p r { (s.port p).cplRing r with
      sizeLog2 := bitsOf v 7 0, timerEn := false, vector := bitsOf v 26 16, enable := true, tail := 0, head := 0,
      phase := true, since := 0, oldest := none, written := 0, consumed := 0 } := by
  have hkept (b : Nat) : baseWith b [(2, v)] = b := Nat.mod_add_div b (2 ^ 32)
  have hvector : bitsOf v 26 16 < 2048 := bitsOf_lt v 26 16
  simp [State.writeCplRing, look, hkept, henable, herror, hbase, hcount, hon, htimer, hlow, hhigh, hvector]

/-- Settles O15: a register, a ring table and the mailbox each take the words that a well-formed write covers. -/
theorem portRegistersTakeTheirWrites : Obligations.PortRegistersTakeTheirWrites := by
  unfold Obligations.PortRegistersTakeTheirWrites
  refine ⟨?tickLo, ?eventMask, ?cmdTable, ?cmdEnable, ?cplTable, ?cplEnable, ?mailbox⟩
  case tickLo =>
    intro s p
    change execTickLoRead p s = _
    simp [execTickLoRead, State.barRead, State.readReg]
  case eventMask =>
    intro s p v hv
    change execBar0Write p 0x01C 4 v s = _
    have hword : v % 4294967296 = v := Nat.mod_eq_of_lt hv
    simp [execBar0Write, ownRow, barAccess, State.barWrite, State.barWord, hword]
  case cmdTable =>
    intro s p off size v hacc hlow hhigh
    change execCommandRingTableWrite p off size v s = _
    simp [execCommandRingTableWrite, hacc, hlow, hhigh]
  case cmdEnable =>
    intro s p r v henable herror hbase hon hlow hhigh hcq
    exact State.writeCmdRing_enables henable herror hbase hon hlow hhigh hcq
  case cplTable =>
    intro s p off size v hacc hlow hhigh
    change execCompletionRingTableWrite p off size v s = _
    simp [execCompletionRingTableWrite, hacc, hlow, hhigh]
  case cplEnable =>
    intro s p r v henable herror hbase hcount hon htimer hlow hhigh
    exact State.writeCplRing_enables henable herror hbase hcount hon htimer hlow hhigh
  case mailbox =>
    intro s p v hbusy hgo
    change execMboxGo p v s = _
    simp [execMboxGo, hbusy, hgo]

/-! ### Commands in flight -/

theorem State.control_eq_some {s : State} {id op : Nat} {c : Cmd} : s.control id op = some c ↔
    s.cmd? id = some c ∧ c.opcode = op ∧ c.stage = .fetched ∧ s.isTurn c = true ∧ s.dmaReady c = true := by
  cases hd : s.cmd? id with
  | none => simp [State.control, hd]
  | some d =>
    simp only [State.control, hd, Option.some.injEq, Option.ite_none_right_eq_some, Bool.and_eq_true, decide_eq_true_eq]
    constructor
    · rintro ⟨⟨⟨⟨hop, hstage⟩, hturn⟩, hready⟩, rfl⟩
      exact ⟨rfl, hop, hstage, hturn, hready⟩
    · rintro ⟨rfl, hop, hstage, hturn, hready⟩
      exact ⟨⟨⟨⟨hop, hstage⟩, hturn⟩, hready⟩, rfl⟩

theorem State.part_of_parts {s t : State} (h : t.parts = s.parts) (p : Nat) : t.part p = s.part p := by
  unfold State.part
  rw [h]

/-! ### Fetching (R115, R130) -/

theorem State.takeTurn_single {s : State} {p ring : Nat} {e : Entry} (hop : bitsOf e.toNat 7 0 ≠ 0x28)
    (hroom : s.outstanding p < 4096) (hpending : 1 ≤ ((s.port p).cmdRing ring).pending) :
    State.takeTurn 8 s p ring [e] = s.take p ring e [] := by
  simp [State.takeTurn, hop, Nat.not_le.mpr hroom, Nat.not_lt.mpr hpending]

theorem State.loadEarly_of_parts {s t : State} (h : t.parts = s.parts) (c : Cmd) : t.loadEarly c = s.loadEarly c := by
  rw [State.loadEarly, State.loadEarly, State.part_of_parts h]

/-- A PIPE_LOAD reads its image alone. -/
theorem State.readRanges_of_load {s : State} {c : Cmd} (hop : c.opcode = 0x10) :
    s.readRanges c = [(c.f 127 64, c.f 159 128)] := by
  simp [State.readRanges, Cmd.hostRanges, hop]

/-- Settles O16: a turn hands its entries on, and a failed read is recorded, reported and ends what it was for. -/
theorem fetchingAndItsFaults : Obligations.FetchingAndItsFaults := by
  unfold Obligations.FetchingAndItsFaults
  refine ⟨?turn, ?single, ?entriesFail, ?dataFails⟩
  case turn =>
    intro s p r es hlen hmay hturn hlat
    change execFetchTurn p r es s = _
    simp [execFetchTurn, Nat.not_lt.mpr hlen, hmay, hturn, hlat]
  case single =>
    intro s p ring e hop hroom hpending
    exact State.takeTurn_single hop hroom hpending
  case entriesFail =>
    intro s p r a hmay hfetch
    change execFetchReadFailed p r a s = _
    simp [execFetchReadFailed, hmay, hfetch, State.ringError]
  case dataFails =>
    intro s id a c hc hrange _ hearly
    obtain ⟨hcmd, hop, -⟩ := State.control_eq_some.mp hc
    change execDmaReadFailed id a s = _
    simp [execDmaReadFailed, hcmd, hc, hop, s.readRanges_of_load hop, hrange, State.readFails,
      State.loadEarly_of_parts (s := s), hearly]

/-! ### Events of a port (R124, R131, R135, R138) -/

/-- With no ring, no completion and no message waiting, Bus Master Enable resumes nothing. -/
theorem execBusMasterEnable_of_idle {s : State} {p : PortNo} (hwaiting : (s.port p.val).waiting = [])
    (hrings : (s.port p.val).cplRings = []) (hpending : (s.port p.val).msixPending = []) :
    execBusMasterEnable p true s = .next (s.setPort p.val { s.port p.val with bme := true, waiting := [] }) := by
  simp [execBusMasterEnable, hwaiting, hrings, hpending, State.flushWaiting, State.sendPending]

theorem execHostLinkUp_of_down {s : State} {p : PortNo} {rate width : Nat} (hperst : (s.port p.val).perst = false)
    (hreleased : s.boot.released = true) (hawake : s.clk.asleep = false) (hdown : (s.port p.val).linkUp = false)
    (hrate : 1 ≤ rate ∧ rate ≤ 6) (hwidth : [1, 2, 4, 8].contains width = true) :
    execHostLinkUp p rate width s = .next (
      let t := ((s.setPort p.val { s.port p.val with linkUp := true, hotReset := false, disabled := false }).put
        (at_ Ob.LINK_RATE p.val) rate).put (at_ Ob.LINK_WIDTH p.val) width
      if s.get (at_ Ob.LINK_RATE p.val) = rate then t.settleRetry else (t.occur 8 0xFF rate).settleRetry) := by
  have hlegal : (1 ≤ rate && rate ≤ 6 && [1, 2, 4, 8].contains width) = true := by
    rw [hwidth]
    simp [hrate]
  simp only [execHostLinkUp, hperst, hreleased, hawake, hdown, hlegal, Bool.not_true, Bool.or_false, Bool.false_eq_true,
    if_false]
  split <;> rfl

/-- Settles O17: each event of a port does what its guard lets it do. -/
theorem portEventsHaveTheirEffect : Obligations.PortEventsHaveTheirEffect := by
  unfold Obligations.PortEventsHaveTheirEffect
  refine ⟨?modTicks, ?message, ?replay, ?masterOff, ?masterOn, ?retried, ?powerState, ?trained⟩
  case modTicks =>
    intro s p r t holdest henable htimer hage
    change execModTicks p r s = _
    simp [execModTicks, holdest, henable, htimer, hage, State.ringMessage]
  case message =>
    intro s p v h
    simp [State.msix, h]
  case replay =>
    intro s p
    rfl
  case masterOff =>
    intro s p
    rfl
  case masterOn =>
    intro s p hwaiting hrings hpending
    exact execBusMasterEnable_of_idle hwaiting hrings hpending
  case retried =>
    intro s p q hup hretry
    change execConfigRequest p q s = _
    simp [execConfigRequest, hup, hretry]
  case powerState =>
    intro s p b hup hretry
    change execConfigRequest p (.setD0 b) s = _
    simp [execConfigRequest, hup, hretry]
  case trained =>
    intro s p rate width hperst hreleased hawake hdown hlow hhigh hwidth
    exact execHostLinkUp_of_down hperst hreleased hawake hdown ⟨hlow, hhigh⟩ hwidth

/-! ### The resets of a port (R133, Table 5.11) -/

theorem at_injective {k j i : Nat} : at_ k i = at_ j i ↔ k = j := Nat.add_right_cancel_iff

theorem State.dropLink_clears {s : State} {p : Nat} (hup : (s.port p).linkUp = true) :
    ((s.dropLink p).port p).linkUp = false ∧ (s.dropLink p).get (at_ Ob.LINK_RATE p) = 0 ∧
      (s.dropLink p).get (at_ Ob.LINK_WIDTH p) = 0 := by
  have hdrop : s.dropLink p = (((((s.setPort p { s.port p with linkUp := false }).put (at_ Ob.LINK_RATE p) 0).put
      (at_ Ob.LINK_WIDTH p) 0).bump (at_ Ob.LINK_DOWNS p)).noteBreak 5 p).occur 8 0xFF 0 := by
    simp [State.dropLink, hup]
  have hrateWidth : at_ Ob.LINK_RATE p ≠ at_ Ob.LINK_WIDTH p := at_injective.not.mpr (by decide)
  have hrateDowns : at_ Ob.LINK_RATE p ≠ at_ Ob.LINK_DOWNS p := at_injective.not.mpr (by decide)
  have hwidthDowns : at_ Ob.LINK_WIDTH p ≠ at_ Ob.LINK_DOWNS p := at_injective.not.mpr (by decide)
  rw [hdrop]
  refine ⟨by simp, ?_, ?_⟩
  · simp [State.get_bump_ne _ _ hrateDowns, State.get_put_ne _ _ hrateWidth]
  · simp [State.get_bump_ne _ _ hwidthDowns]

theorem State.clearPort_clears (s : State) (p : Nat) :
    ((s.clearPort p).port p).cmdRings = [] ∧ ((s.clearPort p).port p).cplRings = [] ∧
      ((s.clearPort p).port p).windows = [] ∧ ((s.clearPort p).port p).eventCause = 0 := by
  simp [State.clearPort, HostPort.reset]

/-- Settles O18: each event acts where its guard on the pin or the link holds. -/
theorem portResetsFollowTheirTable : Obligations.PortResetsFollowTheirTable := by
  unfold Obligations.PortResetsFollowTheirTable
  refine ⟨fun s p h => ?_, fun s p h => ?_, fun s p h => ?_, fun s p h => ?_, fun s p h => ?_, fun s p h => ?_,
    fun s p h _ => State.dropLink_clears h, State.clearPort_clears⟩
  · change execPerstAssert p s = _
    simp [execPerstAssert, h]
  · change execPerstRelease p s = _
    simp [execPerstRelease, h]
  · change execHotReset p s = _
    simp [execHotReset, h]
  · change execLinkDisable p s = _
    simp [execLinkDisable, h]
  · change execFlr p s = _
    simp [execFlr, h]
  · change execLinkDown p s = _
    simp [execLinkDown, h]

end Sys2Proof.Machine
end

section
/-!
Flows (R77–R107): opening, closing, refilling, dispatch, the slow lane and late drops.
-/
namespace Sys2Proof.Machine

/-! ### Opening and closing (R82, R83) -/

/-- A context image within the rules passes the checks for M and firmware, where its flow is neither open nor opening. -/
theorem State.openCheck_of_form {s : State} {b : Bytes} (hid : leAt b 0 4 < 262144)
    (hcls : ctxField (leNat (sliceB b 4 64)) 4 3 ≠ 2)
    (hform : s.ctxForm (s.div.flowPart (leAt b 0 4)) (leAt b 0 4) (leNat (sliceB b 4 64)) = true)
    (hmodes : ctxModes (leNat (sliceB b 4 64)) = true)
    (hfree : s.flow? (s.div.flowPart (leAt b 0 4)) (leAt b 0 4) = none)
    (hwaits : ∀ e ∈ (s.part (s.div.flowPart (leAt b 0 4))).waits, e.1 ≠ leAt b 0 4) : s.openCheck 0 0 b = .ok := by
  have hnone (x : FlowWait) : (leAt b 0 4, x) ∉ (s.part (s.div.flowPart (leAt b 0 4))).waits := fun hx => hwaits _ hx rfl
  simp [State.openCheck, firstFail, Nat.not_le.mpr hid, hcls, hform, hmodes, hfree, hnone]

theorem opFlowOpen_of_checked {w : Writer} {b : Bytes} {s : State} (hcheck : s.openCheck w.owner w.part b = .ok)
    (hroom : s.canRefill (s.div.flowPart (leAt b 0 4)) = true) :
    opFlowOpen w b s =
      (some .ok, s.openFlow (s.div.flowPart (leAt b 0 4)) (leAt b 0 4) (leNat (sliceB b 4 64)) w.owner false) := by
  simp [opFlowOpen, hcheck, hroom]

/-- A close of a flow with an empty queue releases no item. -/
theorem State.closeFlow_of_nothing_queued {s : State} {p f : Nat} {x : Flow} (hflow : s.flow? p f = some x)
    (hopen : x.closing = false) (hqueued : x.queued = []) :
    s.closeFlow p f = (s.setFlow p f { x with closing := true }).closeIfDrained p f := by
  simp [State.closeFlow, State.dropQueued, hflow, hopen, hqueued]

theorem opFlowClose_of_resident {w : Writer} {id : Nat} {s t : State} (hhost : w.isHost = false)
    (hflow : (s.flow? (s.div.flowPart id) id).isSome = true) (htouch : s.touch (s.div.flowPart id) id = some t) :
    opFlowClose w id s = (some .ok, t.closeFlow (s.div.flowPart id) id) := by
  simp [opFlowClose, State.closeCheck, firstFail, hhost, Option.isNone_eq_false_iff.mpr hflow, htouch]

theorem State.closeIfDrained_of_drained {s : State} {p f : Nat} {x : Flow} (hflow : s.flow? p f = some x)
    (hclosing : x.closing = true) (hdrained : x.isDrained = true) :
    s.closeIfDrained p f = (s.setPart p { s.part p with flows := dropAt (s.part p).flows f }).flowGauges p := by
  simp [State.closeIfDrained, hflow, hclosing, hdrained]

/-- Settles O19: a checked image opens its flow with no items, a close marks the flow, and a closing flow that holds nothing
is dropped. -/
theorem flowsOpenAndClose : Obligations.FlowsOpenAndClose := by
  unfold Obligations.FlowsOpenAndClose
  refine ⟨?opens, ?checked, ?empty, ?closes, ?gone⟩
  case opens =>
    rintro s t acc w v p harrive rfl hcheck hroom
    change execFlowOpen acc s = _
    rw [execFlowOpen, State.write_answers harrive (opFlowOpen_of_checked hcheck hroom)]
  case checked =>
    rintro s id v p b rfl rfl hid rfl hcls hform hmodes hfree hwaits
    exact State.openCheck_of_form hid hcls hform hmodes hfree hwaits
  case empty =>
    intro v owner now hold
    exact ⟨rfl, rfl, rfl, rfl, rfl, rfl⟩
  case closes =>
    rintro s t u acc w v x p harrive hhost rfl hflow htouch hx hopen hqueued
    change execFlowClose acc s = _
    rw [execFlowClose, State.write_answers harrive (opFlowClose_of_resident hhost hflow htouch),
      State.closeFlow_of_nothing_queued hx hopen hqueued]
  case gone =>
    intro s p f x hflow hclosing hdrained
    exact State.closeIfDrained_of_drained hflow hclosing hdrained

/-! ### Contexts and items come back (R99, R101, R102) -/

@[simp] theorem State.flow_bump (s : State) (k n p f : Nat) : (s.bump k n).flow? p f = s.flow? p f := rfl

@[simp] theorem State.flow_sramWrite (s : State) (unit a n p f : Nat) : (s.sramWrite unit a n).flow? p f = s.flow? p f := rfl

/-- A context whose home reads well is resident in the entry it was read into. -/
theorem State.flow_refill {s : State} {p f i : Nat} {x : Flow}
    (hread : (s.vaultRead srcBulk (s.div.homeAddr p f) 64).1.isSome = true) :
    (s.refill p f i x).flow? p f = some { x with resident := true, store := i, lastUse := s.now } := by
  simp [State.refill, hread]

/-- A context that is not resident comes into the store while an entry of it is free. -/
theorem State.touch_of_free_entry {s : State} {p f : Nat} {x : Flow} (hflow : s.flow? p f = some x)
    (hout : x.resident = false) (hfree : ((s.part p).flows.filter (·.2.resident)).length < s.div.residentMax p) :
    ∃ i, s.touch p f = some (s.free.2.refill p f i x) := by
  simp only [State.touch, hflow, hout, List.length_map, hfree, Bool.false_eq_true, if_false, if_true]
  exact ⟨_, rfl⟩

theorem execContextRefill_of_no_wait {s : State} {f : FlowNo}
    (hwaits : ∀ e ∈ (s.part (s.div.flowPart f.val)).waits, e.1 ≠ f.val) :
    execContextRefill f s = .next ((s.touch (s.div.flowPart f.val) f.val).getD s) := by
  have hnone : (s.part (s.div.flowPart f.val)).waits.find? (·.1 == f.val) = none :=
    List.find?_eq_none.mpr fun e he => by simpa using hwaits e he
  simp [execContextRefill, hnone]

/-- An item whose entry reads well moves to the pool and is otherwise as it was. -/
theorem State.flow_moveEntry {s : State} {p f seq : Nat} {x : Flow} {it : Item} (hflow : s.flow? p f = some x)
    (hit : x.queued.find? (·.seq == seq) = some it) (hread : (s.readEntry p it).1 = true) :
    ∃ e, (s.moveEntry p f seq).flow? p f = some { x with
      queued := x.queued.map fun y => if y.seq = seq then { it with place := .pool, entry := e } else y } := by
  simp only [State.moveEntry, hflow, hit, hread, if_true, State.flow_setFlow]
  exact ⟨_, rfl⟩

/-- Of the enqueues that wait, the oldest goes on where it can. -/
theorem execEnqueueResume_of_first {s t : State} {p : PartNo} {e : Nat × Item} {rest : List (Nat × Item)}
    (hstalled : (s.part p.val).stalled = e :: rest)
    (hnow : (s.setPart p.val { s.part p.val with stalled := rest }).enqueueNow p.val e.1 e.2 = (some .ok, t)) :
    execEnqueueResume p s = .next t := by
  have hresume : s.tryResume p.val e = some t := by simp [State.tryResume, hstalled, hnow]
  simp [execEnqueueResume, Part.firstStalled, hstalled, hresume]

/-- An enqueue that finds a pool entry goes in at its flow's end. -/
theorem State.enqueueNow_of_pool {s t : State} {p f : Nat} {it : Item} {x y : Flow} (hflow : s.flow? p f = some x)
    (hopen : x.closing = false) (htouch : s.touch p f = some t) (hflow' : t.flow? p f = some y)
    (hopen' : y.closing = false) (hplace : t.placeFor p y = some .pool) :
    s.enqueueNow p f it = (some .ok, (t.entryFor p f y .pool).2.setFlow p f { y with
      queued := y.queued ++ [{ it with seq := y.nextSeq, place := .pool, entry := (t.entryFor p f y .pool).1 }],
      nextSeq := (y.nextSeq + 1) % 2 ^ 32, lastTick := t.now % 65536 }) := by
  simp [State.enqueueNow, hflow, hopen, htouch, hflow', hopen', hplace]

/-- Settles O20: a refill makes the context resident, the moves put items into the pool, and an enqueue that waited
joins its flow's end. -/
theorem contextsAndItemsRefill : Obligations.ContextsAndItemsRefill := by
  unfold Obligations.ContextsAndItemsRefill
  refine ⟨?context, ?items, ?moved, ?resumed, ?joined⟩
  case context =>
    rintro s f x p rfl hwaits hflow hout hfree hread
    obtain ⟨i, htouch⟩ := State.touch_of_free_entry hflow hout hfree
    refine ⟨_, i, ?_, State.flow_refill (s := s.free.2) hread⟩
    change execContextRefill f s = _
    rw [execContextRefill_of_no_wait hwaits, htouch]
    rfl
  case items =>
    rintro s f x p rfl hflow hfew hyard
    change execItemRefill f s = _
    simp [execItemRefill, hflow, hfew, hyard]
  case moved =>
    intro s p f seq x it hflow hit hread
    exact State.flow_moveEntry hflow hit hread
  case resumed =>
    intro s t p e rest hstalled hnow
    exact execEnqueueResume_of_first hstalled hnow
  case joined =>
    intro s t p f it x y hflow hopen htouch hflow' hopen' hplace
    exact ⟨_, _, State.enqueueNow_of_pool hflow hopen htouch hflow' hopen' hplace, State.flow_setFlow _ _ _ _⟩

/-! ### Dispatch (R84–R88) -/

theorem State.pick_of_offer {s : State} {p f unit : Nat} {x : Flow} {k : UnitKind} {it : Item}
    (hoffer : s.offer p x k = some it) (hfits : s.fits p x k it unit = true)
    (hserve : s.mayServe p k unit f x.cls x.prio = true) : s.pick p f x k it.seq unit = some it := by
  simp [State.pick, hoffer, Option.filter, hfits, hserve]

/-- An item that can be read goes on to its unit. -/
theorem State.issueTo_of_readable {s u : State} {p f unit : Nat} {x : Flow} {k : UnitKind} {it : Item}
    (hgoing : it.stopped = false) (hread : s.readEntry p it = (true, u)) :
    s.issueTo p f x k unit it =
      (if x.cls = .bulk then u.noteTurn p k unit f x.prio else u).dispatch p f x k unit
        ((if x.cls = .bulk then u.noteTurn p k unit f x.prio else u).withVersions p it) := by
  simp [State.issueTo, hgoing, hread]

theorem execItemDispatch_of_pick {s t : State} {f : FlowNo} {seq unit : Nat} {x y : Flow} {kn : Kernel} {it : Item}
    (hflow : s.flow? (s.div.flowPart f.val) f.val = some x) (hkernel : s.kernelOf x = some kn)
    (hpick : s.pick (s.div.flowPart f.val) f.val x kn.kind seq unit = some it)
    (htouch : s.touch (s.div.flowPart f.val) f.val = some t) (hflow' : t.flow? (s.div.flowPart f.val) f.val = some y)
    (hgood : y.failed = false) :
    execItemDispatch f seq unit s = .next (t.issueTo (s.div.flowPart f.val) f.val y kn.kind unit it) := by
  simp [execItemDispatch, hflow, hkernel, hpick, htouch, hflow', hgood]

theorem State.flow_issue {s : State} {p f u : Nat} {x : Flow} {k : UnitKind} {it : Item} (hfirst : it.begun = false) :
    (s.issue p f x k u it).flow? p f = some { x with
      queued := x.queued.filter (·.seq != it.seq),
      running := x.running ++ [{ it with start := s.now % 65536, begun := true, unit := u }],
      lastTick := s.now % 65536, lastUse := s.now } := by
  simp [State.issue, hfirst]

/-- A strict-serial flow offers none but its oldest item. -/
theorem State.offer_of_strict {s : State} {p : Nat} {x : Flow} {k : UnitKind} {it : Item} (hoffer : s.offer p x k = some it)
    (hstrict : x.mode = .strict) : x.queued.head? = some it := by
  have hwindow : it ∈ x.window := by
    unfold State.offer at hoffer
    split at hoffer
    · exact List.mem_of_find?_eq_some hoffer
    · contradiction
  have hone : x.window = (x.queued.take 1).filter (·.place != .yard) := by simp [Flow.window, hstrict]
  have hoffered : it ∈ x.queued.take 1 := List.mem_of_mem_filter (hone ▸ hwindow)
  cases hqueue : x.queued with
  | nil => simp [hqueue] at hoffered
  | cons y l => simpa [hqueue, eq_comm] using hoffered

/-- Settles O21: an item that is offered and may be served is read, leaves the queue and goes where its unit takes it. -/
theorem dispatchIssuesTheOfferedItem : Obligations.DispatchIssuesTheOfferedItem := by
  unfold Obligations.DispatchIssuesTheOfferedItem
  refine ⟨?dispatched, ?inFlight, ?started, ?loaded, ?queued, ?strict⟩
  case dispatched =>
    rintro s t u f seq unit p x y kn it rfl hflow hkernel hoffer rfl hgoing hfits hserve htouch hflow' hgood hread
    change execItemDispatch f it.seq unit s = _
    rw [execItemDispatch_of_pick hflow hkernel (State.pick_of_offer hoffer hfits hserve) htouch hflow' hgood,
      State.issueTo_of_readable hgoing hread]
  case inFlight =>
    intro s p f u x k it hfirst
    exact State.flow_issue hfirst
  case started =>
    intro s p u f q hslots
    simp [State.place, hslots]
  case loaded =>
    intro s p u f q g r hslots
    simp [State.place, State.loadSlot, hslots, Slot.isRunning]
  case queued =>
    intro s p k u f q hk
    unfold State.place
    split
    · contradiction
    · rfl
  case strict =>
    intro s p x k it hoffer hstrict
    exact State.offer_of_strict hoffer hstrict

/-! ### Bolt ends, the slow lane, late drops and HOLD (R89, R93, R94, R96) -/

/-- An item of an ordered-release flow at its soft budget leaves its unit for the slow lane. -/
theorem execSlowLane_of_budget {s : State} {f : FlowNo} {seq : Nat} {x : Flow} {it : Item} {kn : Kernel}
    (hflow : s.flow? (s.div.flowPart f.val) f.val = some x) (hit : x.running.find? (·.seq == seq) = some it)
    (hkernel : s.kernelOf x = some kn) (hmode : x.mode = .ordered) (hage : x.softBudget ≤ s.age it) :
    execSlowLane f seq s = .next (
      let p := s.div.flowPart f.val
      let spills := kn.kind = .core && !s.notStarted it.unit f.val seq
      let t := ((s.setFlow p f.val { x with
        running := x.running.filter (·.seq != seq),
        slow := x.slow ++ [{ it with slow := true, stopped := true, spilled := spills }] }).unplace kn.kind it.unit f.val
          seq).bump (at_ Ob.SLOW_ENTRIES p)
      if spills then (t.freshen (s.div.slotSpill p it.unit) slotSpillBytes).bump (at_ Ob.SLOT_SPILLS p) else t) := by
  simp [execSlowLane, hflow, hit, hkernel, hmode, hage]

theorem execLateDrop_of_limit {s : State} {f : FlowNo} {seq : Nat} {x : Flow} {it : Item}
    (hflow : s.flow? (s.div.flowPart f.val) f.val = some x)
    (hit : (x.queued.filter (·.begun) ++ x.running ++ x.slow).find? (·.seq == seq) = some it) (hmode : x.mode = .ordered)
    (hage : x.hardLimit ≤ s.age it) :
    execLateDrop f seq s = .next ((s.bump (at_ Ob.LATE_DROPS (s.div.flowPart f.val))).endItem (s.div.flowPart f.val) f.val
      { it with status := .late } false) := by
  simp only [execLateDrop, hflow, hit, hmode, hage, decide_true, Bool.true_or, Bool.and_self, if_true]

theorem execHold_of_asked {s t : State} {f : FlowNo} {e : Nat × Bool × Nat} {x : Flow}
    (hasked : (s.part (s.div.flowPart f.val)).holds.find? (fun e => e.1 == f.val && decide (s.since e.2.2 < 2 ^ 47)) = some e)
    (htouch : s.touch (s.div.flowPart f.val) f.val = some t) (hflow : t.flow? (s.div.flowPart f.val) f.val = some x) :
    execHold f s = .next (
      let p := s.div.flowPart f.val
      ((t.setPart p { t.part p with holds := (t.part p).holds.erase e }).unblock p f.val (2 ^ 32)).setFlow p f.val
        { x with hold := e.2.1 }) := by
  have hflow' : ∀ l, (t.setPart (s.div.flowPart f.val) { t.part (s.div.flowPart f.val) with holds := l }).flow?
      (s.div.flowPart f.val) f.val = some x := by
    intro l
    simpa [State.flow?] using hflow
  simp only [execHold, hasked, htouch, State.flow_unblock, hflow']

/-- Settles O23: a slot whose item has left is freed and the core changes to its other one; age moves an item to the slow
lane or makes it late; a pending change of HOLD is made. -/
theorem boltsSlowItemsAndHolds : Obligations.BoltsSlowItemsAndHolds := by
  unfold Obligations.BoltsSlowItemsAndHolds
  refine ⟨?boltEnd, ?switched, ?engineSlow, ?coreSlow, ?late, ?hold⟩
  case boltEnd =>
    intro s c f q y hslots hgone
    change execBoltEnd c s = _
    simp [execBoltEnd, hslots, hgone, Slot.isRunning]
  case switched =>
    intro f q
    exact ⟨rfl, rfl, rfl⟩
  case engineSlow =>
    rintro s f seq p x it kn rfl hflow hit hkernel hkind hmode hage
    change execSlowLane f seq s = _
    rw [execSlowLane_of_budget hflow hit hkernel hmode hage]
    simp [hkind]
  case coreSlow =>
    rintro s f seq p x it kn rfl hflow hit hkernel hkind hstarted hmode hage
    change execSlowLane f seq s = _
    rw [execSlowLane_of_budget hflow hit hkernel hmode hage]
    simp [hkind, hstarted]
  case late =>
    rintro s f seq p x it rfl hflow hit hmode hage
    exact execLateDrop_of_limit hflow hit hmode hage
  case hold =>
    rintro s t f p e x rfl hasked htouch hflow
    exact execHold_of_asked hasked htouch hflow

end Sys2Proof.Machine
end

section
/-!
Ends of work (R242–R246, R303), the tick edge and the deadline edge (R33–R51).
-/
namespace Sys2Proof.Machine

/-! ### End marks and runs (R242, R244) -/

/-- The end mark of a stage acts once all its marks have come and its flow has released what came before. -/
theorem execEndMark_of_ready {s : State} {p : PartNo} {h : HandleNo} {stage : Nat} {im : Image} {r : GraphRun} {g : Graph}
    {st : GraphStage} {y : StageRun} {x : Flow} (himage : look (s.part p.val).images h.val = some im)
    (hrun : (s.part p.val).runs.find? (fun r => r.handle == h.val && r.index == stage / 256) = some r)
    (hgraph : im.content.graphs.find? (fun g => g.index == stage / 256) = some g)
    (hstage : g.stages[stage % 256]? = some st) (hstate : r.stages[stage % 256]? = some y)
    (hflow : s.flow? p.val (im.flowBase + st.inFlow) = some x) (hclear : x.clearBefore y.last = true)
    (hhold : x.hold = false) (hended : y.ended = false) (hmarks : s.marksDue p.val im g r st ≤ y.marks) :
    execEndMark p h stage s =
      .next (s.passStage p.val (im.flowBase + st.inFlow) h.val im g (stage / 256) (stage % 256) st y) := by
  simp [execEndMark, himage, hrun, hgraph, hstage, hstate, hflow, hclear, hhold, hended, Nat.not_lt.mpr hmarks]

/-! ### The edge of a PIPE_STOP (R246) -/

theorem State.finishAll_told (s : State) (ids : List Nat) (st : Status) : s.Told (s.finishAll ids st) :=
  State.foldl_told (fun t i => t.finish_told i st 0) ids s

/-- A stop that does not unload, of an image that no epoch runs: what its flows held is counted before they end, and its
operator state goes with its runs. -/
theorem State.stopImage_of_no_epoch {s : State} {p id h : Nat} {im : Image} (hepochs : ∀ e ∈ (s.part p).epochs, e.2.handle ≠ h) :
    ∃ t : State, s.stopImage p id h false im = t.finish id .ok (min (((span im.flowBase im.nFlows).filter
      fun f => (s.flow? p f).isSome).map (s.flowLoad p)).sum 0x7FFFFFFF) ∧ ∀ o ∈ (t.part p).ops, o.handle ≠ h := by
  have hnone : (s.part p).epochs.filter (fun e => e.2.handle == h) = [] :=
    List.filter_eq_nil_iff.mpr fun e he => by simpa using hepochs e he
  simp only [State.stopImage, hnone, List.map_nil, List.foldl_nil, Bool.false_eq_true, if_false]
  refine ⟨_, rfl, ?_⟩
  intro o ho
  rw [State.part_of_parts (State.finishAll_told _ _ _).parts_eq, State.part_setPart] at ho
  simpa using (List.mem_filter.mp ho).2

/-- A stop that waits for its edge no longer does. -/
def State.stopTaken (s : State) (p : Nat) : State := s.setPart p { s.part p with stop := none }

theorem State.flow_stopTaken (s : State) (p f : Nat) : (s.stopTaken p).flow? p f = s.flow? p f := by
  simp [State.stopTaken, State.flow?]

theorem State.flowLoad_stopTaken (s : State) (p : Nat) : (s.stopTaken p).flowLoad p = s.flowLoad p := by
  funext f
  rw [State.flowLoad, State.flowLoad, State.flow_stopTaken]
  simp [State.stopTaken]

/-! ### The edge of a TABLE_DROP (R303) -/

/-- A dropped table has no version in service. -/
theorem State.dropTable_retires (s : State) (p id : Nat) (t : Table) : ∃ (u : State) (x : Table),
    s.dropTable p id t = (u.setTable p x).finish id .ok 0 ∧ x.dropped = true ∧ x.drop = none ∧
      ∀ v ∈ x.versions, v.state = .retiring := by
  refine ⟨_, _, rfl, rfl, rfl, fun v hv => ?_⟩
  obtain ⟨w, -, rfl⟩ := List.mem_map.mp hv
  split
  · assumption
  · rfl

/-- Settles O24: a stage passes on once its marks are in and its flow is clear, the edge of a stop counts and ends what the
image's flows held, and the edge of a drop retires every version. -/
theorem stagesImagesAndTablesEnd : Obligations.StagesImagesAndTablesEnd := by
  unfold Obligations.StagesImagesAndTablesEnd
  refine ⟨?stage, ?lastSink, ?absent, ?stopped, ?dropped⟩
  case stage =>
    intro s p h stage im r g st y x himage hrun hgraph hstage hstate hflow hclear hhold hended hmarks
    exact execEndMark_of_ready himage hrun hgraph hstage hstate hflow hclear hhold hended hmarks
  case lastSink =>
    intro s p im g r hended
    simp only [State.endRun, hended, if_true, State.graphFlows, State.part_setPart]
  case absent =>
    intro s p id h b hstop hnone
    change execPipeStopEdge p s = _
    simp [execPipeStopEdge, hstop, hnone]
  case stopped =>
    intro s p id h im hstop himage hepochs
    obtain ⟨t, ht, hops⟩ := State.stopImage_of_no_epoch (s := s.stopTaken p.val) (p := p.val) (id := id) (h := h) (im := im)
      (by simpa [State.stopTaken] using hepochs)
    simp only [State.flow_stopTaken, State.flowLoad_stopTaken] at ht
    refine ⟨t, ?_, hops⟩
    change execPipeStopEdge p s = _
    rw [← ht]
    simp [execPipeStopEdge, hstop, himage, State.stopTaken]
  case dropped =>
    intro s p table id t htable hdrop
    obtain ⟨u, x, hu, hx⟩ := s.dropTable_retires p.val id t
    refine ⟨u, x, ?_, hx⟩
    change execTableDropEdge p table s = _
    simp [execTableDropEdge, htable, hdrop, hu]

/-! ### The tick edge and LAT_SHARE (R33, R40) -/

@[simp] theorem State.now_stepCounter (s : State) : s.stepCounter.now = (s.now + 1) % 2 ^ 48 := by
  unfold State.stepCounter
  dsimp only
  split <;> rfl

theorem opLatShare_of_legal {w : Writer} {v : Nat} {s : State} (hv : v ≤ 50) :
    opLatShare w v s =
      (some .ok, { s.put Ob.LAT_SHARE v with ticks := { s.ticks with latShare := s.ticks.latShare ++ [(2, v)] } }) := by
  rw [opLatShare, if_neg (Nat.not_lt.mpr hv)]

/-! ### The deadline edge (R51) -/

@[simp] theorem State.get_relabel (s : State) (c : Cmd) (k : Nat) : (s.relabel c).get k = s.get k := rfl

theorem State.get_countLate_zero (s : State) (inBound : Bool) :
    (s.countLate 0 inBound).get Ob.DEADLINE_P0 = satAdd (odMax Ob.DEADLINE_P0) (s.get Ob.DEADLINE_P0) 1 := by
  have hne : Ob.DEADLINE_P0 ≠ Ob.DEADLINE_IN_BOUND_P0 := by decide
  cases inBound <;> simp [State.countLate, State.get_bump_ne _ _ hne]

/-- Settles O25: the edge of a clocked device runs the parts of the block one after another, LAT_SHARE waits two edges, and
the deadline edge marks what is due and counts a held completion. -/
theorem tickEdgesSharesAndDeadlines : Obligations.TickEdgesSharesAndDeadlines := by
  unfold Obligations.TickEdgesSharesAndDeadlines
  refine ⟨?edge, State.now_stepCounter, fun s => ⟨rfl, rfl⟩, fun s => ⟨rfl, rfl⟩, ?share, ?applied, fun s => rfl, ?request, ?held⟩
  case edge =>
    rintro s t hclocked rfl
    change execTickEdge s = _
    simp only [execTickEdge, hclocked, Bool.not_true, Bool.false_eq_true, if_false]
  case share =>
    intro s t acc w v harrive hv
    change execLatShare acc s = _
    rw [execLatShare, State.write_answers harrive (opLatShare_of_legal hv)]
  case applied =>
    intro s v rest hshare
    change execLatShareApply s = _
    simp [execLatShareApply, hshare]
  case request =>
    intro s i r
    exact ⟨_, look_setAt_self _ _ _, rfl⟩
  case held =>
    intro s c hstage hpart
    simp [State.markCmd, hstage, hpart, State.get_countLate_zero]

end Sys2Proof.Machine
end

section
/-!
Upkeep of the vaults and the stand links (R16, R17, R43, R45, R60–R73).
-/
namespace Sys2Proof.Machine

/-- What no turn of a fold changes, the fold does not change. -/
theorem foldl_eq_of_step_eq {σ α β : Type} (f : σ → β) {g : σ → α → σ} (h : ∀ t x, f (g t x) = f t) (l : List α) (s : σ) :
    f (l.foldl g s) = f s := by
  induction l generalizing s with
  | nil => rfl
  | cons x l ih => exact (ih (g s x)).trans (h s x)

/-! ### Refresh (R43, R64, R65) -/

/-- Settles O26: each of the three rows acts on its vault's owed count alone. -/
theorem refreshKeepsItsBooks : Obligations.RefreshKeepsItsBooks := by
  unfold Obligations.RefreshKeepsItsBooks
  refine ⟨?interval, ?forced, ?slice, ?ahead⟩
  case interval =>
    intro s n v hclocked
    change execRefreshInterval n v s = _
    simp [execRefreshInterval, State.vaultsRun, hclocked]
  case forced =>
    intro s n v hruns howed
    change execForcedRefresh n v s = _
    simp [execForcedRefresh, hruns, howed]
  case slice =>
    intro s n v hruns howed
    change execSliceRefresh n v s = _
    simp [execSliceRefresh, hruns, howed]
  case ahead =>
    intro s n v howed
    change execSliceRefresh n v s = _
    simp [execSliceRefresh, Int.not_lt.mpr howed]

/-! ### Temperature (R64) -/

@[simp] theorem State.stand_checkStale (s : State) (n m : Nat) : (s.checkStale n).stand m = s.stand m := by
  unfold State.checkStale
  split <;> simp

/-- The state after a reading of a clocked device. -/
theorem execTemperatureReading_of_reading {s : State} {n : StandNo} {l : List Nat} (hclocked : s.clocked = true) (hl : l ≠ []) :
    ∃ t, execTemperatureReading n l s = .next t ∧
      t.stand n.val = { s.stand n.val with temp := l.foldl max 0, lastReading := s.now, hot := (
        if 84 ≤ l.foldl max 0 then true else if l.foldl max 0 ≤ 81 then false else (s.stand n.val).hot) } ∧
      ∀ m, m ≠ n.val → t.stand m = s.stand m := by
  have hguard : (l.isEmpty || !s.vaultsRun) = false := by simp [State.vaultsRun, hclocked, hl]
  simp only [execTemperatureReading, hguard, Bool.false_eq_true, if_false]
  refine ⟨_, rfl, by simp [State.stand_setHot], fun m hm => ?_⟩
  simp [State.stand_setHot_ne _ _ hm, State.stand_setStand_ne _ _ hm]

/-- Settles O27: the reading sets the stand's mode by its two limits, a timeout makes it hot. -/
theorem standsFollowTheirTemperature : Obligations.StandsFollowTheirTemperature := by
  unfold Obligations.StandsFollowTheirTemperature
  refine ⟨?reading, ?timeout, fun s n b => by rw [State.stand_setHot]⟩
  case reading =>
    intro s n l hclocked hl
    obtain ⟨t, hexec, hstand, hothers⟩ := execTemperatureReading_of_reading hclocked hl
    refine ⟨t, hexec, by rw [hstand], by rw [hstand], fun hhot => ?_, fun hcool => ?_, fun hlow hhigh => ?_, hothers⟩
    · simp [hstand, hhot]
    · simp [hstand, hcool, show ¬ 84 ≤ l.foldl max 0 by omega]
    · simp [hstand, Nat.not_le.mpr hlow, Nat.not_le.mpr hhigh]
  case timeout =>
    intro s n hclocked hage
    change execSensorTimeout n s = _
    simp [execSensorTimeout, State.vaultsRun, hclocked, hage]

/-! ### Scrub and write-back (R60, R67) -/

theorem State.vaultRead_snd_of_no_flips {s : State} (h : s.flips = []) (source da n : Nat) :
    (s.vaultRead source da n).2 = s :=
  (State.vaultRead_clean source (State.flipped_nil h da n)).1

/-- A scrub access that is owed and meets no stored error. -/
theorem execScrubAccess_of_clean {s : State} {n : StandNo} {v : VaultNo} (hruns : s.maintRuns n.val 1 = true)
    (henable : s.get Ob.SCRUB_ENABLE ≠ 0) (hlag : (s.vault (vaultNo n v)).lag ≠ 0) (hflips : s.flips = []) :
    execScrubAccess n v s = .next (
      let x := s.vault (vaultNo n v)
      if x.cursor + 1 = vaultAccesses then
        let t := s.setVault (vaultNo n v) { x with lag := x.lag - 1, cursor := 0, passes := x.passes + 1, seen := [] }
        t.put Ob.SCRUB_PASSES (min (2 ^ 32 - 1) t.allPasses)
      else s.setVault (vaultNo n v) { x with lag := x.lag - 1, cursor := x.cursor + 1 }) := by
  simp only [execScrubAccess, hruns, henable, hlag, State.vaultRead_snd_of_no_flips hflips, Bool.not_true, decide_false,
    Bool.or_false, Bool.false_eq_true, if_false]

@[simp] theorem State.poke_flips (s : State) (da : Nat) (b : Bytes) : (s.poke da b).flips = s.flips := by
  induction b generalizing s da with
  | nil => rfl
  | cons x b ih => exact ih (s.setByte da x) (da + 1)

/-- Settles O28: a clean access only moves the vault's scrub books, and a write-back leaves a fresh codeword. -/
theorem scrubsAndWriteBacks : Obligations.ScrubsAndWriteBacks := by
  unfold Obligations.ScrubsAndWriteBacks
  refine ⟨?access, ?lastAccess, ?writeBack⟩
  case access =>
    intro s n v hruns henable hlag hflips hcursor
    change execScrubAccess n v s = _
    simp only [execScrubAccess_of_clean hruns henable hlag hflips, hcursor, if_false]
  case lastAccess =>
    intro s n v hruns henable hlag hflips hcursor
    refine ⟨_, execScrubAccess_of_clean hruns henable hlag hflips, ?_, ?_⟩ <;> simp [hcursor]
  case writeBack =>
    intro s n v wa d rest hruns hqueue
    refine ⟨_, ?_, rfl⟩
    change execWriteBack n v s = _
    simp [execWriteBack, hqueue, hruns]

/-! ### Repair (R62, R63) -/

theorem State.steer_of_no_flips {s : State} (h : s.flips = []) (da : Nat) : s.steer da = s := by
  simp [State.steer, State.flipped_nil h]

/-- An error that is logged moves no object but the log's own two. -/
theorem State.get_logError_ne (s : State) (e : ErrEntry) {k : Nat} (hhead : k ≠ Ob.ERR_LOG_HEAD)
    (hover : k ≠ Ob.ERR_LOG_OVERWRITTEN) : (s.logError e).get k = s.get k := by
  unfold State.logError
  dsimp only
  split
  · split
    · rw [State.get_bump_ne _ _ hover, State.get_put_ne _ _ hhead]
      rfl
    · rw [State.get_put_ne _ _ hhead]
      rfl
  · rfl

/-- A finished pass with none waiting leaves its slice's soft entry. -/
theorem State.activateRepair_last {s : State} (r : RepairPass) (hqueue : s.repairQueue = []) :
    let t := (s.activateRepair r).nextRepair
    t.repairPass = none ∧ t.get Ob.REPAIR_ACTIVE = 0xFFFFFFFF ∧
      t.repairEntry r.unit = some { pos := r.pos, soft := true } := by
  have hnext : (s.activateRepair r).nextRepair = s.activateRepair r := by
    simp [State.nextRepair, State.activateRepair, hqueue]
  rw [hnext]
  refine ⟨by simp [State.activateRepair], ?_, by simp [State.repairEntry, State.activateRepair]⟩
  rw [State.activateRepair, State.get_logError_ne _ _ (by decide) (by decide), State.get_put_self]

/-- Settles O29: a pass starts or waits, steps by one access, and at the last leaves its entry active. -/
theorem repairPassesRun : Obligations.RepairPassesRun := by
  unfold Obligations.RepairPassesRun
  refine ⟨?starts, ?waits, ?steps, ?ends⟩
  case starts =>
    intro s n v sl pos hclocked hpos hentry hqueue hpass
    change execRepairPassStart n v sl s = _
    simp only [execRepairPassStart, hpos, State.vaultsRun, hclocked, hentry, hqueue, hpass]
    rfl
  case waits =>
    intro s n v sl pos r hclocked hpos hentry hqueue hpass hother
    change execRepairPassStart n v sl s = _
    simp only [execRepairPassStart, hpos, State.vaultsRun, hclocked, hentry, hqueue, hpass, hother]
    rfl
  case steps =>
    intro s r hruns hpass hflips hcursor
    change execRepairPassStep s = _
    simp [execRepairPassStep, hpass, hruns, State.steer_of_no_flips hflips, hcursor]
  case ends =>
    intro s r hruns hpass hflips hcursor hqueue
    refine ⟨(s.activateRepair r).nextRepair, ?_, State.activateRepair_last r hqueue⟩
    change execRepairPassStep s = _
    simp [execRepairPassStep, hpass, hruns, State.steer_of_no_flips hflips, hcursor]

/-! ### Maintenance and wipes (R45, R67, R69, R71, R73) -/

theorem State.get_calibrated_ne (s : State) (n : Nat) {k : Nat} (h : k ≠ Ob.CAL_STALE) : (s.calibrated n).get k = s.get k := by
  rw [State.calibrated, State.get_put_ne _ _ h, State.setStand_read_get]

/-- The stands of a scope calibrated one after another. -/
def State.calibrateAll (s : State) (scope : Nat) : State :=
  (List.range 20).foldl (fun (t : State) n => if bitOf scope n then t.calibrated n else t) s

theorem State.get_calibrateAll_ne (s : State) (scope : Nat) {k : Nat} (h : k ≠ Ob.CAL_STALE) :
    (s.calibrateAll scope).get k = s.get k :=
  foldl_eq_of_step_eq (fun t : State => t.get k) (fun t n => by
    split
    · exact t.get_calibrated_ne n h
    · rfl) _ s

theorem State.ticks_calibrateAll (s : State) (scope : Nat) : (s.calibrateAll scope).ticks = s.ticks :=
  foldl_eq_of_step_eq State.ticks (fun t n => by split <;> rfl) _ s

/-- The last edge of a period calibrates its stands, settles their refresh and is counted. -/
theorem State.stepMaint_of_last {s : State} {scope : Nat} (h : s.ticks.maint = some (scope, s.now)) :
    ∃ vs, s.stepMaint = ({ ({ s with ticks := { s.ticks with maint := none } } : State).calibrateAll scope with
      vaults := vs } : State).bump Ob.CAL_COUNT := by
  simp only [State.stepMaint, h, ne_eq, not_true_eq_false, if_false]
  exact ⟨_, rfl⟩

/-- What a note of every stand of a scope leaves: it adds to the breaks of the look-up bound alone. -/
theorem State.noteMaint_frame (s : State) (scope : Nat) :
    (s.noteMaint scope).ticks.maint = s.ticks.maint ∧ (s.noteMaint scope).vaults = s.vaults := by
  constructor
  · exact foldl_eq_of_step_eq (fun t : State => t.ticks.maint) (fun t n => by split <;> rfl) _ s
  · exact foldl_eq_of_step_eq State.vaults (fun t n => by split <;> rfl) _ s

/-- A period that is announced fills the four registers. -/
theorem execMaintAnnounce_of_due {s : State} {n : StandNo} {lead : Nat} (hmode : s.boot.mode = .running)
    (hawake : s.clk.asleep = false) (hnone : s.get Ob.MAINT_FIRST_TICK = 0) (hmaint : s.ticks.maint = none)
    (hlead : divUp 940000 (s.get Ob.TICK_PERIOD_ACTIVE) ≤ lead) (hfirst : (s.now + lead) % 2 ^ 48 ≠ 0)
    (hdue : s.calDue n.val lead = true) :
    execMaintAnnounce n lead s = .next ((([0, 1].foldl (fun t p => t.portEvent p evMaint)
      ((((s.put Ob.MAINT_FIRST_TICK ((s.now + lead) % 2 ^ 48)).put Ob.MAINT_SCOPE (2 ^ n.val)).put Ob.MAINT_LENGTH
        s.calTicks).put Ob.MAINT_ANNOUNCED_AT s.now)).occur 2 0xFF 0)) := by
  simp only [execMaintAnnounce, hmode, hawake, hnone, hmaint, Nat.not_lt.mpr hlead, hfirst, hdue]
  rfl

/-- The period begins at the announced tick. -/
theorem execMaintPeriod_of_announced {s : State} (hfirst : s.get Ob.MAINT_FIRST_TICK ≠ 0)
    (hcome : s.since (s.get Ob.MAINT_FIRST_TICK) < 2 ^ 47) (hawake : s.clk.asleep = false) :
    execMaintPeriod s = .next ((({ s with ticks := { s.ticks with
      maint := some (s.get Ob.MAINT_SCOPE, (s.now + s.get Ob.MAINT_LENGTH) % 2 ^ 48) } } : State).noteMaint
        (s.get Ob.MAINT_SCOPE)).put Ob.MAINT_FIRST_TICK 0) := by
  simp only [execMaintPeriod, hfirst, Nat.not_le.mpr hcome, hawake]
  rfl

/-- The oldest wipe ends. -/
theorem execWipeComplete_of_oldest {s : State} {ps scope : Nat} {rest : List (Nat × Nat)} (h : s.wipes = (ps, scope) :: rest) :
    execWipeComplete s = .next ((((({ s.calibrateAll scope with wipes := rest } : State).put Ob.WIPE_LAST_TICK
      (s.calibrateAll scope).now).put Ob.WIPE_LAST_SCOPE scope).bump Ob.WIPE_COUNT)) := by
  simp only [execWipeComplete, h]
  rfl

theorem opScrubPeriod_of_legal {w : Writer} {v : Nat} {s : State} (h : 1 ≤ v ∧ v ≤ 720) :
    opScrubPeriod w v s = (some .ok, s.put Ob.SCRUB_PERIOD_H v) := by
  simp [opScrubPeriod, h]

/-- Settles O30: the announcement fills its registers, the period's first and last edge do what R45 and R69 ask of them, and
the end of the oldest wipe is recorded. -/
theorem maintenanceIsAnnouncedAndKept : Obligations.MaintenanceIsAnnouncedAndKept := by
  unfold Obligations.MaintenanceIsAnnouncedAndKept
  refine ⟨?announced, ?begins, ?ends, ?calibrated, ?wiped, ?period, ?sample⟩
  case announced =>
    intro s n lead hmode hawake hnone hmaint hlead hfirst hdue
    refine ⟨_, execMaintAnnounce_of_due hmode hawake hnone hmaint hlead hfirst hdue, ?_⟩
    simp (disch := decide) [State.get_put_ne, State.calTicks]
  case begins =>
    intro s hfirst hcome hawake
    refine ⟨_, execMaintPeriod_of_announced hfirst hcome hawake, State.get_put_self _ _ _, ?_⟩
    simp [State.noteMaint_frame]
  case ends =>
    intro s scope h
    obtain ⟨vs, hstep⟩ := State.stepMaint_of_last h
    have hcount : (({ s with ticks := { s.ticks with maint := none } } : State).calibrateAll scope).get Ob.CAL_COUNT =
        s.get Ob.CAL_COUNT := State.get_calibrateAll_ne _ _ (by decide)
    rw [hstep]
    refine ⟨by simp [State.ticks_calibrateAll], ?_⟩
    rw [State.get_bump_self, ← hcount]
    rfl
  case calibrated =>
    intro s n
    simp [State.calibrated, bitOf_setBit]
  case wiped =>
    intro s ps scope rest h
    refine ⟨_, execWipeComplete_of_oldest h, rfl, ?_⟩
    have hcount : (s.calibrateAll scope).get Ob.WIPE_COUNT = s.get Ob.WIPE_COUNT :=
      State.get_calibrateAll_ne _ _ (by decide)
    simp (disch := decide) [State.get_bump_ne, State.get_put_ne, State.now, State.ticks_calibrateAll, ← hcount]
    rfl
  case period =>
    intro s t acc w v harrive hlow hhigh
    change execScrubPeriodH acc s = _
    rw [execScrubPeriodH, State.write_answers harrive (opScrubPeriod_of_legal ⟨hlow, hhigh⟩)]
  case sample =>
    intro s hclocked hdue hperiod
    change execCounterSample s = _
    simp [execCounterSample, State.vaultsRun, hclocked, hdue, hperiod]

/-! ### Stand links (R16, R17) -/

@[simp] theorem Stand.link_setLink (x : Stand) (up : Bool) (l : Link) : (x.setLink up l).link up = l := by
  cases up <;> rfl

theorem Stand.link_retraining (x : Stand) (up b : Bool) : ({ x with retraining := b } : Stand).link up = x.link up := by
  cases up <;> rfl

/-- The receiver's rejected flit becomes the oldest one in the buffer, and its failures in a row are counted. -/
theorem Link.fail_of_flit {l : Link} {pick : Nat} {e : Nat × Nat × Nat}
    (h : l.buffer[pick % max 1 l.buffer.length]? = some e) :
    (l.fail pick).failing = e.1 ∧ (l.fail pick).buffer.head? = some e ∧
      (l.fail pick).fails = if l.fails ≠ 0 ∧ l.failing = e.1 then l.fails + 1 else 1 := by
  simp [Link.fail, h]

/-- Four failures in a row of one flit of a link that runs. -/
theorem execLinkRetrain_of_fourth {s : State} {n : StandNo} {up : Bool} (hruns : (s.stand n.val).retraining = false)
    (hfails : 4 ≤ ((s.stand n.val).link up).fails) :
    execLinkRetrain n up s = .next ((((((s.stand n.val).link up).buffer.foldl (fun (t : State) e => t.cutItem e.2.1 e.2.2)
      s).setStand n.val { ((s.stand n.val).setLink up { (s.stand n.val).link up with buffer := [], fails := 0 }) with
        retraining := true }).bump (Ob.LINK_RETRAIN + n.val)).noteBreak 4 n.val) := by
  simp [execLinkRetrain, hruns, Nat.not_lt.mpr hfails]

/-- Settles O31: a failed flit is replayed from and counted, and the fourth failure in a row retrains the link. -/
theorem standLinksReplayAndRetrain : Obligations.StandLinksReplayAndRetrain := by
  unfold Obligations.StandLinksReplayAndRetrain
  refine ⟨?replayed, fun l pick e h => Link.fail_of_flit h, ?idleRetrain, fun s n up => execLinkRetrain_of_fourth,
    fun s n => rfl⟩
  case replayed =>
    intro s n up hruns hfails
    change execFlitFailure n up s = _
    simp [execFlitFailure, hruns, Nat.not_le.mpr hfails]
  case idleRetrain =>
    intro s n up hruns hfails hbuffer
    refine ⟨_, execLinkRetrain_of_fourth hruns hfails, ?_⟩
    simp [hbuffer, Stand.link_retraining]

end Sys2Proof.Machine
end

section
/-!
Network ports: modules, links, and the frames a sub-port answers (R139–R148).
-/
namespace Sys2Proof.Machine

/-! ### Modules (R144, R148) -/

@[simp] theorem State.net_setPortState (s : State) (n v m : Nat) : (s.setPortState n v).net m = s.net m := by
  simp [State.net]

@[simp] theorem State.dget_setPortState (s : State) (n v k : Nat) : (s.setPortState n v).dget k = s.dget k := by
  unfold State.setPortState
  split <;> simp

@[simp] theorem State.dget_dput_self (s : State) (k : Nat) (b : Bytes) : (s.dput k b).dget k = b := by
  simp [State.dget, State.dput, lookD_setAt]

/-- A write of 1 to PORT_ENABLE of a disabled port. -/
theorem execPortEnable_runs {s t : State} {acc : Access} {m : ModuleScript} {w : Writer} {v : Bytes}
    (harrive : s.arrive acc (isPortEnable (· = 1)) = .go w v t) (hoff : t.get (at_ Ob.PORT_ENABLE (netOf w.idx)) ≠ 1) :
    execPortEnable acc m s = .next ((t.enablePort (netOf w.idx) m).2.respond w.reply (t.enablePort (netOf w.idx) m).1) := by
  rw [execPortEnable, State.write_answers harrive (if_neg hoff)]

/-- A write of 0 to PORT_ENABLE of an enabled port. -/
theorem execPortDisable_runs {s t : State} {acc : Access} {w : Writer} {v : Bytes}
    (harrive : s.arrive acc (isPortEnable (· ≠ 1)) = .go w v t) (hv : leNat v = 0)
    (hon : t.get (at_ Ob.PORT_ENABLE (netOf w.idx)) ≠ 0) :
    execPortDisable acc s = .next ((t.disablePort (netOf w.idx)).respond w.reply .ok) := by
  rw [execPortDisable, State.write_answers harrive ((if_neg (not_not.mpr hv)).trans (if_neg hon))]

/-- Every step of Table 6.3 answered: the port stands in LINK_DOWN with the written configuration in use. -/
theorem State.enablePort_of_answers (s : State) {m : ModuleScript} {app : Nat} (hpresent : m.present = true)
    (h3 : stepOk m 3 = true) (hsupported : moduleSupported m = true) (h5 : stepOk m 5 = true)
    (happ : moduleApp m (s.get Ob.BREAKOUT) = some app) (h7 : stepOk m 7 = true) (h8 : stepOk m 8 = true) :
    ∃ t : State, s.enablePort 0 m = (.ok, (t.setNet 0 { t.net 0 with inUse := s.netConfig 0 }).setPortState 0 psLinkDown) ∧
      t.get Ob.PORT_ENABLE = 1 ∧ t.dget Ob.MODULE_INFO = moduleInfo m := by
  have happ' : moduleApp m (s.netConfig 0).breakout = some app := happ
  simp only [State.enablePort, hpresent, Bool.not_true, Bool.false_eq_true, if_false, Nat.zero_ne_one, decide_false,
    Bool.false_and, h3, hsupported, h5, h7, h8, Bool.or_self, happ']
  refine ⟨_, rfl, ?_, ?_⟩
  · simp only [State.cage_read_get, State.foldl_emit_frame fun w : Nat × Nat => Output.moduleWrite 0 w.1 w.2]
    change ((State.cage _ 0 false true).setPortState 0 psInit).get Ob.PORT_ENABLE = 1
    rw [State.get_setPortState_ne _ _ (by decide)]
    simp [at_]
  · simp only [State.cage_read_dget, State.foldl_emit_frame fun w : Nat × Nat => Output.moduleWrite 0 w.1 w.2]
    exact State.dget_dput_self _ _ _

@[simp] theorem State.get_releasePins_port (s : State) (n k i : Nat) (h : at_ k i ≠ Ob.PIN_HOLDER) :
    (s.releasePins n).get (at_ k i) = s.get (at_ k i) := by
  unfold State.releasePins
  split
  · exact State.get_put_ne s 0 h
  · rfl

theorem State.get_loseLinks_self (s : State) (n : Nat) : (s.loseLinks n).get (at_ Ob.SUBPORT_UP n) = 0 :=
  State.get_put_self _ _ _

theorem State.get_loseLinks_ne (s : State) {n k : Nat} (h : k ≠ at_ Ob.SUBPORT_UP n) : (s.loseLinks n).get k = s.get k := by
  rw [State.loseLinks, State.get_put_ne _ _ h]
  exact foldl_eq_of_step_eq (State.get · k) (g := fun (t : State) j => t.noteBreak 8 (4 * n + j)) (fun _ _ => rfl) _ s

/-- A disabled port: its objects. -/
theorem State.get_disablePort (s : State) {n : Nat} (hn : n < 2) :
    (s.disablePort n).get (at_ Ob.PORT_ENABLE n) = 0 ∧ (s.disablePort n).get (at_ Ob.SUBPORT_UP n) = 0 ∧
      (s.disablePort n).get (at_ Ob.PORT_STATE n) = psDisabled := by
  have hpins : ∀ k, k ∈ [Ob.PORT_ENABLE, Ob.SUBPORT_UP] → at_ k n ≠ Ob.PIN_HOLDER := by
    intro k hk
    simp [Ob.PORT_ENABLE, Ob.SUBPORT_UP] at hk
    simp only [at_, Ob.PIN_HOLDER]
    omega
  simp only [State.disablePort]
  refine ⟨?_, ?_, State.get_setPortState _ _ _⟩
  · rw [State.get_setPortState_ne _ _ (at_injective.not.mpr (by decide)),
      State.get_releasePins_port _ _ _ _ (hpins _ (by simp)), State.cage_read_get,
      State.get_loseLinks_ne _ (at_injective.not.mpr (by decide)), State.get_put_self]
  · rw [State.get_setPortState_ne _ _ (at_injective.not.mpr (by decide)),
      State.get_releasePins_port _ _ _ _ (hpins _ (by simp)), State.cage_read_get, State.get_loseLinks_self]

/-- Settles O32: each row is one branch of its function, and the enable that is answered throughout ends in LINK_DOWN. -/
theorem networkPortsFollowTheirModules : Obligations.NetworkPortsFollowTheirModules := by
  unfold Obligations.NetworkPortsFollowTheirModules
  refine ⟨?enable, ?answered, ?disable, fun s n hn => s.get_disablePort hn, ?linkUp, ?linkLoss, ?removed, ?present, ?fault⟩
  case enable => exact fun s t acc m w v harrive hoff _ => execPortEnable_runs harrive hoff
  case answered =>
    intro s m app hpresent h3 hsupported h5 happ h7 h8
    obtain ⟨t, heq, henable, hinfo⟩ := s.enablePort_of_answers hpresent h3 hsupported h5 happ h7 h8
    rw [heq]
    refine ⟨rfl, State.get_setPortState _ _ _, ?_, ?_, ?_⟩
    · rw [State.get_setPortState_ne _ _ (by decide)]
      exact henable
    · rw [State.dget_setPortState]
      exact hinfo
    · rw [State.net_setPortState, State.net_setNet]
  case disable => exact fun s t acc w v harrive hv hon => execPortDisable_runs harrive hv hon
  case linkUp =>
    intro s n subs hruns hmac
    change execLinkUp n subs s = _
    simp only [execLinkUp, hruns, hmac, Bool.and_self, if_true]
  case linkLoss =>
    intro s n sub hruns hup
    change execSubportLinkLoss n sub s = _
    simp only [execSubportLinkLoss, hruns, hup, Bool.and_self, if_true]
  case removed =>
    intro s n hon
    change execModuleRemoved n s = _
    simp only [execModuleRemoved, hon, if_true]
  case present =>
    intro s n m hon hpresent hstate
    change execModulePresent n m s = _
    simp only [execModulePresent, hon, hpresent, hstate, decide_true, Bool.and_self, if_true]
  case fault =>
    intro s n hruns
    change execModuleFault n s = _
    simp only [execModuleFault, hruns, if_true]

/-! ### Frames (R139, R141–R143) -/

/-- Settles O33: each of the rows hears the frame, and acceptance says what it asks for. -/
theorem subPortsAnswerTheirNeighbours : Obligations.SubPortsAnswerTheirNeighbours := by
  unfold Obligations.SubPortsAnswerTheirNeighbours
  refine ⟨?discards, ?arp, ?solicit, ?solicitM, ?echo4, ?echoM, ?answer⟩
  case discards =>
    intro s n sub f ok hhears haccept
    change execRxDiscards n sub f ok s = _
    simp [execRxDiscards, hhears, haccept]
  case arp =>
    intro s n sub f mac ip hhears haccept
    change Host.Outcome.next (s.hear n.val sub.val f) = _
    simp [State.hear, hhears, haccept]
  case solicit =>
    intro s n sub f src target hhears haccept
    change Host.Outcome.next (s.hear n.val sub.val f) = _
    simp [State.hear, hhears, haccept]
  case solicitM =>
    intro s f src target hhears haccept
    change Host.Outcome.next (s.hearM f) = _
    simp [State.hearM, hhears, haccept]
  case echo4 =>
    intro s n sub f src icmp hhears haccept
    change Host.Outcome.next (s.hear n.val sub.val f) = _
    simp [State.hear, hhears, haccept]
  case echoM =>
    intro s f src dst icmp hhears haccept
    change Host.Outcome.next (s.hearM f) = _
    simp [State.hearM, hhears, haccept]
  case answer =>
    intro s n sub e f b hup hmac
    have hkey : at_ Ob.SUBPORT_UP n ≠ at_ Ob.RX_FRAMES n := at_injective.not.mpr (by decide)
    have hcan : (s.bump (at_ Ob.RX_FRAMES n)).netCan n sub = true := by
      rw [State.netCan, State.subUp, State.get_bump_ne _ _ hkey]
      exact Bool.and_eq_true_iff.mpr ⟨hup, hmac⟩
    simp [State.answerFrame, State.netSend, hcan]

end Sys2Proof.Machine
end

section
/-!
The log transport: packets, credit, gaps and the timer (R152, R158–R162, R165).
-/
namespace Sys2Proof.Machine

/-! ### Packets (R152, R158, R165) -/

/-- A packet of an accepted datagram with a right CRC and a malformed header. -/
theorem State.rltIntake_of_malformed {s : State} {n sub : Nat} {k : RltPacket} (hok : s.datagramOk n sub k = true)
    (hcrc : (parseRlt k.bytes).crcOk = true) (hform : rltMalformed k.bytes = true) :
    s.rltIntake n sub k = (none, (s.bump (at_ Ob.RX_FRAMES n)).bump (s.rltKey Ob.MALFORMED n)) := by
  simp [State.rltIntake, State.rltKey, hok, hcrc, hform]

/-- A DATA packet of an open stream, from its source, new and within the window. -/
theorem State.rltData_of_open {s : State} {n sub : Nat} {k : RltPacket} {r : Rlt} {x : Stream}
    (hx : s.stream? (s.div.netPart n) r.stream = some x) (hport : x.port = n) (hsub : x.subport = sub)
    (hsource : x.refuses k = false) (hopen : x.sstate = 1) (hahead : seqDist x.ack r.seq < 2 ^ 31)
    (hnew : ∀ h ∈ x.held, h.1 ≠ r.seq) (hwindow : seqDist x.freed r.seq < x.slots) :
    s.rltData n sub k r = ((s.setStream (s.div.netPart n) r.stream (x.accept k r s.now)).lbufWrite (x.slotAddr r.seq)
      r.payload).bump (at_ Ob.DATA_ACCEPTED (s.div.netPart n)) := by
  have hdup : (decide (2 ^ 31 ≤ seqDist x.ack r.seq) || x.held.any fun h => h.1 == r.seq) = false := by
    simpa [Nat.not_le.mpr hahead] using ⟨hahead, fun a b hab => hnew (a, b) hab⟩
  simp only [State.rltData, hx, hport, hsub, ne_eq, not_true_eq_false, decide_false, Bool.or_self, Bool.false_eq_true, if_false,
    hsource, hopen, OfNat.one_ne_ofNat, hdup, Nat.not_le.mpr hwindow]

/-- A LOOKUP_REQ that a check refuses and whose flow is not of class LAT. -/
theorem execLookupReq_of_refused {s t u : State} {n : NetNo} {sub : SubNo} {k : RltPacket} {x : Rlt}
    (hhears : s.netHears n.val sub.val = true) (hkind : (parseRlt k.bytes).kind = 4)
    (hintake : s.rltIntake n.val sub.val k = (some x, t)) (hu : u = (t.bump (t.rltKey Ob.LOOKUP_REQS n.val)).latArrive)
    (hrefused : u.reqCheck (rltRequest u n.val sub.val k x) x ≠ .ok)
    (hlat : u.latFlow (rltRequest u n.val sub.val k x).flow = false) :
    execLookupReq n sub k s =
      .next (u.sendRsp (rltRequest u n.val sub.val k x) (u.reqCheck (rltRequest u n.val sub.val k x) x) []) := by
  have hguard : (!s.netHears n.val sub.val || decide ((parseRlt k.bytes).kind ≠ 4)) = false := by simp [hhears, hkind]
  simp only [execLookupReq, hguard, Bool.false_eq_true, if_false, hintake, ← hu, hrefused, ne_eq, not_false_eq_true, if_true, hlat,
    Bool.and_false]

/-- A LOOKUP_REQ that the checks pass and its flow takes. -/
theorem execLookupReq_of_taken {s t u v : State} {n : NetNo} {sub : SubNo} {k : RltPacket} {x : Rlt} {r : RltReq}
    (hhears : s.netHears n.val sub.val = true) (hkind : (parseRlt k.bytes).kind = 4)
    (hintake : s.rltIntake n.val sub.val k = (some x, t)) (hu : u = (t.bump (t.rltKey Ob.LOOKUP_REQS n.val)).latArrive)
    (hcheck : u.reqCheck (rltRequest u n.val sub.val k x) x = .ok)
    (hr : r = { rltRequest u n.val sub.val k x with
      version := ((u.table? (u.div.netPart n.val) (rltRequest u n.val sub.val k x).table).map (·.current)).getD 0 })
    (htaken : u.enqueue (u.div.netPart n.val) r.flow (mkItem 0x7FF 0 0 0 0 .ok (.rlt u.nextReq)) = (.ok, v)) :
    execLookupReq n sub k s = .next { v with rltReqs := setAt v.rltReqs u.nextReq r, nextReq := u.nextReq + 1 } := by
  have hguard : (!s.netHears n.val sub.val || decide ((parseRlt k.bytes).kind ≠ 4)) = false := by simp [hhears, hkind]
  have hflow : r.flow = (rltRequest u n.val sub.val k x).flow := by rw [hr]
  rw [hflow] at htaken
  simp only [execLookupReq, hguard, Bool.false_eq_true, if_false, hintake, ← hu, hcheck, ne_eq, not_true_eq_false, htaken, ← hr]

/-- Settles O34: the packet's form, then its stream or its flow, decides. -/
theorem packetsAreTakenOrCounted : Obligations.PacketsAreTakenOrCounted := by
  unfold Obligations.PacketsAreTakenOrCounted
  refine ⟨?malformed, fun _ _ _ _ => State.rltIntake_of_malformed, ?data, fun _ _ _ _ _ _ => State.rltData_of_open, ?refused, ?taken⟩
  case malformed =>
    intro s t n sub k hhears hintake
    change execMalformed n sub k s = _
    simp [execMalformed, hhears, hintake]
  case data =>
    intro s t n sub k r hhears hintake hkind
    change execData n sub k s = _
    simp [execData, hhears, hintake, hkind]
  case refused => exact fun s t u n sub k x => execLookupReq_of_refused
  case taken => exact fun s t u v n sub k x r => execLookupReq_of_taken

/-! ### Credit and gaps (R159–R162) -/

/-- NACK_PERIOD claims the timer that nobody holds. -/
theorem opNackPeriod_claims {s : State} {w : Writer} {v : Nat} (hv : v ≠ 0) (hfree : s.get Ob.TIMER_HOLDER = 0) :
    opNackPeriod w v s = (some .ok, ((s.put Ob.NACK_PERIOD v).put Ob.TIMER_HOLDER 2).setTimer v) := by
  simp [opNackPeriod, hv, hfree]

/-- A period of 0 gives up the timer that RLT holds. -/
theorem opNackPeriod_releases {s : State} {w : Writer} (hheld : s.get Ob.TIMER_HOLDER = 2) :
    opNackPeriod w 0 s = (some .ok, ((s.put Ob.NACK_PERIOD 0).put Ob.TIMER_HOLDER 0).setTimer 0) := by
  simp [opNackPeriod, hheld]

/-- Settles O35: each clause is one branch of the stream's state and its times. -/
theorem streamsAskForWhatIsMissing : Obligations.StreamsAskForWhatIsMissing := by
  unfold Obligations.StreamsAskForWhatIsMissing
  refine ⟨?keepalive, ?credit, ?nack, ?repeats, ?renew, ?limit, ?claims, ?releases⟩
  case keepalive =>
    intro s p id x hx hdue
    change execCredit p id s = _
    simp [execCredit, hx, hdue]
  case credit =>
    intro s p id x hx hearly hmoved hgap
    change execCredit p id s = _
    have hguard : (decide ((x.ack, x.limit) ≠ (x.sentAck, x.sentLimit)) && decide (s.get Ob.CREDIT_GAP ≤ s.since x.lastSent)) = true := by
      simp only [hmoved, hgap, ne_eq, not_false_eq_true, decide_true, Bool.and_self]
    simp only [execCredit, hx, Nat.not_le.mpr hearly, if_false, hguard, if_true]
  case nack =>
    intro s p id x t hx hgap hsent hdue
    change execNack p id s = _
    simp [execNack, hx, hgap, hsent, hdue]
  case repeats =>
    rintro s t hholder hdue rfl
    change execNackRepeat s = _
    simp [execNackRepeat, hholder, hdue]
  case renew =>
    intro s p id k t x hx hgap hsent hdue
    simp [State.renewNack, hx, hgap, hsent, hdue]
  case limit =>
    intro s p id x t hx hgap hopen hdue hobject
    change execGapLimit p id s = _
    simp [execGapLimit, hx, hgap, hopen, Nat.not_lt.mpr hdue, hobject]
  case claims =>
    intro s t acc w v harrive hv hfree
    change execNackPeriod acc s = _
    rw [execNackPeriod, State.write_answers harrive (opNackPeriod_claims hv hfree)]
  case releases =>
    intro s t acc w v harrive hv hheld
    change execNackPeriod acc s = _
    rw [execNackPeriod, State.write_answers harrive (u := ((t.put Ob.NACK_PERIOD 0).put Ob.TIMER_HOLDER 0).setTimer 0) (st := .ok)]
    rw [numOp, hv]
    exact opNackPeriod_releases hheld

end Sys2Proof.Machine
end

section
/-!
Streams: opening, walking, compressed units and the close (R154, R155, R167, R168).
-/
namespace Sys2Proof.Machine

/-! ### Opening and closing (R154, R155) -/

/-- A checked image of a stream that is not open and whose regions can be claimed. -/
theorem opStreamOpen_of_claimed {s t : State} {w : Writer} {b : Bytes} {p id : Nat} (hid : leAt b 0 4 = id)
    (hp : p = s.div.netPart (bitsOf (leNat (sliceB b 4 64)) 6 6)) (hcheck : s.streamCheck w id (leNat (sliceB b 4 64)) = .ok)
    (hclosed : s.stream? p id = none)
    (hclaim : s.claim (streamOf (leNat (sliceB b 4 64)) w.owner (lookD (s.part p).opens id 0) s.now).regions 2 id = some t) :
    ∃ u, opStreamOpen w b s = (some .ok, u) ∧
      u.stream? p id = some (streamOf (leNat (sliceB b 4 64)) w.owner (lookD (s.part p).opens id 0) s.now) ∧
      lookD (u.part p).opens id 0 = lookD (s.part p).opens id 0 + 1 ∧ u.regions = t.regions := by
  subst hid hp
  simp only [opStreamOpen, hcheck, ne_eq, not_true_eq_false, if_false, hclosed, Option.isSome_none, Bool.false_eq_true, hclaim]
  exact ⟨_, rfl, by simp [State.stream?, State.setStream], by simp [lookD_setAt], rfl⟩

/-- No region stays with a closed stream. -/
theorem State.regions_closeStream (s : State) (p id : Nat) (x : Stream) : ∀ e ∈ (s.closeStream p id x).regions, e.2 ≠ (2, id) := by
  intro e he
  simpa using (List.mem_filter.mp he).2

/-! ### Lines (R167, R173) -/

/-- A whole line at hand, without a carriage return and within its limit, is framed as one record. -/
theorem State.walkJson_of_line {s : State} {p id : Nat} {x : Stream} {line rest : Bytes} (hsource : x.source = line ++ 0x0A :: rest)
    (hline : (0x0A : Byte) ∉ line) (hsome : line ≠ []) (hreturn : line.getLast? ≠ some 0x0D) (hlen : line.length ≤ 1048576)
    (hwhole : x.lineBroken = false) :
    s.walkJson p id x = some ((s.setStream p id { x.eat (line.length + 1) with lineBroken := false }).frameRecord p id x
      (x.addrAt 0) line) := by
  have hfind : x.source.findIdx? (· == 0x0A) = some line.length := by
    rw [hsource, List.findIdx?_append, List.findIdx?_eq_none_iff.mpr]
    · simp [List.findIdx?_cons]
    · intro c hc
      simpa using ne_of_mem_of_not_mem hc hline
  have htake : x.source.take line.length = line := by rw [hsource, List.take_left']; rfl
  obtain ⟨c, hc⟩ : ∃ c, line.getLast? = some c := Option.isSome_iff_exists.mp (by simpa using hsome)
  have hcr : c ≠ 0x0D := fun h => hreturn (h ▸ hc)
  have hempty : (x.lineBroken || line.isEmpty) = false := by simp [hwhole, hsome]
  simp only [State.walkJson, hfind, htake, hc, hcr, if_false, hempty, Bool.false_eq_true, Nat.not_lt.mpr hlen]

/-! ### Compressed units (R168) -/

/-- Decoding sees the dictionaries of the partition alone. -/
theorem State.decodeUnit_of_part {s t : State} {p : Nat} (h : (t.part p).dicts = (s.part p).dicts) (deflate : Bool) (limit : Nat)
    (b : Bytes) : t.decodeUnit p deflate limit b = s.decodeUnit p deflate limit b := by
  have hdict : t.dict p = s.dict p := by
    funext id
    simp only [State.dict, h]
  simp only [State.decodeUnit, hdict]

/-- A unit taken from its queue: the partition's streams, stalled enqueues and dictionaries stay. -/
theorem State.part_dropUnit_noteTurn (s : State) (p id : Nat) (k : UnitKind) (u f prio : Nat) :
    let v := ((s.noteTurn p k u f prio).dropUnit p id).part p
    v.streams = (s.part p).streams ∧ v.stalled = (s.part p).stalled ∧ v.dicts = (s.part p).dicts := by
  simp [State.dropUnit, State.noteTurn]

/-- A unit of a JSON or fixed-record object that decodes. -/
theorem State.decompressUnit_of_unit {s : State} {p id : Nat} {x : Stream} {b : Bytes} {d : Dst} (hx : s.stream? p id = some x)
    (hopen : x.sstate = 1) (hin : x.inObject = true) (hroom : s.isStalled p x.decodeFlow = false) (hformat : x.format = 1)
    (hcodec : x.codec ≠ 0) (hphase : x.phase ≠ .skipObject) (hunit : x.unit = some b)
    (hdecode : s.decodeUnit p (x.codec == 2) x.stageLimit b = .ok d) :
    s.decompressUnit p id = (s.countUnit p (.ok d)).setStream p id
      { x.dropBuffer b.length with staged := (x.dropBuffer b.length).staged ++ d.bytes } := by
  simp [State.decompressUnit, State.objectUnit, hx, hopen, hin, hroom, hformat, hcodec, hphase, hunit, hdecode]

/-- Such a unit is at hand. -/
theorem State.unitAtHand_of_unit {s : State} {p id : Nat} {x : Stream} {b : Bytes} (hx : s.stream? p id = some x)
    (hopen : x.sstate = 1) (hin : x.inObject = true) (hroom : s.isStalled p x.decodeFlow = false) (hformat : x.format = 1)
    (hcodec : x.codec ≠ 0) (hphase : x.phase ≠ .skipObject) (hunit : x.unit = some b) : s.unitAtHand p id = true := by
  simp [State.unitAtHand, hx, hopen, hin, hroom, hformat, hcodec, hphase, hunit]

/-- Settles O36: the image and the regions decide an opening; each turn of the walker is one step of `walk`; and the unit that a
lane takes meets the stream that enqueued it. -/
theorem streamsOpenWalkAndClose : Obligations.StreamsOpenWalkAndClose := by
  unfold Obligations.StreamsOpenWalkAndClose
  refine ⟨?opens, ?opened, ?closes, ?edge, State.regions_closeStream, ?turn, ?done, ?more, fun _ _ _ _ _ _ => State.walkJson_of_line,
    ?unit⟩
  case opens =>
    intro s t u acc w v harrive hop
    change execStreamOpen acc s = _
    rw [execStreamOpen, State.write_answers harrive hop]
  case opened =>
    intro s t w b p id hid hp hcheck hclosed hclaim
    obtain ⟨u, hop, hstream, hopens, hregions⟩ := opStreamOpen_of_claimed hid hp hcheck hclosed hclaim
    exact ⟨u, _, hop, hstream, rfl, rfl, rfl, rfl, hopens, hregions⟩
  case closes =>
    intro s t acc w v x harrive hhost hx
    change execStreamClose acc s = _
    rw [execStreamClose, State.write_defers harrive]
    simp only [numOp, hx, hhost, Bool.false_and, Bool.false_eq_true, if_false]
  case edge =>
    intro s p id x y hx hclosing hy
    change execStreamCloseEdge p id s = _
    simp only [execStreamCloseEdge, hx, hclosing, Bool.not_true, Bool.false_eq_true, if_false, hy]
  case turn =>
    rintro s t p id hwalk hturn rfl
    change execWalkRecords p id s = _
    simp only [execWalkRecords, hwalk, hturn, Bool.and_self, if_true]
  case done =>
    intro fuel s t p id done hwalk
    simp only [State.walkTurn, hwalk]
  case more =>
    intro fuel s t p id done hwalk hless
    simp only [State.walkTurn, hwalk, Nat.not_le.mpr hless, if_false]
  case unit =>
    intro s p id x b d hx hopen hin hroom hformat hcodec hphase hunit hdecode hlanes
    have hhand := State.unitAtHand_of_unit hx hopen hin hroom hformat hcodec hphase hunit
    constructor
    · intro hnone
      change execCompressedUnit p id s = _
      simp only [execCompressedUnit, hhand, Bool.not_true, Bool.false_eq_true, if_false, hlanes, hnone]
    · intro q u hsome hlane
      change execCompressedUnit p id s = _
      simp only [execCompressedUnit, hhand, Bool.not_true, Bool.false_eq_true, if_false, hlanes, hsome, hlane]
      obtain ⟨hstreams, hstalled, hdicts⟩ := s.part_dropUnit_noteTurn p.val id.val .chipD u (ingestFlow p.val) q
      rw [State.decompressUnit_of_unit (by rw [State.stream?, hstreams]; exact hx) hopen hin
        (by rw [State.isStalled, hstalled]; exact hroom) hformat hcodec hphase hunit
        ((State.decodeUnit_of_part hdicts _ _ _).trans hdecode)]

end Sys2Proof.Machine
end

section
/-!
Sample sets and epochs (R179, R183, R185, R190, R192, R193).
-/
namespace Sys2Proof.Machine

/-! ### The sort (R179) -/

theorem insertBy_perm {α : Type} (lt : α → α → Bool) (x : α) (l : List α) : (insertBy lt x l).Perm (x :: l) := by
  induction l with
  | nil => exact .refl _
  | cons y ys ih =>
    unfold insertBy
    split
    · exact (ih.cons y).trans (.swap x y ys)
    · exact .refl _

theorem sortBy_perm {α : Type} (lt : α → α → Bool) (l : List α) : (sortBy lt l).Perm l := by
  induction l with
  | nil => exact .refl _
  | cons x l ih => exact (insertBy_perm lt x (sortBy lt l)).trans (ih.cons x)

/-- An order by which no two elements precede each other, and by which an element that does not precede a second, and that one not
a third, does not precede the third. -/
structure WeakOrder {α : Type} (lt : α → α → Bool) : Prop where
  asymm : ∀ a b, lt a b = true → lt b a = false
  trans : ∀ a b c, lt a b = false → lt b c = false → lt a c = false

theorem insertBy_pairwise {α : Type} {lt : α → α → Bool} (h : WeakOrder lt) (x : α) (l : List α)
    (hl : l.Pairwise fun a b => lt b a = false) : (insertBy lt x l).Pairwise fun a b => lt b a = false := by
  induction l with
  | nil => exact List.pairwise_singleton _ _
  | cons y ys ih =>
    obtain ⟨hy, hys⟩ := List.pairwise_cons.mp hl
    unfold insertBy
    split
    · rename_i hlt
      refine List.pairwise_cons.mpr ⟨fun z hz => ?_, ih hys⟩
      rcases List.mem_cons.mp ((insertBy_perm lt x ys).mem_iff.mp hz) with rfl | hz
      · exact h.asymm _ _ hlt
      · exact hy z hz
    · rename_i hlt
      have hyx : lt y x = false := by simpa using hlt
      refine List.pairwise_cons.mpr ⟨fun z hz => ?_, hl⟩
      rcases List.mem_cons.mp hz with rfl | hz
      · exact hyx
      · exact h.trans _ _ _ (hy z hz) hyx

theorem sortBy_pairwise {α : Type} {lt : α → α → Bool} (h : WeakOrder lt) (l : List α) :
    (sortBy lt l).Pairwise fun a b => lt b a = false := by
  induction l with
  | nil => exact List.Pairwise.nil
  | cons x l ih => exact insertBy_pairwise h x _ ih

theorem ltList_asymm (a b : List Nat) (h : ltList a b = true) : ltList b a = false := by
  induction a generalizing b with
  | nil => cases b <;> simp [ltList]
  | cons x a ih =>
    cases b with
    | nil => simp [ltList] at h
    | cons y b =>
      simp only [ltList, Bool.or_eq_true, Bool.and_eq_true, decide_eq_true_eq] at h
      rcases h with hlt | ⟨rfl, hlt⟩
      · simp [ltList, Nat.not_lt.mpr hlt.le, hlt.ne']
      · simp [ltList, ih b hlt]

theorem ltList_trans_false (a b c : List Nat) (hab : ltList a b = false) (hbc : ltList b c = false) : ltList a c = false := by
  induction a generalizing b c with
  | nil => cases b <;> cases c <;> simp_all [ltList]
  | cons x a ih =>
    cases c with
    | nil => simp [ltList]
    | cons z c =>
      cases b with
      | nil => simp [ltList] at hbc
      | cons y b =>
        simp only [ltList, Bool.or_eq_false_iff, Bool.and_eq_false_iff, decide_eq_false_iff_not, Nat.not_lt] at hab hbc ⊢
        obtain ⟨hyx, hab⟩ := hab
        obtain ⟨hzy, hbc⟩ := hbc
        refine ⟨hzy.trans hyx, ?_⟩
        by_cases hxz : x = z
        · have hxy : x = y := by omega
          have hyz : y = z := by omega
          exact .inr (ih b c (hab.resolve_left (not_not.mpr hxy)) (hbc.resolve_left (not_not.mpr hyz)))
        · exact .inl hxz

/-- The order of provenance is a weak order. -/
theorem weakOrder_key : WeakOrder fun a b : SetEntry => ltList a.key b.key where
  asymm a b := ltList_asymm a.key b.key
  trans a b c := ltList_trans_false a.key b.key c.key

/-- Settles O37: the sort is an insertion sort by a weak order, and the rest are the rows' own branches. -/
theorem setsSealSortAndClear : Obligations.SetsSealSortAndClear := by
  unfold Obligations.SetsSealSortAndClear
  refine ⟨?seals, ?sorts, fun l => ⟨sortBy_perm _ l, sortBy_pairwise weakOrder_key l⟩, ?clears⟩
  case seals =>
    intro s t acc w v harrive harg hopen
    change execSetSeal acc s = _
    rw [execSetSeal, State.write_answers harrive (st := .ok)]
    simp [numOp, harg, hopen]
  case sorts =>
    intro s p n hsorting
    change execSetSortEnd p n s = _
    simp only [execSetSortEnd, hsorting, if_true]
  case clears =>
    intro s t acc w v harrive harg hfree
    change execSetClear acc s = _
    rw [execSetClear, State.write_answers harrive (st := .ok)]
    simp only [numOp, harg, hfree, ne_eq, not_true_eq_false, if_false, Bool.false_eq_true]

/-! ### Epochs (R183, R185, R190, R192, R193) -/

@[simp] theorem State.epoch_setEpoch (s : State) (p e : Nat) (x : Epoch) : (s.setEpoch p e x).epoch? p e = some x := by
  simp [State.epoch?, State.setEpoch]

/-- A checked PIPE_RUN of a batch plan. -/
theorem execPipeRunEpoch_of_checked {s : State} {id h : Nat} {data : Bytes} {c : Cmd} {im : Image} {q : BatchPlan}
    (hc : s.control id 0x11 = some c) (hkind : c.f 83 80 = 2)
    (hrange : (s.augRange c).bind (fun r => s.lateRange c r.1 r.2) = none) (hplan : s.planOf c.part (c.f 95 64) = some (h, im, q))
    (hcheck : s.epochCheck c = .ok) : execPipeRunEpoch id data s = .next (s.startEpoch c h im q) := by
  simp only [execPipeRunEpoch, hc, hkind, ne_eq, not_true_eq_false, if_false, hrange, hcheck, hplan]

/-- A started epoch has the lowest free number. -/
theorem State.epoch_startEpoch {s : State} {c : Cmd} {h e : Nat} {im : Image} {q : BatchPlan}
    (he : (List.range 4).find? (fun e => (s.epoch? c.part e).isNone) = some e) :
    ∃ n, (s.startEpoch c h im q).epoch? c.part e = some (newEpoch c h q n) := by
  simp only [State.startEpoch, he, Option.getD_some]
  exact ⟨_, by rw [State.epoch?, State.part_of_parts (State.finish_told _ _ _ _).parts_eq]; exact State.epoch_setEpoch _ _ _ _⟩

/-- With nothing released there is nothing to consume. -/
theorem State.consumeReleased_of_none {s : State} {p e fuel : Nat} {x : Epoch} (hx : s.epoch? p e = some x) (hnone : x.released = []) :
    State.consumeReleased p e fuel s = s := by
  cases fuel with
  | zero => rfl
  | succ fuel => simp only [State.consumeReleased, hx, hnone]

/-- A read of augmentation entries ahead of the feeder: 4 KiB of them, or as many as are left. -/
theorem execAugmentationRead_ahead {s : State} {p : PartNo} {e : EpochNo} {x : Epoch} (data : Bytes) (ok : Bool)
    (hx : s.epoch? p.val e.val = some x) (haug : x.augBase ≠ 0) (hrun : x.ending = false) (hleft : x.augNext < x.n)
    (hbme : (s.port x.port).bme = true) :
    ∃ new : List (Nat × Option Bytes), new.length = min (4096 / x.augSize) (x.n - x.augNext) ∧
      execAugmentationRead p e data ok s = .next (
        let u := s.setEpoch p.val e.val { x with aug := x.aug ++ new, augNext := x.augNext + min (4096 / x.augSize) (x.n - x.augNext) }
        if ok then u
        else (u.dmaFault x.port (x.augBase + x.augNext * x.augSize) .linkRetryExhausted x.ring x.frameTag).emit (.aer x.port)) := by
  have hguard : (decide (x.augBase = 0) || x.ending || decide (x.n ≤ x.augNext) || !(s.port x.port).bme) = false := by
    simp [haug, hrun, hleft, hbme]
  simp only [execAugmentationRead, hx, hguard, Bool.false_eq_true, if_false]
  exact ⟨_, by rw [List.length_map, List.length_range], rfl⟩

/-- Shipping ends with the batch gone from the prepared queue, and what was released is consumed. -/
theorem State.shipBatch_ends (s : State) (p e : Nat) (x : Epoch) (b : Batch) (rest : List Batch) :
    ∃ (u : State) (bs : List Batch) (slots : List (Nat × Nat)), bs.length = rest.length ∧ s.shipBatch p e x b rest =
      State.consumeReleased p e (x.released.length + 1)
        (u.setEpoch p e { x with prepared := bs, batchNo := x.batchNo + 1, slotsUsed := slots }) := by
  unfold State.shipBatch
  extract_lets
  refine ⟨_, _, _, ?_, rfl⟩
  cases rest <;> rfl

/-- Settles O40: a checked plan starts its epoch; feeding, reading ahead, shipping and the END notice each pass their guard. -/
theorem epochsFeedShipAndEnd : Obligations.EpochsFeedShipAndEnd := by
  unfold Obligations.EpochsFeedShipAndEnd
  refine ⟨fun _ _ data _ _ _ _ => execPipeRunEpoch_of_checked (data := data), ?started, ?feed, ?aug, ?ship, ?shipped, ?ends⟩
  case started =>
    intro s c h e im q he
    obtain ⟨n, hx⟩ := State.epoch_startEpoch (h := h) (im := im) (q := q) he
    exact ⟨_, hx, rfl, rfl, rfl, rfl, rfl⟩
  case feed =>
    intro s t u p e x im hole row len hx hrun hleft hroom haug hentry himage htaken
    change execFeed p e s = _
    have hguard : (x.ending || decide (x.n ≤ x.nextFeed) || decide (x.plan.prepDepth ≤ x.prepared.length) ||
        decide (x.augBase ≠ 0) && decide (x.augNext ≤ x.nextFeed)) = false := by
      simp [hrun, hleft, hroom, haug]
    simp only [execFeed, hx, hguard, Bool.false_eq_true, if_false, hentry, if_true, himage, Option.map_some, Option.getD_some, htaken]
  case aug =>
    intro s p e x data ok hx haug hrun hleft hbme
    obtain ⟨new, hlength, hexec⟩ := execAugmentationRead_ahead data ok hx haug hrun hleft hbme
    exact ⟨_, _, hexec, rfl, rfl, rfl, by rw [List.length_append, hlength]⟩
  case ship =>
    intro s p e x b rest hx hprepared hrun hbme hfree
    change execShip p e s = _
    simp [execShip, hx, hprepared, hrun, hbme, hfree]
  case shipped =>
    intro s p e x b rest hreleased
    obtain ⟨u, bs, slots, hlength, heq⟩ := s.shipBatch_ends p e x b rest
    refine ⟨{ x with prepared := bs, batchNo := x.batchNo + 1, slotsUsed := slots }, ?_, hlength, rfl⟩
    rw [heq, State.consumeReleased_of_none (State.epoch_setEpoch _ _ _ _)]
    · exact State.epoch_setEpoch _ _ _ _
    · exact hreleased
  case ends =>
    intro s p e x hx hending hdone hbme hblocked hheld
    change execEndNotice p e s = _
    have hguard : (x.ending && (x.aborted || x.prepared.isEmpty) && (s.port x.port).bme &&
        !((s.port x.port).cplRing x.frameCq).blocked && ((s.port x.port).cplRing x.frameCq).held.isEmpty) = true := by
      simp [hending, hdone, hbme, hblocked, hheld]
    simp only [execEndNotice, hx, hguard, if_true, State.endNotice]

end Sys2Proof.Machine
end

section
/-!
Images and runs (R243–R245).
-/
namespace Sys2Proof.Machine

@[simp] theorem State.part_clearBuckets (s : State) (p : Nat) (im : Image) (ops : List Nat) (q : Nat) :
    (s.clearBuckets p im ops).part q = s.part q := by
  unfold State.clearBuckets
  apply foldl_eq_of_step_eq (State.part · q)
  exact fun t i => rfl

@[simp] theorem State.part_freshAutomata (s : State) (p slot q : Nat) : (s.freshAutomata p slot).part q = s.part q := rfl

/-- A length in range with every reserved bit zero and a handle free passes the early checks of PIPE_LOAD. -/
theorem State.loadEarly_of_form {s : State} {c : Cmd} (hmin : 4096 ≤ c.f 159 128) (hmax : c.f 159 128 ≤ 268435456)
    (hmid : c.f 191 178 = 0) (hend : c.f 511 203 = 0) (hroom : (s.part c.part).images.length < 8) : s.loadEarly c = .ok := by
  simp [State.loadEarly, firstFail, hmid, hend, Nat.not_lt.mpr hmin, Nat.not_lt.mpr hmax, Nat.not_le.mpr hroom]

/-- PIPE_LOAD of an image that passes its checks. -/
theorem execPipeLoad_of_checked {s : State} {id h k : Nat} {image b : Bytes} {parsed : ImageContent} {c : Cmd} {im : Image}
    (hc : s.control id 0x10 = some c) (hearly : s.loadEarly c = .ok) (hb : c.hostBytes image (c.f 159 128) = b)
    (him : imageOf b parsed (c.f 177 160) (c.f 202 192) = im) (hcheck : s.loadCheck c.part b (c.f 159 128) im = (.ok, k))
    (hrefill : s.canRefill c.part = true) (hh : (List.range 8).find? (fun h => (look (s.part c.part).images h).isNone) = some h) :
    execPipeLoad id image parsed s =
      .next (((s.unblock c.part im.flowBase (2 ^ 32)).loadImage c.part h b im).finish id .ok h) := by
  simp only [execPipeLoad, hc, hearly, ne_eq, not_true_eq_false, if_false, hb, him, hcheck, hrefill, Bool.not_true,
    Bool.false_eq_true, hh, Option.getD_some]

/-- PIPE_LOAD of an image that fails a check. -/
theorem execPipeLoad_of_failed {s : State} {id k : Nat} {st : Status} {image b : Bytes} {parsed : ImageContent} {c : Cmd} {im : Image}
    (hc : s.control id 0x10 = some c) (hearly : s.loadEarly c = .ok) (hb : c.hostBytes image (c.f 159 128) = b)
    (him : imageOf b parsed (c.f 177 160) (c.f 202 192) = im) (hcheck : s.loadCheck c.part b (c.f 159 128) im = (st, k))
    (hst : st ≠ .ok) :
    execPipeLoad id image parsed s = .next ((s.unblock c.part im.flowBase (2 ^ 32)).finish id st k) := by
  simp only [execPipeLoad, hc, hearly, ne_eq, not_true_eq_false, if_false, hb, him, hcheck, hst, not_false_eq_true, if_true]

/-- A loaded image stands under its handle; only the place of its areas is chosen. -/
theorem State.image_loadImage (s : State) (p h : Nat) (b : Bytes) (im : Image) :
    ∃ a, look ((s.loadImage p h b im).part p).images h = some { im with areaBase := a } := by
  simp only [State.loadImage, State.part_clearBuckets, State.part_freshAutomata, State.part_setPart, look_setAt_self]
  exact ⟨_, rfl⟩

/-- The run that a graph gets. -/
theorem State.run_startGraph (s : State) (c : Cmd) (h : Nat) (im : Image) (g : Graph) :
    ∃ r, r ∈ ((s.startGraph c h im g).part c.part).runs ∧ r.handle = h ∧ r.index = g.index ∧ r.cmd = c.id ∧
      r.sources = c.f 127 96 ∧ r.stages.length = g.stages.length := by
  simp only [State.startGraph, State.askHold, State.setCmd_read_part, State.part_setPart, State.part_clearBuckets]
  exact ⟨_, List.mem_append_right _ (List.mem_singleton_self _), rfl, rfl, rfl, rfl, List.length_map _⟩

/-- Settles O41: the checks decide a load, the graph's freedom a run, and a stop is registered for the edge. -/
theorem imagesLoadRunAndStop : Obligations.ImagesLoadRunAndStop := by
  unfold Obligations.ImagesLoadRunAndStop
  refine ⟨?loads, State.image_loadImage, fun _ _ _ _ _ _ _ _ _ => execPipeLoad_of_failed, ?runs, State.run_startGraph, ?stops⟩
  case loads =>
    intro s id h k image b parsed c im hc hmin hmax hmid hend hroom
    exact execPipeLoad_of_checked hc (State.loadEarly_of_form hmin hmax hmid hend hroom)
  case runs =>
    intro s id data c h im g hc hkind hgraph hform hmin hmax hroom hfree
    change execPipeRunGraph id data s = _
    have hguard : (decide (c.f 511 128 ≠ 0) || decide (c.f 127 96 < 1) || decide (4096 < c.f 127 96)) = false := by
      simp [hform, Nat.not_lt.mpr hmax, Nat.ne_of_gt hmin]
    simp only [execPipeRunGraph, hc, hkind, if_false, hgraph, hguard, Bool.false_eq_true, Nat.not_le.mpr hroom, hfree]
  case stops =>
    intro s id c im hc him hmid hend hsets
    change execPipeStop id s = _
    have hguard : (decide (c.f 72 72 = 1) && (s.part c.part).epochs.any fun e =>
        e.2.handle != c.f 66 64 && im.sets.any fun x => x.1 == e.2.plan.set) = false := by
      by_cases hunload : c.f 72 72 = 1
      · rw [hsets hunload, Bool.and_false]
      · simp only [hunload, decide_false, Bool.false_and]
    simp only [execPipeStop, hc, him, hmid, hend, ne_eq, not_true_eq_false, decide_false, Bool.or_self, Bool.false_eq_true, if_false,
      hguard]

end Sys2Proof.Machine
end

section
/-!
Tables, their versions and regrading (R274, R285–R303).
-/
namespace Sys2Proof.Machine

/-! ### Tables and versions (R274, R296, R299, R301, R303) -/

@[simp] theorem State.anyTable_setTable (s : State) (p : Nat) (t : Table) : (s.setTable p t).anyTable p t.id = some t := by
  simp [State.anyTable, State.setTable]

/-- The version that a table gets. -/
theorem State.anyTable_addVersion (s : State) (p : Nat) (t : Table) (st : VersionState) :
    ∃ v : Version, (s.addVersion p t st).anyTable p t.id =
      some { t with versions := t.versions ++ [v], nextVersion := t.nextVersion + 1 } ∧
        v.number = t.nextVersion ∧ v.state = st ∧ v.dirs = [] :=
  ⟨_, State.anyTable_setTable _ p { t with versions := t.versions ++ [_], nextVersion := t.nextVersion + 1 }, rfl, rfl, rfl⟩

/-- A checked TABLE_VERSION_OPEN of an empty version. -/
theorem execTableVersionOpen_empty {s : State} {id : Nat} {c : Cmd} {t : Table} (hc : s.control id 0x22 = some c)
    (hcheck : s.versionOpenCheck c = .ok) (ht : s.table? c.part (c.f 95 64) = some t) (hempty : c.f 96 96 = 0) :
    execTableVersionOpen id s = .next ((s.addVersion c.part t .opened).finish id .ok t.nextVersion) := by
  simp only [execTableVersionOpen, hc, hcheck, ne_eq, not_true_eq_false, if_false, ht, hempty, if_true]

/-- A checked TABLE_VERSION_OPEN of a clone whose rows are all copied. -/
theorem execTableVersionOpen_clone {s u : State} {id : Nat} {c : Cmd} {t : Table} {cur : Version} (hc : s.control id 0x22 = some c)
    (hcheck : s.versionOpenCheck c = .ok) (ht : s.table? c.part (c.f 95 64) = some t) (hclone : c.f 96 96 ≠ 0)
    (hidle : s.lanesIdle c.part t.id = true) (hcur : t.version? t.current = some cur)
    (hcopied : (s.addVersion c.part t .opened).cloneAll c.part t cur t.nextVersion = (.done, u)) :
    execTableVersionOpen id s = .next (u.finish id .ok t.nextVersion) := by
  simp only [execTableVersionOpen, hc, hcheck, ne_eq, not_true_eq_false, if_false, ht, hclone, hidle, Bool.not_true,
    Bool.false_eq_true, hcur, hcopied]

/-- A switch of the open version, with none retiring and none registered. -/
theorem execTableVersionSwitch_of_open {s : State} {id : Nat} {c : Cmd} {t : Table} (hc : s.control id 0x23 = some c)
    (ht : s.table? c.part (c.f 95 64) = some t) (hend : c.f 511 128 = 0) (hsome : c.f 127 96 ≠ 0)
    (hopen : c.f 127 96 = t.inState .opened) (hretiring : t.inState .retiring = 0) (hswitch : t.switch = none) :
    execTableVersionSwitch id s =
      .next ((s.setTable c.part { t with switch := some id }).setCmd { c with stage := .waiting }) := by
  have hopened : t.inState .opened ≠ 0 := hopen ▸ hsome
  simp [execTableVersionSwitch, hc, ht, hend, hopen, hopened, hretiring, hswitch, firstFail]

/-- With no lane there is no hold to end. -/
theorem State.endPass_of_no_lanes {s : State} (h : s.lanes = []) (p table version : Nat) : s.endPass p table version = s := by
  simp [State.endPass, h]

/-- The edge of a switch, with no lane at work. -/
theorem execSwitchEdge_of_idle {s : State} {p : PartNo} {table id : Nat} {t : Table} (ht : s.table? p.val table = some t)
    (hswitch : t.switch = some id) (hwrites : s.openWrites p.val table id = false) (hlanes : s.lanes = []) :
    execSwitchEdge p table s = .next ((s.setTable p.val { t with
      versions := t.versions.map (fun v => if v.state = .current then { v with state := .retiring, since := s.now }
        else if v.state = .opened then { v with state := .current } else v),
      switch := none, windows := 0, windowStart := s.now, closeLate := false }).finish id .ok (t.inState .opened)) := by
  simp only [execSwitchEdge, ht, hswitch, hwrites, Bool.false_eq_true, if_false, State.endPass_of_no_lanes hlanes]

/-- Settles O42: creation, opening, switching and dropping each pass their checks, and a version that nothing can read is
reclaimed. -/
theorem tablesAndTheirVersions : Obligations.TablesAndTheirVersions := by
  unfold Obligations.TablesAndTheirVersions
  refine ⟨?creates, fun c now => ⟨rfl, rfl, rfl, rfl, rfl⟩, State.anyTable_addVersion, fun _ _ _ _ => execTableVersionOpen_empty,
    fun _ _ _ _ _ _ => execTableVersionOpen_clone, fun _ _ _ _ => execTableVersionSwitch_of_open,
    fun _ _ _ _ _ => execSwitchEdge_of_idle, ?drops, ?reclaims⟩
  case creates =>
    intro s id data c hc hcheck
    change execTableCreate id data s = _
    simp only [execTableCreate, hc, hcheck, if_true]
  case drops =>
    intro s id c t hc ht hend
    change execTableDrop id s = _
    simp only [execTableDrop, hc, ht, hend, ne_eq, not_true_eq_false, if_false]
  case reclaims =>
    intro s p table t v ht hversions hretiring hage hfree
    change execVersionReclaim p table s = _
    simp [execVersionReclaim, ht, hversions, hretiring, hage, hfree]

/-! ### Regrading (R285, R286, R290, R291, R293) -/

/-- A checked REGRADE_POLICY, whichever values it sets. -/
theorem execRegradePolicy_of_checked {s : State} {id : Nat} {c : Cmd} {t : Table} (hc : s.control id 0x2A = some c)
    (hcheck : s.regradeCheck c = .ok) (ht : s.table? c.part (c.f 95 64) = some t) :
    execRegradePolicy id s = .next ((s.setTable c.part { t with
      nextPolicy := if c.f 96 96 = 1 then some c.policy else t.nextPolicy
      closeNow := t.closeNow || c.f 97 97 = 1 }).finish id .ok 0) := by
  simp only [execRegradePolicy, hc, hcheck, ht]
  split <;> rfl

/-- A table without a current version has its window closed and no core to pass over. -/
theorem State.anyTable_closeWindow {s : State} {p : Nat} {t : Table} (hnone : t.version? t.current = none) :
    (s.closeWindow p t).anyTable p t.id = some { t with
      policy := t.nextPolicy.getD t.policy, nextPolicy := none, windows := t.windows + 1, windowStart := s.now,
      closeNow := false, closeLate := false } := by
  unfold State.closeWindow
  extract_lets t' s'
  have hsame : t'.version? t'.current = none := hnone
  simp only [hsame]
  exact State.anyTable_setTable s p t'

/-- A rested lane with one row to move and nothing in flight holds it and starts its migration bolt. -/
theorem execMigrationHold_of_rested {s u : State} {c : CoreNo} {l : LaneNo} {m x : Migration} {t : Table}
    (hm : (s.lane c.val l.val).migrations = [m]) (hfree : ∀ k, k < 8 → (s.lane c.val k).hold = none)
    (hrested : (s.lane c.val l.val).lastEnd = none) (ht : s.table? m.part m.table = some t) (hbatch : 1 ≤ t.policy.migBatch)
    (hslot : s.moveSlot m c.val = (some x, u)) (hidle : (u.lane c.val l.val).queue = [])
    (hum : (u.lane c.val l.val).migrations = [m]) :
    execMigrationHold c l s = .next ((u.setLane c.val l.val { u.lane c.val l.val with
      migrations := [], hold := some { edge := s.now, batch := [x], inFlight := false } }).setMoving x c.val) := by
  have hheld : ((List.range 8).any fun k => (s.lane c.val k).hold.isSome) = false := by
    simpa using fun k hk => Option.isNone_iff_eq_none.mpr (hfree k hk)
  have htake : [m].take t.policy.migBatch = [m] := List.take_of_length_le hbatch
  have hsame : ([m].takeWhile fun n => n.part == m.part && n.table == m.table && n.version == m.version) = [m] := by simp
  simp only [execMigrationHold, hm, hheld, hrested, Bool.not_true, Bool.or_self, Bool.false_eq_true, if_false, ht, hsame, htake,
    List.foldl_cons, List.foldl_nil, hslot, Option.toList_some, List.nil_append, hidle, List.isEmpty_nil, List.isEmpty_cons,
    hum, List.length_singleton, List.drop_one, List.tail_cons, State.startMoves]

/-- The hold of a lane clears at the swap where no row is left. -/
theorem execMigrationSwap_of_all {s : State} {c : CoreNo} {l : LaneNo} {written : Nat} {h : LaneHold}
    (hh : (s.lane c.val l.val).hold = some h) (hedge : s.since h.edge = 1) (hflight : h.inFlight = false)
    (hall : (State.moveRows c.val h.batch written s).1 = []) :
    execMigrationSwap c l written s = .next (
      let u := (State.moveRows c.val h.batch written s).2
      u.setLane c.val l.val { u.lane c.val l.val with hold := none, lastEnd := some s.now }) := by
  have hguard : (decide (s.since h.edge ≠ 1) || h.inFlight) = false := by simp [hedge, hflight]
  simp only [execMigrationSwap, hh, hguard, Bool.false_eq_true, if_false, hall, List.isEmpty_nil, if_true]

/-- At the third edge every row left is abandoned and the hold clears. -/
theorem execMigrationAbandon_of_late {s : State} {c : CoreNo} {l : LaneNo} {written : Nat} {h : LaneHold}
    (hh : (s.lane c.val l.val).hold = some h) (hlate : 2 ≤ s.since h.edge) (hpast : s.since h.edge < 2 ^ 47) :
    execMigrationAbandon c l written s = .next (
      let r := if h.inFlight then (h.batch, s) else State.moveRows c.val h.batch written s
      let u := r.1.foldl (fun (t : State) m => t.abandonRow m c.val true) r.2
      u.setLane c.val l.val { u.lane c.val l.val with hold := none, lastEnd := some s.now }) := by
  have hguard : (decide (s.since h.edge < 2) || decide (2 ^ 47 ≤ s.since h.edge)) = false := by
    simp only [Nat.not_lt.mpr hlate, Nat.not_le.mpr hpast, decide_false, Bool.or_self]
  simp only [execMigrationAbandon, hh, hguard, Bool.false_eq_true, if_false]

/-- Settles O44: the policy and the window wait for their close; a lane's hold lasts from its edge to the swap or the abandonment. -/
theorem regradingMovesRowsInBatches : Obligations.RegradingMovesRowsInBatches := by
  unfold Obligations.RegradingMovesRowsInBatches
  refine ⟨?keeps, ?sets, ?closes, fun _ _ _ => State.anyTable_closeWindow, ?late, fun _ _ _ _ _ _ _ => execMigrationHold_of_rested,
    fun _ _ _ _ _ => execMigrationSwap_of_all, ?swaps, fun _ _ _ _ _ => execMigrationAbandon_of_late, ?frees⟩
  case keeps =>
    intro s id c t hc hcheck ht hset
    change execRegradePolicy id s = _
    simp only [execRegradePolicy_of_checked hc hcheck ht, hset, if_false]
  case sets =>
    intro s id c t hc hcheck ht hset
    change execRegradePolicy id s = _
    simp only [execRegradePolicy_of_checked hc hcheck ht, hset, if_true, Cmd.policy]
  case closes =>
    intro s p table t ht hdue hidle
    change execWindowClose p table s = _
    simp only [execWindowClose, ht, hdue, hidle, Bool.not_true, Bool.false_eq_true, if_false]
  case late =>
    intro s p table t ht hdue hruns hlate
    change execWindowClose p table s = _
    simp only [execWindowClose, ht, hdue, hruns, hlate, Bool.not_true, Bool.false_eq_true, if_false, if_true]
  case swaps =>
    intro s u core written m t v x hm hread
    simp only [State.moveRows, hm, hread, Nat.succ_ne_zero, if_false]
  case frees =>
    intro s c f hf hcore hage hearlier
    change execSlotFree c s = _
    simp [execSlotFree, hf, hcore, hage, hearlier]

end Sys2Proof.Machine
end

section
/-!
Rows, lanes and the engines' flows (R297, R307, R308, R314–R316, R357).
-/
namespace Sys2Proof.Machine

/-! ### Lanes (R289, R316) -/

/-- A lane that holds a record is kept as it was put. -/
theorem State.lane_setLane_of_queued {s : State} {core lane : Nat} {x : Lane} (h : x.queue ≠ []) :
    (s.setLane core lane x).lane core lane = x := by
  have hreset : x ≠ Lane.reset := fun heq => h (by rw [heq]; rfl)
  simp [State.setLane, State.lane, putD, hreset, lookD_setAt]

/-- A routed record is the last of its row's lane. -/
theorem State.queue_route (s : State) (t : Table) (r : LaneRec) :
    ((s.route t r).lane (s.rowCore r.part t r.id) (t.laneOf r.id)).queue =
      (s.lane (s.rowCore r.part t r.id) (t.laneOf r.id)).queue ++ [r] := by
  rw [State.route, State.lane_setLane_of_queued (by simp)]

/-- The front record of a lane that runs and is not held. -/
theorem State.laneItem_of_front {s : State} {core lane : Nat} {r : LaneRec} {rest : List LaneRec}
    (hqueue : (s.lane core lane).queue = r :: rest) (hhold : (s.lane core lane).hold = none)
    (hruns : s.laneRuns core (s.lane core lane) = true) :
    s.laneItem core lane = (s.setLane core lane { s.lane core lane with queue := rest }).applyRec r := by
  simp only [State.laneItem, hqueue, hruns, hhold, Bool.not_true, Bool.false_eq_true, if_false, Option.map_none]

/-! ### Rows (R297, R307, R308, R314, R315) -/

/-- A source in range does not end its command. -/
theorem State.lateRange_of_ok {s : State} {c : Cmd} {addr n : Nat} (h : (s.port c.port).rangeOk false addr n = true) :
    s.lateRange c addr n = none := if_pos h

/-- A checked LOOKUP captures the current version and joins its flow. -/
theorem execLookup_of_checked {s : State} {id : Nat} {data : Bytes} {c : Cmd} (hc : s.admitting id 0x28 = some c)
    (hcheck : s.lookupCheck c = .ok) : execLookup id data s = .next (
      let c' := { c with version := ((s.table? c.part (c.f 95 64)).map (·.current)).getD 0 }
      ((s.setCmd c').admitItem c').countRefused c' (s.cmdLat c')) := by
  have hcheck' : s.lookupCheck { c with version := ((s.table? c.part (c.f 95 64)).map (·.current)).getD 0 } = .ok := hcheck
  simp only [execLookup, hc, hcheck', State.admitIf, if_true]

/-- A LOOKUP at its unit, with offsets that R307 allows and a table in being. -/
theorem execLookup_at_work {s : State} {id : Nat} {data : Bytes} {c : Cmd} {bags : List (List (Nat × Nat))} {t : Table}
    (hadmitted : s.admitting id 0x28 = none) (hc : s.atWork id 0x28 = some c) (hbags : c.bags data = some bags)
    (ht : s.anyTable c.part (c.f 95 64) = some t) (hserved : s.rowsServed c.part t.id (bags.flatten.map (·.1)) = true) :
    execLookup id data s = .next (s.lookupBags c t bags) := by
  simp only [execLookup, hadmitted, hc, State.lookupWork, hbags, ht, hserved, if_true]

/-- A LOOKUP at its unit whose offsets break R307. -/
theorem execLookup_of_bad_bags {s : State} {id : Nat} {data : Bytes} {c : Cmd} (hadmitted : s.admitting id 0x28 = none)
    (hc : s.atWork id 0x28 = some c) (hbags : c.bags data = none) :
    execLookup id data s = .next (s.workDone c .badDescriptor 0) := by
  simp only [execLookup, hadmitted, hc, State.lookupWork, hbags]

/-- A checked UPDATE captures the current version and joins its flow. -/
theorem execUpdate_of_checked {s : State} {id : Nat} {data : Bytes} {c : Cmd} {t : Table} (hc : s.admitting id 0x29 = some c)
    (hcheck : s.updateCheck c = .ok) (ht : s.table? c.part (c.f 95 64) = some t)
    (hrange : (s.port c.port).rangeOk false (c.f 191 128) (c.f 223 192 * gradBytes (c.f 99 96) t.dim) = true) :
    execUpdate id data s = .next ((s.setCmd { c with version := t.current }).admitItem { c with version := t.current }) := by
  simp only [execUpdate, hc, hcheck, ht, State.lateRange_of_ok hrange]

/-- An UPDATE at its unit queues its records. -/
theorem execUpdate_at_work {s : State} {id : Nat} {data : Bytes} {c : Cmd} {t : Table} (hadmitted : s.admitting id 0x29 = none)
    (hc : s.atWork id 0x29 = some c) (ht : s.anyTable c.part (c.f 95 64) = some t) (hnext : s.routesNext c = true) :
    execUpdate id data s = .next
      (s.routeAll c t .update (gradBytes (c.f 99 96) t.dim) (c.hostBytes data (c.f 223 192 * gradBytes (c.f 99 96) t.dim))) := by
  simp only [execUpdate, hadmitted, hc, ht, hnext, Bool.not_true, Bool.false_eq_true, if_false]

/-- A TABLE_WRITE_ROWS within its form captures the version it names and joins its flow. -/
theorem execTableWriteRows_of_form {s : State} {id : Nat} {data : Bytes} {c : Cmd} {t : Table} (hc : s.admitting id 0x21 = some c)
    (ht : s.table? c.part (c.f 95 64) = some t) (h103 : c.f 103 99 = 0) (h127 : c.f 127 108 = 0) (h511 : c.f 511 224 = 0)
    (htarget : c.f 96 96 = 1 → t.inState .opened ≠ 0) (hgrade : c.f 98 97 = 3 ∨ c.f 98 97 ≤ t.coarsest) (hfmt : c.f 107 104 ≤ 2)
    (hsome : 1 ≤ c.f 223 192) (hmax : c.f 223 192 ≤ 65536)
    (hrange : (s.port c.port).rangeOk false (c.f 191 128) (c.f 223 192 * rowBytes (c.f 107 104) t.dim) = true) :
    execTableWriteRows id data s = .next (
      let c' := { c with version := if c.f 96 96 = 1 then t.inState .opened else t.current }
      (s.setCmd c').admitItem c') := by
  have htarget' : (decide (c.f 96 96 = 1) && decide (t.inState .opened = 0)) = false := by simpa using htarget
  have hgrade' : (decide (c.f 98 97 ≠ 3) && decide (t.coarsest < c.f 98 97)) = false := by
    simpa [or_iff_not_imp_left] using hgrade
  have hguard : (decide (c.f 103 99 ≠ 0) || decide (c.f 127 108 ≠ 0) || decide (c.f 511 224 ≠ 0) ||
      (decide (c.f 96 96 = 1) && decide (t.inState .opened = 0)) || (decide (c.f 98 97 ≠ 3) && decide (t.coarsest < c.f 98 97)) ||
      decide (2 < c.f 107 104) || decide (c.f 223 192 = 0) || decide (65536 < c.f 223 192)) = false := by
    rw [htarget', hgrade']
    simp [h103, h127, h511, hfmt, hmax, Nat.ne_of_gt hsome]
  simp only [execTableWriteRows, hc, ht, hguard, Bool.false_eq_true, if_false, State.lateRange_of_ok hrange]

/-- A TABLE_WRITE_ROWS at its unit queues its records. -/
theorem execTableWriteRows_at_work {s : State} {id : Nat} {data : Bytes} {c : Cmd} {t : Table}
    (hadmitted : s.admitting id 0x21 = none) (hc : s.atWork id 0x21 = some c) (ht : s.anyTable c.part (c.f 95 64) = some t)
    (hnext : s.routesNext c = true) : execTableWriteRows id data s = .next
      (s.routeAll c t (.write (if c.f 98 97 = 3 then t.firstGrade else c.f 98 97)) (rowBytes (c.f 107 104) t.dim)
        (c.hostBytes data (c.f 223 192 * rowBytes (c.f 107 104) t.dim))) := by
  simp only [execTableWriteRows, hadmitted, hc, ht, hnext, Bool.not_true, Bool.false_eq_true, if_false]

/-- Settles O43: each command captures its version as it joins its flow, and its records go through their rows' lanes. -/
theorem rowsAreReadAndWritten : Obligations.RowsAreReadAndWritten := by
  unfold Obligations.RowsAreReadAndWritten
  refine ⟨fun _ _ data _ => execLookup_of_checked (data := data), fun _ _ _ _ _ _ => execLookup_at_work,
    fun _ _ _ _ => execLookup_of_bad_bags, fun _ _ data _ _ => execUpdate_of_checked (data := data), fun _ _ _ _ _ => execUpdate_at_work,
    fun _ _ data _ _ => execTableWriteRows_of_form (data := data), fun _ _ _ _ _ => execTableWriteRows_at_work, State.queue_route,
    fun _ _ _ _ _ => State.laneItem_of_front, ?write⟩
  intro s c r t v g hc hversion hop
  simp only [State.applyRec, hc, hversion, hop]

/-! ### The engines' flows (R260, R327, R333, R339, R349, R354, R358) -/

/-- A command whose flow takes its item is queued. -/
theorem State.admitItem_of_taken {s t : State} {c : Cmd}
    (h : s.enqueue c.part c.flow (mkItem 0x7FF c.tag 0 0 0 .ok (.cmd c.id)) = (.ok, t)) :
    s.admitItem c = t.setCmd { c with stage := .queued } := by
  simp only [State.admitItem, h, if_true]

/-- A command that its checks pass and its flow takes is queued. -/
theorem State.admitIf_of_taken {s t : State} {c : Cmd} {st : Status} (hst : st = .ok)
    (h : s.enqueue c.part c.flow (mkItem 0x7FF c.tag 0 0 0 .ok (.cmd c.id)) = (.ok, t)) :
    s.admitIf c st = t.setCmd { c with stage := .queued } := by
  simp only [State.admitIf, hst, if_true, State.admitItem_of_taken h]

theorem State.admitIf_of_refused {s : State} {c : Cmd} {st : Status} (hst : st ≠ .ok) : s.admitIf c st = s.finish c.id st 0 :=
  if_neg hst

/-- The flow commands of the engines that only their checks refuse: row, opcode and checks. -/
def engineRows : List ((Nat → Bytes → Instr) × Nat × (State → Cmd → Status)) :=
  [(Instr.topk, 0x38, State.topkCheck), (.argmax, 0x39, State.argmaxCheck), (.matchCmd, 0x3C, State.matchCheck),
    (.copy, 0x30, State.copyAdmit), (.decompress, 0x35, State.decompressCheck), (.matmul, 0x40, State.matmulCheck)]

/-- Each of them is admitted by its checks, and a selection that they refuse is counted. -/
theorem exec_of_admitting {row : Nat → Bytes → Instr} {op : Nat} {check : State → Cmd → Status} (hrow : (row, op, check) ∈ engineRows)
    {s : State} {id : Nat} {data : Bytes} {c : Cmd} (hc : s.admitting id op = some c) : exec (row id data) s = .next (
      if op = 0x38 ∨ op = 0x39 then (s.admitIf c (check s c)).countSelected c (check s c) else s.admitIf c (check s c)) := by
  simp only [engineRows, List.mem_cons, List.not_mem_nil, or_false, Prod.mk.injEq] at hrow
  rcases hrow with ⟨rfl, rfl, rfl⟩ | ⟨rfl, rfl, rfl⟩ | ⟨rfl, rfl, rfl⟩ | ⟨rfl, rfl, rfl⟩ | ⟨rfl, rfl, rfl⟩ | ⟨rfl, rfl, rfl⟩
  · change execTopk id data s = _
    simp [execTopk, hc]
  · change execArgmax id data s = _
    simp [execArgmax, hc]
  · change execMatchCmd id data s = _
    simp [execMatchCmd, hc]
  · change execCopy id data s = _
    simp [execCopy, hc]
  · change execDecompress id data s = _
    simp [execDecompress, hc]
  · change execMatmul id data s = _
    simp [execMatmul, hc]

/-- A COMPRESS whose staging regions are free claims them and joins its flow. -/
theorem State.compressAdmit_of_free {s t u : State} {c : Cmd} (hcheck : s.compressCheck c = .ok)
    (hfree : ∀ r ∈ c.staging, s.holder r = 0) (hclaim : s.claim c.staging 4 c.id = some t)
    (htaken : t.enqueue c.part c.flow (mkItem 0x7FF c.tag 0 0 0 .ok (.cmd c.id)) = (.ok, u)) :
    s.compressAdmit c = u.setCmd { c with stage := .queued } := by
  have hall : (c.staging.all fun r => s.holder r = 0) = true :=
    List.all_eq_true.mpr fun r hr => decide_eq_true (hfree r hr)
  unfold State.compressAdmit
  simp only [hcheck, hall, if_true, hclaim, State.admitItem_of_taken htaken]

/-- A COMPRESS with a staging region that another holder has. -/
theorem State.compressAdmit_of_held {s : State} {c : Cmd} {r : Nat} (hcheck : s.compressCheck c = .ok) (hr : r ∈ c.staging)
    (hheld : s.holder r ≠ 0) : s.compressAdmit c = (s.bump Ob.CLAIMS_REFUSED).finish c.id .resourceHeld 0 := by
  have hall : (c.staging.all fun r => s.holder r = 0) = false :=
    List.all_eq_false.mpr ⟨r, hr, by simp only [hheld, decide_false, Bool.false_eq_true, not_false_eq_true]⟩
  unfold State.compressAdmit
  simp only [hcheck, hall, Bool.false_eq_true, if_false]

/-- Settles O45: the checks and the flow decide the admission; COMPRESS claims its regions between them. -/
theorem engineCommandsJoinTheirFlow : Obligations.EngineCommandsJoinTheirFlow := by
  unfold Obligations.EngineCommandsJoinTheirFlow
  refine ⟨?rows, ?free, ?held⟩
  case rows =>
    intro row op check hrow s id data c hc
    rw [exec_of_admitting hrow hc]
    refine ⟨fun t hcheck htaken => ?_, fun hcheck => ?_⟩
    · rw [State.admitIf_of_taken hcheck htaken]
      simp only [State.countSelected, hcheck, if_true, ite_self]
    · rw [State.admitIf_of_refused hcheck]
      simp only [State.countSelected, hcheck, if_false]
  case free =>
    intro s id data c t u hc hcheck hfree hclaim htaken
    change execCompress id data s = _
    simp only [execCompress, hc, State.compressAdmit_of_free hcheck hfree hclaim htaken]
  case held =>
    intro s id data c r hc hcheck hr hheld
    change execCompress id data s = _
    simp only [execCompress, hc, State.compressAdmit_of_held hcheck hr hheld]

end Sys2Proof.Machine
end

section
/-!
Lanes of the chipper and its dictionaries (R352, R360, R361).
-/
namespace Sys2Proof.Machine

/-! ### Lanes (R352) -/

/-- The running item of a lane is a Zstandard job between frames: it goes behind the items that wait. -/
theorem execLaneFrameEnd_of_waiting {s : State} {lane f q id : Nat} {x : Nat × Nat} {rest : List (Nat × Nat)} {fl : Flow} {it : Item}
    {c : Cmd} (hlane : s.engine .chipD lane = (f, q) :: x :: rest) (hflow : s.flow? (s.div.flowPart f) f = some fl)
    (hrunning : fl.running.find? (·.seq == q) = some it) (hwork : it.work = .cmd id) (hc : s.cmd? id = some c)
    (hop : c.opcode = 0x35) (hzstd : c.f 97 96 = 0) (hstage : c.stage = .running) (hhead : look s.laneHeads lane = some (f, q)) :
    execLaneFrameEnd lane s =
      .next { s.setEngine .chipD lane (x :: rest ++ [(f, q)]) with laneHeads := dropAt s.laneHeads lane } := by
  simp only [execLaneFrameEnd, hlane, hflow, hrunning, Option.map_some, hwork, hc, hop, hzstd, hstage, hhead, decide_true,
    Bool.and_self, BEq.rfl, if_true]

/-! ### Dictionaries (R360, R361) -/

theorem dictPart_eq (w : Writer) (p : Nat) :
    dictPart w p = if w.isHost ∧ w.part ≠ p then .notPermitted else if 1 < p then .badDescriptor else .ok := by
  simp [dictPart, firstFail]

theorem dictPart_of_own {w : Writer} {p : Nat} (hpart : w.isHost = true → w.part = p) (hp : p ≤ 1) : dictPart w p = .ok := by
  rw [dictPart_eq, if_neg fun h => h.2 (hpart h.1), if_neg (Nat.not_lt.mpr hp)]

/-- The checks of R360 in order. -/
theorem firstFail_dictLoad (w : Writer) (p : Nat) (bad full held : Bool) :
    firstFail [(decide (dictPart w p ≠ .ok), dictPart w p), (bad, .badDescriptor), (full, .noResource), (held, .resourceHeld)] =
      if w.isHost ∧ w.part ≠ p then .notPermitted
      else if 1 < p ∨ bad = true then .badDescriptor
      else if full = true then .noResource
      else if held = true then .resourceHeld else .ok := by
  rw [dictPart_eq]
  by_cases hother : w.isHost = true ∧ w.part ≠ p
  · simp [firstFail, hother]
  · by_cases hp : 1 < p
    · simp [firstFail, hother, hp]
    · simp [firstFail, hother, hp]

theorem opDictLoad_answers (w : Writer) (v : Bytes) (s : State) : ∃ st, (opDictLoad w v s).1 = some st := by
  unfold opDictLoad
  extract_lets p id b st
  split
  · exact ⟨_, rfl⟩
  · split <;> exact ⟨_, rfl⟩

/-- Settles O47: a lane changes its front between frames alone; a dictionary is loaded by its checks and leaves at the edge. -/
theorem lanesAndDictionaries : Obligations.LanesAndDictionaries := by
  unfold Obligations.LanesAndDictionaries
  refine ⟨fun _ _ _ _ _ _ _ _ _ _ => execLaneFrameEnd_of_waiting, ?alone, ?loads, ?checks, ?places, ?unloads, ?edge⟩
  case alone =>
    intro s lane f q hlane
    change execLaneFrameEnd lane s = _
    simp only [execLaneFrameEnd, hlane]
  case loads =>
    intro s acc w v t harrive
    change execDictLoad acc s = _
    obtain ⟨st, hst⟩ := opDictLoad_answers w v t
    rw [execDictLoad, State.write_answers harrive (Prod.ext hst rfl), hst, Option.getD_some]
  case checks =>
    rintro w v b p id s rfl rfl rfl
    unfold opDictLoad
    simp only [firstFail_dictLoad, Bool.or_eq_true, decide_eq_true_eq, Bool.not_eq_true', or_assoc] <;> rfl
  case places =>
    intro s p b d t hplace
    unfold State.placeDict at hplace
    extract_lets starts r at hplace
    split at hplace
    · obtain ⟨hd, -⟩ := Prod.mk.inj hplace
      rw [← Option.some.inj hd]
    · cases hplace
  case unloads =>
    rintro s acc w v p id t harrive rfl rfl hpart hp hmid hloaded
    change execDictUnload acc s = _
    have hnone : (look (t.part (bitsOf (leNat v) 7 0)).dicts (bitsOf (leNat v) 63 32)).isNone = false := by
      rw [Option.isNone_eq_false_iff, hloaded]
    by_cases hheld : t.dictHeld (bitsOf (leNat v) 7 0) (bitsOf (leNat v) 63 32) = true
    · rw [if_pos hheld, execDictUnload, State.write_answers harrive (u := t) (st := .resourceHeld)]
      simp [numOp, dictPart_of_own hpart hp, hmid, hnone, hheld, firstFail]
    · rw [if_neg hheld, execDictUnload, State.write_defers harrive]
      simp [numOp, dictPart_of_own hpart hp, hmid, hnone, hheld, firstFail]
  case edge =>
    intro s p id hunload
    change execDictUnloadEdge p s = _
    simp [execDictUnloadEdge, hunload, State.dropDict]

end Sys2Proof.Machine
end

section
/-!
Sessions and blocks of the Burral Object Protocol (R369–R377, R382, R386).
-/
namespace Sys2Proof.Machine

/-! ### The intake of a request (R372, R374, R375) -/

/-- A request without a session is carried out as it was read. -/
theorem State.intakePlain_go {s t : State} {path : BopPath} {src port : Nat} {x y : Bop} {w : Writer}
    (h : s.intakePlain path src port x = .go w y t) : y = x := by
  unfold State.intakePlain at h
  dsimp only at h
  repeat' split at h
  all_goals cases h
  all_goals rfl

/-- What the session of a request that is carried out has been found to be. -/
def State.Authentic (s : State) (path : BopPath) (x : Bop) : Prop :=
  ∃ v, s.session? x.session = some v ∧ v.path = path ∧ bopTag v.ks 1 (x.header ++ x.payload) = x.tag ∧
    (v.confirmed = true → v.lastCtr < x.ctr) ∧ (v.confirmed = false → x.op = 0x03 ∧ x.ctr = 1)

/-- A request in a session is carried out as it was read, with the session's tag and a counter of its own. -/
theorem State.intakeSession_go {s t : State} {path : BopPath} {src port : Nat} {x y : Bop} {w : Writer}
    (h : s.intakeSession path src port x = .go w y t) : y = x ∧ s.Authentic path x := by
  unfold State.intakeSession at h
  dsimp only at h
  split at h
  · cases h
  split at h
  · cases h
  rename_i v hv
  split at h
  · cases h
  rename_i hpath
  split at h
  · cases h
  rename_i htag
  have hfound : v.path = path ∧ bopTag v.ks 1 (x.header ++ x.payload) = x.tag := ⟨not_not.mp hpath, not_not.mp htag⟩
  split at h
  · rename_i hunconfirmed
    have hconfirmed : v.confirmed = false := by simpa using hunconfirmed
    split at h
    · rename_i hfirst
      cases h
      exact ⟨rfl, v, hv, hfound.1, hfound.2, fun hc => absurd hc (by simp [hconfirmed]), fun _ => by simpa using hfirst⟩
    · cases h
  rename_i hunconfirmed
  have hconfirmed : v.confirmed = true := by simpa using hunconfirmed
  split at h
  · split at h <;> cases h
  split at h
  · cases h
  rename_i hctr
  have hauthentic : s.Authentic path x :=
    ⟨v, hv, hfound.1, hfound.2, fun _ => Nat.not_le.mp hctr, fun hc => absurd hc (by simp [hconfirmed])⟩
  repeat' split at h
  all_goals cases h
  all_goals exact ⟨rfl, hauthentic⟩

/-- Taking a message off the queue leaves the sessions. -/
theorem State.session_takeMessage {s u : State} {m : BopMsg} (h : s.takeMessage m = some u) (id : Nat) :
    u.session? id = s.session? id := by
  unfold State.takeMessage at h
  repeat' split at h
  all_goals cases h
  all_goals rfl

/-- A request in a session that is carried out is authentic. -/
theorem State.intake_authentic {s t : State} {m : BopMsg} {op : Nat → Bool} {w : Writer} {x : Bop} (h : s.intake m op = .go w x t)
    (hx : x.session ≠ 0) : s.Authentic (msgPath m) x := by
  have hlift : ∀ {u path}, s.takeMessage m = some u → u.Authentic path x → s.Authentic path x := by
    rintro u path hu ⟨v, hv, hrest⟩
    exact ⟨v, (State.session_takeMessage hu _).symm.trans hv, hrest⟩
  unfold State.intake at h
  dsimp only at h
  split at h
  · cases h
  split at h
  · cases h
  split at h
  · cases h
  rename_i u hu
  split at h
  · split at h
    · cases h
    split at h
    · rename_i hplain
      exact absurd (State.intakePlain_go h ▸ hplain) hx
    · obtain ⟨rfl, hauthentic⟩ := State.intakeSession_go h
      exact hlift hu hauthentic
  · split at h
    · cases h
    split at h
    · rename_i hplain
      exact absurd (State.intakePlain_go h ▸ hplain) hx
    · obtain ⟨rfl, hauthentic⟩ := State.intakeSession_go h
      exact hlift hu hauthentic

/-- Settles O48: every branch of the intake that carries a request out in a session has compared its tag and its counter. -/
theorem sessionRequestsCarryTheirTag : Obligations.SessionRequestsCarryTheirTag := by
  unfold Obligations.SessionRequestsCarryTheirTag
  exact fun _ _ _ _ _ _ h hx => State.intake_authentic h hx

end Sys2Proof.Machine
end

section
/-!
Sessions, blocks and malformed messages of the Burral Object Protocol (R369, R370, R373, R376, R377, R382, R386).
-/
namespace Sys2Proof.Machine

/-! ### Sessions (R373, R376) -/

/-- With `n` sessions open, one of the IDs from 1 to `n + 1` is free. -/
theorem State.exists_free_session (s : State) : ∃ i ∈ List.range (s.mgmt.sessions.length + 1), (s.session? (i + 1)).isNone = true := by
  by_contra hused
  push Not at hused
  have hmem : ((List.range (s.mgmt.sessions.length + 1)).map (· + 1)) ⊆ s.mgmt.sessions.map (·.id) := by
    intro k hk
    obtain ⟨i, hi, rfl⟩ := List.mem_map.mp hk
    obtain ⟨v, hv⟩ := Option.ne_none_iff_exists'.mp fun hnone => hused i hi (Option.isNone_iff_eq_none.mpr hnone)
    have hid : v.id = i + 1 := by simpa using List.find?_some hv
    exact List.mem_map.mpr ⟨v, List.mem_of_find?_eq_some hv, hid⟩
  have hnodup : ((List.range (s.mgmt.sessions.length + 1)).map (· + 1)).Nodup :=
    List.nodup_range.map (add_left_injective 1)
  have := (hnodup.subperm hmem).length_le
  simp at this

/-- The ID of a new session names none. -/
theorem State.session_freeSession (s : State) : s.session? s.freeSession = none ∧ 1 ≤ s.freeSession := by
  refine ⟨?_, Nat.le_add_left _ _⟩
  obtain ⟨i, hi, hnone⟩ := s.exists_free_session
  cases hfind : (List.range (s.mgmt.sessions.length + 1)).find? fun i => (s.session? (i + 1)).isNone with
  | none => exact absurd hnone (List.find?_eq_none.mp hfind i hi)
  | some k =>
    have hfree := List.find?_some hfind
    simpa only [State.freeSession, hfind, Option.getD_some, Option.isNone_iff_eq_none] using hfree

/-- What ends with a session. -/
theorem State.endSession_clears (s : State) (id : Nat) :
    (s.endSession id).session? id = none ∧ (∀ e ∈ (s.endSession id).mgmt.events, e.session ≠ id) ∧
      (s.endSession id).mgmt.blocks = dropAt s.mgmt.blocks id := by
  refine ⟨?_, fun e he => by simpa using (List.mem_filter.mp he).2, rfl⟩
  refine List.find?_eq_none.mpr fun v hv => ?_
  simpa using (List.mem_filter.mp hv).2

/-- What is refused by the first of three checks that fails, and goes on where none does. -/
theorem refuse_three {α : Type} (refuse : Status → α) (rest : α) (a b c : Bool) {x y z : Status} (hx : x ≠ .ok) (hy : y ≠ .ok)
    (hz : z ≠ .ok) : (if firstFail [(a, x), (b, y), (c, z)] ≠ .ok then refuse (firstFail [(a, x), (b, y), (c, z)]) else rest) =
      if a = true then refuse x else if b = true then refuse y else if c = true then refuse z else rest := by
  cases a
  · cases b
    · cases c <;> simp [firstFail, hz]
    · simp [firstFail, hy]
  · simp [firstFail, hx]

/-- SESSION_INIT: its checks in order, then the new session. -/
theorem execSessionInit_go {s t : State} {m : BopMsg} {w : Writer} {x : Bop} (h : s.intake m (· = 0x02) = .go w x t) :
    execSessionInit m s = .next (
      let slot := leAt x.payload 0 1
      let nd := leBytes 16 (Config.sessionNonce t.nv.bootCount t.mgmt.nonces)
      if 5 < slot then t.respond w.reply .badDescriptor
      else if slotInPath (msgPath m) slot = false ∨ t.keyEmpty slot = true ∨ t.keyLocked slot = true then
        t.respond w.reply .authFail
      else if (match msgPath m with | .m => 8 | .mbox _ => 1) ≤
          (t.mgmt.sessions.filter fun y => y.path == msgPath m).length then t.respond w.reply .noResource
      else
        let v : Session := { id := t.freeSession, path := msgPath m, slot := slot,
                             ks := hmac (t.key slot) (ascii "BOP1" ++ sliceB x.payload 4 16 ++ nd ++ beBytes 2 t.freeSession),
                             confirmed := false, since := t.now, lastCtr := 0, lastTag := [], cached := none,
                             eventCtr := 0, sub := none }
        ({ t with mgmt := { t.mgmt with nonces := t.mgmt.nonces + 1, sessions := t.mgmt.sessions ++ [v] } }).respond
          w.reply .ok (leBytes 2 t.freeSession ++ leBytes 6 0 ++ nd)) := by
  rw [execSessionInit, State.serve_go h]
  simp only [refuse_three (t.respond w.reply ·), Bool.or_eq_true, Bool.not_eq_true', decide_eq_true_eq, or_assoc, ne_eq, reduceCtorEq,
    not_false_eq_true] <;> cases m <;> rfl

/-- SESSION_CONFIRM in the session of its tag. -/
theorem execSessionConfirm_go {s t : State} {m : BopMsg} {w : Writer} {x : Bop} {v : Session}
    (h : s.intake m (· = 0x03) = .go w x t) (hform : badRequest x = false) (hv : t.session? x.session = some v) :
    execSessionConfirm m s = .next (
      let u := t.setSession { v with confirmed := true, since := t.now, lastCtr := max v.lastCtr x.ctr, lastTag := x.tag }
      ({ u with mgmt := { u.mgmt with fails := dropAt u.mgmt.fails v.slot } }).respond w.reply .ok) := by
  rw [execSessionConfirm, State.serve_go h]
  simp only [hform, Bool.false_eq_true, if_false, hv]

/-! ### Blocks (R382) -/

/-- BLOCK_OPEN: its checks in order, then the open block. -/
theorem execBlockOpen_go {s t : State} {m : BopMsg} {w : Writer} {x : Bop} (h : s.intake m (· = 0x18) = .go w x t) :
    execBlockOpen m s = .next (
      let who := blockHolder (msgPath m) x.session
      let k := bopTarget x
      let total := leAt x.payload 4 4
      let st : Status := if w.rom = false ∧ t.mayWrite w.who k.1 k.2 ≠ .ok then t.mayWrite w.who k.1 k.2
        else if (odFind k.1 k.2).any (fun r => r.ty = 8) = false ∨ total = 0 ∨ 67108864 < total then .badDescriptor
        else if (look t.mgmt.blocks who).isSome ∨ (w.rom = true ∧ t.mgmt.blocks.isEmpty = false) ∨
          (t.mgmt.blocks.any fun b => (b.2.idx, b.2.sub) == k) = true then .resourceHeld
        else if 67108864 < t.blockBytes + total then .noResource else .ok
      if st = .ok then ({ t with mgmt := { t.mgmt with
        blocks := setAt t.mgmt.blocks who { idx := k.1, sub := k.2, total := total, bytes := [] } } }).respond w.reply .ok
      else t.respond w.reply st) := by
  rw [execBlockOpen, State.serve_go h]
  simp only [firstFail, Bool.or_eq_true, Bool.and_eq_true, Bool.not_eq_true', decide_eq_true_eq, or_assoc, ne_eq, ite_not]

/-- BLOCK_DATA: the next bytes of the open block within its length. -/
theorem execBlockData_go {s t : State} {m : BopMsg} {w : Writer} {x : Bop} (h : s.intake m (· = 0x19) = .go w x t) :
    execBlockData m s = .next (
      let who := blockHolder (msgPath m) x.session
      match look t.mgmt.blocks who with
      | none => t.respond w.reply .badDescriptor
      | some b =>
        if leAt x.payload 0 4 = b.bytes.length ∧ b.bytes.length + (x.payload.drop 4).length ≤ b.total then
          ({ t with mgmt := { t.mgmt with
            blocks := setAt t.mgmt.blocks who { b with bytes := b.bytes ++ x.payload.drop 4 } } }).respond w.reply .ok
        else t.respond w.reply .badDescriptor) := by
  rw [execBlockData, State.serve_go h]
  cases hb : look t.mgmt.blocks (blockHolder (msgPath m) x.session) with
  | none => simp only [hb]
  | some b =>
    by_cases hfits : leAt x.payload 0 4 = b.bytes.length ∧ b.bytes.length + (x.payload.drop 4).length ≤ b.total
    · have hguard : (decide (leAt x.payload 0 4 ≠ b.bytes.length) || decide (b.total < b.bytes.length + (x.payload.drop 4).length)) =
          false := by simpa using hfits
      simp only [hb, hguard, Bool.false_eq_true, if_false, if_pos hfits]
    · have hguard : (decide (leAt x.payload 0 4 ≠ b.bytes.length) || decide (b.total < b.bytes.length + (x.payload.drop 4).length)) =
          true := by simpa [Classical.or_iff_not_imp_left] using hfits
      simp only [hb, hguard, if_true, if_neg hfits]

/-- BLOCK_ABORT: the open block is gone. -/
theorem execBlockAbort_go {s t : State} {m : BopMsg} {w : Writer} {x : Bop} (h : s.intake m (· = 0x1B) = .go w x t) :
    execBlockAbort m s = .next (
      let who := blockHolder (msgPath m) x.session
      if (look t.mgmt.blocks who).isSome then
        ({ t with mgmt := { t.mgmt with blocks := dropAt t.mgmt.blocks who } }).respond w.reply .ok
      else t.respond w.reply .badDescriptor) := by
  rw [execBlockAbort, State.serve_go h]
  cases hb : look t.mgmt.blocks (blockHolder (msgPath m) x.session) with
  | none => simp only [hb, Option.isSome_none, Bool.false_eq_true, if_false]
  | some b => simp only [hb, Option.isSome_some, if_true]

/-- BLOCK_COMMIT of an open block writes its object. -/
theorem execBlockCommit_go {s t : State} {m : BopMsg} {w : Writer} {v : Bytes} (hop : (parseBop (s.msgBytes m)).op = 0x1A)
    (hblock : (look s.mgmt.blocks (blockHolder (msgPath m) (parseBop (s.msgBytes m)).session)).isSome = true)
    (h : s.arrive (.bop m) (fun _ _ => true) = .go w v t) :
    execBlockCommit m s = .next (match opObject w v t with
      | (some st, u) => u.respond w.reply st
      | (none, u) => u) := by
  have hnone : (look s.mgmt.blocks (blockHolder (msgPath m) (parseBop (s.msgBytes m)).session)).isNone = false := by
    rw [Option.isNone_eq_false_iff, hblock]
  simp only [execBlockCommit, hop, ne_eq, not_true_eq_false, if_false, hnone, Bool.false_eq_true, State.write_go h]
  rcases opObject w v t with ⟨_ | st, u⟩ <;> rfl

/-- BLOCK_COMMIT without an open block. -/
theorem execBlockCommit_of_none {s t : State} {m : BopMsg} {w : Writer} {x : Bop} (hop : (parseBop (s.msgBytes m)).op = 0x1A)
    (hblock : (look s.mgmt.blocks (blockHolder (msgPath m) (parseBop (s.msgBytes m)).session)).isSome = false)
    (h : s.intake m (· = 0x1A) = .go w x t) : execBlockCommit m s = .next (t.respond w.reply .badDescriptor) := by
  have hnone : (look s.mgmt.blocks (blockHolder (msgPath m) (parseBop (s.msgBytes m)).session)).isNone = true := by
    rw [← Option.not_isSome, hblock]
    rfl
  simp only [execBlockCommit, hop, ne_eq, not_true_eq_false, if_false, hnone, if_true, State.serve_go h]

/-! ### Messages (R369, R370, R386) -/

/-- The front message alone is taken. -/
theorem State.takeMessage_of_waiting {s : State} {q r : BopMsg} {rest : List BopMsg} (h : s.mgmt.mailboxes = q :: rest) :
    s.takeMessage q = some { s with mgmt := { s.mgmt with mailboxes := rest } } ∧ (r ≠ q → s.takeMessage r = none) := by
  constructor
  · simp only [State.takeMessage, h, if_true]
  · intro hr
    simp only [State.takeMessage, h, Ne.symm hr, if_false]

/-- A refused form is answered before anything else is asked, in the boot ROM and in firmware alike. -/
theorem State.intakePlain_of_bad {s : State} {path : BopPath} {src port : Nat} {x : Bop} (h : badRequest x = true) :
    s.intakePlain path src port x =
      .dealt (s.respond (.bop path src port x.session [] x.seq x.ctr x.op) .badDescriptor) := by
  simp only [State.intakePlain, h, if_true, State.pathWriter, ite_self]

/-- An unknown OP, or that of an event, is one of BOP_MALFORMED's and a refused form. -/
theorem badRequest_of_unknown {x : Bop} (h : bopOps.contains x.op = false ∨ x.op = 0x31) :
    (!bopOps.contains x.op || decide (x.op = 0x31)) = true ∧ badRequest x = true := by
  have hop : (!bopOps.contains x.op || decide (x.op = 0x31)) = true := by
    rcases h with h | h
    · rw [h]
      rfl
    · simp [h]
  exact ⟨hop, by simp only [badRequest, hop, Bool.true_or]⟩

/-- A well formed request of an unknown OP on M, without a session. -/
theorem execBopMalformed_of_unknown_m {s t : State} {src port : Nat} {multi : Bool} {b : Bytes}
    (hhears : s.hears (.m src port multi b) = true) (hform : s.malformed (.m src port multi b) = false)
    (hop : bopOps.contains (parseBop b).op = false ∨ (parseBop b).op = 0x31) (hkind : (parseBop b).kind = 1)
    (hsession : (parseBop b).session = 0) (hframe : frameOk src multi (parseBop b).op = true)
    (htake : s.takeMessage (.m src port multi b) = some t) :
    execBopMalformed (.m src port multi b) s = .next (t.respond
      (.bop .m src port 0 [] (parseBop b).seq (parseBop b).ctr (parseBop b).op) .badDescriptor) := by
  have hx : parseBop (s.msgBytes (.m src port multi b)) = parseBop b := rfl
  generalize parseBop b = x at *
  obtain ⟨hown, hbad⟩ := badRequest_of_unknown hop
  have hintake : s.intake (.m src port multi b) (fun op => !bopOps.contains op || op = 0x31) =
      .dealt (t.respond (.bop .m src port 0 [] x.seq x.ctr x.op) .badDescriptor) := by
    have hguard : (!s.hears (.m src port multi b) || s.malformed (.m src port multi b) ||
        !(!bopOps.contains x.op || decide (x.op = 0x31))) = false := by simp only [hhears, hform, hown]; rfl
    simp only [State.intake, hx, hguard, Bool.false_eq_true, if_false, accepted, hframe, Bool.not_true, htake, hkind,
      OfNat.one_ne_ofNat, hsession, if_true, State.intakePlain_of_bad hbad]
  simp only [execBopMalformed, hhears, hform, Bool.not_true, Bool.false_eq_true, if_false, State.serve, hintake]

/-- The same in a mailbox. -/
theorem execBopMalformed_of_unknown_mbox {s t : State} {p : PortNo} {x : Bop} (hhears : s.hears (.mbox p) = true)
    (hform : s.malformed (.mbox p) = false) (hx : parseBop (s.msgBytes (.mbox p)) = x)
    (hop : bopOps.contains x.op = false ∨ x.op = 0x31) (hkind : x.kind = 1) (hsession : x.session = 0)
    (htake : s.takeMessage (.mbox p) = some t) :
    execBopMalformed (.mbox p) s = .next (t.respond (.bop (.mbox p) 0 0 0 [] x.seq x.ctr x.op) .badDescriptor) := by
  obtain ⟨hown, hbad⟩ := badRequest_of_unknown hop
  have hintake : s.intake (.mbox p) (fun op => !bopOps.contains op || op = 0x31) =
      .dealt (t.respond (.bop (.mbox p) 0 0 0 [] x.seq x.ctr x.op) .badDescriptor) := by
    have hguard : (!s.hears (.mbox p) || s.malformed (.mbox p) || !(!bopOps.contains x.op || decide (x.op = 0x31))) = false := by
      simp only [hhears, hform, hown]; rfl
    simp only [State.intake, hx, hguard, Bool.false_eq_true, if_false, accepted, Bool.not_true, htake, hkind,
      OfNat.one_ne_ofNat, hsession, if_true, State.intakePlain_of_bad hbad]
  simp only [execBopMalformed, hhears, hform, Bool.not_true, Bool.false_eq_true, if_false, State.serve, hintake]

/-- Settles O49: each request that is carried out runs its row's operation, and the queue of messages decides which is taken. -/
theorem sessionsAndBlocksFollowTheirRequests : Obligations.SessionsAndBlocksFollowTheirRequests := by
  unfold Obligations.SessionsAndBlocksFollowTheirRequests
  refine ⟨?hello, fun _ _ _ _ _ => execSessionInit_go, State.session_freeSession, fun _ _ _ _ _ _ => execSessionConfirm_go, ?close,
    State.endSession_clears, ?timeout, ?idle, ?lock, fun _ _ _ _ _ => execBlockOpen_go, fun _ _ _ _ _ => execBlockData_go,
    fun _ _ _ _ _ => execBlockAbort_go, fun _ _ _ _ _ => execBlockCommit_go, fun _ _ _ _ _ => execBlockCommit_of_none,
    fun _ _ _ _ => State.takeMessage_of_waiting, ?lineUp, ?malformed, ?malformedBox, fun _ _ _ _ _ _ => execBopMalformed_of_unknown_m,
    fun _ _ _ _ => execBopMalformed_of_unknown_mbox⟩
  case hello =>
    intro s t m w x h
    change execHello m s = _
    rw [execHello, State.serve_go h]
  case close =>
    intro s t m w x h
    change execSessionClose m s = _
    rw [execSessionClose, State.serve_go h]
  case timeout =>
    intro s id v hv hconfirmed hdue
    change execConfirmTimeout id s = _
    simp [execConfirmTimeout, hv, hconfirmed, hdue]
  case idle =>
    intro s id v hv hconfirmed hdue
    change execSessionIdle id s = _
    simp [execSessionIdle, hv, hconfirmed, hdue]
  case lock =>
    intro s slot t ht hdue
    change execLockExpiry slot s = _
    simp only [execLockExpiry, ht, hdue, if_true]
  case lineUp =>
    intro s m hm hnew
    simp only [State.lineUp, hm, hnew, Bool.not_true, Bool.or_self, Bool.false_eq_true, if_false]
  case malformed =>
    intro s src srcPort multi b hhears hform
    change execBopMalformed (.m src srcPort multi b) s = _
    simp only [execBopMalformed, hhears, hform, Bool.not_true, Bool.false_eq_true, if_false, if_true]
  case malformedBox =>
    intro s t p hhears hform htake
    change execBopMalformed (.mbox p) s = _
    simp only [execBopMalformed, hhears, hform, Bool.not_true, Bool.false_eq_true, if_false, if_true, htake]

end Sys2Proof.Machine
end

section
/-!
Reads, writes, the store, events and the single-pair bus (R364–R366, R380–R385).
-/
namespace Sys2Proof.Machine

/-! ### The single-pair bus (R364–R366) -/

/-- Frames leave the transmit buffer oldest first. -/
theorem State.flushTx_eq (s : State) (n : Nat) :
    s.flushTx n = { s with mgmt := { s.mgmt with tx := s.mgmt.tx.drop n }, out := (s.mgmt.tx.take n).reverse ++ s.out } := by
  rw [State.flushTx, State.foldl_emit_frame fun o : Output => o, List.map_id']

/-! ### Reads and records (R380, R383) -/

/-- READ of an object in being from its first byte on. -/
theorem execRead_of_object {s t : State} {m : BopMsg} {w : Writer} {x : Bop} {r : OdRow} (h : s.intake m (· = 0x10) = .go w x t)
    (hrom : w.rom = false) (hr : odFind (bopTarget x).1 (bopTarget x).2 = some r) (hsub : (bopTarget x).2 ≠ 0)
    (hmay : t.mayRead w.who (bopTarget x).1 (bopTarget x).2 = .ok)
    (hread : (t.objectBytes w.who ((bopTarget x).1 * 256 + (bopTarget x).2)).1.1 = .ok) (hoff : leAt x.payload 4 4 = 0) :
    execRead m s = .next (
      let u := t.objectBytes w.who ((bopTarget x).1 * 256 + (bopTarget x).2)
      let n := if leAt x.payload 8 2 = 0 then u.1.2.length else min (leAt x.payload 8 2) u.1.2.length
      let room := roomFor (msgPath m) x.session
      u.2.respond w.reply (if room < n then .partialOk else .ok) (u.1.2.take (min n room))) := by
  rw [execRead, State.serve_go h]
  simp only [hrom, hr, hsub, hmay, hread, hoff, Option.isSome_some, Bool.not_true, Bool.false_eq_true, if_false, ne_eq,
    not_true_eq_false, Nat.lt_irrefl, decide_false, Bool.false_and, Nat.sub_zero, List.drop_zero]

/-! ### Events (R384, R385) -/

/-- SUBSCRIBE on M in a session. -/
theorem execSubscribe_go {s t : State} {src srcPort : Nat} {multi : Bool} {b : Bytes} {w : Writer} {x : Bop} {v : Session}
    (h : s.intake (.m src srcPort multi b) (· = 0x30) = .go w x t) (hv : t.session? x.session = some v) :
    execSubscribe (.m src srcPort multi b) s = .next (
      let mask := leAt x.payload 0 4
      if 2 ^ 14 ≤ mask then t.respond w.reply .badDescriptor
      else (({ t with mgmt := { t.mgmt with
          events := t.mgmt.events.filter fun e => mask != 0 || e.session != v.id } } : State).setSession { v with
        sub := if mask = 0 then none else some { mask := mask, src := src, srcPort := srcPort } }).respond w.reply .ok) := by
  rw [execSubscribe, State.serve_go h]
  simp only [hv]

/-- An acknowledgement of a confirmed session with its tag. -/
theorem execEventAck_of_tag {s t : State} {src srcPort : Nat} {multi : Bool} {b : Bytes} {v : Session}
    (hhears : s.hears (.m src srcPort multi b) = true) (hform : s.malformed (.m src srcPort multi b) = false)
    (hop : (parseBop b).op = 0x32) (hkind : (parseBop b).kind = 4) (hframe : frameOk src multi 0x32 = true)
    (htake : s.takeMessage (.m src srcPort multi b) = some t) (hv : t.session? (parseBop b).session = some v)
    (hconfirmed : v.confirmed = true) (htag : bopTag v.ks 1 ((parseBop b).header ++ (parseBop b).payload) = (parseBop b).tag) :
    execEventAck (.m src srcPort multi b) s = .next { t with mgmt := { t.mgmt with
      events := t.mgmt.events.filter fun e => !(e.session == v.id && e.number == (parseBop b).seq) } } := by
  have hx : parseBop (s.msgBytes (.m src srcPort multi b)) = parseBop b := rfl
  simp only [execEventAck, hx, hhears, hform, hop, hkind, accepted, hframe, htake, hv, hconfirmed, htag, ne_eq, not_true_eq_false,
    decide_false, decide_true, Bool.not_true, Bool.or_self, Bool.and_self, Bool.false_eq_true, if_false, if_true]

/-- Settles O50: each request that is carried out runs its row's operation; events and frames follow their queues. -/
theorem readsStoresAndEvents : Obligations.ReadsStoresAndEvents := by
  unfold Obligations.ReadsStoresAndEvents
  refine ⟨fun _ _ _ _ _ _ => execRead_of_object, ?write, ?store, ?restore, fun _ _ _ _ _ _ _ _ _ => execSubscribe_go, ?event, ?deaf,
    ?lost, ?again, fun _ _ _ _ _ _ _ => execEventAck_of_tag, ?transmit, fun s n => by rw [State.flushTx_eq]; exact ⟨rfl, rfl⟩,
    ?beacon, ?fallback, ?coordinator⟩
  case write =>
    intro s t m w v hop harrive
    change execWrite m s = _
    simp only [execWrite, hop, if_true, State.write_go harrive]
    rcases opPlain w v t with ⟨_ | st, u⟩ <;> rfl
  case store =>
    intro s t m w x h
    change execStore m s = _
    rw [execStore, State.serve_go h]
    rfl
  case restore =>
    intro s t m w x h
    change execRestoreDefaults m s = _
    rw [execRestoreDefaults, State.serve_go h]
    rfl
  case event =>
    intro s cause part detail o ho
    change execEvent cause part detail s = _
    simp only [execEvent, ho]
  case deaf =>
    intro s o v u hu hbit
    simp only [State.hearEvent, hu, hbit, Bool.not_false, if_true]
  case lost =>
    intro s n e he hdue hsent
    change execEventRetry n s = _
    simp only [execEventRetry, he, Nat.not_lt.mpr hdue, if_false, hsent, if_true]
  case again =>
    intro s n e he hdue hsent
    change execEventRetry n s = _
    simp only [execEventRetry, he, Nat.not_lt.mpr hdue, if_false, Nat.not_le.mpr hsent]
  case transmit =>
    intro s hstatus hxo
    change execTransmitOpportunity s = _
    simp [execTransmitOpportunity, hstatus, hxo]
  case beacon =>
    intro s hrole hnode hxo hmode
    change execBeacon s = _
    simp [execBeacon, hrole, hnode, hxo, hmode]
  case fallback =>
    intro s hrole hstatus
    change execBeaconTimeout s = _
    simp [execBeaconTimeout, hrole, hstatus, State.txDone]
  case coordinator =>
    intro s hrole hxo hmode
    change execBeaconTransmit s = _
    simp [execBeaconTransmit, hrole, hxo, hmode]

end Sys2Proof.Machine
end

section
/-!
What the resets do to the reset controller: the members of the groups and the partitions that they hold (R26, R136, R466).
-/
namespace Sys2Proof.Machine

/-! ### The reset groups and the partitions in reset -/

/-- The members of the reset groups, and which of the two partitions they hold. -/
def State.held (s : State) : List ResetMember × Bool × Bool := (s.resets, (s.part 0).resetting, (s.part 1).resetting)

theorem State.held_congr {s t : State} (hr : t.resets = s.resets) (hp : t.parts = s.parts) : t.held = s.held := by
  rw [State.held, State.held, hr, State.part_of_parts hp, State.part_of_parts hp]

theorem State.Told.held_eq {s t : State} (h : s.Told t) : t.held = s.held :=
  State.held_congr (by rw [h.1]) h.parts_eq

/-- A change of a partition that leaves it in or out of reset. -/
theorem State.held_setPart {s : State} {p : Nat} {x : Part} (h : x.resetting = (s.part p).resetting) :
    (s.setPart p x).held = s.held := by
  have hpart (q : Nat) : ((s.setPart p x).part q).resetting = (s.part q).resetting := by
    unfold State.setPart State.part at *
    by_cases hp : p = 0 <;> by_cases hq : q = 0 <;> simp_all
  rw [State.held, State.held, hpart, hpart, State.setPart_resets]

theorem State.held_freeEpoch (s : State) (p e : Nat) : (s.freeEpoch p e).held = s.held :=
  State.held_setPart (s := s) (p := p) (x := { s.part p with epochs := dropAt (s.part p).epochs e }) rfl

theorem State.held_endNotice (s : State) (p e : Nat) (x : Epoch) : (s.endNotice p e x).held = s.held :=
  (State.held_freeEpoch _ p e).trans (State.deliverCpl_told _ _ _ _).held_eq

theorem State.loseHeld_told (s : State) (p r : Nat) : s.Told (s.loseHeld p r) :=
  (State.setCpl_told s p r _).trans (State.foldl_told (fun t _ =>
    (State.bump_told t _ 1 (Or.inr ⟨p, Or.inl rfl⟩)).trans (State.settle_told _ _ _)) _ _)

theorem State.disableRings_told (s : State) (p : Nat) : s.Told (s.disableRings p) := by
  unfold State.disableRings
  extract_lets t u x cmdRings cplRings
  have ht : s.Told t := State.foldl_told (fun t r => State.loseHeld_told t p r) _ s
  have hu : t.Told u := State.foldl_told (fun t _ =>
    (State.bump_told t _ 1 (Or.inr ⟨p, Or.inl rfl⟩)).trans (State.settle_told _ _ _)) _ t
  exact (ht.trans hu).trans (State.setPort_told u p _)

theorem State.held_abortPart (s : State) (p : Nat) (first : Option Nat) : (s.abortPart p first).held = s.held := by
  unfold State.abortPart
  extract_lets t mine u v
  have ht : t.held = s.held := by cases first with
    | none => rfl
    | some id => exact (State.finish_told s id .ok 0).held_eq
  have hu : u.held = t.held := (State.finishAll_told t _ _).held_eq
  have hv : v.held = u.held := foldl_eq_of_step_eq State.held (fun t (e : Nat × Epoch) => State.held_endNotice t p e.1 _) _ u
  have hw : (List.foldl (fun (t : State) q => t.disableRings q) v (v.portsOf p)).held = v.held :=
    foldl_eq_of_step_eq State.held (fun t q => (State.disableRings_told t q).held_eq) _ v
  exact hw.trans (hv.trans (hu.trans ht))

theorem State.countLookup_parts (s : State) (p : Nat) (lat late inBound : Bool) :
    (s.countLookup p lat late inBound).parts = s.parts := by
  unfold State.countLookup
  dsimp only
  split_ifs <;> rfl

theorem State.countLookup_resets (s : State) (p : Nat) (lat late inBound : Bool) :
    (s.countLookup p lat late inBound).resets = s.resets := by
  unfold State.countLookup
  dsimp only
  split_ifs <;> rfl

theorem State.held_sendRsp (s : State) (r : RltReq) (st : Status) (out : Bytes) : (s.sendRsp r st out).held = s.held := by
  unfold State.sendRsp State.sendRlt State.netSend
  extract_lets
  split <;> exact State.held_congr rfl rfl

theorem State.held_releaseRlt (s : State) (i : Nat) (st : Status) (out : Bytes) : (s.releaseRlt i st out).held = s.held := by
  unfold State.releaseRlt
  cases hlook : look s.rltReqs i with
  | none => rfl
  | some r =>
    exact (State.held_sendRsp _ r _ out).trans (State.held_congr (State.countLookup_resets ..) (State.countLookup_parts ..))

theorem State.held_abortRequests (s : State) (p : Nat) : (s.abortRequests p).held = s.held :=
  foldl_eq_of_step_eq State.held (fun t (r : Nat × RltReq) => State.held_releaseRlt t r.1 .aborted []) _ s

theorem State.answerGone_told (s : State) (p : Nat) : s.Told (s.answerGone p) := by
  unfold State.answerGone
  refine (State.mk_told s).trans (State.foldl_told (fun t w => ?_) _ _)
  split
  · exact State.respond_told t w.reply _ []
  · exact State.Told.refl t

theorem State.held_absorbBlocks (s : State) (hit : Nat → Bool) : (s.absorbBlocks hit).held = s.held :=
  (foldl_eq_of_step_eq State.held (fun t (b : BlockReset) => (State.respond_told t b.reply .aborted []).held_eq) _ _).trans
    (State.held_congr rfl rfl)

/-! ### The wipe's first step: pending repairs become active (R73) -/

/-- The settling of repairs touches the repair records, REPAIR_ACTIVE and the error log alone. -/
theorem State.settleRepairs_eq_of_frame {β : Type} (f : State → β) (hput : ∀ s v, f (s.put Ob.REPAIR_ACTIVE v) = f s)
    (hlog : ∀ s e, f (s.logError e) = f s) (hrep : ∀ s l, f { s with repairs := l } = f s)
    (hpass : ∀ s o, f { s with repairPass := o } = f s) (hqueue : ∀ s l, f { s with repairQueue := l } = f s)
    (s : State) (inReach : Nat → Bool) : f (s.settleRepairs inReach) = f s := by
  have hactivate (s : State) (r : RepairPass) : f (s.activateRepair r) = f s := by
    unfold State.activateRepair
    rw [hlog, hput]
    exact (hpass { s with repairs := setAt s.repairs r.unit { pos := r.pos, soft := true } } none).trans (hrep s _)
  have hnext (s : State) : f s.nextRepair = f s := by
    unfold State.nextRepair
    cases s.repairQueue with
    | nil => rfl
    | cons x rest =>
      unfold State.startRepair
      rw [hput]
      exact (hpass { s with repairQueue := rest } _).trans (hqueue s rest)
  unfold State.settleRepairs
  extract_lets mine pass t
  have ht : f t = f s := (foldl_eq_of_step_eq f (fun t e => hactivate t _) mine _).trans (hqueue s _)
  cases pass with
  | none => exact (hpass t none).trans ht
  | some r =>
    dsimp only
    split_ifs
    · rw [hnext, hactivate, hput, hpass, ht]
    · rw [hput, hpass, ht]

theorem State.held_settleRepairs (s : State) (inReach : Nat → Bool) : (s.settleRepairs inReach).held = s.held :=
  State.settleRepairs_eq_of_frame State.held (fun _ _ => rfl) (fun _ _ => State.held_congr (by simp) (by simp)) (fun _ _ => rfl)
    (fun _ _ => rfl) (fun _ _ => rfl) s inReach

theorem State.held_wipe (s : State) (mask stands : Nat) (inRegion : Nat → Bool) : (s.wipe mask stands inRegion).held = s.held :=
  State.held_settleRepairs s fun n => bitOf stands n

/-! ### A partition enters reset -/

/-- The teardown holds its own partition in reset. -/
theorem State.held_teardown (s : State) (p : Nat) : (s.teardown p).held =
    (s.resets, decide (p = 0) || (s.part 0).resetting, decide (p ≠ 0) || (s.part 1).resetting) := by
  unfold State.teardown
  extract_lets t mine engines core u v
  have ht : t.held = s.held := (State.held_absorbBlocks _ _).trans
    ((State.answerGone_told _ _).held_eq.trans (State.held_abortRequests s p))
  have hu : u.held = (t.resets, decide (p = 0) || (t.part 0).resetting, decide (p ≠ 0) || (t.part 1).resetting) := by
    simp only [u, State.held, State.setPart_resets]
    unfold State.setPart State.part
    by_cases hp : p = 0 <;> simp [hp, Part.reset]
  simp only [State.held, Prod.mk.injEq] at ht
  obtain ⟨hres, h0, h1⟩ := ht
  rw [hres, h0, h1] at hu
  exact (State.held_congr rfl rfl : (v.noteBreak 6 p).held = u.held).trans hu

theorem State.held_enterPart (s : State) (p : Nat) : (s.enterPart p).held =
    (s.resets, decide (p = 0) || (s.part 0).resetting, decide (p ≠ 0) || (s.part 1).resetting) :=
  (State.held_wipe _ _ _ _).trans (State.held_teardown s p)

/-- A source that is asserted becomes a member of a group. -/
theorem State.joinReset_resets (s : State) (m : ResetMember) : (s.joinReset m).resets = s.resets ++ [m] := by
  unfold State.joinReset
  extract_lets widest t
  have ht : t.resets = s.resets := by
    simp only [t]
    split_ifs <;> rfl
  exact congrArg (· ++ [m]) ht

/-- PART_RESET and the other partition-scoped resets hold the partition they name, with a member of their cause (R136). -/
theorem State.partReset_holds (s : State) (p cause : Nat) (hp : p ≤ 1) (first : Option Nat) :
    ((s.partReset p cause first).part p).resetting = true ∧
      (s.partReset p cause first).resets = s.resets ++ [{ cause := cause, reach := 1, part := p }] := by
  have h := State.held_enterPart ((s.joinReset { cause := cause, reach := 1, part := p }).abortPart p first) p
  have hres : ((s.joinReset { cause := cause, reach := 1, part := p }).abortPart p first).resets =
      s.resets ++ [{ cause := cause, reach := 1, part := p }] :=
    (congrArg Prod.fst (State.held_abortPart _ p first)).trans (State.joinReset_resets s _)
  simp only [State.held, Prod.mk.injEq] at h
  obtain ⟨hr, h0, h1⟩ := h
  refine ⟨?_, hr.trans hres⟩
  rcases Nat.le_one_iff_eq_zero_or_eq_one.mp hp with rfl | rfl
  · exact h0
  · exact h1

/-- The resets of an APPLY whose checks pass come last, one partition after the other. -/
theorem State.startApply_eq (s : State) (r : Reply) (hok : s.applyOk = true) : ∃ (u : State) (b : Boot),
    s.startApply r = { (u.enterPart 0).enterPart 1 with regions := [], boot := b } :=
  ⟨_, _, if_pos hok⟩

/-- An APPLY whose checks pass holds both partitions in reset and gives up every region (R26). -/
theorem State.startApply_holds (s : State) (r : Reply) (hok : s.applyOk = true) : (s.startApply r).regions = [] ∧
    ((s.startApply r).part 0).resetting = true ∧ ((s.startApply r).part 1).resetting = true := by
  obtain ⟨u, b, heq⟩ := s.startApply_eq r hok
  rw [heq]
  have h0 := State.held_enterPart u 0
  have h1 := State.held_enterPart (u.enterPart 0) 1
  generalize (u.enterPart 0).enterPart 1 = x at *
  generalize u.enterPart 0 = v at *
  simp only [State.held, Prod.mk.injEq, decide_true, Bool.true_or, ne_eq, one_ne_zero, not_false_eq_true] at h0 h1
  obtain ⟨-, hv0, -⟩ := h0
  obtain ⟨-, hx0, hx1⟩ := h1
  exact ⟨rfl, hx0.trans (by rw [hv0, Bool.or_true]), hx1⟩

/-! ### Objects and the division (O51) -/

/-- OD_READ of an object from its first byte on, with the room it names. -/
theorem execOdRead_fits {s : State} {id : Nat} {c : Cmd} (hc : s.control id 0x50 = some c) (hok : s.odReadCheck c = .ok)
    (hread : s.mayRead (hostPrincipal c.port) (c.f 79 64) (c.f 87 80) = .ok)
    (hval : (s.objectBytes (hostPrincipal c.port) (c.f 79 64 * 256 + c.f 87 80)).1.1 = .ok) (hoff : c.f 127 96 = 0) :
    exec (.odRead id) s = .next (
      let r := s.objectBytes (hostPrincipal c.port) (c.f 79 64 * 256 + c.f 87 80)
      let want := if c.f 159 128 = 0 then r.1.2.length else min (c.f 159 128) r.1.2.length
      let n := min want (c.f 287 256)
      (if n = 0 then r.2 else r.2.dmaWrite id c.port (c.f 255 192) (r.1.2.take n)).finish id
        (if n < want then .partialOk else .ok) n) := by
  change execOdRead id s = _
  simp only [execOdRead, hc, hok, hread, hval, hoff, ne_eq, not_true_eq_false, if_false, Nat.lt_irrefl, decide_false,
    Bool.false_and, Bool.false_eq_true, Nat.sub_zero, List.drop_zero]

/-- A claim of the telemetry timer (R399, R401). -/
theorem execTelemetryPeriod_go {s t : State} {acc : Access} {w : Writer} {v : Bytes}
    (h : s.arrive acc (isKey Ob.TELEMETRY_PERIOD) = .go w v t) :
    exec (.telemetryPeriod acc) s = .next (
      let n := leNat v
      if n ≠ 0 ∧ (n < 16 ∨ 4000000 < n) then t.respond w.reply .badDescriptor
      else if n ≠ 0 ∧ t.get Ob.TIMER_HOLDER = 2 then (t.bump Ob.CLAIMS_REFUSED).respond w.reply .resourceHeld
      else
        let u := t.put Ob.TELEMETRY_PERIOD n
        (if n ≠ 0 then (if t.get Ob.TIMER_HOLDER = 1 then u else (u.put Ob.TIMER_HOLDER 1).setTimer n)
          else if t.get Ob.TIMER_HOLDER = 1 then (u.put Ob.TIMER_HOLDER 0).setTimer 0 else u).respond w.reply .ok) := by
  have hrange : (decide (leNat v ≠ 0) && !(decide (16 ≤ leNat v) && decide (leNat v ≤ 4000000))) = true ↔
      leNat v ≠ 0 ∧ (leNat v < 16 ∨ 4000000 < leNat v) := by
    simp only [Bool.and_eq_true, decide_eq_true_eq, Bool.not_eq_true', Bool.and_eq_false_iff, decide_eq_false_iff_not, not_le]
  have hheld : (decide (leNat v ≠ 0) && decide (t.get Ob.TIMER_HOLDER = 2)) = true ↔
      leNat v ≠ 0 ∧ t.get Ob.TIMER_HOLDER = 2 := by
    simp only [Bool.and_eq_true, decide_eq_true_eq]
  refine congrArg Host.Outcome.next (?_ : s.write acc (isKey Ob.TELEMETRY_PERIOD) (numOp opTelemetry) = _)
  dsimp only
  split_ifs with h1 h2
  · exact State.write_answers h (by rw [numOp, opTelemetry, if_pos (hrange.mpr h1)])
  · exact State.write_answers h (by rw [numOp, opTelemetry, if_neg (mt hrange.mp h1), if_pos (hheld.mpr h2)])
  all_goals
    refine State.write_answers h ?_
    rw [numOp, opTelemetry, if_neg (mt hrange.mp h1), if_neg (mt hheld.mp h2)]
    simp only [*, if_true, if_false, ne_eq, not_false_eq_true]

/-- A claim of the debug pins (R399, R402). -/
theorem execDebugUartEnable_go {s t : State} {acc : Access} {w : Writer} {v : Bytes}
    (h : s.arrive acc (isKey Ob.DEBUG_UART_ENABLE) = .go w v t) :
    exec (.debugUartEnable acc) s = .next (
      let n := leNat v
      if 1 < n then t.respond w.reply .badDescriptor
      else if n = 1 ∧ t.get Ob.PIN_HOLDER = 2 then (t.bump Ob.CLAIMS_REFUSED).respond w.reply .resourceHeld
      else
        let u := t.put Ob.DEBUG_UART_ENABLE n
        (if n = 1 then u.put Ob.PIN_HOLDER 1 else if u.get Ob.PIN_HOLDER = 1 then u.put Ob.PIN_HOLDER 0 else u).respond
          w.reply .ok) := by
  have hheld : (decide (leNat v = 1) && decide (t.get Ob.PIN_HOLDER = 2)) = true ↔
      leNat v = 1 ∧ t.get Ob.PIN_HOLDER = 2 := by
    simp only [Bool.and_eq_true, decide_eq_true_eq]
  refine congrArg Host.Outcome.next (?_ : s.write acc (isKey Ob.DEBUG_UART_ENABLE) (numOp opDebugUart) = _)
  dsimp only
  split_ifs with h1 h2
  · exact State.write_answers h (by rw [numOp, opDebugUart, if_pos h1])
  · exact State.write_answers h (by rw [numOp, opDebugUart, if_neg h1, if_pos (hheld.mpr h2)])
  all_goals
    refine State.write_answers h ?_
    rw [numOp, opDebugUart, if_neg h1, if_neg (mt hheld.mp h2)]
    simp only [*, if_true, if_false]

/-- A write of a pool size (R106). -/
theorem execItemPool_go {s t : State} {acc : Access} {w : Writer} {v : Bytes} (h : s.arrive acc (fun k v =>
      isKey Ob.ITEM_POOL_P0 k v || isKey Ob.ITEM_POOL_P1 k v || isKey Ob.YARD_ITEM_MIB k v) = .go w v t) :
    exec (.itemPool acc) s = .next (
      let k := w.idx * 256 + w.sub
      let limit := if k = Ob.ITEM_POOL_P0 then t.get Ob.LBUF_P0 else if k = Ob.ITEM_POOL_P1 then 2048 - t.get Ob.LBUF_P0
        else 1024
      if limit < leNat v then t.respond w.reply .badDescriptor else (t.put k (leNat v)).respond w.reply .ok) := by
  refine congrArg Host.Outcome.next (?_ : s.write acc _ (numOp opItemPool) = _)
  extract_lets k limit
  by_cases hlimit : limit < leNat v
  · rw [if_pos hlimit]
    exact State.write_answers h (if_pos hlimit)
  · rw [if_neg hlimit]
    exact State.write_answers h (if_neg hlimit)

/-- A write of a key slot: the answer leaves before the key is stored (R378). -/
theorem execKeySlotWrite_go {s t : State} {acc : Access} {w : Writer} {v : Bytes}
    (h : s.arrive acc (fun k _ => (keySlot? k.1 k.2).isSome) = .go w v t) :
    exec (.keySlotWrite acc) s = .next (
      let slot := (keySlot? w.idx w.sub).getD 0
      if t.keyWriteCheck w slot ≠ .ok then t.respond w.reply (t.keyWriteCheck w slot)
      else if t.boot.writing.isSome then t.respond w.reply .resourceHeld
      else (t.respond w.reply .ok).storeKey slot (w.unwrap v)) := by
  refine congrArg Host.Outcome.next (?_ : s.write acc _ opKeySlot = _)
  dsimp only
  split_ifs with hcheck hwriting
  · exact State.write_answers h (by
      simp only [opKeySlot, firstFail, hcheck, decide_true, ne_eq, not_false_eq_true, if_true])
  · exact State.write_answers h (by
      simp [opKeySlot, firstFail, hwriting, not_not.mp hcheck])
  · exact State.write_defers h (by
      simp [opKeySlot, firstFail, hwriting, not_not.mp hcheck])

/-- An APPLY runs, waits for the one that executes, or starts. -/
theorem execApply_go {s t : State} {acc : Access} {w : Writer} {v : Bytes} (h : s.arrive acc (isKey Ob.APPLY) = .go w v t)
    (hv : leNat v = 1) :
    exec (.apply acc) s = .next (if t.applying then t.await .apply 1 w.reply else t.startApply w.reply) := by
  refine congrArg Host.Outcome.next (?_ : s.write acc (isKey Ob.APPLY) (numOp _) = _)
  split_ifs with happlying
  all_goals
    refine State.write_defers h ?_
    simp only [numOp, hv, happlying, ne_eq, not_true_eq_false, if_true, if_false, Bool.false_eq_true]

/-- What a PART_RESET that its principal may write does: it waits while a reset covers the partition, else it resets it. -/
theorem execPartReset_go {s t : State} {acc : Access} {w : Writer} {v : Bytes}
    (h : s.arrive acc (isKey Ob.PART_RESET) = .go w v t) (hv : leNat v ≤ 1)
    (hmay : (w.who == .m || (!t.div.shared && w.part = leNat v)) = true) :
    exec (.partReset acc) s = .next (if (t.resets.any fun m => 2 ≤ m.reach || m.part == leNat v) = true then
        t.await .partReset (leNat v) w.reply
      else match w.reply with
        | .ring id => t.partReset (leNat v) 0x34 (some id)
        | r => (t.await .partReset (leNat v) r).partReset (leNat v) 0x34 none) := by
  refine congrArg Host.Outcome.next (?_ : s.write acc (isKey Ob.PART_RESET) (numOp _) = _)
  refine State.write_defers h ?_
  simp only [numOp, Nat.not_lt.mpr hv, hmay, Bool.not_true, Bool.false_eq_true, if_false]
  by_cases hcovered : (t.resets.any fun m => 2 ≤ m.reach || m.part == leNat v) = true
  · rw [if_pos hcovered, if_pos hcovered]
  · rw [if_neg hcovered, if_neg hcovered] <;> cases w.reply <;> rfl

/-- Settles O51: each access of an object is taken apart by what its write answers, and the resets by what they hold. -/
theorem objectsAnswerTheirWriters : Obligations.ObjectsAnswerTheirWriters := by
  refine ⟨fun _ _ _ => execOdRead_fits, ?odWrite, fun _ _ _ _ _ => execTelemetryPeriod_go,
    fun _ _ _ _ _ => execDebugUartEnable_go, fun _ _ _ _ _ => execItemPool_go, fun _ _ _ _ _ => execKeySlotWrite_go,
    ?applyRefused, ?applyStarts, ?applyWaits, ?partWaits, ?partResets, ?partRange⟩
  case odWrite =>
    intro s t id data w v h
    refine congrArg Host.Outcome.next (?_ : s.write (.ring id data) unowned opPlain = _)
    rcases hop : opPlain w v t with ⟨_ | st, u⟩
    · exact State.write_defers h hop
    · exact State.write_answers h hop
  case applyRefused =>
    intro s t acc w v h hv hidle hok
    rw [execApply_go h hv, hidle, if_neg Bool.false_ne_true, State.startApply, hok, if_neg Bool.false_ne_true]
  case applyStarts =>
    intro s t acc w v h hv hidle hok
    refine ⟨_, (execApply_go h hv).trans (by rw [hidle, if_neg Bool.false_ne_true]), t.startApply_holds w.reply hok⟩
  case applyWaits =>
    intro s t acc w v h hv hbusy
    rw [execApply_go h hv, hbusy, if_pos rfl]
  case partWaits =>
    intro s t acc w v h hv hmay hcovered
    rw [execPartReset_go h hv hmay, if_pos hcovered]
  case partResets =>
    intro s t acc w v h hv hmay hfree
    rw [execPartReset_go h hv hmay, hfree, if_neg Bool.false_ne_true]
    have hholds (r : State) (first : Option Nat) : ((r.partReset (leNat v) 0x34 first).part (leNat v)).resetting = true ∧
        ∃ m ∈ (r.partReset (leNat v) 0x34 first).resets, m.cause = 0x34 ∧ m.part = leNat v := by
      obtain ⟨hpart, hmember⟩ := r.partReset_holds (leNat v) 0x34 hv first
      exact ⟨hpart, _, by rw [hmember]; exact List.mem_append_right _ (List.mem_singleton_self _), rfl, rfl⟩
    split
    · exact ⟨_, rfl, hholds _ _⟩
    · exact ⟨_, rfl, hholds _ _⟩
  case partRange =>
    intro s t acc w v h hv
    refine congrArg Host.Outcome.next (?_ : s.write acc (isKey Ob.PART_RESET) (numOp _) = _)
    exact State.write_answers h (if_pos hv)

end Sys2Proof.Machine
end

section
/-!
Security requests: the security version, the life cycle, debug access, firmware updates and attestation (R413–R432).
-/
namespace Sys2Proof.Machine

/-! ### What answers, the boot log and a SYS reset leave of fuses, flash and the boot -/

theorem State.Told.nv_eq {r t : State} (h : r.Told t) : t.nv = r.nv := by rw [h.1]

theorem State.Told.boot_eq {r t : State} (h : r.Told t) : t.boot = r.boot := by rw [h.1]

/-- An entry of the boot log is written, or waits for a firmware write. -/
theorem State.bootLog_frame (s : State) (kind status : Nat) (detail : Bytes) : ∃ log next waiting, s.bootLog kind status detail =
    { s with nv := { s.nv with log := log, logNext := next }, boot := { s.boot with logWaiting := waiting } } := by
  unfold State.bootLog
  dsimp only
  split
  · exact ⟨_, _, _, rfl⟩
  · exact ⟨_, _, _, rfl⟩

/-- The entries that waited touch the log alone. -/
theorem State.flushLog_eq_of_frame {β : Type} (f : State → β)
    (h : ∀ (s : State) l n w, f { s with nv := { s.nv with log := l, logNext := n }, boot := { s.boot with logWaiting := w } } = f s)
    (s : State) : f s.flushLog = f s := by
  unfold State.flushLog
  refine (foldl_eq_of_step_eq f (fun t e => ?_) _ _).trans (h s s.nv.log s.nv.logNext [])
  obtain ⟨l, n, w, hlog⟩ := t.bootLog_frame e.kind e.status e.detail
  dsimp only
  rw [hlog]
  exact h t _ n w

theorem State.joinReset_frame (s : State) (m : ResetMember) : ∃ od causes, s.joinReset m =
    { s with od := od, boot := { s.boot with causes := causes }, resets := s.resets ++ [m] } := by
  unfold State.joinReset
  dsimp only
  split
  · exact ⟨_, _, rfl⟩
  · exact ⟨_, _, rfl⟩

/-- No reset of the main die touches fuses or flash. -/
theorem State.sysReset_nv (s : State) (cause reach : Nat) : (s.sysReset cause reach).nv = s.nv := by
  obtain ⟨od, causes, hjoin⟩ := s.joinReset_frame { cause := cause, reach := reach, part := 0 }
  rw [State.sysReset, hjoin]
  exact State.settleRepairs_eq_of_frame State.nv (fun _ _ => rfl) (fun _ _ => by simp) (fun _ _ => rfl) (fun _ _ => rfl)
    (fun _ _ => rfl) _ _

/-- A SYS reset keeps what the life-cycle transition has left for the boot (R425). -/
theorem State.sysReset_oldLc (s : State) (cause : Nat) : (s.sysReset cause 3).boot.oldLc = s.boot.oldLc := by
  obtain ⟨od, causes, hjoin⟩ := s.joinReset_frame { cause := cause, reach := 3, part := 0 }
  rw [State.sysReset, hjoin]
  exact State.settleRepairs_eq_of_frame (fun t => t.boot.oldLc) (fun _ _ => rfl) (fun _ _ => by simp) (fun _ _ => rfl)
    (fun _ _ => rfl) (fun _ _ => rfl) _ _

/-- A SYS reset and a POR hold the boot ROM (R468). -/
theorem State.sysReset_released (s : State) (cause reach : Nat) : (s.sysReset cause reach).boot.released = false := by
  simp only [State.sysReset, State.rebuild]
  split <;> rfl

theorem State.txDone_nv (s : State) : s.txDone.nv = s.nv := by rw [State.txDone, State.flushTx_eq]

theorem State.txDone_boot (s : State) : s.txDone.boot = s.boot := by rw [State.txDone, State.flushTx_eq]

/-! ### Checks in order -/

/-- What is refused by the first of two checks that fails, and goes on where neither does. -/
theorem refuse_two {α : Type} (refuse : Status → α) (rest : α) (a b : Bool) {x y : Status} (hx : x ≠ .ok) (hy : y ≠ .ok) :
    (if firstFail [(a, x), (b, y)] ≠ .ok then refuse (firstFail [(a, x), (b, y)]) else rest) =
      if a = true then refuse x else if b = true then refuse y else rest := by
  cases a
  · cases b <;> simp [firstFail, hy]
  · simp [firstFail, hx]

/-- A list of checks passes when its first one does and the rest do. -/
theorem firstFail_cons_eq_ok {b : Bool} {st : Status} {l : List (Bool × Status)} (hst : st ≠ .ok) :
    firstFail ((b, st) :: l) = .ok ↔ b = false ∧ firstFail l = .ok := by
  cases b <;> simp [firstFail, hst]

/-- An image that passes is well formed and no older than the fuses allow (R414–R416). -/
theorem Nv.checkImage_eq_ok {n : Nv} {img : Bytes} (h : n.checkImage img = .ok) :
    n.svnMin ≤ leAt img 24 1 ∧ imageForm img = true := by
  rw [Nv.checkImage, firstFail_cons_eq_ok (by decide), firstFail_cons_eq_ok (by decide), firstFail_cons_eq_ok (by decide),
    firstFail_cons_eq_ok (by decide)] at h
  obtain ⟨hform, -, -, hsvn, -⟩ := h
  exact ⟨not_lt.mp (of_decide_eq_false hsvn), by simpa using hform⟩

/-- A transition rises by one step, or scraps the part. -/
theorem transitionLen_some {lc target n : Nat} (h : transitionLen lc target = some n) :
    lc < target ∧ target ≤ 4 ∧ (target ≠ 4 → target = lc + 1) := by
  simp only [transitionLen, Bool.and_eq_true, decide_eq_true_eq] at h
  split_ifs at h <;> omega

/-! ### The requests (O52) -/

/-- SVN_COMMIT raises the minimum up to the value, and never above the running image (R416). -/
theorem execSvnCommit_go {s t : State} {acc : Access} {w : Writer} {v : Bytes}
    (h : s.arrive acc (isKey Ob.SVN_COMMIT) = .go w v t) : exec (.svnCommit acc) s = .next (
      if 63 < leNat v ∨ t.boot.svn < leNat v then t.respond w.reply .badDescriptor
      else ({ t with nv := { t.nv with svnMin := max t.nv.svnMin (leNat v) } }).respond w.reply .ok) := by
  refine congrArg Host.Outcome.next (?_ : s.write acc (isKey Ob.SVN_COMMIT) (numOp _) = _)
  have hguard : (decide (63 < leNat v) || decide (t.boot.svn < leNat v)) = true ↔ 63 < leNat v ∨ t.boot.svn < leNat v := by
    simp only [Bool.or_eq_true, decide_eq_true_eq]
  split_ifs with hlimit
  · exact State.write_answers h (if_pos (hguard.mpr hlimit))
  · exact State.write_answers h (if_neg (mt hguard.mp hlimit))

/-- A life-cycle request that passes sets the state, keeps the old one for the boot, and resets the part (R424, R425). -/
theorem execLcRequest_passes {s t : State} {acc : Access} {w : Writer} {v : Bytes}
    (h : s.arrive acc (isKey Ob.LC_REQUEST) = .go w v t) (hok : t.transitionCheck w v = .ok) :
    ∃ u, exec (.lcRequest acc) s = .next u ∧ u.nv.lc = leAt v 0 1 ∧ u.boot.released = false ∧ u.boot.oldLc = some t.nv.lc ∧
      u.nv.svnMin = t.nv.svnMin := by
  have hop : ∃ r : State, opTransition w v t = (none, (r.respond w.reply .ok).txDone.sysReset 0x16 3) ∧
      r.nv.lc = leAt v 0 1 ∧ r.boot.oldLc = some t.nv.lc ∧ r.nv.svnMin = t.nv.svnMin :=
    ⟨_, if_neg (not_not.mpr hok), rfl, rfl, rfl⟩
  obtain ⟨r, hop, hlc, hold, hsvn⟩ := hop
  have hnv : ((r.respond w.reply .ok).txDone.sysReset 0x16 3).nv = r.nv := by
    rw [State.sysReset_nv, State.txDone_nv, (State.respond_told r w.reply .ok []).nv_eq]
  refine ⟨_, congrArg Host.Outcome.next (State.write_defers h hop), by rw [hnv, hlc], State.sysReset_released _ _ _, ?_,
    by rw [hnv, hsvn]⟩
  rw [State.sysReset_oldLc, State.txDone_boot, (State.respond_told r w.reply .ok []).boot_eq, hold]

/-- DEBUG_UNLOCK: its checks in order (R427). -/
theorem execDebugUnlock_go {s t : State} {acc : Access} {w : Writer} {v : Bytes}
    (h : s.arrive acc (isKey Ob.DEBUG_UNLOCK) = .go w v t) : exec (.debugUnlock acc) s = .next (
      if leNat v ≠ 1 then t.respond w.reply .badDescriptor
      else if t.nv.lc ≠ 2 then t.respond w.reply .locked
      else if w.slot ≠ some 0 then t.respond w.reply .authFail
      else t.grantDebug w.reply) := by
  refine congrArg Host.Outcome.next (?_ : s.write acc (isKey Ob.DEBUG_UNLOCK) (numOp _) = _)
  simp only [State.write_go h, numOp, refuse_three (fun st => ((some st, t) : Ans)), decide_eq_true_eq, ne_eq, reduceCtorEq,
    not_false_eq_true]
  split_ifs <;> rfl

/-- DEBUG_TOKEN: its checks in order (R427). -/
theorem execDebugToken_go {s t : State} {acc : Access} {w : Writer} {v : Bytes}
    (h : s.arrive acc (isKey Ob.DEBUG_TOKEN) = .go w v t) : exec (.debugToken acc) s = .next (
      if t.nv.lc ≠ 3 then t.respond w.reply .locked
      else if t.tokenOk "RMY-DBG" 0 v = false then t.respond w.reply .signatureBad
      else t.grantDebug w.reply) := by
  refine congrArg Host.Outcome.next (?_ : s.write acc (isKey Ob.DEBUG_TOKEN) opDebugToken = _)
  simp only [State.write_go h, opDebugToken, refuse_two (fun st => ((some st, t) : Ans)), decide_eq_true_eq, ne_eq,
    reduceCtorEq, not_false_eq_true, Bool.not_eq_true']
  split_ifs <;> rfl

/-- ATTEST: its checks in order, then the report (R430). -/
theorem execAttest_go {s : State} {id : Nat} {c : Cmd} (hc : s.control id 0x60 = some c) : exec (.attest id) s = .next (
    if c.f 511 416 ≠ 0 ∨ c.f 415 384 < 18128 then s.finish id .badDescriptor 0
    else if s.nv.lc = 0 ∨ s.nv.lc = 4 then s.finish id .locked 0
    else
      let r := s.report c.part (leBytes 32 (c.f 319 64))
      (r.2.dmaWrite id c.port (c.f 383 320) r.1).finish id .ok r.1.length) := by
  change execAttest id s = _
  simp only [execAttest, hc, refuse_two (s.finish id · 0), Bool.or_eq_true, decide_eq_true_eq, ne_eq, reduceCtorEq,
    not_false_eq_true]

/-- The firmware write that fails leaves no image, and the entries that waited are logged (R419, R420). -/
theorem execFirmwareWritten_fails {s : State} {img : Bytes} (h : s.boot.writing = some img) :
    exec (.firmwareWritten false) s = .next (
      (((({ s with boot := { s.boot with writing := none } } : State).put Ob.FW_UPDATE_STATE 3).flushLog).answer
        .firmware 0 .noResource)) := by
  change execFirmwareWritten false s = _
  simp only [execFirmwareWritten, h, Bool.false_eq_true, if_false]

/-- What the boot and the flash hold of a firmware write. -/
def State.firmware (s : State) : (Bytes × Bool) × (Option Bytes × BootMode) :=
  ((s.nv.image, s.nv.committed), (s.boot.writing, s.boot.mode))

theorem State.firmware_congr {s t : State} (hnv : t.nv = s.nv) (hboot : t.boot = s.boot) : t.firmware = s.firmware := by
  rw [State.firmware, State.firmware, hnv, hboot]

/-- The part as the flash write of an image ends well. -/
def State.withImage (s : State) (img : Bytes) : State :=
  { s with boot := { s.boot with writing := none }, nv := { s.nv with image := img, committed := true } }.put
    Ob.FW_UPDATE_STATE 2

theorem State.firmware_withImage (s : State) (img : Bytes) :
    (s.withImage img).firmware = ((img, true), (none, s.boot.mode)) := rfl

/-- The firmware write that ends well leaves the image committed; outside recovery the part goes on (R419). -/
theorem execFirmwareWritten_commits {s : State} {img : Bytes} (h : s.boot.writing = some img) (hrun : s.boot.mode = .running) :
    ∃ u, exec (.firmwareWritten true) s = .next u ∧ u.nv.image = img ∧ u.nv.committed = true ∧ u.boot.writing = none := by
  set r := s.withImage img with hr
  set u := ((r.bootLog 0x04 0 (sliceB img 16 4 ++ sliceB img 24 1)).flushLog).answer .firmware 0 .ok with hu
  have hexec : execFirmwareWritten true s =
      .next (if u.boot.mode = .recovery then u.txDone.sysReset 0x15 3 else u) := by
    rw [execFirmwareWritten, h]
    rfl
  have hkept : u.firmware = r.firmware := by
    have hanswer := State.answer_told ((r.bootLog 0x04 0 (sliceB img 16 4 ++ sliceB img 24 1)).flushLog) .firmware 0 .ok
    obtain ⟨l, n, x, hlog⟩ := r.bootLog_frame 0x04 0 (sliceB img 16 4 ++ sliceB img 24 1)
    rw [hu, State.firmware_congr hanswer.nv_eq hanswer.boot_eq, State.flushLog_eq_of_frame State.firmware (fun _ _ _ _ => rfl), hlog]
    rfl
  rw [hr, s.firmware_withImage img, hrun] at hkept
  simp only [State.firmware, Prod.mk.injEq] at hkept
  obtain ⟨⟨himage, hcommitted⟩, hwriting, hmode⟩ := hkept
  refine ⟨u, hexec.trans (congrArg Host.Outcome.next (if_neg ?_)), himage, hcommitted, hwriting⟩
  rw [hmode]
  decide

/-- Settles O52: each request by its checks in order; the transition, through what a SYS reset keeps. -/
theorem securityRequestsAreChecked : Obligations.SecurityRequestsAreChecked := by
  refine ⟨fun _ _ _ _ _ => execSvnCommit_go, ?refused, fun _ _ _ _ _ => execLcRequest_passes, fun _ _ _ => transitionLen_some,
    fun _ _ _ _ _ => execDebugUnlock_go, fun _ _ _ _ _ => execDebugToken_go, fun _ _ => Nv.checkImage_eq_ok, ?image,
    fun _ _ => execFirmwareWritten_fails, fun _ _ => execFirmwareWritten_commits, fun _ _ _ => execAttest_go, ?nonce⟩
  case refused =>
    intro s t acc w v h hbad
    exact congrArg Host.Outcome.next (State.write_answers h (if_pos hbad))
  case image =>
    intro w v s hidle hbad
    simp only [opFirmware, hidle, Option.isSome_none, Bool.false_eq_true, if_false]
    exact if_pos hbad
  case nonce =>
    intro s t acc w v h
    exact congrArg Host.Outcome.next (State.write_answers h rfl)

end Sys2Proof.Machine
end

section
/-!
The boot (R417): what of the boot ROM's results every later step of the boot keeps.
-/
namespace Sys2Proof.Machine

/-! ### The results of the boot ROM -/

/-- BOOT_COUNT, and the mode and the measurements that the boot ROM leaves (Table 17.3). -/
def State.bootResult (s : State) : Nat × BootMode × Nat × Nat × Bytes :=
  (s.nv.bootCount, s.boot.mode, s.boot.svn, s.boot.fwVersion, s.boot.fwHash)

theorem State.bootResult_congr {s t : State} (hnv : t.nv = s.nv) (hboot : t.boot = s.boot) : t.bootResult = s.bootResult := by
  rw [State.bootResult, State.bootResult, hnv, hboot]

theorem State.bootResult_told {s t : State} (h : s.Told t) : t.bootResult = s.bootResult :=
  State.bootResult_congr h.nv_eq h.boot_eq

theorem State.bootResult_bootLog (s : State) (kind status : Nat) (detail : Bytes) :
    (s.bootLog kind status detail).bootResult = s.bootResult := by
  obtain ⟨l, n, w, hlog⟩ := s.bootLog_frame kind status detail
  rw [hlog]
  rfl

/-! ### The configuration store (R403–R408) -/

theorem State.bootResult_commitRec (s : State) (r : StoreRec) : (s.commitRec r).2.bootResult = s.bootResult := by
  have hprogram (n : Nv) : (n.program r).2.bootCount = n.bootCount := rfl
  unfold State.commitRec
  extract_lets a b t
  have hb : b.2.bootCount = s.nv.bootCount := by
    simp only [b]
    split
    · exact hprogram _
    · exact (hprogram _).trans (hprogram _)
  have ht : t.bootResult = s.bootResult := by rw [State.bootResult, State.bootResult, ← hb]
  dsimp only
  split
  · exact ht
  · exact ht

theorem State.bootResult_commitAll (l : List StoreRec) (s : State) : (s.commitAll l).2.bootResult = s.bootResult := by
  induction l generalizing s with
  | nil => rfl
  | cons r l ih =>
    rw [State.commitAll]
    split
    · exact (ih _).trans (s.bootResult_commitRec r)
    · exact s.bootResult_commitRec r

theorem State.bootResult_compact (n : Nat) (s : State) : (State.compact n s).2.bootResult = s.bootResult := by
  induction n generalizing s with
  | zero => rfl
  | succ n ih =>
    rw [State.compact]
    split
    · split
      · rfl
      · dsimp only
        split
        · exact State.bootResult_commitAll _ s
        · exact (ih _).trans (State.bootResult_commitAll _ s)
    · rfl

theorem State.bootResult_writeRec (s : State) (kind area : Nat) (entries : List (Nat × Bytes)) :
    (s.writeRec kind area entries).2.bootResult = s.bootResult := by
  unfold State.writeRec
  dsimp only
  split
  · exact State.bootResult_compact _ s
  · exact (State.bootResult_commitRec _ _).trans (State.bootResult_compact storeSectors s)

theorem State.bootResult_storeKey (s : State) (slot : Nat) (key : Bytes) : (s.storeKey slot key).bootResult = s.bootResult :=
  (State.bootResult_writeRec _ _ _ _).trans (foldl_eq_of_step_eq State.bootResult (g := fun t i => t.endSession i) (fun _ _ => rfl) _ _)

/-! ### The writes that a stored value makes (R407) -/

theorem opKeySlot_bootResult (w : Writer) (v : Bytes) (s : State) : (opKeySlot w v s).2.bootResult = s.bootResult := by
  unfold opKeySlot
  dsimp only
  split
  · rfl
  · exact (State.bootResult_storeKey _ _ _).trans (State.bootResult_told (State.respond_told s w.reply .ok []))

theorem opTelemetry_bootResult (w : Writer) (v : Nat) (s : State) : (opTelemetry w v s).2.bootResult = s.bootResult := by
  simp only [opTelemetry]
  split_ifs <;> rfl

theorem opDebugUart_bootResult (w : Writer) (v : Nat) (s : State) : (opDebugUart w v s).2.bootResult = s.bootResult := by
  simp only [opDebugUart]
  split_ifs <;> rfl

theorem opNackPeriod_bootResult (w : Writer) (v : Nat) (s : State) : (opNackPeriod w v s).2.bootResult = s.bootResult := by
  simp only [opNackPeriod]
  split_ifs <;> rfl

theorem opItemPool_bootResult (w : Writer) (v : Nat) (s : State) : (opItemPool w v s).2.bootResult = s.bootResult := by
  unfold opItemPool
  extract_lets k limit
  by_cases hlimit : limit < v
  · rw [if_pos hlimit]
  · rw [if_neg hlimit]
    rfl

theorem opLatShare_bootResult (w : Writer) (v : Nat) (s : State) : (opLatShare w v s).2.bootResult = s.bootResult := by
  unfold opLatShare
  split <;> rfl

theorem opScrubPeriod_bootResult (w : Writer) (v : Nat) (s : State) : (opScrubPeriod w v s).2.bootResult = s.bootResult := by
  unfold opScrubPeriod
  split <;> rfl

theorem opPortRestore_bootResult (w : Writer) (v : Nat) (s : State) : (opPortRestore w v s).2.bootResult = s.bootResult := by
  unfold opPortRestore
  split <;> rfl

theorem opDivider_bootResult (w : Writer) (v : Nat) (s : State) : (opDivider w v s).2.bootResult = s.bootResult := by
  unfold opDivider
  extract_lets k m q
  split <;> rfl

theorem State.bootResult_gateOn (s : State) (u : Nat) : (s.gateOn u).bootResult = s.bootResult := by
  unfold State.gateOn
  split_ifs <;> rfl

theorem State.bootResult_gateOff (s : State) (u : Nat) : (s.gateOff u).bootResult = s.bootResult := by
  unfold State.gateOff
  split <;> rfl

theorem State.bootResult_applyGates (s : State) : s.applyGates.bootResult = s.bootResult :=
  foldl_eq_of_step_eq State.bootResult (fun t _ => foldl_eq_of_step_eq State.bootResult (fun t u => by
    split
    · exact t.bootResult_gateOn u
    · exact t.bootResult_gateOff u) _ t) _ s

theorem opGate_bootResult (w : Writer) (v : Nat) (s : State) : (opGate w v s).2.bootResult = s.bootResult := by
  unfold opGate
  split
  · rfl
  · exact (State.bootResult_applyGates _).trans rfl

theorem State.bootResult_setAlert (s : State) : s.setAlert.bootResult = s.bootResult := by
  unfold State.setAlert
  dsimp only
  split <;> rfl

theorem State.bootResult_setPower (s : State) (x : Power) : (s.setPower x).bootResult = s.bootResult := by
  unfold State.setPower
  extract_lets old t new u
  have hu : u.bootResult = s.bootResult := by
    simp only [u]
    split_ifs
    · exact State.bootResult_congr (by simp [t]) (by simp [t])
    · exact State.bootResult_congr (by simp [t]) (by simp [t])
    · rfl
  exact u.bootResult_setAlert.trans hu

theorem opNumber_bootResult (w : Writer) (k v : Nat) (s : State) : (opNumber w k v s).2.bootResult = s.bootResult := by
  unfold opNumber opSelect
  split_ifs
  all_goals first | rfl | exact (State.bootResult_setPower _ _).trans rfl

theorem opFirmware_bootResult (w : Writer) (v : Bytes) (s : State) : (opFirmware w v s).2.bootResult = s.bootResult := by
  unfold opFirmware
  extract_lets st t
  by_cases hst : st ≠ .ok
  · rw [if_pos hst]
  · rw [if_neg hst]
    exact (State.bootResult_told (State.await_told _ _ _ _)).trans rfl

theorem opPlain_bootResult (w : Writer) (v : Bytes) (s : State) : (opPlain w v s).2.bootResult = s.bootResult := by
  unfold opPlain
  extract_lets k
  by_cases hfw : k = Ob.FW_IMAGE
  · rw [if_pos hfw]
    exact opFirmware_bootResult w v s
  · rw [if_neg hfw]
    split_ifs
    · rfl
    · rfl
    · exact opNumber_bootResult w k _ s

/-- The keys of the objects that a block can hold and no stored record: opens, dictionaries, requests and debug tokens. -/
def neverStored : List Nat :=
  [Ob.FLOW_OPEN, Ob.STREAM_OPEN, Ob.DICT_LOAD, Ob.LC_REQUEST, Ob.ATTEST_NONCE, Ob.DEBUG_TOKEN]

theorem stored_of_neverStored {k : Nat} (h : k ∈ neverStored) : ((odFind (k / 256) (k % 256)).any (·.store)) = false := by
  revert k
  decide

/-- The write of a stored value leaves the results of the boot ROM: none is of an object that resets the part. -/
theorem opObject_bootResult {k : Nat} (hstore : ((odFind (k / 256) (k % 256)).any (·.store)) = true) (v : Bytes) (s : State) :
    (opObject (restoreWriter k) v s).2.bootResult = s.bootResult := by
  have hkey : (restoreWriter k).idx * 256 + (restoreWriter k).sub = k := Nat.div_add_mod' k 256
  have hother {n : Nat} (hn : n ∈ neverStored) : ¬k = n := by
    rintro rfl
    rw [stored_of_neverStored hn] at hstore
    exact Bool.false_ne_true hstore
  unfold opObject
  extract_lets k'
  have hk' : k' = k := hkey
  rw [hk', if_neg (hother (n := Ob.FLOW_OPEN) (by decide)), if_neg (hother (n := Ob.STREAM_OPEN) (by decide)),
    if_neg (hother (n := Ob.DICT_LOAD) (by decide)), if_neg (hother (n := Ob.LC_REQUEST) (by decide)),
    if_neg (hother (n := Ob.ATTEST_NONCE) (by decide)), if_neg (hother (n := Ob.DEBUG_TOKEN) (by decide))]
  split_ifs
  · exact opKeySlot_bootResult _ _ _
  · exact opLatShare_bootResult _ _ _
  · exact opScrubPeriod_bootResult _ _ _
  · exact opTelemetry_bootResult _ _ _
  · exact opDebugUart_bootResult _ _ _
  · exact opNackPeriod_bootResult _ _ _
  · exact opItemPool_bootResult _ _ _
  · exact opDivider_bootResult _ _ _
  · exact opGate_bootResult _ _ _
  · exact opPortRestore_bootResult _ _ _
  · exact opPlain_bootResult _ _ _

/-! ### The restore (R406, R407) -/

theorem State.bootResult_refuseRestore (s : State) (k : Nat) (st : Status) : (s.refuseRestore k st).bootResult = s.bootResult :=
  State.bootResult_bootLog _ _ _ _

theorem State.bootResult_restoreOne (s : State) (k : Nat) (v : Bytes) : (s.restoreOne k v).bootResult = s.bootResult := by
  unfold State.restoreOne
  by_cases hstore : ((odFind (k / 256) (k % 256)).any (·.store)) = true
  · rw [hstore, Bool.not_true, if_neg Bool.false_ne_true]
    extract_lets st r
    have hr : r.2.bootResult = s.bootResult := by
      simp only [r]
      split
      · exact opObject_bootResult hstore v s
      · rfl
    split
    · exact hr
    · exact hr
    · exact (State.bootResult_refuseRestore _ _ _).trans hr
  · rw [Bool.not_eq_true] at hstore
    rw [hstore, Bool.not_false, if_pos rfl]
    rfl

theorem State.bootResult_restoreKeys (s : State) : s.restoreKeys.bootResult = s.bootResult :=
  foldl_eq_of_step_eq State.bootResult (fun t k => by split <;> rfl) _ s

theorem State.bootResult_claimPool (s : State) (p : Nat) : (s.claimPool p).bootResult = s.bootResult := by
  unfold State.claimPool State.claim
  dsimp only
  split <;> rfl

theorem State.bootResult_startPlca (s : State) : s.startPlca.bootResult = s.bootResult := rfl

theorem State.bootResult_setPortState (s : State) (n v : Nat) : (s.setPortState n v).bootResult = s.bootResult :=
  State.bootResult_congr (by simp) (by simp)

theorem State.bootResult_cage (s : State) (n : Nat) (r l : Bool) : (s.cage n r l).bootResult = s.bootResult :=
  State.bootResult_congr (by simp) (by simp)

theorem State.bootResult_enableFails (s : State) (n st : Nat) : (s.enableFails n st).bootResult = s.bootResult := by
  unfold State.enableFails State.releasePins
  rw [State.bootResult_setPortState]
  split_ifs <;> exact s.bootResult_cage n true true

theorem State.bootResult_put (s : State) (k v : Nat) : (s.put k v).bootResult = s.bootResult := rfl

theorem State.bootResult_setNet (s : State) (n : Nat) (x : NetPort) : (s.setNet n x).bootResult = s.bootResult :=
  State.bootResult_congr (by simp) (by simp)

theorem State.bootResult_foldl_emit {α : Type} (f : α → Output) (l : List α) (s : State) :
    (l.foldl (fun (t : State) a => t.emit (f a)) s).bootResult = s.bootResult :=
  foldl_eq_of_step_eq State.bootResult (g := fun t a => t.emit (f a)) (fun _ _ => rfl) l s

theorem State.bootResult_dput (s : State) (k : Nat) (b : Bytes) : (s.dput k b).bootResult = s.bootResult := rfl

theorem State.bootResult_bump (s : State) (k n : Nat) : (s.bump k n).bootResult = s.bootResult := rfl

theorem State.bootResult_enablePort (s : State) (n : Nat) (m : ModuleScript) : (s.enablePort n m).2.bootResult = s.bootResult := by
  simp only [State.enablePort]
  cases moduleApp m (s.netConfig n).breakout
  all_goals split_ifs
  all_goals
    simp only [State.bootResult_setPortState, State.bootResult_cage, State.bootResult_enableFails, State.bootResult_put,
      State.bootResult_setNet, State.bootResult_dput, State.bootResult_bump,
      State.bootResult_foldl_emit fun w : Nat × Nat => Output.moduleWrite n w.1 w.2]

theorem State.bootResult_restorePort (s : State) (n : Nat) : (s.restorePort n).2.bootResult = s.bootResult := by
  simp only [State.restorePort]
  split_ifs
  · exact State.bootResult_enablePort s n _
  · exact State.bootResult_enablePort s n _
  all_goals
    simp only [State.bootResult_setPortState, State.bootResult_cage, State.bootResult_put, State.bootResult_setNet]

theorem State.bootResult_startPort (s : State) (n : Nat) : (s.startPort n).bootResult = s.bootResult := by
  unfold State.startPort
  extract_lets k r
  split
  · rfl
  · split
    · exact State.bootResult_restorePort _ n
    · exact (State.bootResult_refuseRestore _ _ _).trans (State.bootResult_restorePort (s.put k 0) n)

theorem State.bootResult_restore (s : State) : s.restore.bootResult = s.bootResult := by
  unfold State.restore
  extract_lets t u v
  have hu : u.bootResult = s.bootResult :=
    (foldl_eq_of_step_eq State.bootResult (fun t (e : Nat × Bytes) => t.bootResult_restoreOne e.1 e.2) _ _).trans
      (State.bootResult_restoreKeys t)
  rw [State.bootResult_startPort, State.bootResult_startPort, State.bootResult_startPlca, State.bootResult_claimPool,
    State.bootResult_claimPool]
  exact hu

/-! ### The end of the boot -/

theorem State.bootResult_endTransition (s : State) : s.endTransition.bootResult = s.bootResult := by
  unfold State.endTransition
  extract_lets t u
  have ht : t.bootResult = s.bootResult := by
    simp only [t]
    split
    · exact State.bootResult_storeKey _ _ _
    · rfl
  have hu : u.bootResult = t.bootResult := by
    simp only [u]
    split
    · exact State.bootResult_bootLog _ _ _ _
    · rfl
  exact (show _ = u.bootResult from rfl).trans (hu.trans ht)

theorem State.bootResult_logCauses (s : State) (mine : Nat → Bool) : (s.logCauses mine).bootResult = s.bootResult :=
  (foldl_eq_of_step_eq State.bootResult (g := fun t v => t.bootLog 0x09 0 (leBytes 4 v))
    (fun t _ => t.bootResult_bootLog _ _ _) _ _).trans rfl

theorem State.settleRetry_told (s : State) : s.Told s.settleRetry :=
  State.foldl_told (fun t p => State.ite_told (State.setPort_told t p _) (State.Told.refl t)) _ s

theorem State.bootResult_settleRetry (s : State) : s.settleRetry.bootResult = s.bootResult :=
  State.bootResult_told s.settleRetry_told

theorem State.bootResult_freeParts (s : State) : s.freeParts.bootResult = s.bootResult :=
  (State.bootResult_settleRetry _).trans (foldl_eq_of_step_eq State.bootResult (fun t p => by
    split
    · rfl
    · exact State.bootResult_congr (by simp) (by simp)) _ s)

theorem State.bootResult_startFirmware (s : State) : s.startFirmware.bootResult = s.bootResult := by
  rw [State.startFirmware, State.bootResult_freeParts, State.bootResult_logCauses, State.bootResult_endTransition,
    State.bootResult_restore, State.configurePins, State.bootResult_cage, State.bootResult_cage]

/-! ### BOOT (O53) -/

/-- Step 3 counts the boot. -/
theorem State.bootResult_bootStart (s : State) :
    s.bootStart.bootResult = (satAdd 0xFFFFFFFF s.nv.bootCount 1, s.bootResult.2) := by
  unfold State.bootStart
  extract_lets nv nv'
  have hcount : nv.bootCount = s.nv.bootCount := by
    simp only [nv]
    split <;> rfl
  rw [State.bootResult_bootLog, State.bootResult, State.bootResult]
  simp only [nv', hcount]

theorem State.bootResult_strapDivision (s : State) (n : Nat) : (s.strapDivision n).bootResult = s.bootResult :=
  foldl_eq_of_step_eq State.bootResult (g := fun (t : State) (e : Nat × Nat) => t.put e.1 e.2) (fun _ _ => rfl) _ s

theorem State.bootResult_applyStrap (s : State) (x : Strap) : (s.applyStrap x).bootResult = s.bootResult := by
  unfold State.applyStrap
  dsimp only
  split <;> exact State.bootResult_strapDivision s x.split

/-- Recovery keeps what the boot ROM has counted (R421). -/
theorem State.enterRecovery_result (s : State) : s.enterRecovery.boot.mode = .recovery ∧
    s.enterRecovery.nv.bootCount = s.nv.bootCount := by
  have h : s.enterRecovery.bootResult = (s.nv.bootCount, .recovery, s.bootResult.2.2) := by
    unfold State.enterRecovery
    extract_lets t
    rw [State.bootResult_freeParts]
    exact (State.bootResult_bootLog _ _ _ _).trans rfl
  simp only [State.bootResult, Prod.mk.injEq] at h
  exact ⟨h.2.1, h.1⟩

theorem State.bootCount_of_bootResult {s t : State} (h : t.bootResult = s.bootResult) : t.nv.bootCount = s.nv.bootCount :=
  congrArg Prod.fst h

/-- The part as the boot ROM has counted the boot and applied the strap. -/
def State.strapped (s : State) : State := s.bootStart.applyStrap (strapOf (s.get Ob.CFG_CODE))

/-- The steps of Table 17.3 for a part that starts its boot. -/
theorem execBoot_start {s : State} (hreleased : s.boot.released = true) (hoff : s.boot.mode = .off) (hlc : s.nv.lc ≠ 4) :
    execBoot s = .next (
      if (strapOf (s.get Ob.CFG_CODE)).recovery then s.strapped.enterRecovery
      else if !s.strapped.nv.committed then
        (s.strapped.free.2.bootLog 0x02 (s.strapped.free.1 % 256) (leBytes 1 5)).enterRecovery
      else if s.strapped.nv.checkImage s.strapped.nv.image ≠ .ok then
        (s.strapped.bootLog 0x02 (s.strapped.nv.checkImage s.strapped.nv.image).code (leBytes 1 5)).enterRecovery
      else (s.strapped.loadFirmware s.strapped.nv.image).startFirmware) := by
  rw [execBoot, hreleased, hoff, if_neg (by decide)]
  dsimp only
  rw [if_neg hlc]
  rfl

/-- The image, its commit, and what its checks go by. -/
def State.imageBasis (s : State) : (Bool × Bytes) × (Nat × Nat × Bytes) :=
  ((s.nv.committed, s.nv.image), (s.nv.lc, s.nv.svnMin, s.nv.ownerHash))

theorem State.imageBasis_bootStart (s : State) : s.bootStart.imageBasis = s.imageBasis := by
  unfold State.bootStart
  extract_lets nv nv'
  obtain ⟨l, n, w, hlog⟩ := State.bootLog_frame { s with nv := nv' } 0x01 0 []
  rw [hlog]
  change ((nv.committed, nv.image), (nv.lc, nv.svnMin, nv.ownerHash)) = _
  simp only [nv]
  split <;> rfl

theorem State.imageBasis_applyStrap (s : State) (x : Strap) : (s.applyStrap x).imageBasis = s.imageBasis := by
  have hdiv : (s.strapDivision x.split).imageBasis = s.imageBasis :=
    foldl_eq_of_step_eq State.imageBasis (g := fun (t : State) (e : Nat × Nat) => t.put e.1 e.2) (fun _ _ => rfl) _ s
  unfold State.applyStrap
  dsimp only
  split <;> exact hdiv

/-- The steps before the image leave the image, its commit and what its checks go by. -/
theorem State.strapped_nv (s : State) : s.strapped.nv.committed = s.nv.committed ∧ s.strapped.nv.image = s.nv.image ∧
    s.strapped.nv.checkImage s.nv.image = s.nv.checkImage s.nv.image := by
  have h : s.strapped.imageBasis = s.imageBasis := (State.imageBasis_applyStrap _ _).trans s.imageBasis_bootStart
  simp only [State.imageBasis, Prod.mk.injEq] at h
  obtain ⟨⟨hcommitted, himage⟩, hlc, hsvn, howner⟩ := h
  exact ⟨hcommitted, himage, by simp only [Nv.checkImage, Nv.needsOwner, hlc, hsvn, howner]⟩

/-- Settles O53: the boot's steps in order, none of which after the boot ROM changes what it has left. -/
theorem bootRunsOrRecovers : Obligations.BootRunsOrRecovers := by
  have hcount (s : State) : s.strapped.nv.bootCount = satAdd 0xFFFFFFFF s.nv.bootCount 1 :=
    (State.bootCount_of_bootResult (State.bootResult_applyStrap _ _)).trans (congrArg Prod.fst s.bootResult_bootStart)
  refine ⟨?idle, ?scrapped, ?recovery, ?image⟩
  case idle =>
    intro s h
    change execBoot s = _
    rw [execBoot, if_pos]
    simpa using h
  case scrapped =>
    intro s hreleased hoff hlc
    change execBoot s = _
    rw [execBoot, hreleased, hoff, if_neg (by decide)]
    dsimp only
    rw [if_pos hlc]
  case recovery =>
    intro s hreleased hoff hlc hwhy
    obtain ⟨hcommitted, -, -⟩ := s.strapped_nv
    by_cases hrec : (strapOf (s.get Ob.CFG_CODE)).recovery = true
    · obtain ⟨hmode, hboots⟩ := s.strapped.enterRecovery_result
      exact ⟨_, (execBoot_start hreleased hoff hlc).trans (by rw [if_pos hrec]), hmode, hboots.trans (hcount s)⟩
    · have hnone : s.strapped.nv.committed = false := hcommitted.trans (hwhy.resolve_left hrec)
      obtain ⟨hmode, hboots⟩ := State.enterRecovery_result
        (s.strapped.free.2.bootLog 0x02 (s.strapped.free.1 % 256) (leBytes 1 5))
      refine ⟨_, (execBoot_start hreleased hoff hlc).trans (by rw [if_neg hrec, hnone, Bool.not_false, if_pos rfl]), hmode, ?_⟩
      exact hboots.trans ((State.bootCount_of_bootResult (State.bootResult_bootLog _ _ _ _)).trans (hcount s))
  case image =>
    intro s hreleased hoff hlc hrec himage
    obtain ⟨hcommitted, hbytes, hcheck⟩ := s.strapped_nv
    have hstart := execBoot_start hreleased hoff hlc
    rw [hrec, if_neg Bool.false_ne_true, hcommitted, himage, Bool.not_true, if_neg Bool.false_ne_true, hbytes, hcheck] at hstart
    by_cases hst : s.nv.checkImage s.nv.image = .ok
    · rw [if_neg (not_not.mpr hst)] at hstart
      have hrun := (s.strapped.loadFirmware s.nv.image).bootResult_startFirmware
      simp only [State.bootResult, Prod.mk.injEq] at hrun
      obtain ⟨hboots, hmode, hsvn, hversion, hhash⟩ := hrun
      exact ⟨_, hstart, hboots.trans (hcount s), fun hbad => absurd hst hbad, fun _ => ⟨hmode, hsvn, hversion, hhash⟩⟩
    · rw [if_pos hst] at hstart
      obtain ⟨hmode, hboots⟩ := State.enterRecovery_result
        (s.strapped.bootLog 0x02 (s.nv.checkImage s.nv.image).code (leBytes 1 5))
      exact ⟨_, hstart, hboots.trans ((State.bootCount_of_bootResult (State.bootResult_bootLog _ _ _ _)).trans (hcount s)),
        fun _ => hmode, fun hok => absurd hok hst⟩

end Sys2Proof.Machine
end

section
/-!
The scaler's metering: samples, interval records, the flash ring and checkpoints (R437–R446).
-/
namespace Sys2Proof.Machine

/-! ### Closing the running interval (R440) -/

/-- An interval that is due closes into a record; nothing else of the metering changes. -/
theorem Scaler.closeDue_kept (x : Scaler) : x.closeDue.acc = x.acc ∧ x.closeDue.sub = x.sub ∧ x.closeDue.scalerS = x.scalerS ∧
    x.closeDue.intervalMin = x.intervalMin ∧ x.closeDue.audit = x.audit ∧ x.closeDue.sealOpen = x.sealOpen := by
  unfold Scaler.closeDue
  split
  · exact ⟨rfl, rfl, rfl, rfl, rfl, rfl⟩
  · exact ⟨rfl, rfl, rfl, rfl, rfl, rfl⟩

theorem Scaler.closeDue_recNo (x : Scaler) : x.closeDue.recNo = x.recNo + b2n x.due := by
  unfold Scaler.closeDue
  cases x.due <;> rfl

theorem Scaler.closeDue_signed (x : Scaler) : x.closeDue.signed =
    if x.due then x.signed ++ [(x.recNo, x.body x.scalerS (x.interval.flags ||| 0) ++
      recordSig (x.body x.scalerS (x.interval.flags ||| 0)))] else x.signed := by
  unfold Scaler.closeDue
  cases x.due <;> rfl

/-! ### Samples (R437) -/

theorem bitOf_or (a b n : Nat) : bitOf (a ||| b) n = (bitOf a n || bitOf b n) := by
  rw [bitOf_eq_testBit, bitOf_eq_testBit, bitOf_eq_testBit, Nat.testBit_or]

/-- What a sample does to the time, the records and the energy. -/
theorem execSample_powered {s : State} (h : s.scl.powered = true) (v i d : Int) : ∃ y, exec (.sample v i d) s = .next (s.setScl y) ∧
    y.sub = (if s.scl.sub + 1 = 4000 then 0 else s.scl.sub + 1) ∧
    y.scalerS = (if s.scl.sub + 1 = 4000 then s.scl.scalerS + 1 else s.scl.scalerS) ∧
    y.recNo = s.scl.closeDue.recNo ∧ y.signed = s.scl.closeDue.signed ∧
    ∃ e, y.acc = (s.scl.acc + e) % 2 ^ 64 ∧
      (((s.scl.closeDue.calibrate v i d).1.mul (s.scl.closeDue.calibrate v i d).2).n < 0 →
        fullV.le (s.scl.closeDue.calibrate v i d).1 = false → fullI.le (s.scl.closeDue.calibrate v i d).2 = false →
        e = 0 ∧ bitOf y.interval.flags 6 = true) := by
  obtain ⟨hacc, hsub, hsec, -, -, -⟩ := s.scl.closeDue_kept
  change ∃ y, execSample v i d s = _ ∧ _
  unfold execSample
  rw [h, Bool.not_true, if_neg Bool.false_ne_true]
  refine ⟨_, rfl, ?_, ?_, rfl, rfl, _, congrArg (fun a => (a + _) % 2 ^ 64) hacc, fun hrev hv hi => ?_⟩
  · rw [hsub]
  · rw [hsub, hsec]
  · simp only [hv, hi, Bool.false_eq_true, if_false, hrev, if_true, decide_true]
    refine ⟨trivial, ?_⟩
    rw [bitOf_or]
    exact Bool.or_true _

/-- What a power-up restores from the checkpoint, whose interval it closes (R446). -/
theorem execScalerPowerUp_restores {s : State} {c : Checkpoint} (hoff : s.scl.powered = false) (hc : s.scl.checkpoint = some c) :
    ∃ t, exec .scalerPowerUp s = .next t ∧ t.scl.powered = true ∧ t.scl.acc = c.acc ∧ t.scl.scalerS = c.scalerS ∧
      t.scl.recNo = c.recNo + 1 ∧ bitOf t.scl.interval.flags 0 = true ∧ bitOf t.scl.interval.flags 1 = true ∧
      bitOf t.scl.interval.flags 2 = !c.final := by
  change ∃ t, execScalerPowerUp s = _ ∧ _
  simp only [execScalerPowerUp, hoff, Bool.false_eq_true, if_false, hc]
  refine ⟨_, rfl, rfl, rfl, rfl, rfl, ?_, ?_, ?_⟩
  all_goals cases c.final <;> simp [State.setScl, Scaler.close, Interval.start, bitOf]

/-- Settles O54: each command of the metering by what it does to the interval, the records and the energy. -/
theorem scalerMetersAndRecords : Obligations.ScalerMetersAndRecords := by
  refine ⟨?sample, ?energy, ?unpowered, ?intervalClose, ?close, ?commit, ?checkpoint, ?final, fun _ _ => execScalerPowerUp_restores⟩
  case sample =>
    intro s v i d hon hsub
    obtain ⟨y, hexec, hys, hysec, hrec, hsigned, -⟩ := execSample_powered hon v i d
    have htime : y.sub < 4000 ∧ 4000 * y.scalerS + y.sub = 4000 * s.scl.scalerS + s.scl.sub + 1 := by
      rw [hys, hysec]
      split_ifs <;> omega
    refine ⟨_, hexec, htime.1, htime.2, fun hdue => ?_, fun hdue => ?_⟩
    · exact ⟨hrec.trans (by rw [Scaler.closeDue_recNo, hdue]; rfl), hsigned.trans (by rw [Scaler.closeDue_signed, hdue]; rfl)⟩
    · refine ⟨hrec.trans (by rw [Scaler.closeDue_recNo, hdue]; rfl), ?_⟩
      change y.signed.length = _
      rw [hsigned, Scaler.closeDue_signed, hdue, if_pos rfl, List.length_append, List.length_singleton]
  case energy =>
    intro s v i d hon
    obtain ⟨y, hexec, -, -, -, -, e, hacc, hrev⟩ := execSample_powered hon v i d
    exact ⟨_, e, hexec, hacc, hrev⟩
  case unpowered =>
    intro s v i d hoff
    change execSample v i d s = _
    rw [execSample, hoff, Bool.not_false, if_pos rfl]
  case intervalClose =>
    intro s hon hdue
    change execIntervalClose s = _
    rw [execIntervalClose, hon, if_pos rfl, Scaler.closeDue, hdue, if_pos rfl]
  case close =>
    intro x endS add nf
    exact ⟨rfl, rfl, rfl, rfl, List.map_append⟩
  case commit =>
    intro s n b rest hsigned hon
    change execRecordCommit s = _
    simp only [execRecordCommit, hsigned, hon, Bool.not_true, Bool.false_eq_true, if_false]
  case checkpoint =>
    intro s hon hdue
    change execCheckpoint s = _
    simp only [execCheckpoint, hon, hdue, decide_true, Bool.and_self, if_true]
  case final =>
    intro s hon
    change execFinalCheckpoint s = _
    rw [execFinalCheckpoint, hon, if_pos rfl]

end Sys2Proof.Machine
end

section
/-!
The scaler's links, its seal and its service port, and the FRU (R441–R452, R494).
-/
namespace Sys2Proof.Machine

/-! ### Byte strings with a check word at their end -/

/-- The field of `n` bytes that a byte string ends with. -/
theorem leAt_append_leBytes (b : Bytes) (n v : Nat) : leAt (b ++ leBytes n v) b.length n = v % 256 ^ n := by
  rw [leAt, sliceB, List.drop_left, List.take_of_length_le (leBytes_length n v).le, leBytes_length, Nat.sub_self,
    List.replicate_zero, List.append_nil, leNat_leBytes]

/-- The field of `n` bytes that a byte string begins with. -/
theorem leAt_leBytes_append (n v : Nat) (b : Bytes) : leAt (leBytes n v ++ b) 0 n = v % 256 ^ n := by
  rw [leAt, sliceB, List.drop_zero, List.take_left' (leBytes_length n v), leBytes_length, Nat.sub_self,
    List.replicate_zero, List.append_nil, leNat_leBytes]

/-- A byte string with its CRC-32C at the end checks. -/
theorem leAt_append_crc (b : Bytes) : leAt (b ++ leBytes 4 (crc32c b)) b.length 4 = crc32c b := by
  rw [leAt_append_leBytes]
  exact Nat.mod_eq_of_lt (crc32c_lt b)

/-- What a link frame carries, the reader finds (R441, R452). -/
theorem readLink_linkFrame {kind : Nat} (b : Bytes) (h : kind < 256) : readLink (linkFrame kind b) = some (kind, b) := by
  have hlen : (linkFrame kind b).length = (leBytes 1 kind ++ b).length + 4 := by
    rw [linkFrame, List.length_append, leBytes_length]
  have htake : (linkFrame kind b).take ((linkFrame kind b).length - 4) = leBytes 1 kind ++ b := by
    rw [hlen, Nat.add_sub_cancel, linkFrame, List.take_left]
  have hcrc : leAt (linkFrame kind b) ((linkFrame kind b).length - 4) 4 = crc32c (leBytes 1 kind ++ b) := by
    rw [hlen, Nat.add_sub_cancel, linkFrame, leAt_append_crc]
  have hlong : ¬(linkFrame kind b).length < 5 := by
    rw [hlen, List.length_append, leBytes_length]
    omega
  rw [readLink, if_neg hlong, htake, if_pos hcrc, leAt_leBytes_append, List.drop_left' (leBytes_length 1 kind)]
  exact congrArg (fun n => some (n, b)) (Nat.mod_eq_of_lt h)

/-! ### Work frames (R441, R442) -/

theorem length_flatMap_leBytes (n : Nat) (l : List Nat) : (l.flatMap (leBytes n)).length = n * l.length := by
  induction l with
  | nil => rfl
  | cons x l ih => rw [List.flatMap_cons, List.length_append, ih, leBytes_length, List.length_cons, Nat.mul_succ, Nat.add_comm]

/-- A work frame of 144 bytes leaves, with its check word last. -/
theorem execWorkFrameSend_due {s : State} (hrun : s.boot.mode = .running) (hawake : s.clk.asleep = false)
    (hdue : 4000 ≤ s.since s.workAt) :
    ∃ t f, exec .workFrameSend s = .next t ∧ t.out = .scalerFrame f :: s.out ∧ t.work = [] ∧ t.workAt = s.now ∧
      t.workSeq = (s.workSeq + 1) % 65536 ∧ f.length = 144 ∧ leAt f 140 4 = crc32c (f.take 140) := by
  have hguard : (decide (s.boot.mode ≠ .running) || s.clk.asleep || decide (s.since s.workAt < 4000)) = false := by
    simp [hrun, hawake, hdue]
  change ∃ t f, execWorkFrameSend s = _ ∧ _
  simp only [execWorkFrameSend, hguard, Bool.false_eq_true, if_false]
  generalize hcounts : (List.range 16).map _ = counts
  have hlen : counts.length = 16 := by rw [← hcounts, List.length_map, List.length_range]
  set b := leBytes 2 s.workSeq ++ leBytes 4 s.nv.bootCount ++ leBytes 6 s.now ++ counts.flatMap (leBytes 8) with hb
  have hblen : b.length = 140 := by
    simp only [hb, List.length_append, leBytes_length, length_flatMap_leBytes, hlen]
  refine ⟨_, _, rfl, rfl, rfl, rfl, rfl, ?_, ?_⟩
  · rw [List.length_append, hblen, leBytes_length]
  · rw [List.take_left' hblen, ← hblen, leAt_append_crc]

/-- Frames that leave do not touch the scaler. -/
theorem State.scl_sendRecords (s : State) (ns : List Nat) : (s.sendRecords ns).scl = s.scl :=
  foldl_eq_of_step_eq State.scl (fun t n => by
    split
    · split <;> rfl
    · rfl) ns s

/-- What a work frame may change: the running interval and the last frame's number. -/
theorem execWorkFrame_scl {s t : State} {f : Bytes} (h : exec (.workFrame f) s = .next t) :
    ∃ n l, t.scl = { s.scl with interval := n, lastFrame := l } := by
  change execWorkFrame f s = _ at h
  unfold execWorkFrame at h
  split at h
  · cases h
    exact ⟨_, _, rfl⟩
  · extract_lets x gap seq boot isNew skip y n n' u v at h
    split at h
    · cases h
      exact ⟨_, _, rfl⟩
    · cases h
      have hy : ∃ n, y = { s.scl with interval := n } := by
        simp only [y, gap, x]
        split
        · exact ⟨_, rfl⟩
        · exact ⟨_, rfl⟩
      obtain ⟨m, hm⟩ := hy
      have hu : u.scl = { s.scl with interval := n', lastFrame := some (boot, seq) } := by
        simp only [u, State.setScl, hm]
      refine ⟨_, _, Eq.trans ?_ hu⟩
      split
      · exact (foldl_eq_of_step_eq State.scl (g := fun t e => t.emit (.scalerFrame (linkFrame 3 e))) (fun _ _ => rfl) _ _).trans
          (State.scl_sendRecords u _)
      · rfl

/-- A frame that does not check marks a gap (R442). -/
theorem execWorkFrame_of_bad {s : State} {f : Bytes} (hon : s.scl.powered = true)
    (hbad : f.length ≠ 144 ∨ leAt f 140 4 ≠ crc32c (f.take 140)) :
    exec (.workFrame f) s = .next (s.setScl { s.scl with
      interval := { s.scl.interval with flags := s.scl.interval.flags ||| 128 } }) := by
  have hguard : (decide (f.length ≠ 144) || decide (leAt f 140 4 ≠ crc32c (f.take 140))) = true := by simpa using hbad
  change execWorkFrame f s = _
  simp only [execWorkFrame, hon, Bool.not_true, Bool.false_eq_true, if_false, hguard, if_true]

/-- The next frame of the same boot adds its increments to the running interval (R442). -/
theorem execWorkFrame_of_next {s : State} {f : Bytes} {q : Nat} (hon : s.scl.powered = true) (hlen : f.length = 144)
    (hcrc : leAt f 140 4 = crc32c (f.take 140)) (hlast : s.scl.lastFrame = some (leAt f 2 4, q))
    (hseq : leAt f 0 2 = (q + 1) % 65536) :
    exec (.workFrame f) s = .next (s.setScl { s.scl with
      lastFrame := some (leAt f 2 4, leAt f 0 2)
      interval := { s.scl.interval with
        frames := s.scl.interval.frames + 1, tickEnd := leAt f 6 6, mainBoot := leAt f 2 4,
        work := (s.scl.interval.work.zipIdx).map fun w => (w.1 + leAt f (12 + 8 * w.2) 8) % 2 ^ 64 } }) := by
  have hguard : (decide (f.length ≠ 144) || decide (leAt f 140 4 ≠ crc32c (f.take 140))) = false := by simp [hlen, hcrc]
  change execWorkFrame f s = _
  simp only [execWorkFrame, hon, Bool.not_true, Bool.false_eq_true, if_false, hguard, hlast, hseq, bne_self_eq_false,
    Bool.and_false]

/-! ### The seal and the service port (R447–R450) -/

/-- The checks of a write on the service port (R448, R450). -/
def Scaler.serviceCheck (x : Scaler) (index sub : Nat) (value : Bytes) : Status :=
  let k := index * 256 + sub
  firstFail [
    ((odFind index sub).isNone, .badDescriptor),
    (k ≠ Ob.SCL_INTERVAL_MIN && k ≠ Ob.SCL_CAL, .notPermitted),
    (value.length ≠ (if k = Ob.SCL_CAL then 32 else 1), .badDescriptor),
    (!x.sealOpen, .locked),
    (k = Ob.SCL_INTERVAL_MIN && !(1 ≤ leNat value && leNat value ≤ 60), .badDescriptor),
    (k = Ob.SCL_CAL && !calOk value, .badDescriptor)]

/-- A write on the service port is answered with its check; one that fails changes nothing. -/
theorem execServiceWrite_refused {s : State} {index sub : Nat} {value : Bytes} (hon : s.scl.powered = true)
    (hst : s.scl.serviceCheck index sub value ≠ .ok) : execServiceWrite index sub value s =
      .next (s.emit (.serviceAnswer (s.scl.serviceCheck index sub value).code [])) := by
  unfold execServiceWrite
  extract_lets k x st s'
  have hs' : s' = s := if_pos hst
  rw [if_neg (by rw [hon]; decide), hs']
  rfl

/-- With the seal closed the check of every write fails (R447). -/
theorem Scaler.serviceCheck_sealed {x : Scaler} (hclosed : x.sealOpen = false) (index sub : Nat) (value : Bytes) :
    x.serviceCheck index sub value ≠ .ok := by
  intro hok
  rw [Scaler.serviceCheck, firstFail_cons_eq_ok (by decide), firstFail_cons_eq_ok (by decide), firstFail_cons_eq_ok (by decide),
    firstFail_cons_eq_ok (by decide)] at hok
  obtain ⟨-, -, -, hopen, -⟩ := hok
  rw [hclosed] at hopen
  exact Bool.false_ne_true hopen.symm

/-- A new interval length between 1 and 60 passes with the seal open. -/
theorem Scaler.serviceCheck_interval {x : Scaler} {v : Bytes} (hopen : x.sealOpen = true) (hlen : v.length = 1)
    (hlow : 1 ≤ leNat v) (hhigh : leNat v ≤ 60) :
    x.serviceCheck (Ob.SCL_INTERVAL_MIN / 256) (Ob.SCL_INTERVAL_MIN % 256) v = .ok := by
  have hobject : (odFind (Ob.SCL_INTERVAL_MIN / 256) (Ob.SCL_INTERVAL_MIN % 256)).isNone = false := by decide
  have hkey : Ob.SCL_INTERVAL_MIN / 256 * 256 + Ob.SCL_INTERVAL_MIN % 256 = Ob.SCL_INTERVAL_MIN := rfl
  have hcal : Ob.SCL_INTERVAL_MIN ≠ Ob.SCL_CAL := by decide
  simp [Scaler.serviceCheck, firstFail, hkey, hobject, hcal, hlen, hopen, hlow, hhigh]

/-- A write of the interval length with the seal open closes the running interval, counts itself and is audited (R448). -/
theorem execServiceWrite_interval {s : State} {v : Bytes} (hon : s.scl.powered = true) (hopen : s.scl.sealOpen = true)
    (hlen : v.length = 1) (hlow : 1 ≤ leNat v) (hhigh : leNat v ≤ 60) (hnew : leNat v ≠ s.scl.intervalMin) :
    ∃ t, exec (.serviceWrite (Ob.SCL_INTERVAL_MIN / 256) (Ob.SCL_INTERVAL_MIN % 256) v) s = .next t ∧
      t.scl.intervalMin = leNat v ∧ t.scl.audit = satAdd 0xFFFFFFFF s.scl.audit 1 ∧ t.scl.acc = s.scl.acc ∧
      t.scl.recNo = s.scl.recNo + (if s.scl.due then 2 else 1) := by
  obtain ⟨hacc, -, -, -, haudit, -⟩ := s.scl.closeDue_kept
  have hst : s.scl.serviceCheck (Ob.SCL_INTERVAL_MIN / 256) (Ob.SCL_INTERVAL_MIN % 256) v = .ok :=
    Scaler.serviceCheck_interval hopen hlen hlow hhigh
  have hexec : execServiceWrite (Ob.SCL_INTERVAL_MIN / 256) (Ob.SCL_INTERVAL_MIN % 256) v s = .next
      ((s.sealedChange 3 s.scl.intervalMin (leNat v) fun y => { y with intervalMin := leNat v }).emit
        (.serviceAnswer Status.ok.code [])) := by
    unfold execServiceWrite
    extract_lets k x st s'
    have hok : st = .ok := hst
    have hs' : s' = s.sealedChange 3 s.scl.intervalMin (leNat v) fun y => { y with intervalMin := leNat v } :=
      (if_neg (not_not.mpr hst)).trans ((if_pos rfl).trans (if_neg hnew))
    rw [if_neg (by rw [hon]; decide), hs', hok]
  refine ⟨_, hexec, rfl, ?_, ?_, ?_⟩
  · exact congrArg (satAdd 0xFFFFFFFF · 1) haudit
  · exact hacc
  · change s.scl.closeDue.recNo + 1 = _
    rw [Scaler.closeDue_recNo]
    cases s.scl.due <;> rfl

/-- With the seal closed no write on the service port changes the scaler (R447). -/
theorem execServiceWrite_sealed {s t : State} {k sub : Nat} {v : Bytes} (hclosed : s.scl.sealOpen = false)
    (h : exec (.serviceWrite k sub v) s = .next t) : t.scl = s.scl := by
  change execServiceWrite k sub v s = _ at h
  by_cases hon : s.scl.powered = true
  · rw [execServiceWrite_refused hon (Scaler.serviceCheck_sealed hclosed k sub v)] at h
    cases h
    rfl
  · rw [execServiceWrite, if_pos (by simpa using hon)] at h
    cases h
    rfl

/-- FRU_READ: the one read that follows the pin configuration (R494). -/
theorem execFruRead_once {s : State} (fru : Bytes) (answered : Bool) (hrun : s.boot.mode = .running)
    (hfirst : s.pwr.fruRead = false) :
    ∃ t, exec (.fruRead fru answered) s = .next t ∧ t.pwr = { s.pwr with fruRead := true } ∧
      (answered = false → t.get Ob.FRU_STATUS = s.get Ob.FRU_STATUS) ∧
      (answered = true → t.get Ob.FRU_STATUS = if fruHeaderOk (fitB 2048 fru) then 1 else 2) := by
  have hguard : (decide (s.boot.mode ≠ .running) || s.pwr.fruRead) = false := by simp [hrun, hfirst]
  change ∃ t, execFruRead fru answered s = _ ∧ _
  simp only [execFruRead, hguard, Bool.false_eq_true, if_false]
  cases answered with
  | false => exact ⟨_, rfl, rfl, fun _ => rfl, fun h => absurd h Bool.false_ne_true⟩
  | true =>
    simp only [Bool.not_true, Bool.false_eq_true, if_false]
    cases hform : fruHeaderOk (fitB 2048 fru) with
    | false => exact ⟨_, rfl, rfl, fun h => absurd h.symm Bool.false_ne_true, fun _ => by simp⟩
    | true =>
      simp only [Bool.not_true, Bool.false_eq_true, if_false]
      split
      · exact ⟨_, rfl, rfl, fun h => absurd h.symm Bool.false_ne_true, fun _ => by
          rw [State.get_put_ne _ _ (by decide), State.get_put_self, if_pos trivial]⟩
      · exact ⟨_, rfl, rfl, fun h => absurd h.symm Bool.false_ne_true, fun _ => by simp⟩

/-- Settles O55: frames, records and writes, each by what its own branch of the scaler's command does. -/
theorem scalerLinksAndService : Obligations.ScalerLinksAndService := by
  refine ⟨fun _ => execWorkFrameSend_due, fun _ _ => execWorkFrame_of_bad, fun _ _ _ => execWorkFrame_of_next, ?workKeeps, ?status,
    fun _ b => readLink_linkFrame b, ?noFrame, ?statusFrame, ?recordFrame, ?sealChange, fun _ _ => execServiceWrite_interval,
    fun _ _ _ _ _ => execServiceWrite_sealed, ?read, fun _ => execFruRead_once⟩
  case workKeeps =>
    intro s f t h
    obtain ⟨n, l, heq⟩ := execWorkFrame_scl h
    rw [heq]
    exact ⟨rfl, rfl, rfl, rfl⟩
  case status =>
    intro s hon hdue
    change execStatusFrame s = _
    simp only [execStatusFrame, hon, hdue, decide_true, Bool.and_self, if_true]
  case noFrame =>
    intro s f hrun hnone
    change execRecordLinkFrame f s = _
    simp only [execRecordLinkFrame, hrun, hnone, ne_eq, not_true_eq_false, if_false]
  case statusFrame =>
    intro s f b hrun hread hlen
    change execRecordLinkFrame f s = _
    simp only [execRecordLinkFrame, hrun, hread, hlen, ne_eq, not_true_eq_false, if_false, if_true]
  case recordFrame =>
    intro s f b hrun hread hlen
    change execRecordLinkFrame f s = _
    simp only [execRecordLinkFrame, hrun, hread, hlen, ne_eq, not_true_eq_false, if_false]
  case sealChange =>
    intro s hon
    change execSealChange s = _
    rw [execSealChange, hon, if_pos rfl]
  case read =>
    intro s k sub off len v hon hvalue
    change execServiceRead k sub off len s = _
    simp only [execServiceRead, hon, hvalue, Bool.not_true, Bool.false_eq_true, if_false, Bool.and_eq_true, decide_eq_true_eq]
    split <;> rfl

end Sys2Proof.Machine
end

section
/-!
Resets of the main die, their release, and BLOCK resets (R464–R475).
-/
namespace Sys2Proof.Machine

/-! ### What a reset of the main die leaves (R464, R468) -/

theorem State.sysReset_scl (s : State) (cause reach : Nat) : (s.sysReset cause reach).scl = s.scl :=
  (s.sysReset_steady cause reach).2

theorem State.sysReset_pending (s : State) (cause reach : Nat) : (s.sysReset cause reach).pending = s.pending :=
  (s.sysReset_steady cause reach).keeps.1

theorem State.sysReset_resets (s : State) (cause reach : Nat) :
    (s.sysReset cause reach).resets = s.resets ++ [{ cause := cause, reach := reach, part := 0 }] :=
  (State.settleRepairs_eq_of_frame State.resets (fun _ _ => rfl) (fun _ _ => by simp) (fun _ _ => rfl) (fun _ _ => rfl)
    (fun _ _ => rfl) _ _).trans (State.joinReset_resets s _)

theorem State.sysReset_mode (s : State) (cause reach : Nat) : (s.sysReset cause reach).boot.mode = .off := by
  simp only [State.sysReset, State.rebuild]
  split <;> rfl

/-! ### The wipe (R73) -/

theorem State.wipe_boot (s : State) (mask stands : Nat) (inRegion : Nat → Bool) : (s.wipe mask stands inRegion).boot = s.boot :=
  State.settleRepairs_eq_of_frame State.boot (fun _ _ => rfl) (fun _ _ => by simp) (fun _ _ => rfl) (fun _ _ => rfl)
    (fun _ _ => rfl) s fun n => bitOf stands n

theorem State.wipe_clk (s : State) (mask stands : Nat) (inRegion : Nat → Bool) : (s.wipe mask stands inRegion).clk = s.clk :=
  State.settleRepairs_eq_of_frame State.clk (fun _ _ => rfl) (fun _ _ => by simp) (fun _ _ => rfl) (fun _ _ => rfl)
    (fun _ _ => rfl) s fun n => bitOf stands n

theorem State.wipe_resets (s : State) (mask stands : Nat) (inRegion : Nat → Bool) :
    (s.wipe mask stands inRegion).resets = s.resets := congrArg Prod.fst (State.held_wipe s mask stands inRegion)

/-- An object that no repair and no error writes keeps its value. -/
theorem State.get_wipe_ne (s : State) (mask stands : Nat) (inRegion : Nat → Bool) {k : Nat} (hrepair : k ≠ Ob.REPAIR_ACTIVE)
    (hhead : k ≠ Ob.ERR_LOG_HEAD) (hover : k ≠ Ob.ERR_LOG_OVERWRITTEN) : (s.wipe mask stands inRegion).get k = s.get k :=
  State.settleRepairs_eq_of_frame (State.get · k) (fun t v => State.get_put_ne t v hrepair)
    (fun t e => State.get_logError_ne t e hhead hover) (fun _ _ => rfl) (fun _ _ => rfl) (fun _ _ => rfl) s fun n => bitOf stands n

/-- What a wipe of every stand leaves lies in none. -/
theorem State.mem_wipe_all (s : State) (mask : Nat) (inRegion : Nat → Bool) {c : Host.Cell}
    (h : c ∈ (s.wipe mask (2 ^ 20 - 1) inRegion).mem) : 20 ≤ daStand c.1 := by
  have hout : (!bitOf (2 ^ 20 - 1) (daStand c.1)) = true := (List.mem_filter.mp h).2
  rw [Bool.not_eq_true', bitOf_eq_testBit, Nat.testBit_two_pow_sub_one] at hout
  simpa using hout

/-! ### The release of a POR (R468, R469) -/

/-- The release at the end of a POR or SYS reset. -/
theorem execPorRelease_releases {s : State} {adc : Nat} (hpor : (s.resets.any (3 ≤ ·.reach)) = true) (hclosed : s.pwr.closed = true)
    (ha : (s.port 0).perst = false) (hb : (s.port 1).perst = false) (hadc : adc < 1024) :
    ∃ t, exec (.porRelease adc) s = .next t ∧ t.boot.released = true ∧ t.resets = [] ∧ (t.clk.xoOk || t.clk.ioscOk) = true ∧
      (∀ c ∈ t.mem, 20 ≤ daStand c.1) ∧ (s.resets.any (·.reach == 4) = true → t.get Ob.CFG_CODE = strapCode adc) := by
  have hguard : (!(s.resets.any (3 ≤ ·.reach)) || !s.pwr.closed || (s.port 0).perst || (s.port 1).perst ||
      decide (1024 ≤ adc)) = false := by
    simp [hpor, hclosed, ha, hb, hadc]
  change ∃ t, execPorRelease adc s = _ ∧ _
  unfold execPorRelease
  rw [hguard, if_neg Bool.false_ne_true]
  extract_lets por u clk₀ clk boot₀ v
  refine ⟨_, rfl, ?_, State.wipe_resets .., ?_, fun c hc => State.mem_wipe_all v 3 _ hc, fun hreach => ?_⟩
  · rw [State.wipe_boot]
  · rw [State.wipe_clk]
    change (clk.xoOk || clk.ioscOk) = true
    simp only [clk, clk₀]
    cases u.clk.xoOk <;> simp
  · rw [State.get_wipe_ne _ _ _ _ (by decide) (by decide) (by decide)]
    have hu : u = (s.put Ob.CFG_CODE (strapCode adc)).put Ob.CFG_ADC adc := if_pos hreach
    change u.get Ob.CFG_CODE = _
    rw [hu, State.get_put_ne _ _ (by decide), State.get_put_self]

/-! ### The release of a partition (R470) -/

theorem State.held_portEvent (s : State) (p bit : Nat) : (s.portEvent p bit).held = s.held :=
  State.held_congr (by simp) (by simp)

theorem State.held_claimPool (s : State) (p : Nat) : (s.claimPool p).held = s.held := by
  unfold State.claimPool State.claim
  dsimp only
  split <;> rfl

theorem State.held_partEvent (s : State) (p bit : Nat) : (s.partEvent p bit).held = s.held :=
  foldl_eq_of_step_eq State.held (fun t q => t.held_portEvent q bit) _ s

theorem State.held_occur (s : State) (cause part detail : Nat) : (s.occur cause part detail).held = s.held :=
  State.held_congr (by simp) (by simp)

/-- A partition that leaves reset is held no longer; the groups are as they were. -/
theorem State.releasePart_held (s : State) (p : Nat) (narrow : Bool) :
    (s.releasePart p narrow).held = (s.setPart p { s.part p with resetting := false }).held := by
  unfold State.releasePart
  extract_lets x t u v
  have hv : v.held = u.held := by
    simp only [v]
    split
    · exact u.held_occur _ _ _
    · rfl
  exact ((State.answer_told v _ _ _).held_eq.trans hv).trans ((State.held_partEvent t p _).trans (State.held_claimPool _ p))

/-- Where no access waits, none waits after the release either. -/
theorem State.releasePart_waiters (s : State) (p : Nat) (narrow : Bool) (h : s.mgmt.waiters = []) :
    (s.releasePart p narrow).mgmt.waiters = [] := by
  unfold State.releasePart
  extract_lets x t u v
  have ht : t.mgmt.waiters = [] := by
    simp only [t, State.claimPool, State.claim]
    split
    · simpa using h
    · simpa using h
  have hu : u.mgmt.waiters = t.mgmt.waiters :=
    foldl_eq_of_step_eq (fun t => t.mgmt.waiters) (fun t q => by simp) _ t
  have hv : v.mgmt.waiters = u.mgmt.waiters := by
    simp only [v]
    split
    · unfold State.occur
      split <;> rfl
    · rfl
  rw [State.answer, hv, hu, ht]
  rfl

theorem State.logCauses_held (s : State) (mine : Nat → Bool) : (s.logCauses mine).held = s.held :=
  (foldl_eq_of_step_eq State.held (g := fun t v => t.bootLog 0x09 0 (leBytes 4 v)) (fun t v => by
    obtain ⟨l, n, w, hlog⟩ := t.bootLog_frame 0x09 0 (leBytes 4 v)
    rw [hlog]
    rfl) _ _).trans rfl

theorem State.logCauses_mgmt (s : State) (mine : Nat → Bool) : (s.logCauses mine).mgmt = s.mgmt :=
  (foldl_eq_of_step_eq State.mgmt (g := fun t v => t.bootLog 0x09 0 (leBytes 4 v)) (fun t v => by
    obtain ⟨l, n, w, hlog⟩ := t.bootLog_frame 0x09 0 (leBytes 4 v)
    rw [hlog]) _ _).trans rfl

theorem State.settleRetry_mgmt (s : State) : s.settleRetry.mgmt = s.mgmt :=
  foldl_eq_of_step_eq State.mgmt (fun t p => (apply_ite State.mgmt _ _ _).trans (by simp)) _ s

/-- No APPLY starts where no access waits. -/
theorem State.nextApply_of_idle {s : State} (n : Nat) (h : s.mgmt.waiters = []) : State.nextApply n s = s := by
  cases n with
  | zero => rfl
  | succ n =>
    rw [State.nextApply, State.applying, h]
    rfl

theorem State.resetting_of_held {s t : State} (h : s.held = t.held) (p : Nat) : (s.part p).resetting = (t.part p).resetting := by
  simp only [State.held, Prod.mk.injEq] at h
  obtain ⟨-, h0, h1⟩ := h
  by_cases hp : p = 0
  · rw [hp, h0]
  · simpa [State.part, hp] using h1

/-- CORE_RELEASE of the one source that holds a partition (R470). -/
theorem execCoreRelease_releases {s : State} {p : PartNo} {cause : Nat}
    (hone : s.resets = [{ cause := cause, reach := 1, part := p.val }]) (happly : cause ≠ 0x35) (hwipes : s.wipes = [])
    (hlevel : s.levelHeld p.val = false) (hwaiters : s.mgmt.waiters = []) :
    ∃ t, exec (.coreRelease p) s = .next t ∧ t.resets = [] ∧ (t.part p.val).resetting = false := by
  change ∃ t, execCoreRelease p s = _ ∧ _
  unfold execCoreRelease
  extract_lets q group apply wide ps wiping left boot₀ u v w x y
  have hgroup : group = [{ cause := cause, reach := 1, part := p.val }] := by
    simp only [group, hone, q, List.filter_cons, List.filter_nil, beq_self_eq_true, Bool.or_true, if_true]
  have happly' : apply = false := by
    simp only [apply, hgroup, List.any_cons, List.any_nil, Bool.or_false]
    simpa using happly
  have hwide : wide = false := by
    simp only [wide, hgroup, List.any_cons, List.any_nil, Bool.or_false]
    rfl
  have hps : ps = [p.val] := by
    simp only [ps, happly', hwide, q, Bool.or_false, Bool.false_eq_true, if_false]
  have hleft : left = [] := by
    simp [left, hone, hps]
  have hwiping : wiping = false := by
    simp only [wiping, hwipes, List.any_nil]
  have hguard : (group.isEmpty || group.any (3 ≤ ·.reach) || wiping || ps.any s.levelHeld) = false := by
    simp [hgroup, hwiping, hps, hlevel]
  rw [if_neg (by rw [hguard]; exact Bool.false_ne_true)]
  have hv : v = u.releasePart p.val true := by
    simp only [v, hps, hwide, List.foldl_cons, List.foldl_nil, Bool.not_false]
  have hy : y = w := by
    simp only [y, x, hwide, happly', Bool.false_eq_true, if_false]
  have hidle : y.settleRetry.mgmt.waiters = [] := by
    rw [State.settleRetry_mgmt, hy, State.logCauses_mgmt, hv]
    exact State.releasePart_waiters u p.val true hwaiters
  have hheld : y.settleRetry.held = (u.setPart p.val { u.part p.val with resetting := false }).held := by
    rw [y.settleRetry_told.held_eq, hy, State.logCauses_held, hv, State.releasePart_held]
  refine ⟨_, congrArg Host.Outcome.next (State.nextApply_of_idle _ hidle), ?_, ?_⟩
  · exact (congrArg Prod.fst hheld).trans hleft
  · rw [State.resetting_of_held hheld, State.part_setPart]

/-! ### BLOCK resets (R471–R474) -/

theorem State.defer_told (s : State) (r : Reply) : s.Told (s.defer r) := by
  unfold State.defer
  split
  · split
    · exact State.setCmd_told s _
    · exact State.Told.refl s
  · exact State.Told.refl s

/-- BLOCK_RESET by M takes the unit out of service and keeps the request (R471, R473). -/
theorem execBlockReset_of_m {s t : State} {acc : Access} {w : Writer} {v : Bytes} {k : UnitKind} {u : Nat}
    (h : s.arrive acc (isKey Ob.BLOCK_RESET) = .go w v t) (hunit : blockUnit (leNat v) = some (k, u)) (hm : w.who = .m) :
    ∃ r, exec (.blockReset acc) s = .next r ∧ unitCode k u ∈ r.down ∧
      ({ unit := unitCode k u, since := t.now, reply := w.reply } : BlockReset) ∈ r.blockResets := by
  set b : BlockReset := { unit := unitCode k u, since := t.now, reply := w.reply }
  set r : State := { t with blockResets := t.blockResets ++ [b],
                            down := if t.down.contains (unitCode k u) then t.down else unitCode k u :: t.down } with hr
  refine ⟨r.defer w.reply, ?_, ?_, ?_⟩
  · refine congrArg Host.Outcome.next (?_ : s.write acc (isKey Ob.BLOCK_RESET) (numOp _) = _)
    refine State.write_defers h ?_
    simp only [numOp, hunit, hm, ne_eq, not_true_eq_false, decide_false, Bool.false_and, Bool.false_eq_true, if_false]
    rfl
  · rw [(State.defer_told r w.reply).1]
    change unitCode k u ∈ (if t.down.contains (unitCode k u) then t.down else unitCode k u :: t.down)
    split
    · next hdown => exact List.contains_iff_mem.mp hdown
    · exact List.mem_cons_self
  · rw [(State.defer_told r w.reply).1]
    exact List.mem_append_right _ (List.mem_singleton_self b)

/-- Settles O56: the resets by what their rebuild keeps, the releases by the wipe and the groups, the BLOCK resets by their
own branches. -/
theorem resetsJoinAndRelease : Obligations.ResetsJoinAndRelease := by
  refine ⟨?sysReset, ?watchdog, fun _ => rfl, ?sysRequest, ?coreRequest, ?sources, fun _ _ => execPorRelease_releases,
    fun _ _ _ => execCoreRelease_releases, fun _ _ _ _ _ _ _ => execBlockReset_of_m, ?blockRange, ?clean, ?quiesce⟩
  case sysReset =>
    intro s cause reach
    exact ⟨State.sysReset_released s cause reach, State.sysReset_mode s cause reach, rfl, rfl, State.sysReset_scl s cause reach,
      State.sysReset_pending s cause reach, by rw [State.sysReset_nv], by rw [State.sysReset_nv],
      State.sysReset_resets s cause reach⟩
  case watchdog =>
    intro s hreleased
    exact congrArg Host.Outcome.next (if_pos hreleased)
  case sysRequest =>
    intro s t acc w v h
    exact congrArg Host.Outcome.next (State.write_defers h rfl)
  case coreRequest =>
    intro s t acc w v h
    exact congrArg Host.Outcome.next (State.write_defers h rfl)
  case sources =>
    intro s
    refine ⟨rfl, rfl, rfl, rfl, rfl, fun hreleased => congrArg Host.Outcome.next (if_pos hreleased),
      fun hlost => congrArg Host.Outcome.next (if_pos hlost), fun hhold hok => congrArg Host.Outcome.next (if_pos ?_)⟩
    rw [hhold, hok, Bool.and_self]
  case blockRange =>
    intro s t acc w v h hnone
    refine congrArg Host.Outcome.next (?_ : s.write acc (isKey Ob.BLOCK_RESET) (numOp _) = _)
    exact State.write_answers h (by simp only [numOp, hnone])
  case clean =>
    intro s u b hb hidle
    change execBlockResetClean u s = _
    simp only [execBlockResetClean, hb, hidle, if_true]
  case quiesce =>
    intro s u b hb hbusy hwait
    change execQuiesceTicks u s = _
    simp only [execQuiesceTicks, hb, hbusy, hwait, decide_true, Bool.not_false, Bool.and_self, if_true]

end Sys2Proof.Machine
end

section
/-!
Clock sources, dividers, gates and the power modes (R454–R463).
-/
namespace Sys2Proof.Machine

/-! ### The reference (R454–R460) -/

/-- The multiplexer changes the reference, and the note of a forced switch. -/
theorem State.switchRef_clk (s : State) (xo : Bool) :
    ∃ forced, (s.switchRef xo).clk = { s.clk with refXo := xo, forced := forced } := by
  unfold State.switchRef
  dsimp only
  split_ifs with hsame
  · exact ⟨s.clk.forced, by rw [← hsame]⟩
  all_goals exact ⟨_, rfl⟩

theorem State.switchRef_mgmt (s : State) (xo : Bool) : (s.switchRef xo).mgmt = s.mgmt := by
  unfold State.switchRef
  dsimp only
  split_ifs <;> rfl

/-- While the source in use still runs, the switch changes nothing else. -/
theorem State.switchRef_of_running {s : State} {xo : Bool} (hold : (if xo then s.clk.ioscOk else s.clk.xoOk) = true) :
    s.switchRef xo = { s with clk := { s.clk with refXo := xo } } := by
  by_cases hsame : s.clk.refXo = xo
  · rw [State.switchRef, if_pos hsame, ← hsame]
  · rw [State.switchRef, if_neg hsame]
    exact if_pos hold

theorem execXoQualified_of_lost {s : State} (hlost : s.clk.xoOk = false) (hreleased : s.boot.released = true) :
    ∃ t, exec .xoQualified s = .next t ∧ t.clk.xoOk = true ∧ (s.clk.hold = true → t.clk.refXo = true) ∧
      (s.clk.hold = false → t.clk.refXo = s.clk.refXo) := by
  have hguard : (s.clk.xoOk || !s.boot.released) = false := by rw [hlost, hreleased]; rfl
  change ∃ t, execXoQualified s = _ ∧ _
  unfold execXoQualified
  rw [hguard, if_neg Bool.false_ne_true]
  refine ⟨_, rfl, rfl, fun hhold => ?_, fun hhold => ?_⟩
  · obtain ⟨forced, hclk⟩ := s.switchRef_clk true
    simp only [hhold, if_true, hclk]
  · simp only [hhold, Bool.false_eq_true, if_false]

theorem execIoscQualified_of_lost {s : State} (hlost : s.clk.ioscOk = false) (hreleased : s.boot.released = true)
    (hneeded : s.clk.asleep = false ∨ s.clk.hold = true) :
    ∃ t, exec .ioscQualified s = .next t ∧ t.clk.ioscOk = true ∧ (s.clk.hold = true → t.clk.refXo = false) ∧
      (s.clk.hold = false → t.clk.refXo = s.clk.refXo) := by
  have hguard : (s.clk.ioscOk || !s.boot.released || (s.clk.asleep && !s.clk.hold)) = false := by
    rcases hneeded with h | h <;> simp [hlost, hreleased, h]
  change ∃ t, execIoscQualified s = _ ∧ _
  unfold execIoscQualified
  rw [hguard, if_neg Bool.false_ne_true]
  refine ⟨_, rfl, rfl, fun hhold => ?_, fun hhold => ?_⟩
  · obtain ⟨forced, hclk⟩ := s.switchRef_clk false
    simp only [hhold, if_true, hclk]
  · simp only [hhold, Bool.false_eq_true, if_false]

theorem execReferenceSwitch_of_qualified {s : State} (hclocked : s.clocked = true) (hxo : s.clk.xoOk = true) :
    ∃ t, exec .referenceSwitch s = .next t ∧ t.clk.refXo = true ∧ t.clk.xoOk = true ∧
      (s.clk.ioscOk = true → t = { s with clk := { s.clk with refXo := true } }) := by
  obtain ⟨forced, hclk⟩ := s.switchRef_clk true
  refine ⟨s.switchRef true, ?_, by rw [hclk], by rw [hclk, ← hxo], fun hiosc => State.switchRef_of_running hiosc⟩
  change execReferenceSwitch s = _
  rw [execReferenceSwitch, hclocked, hxo, Bool.and_self, if_pos rfl]

/-! ### Trips of a source (R457–R460) -/

theorem State.loseLinks_clk (s : State) (n : Nat) : (s.loseLinks n).clk = s.clk :=
  foldl_eq_of_step_eq State.clk (g := fun t j => t.noteBreak 8 (4 * n + j)) (fun _ _ => rfl) _ s

/-- Without the XO nothing waits on M; the clock sources are as they were (R457). -/
theorem State.loseXo_clk (s : State) : s.loseXo.clk = s.clk :=
  foldl_eq_of_step_eq State.clk (g := fun (t : State) n => if t.portRuns n then (t.loseLinks n).setPortState n psLinkDown else t)
    (fun t n => by
      split
      · rw [State.setPortState_clk, State.loseLinks_clk]
      · rfl) [0, 1] s

/-- A trip of the XO with the IOSC qualified: the reference switches, and M falls silent (R457, R458). -/
theorem execMonitorTrip_xo {s : State} (hreleased : s.boot.released = true) (hxo : s.clk.xoOk = true)
    (hiosc : s.clk.ioscOk = true) :
    ∃ t, exec (.monitorTrip .xo) s = .next t ∧ t.clk.xoOk = false ∧ t.clk.refXo = false ∧ t.mgmt.tx = [] ∧
      t.clk.hold = s.clk.hold := by
  set u : State := (({ s.bump Ob.XO_FAULTS with clk := { s.clk with xoOk := false } } : State).loseXo)
  have hclk : u.clk = { s.clk with xoOk := false } := State.loseXo_clk _
  obtain ⟨forced, hswitch⟩ := u.switchRef_clk false
  refine ⟨u.switchRef false, ?_, by rw [hswitch, hclk], by rw [hswitch], ?_, by rw [hswitch, hclk]⟩
  · change execMonitorTrip .xo s = _
    unfold execMonitorTrip
    rw [hreleased, Bool.not_true, if_neg Bool.false_ne_true]
    dsimp only
    rw [if_neg (by rw [State.bump_clk, hxo]; decide)]
    exact congrArg Host.Outcome.next (if_pos ((congrArg Clocks.ioscOk hclk).trans hiosc))
  · rw [State.switchRef_mgmt]
    rfl

theorem State.setAlert_hold {s : State} (h : s.clk.hold = true) : s.setAlert.pwr.alert = true := by
  unfold State.setAlert
  rw [h]
  dsimp only
  rw [Bool.or_true]
  split_ifs with halert
  · exact halert
  · rfl

theorem State.setAlert_clk (s : State) : s.setAlert.clk = s.clk := by
  unfold State.setAlert
  dsimp only
  split <;> rfl

/-- A trip of the last source: the hold sequence begins (R460). -/
theorem execMonitorTrip_iosc {s : State} (hreleased : s.boot.released = true) (hawake : s.clk.asleep = false)
    (hiosc : s.clk.ioscOk = true) (hxo : s.clk.xoOk = false) :
    ∃ t, exec (.monitorTrip .iosc) s = .next t ∧ t.clk.ioscOk = false ∧ t.clk.hold = true ∧ t.pwr.alert = true := by
  set u : State := { s.bump Ob.IOSC_FAULTS with clk := { s.clk with ioscOk := false } }
  have hclk : u.enterHold.clk = { s.clk with ioscOk := false, hold := true } := State.setAlert_clk _
  refine ⟨u.enterHold, ?_, by rw [hclk], by rw [hclk], State.setAlert_hold rfl⟩
  change execMonitorTrip .iosc s = _
  unfold execMonitorTrip
  rw [hreleased, Bool.not_true, if_neg Bool.false_ne_true]
  dsimp only
  rw [hawake, if_neg Bool.false_ne_true, if_neg (by rw [State.bump_clk, hiosc]; decide)]
  exact congrArg Host.Outcome.next (if_neg (by rw [State.bump_clk, hxo]; decide))

/-! ### Gates and the wake (R462, R463) -/

/-- What the gates leave: whether the module sleeps, its reference, and the objects. -/
def State.wakeView (s : State) : (Bool × Bool) × List (Nat × Nat) := ((s.clk.asleep, s.clk.refXo), s.od)

theorem State.wakeView_gateOn (s : State) (u : Nat) : (s.gateOn u).wakeView = s.wakeView := by
  unfold State.gateOn
  split_ifs <;> rfl

theorem State.wakeView_gateOff (s : State) (u : Nat) : (s.gateOff u).wakeView = s.wakeView := by
  unfold State.gateOff
  split <;> rfl

theorem State.wakeView_applyGates (s : State) : s.applyGates.wakeView = s.wakeView :=
  foldl_eq_of_step_eq State.wakeView (fun t _ => foldl_eq_of_step_eq State.wakeView (fun t u => by
    split
    · exact t.wakeView_gateOn u
    · exact t.wakeView_gateOff u) _ t) _ s

/-- WAKE of an enabled source (R462). -/
theorem execWake_of_enabled {s : State} {n : Nat} (hasleep : s.clk.asleep = true) (hhold : s.clk.hold = false)
    (hwakes : s.wakes n = true) :
    ∃ t, exec (.wake n) s = .next t ∧ t.clk.asleep = false ∧ t.get Ob.POWER_MODE = 0 ∧ t.clk.refXo = true := by
  set vaults := s.vaults.map fun (e : Nat × Vault) => (e.1, { e.2 with owed := 0 })
  set u : State := ({ s with clk := { s.clk with asleep := false, refXo := true }, vaults := vaults } : State).put Ob.POWER_MODE 0
  have hview : u.applyGates.wakeView = ((false, true), u.od) := u.wakeView_applyGates
  simp only [State.wakeView, Prod.mk.injEq] at hview
  obtain ⟨⟨hawake, href⟩, hod⟩ := hview
  refine ⟨u.applyGates, ?_, hawake, ?_, href⟩
  · change execWake n s = _
    rw [execWake, hasleep, hhold, hwakes, if_pos (by decide)]
  · rw [State.get, hod]
    exact State.get_put_self _ _ _

end Sys2Proof.Machine
end

section
/-!
The input stage, the duty and the limits of power and temperature (R477–R486).
-/
namespace Sys2Proof.Machine

/-! ### The duty (R480, R484) -/

theorem State.setAlert_pwr (s : State) : s.setAlert.pwr = { s.pwr with alert := decide (s.duty < 16) || s.clk.hold } := by
  unfold State.setAlert
  extract_lets a
  by_cases halert : s.pwr.alert = a
  · rw [if_pos halert]
    change s.pwr.alert = (decide (s.duty < 16) || s.clk.hold) at halert
    rw [← halert]
  · rw [if_neg halert]
    rfl

/-- The duties become those asked for, and ALERT# follows them and the hold sequence. -/
theorem State.setPower_pwr (s : State) (x : Power) : (s.setPower x).pwr =
    { x with alert := decide (min (min x.capDuty x.fastDuty) (min x.brakeDuty x.thermalDuty) < 16) || s.clk.hold } := by
  unfold State.setPower
  extract_lets old t new u
  have hu : u.pwr = x ∧ u.clk = s.clk := by
    simp only [u]
    split_ifs <;> simp [t]
  obtain ⟨hpwr, hclk⟩ := hu
  rw [State.setAlert_pwr, State.duty, hpwr, hclk]

theorem State.setPower_duty (s : State) (x : Power) :
    (s.setPower x).duty = min (min x.capDuty x.fastDuty) (min x.brakeDuty x.thermalDuty) := by
  rw [State.duty, State.setPower_pwr]

/-- At a duty of 0 no BULK work runs (R480). -/
theorem State.classRuns_bulk_of_duty {s : State} (h : s.duty = 0) : s.classRuns .bulk = false := by
  rw [State.classRuns, h]
  rfl

/-- A command at work is a LAT look-up, or BULK work runs. -/
theorem State.classRuns_of_atWork {s : State} {id op : Nat} {c : Cmd} (h : s.atWork id op = some c) :
    (s.cmdLat c || s.classRuns .bulk) = true := by
  unfold State.atWork at h
  cases hcmd : s.cmd? id with
  | none =>
    rw [hcmd] at h
    exact absurd h.symm (Option.some_ne_none c)
  | some d =>
    rw [hcmd] at h
    dsimp only at h
    rw [Option.ite_none_right_eq_some] at h
    obtain ⟨hguard, hd⟩ := h
    cases hd
    simp only [Bool.and_eq_true] at hguard
    obtain ⟨⟨-, hruns⟩, -⟩ := hguard
    exact hruns

/-! ### Capping (R481) -/

/-- A cap above the limit falls in proportion, and not below 1. -/
theorem capped_le {cap limit sum : Nat} (hover : limit < sum) (hcap : 1 ≤ cap) :
    max 1 (cap * limit / sum) ≤ cap ∧ (1 < cap → max 1 (cap * limit / sum) < cap) := by
  have hlt : cap * limit / sum < cap := by
    rw [Nat.div_lt_iff_lt_mul (Nat.zero_lt_of_lt hover)]
    exact Nat.mul_lt_mul_of_pos_left hover hcap
  omega

/-- A sample of the input power, while firmware runs: the cap between 1 and 16, lower where the average exceeds the limit. -/
theorem execPowerSample_running {s : State} (mw : Nat) (hrun : s.boot.mode = .running) (hclocked : s.clocked = true)
    (hlow : 1 ≤ s.pwr.capDuty) (hhigh : s.pwr.capDuty ≤ 16) :
    ∃ t, exec (.powerSample mw) s = .next t ∧ 1 ≤ t.pwr.capDuty ∧ t.pwr.capDuty ≤ 16 ∧
      t.pwr.samples = (mw :: s.pwr.samples).take 10 ∧
      (s.powerLimit * 1000 * ((mw :: s.pwr.samples).take 10).length < ((mw :: s.pwr.samples).take 10).sum →
        t.pwr.capDuty ≤ s.pwr.capDuty ∧ (1 < s.pwr.capDuty → t.pwr.capDuty < s.pwr.capDuty)) := by
  have hguard : (decide (s.boot.mode ≠ .running) || !s.clocked) = false := by simp [hrun, hclocked]
  change ∃ t, execPowerSample mw s = _ ∧ _
  unfold execPowerSample
  rw [hguard, if_neg Bool.false_ne_true]
  extract_lets samples sum limit cap u v cap'
  refine ⟨_, rfl, ?_⟩
  rw [State.setPower_pwr]
  change 1 ≤ cap' ∧ cap' ≤ 16 ∧ samples = _ ∧ (limit < sum → cap' ≤ cap ∧ (1 < cap → cap' < cap))
  have hcap : cap = s.pwr.capDuty := rfl
  rw [← hcap] at hlow hhigh
  simp only [cap']
  by_cases hover : limit < sum
  · rw [if_pos hover]
    obtain ⟨hle, hlt⟩ := capped_le hover hlow
    exact ⟨le_max_left _ _, hle.trans hhigh, rfl, fun _ => ⟨hle, hlt⟩⟩
  · rw [if_neg hover]
    refine ⟨?_, ?_, rfl, fun h => absurd h hover⟩
    · split_ifs <;> omega
    · split_ifs <;> omega

/-! ### Temperatures (R485, R486) -/

/-- The firmware's adjustment of one millisecond. -/
theorem execThermalThrottle_running {s : State} (hrun : s.boot.mode = .running) (hclocked : s.clocked = true)
    (hlow : 1 ≤ s.pwr.thermalDuty) (hhigh : s.pwr.thermalDuty ≤ 16) :
    ∃ t, exec .thermalThrottle s = .next t ∧ 1 ≤ t.pwr.thermalDuty ∧ t.pwr.thermalDuty ≤ 16 ∧
      ((s.readings.any fun r => r.2 ≤ r.1) = true → t.pwr.thermalDuty = max 1 (s.pwr.thermalDuty - 2)) ∧
      ((s.readings.all fun r => r.1 + 3 ≤ r.2) = true → t.pwr.thermalDuty = min 16 (s.pwr.thermalDuty + 1)) := by
  have hguard : (decide (s.boot.mode ≠ .running) || !s.clocked) = false := by simp [hrun, hclocked]
  change ∃ t, execThermalThrottle s = _ ∧ _
  unfold execThermalThrottle
  rw [hguard, if_neg Bool.false_ne_true]
  extract_lets hot cool d u
  have hcold : cool = true → hot = false := by
    intro hcool
    refine List.any_eq_false.mpr fun r hr => ?_
    have := of_decide_eq_true (List.all_eq_true.mp hcool r hr)
    simp only [decide_eq_true_eq]
    omega
  have hreading : s.readings.any (fun r => decide (r.2 ≤ r.1)) = hot := rfl
  refine ⟨_, rfl, ?_⟩
  rw [State.setPower_pwr]
  change 1 ≤ (if hot then _ else _ : Nat) ∧ (if hot then _ else _ : Nat) ≤ 16 ∧ (hot = true → (if hot then _ else _ : Nat) = _) ∧
    (cool = true → (if hot then _ else _ : Nat) = _)
  have hd : d = s.pwr.thermalDuty := rfl
  rw [← hd] at hlow hhigh ⊢
  cases hhot : hot
  · cases hcool : cool
    · simp only [Bool.false_eq_true, if_false]
      exact ⟨hlow, hhigh, fun h => h.elim, fun h => h.elim⟩
    · simp only [Bool.false_eq_true, if_false, if_true]
      exact ⟨by omega, by omega, fun h => h.elim, fun _ => trivial⟩
  · have hwarm : cool = false := Bool.eq_false_iff.mpr fun hcool => by rw [hcold hcool] at hhot; exact Bool.false_ne_true hhot
    simp only [hwarm, Bool.false_eq_true, if_true, if_false]
    exact ⟨by omega, by omega, fun _ => trivial, fun h => h.elim⟩

/-! ### The switch and the trips (R477, R486) -/

/-- A reset of the main die keeps the input stage and its trips; the throttling that the main die asked for is gone. -/
theorem State.sysReset_pwr (s : State) (cause reach : Nat) : (s.sysReset cause reach).pwr =
    { s.pwr with capDuty := 16, thermalDuty := 16, samples := [], alert := false, fruRead := false, hotReading := false } := by
  obtain ⟨od, causes, hjoin⟩ := s.joinReset_frame { cause := cause, reach := reach, part := 0 }
  rw [State.sysReset, hjoin]
  exact congrArg (fun x : Power =>
      { x with capDuty := 16, thermalDuty := 16, samples := [], alert := false, fruRead := false, hotReading := false })
    (State.settleRepairs_eq_of_frame State.pwr (fun _ _ => rfl) (fun _ _ => by simp) (fun _ _ => rfl) (fun _ _ => rfl)
      (fun _ _ => rfl) _ _)

/-- An open switch resets the main die with a POR (R477). -/
theorem State.openSwitch_of_closed {s : State} (cause : Nat) (h : s.pwr.closed = true) :
    s.openSwitch cause = ({ s with pwr := { s.pwr with closed := false } }).sysReset cause 4 := if_pos h

theorem State.openSwitch_opens {s : State} (cause : Nat) (h : s.pwr.closed = true) : (s.openSwitch cause).pwr =
    { s.pwr with closed := false, capDuty := 16, thermalDuty := 16, samples := [], alert := false, fruRead := false,
                 hotReading := false } := by
  rw [State.openSwitch_of_closed cause h, State.sysReset_pwr]

/-- A temperature at its limit trips, and the third trip within the hour latches (R486). -/
theorem execThermTrip_at_limit {s : State} {die reading : Nat} (hstandby : s.pwr.standby = true) (hfree : s.pwr.tripped = false)
    (hdie : die ≤ 40) (hhot : (if die < 20 then 100 else 110) ≤ reading) (hclosed : s.pwr.closed = true) :
    ∃ t, exec (.thermTrip die reading) s = .next t ∧ t.pwr.tripped = true ∧ t.pwr.closed = false ∧
      t.pwr.trips = s.scl.scalerS :: s.pwr.trips.filter (fun u => s.scl.scalerS < u + 3600) ∧
      (t.pwr.latched = true ↔ 3 ≤ t.pwr.trips.length) := by
  have hguard : (!s.pwr.standby || s.pwr.tripped || decide (40 < die) ||
      decide (reading < (if die < 20 then 100 else 110))) = false := by
    simp [hstandby, hfree, hdie, Nat.not_lt.mpr hhot]
  change ∃ t, execThermTrip die reading s = _ ∧ _
  unfold execThermTrip
  rw [hguard, if_neg Bool.false_ne_true]
  extract_lets now trips u x v
  have hopen := State.openSwitch_opens (s := v) 0x04 hclosed
  refine ⟨_, rfl, ?_, ?_, ?_, ?_⟩
  all_goals rw [hopen]
  · rfl
  · rfl
  · exact decide_eq_true_iff

/-- The loss of standby power opens the switch and clears the trips (R486, R496). -/
theorem execStandbyLoss_of_standby {s : State} (hstandby : s.pwr.standby = true) :
    ∃ t, exec .standbyLoss s = .next t ∧ t.pwr.standby = false ∧ t.pwr.tripped = false ∧ t.pwr.latched = false ∧
      t.pwr.trips = [] ∧ t.get Ob.THERMAL_TRIPS = 0 ∧ (s.pwr.closed = true → t.pwr.closed = false) := by
  change ∃ t, execStandbyLoss s = _ ∧ _
  unfold execStandbyLoss
  rw [hstandby, Bool.not_true, if_neg Bool.false_ne_true]
  extract_lets u v x
  have hv : v.pwr = u.pwr := by
    simp only [v]
    split <;> rfl
  refine ⟨_, rfl, rfl, rfl, rfl, rfl, State.get_put_self _ _ _, fun hclosed => ?_⟩
  change v.pwr.closed = false
  rw [hv, State.openSwitch_opens 0x03 hclosed]

/-! ### Power and its limits (O58) -/

/-- Settles O58: the duty by what sets it, the faults by the switch that opens. -/
theorem powerStaysWithinItsLimits : Obligations.PowerStaysWithinItsLimits := by
  refine ⟨?duty, ?idle, fun _ => execPowerSample_running, ?fast, ?fastRelease, fun _ => ⟨rfl, rfl⟩,
    fun _ => execThermalThrottle_running, ?opens, fun _ => ⟨rfl, rfl, rfl, rfl⟩, fun _ _ _ => execThermTrip_at_limit, ?release,
    ?latched, ?standbyOn, fun _ => execStandbyLoss_of_standby, ?close⟩
  case duty =>
    intro s x
    rw [State.setPower_pwr, State.setPower_duty]
    exact ⟨rfl, rfl⟩
  case idle =>
    intro s p u core id op k x c hduty
    have hbulk := State.classRuns_bulk_of_duty hduty
    refine ⟨by simp [State.takes, hbulk], by simp [State.laneRuns, hbulk], fun hcls hwork => ?_⟩
    have hruns := State.classRuns_of_atWork hwork
    rw [hcls, hbulk] at hruns
    exact Bool.false_ne_true hruns
  case fast =>
    intro s mw hclosed hover
    exact congrArg Host.Outcome.next (if_pos (by rw [hclosed, decide_eq_true hover, Bool.and_self]))
  case fastRelease =>
    intro s mw hbelow
    exact congrArg Host.Outcome.next (if_pos hbelow)
  case opens =>
    intro s cause hclosed
    refine ⟨by rw [State.openSwitch_opens cause hclosed], ?_, ?_⟩
    · rw [State.openSwitch_of_closed cause hclosed]
      exact State.sysReset_released _ _ _
    · rw [State.openSwitch_of_closed cause hclosed]
      exact State.sysReset_resets _ _ _
  case release =>
    intro s htripped hlatched
    exact congrArg Host.Outcome.next (if_pos (by rw [htripped, hlatched]; rfl))
  case latched =>
    intro s hlatched
    exact congrArg Host.Outcome.next (if_neg (by rw [hlatched, Bool.not_true, Bool.and_false]; exact Bool.false_ne_true))
  case standbyOn =>
    intro s hoff
    exact congrArg Host.Outcome.next (if_neg (by rw [hoff]; exact Bool.false_ne_true))
  case close =>
    intro s hstandby hopen hfree
    exact congrArg Host.Outcome.next (if_pos (by rw [hstandby, hopen, hfree]; rfl))

end Sys2Proof.Machine
end

section
/-!
The links of the two host ports through the end of a host's flows: only an event of Table 5.11 moves a link (R133).
-/
namespace Sys2Proof.Machine

/-- Whether the link of each host port is up. -/
def State.links (s : State) : Bool × Bool := ((s.port 0).linkUp, (s.port 1).linkUp)

theorem State.links_congr {s t : State} (h : t.ports = s.ports) : t.links = s.links := by
  unfold State.links State.port
  rw [h]

theorem State.links_setPort {s : State} {p : Nat} {x : HostPort} (h : x.linkUp = (s.port p).linkUp) :
    (s.setPort p x).links = s.links := by
  by_cases hp : p = 0
  · subst hp
    exact congrArg (·, (s.port 1).linkUp) h
  · have hport : s.port p = s.port 1 := if_neg hp
    rw [hport] at h
    simp only [State.links, State.setPort, State.port, if_neg hp]
    exact congrArg ((s.port 0).linkUp, ·) h

/-- What no turn of a fold over a pair changes in its state, the fold does not change. -/
theorem State.links_foldl_snd {α β : Type} {g : α × State → β → α × State} (h : ∀ a x, (g a x).2.links = a.2.links)
    (l : List β) (a : α × State) : (l.foldl g a).2.links = a.2.links :=
  foldl_eq_of_step_eq (fun a : α × State => a.2.links) h l a

theorem State.links_foldl {β : Type} {g : State → β → State} (h : ∀ t x, (g t x).links = t.links)
    (l : List β) (s : State) : (l.foldl g s).links = s.links :=
  foldl_eq_of_step_eq State.links h l s

/-! ### The state's operations -/

@[simp] theorem State.links_bump (s : State) (k n : Nat) : (s.bump k n).links = s.links := rfl
@[simp] theorem State.links_emit (s : State) (o : Output) : (s.emit o).links = s.links := rfl
@[simp] theorem State.links_setFlow (s : State) (p f : Nat) (x : Flow) : (s.setFlow p f x).links = s.links := rfl
@[simp] theorem State.links_flowGauges (s : State) (p : Nat) : (s.flowGauges p).links = s.links := rfl
@[simp] theorem State.links_setSlots (s : State) (c : Nat) (x : Slot × Slot) : (s.setSlots c x).links = s.links := rfl
@[simp] theorem State.links_setEngine (s : State) (k : UnitKind) (u : Nat) (l : List (Nat × Nat)) :
    (s.setEngine k u l).links = s.links := rfl
@[simp] theorem State.links_setCmd (s : State) (c : Cmd) : (s.setCmd c).links = s.links := rfl
@[simp] theorem State.links_free (s : State) : s.free.2.links = s.links := rfl
@[simp] theorem State.links_chooseOf (s : State) (l : List Nat) : (s.chooseOf l).2.links = s.links := rfl
@[simp] theorem State.links_setOp (s : State) (p : Nat) (o : OpState) : (s.setOp p o).links = s.links := rfl
@[simp] theorem State.links_setSet (s : State) (p n : Nat) (x : SampleSet) : (s.setSet p n x).links = s.links := rfl
@[simp] theorem State.links_setEpoch (s : State) (p e : Nat) (x : Epoch) : (s.setEpoch p e x).links = s.links := rfl
@[simp] theorem State.links_noteMark (s : State) (p f q : Nat) : (s.noteMark p f q).links = s.links := rfl
@[simp] theorem State.links_nextOrdinal (s : State) (p st o b : Nat) : (s.nextOrdinal p st o b).2.links = s.links := rfl
@[simp] theorem State.links_sramWrite (s : State) (u a n : Nat) : (s.sramWrite u a n).links = s.links := rfl
@[simp] theorem State.links_spill (s : State) (p v : Nat) (y : Flow) : (s.spill p v y).links = s.links := rfl
@[simp] theorem State.links_tally (s : State) (p : Nat) (t : Tally) : (s.tally p t).links = s.links := rfl
@[simp] theorem State.links_countRepair (s : State) (wa : Nat) (ps : List Nat) : (s.countRepair wa ps).links = s.links := rfl
@[simp] theorem State.links_occur (s : State) (cause part detail : Nat) : (s.occur cause part detail).links = s.links :=
  State.links_congr (State.occur_ports s cause part detail)
@[simp] theorem State.links_logError (s : State) (e : ErrEntry) : (s.logError e).links = s.links :=
  State.links_congr (State.logError_ports s e)

@[simp] theorem State.links_countDrop (s : State) (p f : Nat) : (s.countDrop p f).links = s.links := by
  unfold State.countDrop
  split <;> rfl

@[simp] theorem OpCtx.links_count (x : OpCtx) (s : State) (k n : Nat) : (x.count s k n).links = s.links := by
  unfold OpCtx.count
  split <;> rfl

@[simp] theorem State.links_countLookup (s : State) (p : Nat) (lat late inBound : Bool) :
    (s.countLookup p lat late inBound).links = s.links := by
  unfold State.countLookup
  dsimp only
  split_ifs <;> rfl

/-! ### Ports: completions, messages and events -/

@[simp] theorem State.links_setCpl (s : State) (p r : Nat) (x : CplRing) : (s.setCpl p r x).links = s.links :=
  State.links_setPort rfl

@[simp] theorem State.links_setRing (s : State) (p r : Nat) (x : CmdRing) : (s.setRing p r x).links = s.links :=
  State.links_setPort rfl

@[simp] theorem State.links_hostOut (s : State) (p addr : Nat) (bs : Bytes) : (s.hostOut p addr bs).links = s.links := by
  unfold State.hostOut
  refine State.links_foldl (fun t x => ?_) _ s
  exact t.links_emit (.hostWrite p x.1 x.2)

@[simp] theorem State.links_msix (s : State) (p v : Nat) : (s.msix p v).links = s.links := by
  unfold State.msix
  dsimp only
  split_ifs
  · rfl
  · rfl
  · exact State.links_setPort rfl

@[simp] theorem State.links_portEvent (s : State) (p bit : Nat) : (s.portEvent p bit).links = s.links := by
  unfold State.portEvent
  dsimp only
  split_ifs
  · rfl
  · exact (State.links_msix _ _ _).trans (State.links_setPort rfl)
  · exact State.links_setPort rfl

@[simp] theorem State.links_partEvent (s : State) (p bit : Nat) : (s.partEvent p bit).links = s.links :=
  State.links_foldl (fun t q => t.links_portEvent q bit) _ s

@[simp] theorem State.links_ringMessage (s : State) (p r : Nat) : (s.ringMessage p r).links = s.links :=
  (State.links_msix _ _ _).trans (State.links_setCpl _ _ _ _)

@[simp] theorem State.links_writeEntry (s : State) (p r : Nat) (c : Cpl) : (s.writeEntry p r c).links = s.links := by
  have hflush := State.links_foldl (g := fun t a => t.emit (.flushRead p a)) (fun _ _ => rfl) c.flush s
  unfold State.writeEntry
  dsimp only
  split <;> simp [hflush]

@[simp] theorem State.links_deliverCpl (s : State) (p r : Nat) (c : Cpl) : (s.deliverCpl p r c).2.links = s.links := by
  unfold State.deliverCpl
  dsimp only
  split_ifs
  · rfl
  · exact State.links_setPort rfl
  · simp
  · simp

/-! ### Commands: completion and what it frees (R127) -/

@[simp] theorem State.links_retire (s : State) (id : Nat) : (s.retire id).2.links = s.links := rfl

@[simp] theorem State.links_unfence (s : State) (id : Nat) : (s.unfence id).links = s.links := by
  unfold State.unfence
  split
  · rfl
  · dsimp only
    split <;> simp

@[simp] theorem State.links_settle (n : Nat) (s : State) (ids : List Nat) : (State.settle n s ids).links = s.links := by
  induction n generalizing s ids with
  | zero => rfl
  | succ n ih =>
    cases ids with
    | nil => rfl
    | cons id rest =>
      refine (ih _ _).trans ((State.links_foldl_snd (fun a i => ?_) _ _).trans (by simp))
      split
      · rfl
      · dsimp only
        split <;> simp

@[simp] theorem State.links_finish (s : State) (id : Nat) (st : Status) (result : Nat) :
    (s.finish id st result).links = s.links := by
  unfold State.finish
  split
  · rfl
  · dsimp only
    split <;> simp

@[simp] theorem State.links_releaseCmd (s : State) (id : Nat) (st : Status) : (s.releaseCmd id st).links = s.links := by
  unfold State.releaseCmd
  split
  · rfl
  · dsimp only
    split <;> simp

/-! ### RLT responses -/

@[simp] theorem State.links_netSend (s : State) (n sub : Nat) (o : Output) : (s.netSend n sub o).links = s.links := by
  unfold State.netSend
  split <;> rfl

@[simp] theorem State.links_sendRsp (s : State) (r : RltReq) (st : Status) (out : Bytes) : (s.sendRsp r st out).links = s.links :=
  State.links_netSend _ _ _ _

@[simp] theorem State.links_releaseRlt (s : State) (i : Nat) (st : Status) (out : Bytes) :
    (s.releaseRlt i st out).links = s.links := by
  unfold State.releaseRlt
  split
  · rfl
  · exact (State.links_sendRsp _ _ _ _).trans (State.links_countLookup _ _ _ _ _)

/-! ### Stored errors -/

@[simp] theorem State.links_sramRead (s : State) (unit part a n : Nat) : (s.sramRead unit part a n).2.links = s.links := by
  refine State.links_foldl_snd (fun acc e => ?_) _ _
  dsimp only
  split <;> exact State.links_logError _ _

@[simp] theorem State.links_bootLog (s : State) (kind status : Nat) (detail : Bytes) :
    (s.bootLog kind status detail).links = s.links := by
  unfold State.bootLog
  dsimp only
  split <;> rfl

@[simp] theorem State.links_noteCe (s : State) (wa source kind pos1 pos2 e : Nat) :
    (s.noteCe wa source kind pos1 pos2 e).links = s.links := by
  unfold State.noteCe
  dsimp only
  split <;> simp

@[simp] theorem State.links_noteUe (s : State) (wa source e : Nat) : (s.noteUe wa source e).links = s.links := by
  unfold State.noteUe
  dsimp only
  split_ifs <;> simp

@[simp] theorem State.links_queueWriteBack (s : State) (wa : Nat) (v : BitVec 64) : (s.queueWriteBack wa v).links = s.links := by
  unfold State.queueWriteBack
  dsimp only
  split_ifs <;> rfl

@[simp] theorem State.links_readWord (s : State) (wa source : Nat) : (s.readWord wa source).2.links = s.links := by
  unfold State.readWord
  dsimp only
  split
  · rfl
  · split_ifs <;> simp
  · simp

/-! ### Reading and writing memory -/

@[simp] theorem State.links_vaultRead (s : State) (source da n : Nat) : (s.vaultRead source da n).2.links = s.links := by
  have hread := State.links_foldl_snd (g := fun (acc : Bool × State) wa =>
    (acc.1 && (acc.2.readWord wa source).1, (acc.2.readWord wa source).2)) (fun _ _ => State.links_readWord _ _ _)
    (s.flipped da n) (true, s)
  unfold State.vaultRead
  dsimp only
  split <;> exact hread

@[simp] theorem State.links_poke (s : State) (da : Nat) (bs : Bytes) : (s.poke da bs).links = s.links := by
  induction bs generalizing s da with
  | nil => rfl
  | cons b bs ih => exact ih (s.setByte da b) (da + 1)

@[simp] theorem State.links_cancelWriteBack (s : State) (wa : Nat) : (s.cancelWriteBack wa).links = s.links := by
  unfold State.cancelWriteBack
  dsimp only
  split <;> rfl

@[simp] theorem State.links_writeAccess (s : State) (da : Nat) (bs : Bytes) : (s.writeAccess da bs).2.links = s.links := by
  have hread := fun ws : List Nat => State.links_foldl_snd (g := fun (acc : Bool × State) wa =>
    (acc.1 && (acc.2.readWord wa srcPartial).1, (acc.2.readWord wa srcPartial).2))
    (fun _ _ => State.links_readWord _ _ _) ws (true, s)
  unfold State.writeAccess
  dsimp only
  split
  · refine (State.links_foldl State.links_cancelWriteBack _ _).trans ?_
    refine (State.links_poke _ _ _).trans ((State.links_foldl (fun t wa => ?_) _ _).trans (hread _))
    split <;> exact State.links_poke _ _ _
  · exact hread _

@[simp] theorem State.links_vaultWrite (s : State) (da : Nat) (bs : Bytes) : (s.vaultWrite da bs).2.links = s.links := by
  unfold State.vaultWrite
  refine State.links_foldl_snd (fun acc x => ?_) _ _
  exact State.links_writeAccess acc.2 x.1 x.2

@[simp] theorem State.links_lbufWrite (s : State) (a : Nat) (bs : Bytes) : (s.lbufWrite a bs).links = s.links := by
  unfold State.lbufWrite
  refine (State.links_sramWrite _ _ _ _).trans (State.links_foldl (fun t x => ?_) _ _)
  exact State.links_congr rfl

@[simp] theorem State.links_devWrite (s : State) (p v : Nat) (bs : Bytes) : (s.devWrite p v bs).2.links = s.links := by
  unfold State.devWrite
  split
  · exact State.links_lbufWrite _ _ _
  · refine State.links_foldl_snd (fun acc x => ?_) _ _
    exact State.links_vaultWrite acc.2 x.1 _

@[simp] theorem State.links_lbufRead (s : State) (a n : Nat) : (s.lbufRead a n).2.links = s.links :=
  State.links_sramRead _ _ _ _ _

@[simp] theorem State.links_devRead (s : State) (source p v n : Nat) : (s.devRead source p v n).2.links = s.links := by
  unfold State.devRead
  split
  · exact State.links_lbufRead _ _ _
  · refine State.links_foldl_snd (fun acc x => ?_) _ _
    exact State.links_vaultRead acc.2 source x.1 x.2

@[simp] theorem State.links_writeRun (l : Layout) (openNo : Row → Nat) (s : State) (da : Nat) (rs : List Row) :
    (State.writeRun l openNo s da rs).links = s.links := by
  induction rs generalizing s da with
  | nil => rfl
  | cons r rs ih => exact (ih _ _).trans (State.links_vaultWrite _ _ _)

/-! ### Flows, items and contexts -/

@[simp] theorem State.links_closeIfDrained (s : State) (p f : Nat) : (s.closeIfDrained p f).links = s.links := by
  unfold State.closeIfDrained
  split
  · split <;> rfl
  · rfl

@[simp] theorem State.links_leaveUnit (s : State) (k : UnitKind) (u f q : Nat) : (s.leaveUnit k u f q).links = s.links := by
  unfold State.leaveUnit
  dsimp only
  split
  · split <;> rfl
  · rfl

@[simp] theorem State.links_unplace (s : State) (k : UnitKind) (u f q : Nat) : (s.unplace k u f q).links = s.links := by
  unfold State.unplace
  dsimp only
  split
  · split_ifs <;> simp
  · simp

@[simp] theorem State.links_unblock (s : State) (p f q : Nat) : (s.unblock p f q).links = s.links := by
  unfold State.unblock
  split <;> rfl

@[simp] theorem State.links_failFlow (s : State) (p f : Nat) : (s.failFlow p f).links = s.links := by
  unfold State.failFlow
  split
  · rfl
  · exact State.links_closeIfDrained _ _ _

@[simp] theorem State.links_readContext (s : State) (p f i : Nat) : (s.readContext p f i).links = s.links := by
  unfold State.readContext
  dsimp only
  split <;> simp

@[simp] theorem State.links_refill (s : State) (p f i : Nat) (x : Flow) : (s.refill p f i x).links = s.links := by
  unfold State.refill
  dsimp only
  split <;> simp

theorem State.links_touch {s t : State} {p f : Nat} (h : s.touch p f = some t) : t.links = s.links := by
  unfold State.touch at h
  split at h
  · exact congrArg State.links (Option.some.inj h).symm
  · dsimp only at h
    split_ifs at h
    · rw [← Option.some.inj h]
      simp
    · rw [← Option.some.inj h]
      simp
    · obtain ⟨v, -, hv⟩ := Option.bind_eq_some_iff.mp h
      obtain ⟨y, -, rfl⟩ := Option.map_eq_some_iff.mp hv
      simp

@[simp] theorem State.links_entryFor (s : State) (p f : Nat) (x : Flow) (pl : Place) :
    (s.entryFor p f x pl).2.links = s.links := by
  cases pl <;> rfl

@[simp] theorem State.links_enqueueNow (s : State) (p f : Nat) (it : Item) : (s.enqueueNow p f it).2.links = s.links := by
  unfold State.enqueueNow
  split
  · rfl
  split
  · rfl
  next t htouch =>
    have ht : t.links = s.links := State.links_touch htouch
    split
    · exact ht
    split
    · exact ht
    split
    · dsimp only
      split <;> exact ht
    · dsimp only
      split <;> simp [ht]

@[simp] theorem State.links_enqueueBolt (s : State) (p f : Nat) (it : Item) : (s.enqueueBolt p f it).2.links = s.links := by
  have hnow : ∀ it, (s.numbered.enqueueNow p f it).2.links = s.links := State.links_enqueueNow s.numbered p f
  unfold State.enqueueBolt
  dsimp only
  split_ifs
  · rfl
  · rfl
  · split
    all_goals
      next hres => exact ((congrArg (fun r => State.links r.2) hres).symm.trans (hnow _) :)

@[simp] theorem State.links_enqueueAll (s : State) (p f : Nat) (its : List Item) : (s.enqueueAll p f its).links = s.links :=
  State.links_foldl (fun t it => t.links_enqueueBolt p f it) its s

/-! ### Records and runs of rows -/

@[simp] theorem State.links_putRun (s : State) (p : Nat) (im : Image) (l : Layout) (rs : List Row) (target : Nat) :
    (s.putRun p im l rs target).2.links = s.links := by
  unfold State.putRun
  dsimp only
  split <;> split <;> simp

@[simp] theorem State.links_enqueuePieces (s : State) (p f : Nat) (im : Image) (l : Layout) (ps : List Piece) :
    (s.enqueuePieces p f im l ps).links = s.links := by
  unfold State.enqueuePieces
  refine State.links_foldl (fun t g => ?_) _ s
  split <;> simp

@[simp] theorem State.links_sendRecord (s : State) (p : Nat) (x : Flow) (st : Status) (table stream openNo object : Nat)
    (row : Option (Row × Nat)) : (s.sendRecord p x st table stream openNo object row).links = s.links := by
  unfold State.sendRecord
  dsimp only
  split
  · simp
  split
  · simp
  split <;> simp

/-! ### Batches -/

@[simp] theorem State.links_toOperand (s : State) (p k : Nat) (q : BatchPlan) (b : Batch) :
    (s.toOperand p k q b).2.links = s.links := by
  unfold State.toOperand
  dsimp only
  split
  · rfl
  · refine State.links_foldl_snd (fun acc y => ?_) _ _
    refine (State.links_foldl (fun u z => ?_) _ _).trans (State.links_devRead _ _ _ _ _)
    exact State.links_devWrite u p _ z.1

@[simp] theorem State.links_queueBatch (s : State) (p e : Nat) (x : Epoch) (b : Batch) (next : Nat) (ending : Bool) :
    (s.queueBatch p e x b next ending).links = s.links := by
  unfold State.queueBatch
  dsimp only
  split <;> simp

@[simp] theorem State.links_fillOne (s : State) (p e : Nat) (x : Epoch) (r : Released) : (s.fillOne p e x r).links = s.links := by
  unfold State.fillOne
  dsimp only
  split_ifs <;> simp only [State.links_queueBatch, State.links_setEpoch, State.links_bump] <;> split <;> simp

@[simp] theorem State.links_consumeReleased (p e n : Nat) (s : State) : (State.consumeReleased p e n s).links = s.links := by
  induction n generalizing s with
  | zero => rfl
  | succ n ih =>
    unfold State.consumeReleased
    split
    · rfl
    split
    · split
      · rfl
      · exact (ih _).trans (State.links_fillOne _ _ _ _ _)
    · rfl

@[simp] theorem State.links_fillBatch (s : State) (p e : Nat) (r : Released) : (s.fillBatch p e r).links = s.links := by
  unfold State.fillBatch
  split
  · rfl
  · exact State.links_consumeReleased _ _ _ _

@[simp] theorem State.links_releasePosition (s : State) (p e : Nat) (r : Released) :
    (s.releasePosition p e r).links = s.links := by
  unfold State.releasePosition
  split
  · split <;> simp
  · rfl

/-! ### Sample sets -/

@[simp] theorem State.links_appendEntry (s : State) (p n : Nat) (row : Option (Layout × Row)) (st : Status)
    (stream openNo object ordinal : Nat) : (s.appendEntry p n row st stream openNo object ordinal).2.links = s.links := by
  unfold State.appendEntry
  dsimp only
  split
  · rfl
  split
  · rfl
  split
  · rfl
  · cases row <;> simp

@[simp] theorem State.links_sinkPiece (s : State) (p f set : Nat) (l : Layout) (x : Piece) :
    (s.sinkPiece p f set l x).links = s.links := by
  unfold State.sinkPiece
  cases x <;> (dsimp only; split <;> simp)

@[simp] theorem State.links_passHole (s : State) (p f : Nat) (st : Status) (stream openNo object ordinal : Nat) :
    (s.passHole p f st stream openNo object ordinal).links = s.links := by
  unfold State.passHole
  split
  · rfl
  · split <;> simp

@[simp] theorem State.links_sendPieces (s : State) (p f : Nat) (x : StageOut) (ordered : Bool) (ps : List Piece) :
    (s.sendPieces p f x ordered ps).links = s.links := by
  have hdrops := State.links_foldl (g := fun t _ => t.countDrop p f) (fun t _ => t.links_countDrop p f)
    (ps.filter Piece.isHole) s
  unfold State.sendPieces
  dsimp only
  split
  · exact (State.links_foldl (fun t y => t.links_sinkPiece p f _ _ y) _ _).trans hdrops
  · exact (State.links_enqueuePieces _ _ _ _ _ _).trans hdrops
  · exact hdrops

/-! ### Operators -/

@[simp] theorem State.links_chain (x : OpCtx) (n : Nat) (s : State) (b : Nat) : (State.chain x n s b).2.links = s.links := by
  induction n generalizing s b with
  | zero => rfl
  | succ n ih =>
    have hread := State.links_vaultRead s srcBulk (x.at' (64 * b)) 64
    unfold State.chain
    split
    · next hres => rwa [hres] at hread
    · next y t hres =>
      rw [hres] at hread
      have hrest := (ih t (bucketNext y)).trans hread
      split_ifs
      · exact hread
      · split
        · next hchain => rwa [hchain] at hrest
        · exact hrest

@[simp] theorem State.links_appendChain (s : State) (x : OpCtx) (t : BuildTable) (bs : List (Nat × Bytes)) (e : Nat × Nat) :
    (s.appendChain x t bs e).2.links = s.links := by
  unfold State.appendChain
  split
  · rfl
  · dsimp only
    split <;> simp

@[simp] theorem State.links_rowAt (s : State) (l : Layout) (da : Nat) : (s.rowAt l da).2.links = s.links := by
  have hread := State.links_vaultRead s srcBulk da 4
  unfold State.rowAt
  split <;> next hres => rw [hres] at hread; simpa using hread

@[simp] theorem State.links_withKey (y : OpCtx) (tag : Nat) (key : List Val) (es : List (Nat × Nat)) (s : State) :
    (State.withKey y tag key es s).2.links = s.links := by
  induction es generalizing s with
  | nil => rfl
  | cons e es ih =>
    have hrow := State.links_rowAt s y.inL (y.at' (64 * e.2))
    unfold State.withKey
    split
    · exact ih s
    split
    · next hres => rwa [hres] at hrow
    · next b t hres =>
      rw [hres] at hrow
      have hrest := (ih t).trans hrow
      dsimp only
      split
      · next hkey => rwa [hkey] at hrest
      · exact hrest

@[simp] theorem State.links_probe (s : State) (y : OpCtx) (t : BuildTable) (g : Nat) (key : List Val) :
    (s.probe y t g key).2.links = s.links := by
  have hchain := State.links_chain y (t.overflow + 1) s (y.bucketOf g)
  unfold State.probe
  split
  · rfl
  split
  · next hres => rwa [hres] at hchain
  · next hres =>
    rw [hres] at hchain
    exact (State.links_withKey _ _ _ _ _).trans hchain

@[simp] theorem State.links_groupRead (s : State) (x : OpCtx) (i : Nat) (g : Group) : (s.groupRead x i g).2.links = s.links :=
  State.links_vaultRead _ _ _ _

theorem links_opSample (x : OpCtx) (r : Row) (s : State) : (opSample x r s).2.links = s.links := by
  unfold opSample
  dsimp only
  split_ifs <;> rfl

theorem links_opCross (x : OpCtx) (r : Row) (s : State) : (opCross x r s).2.links = s.links := by
  unfold opCross
  dsimp only
  split
  · rfl
  · split <;> simp

theorem links_opBag (x : OpCtx) (r : Row) (s : State) : (opBag x r s).2.links = s.links := by
  unfold opBag
  extract_lets ids wc mismatch lim
  split
  · rfl
  · split <;> simp

theorem links_opJoinBuild (x : OpCtx) (r : Row) (s : State) : (opJoinBuild x r s).2.links = s.links := by
  unfold opJoinBuild
  dsimp only
  split
  · rfl
  split
  · simp
  · have hchain := State.links_chain x ((s.opState x.p x.handle x.op x.core).build.overflow + 1) s
      (x.bucketOf (joinHash (rowKeyWord x.inL (keyCols (x.b 39 8)) r) (x.b 103 40)))
    split <;> next hres => rw [hres] at hchain; simpa using hchain

theorem links_opJoinProbe (x : OpCtx) (r : Row) (s : State) : (opJoinProbe x r s).2.links = s.links := by
  unfold opJoinProbe
  extract_lets y o cols key g lim
  have hprobe := s.links_probe y o.build g key
  split
  · rfl
  split
  · next hres => rwa [hres] at hprobe
  · next hres =>
    rw [hres] at hprobe
    extract_lets outs capped rows counted
    have hcounted : counted.links = s.links := (OpCtx.links_count _ _ _ _).trans ((State.links_tally _ _ _).trans hprobe)
    split <;> exact hcounted

theorem links_opGroupBy (x : OpCtx) (r : Row) (s : State) : (opGroupBy x r s).2.links = s.links := by
  unfold opGroupBy
  extract_lets cols aggs o key vals i old g k
  have hread : k.2.links = s.links := by
    unfold k
    split
    · exact State.links_groupRead _ _ _ _
    · rfl
  split
  · simp
  split
  · exact hread
  · exact (State.links_setOp _ _ _).trans ((State.links_vaultWrite _ _ _).trans hread)

theorem links_opDedupe (x : OpCtx) (h : HeldRow) (s : State) : (opDedupe x h s).2.links = s.links := by
  unfold opDedupe
  dsimp only
  split_ifs <;> simp

theorem links_opRepartition (x : OpCtx) (r : Row) (s : State) : (opRepartition x r s).2.links = s.links := by
  unfold opRepartition
  dsimp only
  split <;> simp

@[simp] theorem links_opStep (x : OpCtx) (h : HeldRow) (s : State) : (opStep x h s).2.links = s.links := by
  unfold opStep
  split
  · rfl
  · rfl
  · rfl
  · rfl
  · rfl
  · exact links_opCross x h.row s
  · exact links_opJoinBuild x h.row s
  · exact links_opJoinProbe x h.row s
  · exact links_opGroupBy x h.row s
  · exact links_opDedupe x h s
  · exact links_opSample x h.row s
  · rfl
  · exact links_opBag x h.row s
  · exact links_opRepartition x h.row s
  · rfl

@[simp] theorem links_opRow (x : OpCtx) (da : Nat) (r : Row) (s : State) : (opRow x da r s).2.links = s.links := by
  have hread := State.links_vaultRead s srcBulk da (rowLen x.inL r)
  unfold opRow
  dsimp only
  split <;> next hres => rw [hres] at hread; simpa using hread

@[simp] theorem links_opRun (x : OpCtx) (da : Nat) (rs : List Row) (s : State) : (opRun x da rs s).2.links = s.links := by
  induction rs generalizing da s with
  | nil => rfl
  | cons r rs ih => exact (ih _ _).trans (links_opRow x da r s)

/-! ### Items that end, and flows that close -/

@[simp] theorem State.links_deliverRows (s : State) (p f : Nat) (ordered : Bool) (it : Item) (rs : List Row) :
    (s.deliverRows p f ordered it rs).links = s.links := by
  unfold State.deliverRows
  split
  · split <;> simp
  · split
    · split <;> simp
    · rfl

@[simp] theorem State.links_deliverOutcome (s : State) (p f : Nat) (x : Flow) (it : Item) (ps : List Piece) :
    (s.deliverOutcome p f x it ps).links = s.links := by
  unfold State.deliverOutcome
  split
  · split <;> simp
  · split <;> simp

@[simp] theorem State.links_deliver (s : State) (p f : Nat) (x : Flow) (it : Item) : (s.deliver p f x it).links = s.links := by
  unfold State.deliver
  split
  · rfl
  split
  · rfl
  · exact State.links_releaseCmd _ _ _
  · exact State.links_releaseRlt _ _ _ _
  · exact State.links_sendRecord _ _ _ _ _ _ _ _ _
  · exact State.links_releasePosition _ _ _ _
  · exact State.links_releasePosition _ _ _ _
  · split_ifs <;> simp
  · split <;> simp
  · exact State.links_deliverRows _ _ _ _ _ _
  · exact State.links_deliverOutcome _ _ _ _ _ _

@[simp] theorem State.links_endItem (s : State) (p f : Nat) (it : Item) (bolt : Bool) : (s.endItem p f it bolt).links = s.links := by
  unfold State.endItem
  split
  · rfl
  · simp only [State.links_flowGauges, State.links_closeIfDrained]
    refine (State.links_foldl (fun t y => t.links_deliver p f _ y) _ _).trans ?_
    simp only [State.links_setFlow, State.links_unblock]
    split
    · split <;> simp
    · rfl

@[simp] theorem State.links_dropQueued (s : State) (p f : Nat) (st : Status) : (s.dropQueued p f st).links = s.links := by
  unfold State.dropQueued
  split
  · rfl
  · exact State.links_foldl (fun t it => t.links_endItem p f _ false) _ s

@[simp] theorem State.links_closeFlow (s : State) (p f : Nat) : (s.closeFlow p f).links = s.links := by
  unfold State.closeFlow
  split
  · rfl
  · split <;> simp

@[simp] theorem State.links_closeOwned (s : State) (port : Nat) : (s.closeOwned port).links = s.links := by
  unfold State.closeOwned
  refine State.links_foldl (fun t e => ?_) _ s
  exact t.links_closeFlow _ e.1

/-! ### A port that is cleared, and its link -/

@[simp] theorem State.links_discardAll (s : State) (ids : List Nat) : (s.discardAll ids).links = s.links := by
  unfold State.discardAll
  exact State.links_foldl (fun t i => State.links_settle _ t [i]) _ _

@[simp] theorem State.links_endMailbox (s : State) (p : Nat) : (s.endMailbox p).links = s.links := by
  unfold State.endMailbox
  exact State.links_foldl (g := fun (t : State) i => t.endSession i) (fun _ _ => rfl) _ s

@[simp] theorem State.links_clearPort (s : State) (p : Nat) : (s.clearPort p).links = s.links := by
  unfold State.clearPort
  refine (State.links_setPort ?_).trans ((State.links_endMailbox _ _).trans (State.links_discardAll _ _))
  rfl

theorem State.links_dropLink_zero (s : State) : (s.dropLink 0).links.1 = false := by
  by_cases hup : (s.port 0).linkUp = true
  · exact (State.dropLink_clears hup).1
  · simp [State.links, State.dropLink, hup]

theorem State.links_dropLink_one (s : State) : (s.dropLink 1).links = (s.links.1, false) := by
  by_cases hup : (s.port 1).linkUp = true
  · refine Prod.ext ?_ (State.dropLink_clears hup).1
    simp [State.links, State.dropLink, hup]
    rfl
  · simp [State.links, State.dropLink, hup]

end Sys2Proof.Machine
end

section
/-!
The entry into DEEP_SLEEP (R461), and the clocks' obligation put together.
-/
namespace Sys2Proof.Machine

/-- The links of both ports go down, as in Table 5.11. -/
theorem State.links_dropPorts (s : State) :
    ([0, 1].foldl (fun (t : State) p => ((t.dropLink p).clearPort p).closeOwned p) s).links = (false, false) := by
  simp [State.links_dropLink_one, State.links_dropLink_zero]

theorem execDeepSleepEntry_of_drained {s : State} (hdraining : s.clk.draining.isSome = true) (hdrained : s.drained = true) :
    ∃ t, exec .deepSleepEntry s = .next t ∧ t.clk.asleep = true ∧ t.clk.draining = none ∧ t.clk.ioscOk = false ∧
      t.get Ob.POWER_MODE = 2 ∧ (t.port 0).linkUp = false ∧ (t.port 1).linkUp = false := by
  have hlinks := (s.answer .deepSleep 0 .ok).links_dropPorts
  obtain ⟨u, hu⟩ : ∃ u, [0, 1].foldl (fun (t : State) p => ((t.dropLink p).clearPort p).closeOwned p)
    (s.answer .deepSleep 0 .ok) = u := ⟨_, rfl⟩
  rw [hu] at hlinks
  obtain ⟨hpa, hpb⟩ := Prod.mk.inj hlinks
  refine ⟨({ u with clk := { u.clk with draining := none, asleep := true, ioscOk := false } } : State).put Ob.POWER_MODE 2,
    ?_, rfl, rfl, rfl, State.get_put_self _ _ _, hpa, hpb⟩
  change execDeepSleepEntry s = _
  rw [execDeepSleepEntry, hdraining, hdrained, Bool.and_self, if_pos rfl, ← hu]

theorem execUnitGated_of_idle {s : State} {u since : Nat} (hfind : s.clk.gating.find? (·.1 == u) = some (u, since))
    (hidle : s.unitIdle (unitKind u) (u % 2048) = true) :
    exec (.unitGated u) s = .next { s with clk := { s.clk with
      gating := s.clk.gating.filter (·.1 != u), gated := u :: s.clk.gated } } := by
  change execUnitGated u s = _
  unfold execUnitGated
  rw [hfind]
  dsimp only
  rw [hidle, Bool.or_true, Bool.true_or, if_pos rfl, if_pos rfl]

theorem execMclkDiv_of_go {s t : State} {acc : Access} {w : Writer} {v : Bytes}
    (h : s.arrive acc (fun k v => isKey Ob.MCLK_DIV k v || isKey Ob.PCLK_DIV k v) = .go w v t) :
    exec (.mclkDiv acc) s = .next (match opDivider w (leNat v) t with
      | (some st, u) => u.respond w.reply st
      | (none, u) => u) := by
  change execMclkDiv acc s = _
  refine congrArg Host.Outcome.next ?_
  rcases hop : opDivider w (leNat v) t with ⟨_ | st, u⟩
  · exact State.write_defers h hop
  · exact State.write_answers h hop

theorem execGateRun_of_go {s t : State} {acc : Access} {w : Writer} {v : Bytes}
    (h : s.arrive acc (fun k v => isKey Ob.GATE_RUN k v || isKey Ob.GATE_SLEEP k v) = .go w v t) :
    exec (.gateRun acc) s = .next (if 2 ^ 35 ≤ leNat v then t.respond w.reply .badDescriptor
      else ((t.put (w.idx * 256 + w.sub) (leNat v)).applyGates).respond w.reply .ok) := by
  change execGateRun acc s = _
  refine congrArg Host.Outcome.next ?_
  split_ifs with hrange
  · exact State.write_answers h (if_pos hrange)
  · exact State.write_answers h (if_neg hrange)

/-- DEEP_SLEEP is refused where the module has not drained in 4,000 ticks (R461). -/
theorem execDeepSleepRefused_of_late {s : State} {t0 : Nat} (hdraining : s.clk.draining = some t0)
    (hdrained : s.drained = false) (hlate : 4000 ≤ s.since t0) :
    exec .deepSleepRefused s =
      .next (({ s with clk := { s.clk with draining := none } }).answer .deepSleep 0 .resourceHeld) := by
  change execDeepSleepRefused s = _
  rw [execDeepSleepRefused, hdraining]
  exact congrArg Host.Outcome.next (if_pos (by rw [hdrained, decide_eq_true hlate]; rfl))

theorem execWake_of_not_enabled {s : State} {n : Nat} (h : s.wakes n = false) : exec (.wake n) s = .next s := by
  change execWake n s = _
  rw [execWake, h, Bool.and_false, if_neg Bool.false_ne_true]

/-- Settles O57: each row of clocks and modes acts where its guard holds; the entry into DEEP_SLEEP drops both links. -/
theorem clocksQualifySwitchAndGate : Obligations.ClocksQualifySwitchAndGate := by
  unfold Obligations.ClocksQualifySwitchAndGate
  exact ⟨fun s => execXoQualified_of_lost, fun s => execIoscQualified_of_lost, fun s => execReferenceSwitch_of_qualified,
    fun s hreleased hxo hiosc _ => execMonitorTrip_xo hreleased hxo hiosc, fun s => execMonitorTrip_iosc,
    fun s h => congrArg Host.Outcome.next (if_pos h), fun s h => congrArg Host.Outcome.next (if_pos h),
    fun s t acc w v => execMclkDiv_of_go, fun s t acc w v => execGateRun_of_go, fun s u since => execUnitGated_of_idle,
    fun s t acc w v h => congrArg Host.Outcome.next (State.write_answers h rfl),
    fun s t acc w v h => congrArg Host.Outcome.next (State.write_answers h rfl),
    fun s t acc w v h => congrArg Host.Outcome.next (State.write_defers h rfl),
    fun s => execDeepSleepEntry_of_drained, fun s t0 => execDeepSleepRefused_of_late, fun s n => execWake_of_enabled,
    fun s n => execWake_of_not_enabled⟩

end Sys2Proof.Machine
end
